-- ==== Sys2Proof/Word.lean ====
section
/-! DEFINITION. The machine's words: a register is 32 bits (R496), memory is addressed in bytes (R17). -/

namespace Sys2Proof

/-- A register or a 32-bit word. -/
abbrev Word := BitVec 32

/-- One byte. -/
abbrev Byte := BitVec 8

end Sys2Proof
end

