-- ==== Sys2Proof/Syntax.lean ====
section
/-! DEFINITION. The commands of the block (one constructor per row of spec/opcode_table.json) and the operand types they
carry. -/

namespace Sys2Proof

/-- The kind of a fabric request (R19, R443). -/
inductive Acc where
  | read | write | fetch
deriving DecidableEq, Repr

/-- One fabric request (R19): the master's identity, the kind, the 40-bit address, the size in bytes, the bytes written
(`data`, of a write), and the byte enables of a write (empty: every byte enabled). -/
structure Req where
  master : Nat
  kind : Acc
  addr : Nat
  size : Nat
  data : List Byte
  en : List Bool
deriving DecidableEq, Repr

/-- A bit error that the outside world has put into a 64-bit half (R423): its byte address, and whether more than one bit is
wrong (uncorrectable). -/
structure Upset where
  addr : Nat
  ue : Bool
deriving DecidableEq, Repr

/-- A CAN frame (R242, R247): identifier, format flags, DLC and data. -/
structure CanFrame where
  id : Nat
  ide : Bool
  rtr : Bool
  fdf : Bool
  brs : Bool
  esi : Bool
  dlc : Nat
  data : List Byte
deriving DecidableEq, Repr

/-- What the baseband measures of one channel at a B0 edge (R123, R125): the L5 part when `l5`. -/
structure GnsMeas where
  ch : Nat
  l5 : Bool
  lock : Bool
  slip : Bool
  cn0 : Nat
  code : Nat
  epochs : Nat
  carrier : Nat
  doppler : Int
  disc : Int
deriving DecidableEq, Repr

/-- A lane still at work at the wall deadline (R203): its phase there (2 setup, 3 factorisation, 4 iterations, 5 passes, 6 store)
and the iterations or passes it has completed. -/
structure LaneCut where
  lane : Nat
  phase : Nat
  done : Nat
deriving DecidableEq, Repr

/-- What the outside world and the elapsed time bring to a beat edge: the jobs issued by the B10 edge when assembly is not
complete there, the lanes still at work at the B34 edge, the baseband's measurements (at B0), and per IF input whether its clock has
been continuous for 1 ms, the magnitude density of the beat in tenths of a percent, the mean noise power in 0.25 dB, the
candidate interferers, strongest first (input, offset in 8 Hz units), the notches whose bin lies low (R112–R115), the two of the first line, and the junction temperature in 1/16 °C (R493). -/
structure EdgeIn where
  gns : List GnsMeas
  clk : List Bool
  dens : List Nat
  nf : List Nat
  cands : List (Nat × Int)
  low : List (Nat × Nat)
  asm : Nat
  cuts : List LaneCut
  tj : Int
deriving DecidableEq, Repr


/-- The commands of the block: one constructor per row of spec/opcode_table.json. An operand is what the sender writes or
what the outside world brings (a master's identity, a written value, a received message, a measured value). -/
inductive Instr where
  /-- `FABRIC_REQUEST` (R19). A master issues a read, write or fetch to a target; the fabric checks it, performs
      it or refuses it, and returns exactly one response. -/
  | fabricRequest (r : Req)
  /-- `REGISTER_WRITE` (R9). A write to a register that has no row of its own takes effect according to its access
      type. -/
  | registerWrite (m a : Nat) (v : Word)
  /-- `BLOCK_RESET` (R29). A write of 1 to xxx_CTRL.RESET puts the block into reset and retires its queued and in-
      flight requests. -/
  | blockReset (p : Nat) (masters : List Nat)
  /-- `BLOCK_RESET_END` (R30). After 64 FAB cycles the block leaves reset and clears RESET itself. -/
  | blockResetEnd (p : Nat)
  /-- `BLOCK_QUIESCE` (R32). A write of QUIESCE makes the block issue no new master requests until QUIET reads 1. -/
  | blockQuiesce (p : Nat) (on : Bool)
  /-- `BLOCK_ENABLE` (R497). A write of xxx_CTRL.ENABLE stops or resumes the block's new work. -/
  | blockEnable (p : Nat) (on : Bool)
  /-- `PAGE_LOCK` (R497). A write of 1 to a bit of xxx_LOCK locks the RWL fields of that area of the page. -/
  | pageLock (p : Nat) (v : Word)
  /-- `EVENT_SET` (R499). A write to xxx_EVENT_SET, or a raise by the block, sets an event bit and asserts its
      source. -/
  | eventSet (p : Nat) (v : Word)
  /-- `EVT_CLAIM` (R25). A read of EVT_CLAIM[t] returns the highest-priority claimable source and marks it
      claimed. -/
  | evtClaim (t : Nat)
  /-- `EVT_DONE` (R26). A write to EVT_DONE[t] releases a claimed source for target t. -/
  | evtDone (t n : Nat)
  /-- `EVT_ROUTE_WRITE` (R27). A write to EVT_ROUTE[n] sets its routing, and the SHP field changes only when the
      shepherd core writes it. -/
  | evtRouteWrite (m n : Nat) (v : Word)
  /-- `CLOCK_FAULT` (R23). REFCLK departs from 25 MHz or a PLL loses lock; CAN, Icvo and PAIR_BEAT stop and the
      shepherd core resets the main island. -/
  | clockFault
  /-- `RAIL_FAULT` (R482). A main rail falls more than 5 % below its minimum for more than 2 µs and is treated as
      a clock fault. -/
  | railFault
  /-- `RAIL_RECOVERED` (R482). After the rail has been back in range for 1 ms, the main island leaves reset. -/
  | railRecovered
  /-- `BEAT_EDGE` (R39). Disciplined time reaches a beat edge; commits, captures, latches, slot evaluation, helm
      frames and deadlines of that beat follow. -/
  | beatEdge (e : EdgeIn)
  /-- `OVR_PERSIST` (R47). PERSIST consecutive overrun frames raise OVR_PERSIST to the shepherd core. -/
  | ovrPersist
  /-- `FENCE_GRAZE` (R227). The dwell count reaches FRAMES and the fence state becomes GRAZE. -/
  | fenceGraze
  /-- `BEATS_START` (R37). Beats start at the first B0 edge after disciplined time is first acquired. -/
  | beatsStart (e : EdgeIn)
  /-- `FREE_RUN_START` (R37). START_TMO expires with ALLOW_FREE at 1 and beats start in free-run. -/
  | freeRunStart (e : EdgeIn)
  /-- `FUSION_STAGE_DONE` (R40). The fusion block completes alignment and voting and writes the fused records. -/
  | fusionStageDone
  /-- `ASSEMBLY_DONE` (R180). The assembler finishes building and issuing the frame's jobs. -/
  | assemblyDone
  /-- `LANE_LOAD_DONE` (R193). A lane's load of its image and warm start completes and the lane starts work. -/
  | laneLoadDone (l : Nat)
  /-- `LANE_JOB_DONE` (R200). A lane finishes its job and stores its completion record and result. -/
  | laneJobDone (l : Nat)
  /-- `LANE_ARRAY_DONE` (R204). The lane array's last store has been performed and the problem and result deeds
      pass to command formation. -/
  | laneArrayDone
  /-- `LANE_ECC_UE` (R217). An uncorrectable error in lane memory ends the job STALE with reason LANE_ECC. -/
  | laneEccUe (l : Nat)
  /-- `CMD_FORMATION_DONE` (R231). Command formation selects a result and writes the set-points and trajectory
      into the shadows. -/
  | cmdFormationDone
  /-- `IMAGE_INSTANT` (R321). Command formation completes the frame record; the device sections and the frame's
      outputs follow. -/
  | imageInstant
  /-- `FRM_NUM_READ` (R60). A read of CMD_FRM_NUM_LO latches the frame-record registers of the same frame. -/
  | frmNumRead
  /-- `REPLAY_SNAPSHOT_SEND` (R54). The queued replay datagrams of a frame are sent on the replay port. -/
  | replaySnapshotSend
  /-- `REPLAY_FULL_REQUEST` (R55). A write of FULL_REQ queues a full strongbox image for replay. -/
  | replayFullRequest
  /-- `REPLAY_DATAGRAM_RX` (R57). A receiving unit takes a replay datagram, or discards it. -/
  | replayDatagramRx (b : List Byte)
  /-- `PORT_CFG_WRITE` (R64). A write to FUS_PORT_CFG changes the port's configuration, with refusal of invalid
      TYPE values. -/
  | portCfgWrite (p : Nat) (v : Word)
  /-- `DEPOSIT_WINDOW_WRITE` (R69). A write to FUS_DEP is taken only from the owner; other writes set FOREIGN. -/
  | depositWindowWrite (m p w : Nat) (v : Word)
  /-- `DEPOSIT_COMMIT` (R70). A write to FUS_DEP_COMMIT from the owner queues the window as one sample. -/
  | depositCommit (m p : Nat)
  /-- `SCAN_COPY_DONE` (R73). The copy of a scan's point block into the scan store completes and the scan arrives. -/
  | scanCopyDone (p : Nat)
  /-- `GRID_PASS_DONE` (R109). A grid pass completes and yields a pose or a reason. -/
  | gridPassDone
  /-- `GFE_WEIGHT_LOAD` (R104). GFE_CTRL.ENABLE changing from 0 to 1 loads and checks the weight blob. -/
  | gfeWeightLoad
  /-- `SCAN_CLR` (R100). A write of SCAN_CLR clears GFE_POSE_STAT.SCAN_DROP. -/
  | scanClr
  /-- `IF_DOWN` (R113). An IF clock shows no edge for 1 µs; the input is down and its channels go to LOST. -/
  | ifDown (i : Nat)
  /-- `JAM_CAL` (R115). A write of GNS_JAM_CFG.CAL copies GAIN and NF into the references. -/
  | jamCal
  /-- `CHANNEL_START` (R116). RUN set with MODE 0 puts the channel in SEARCH and queues it for acquisition. -/
  | channelStart (c : Nat) (v : Word)
  /-- `CHANNEL_STOP` (R116). RUN at 0 removes the channel from the queue and sets it OFF. -/
  | channelStop (c : Nat) (v : Word)
  /-- `CHANNEL_DIRECT_START` (R119). RUN set with MODE 1 enters PULL_IN at the next B0 edge without acquisition. -/
  | channelDirectStart (c : Nat) (v : Word)
  /-- `ACQ_DONE` (R117). An acquisition search ends; the channel enters PULL_IN or is requeued. -/
  | acqDone (r code : Nat) (b : Int)
  /-- `PULL_IN_LOCK` (R118). The lock indicator holds for 20 ms and the channel enters TRACK. -/
  | pullInLock (c : Nat)
  /-- `PULL_IN_TIMEOUT` (R118). A channel still in PULL_IN after 1 s is requeued. -/
  | pullInTimeout (c : Nat)
  /-- `TRACK_LOSS` (R118). C/N0 below LOSS_CN0 for 1 s sends the channel to LOST. -/
  | trackLoss (c : Nat)
  /-- `L5_PULL_IN_END` (R121). The L5 part enters TRACK within 40 ms or goes to LOST. -/
  | l5PullInEnd (c : Nat) (track : Bool)
  /-- `L5_RETRY` (R121). An L5 part in LOST retries after 1 s. -/
  | l5Retry (c : Nat)
  /-- `SNAP_GO` (R127). A write of GO schedules an IF snapshot capture, or refuses it with an error. -/
  | snapGo (v : Word)
  /-- `SNAP_DONE` (R128). A snapshot capture completes or ends early and its header is written. -/
  | snapDone (t0 : Nat) (d : List Byte)
  /-- `GNSS_TIME_OBS` (R129). A write of GNS_TIME_CTRL.VALID submits a time observation, which is accepted or
      refused. -/
  | gnssTimeObs (v : Word)
  /-- `TIME_LOST` (R129). No GNSS observation is accepted for HOLD s and the baseband stops being a time source. -/
  | timeLost
  /-- `FLT_CFG_WRITE` (R141). A write to FLT_MCLK or FLT_CH_CFG takes effect at the next edge or is refused in
      part. -/
  | fltCfgWrite (n : Nat) (v : Word)
  /-- `FLT_RESTART` (R139). A write of RESTART restarts the channel's paths at the next edge. -/
  | fltRestart (c : Nat)
  /-- `STEP_DETECTED` (R138). Four consecutive fast-path evaluations beyond TH clear SETTLED. -/
  | stepDetected (c : Nat)
  /-- `SETTLED_RETURN` (R138). S MCLK periods pass without a detection and SETTLED returns to 1. -/
  | settledReturn (c : Nat)
  /-- `STUCK` (R142). No transition for 4,096 MCLK periods makes the channel STUCK. -/
  | stuck (c : Nat)
  /-- `STUCK_CLEAR` (R142). The first transition clears STUCK and restarts the channel. -/
  | stuckClear (c : Nat)
  /-- `TABLE_CHECK` (R148). A write of ASM_TBL_CHK.CHECK starts a check of the named bank. -/
  | tableCheck (v : Word)
  /-- `CHK_DONE` (R148). A table check completes with OK or ERR and ENTRY. -/
  | chkDone
  /-- `TABLE_RELEASE` (R150). A write of RELEASE passes the named bank's deed to TO unless it is the selected set. -/
  | tableRelease (v : Word)
  /-- `SLOT_I_LOAD` (R223). A write of I_LOAD loads CLE_SLOT_I into I64 at the slot's next commit. -/
  | slotILoad (n : Nat)
  /-- `SLOT_WLOCK` (R238). A write of WLOCK holds or releases the slot's shadows. -/
  | slotWlock (n : Nat) (on : Bool)
  /-- `LOCK_HELD` (R238). A slot held by WLOCK for more than 40 beats raises LOCK_HELD. -/
  | lockHeld (n : Nat)
  /-- `SLOT_IST_READ` (R239). A read of CLE_SLOT_IST_LO latches CLE_SLOT_IST_HI of the same beat. -/
  | slotIstRead (n : Nat)
  /-- `BIT_TIMING_WRITE` (R243). A write of CAN_NBT or CAN_DBT sets the bit timing or is refused. -/
  | bitTimingWrite (k : Nat) (data : Bool) (v : Word)
  /-- `CAN_MODE_CHANGE` (R246). A write of CAN_MODE.MODE takes effect at the next bit boundary and may cut a
      frame. -/
  | canModeChange (k : Nat) (v : Word)
  /-- `TX_PUSH` (R248). A write to CAN_TXW_PUSH offers the record to the transmit queue or refuses it with a code. -/
  | txPush (k : Nat)
  /-- `TX_ABORT` (R249). A write to CAN_TXQ_ABORT withdraws one entry. -/
  | txAbort (k h : Nat)
  /-- `TX_ABORT_ALL` (R249). A write to CAN_TXQ_ABORT with ALL at 1 withdraws every software entry. -/
  | txAbortAll (k : Nat)
  /-- `TX_ATTEMPT_END` (R249). A transmission attempt ends as sent or failed, and the entry is retried, ended or
      replaced. -/
  | txAttemptEnd (k : Nat) (sent : Bool) (back : Nat)
  /-- `CAN_FRAME_RX` (R252). A received frame is filtered into a priority buffer or the FIFO, or discarded. -/
  | canFrameRx (k : Nat) (f : CanFrame) (back : Nat)
  /-- `PB_RELEASE` (R253). A write of 1 to a bit of CAN_PB_REL empties that priority buffer. -/
  | pbRelease (k : Nat) (v : Word)
  /-- `RXF_POP` (R254). A write to CAN_RXF_POP removes the oldest FIFO frame. -/
  | rxfPop (k : Nat)
  /-- `CAN_ERROR` (R255). The controller detects a bus error and updates its counters and state. -/
  | canError (k lec : Nat) (tx arb heavy : Bool)
  /-- `BUS_OFF_RECOVERY` (R255). After 128 occurrences of 11 recessive bits, a controller in bus-off recovers. -/
  | busOffRecovery (k : Nat)
  /-- `DUP_WINDOW_END` (R257). The 1 s tracking window ends with fewer than four errors and tracking stops. -/
  | dupWindowEnd (k : Nat)
  /-- `TS_WRAP` (R250). The CAN timestamp counter wraps and raises TS_WRAP. -/
  | tsWrap
  /-- `FB_STALE` (R263). Feedback AGE exceeds FB_TMO and the store is marked STALE. -/
  | fbStale (t : Nat)
  /-- `DRIVE_HELM_FRAME` (R264). A drive applies the acceptance rule to a received helm frame. -/
  | driveHelmFrame (d : Nat) (f : CanFrame)
  /-- `DRIVE_HOLD_TIMEOUT` (R265). A drive has accepted no helm frame for t_hold; it ramps to zero, sets HOLDING
      and clears known. -/
  | driveHoldTimeout (d : Nat)
  /-- `DRIVE_RESET` (R264). At a drive's power-up or maintenance reset, top is set to 0 and known to false. -/
  | driveReset (d : Nat)
  /-- `FIO_FREE_REFRESH` (R271). While beats do not run, a refresh is sent every 250 µs. -/
  | fioFreeRefresh
  /-- `WD_TRIP` (R272). The field side receives no valid refresh for WD_MS and sets every output to its safe
      state. -/
  | wdTrip
  /-- `FIO_WD_CLR` (R272). A write of FIO_WD_CLR while LINK reads 1 lets the outputs leave their safe state. -/
  | fioWdClr (v : Word)
  /-- `FIO_ENABLE_WRITE` (R273). A write of FIO_CFG.EN starts or stops commanding the outputs and the watchdog. -/
  | fioEnableWrite (v : Word)
  /-- `DI_FILTER_CHANGE` (R274). An input's raw state holds its new level for the filter time and the filtered
      state changes. -/
  | diFilterChange (i : Nat) (level : Bool)
  /-- `PULSE_EDGE` (R275). A rising edge on a counting input is counted and timestamped. -/
  | pulseEdge (i : Nat)
  /-- `OUTPUT_TRIP` (R280). An output over its current limit or overheated turns itself off. -/
  | outputTrip (j : Nat)
  /-- `ISLAND_OVERCURRENT` (R269). The sum of output currents exceeds 4.4 A for 1 ms and every output is switched
      off. -/
  | islandOvercurrent
  /-- `LPLUS_UNDERVOLTAGE` (R281). L+ falls below 16.0 V or rises above 17.0 V and the fault bit follows. -/
  | lplusUndervoltage (low : Bool)
  /-- `LINK_LOST` (R281). The field side stops answering and LINK falls. -/
  | linkLost
  /-- `SUB_BEAT` (R286). The shepherd core begins a sub-beat and runs its safety checks. -/
  | subBeat (low high : Nat) (crc : Option Bool) (ue : Bool)
  /-- `BEAT_LOST` (R286). No beat edge arrives for 400 µs and the shepherd core continues on its own clock. -/
  | beatLost
  /-- `SUBBEAT_OVR` (R286). A sub-beat's work is not complete 100 µs after it began, which is a diagnostic
      failure. -/
  | subbeatOvr
  /-- `SAFETY_INPUT_CHANGE` (R288). A safety input's filtered state changes. -/
  | safetyInputChange (i : Nat) (closed : Bool)
  /-- `DISCREP` (R288). A paired input pair disagrees longer than DISC_MS. -/
  | discrep (p : Nat)
  /-- `TEST_PULSE` (R289). TP0 or TP1 goes low for WIDTH and the inputs it feeds are checked. -/
  | testPulse (tp high : Nat)
  /-- `SS1_REQUEST` (R291). A write of 1 to SAF_REQ.SS1 makes a demand. -/
  | ss1Request
  /-- `SS1_TMAX` (R293). TMAX passes since the demand and every remaining axis reaches its STO condition. -/
  | ss1Tmax
  /-- `OFF_TEST` (R296). Once a second an energised line is switched off for 300 µs and must fall below 5 V. -/
  | offTest (k : Nat) (fell : Bool)
  /-- `DIAG_CLEAR` (R297). A write of 1 to a SAF_DIAG bit clears it where the table allows and its cause is
      absent. -/
  | diagClear (v : Word)
  /-- `SAF_RELEASE` (R298). A write of 0x5AFE to SAF_RELEASE releases the safety function when its conditions
      hold. -/
  | safRelease (v : Word)
  /-- `ICVO_LANE_DOWN` (R308). An Icvo lane loses block lock for 1 µs and is down. -/
  | icvoLaneDown (n : Nat)
  /-- `ICVO_LANE_UP` (R308). An Icvo lane holds lock for 100 µs and is up again. -/
  | icvoLaneUp (n : Nat)
  /-- `HEARTBEAT_FREE_SEND` (R309). Before beats start, a heartbeat is sent every 250 µs of undisciplined time. -/
  | heartbeatFreeSend
  /-- `HEARTBEAT_RX` (R310). A partner heartbeat arrives and is checked and acted on. -/
  | heartbeatRx (b : List Byte) (ofs : Int)
  /-- `BEAT_RECORD_RX` (R311). A partner beat record arrives and is kept for the standby's slots. -/
  | beatRecordRx (b : List Byte)
  /-- `DELTA_RX` (R327). A delta arrives in the staging bank and is checked. -/
  | deltaRx (b : List Byte)
  /-- `DELTA_COPY_DONE` (R327). The standby finishes copying a delta into its tracked banks and takes the new
      sequence. -/
  | deltaCopyDone
  /-- `RESYNC_BANK_RX` (R328). A resync bank message is written into the standby's bank. -/
  | resyncBankRx (b : List Byte)
  /-- `RESYNC` (R328). A write of PAR_REQ.RESYNC starts a resync. -/
  | resync
  /-- `SEEK_TIMEOUT` (R313). SEEK_TMO passes with no sign of the partner and the unit becomes ALONE. -/
  | seekTimeout
  /-- `LISTEN_MIN_END` (R313). The unit has listened on its mapped controllers for LISTEN_MIN and may leave
      SEEKING. -/
  | listenMinEnd
  /-- `MISSED_BEAT` (R331). A beat is established as missed, by PAIR_BEAT, heartbeat or helm watch. -/
  | missedBeat (helm : Bool)
  /-- `FAULT` (R334). A write of PAR_REQ.FAULT sets FAULTY and may start a handover. -/
  | fault
  /-- `CLR_FAULTY` (R334). A write of PAR_REQ.CLR_FAULTY clears FAULTY while no cause persists. -/
  | clrFaulty
  /-- `HANDOVER` (R339). A write of PAR_REQ.HANDOVER announces a handover at a B38 edge, or is refused. -/
  | handover
  /-- `CORES_UP` (R335). After a takeover the cores reach 1.6 GHz. -/
  | coresUp
  /-- `FLASH_PERIOD` (R329). FLASH_PERIOD expires and the strongbox is copied to DRAM for flash. -/
  | flashPeriod
  /-- `FLASH_NOW` (R329). A write of FLASH_NOW copies the strongbox to flash at once. -/
  | flashNow
  /-- `FLASH_COPY` (R329). The flash write of a strongbox image completes. -/
  | flashCopy
  /-- `EPOCH_ARM` (R344). A write of 0xE9C0 to PAR_EPOCH.KEY arms the epoch in READY or STO. -/
  | epochArm
  /-- `EPOCH_COMPLETE` (R344). A write of 0xE9C1 sets the tally and H to the unit's parity when both units are
      armed. -/
  | epochComplete
  /-- `ETH_FRAME_RX` (R347). A received Ethernet frame is stamped, filtered and written to the receive ring. -/
  | ethFrameRx (k : Nat) (b : List Byte) (fcs : Bool) (back : Nat)
  /-- `ETH_TX_DONE` (R349). A frame is transmitted from a ring or the replay queue, with one-step insertion where
      set. -/
  | ethTxDone (k : Nat)
  /-- `ETH_RING_TAIL` (R348). A write of a ring tail hands descriptors to the MAC. -/
  | ethRingTail (k : Nat) (tx : Bool) (i : Nat)
  /-- `ETH_LINK_DOWN` (R349). The Ethernet link falls and frames in transmission are lost. -/
  | ethLinkDown (k : Nat)
  /-- `ETH_LINK_UP` (R349). The Ethernet link returns and owned descriptors resume. -/
  | ethLinkUp (k : Nat)
  /-- `ETH_CAL_GO` (R351). A write of ETH_CAL.GO with the port disabled starts a loop-back calibration. -/
  | ethCalGo (k : Nat)
  /-- `ETH_CAL_DONE` (R351). The calibration completes, sets IN and EG, or fails. -/
  | ethCalDone (k n rtt : Nat)
  /-- `RATE_WRITE` (R357). A write of TIM_RATE_HI applies a new rate continuously, or is refused. -/
  | rateWrite (m : Nat) (v : Word)
  /-- `STEP_WRITE` (R358). A write of TIM_STEP_HI steps, slews or refuses a change of disciplined time. -/
  | stepWrite (m : Nat) (v : Word)
  /-- `STEP_FORCE` (R361). A write of TIM_STEP_CTRL.FORCE forces the next step or rate write. -/
  | stepForce
  /-- `SLEW_INCREMENT` (R359). Every 1,000,000 raw counts the offset moves 1 ns towards the slew request. -/
  | slewIncrement
  /-- `TIME_NOW_READ` (R360). A read of TIM_NOW_LO latches the time, raw counter and uncertainty of the same
      instant. -/
  | timeNowRead
  /-- `PTP_OBS_SUBMIT` (R362). A write of TIM_PTP_CTRL.VALID submits a PTP observation, which is accepted or
      refused. -/
  | ptpObsSubmit (v : Word)
  /-- `PTP_SOURCE_LOST` (R362). No PTP observation is accepted for PTP_HOLD s and PTP stops being available. -/
  | ptpSourceLost
  /-- `PPS_RISE` (R363). A rising edge on the PPS input is stamped. -/
  | ppsRise
  /-- `PPS_FALL` (R363). The falling PPS edge classifies the pulse and forms the observation. -/
  | ppsFall
  /-- `PPS_SOURCE_LOST` (R364). No PPS pulse is accepted for PPS_HOLD s and PPS stops being available. -/
  | ppsSourceLost
  /-- `TPULSE` (R364). At each whole second of disciplined time TPULSE rises, with a width that codes the time
      state. -/
  | tpulse
  /-- `EXT_LOST` (R367). EXT10M fails and PLL_TIME relocks to REFCLK. -/
  | extLost
  /-- `UART_CHAR_RX` (R369). A UART character is received into the FIFO and stamped if it starts a sentence. -/
  | uartCharRx (u c : Nat) (framing parity brk : Bool) (back : Nat)
  /-- `UART_RX_POP` (R369). A read of UAT_RX pops the oldest character. -/
  | uartRxPop (m u : Nat)
  /-- `UART_STAMP_POP` (R369). A read of UAT_STAMP_LO pops the oldest stamp and latches its high word and index. -/
  | uartStampPop (m u : Nat)
  /-- `UART_TX_WRITE` (R368). A write to UAT_TX queues a character for transmission. -/
  | uartTxWrite (u : Nat) (v : Word)
  /-- `UART_DIV_WRITE` (R368). A write of UAT_DIV sets the baud rate or is refused with DIV_REF. -/
  | uartDivWrite (u : Nat) (v : Word)
  /-- `LEDGER_STAGE` (R380). An offered ledger record takes a sequence number and is staged in the ring. -/
  | ledgerStage
  /-- `LGR_SW_COMMIT` (R379). A write to LGR_SW_COMMIT offers the software window as one record or refuses it. -/
  | lgrSwCommit (m c : Nat)
  /-- `FLUSH` (R381). A write of LGR_CTRL.FLUSH hands the current unit to the flash manager. -/
  | flush
  /-- `FLUSH_MS_EXPIRY` (R381). A unit's oldest unflushed record has waited FLUSH_MS and the unit is flushed. -/
  | flushMsExpiry
  /-- `LEDGER_UNIT_WRITTEN` (R381). A ledger unit write to flash completes or fails. -/
  | ledgerUnitWritten (good : Bool)
  /-- `LEDGER_START` (R384). At start-up the writer scans the ring, recovers records and stages a START record. -/
  | ledgerStart
  /-- `ARM` (R385). A write of LGR_CTRL.ARM moves an EMPTY vault to ARMED. -/
  | arm
  /-- `CLOSE` (R385). A write of LGR_CTRL.CLOSE seals a FILLING vault. -/
  | close
  /-- `TRIGGER` (R387). A write of LGR_CTRL.TRIGGER triggers the vault and stages a TRIGGER record. -/
  | trigger
  /-- `LGR_NONCE_DRAW` (R388). A read of LGR_NONCE_LO draws a fresh nonce and voids earlier ones. -/
  | lgrNonceDraw
  /-- `VAULT_RELEASE` (R388). A write of LGR_REL_CTRL.GO checks the token and erases a sealed vault. -/
  | vaultRelease
  /-- `XTR_GO` (R390). A write of LGR_XTR_CTRL.GO starts copying till or vault records to DRAM. -/
  | xtrGo (v : Word)
  /-- `XTR_DONE` (R390). An extraction completes or ends with a read error. -/
  | xtrDone (fail : Option Nat)
  /-- `MOUNTED` (R404). The flash manager finishes mounting the medium and enters READY. -/
  | mounted (ok0 ok1 : Bool)
  /-- `NFC_WRITE` (R407). A request of OP 1 writes an object to a partition. -/
  | nfcWrite (m : Nat) (v : Word)
  /-- `NFC_LOAD` (R407). A request of OP 2 loads and checks an object into DRAM. -/
  | nfcLoad (m : Nat) (v : Word)
  /-- `NFC_ERASE` (R407). A request of OP 3 removes an object. -/
  | nfcErase (m : Nat) (v : Word)
  /-- `NFC_IMAGE` (R407). A request of OP 4 copies the newest valid strongbox image to DRAM. -/
  | nfcImage (m : Nat) (v : Word)
  /-- `REQ_DONE` (R407). A software flash request ends with its result code. -/
  | reqDone (uncorr : Bool)
  /-- `NAND_OPERATION_DONE` (R411). A NAND read, program or erase completes and the next waiting client takes the
      LUN. -/
  | nandOperationDone (op b q : Nat) (res : Option Nat)
  /-- `RELOCATION_DONE` (R402). A relocation finishes copying a block and the logical map switches. -/
  | relocationDone (b : Nat)
  /-- `PATROL` (R401). The patrol reads valid quarters and schedules relocation by bit count or age. -/
  | patrol (b : Nat) (res : Option Nat)
  /-- `NFC_BOOT_SEL` (R410). A write with KEY 0xB007 records the preferred boot slot, or is refused. -/
  | nfcBootSel (v : Word)
  /-- `NFC_FORMAT` (R414). A write with KEY 0xF0A7 formats the medium unless refused. -/
  | nfcFormat (v : Word) (bad : List Nat)
  /-- `DEED_PASS` (R417). A write to MEM_DEED_PASS passes a bank's deed, or is refused with DENIED. -/
  | deedPass (m b h : Nat)
  /-- `ARBITRATION_PROMOTE` (R421). A request waiting 1,024 cycles at a port is served next ahead of every class. -/
  | arbitrationPromote
  /-- `ECC_WRITEBACK` (R423). A corrected half is written back in the bank's next idle cycle. -/
  | eccWriteback (a : Nat)
  /-- `SCRUB_STEP` (R424). The scrubber reads a half in an idle cycle and handles any error it finds. -/
  | scrubStep (a : Nat) (upsets : List Upset)
  /-- `MEMORY_CLEAR_DONE` (R425). The clear of the on-chip memories completes and masters may reach them. -/
  | memoryClearDone
  /-- `MARCH_GO` (R426). A write of MAR_CTRL.GO starts a destructive March C− test or refuses it. -/
  | marchGo (v : Word)
  /-- `MARCH_PRESERVE_GO` (R427). A GO with PRESERVE at 1 starts a preserving test of a shared bank. -/
  | marchPreserveGo (v : Word)
  /-- `MARCH_DONE` (R426). A march test ends with pass, miscompare or abort. -/
  | marchDone (target i : Nat) (bad : Option Nat)
  /-- `DRAM_TRAINED` (R430). DRAM training and clearing complete and TRAINED sets. -/
  | dramTrained
  /-- `DMA_START` (R431). A write of START on an idle channel starts a transfer, or refuses it for overlap or
      alignment. -/
  | dmaStart (c : Nat)
  /-- `DMA_STOP` (R435). A write of STOP makes the channel issue no new request. -/
  | dmaStop (c : Nat)
  /-- `DMA_STOPPED` (R435). The stopped channel's outstanding responses return and BUSY clears with ERR 5. -/
  | dmaStopped (c n : Nat)
  /-- `DMA_HALT` (R436). A write of DMA_GLOBAL.HALT stops every channel at once. -/
  | dmaHalt
  /-- `DMA_TRANSFER_DONE` (R432). A transfer's last write response returns and the descriptor completes. -/
  | dmaTransferDone (c : Nat)
  /-- `FWL_ARM` (R446). A write of 0x10C4 to FWL_ARM.KEY enforces the tables, or is refused. -/
  | fwlArm (key : Nat)
  /-- `RULE_SELECT` (R447). A write to FWL_RULE_SEL loads the rule into the window. -/
  | ruleSelect (j : Nat)
  /-- `RULE_COMMIT` (R447). A write to FWL_RULE_COMMIT copies the window into the rule, or is refused. -/
  | ruleCommit
  /-- `LC_NONCE_DRAW` (R453). A read of LCS_NONCE_LO draws a fresh nonce. -/
  | lcNonceDraw
  /-- `LC_TRANSITION` (R454). A signed request of OP 1 blows the fuses of a later life-cycle state. -/
  | lcTransition (arg : Nat) (good : Bool)
  /-- `LC_OPEN_DEBUG` (R454). A signed request of OP 2 opens the debug port. -/
  | lcOpenDebug (arg : Nat)
  /-- `LC_CLOSE_DEBUG` (R454). A request of OP 3 closes the debug port. -/
  | lcCloseDebug (arg : Nat)
  /-- `LC_PROGRAM_KEY` (R454). A signed request of OP 4 programs the configuration or ledger-release key hash. -/
  | lcProgramKey (arg : Nat) (good : Bool)
  /-- `LC_PROGRAM_SECRET` (R454). A signed request of OP 5 programs the customer secret. -/
  | lcProgramSecret (arg : Nat) (good : Bool)
  /-- `TMX_SELECT` (R458). A write of TMX_SEL drives a permitted internal signal on an observation pin, or refuses
      it. -/
  | tmxSelect (k : Nat) (v : Word)
  /-- `TAP_BYPASS` (R459). The TAP instruction BYPASS. -/
  | tapBypass
  /-- `TAP_IDCODE` (R459). The TAP instruction IDCODE returns 0x1960_058B. -/
  | tapIdcode
  /-- `TAP_SAMPLE_PRELOAD` (R459). The TAP instruction SAMPLE/PRELOAD. -/
  | tapSamplePreload (pins chain : List Bool)
  /-- `TAP_EXTEST` (R459). The TAP instruction EXTEST drives the balls from the chain. -/
  | tapExtest (pins chain : List Bool)
  /-- `TAP_CLAMP` (R459). The TAP instruction CLAMP. -/
  | tapClamp
  /-- `TAP_HIGHZ` (R459). The TAP instruction HIGHZ. -/
  | tapHighz
  /-- `DBG_ACCESS` (R457). The TAP instruction DBG_ACCESS issues fabric requests as identity 22 while the port is
      open. -/
  | dbgAccess (q : Option Req) (halt : Option Nat)
  /-- `POWER_STATE_CHANGE` (R464). The selected power state changes and the device moves to it. -/
  | powerStateChange (waiting : Nat)
  /-- `LANES_ON` (R464). Every lane is powered again and LANES_ON sets. -/
  | lanesOn
  /-- `DOZE_EXIT` (R465). A core interrupt or a change of selection ends DOZE. -/
  | dozeExit (waiting : Nat)
  /-- `POWER_OFF` (R466). A write of 0x0FF0 to PWR_OFF.KEY enters OFF when the safety phase allows. -/
  | powerOff (v : Word)
  /-- `WAKE` (R466). WAKE_N low for 1 ms, RESET_N or returning VAON wakes the device from OFF. -/
  | wake
  /-- `POWER_ON_RESET` (R467). VAON rises through its threshold and the device resets with code 0. -/
  | powerOnReset
  /-- `RESET_N` (R467). RESET_N held low for at least 10 µs resets the device with code 1. -/
  | resetN
  /-- `WATCHDOG_EXPIRY` (R469). The watchdog reaches MS without a restart and the device resets with code 2. -/
  | watchdogExpiry
  /-- `WDT_WARN` (R469). Half of MS passes without a restart and WDT_WARN is raised. -/
  | wdtWarn
  /-- `WATCHDOG_KICK` (R469). A write of 0xC0DE to SYS_WDT_KICK restarts the watchdog count. -/
  | watchdogKick (v : Word)
  /-- `SYS_SWRESET` (R470). A write of 0x5E7A makes the shepherd core reset the main island with code 3. -/
  | sysSwreset (v : Word)
  /-- `MAIN_RESET_RELEASE` (R468). The main island leaves reset and core 0 runs the boot ROM. -/
  | mainResetRelease
  /-- `BOOT_RETRY` (R473). After every source has failed, the boot ROM waits 10 s and tries again. -/
  | bootRetry
  /-- `BOOT_REQUEST_SEND` (R474). The booting unit sends a boot request every 100 ms. -/
  | bootRequestSend
  /-- `BOOT_REQUEST_RX` (R474). A partner receives a boot request and starts sending its running object. -/
  | bootRequestRx (b : List Byte)
  /-- `BOOT_DATA_RX` (R474). A boot-data message is written into DRAM. -/
  | bootDataRx (b : List Byte)
  /-- `BOOT_END_RX` (R474). A boot-end message completes the partner boot object with its CRC. -/
  | bootEndRx (b : List Byte)
  /-- `BOOT_TIMEOUT` (R474). Silence for 2 s ends the partner boot attempt with code 7. -/
  | bootTimeout
  /-- `SHEPHERD_SECTION_START` (R475). The shepherd core checks the handed-over section, copies it and starts it. -/
  | shepherdSectionStart
  /-- `CORE_REL` (R468). A write of SYS_START_CTRL.CORE_REL releases application cores 1–3. -/
  | coreRel (v : Word)
  /-- `NEXT` (R476). A write of SYS_START_CTRL.NEXT in step 2 with tables enforced ends step 2, or is refused. -/
  | next
  /-- `AVS_TRANSACTION_END` (R480). An AVSBus transaction ends; three consecutive failures fix VCORE at 900 mV. -/
  | avsTransactionEnd (ok : Bool) (mv : Nat)
  /-- `VAON_LOSS` (R482). VAON falls through 1.55 V; everything, the shepherd core included, loses power and every
      torque-off line de-energises. -/
  | vaonLoss
  /-- `PAIR_BEAT_I_TOGGLE` (R331). The partner's PAIR_BEAT toggle arrives on PAIR_BEAT_I and is timed against the
      unit's own beat edge. -/
  | pairBeatIToggle (ofs : Int)
  /-- `BIT_SYNCHRONISATION` (R120). A tracking channel finds the data-bit boundaries, sets BITSYNC and moves from
      1 ms to 20 ms coherent integration. -/
  | bitSynchronisation (c : Nat)
  /-- `DATA_BIT` (R120). After bit synchronisation the sign of each 20 ms prompt sum is shifted into GNS_CH_BITS
      and GNS_CH_BITCNT increments. -/
  | dataBit (c : Nat) (neg : Bool)
  /-- `FINE_OUTPUT` (R134). A decimated fine output falls every R MCLK periods; a value beyond full scale
      saturates, counts in SAT and sets SAT_FLAG. -/
  | fineOutput (c : Nat) (bits : List Bool)
  /-- `FIELD_LINK_UP` (R281). The field side answers refreshes again and LINK rises, which clears that cause of
      FAULT and enables FIO_WD_CLR. -/
  | fieldLinkUp
  /-- `OUTPUT_MISMATCH` (R281). An output's voltage disagrees with its command after BLANK ms, as when it is
      shorted to L+, and FAULT rises, or the mismatch ends and FAULT clears. -/
  | outputMismatch (j : Nat) (present : Bool)
  /-- `UART_CHAR_SENT` (R368). A queued character finishes transmission on UART_TX and one transmit place is freed
      in TX_FREE. -/
  | uartCharSent (u : Nat)
  /-- `DRAM_PATROL` (R430). With DRC_SCRUB.EN at 1, the DRAM patrol reads the next word in an idle cycle and
      handles any error it finds, completing a pass every HOURS h. -/
  | dramPatrol (a : Nat) (upsets : List Upset)
  /-- `TEMP_HIGH` (R430). The DRAM devices' temperature report changes; the refresh rate follows, and a report
      above the normal range raises TEMP_HIGH. -/
  | tempHigh (code : Nat) (above : Bool)
deriving DecidableEq, Repr

end Sys2Proof
end

