-- ==== Sys2Proof/Decode.lean ====
section
/-! DEFINITION. The decoder of command words. The command table gives no row any bits: a command is not a word, so no word spells
one. -/

namespace Sys2Proof

/-- The command that the `nbits` bits of `w` spell: the table gives none of its rows bits. -/
def decodeTableWord (_nbits _w : Nat) : Option Instr := none

end Sys2Proof
end

