-- ==== Sys2Proof/Machine/Bits.lean ====
section
/-! DEFINITION. Bit fields, sign extension, byte order and checksums: the helpers every register, record and message of the
spec is read and written with. All multi-byte fields of the spec are little-endian unless it says otherwise. -/

namespace Sys2Proof.Machine

/-- Bits [hi:lo] of `x`. -/
def bitsOf (x hi lo : Nat) : Nat := x / 2 ^ lo % 2 ^ (hi + 1 - lo)

/-- `x` with bits [hi:lo] replaced by the low bits of `v`. -/
def putBits (x hi lo v : Nat) : Nat :=
  x % 2 ^ lo + v % 2 ^ (hi + 1 - lo) * 2 ^ lo + x / 2 ^ (hi + 1) * 2 ^ (hi + 1)

/-- Bit `i` of `x`. -/
def bitOf (x i : Nat) : Bool := x / 2 ^ i % 2 == 1

/-- The Nat of a truth value: 1 or 0, as a one-bit field holds it. -/
def b2n (b : Bool) : Nat := if b then 1 else 0

/-- The signed value of the low `w` bits of `x` (two's complement). -/
def sgn (w x : Nat) : Int :=
  if x % 2 ^ w < 2 ^ (w - 1) then Int.ofNat (x % 2 ^ w) else Int.ofNat (x % 2 ^ w) - Int.ofNat (2 ^ w)

/-- The `w`-bit two's complement code of `i`. -/
def uns (w : Nat) (i : Int) : Nat := (i % Int.ofNat (2 ^ w)).toNat

/-- `i` limited to lo … hi. -/
def clampI (lo hi i : Int) : Int := if i < lo then lo else if hi < i then hi else i

/-- `i` saturated to a signed `w`-bit range. -/
def satI (w : Nat) (i : Int) : Int := clampI (-(Int.ofNat (2 ^ (w - 1)))) (Int.ofNat (2 ^ (w - 1)) - 1) i

/-- The `n` bytes of `v`, little-endian. -/
def leBytes : Nat → Nat → List Byte
  | 0, _ => []
  | n + 1, v => BitVec.ofNat 8 v :: leBytes n (v / 256)

/-- The number whose little-endian bytes are given. -/
def ofLe : List Byte → Nat
  | [] => 0
  | b :: bs => b.toNat + 256 * ofLe bs

/-- The number whose big-endian bytes are given. -/
def ofBe (bs : List Byte) : Nat := ofLe bs.reverse

/-- The `n` bytes of `v`, big-endian. -/
def beBytes (n v : Nat) : List Byte := (leBytes n v).reverse

/-- The little-endian number in bytes `o … o + n − 1` of a byte string (bytes past the end read 0). -/
def leAt (bs : List Byte) (o n : Nat) : Nat := ofLe ((bs.drop o).take n)

/-- A byte string with the `n` bytes from `o` replaced by those of `v`, little-endian. -/
def putAt (bs : List Byte) (o n v : Nat) : List Byte := bs.take o ++ leBytes n v ++ bs.drop (o + n)

/-- `n` zero bytes. -/
def zeros (n : Nat) : List Byte := List.replicate n 0

/-- A byte string padded with zeros to `n` bytes. -/
def padTo (n : Nat) (bs : List Byte) : List Byte := bs ++ zeros (n - bs.length)

/-- The ASCII bytes of a string. -/
def ascii (s : String) : List Byte := s.toList.map fun c => BitVec.ofNat 8 c.toNat

/-- One bit step of a reflected CRC with polynomial `poly` (reflected form). -/
def crcRefStep (poly c : Nat) : Nat := if c % 2 = 1 then (c / 2) ^^^ poly else c / 2

/-- `n` bit steps of a reflected CRC. -/
def crcRefSteps (poly : Nat) : Nat → Nat → Nat
  | 0, c => c
  | n + 1, c => crcRefSteps poly n (crcRefStep poly c)

/-- CRC-32C (R260): reflected polynomial 0x82F63B78, initial value and final XOR all ones. -/
def crc32c (bs : List Byte) : Nat :=
  bs.foldl (fun c b => crcRefSteps 0x82F63B78 8 (c ^^^ b.toNat)) 0xFFFFFFFF ^^^ 0xFFFFFFFF

/-- One bit step of the CRC-64 of R49 (not reflected, polynomial 0x42F0_E1EB_A9EA_3693). -/
def crc64Step (c : Nat) : Nat :=
  if c / 2 ^ 63 % 2 = 1 then (c * 2 % 2 ^ 64) ^^^ 0x42F0E1EBA9EA3693 else c * 2 % 2 ^ 64

/-- `n` bit steps of the CRC-64 of R49. -/
def crc64Steps : Nat → Nat → Nat
  | 0, c => c
  | n + 1, c => crc64Steps n (crc64Step c)

/-- The CRC-64 of R49 (ECMA-182), continued from `c` over `bs`. -/
def crc64From (c : Nat) (bs : List Byte) : Nat :=
  bs.foldl (fun c b => crc64Steps 8 (c ^^^ b.toNat * 2 ^ 56)) c

/-- The CRC-64 of R49: initial value 0, no final XOR. -/
def crc64 (bs : List Byte) : Nat := crc64From 0 bs

/-- A list with its `n`th element replaced (unchanged past the end). -/
def setNth {α : Type} : List α → Nat → α → List α
  | [], _, _ => []
  | _ :: l, 0, v => v :: l
  | x :: l, n + 1, v => x :: setNth l n v

/-- Apply `f` for i = 0 … n − 1 in that order. -/
def forUp {σ : Type} : Nat → (Nat → σ → σ) → σ → σ
  | 0, _, s => s
  | n + 1, f, s => f n (forUp n f s)

/-- The quotient of two integers rounded towards minus infinity (divisor positive). -/
def fdiv (a b : Int) : Int := Int.fdiv a b

/-- The quotient `a / b` (b positive) rounded to nearest, ties to even. -/
def rneDiv (a b : Nat) : Nat :=
  let q := a / b
  let r := a % b
  if 2 * r < b then q else if b < 2 * r then q + 1 else if q % 2 = 0 then q else q + 1

/-- Signed version of `rneDiv`. -/
def rneDivI (a : Int) (b : Nat) : Int :=
  if a < 0 then -(Int.ofNat (rneDiv a.natAbs b)) else Int.ofNat (rneDiv a.natAbs b)

end Sys2Proof.Machine
end

