-- ==== Sys2Proof/Machine/Crypto.lean ====
section
/-! DEFINITION. The two published standards by which the device authenticates: SHA-384 (R388, R406, R452) and ECDSA over
the curve P-384 (R452). Both are written over natural numbers. -/

namespace Sys2Proof.Machine

/-- Rotate a 64-bit word right. -/
def ror64 (x n : Nat) : Nat := x / 2 ^ n + x % 2 ^ n * 2 ^ (64 - n)

/-- The 80 round constants of SHA-384. -/
def shaK : List Nat :=
  [0x428A2F98D728AE22, 0x7137449123EF65CD, 0xB5C0FBCFEC4D3B2F, 0xE9B5DBA58189DBBC, 0x3956C25BF348B538] ++
  [0x59F111F1B605D019, 0x923F82A4AF194F9B, 0xAB1C5ED5DA6D8118, 0xD807AA98A3030242, 0x12835B0145706FBE] ++
  [0x243185BE4EE4B28C, 0x550C7DC3D5FFB4E2, 0x72BE5D74F27B896F, 0x80DEB1FE3B1696B1, 0x9BDC06A725C71235] ++
  [0xC19BF174CF692694, 0xE49B69C19EF14AD2, 0xEFBE4786384F25E3, 0x0FC19DC68B8CD5B5, 0x240CA1CC77AC9C65] ++
  [0x2DE92C6F592B0275, 0x4A7484AA6EA6E483, 0x5CB0A9DCBD41FBD4, 0x76F988DA831153B5, 0x983E5152EE66DFAB] ++
  [0xA831C66D2DB43210, 0xB00327C898FB213F, 0xBF597FC7BEEF0EE4, 0xC6E00BF33DA88FC2, 0xD5A79147930AA725] ++
  [0x06CA6351E003826F, 0x142929670A0E6E70, 0x27B70A8546D22FFC, 0x2E1B21385C26C926, 0x4D2C6DFC5AC42AED] ++
  [0x53380D139D95B3DF, 0x650A73548BAF63DE, 0x766A0ABB3C77B2A8, 0x81C2C92E47EDAEE6, 0x92722C851482353B] ++
  [0xA2BFE8A14CF10364, 0xA81A664BBC423001, 0xC24B8B70D0F89791, 0xC76C51A30654BE30, 0xD192E819D6EF5218] ++
  [0xD69906245565A910, 0xF40E35855771202A, 0x106AA07032BBD1B8, 0x19A4C116B8D2D0C8, 0x1E376C085141AB53] ++
  [0x2748774CDF8EEB99, 0x34B0BCB5E19B48A8, 0x391C0CB3C5C95A63, 0x4ED8AA4AE3418ACB, 0x5B9CCA4F7763E373] ++
  [0x682E6FF3D6B2B8A3, 0x748F82EE5DEFB2FC, 0x78A5636F43172F60, 0x84C87814A1F0AB72, 0x8CC702081A6439EC] ++
  [0x90BEFFFA23631E28, 0xA4506CEBDE82BDE9, 0xBEF9A3F7B2C67915, 0xC67178F2E372532B, 0xCA273ECEEA26619C] ++
  [0xD186B8C721C0C207, 0xEADA7DD6CDE0EB1E, 0xF57D4F7FEE6ED178, 0x06F067AA72176FBA, 0x0A637DC5A2C898A6] ++
  [0x113F9804BEF90DAE, 0x1B710B35131C471B, 0x28DB77F523047D84, 0x32CAAB7B40C72493, 0x3C9EBE0A15C9BEBC] ++
  [0x431D67C49C100D4C, 0x4CC5D4BECB3E42B6, 0x597F299CFC657E2A, 0x5FCB6FAB3AD6FAEC, 0x6C44198C4A475817]

/-- The initial hash value of SHA-384. -/
def shaH0 : List Nat := [0xCBBB9D5DC1059ED8, 0x629A292A367CD507, 0x9159015A3070DD17, 0x152FECD8F70E5939,
  0x67332667FFC00B31, 0x8EB44A8768581511, 0xDB0C2E0D64F98FA7, 0x47B5481DBEFA4FA4]

/-- The eight 64-bit working variables of the compression function. -/
structure ShaSt where
  a : Nat
  b : Nat
  c : Nat
  d : Nat
  e : Nat
  f : Nat
  g : Nat
  h : Nat

/-- One round with constant `k` and schedule word `w`. -/
def shaRound (v : ShaSt) (k w : Nat) : ShaSt :=
  let s1 := ror64 v.e 14 ^^^ ror64 v.e 18 ^^^ ror64 v.e 41
  let ch := (v.e &&& v.f) ^^^ ((v.e ^^^ (2 ^ 64 - 1)) &&& v.g)
  let t1 := v.h + s1 + ch + k + w
  let s0 := ror64 v.a 28 ^^^ ror64 v.a 34 ^^^ ror64 v.a 39
  let mj := (v.a &&& v.b) ^^^ (v.a &&& v.c) ^^^ (v.b &&& v.c)
  { a := (t1 + s0 + mj) % 2 ^ 64, b := v.a, c := v.b, d := v.c, e := (v.d + t1) % 2 ^ 64, f := v.e, g := v.f, h := v.g }

/-- The rounds over the constants `ks`, with the last 16 schedule words (oldest first) in `w`. -/
def shaRounds : List Nat → List Nat → ShaSt → ShaSt
  | [], _, v => v
  | k :: ks, w, v =>
    let w0 := w.headD 0
    let x := w.getD 1 0
    let y := w.getD 14 0
    let s0 := ror64 x 1 ^^^ ror64 x 8 ^^^ (x / 2 ^ 7)
    let s1 := ror64 y 19 ^^^ ror64 y 61 ^^^ (y / 2 ^ 6)
    shaRounds ks (w.drop 1 ++ [(w0 + s0 + w.getD 9 0 + s1) % 2 ^ 64]) (shaRound v k w0)

/-- One 128-byte block. -/
def shaBlock (h : List Nat) (blk : List Byte) : List Nat :=
  let w := (List.range 16).map fun i => ofBe ((blk.drop (8 * i)).take 8)
  let g := fun i => h.getD i 0
  let v := shaRounds shaK w { a := g 0, b := g 1, c := g 2, d := g 3, e := g 4, f := g 5, g := g 6, h := g 7 }
  (List.zip h [v.a, v.b, v.c, v.d, v.e, v.f, v.g, v.h]).map fun p => (p.1 + p.2) % 2 ^ 64

/-- The blocks of a padded message. -/
def shaBlocks : Nat → List Byte → List Nat → List Nat
  | 0, _, h => h
  | n + 1, m, h => shaBlocks n (m.drop 128) (shaBlock h (m.take 128))

/-- SHA-384 of a byte string, as 48 bytes. -/
def sha384 (m : List Byte) : List Byte :=
  let p := m ++ [0x80]
  let q := p ++ zeros ((240 - p.length % 128) % 128) ++ beBytes 16 (8 * m.length)
  ((shaBlocks (q.length / 128) q shaH0).take 6).flatMap (beBytes 8)

/-- The field prime of P-384. -/
def p384 : Nat := 2 ^ 384 - 2 ^ 128 - 2 ^ 96 + 2 ^ 32 - 1

/-- The order of the base point of P-384. -/
def n384 : Nat :=
  0xFFFFFFFFFFFFFFFFFFFFFFFFFFFFFFFFFFFFFFFFFFFFFFFFC7634D81F4372DDF581A0DB248B0A77AECEC196ACCC52973

/-- The constant b of P-384. -/
def b384 : Nat :=
  0xB3312FA7E23EE7E4988E056BE3F82D19181D9C6EFE8141120314088F5013875AC656398D8A2ED19D2A85C8EDD3EC2AEF

/-- The base point of P-384. -/
def g384 : Nat × Nat :=
  (0xAA87CA22BE8B05378EB1C71EF320AD746E1D3B628BA79B9859F741E082542A385502F25DBF55296C3A545E3872760AB7,
   0x3617DE4A96262C6F5D9E98BF9292DC29F8F41DBD289A147CE9DA3113B5F0B8C00A60B1CE1D7E819D7A431D7C90EA0E5F)

/-- a^e mod m by repeated squaring over `fuel` bits of the exponent. -/
def powMod (m : Nat) : Nat → Nat → Nat → Nat → Nat
  | 0, _, _, r => r
  | fuel + 1, a, e, r => powMod m fuel (a * a % m) (e / 2) (if e % 2 = 1 then r * a % m else r)

/-- The inverse modulo a 384-bit prime. -/
def invMod (m a : Nat) : Nat := powMod m 384 (a % m) (m - 2) 1

/-- Point addition on P-384; `none` is the point at infinity. -/
def ecAdd (x y : Option (Nat × Nat)) : Option (Nat × Nat) :=
  match x, y with
  | none, y => y
  | x, none => x
  | some (x1, y1), some (x2, y2) =>
    if x1 = x2 ∧ (y1 + y2) % p384 = 0 then none
    else
      let l := if x1 = x2 then (3 * x1 * x1 + (p384 - 3)) * invMod p384 (2 * y1) % p384
        else (y2 + (p384 - y1)) * invMod p384 (x2 + (p384 - x1)) % p384
      let x3 := (l * l + (p384 - x1) + (p384 - x2)) % p384
      some (x3, (l * (x1 + (p384 - x3)) + (p384 - y1)) % p384)

/-- `k` times a point, over `fuel` bits of `k`. -/
def ecMul : Nat → Nat → Option (Nat × Nat) → Option (Nat × Nat) → Option (Nat × Nat)
  | 0, _, _, r => r
  | fuel + 1, k, a, r => ecMul fuel (k / 2) (ecAdd a a) (if k % 2 = 1 then ecAdd r a else r)

/-- ECDSA P-384 over SHA-384 (R388, R452): `key` is x then y, `sig` is r then s, each number 48 bytes big-endian. -/
def ecdsaVerify (key msg sig : List Byte) : Bool :=
  let qx := ofBe (key.take 48)
  let qy := ofBe ((key.drop 48).take 48)
  let r := ofBe (sig.take 48)
  let s := ofBe ((sig.drop 48).take 48)
  if key.length ≠ 96 ∨ sig.length ≠ 96 ∨ r = 0 ∨ n384 ≤ r ∨ s = 0 ∨ n384 ≤ s ∨ p384 ≤ qx ∨ p384 ≤ qy
      ∨ qy * qy % p384 ≠ (qx * qx * qx + (p384 - 3) * qx + b384) % p384 then false
  else
    let w := invMod n384 s
    let u1 := ofBe (sha384 msg) * w % n384
    let u2 := r * w % n384
    match ecAdd (ecMul 384 u1 (some g384) none) (ecMul 384 u2 (some (qx, qy)) none) with
    | none => false
    | some (x, _) => x % n384 == r

/-- The public keys under which a signature verifies: the points Q with r·Q = s·R − e·G, R a point whose x is r modulo n. Each is
96 bytes, x then y. The device holds only the hash of a key (R452) and accepts a signature made with the key of that hash. -/
def ecdsaKeys (msg sig : List Byte) : List (List Byte) :=
  let r := ofBe (sig.take 48)
  let s := ofBe ((sig.drop 48).take 48)
  if sig.length ≠ 96 ∨ r = 0 ∨ n384 ≤ r ∨ s = 0 ∨ n384 ≤ s then []
  else
    let xs := [r, r + n384].filter fun x => decide (x < p384)
    let pts := xs.flatMap fun x =>
      let y := powMod p384 384 ((x * x * x + (p384 - 3) * x + b384) % p384) ((p384 + 1) / 4) 1
      [(x, y), (x, (p384 - y) % p384)]
    let w := invMod n384 r
    let e := ofBe (sha384 msg) % n384
    (pts.filterMap fun pt =>
      ecAdd (ecMul 384 (s * w % n384) (some pt) none) (ecMul 384 ((n384 - e) * w % n384) (some g384) none)).map
      fun q => beBytes 48 q.1 ++ beBytes 48 q.2

/-- A signature made with the key whose SHA-384 is `h` (R452). -/
def ecdsaByHash (h msg sig : List Byte) : Bool := (ecdsaKeys msg sig).any fun k => sha384 k == h && ecdsaVerify k msg sig

end Sys2Proof.Machine
end

