-- ==== Sys2Proof/Config.lean ====
section
/-! DEFINITION. What the spec leaves open: the free values. Each is an opaque constant with no body, so that a statement
proved of the model holds whatever the value is. The assumption log (notes/assumptions) names each of them. -/

namespace Sys2Proof

/-- The n-th value the spec leaves undefined after an action that goes on (contents after an aborted march test, address and
count registers of a halted DMA channel, and so on); `n` is the model's own draw counter. -/
opaque Config.freeNat : Nat → Nat

/-- The n-th undefined byte of memory contents. -/
opaque Config.freeByte : Nat → Byte

/-- The n-th 64-bit nonce drawn by the device (R388, R453: "fresh random"). -/
opaque Config.nonce : Nat → BitVec 64

/-- The contents of the boot ROM, by byte offset (the spec gives none). -/
opaque Config.bootRom : Nat → Byte

/-- The maker's public key, fixed in the boot ROM (R452; the spec gives no value). -/
opaque Config.makerKey : List Byte

/-- Tap `i` of compensation response `e` below its centre, in units of 2⁻³⁰ (R135 gives tap count, delay, linear phase and DC
gain, and not the taps). -/
opaque Config.firTap : Nat → Nat → Int

/-- Sign and payload of the not-a-number that a binary32 operation of the fusion block, the assembler or command formation
gives (R89; IEEE 754 leaves them open), as a function of the operands. -/
opaque Config.nan : Nat → Nat → Nat

/-- Which of the results within 1 ulp a function of R89 gives (0 sine, 1 cosine, 2 square root, 3 atan2), as a function of
its operands: "identical on every FH9600 of stepping B0". -/
opaque Config.ulp : Nat → Nat → Nat → Nat

/-- Field `i` of a completion record where the spec states no value for it (R211): 0 RP, 1 RD, 2 MERIT, 3 OBJ, 4 SLACK, 5 RHO,
6 RES_OFS, 7 the kind words, 8 the timing fields. -/
opaque Config.recFill : Nat → Nat

/-- The weight of a residual of an LSQ-CAL job (R209 states none), as a function of the one-sigma deviations of the sample's and
the consensus's component. -/
opaque Config.calWeight : Nat → Nat → Nat

/-- The 64-bit digest of a configuration image (R314, R324 state no algorithm). -/
opaque Config.cfgDigest : List Byte → BitVec 64

end Sys2Proof
end

