-- ==== Sys2Proof/Machine/RegTable.lean ====
section
/-! DEFINITION. The register table of the 153 assigned pages, row by row as the register tables of spec/ give it: for
every register its offset and array strides, and for every field its bits, its access type (R9) and its reset value.
Reserved bits have no field: they read 0 and a write to them is ignored (R7). The values of registers whose reset is
"from fuses", "from header", `UNIT` or `PAIR_ID` are put in by the views of Machine/Ops.lean. -/

namespace Sys2Proof.Machine

/-- The access types of R9. -/
inductive FT where
  | ro | rw | rwl | rws | w1c | w1s | wo
deriving DecidableEq, Repr

/-- One field of a register: its bits, type and reset value. -/
structure FRow where
  hi : Nat
  lo : Nat
  ty : FT
  rst : Nat
deriving DecidableEq, Repr

/-- One row of a register table: a register or an array of at most two dimensions (count and stride in words). -/
structure RegRow where
  off : Nat
  n1 : Nat
  s1 : Nat
  n2 : Nat
  s2 : Nat
  fields : List FRow
deriving DecidableEq, Repr

/-- A field of one register: the register's word address (page × 1,024 + byte offset / 4) and the field's bits. -/
structure RF where
  a : Nat
  hi : Nat
  lo : Nat
deriving DecidableEq, Repr

/-- The header words of R497 at offsets 0x004–0x01C; `en` is the type of `ENABLE` and `rst` of `RESET`, `ev` its reset value. -/
def hdrRows (en rst : FT) (ev : Nat) : List RegRow := [
  ⟨1, 1, 1, 1, 1, [⟨31, 28, .ro, 1⟩]⟩,
  ⟨2, 1, 1, 1, 1, [⟨2, 2, en, ev⟩, ⟨1, 1, .rw, 0⟩, ⟨0, 0, rst, 0⟩]⟩,
  ⟨3, 1, 1, 1, 1, [⟨1, 1, .ro, 1⟩, ⟨0, 0, .ro, 0⟩]⟩,
  ⟨4, 1, 1, 1, 1, [⟨31, 0, .w1c, 0⟩]⟩,
  ⟨5, 1, 1, 1, 1, [⟨31, 0, .rw, 0⟩]⟩,
  ⟨6, 1, 1, 1, 1, [⟨31, 0, .wo, 0⟩]⟩,
  ⟨7, 1, 1, 1, 1, [⟨2, 2, .w1s, 0⟩, ⟨1, 1, .w1s, 0⟩, ⟨0, 0, .w1s, 0⟩]⟩]

/-- Page SYS: header words and `SYS_CAPS`, `SYS_RST_CAUSE`, `SYS_RST_CNT`, `SYS_SWRESET`, `SYS_WDT_CFG`,
`SYS_WDT_KICK`, `SYS_BOOT`, `SYS_START`, `SYS_START_CTRL`, `SYS_SAF_LOC`, `SYS_RETAIN`. -/
def tblSYS : List RegRow :=
  (hdrRows .ro .ro 1).drop 1  ++ [
  ⟨1, 1, 1, 1, 1, [⟨31, 28, .ro, 1⟩, ⟨0, 0, .ro, 1⟩]⟩,
  ⟨8, 1, 1, 1, 1, [⟨31, 28, .ro, 0⟩, ⟨27, 24, .ro, 0⟩]⟩,
  ⟨9, 1, 1, 1, 1, [⟨31, 16, .rw, 0⟩, ⟨15, 0, .rw, 0⟩]⟩,
  ⟨10, 1, 1, 1, 1, [⟨15, 0, .wo, 0⟩]⟩,
  ⟨11, 1, 1, 1, 1, [⟨31, 31, .rwl, 0⟩, ⟨9, 0, .rwl, 100⟩]⟩,
  ⟨12, 1, 1, 1, 1, [⟨15, 0, .wo, 0⟩]⟩,
  ⟨13, 1, 1, 1, 1, [⟨31, 30, .ro, 3⟩, ⟨29, 29, .ro, 0⟩, ⟨23, 16, .ro, 0⟩, ⟨15, 12, .ro, 0⟩, ⟨11, 8, .ro, 0⟩, ⟨7, 4, .ro, 0⟩]⟩,
  ⟨14, 1, 1, 1, 1, [⟨31, 29, .ro, 0⟩, ⟨28, 28, .ro, 0⟩, ⟨27, 27, .w1c, 0⟩]⟩,
  ⟨15, 1, 1, 1, 1, [⟨31, 31, .w1s, 0⟩, ⟨3, 1, .w1s, 0⟩]⟩,
  ⟨16, 1, 1, 1, 1, [⟨29, 24, .rw, 0⟩, ⟨11, 0, .rw, 0⟩]⟩,
  ⟨17, 1, 1, 1, 1, [⟨5, 0, .ro, 44⟩]⟩]

/-- Page PWR: header words and `PWR_STAT`, `PWR_OFF`, `PWR_DOZE_CNT`, `PWR_LAT_TOL`, `PWR_AVS`, `PWR_THERM`. -/
def tblPWR : List RegRow :=
  hdrRows .ro .ro 1  ++ [
  ⟨8, 1, 1, 1, 1, [⟨31, 29, .ro, 0⟩, ⟨28, 28, .ro, 1⟩, ⟨27, 27, .ro, 1⟩, ⟨26, 24, .ro, 1⟩, ⟨23, 23, .w1c, 0⟩]⟩,
  ⟨9, 1, 1, 1, 1, [⟨15, 0, .wo, 0⟩]⟩,
  ⟨10, 1, 1, 1, 1, [⟨31, 0, .ro, 0⟩]⟩,
  ⟨64, 1, 1, 1, 1, [⟨31, 31, .rw, 1⟩, ⟨30, 30, .rw, 1⟩, ⟨23, 0, .rw, 0⟩]⟩,
  ⟨65, 7, 1, 1, 1, [⟨31, 31, .rw, 0⟩, ⟨30, 30, .rw, 0⟩, ⟨23, 0, .rw, 0⟩]⟩,
  ⟨11, 1, 1, 1, 1, [⟨31, 31, .ro, 0⟩, ⟨25, 16, .ro, 900⟩, ⟨9, 0, .ro, 0⟩]⟩,
  ⟨12, 1, 1, 1, 1, [⟨31, 31, .ro, 0⟩, ⟨30, 24, .rwl, 100⟩, ⟨15, 0, .ro, 0⟩]⟩]

/-- Page EVT: header words and `EVT_PEND`, `EVT_ROUTE`, `EVT_CLAIM`, `EVT_DONE`, `EVT_THRESH`. -/
def tblEVT : List RegRow :=
  ((hdrRows .ro .ro 1).take 3 ++ (hdrRows .ro .ro 1).drop 6)  ++ [
  ⟨16, 16, 1, 1, 1, [⟨31, 0, .ro, 0⟩]⟩,
  ⟨64, 512, 1, 1, 1, [⟨24, 24, .rwl, 0⟩, ⟨18, 16, .rwl, 0⟩, ⟨8, 8, .rwl, 0⟩, ⟨3, 0, .rwl, 0⟩]⟩,
  ⟨576, 5, 2, 1, 1, [⟨31, 31, .ro, 0⟩, ⟨8, 0, .ro, 0⟩]⟩,
  ⟨577, 5, 2, 1, 1, [⟨8, 0, .wo, 0⟩]⟩,
  ⟨592, 5, 1, 1, 1, [⟨2, 0, .rw, 0⟩]⟩]

/-- Page FWL: header words and `FWL_ARM`, `FWL_STAT`, `FWL_RULE_SEL`, `FWL_RULE_W`, `FWL_RULE_COMMIT`, `FWL_VIOL_CNT`,
`FWL_VIOL_LAST_A`, `FWL_VIOL_LAST_B`, `FWL_TGT`. -/
def tblFWL : List RegRow :=
  hdrRows .ro .ro 1  ++ [
  ⟨8, 1, 1, 1, 1, [⟨15, 0, .wo, 0⟩]⟩,
  ⟨9, 1, 1, 1, 1, [⟨31, 31, .ro, 0⟩, ⟨30, 30, .ro, 0⟩, ⟨29, 29, .w1c, 0⟩, ⟨28, 28, .w1c, 0⟩, ⟨12, 0, .ro, 0⟩]⟩,
  ⟨10, 1, 1, 1, 1, [⟨11, 0, .rw, 0⟩]⟩,
  ⟨12, 4, 1, 1, 1, [⟨31, 0, .rw, 0⟩]⟩,
  ⟨16, 1, 1, 1, 1, [⟨31, 0, .wo, 0⟩]⟩,
  ⟨17, 1, 1, 1, 1, [⟨31, 31, .w1c, 0⟩, ⟨30, 0, .rw, 0⟩]⟩,
  ⟨18, 1, 1, 1, 1, [⟨31, 31, .w1c, 0⟩, ⟨30, 29, .ro, 0⟩, ⟨28, 24, .ro, 0⟩, ⟨7, 0, .ro, 0⟩]⟩,
  ⟨19, 1, 1, 1, 1, [⟨31, 0, .ro, 0⟩]⟩,
  ⟨64, 207, 1, 1, 1, [⟨27, 16, .rwl, 0⟩, ⟨12, 0, .rwl, 0⟩]⟩]

/-- Page LCS: header words and `LCS_STATE`, `LCS_UID_LO`, `LCS_UID_HI`, `LCS_NONCE_LO`, `LCS_NONCE_HI`, `LCS_REQ`,
`LCS_RESULT`, `LCS_DBG`, `LCS_TOKEN`, `LCS_PUBKEY`, `LCS_DATA`, `LCS_SECRET`. -/
def tblLCS : List RegRow :=
  hdrRows .ro .ro 1  ++ [
  ⟨8, 1, 1, 1, 1, [⟨31, 29, .ro, 0⟩, ⟨28, 28, .ro, 0⟩, ⟨27, 25, .ro, 0⟩, ⟨3, 3, .ro, 0⟩, ⟨2, 2, .ro, 0⟩, ⟨1, 1, .ro, 0⟩, ⟨0, 0, .ro, 0⟩]⟩,
  ⟨9, 1, 1, 1, 1, [⟨31, 0, .ro, 0⟩]⟩,
  ⟨10, 1, 1, 1, 1, [⟨31, 0, .ro, 0⟩]⟩,
  ⟨11, 1, 1, 1, 1, [⟨31, 0, .ro, 0⟩]⟩,
  ⟨12, 1, 1, 1, 1, [⟨31, 0, .ro, 0⟩]⟩,
  ⟨13, 1, 1, 1, 1, [⟨31, 31, .w1s, 0⟩, ⟨30, 28, .rw, 0⟩, ⟨7, 0, .rw, 0⟩]⟩,
  ⟨14, 1, 1, 1, 1, [⟨31, 31, .ro, 0⟩, ⟨30, 30, .w1c, 0⟩, ⟨2, 0, .ro, 0⟩]⟩,
  ⟨15, 1, 1, 1, 1, [⟨31, 31, .ro, 0⟩, ⟨30, 30, .ro, 0⟩]⟩,
  ⟨64, 24, 1, 1, 1, [⟨31, 0, .wo, 0⟩]⟩,
  ⟨88, 24, 1, 1, 1, [⟨31, 0, .wo, 0⟩]⟩,
  ⟨112, 12, 1, 1, 1, [⟨31, 0, .wo, 0⟩]⟩,
  ⟨128, 8, 1, 1, 1, [⟨31, 0, .ro, 0⟩]⟩]

/-- Page TMX: header words and `TMX_STAT`, `TMX_SEL`. -/
def tblTMX : List RegRow :=
  hdrRows .ro .ro 1  ++ [
  ⟨8, 1, 1, 1, 1, [⟨7, 0, .ro, 0⟩]⟩,
  ⟨64, 8, 1, 1, 1, [⟨31, 31, .rw, 0⟩, ⟨8, 0, .rw, 0⟩]⟩]

/-- Page TIM: header words and `TIM_BEAT_CTRL`, `TIM_BEAT_STAT`, `TIM_FRAME_LO`, `TIM_FRAME_HI`, `TIM_OVR_CNT`,
`TIM_OVR_RUN`, `TIM_SLIP_CNT`, `TIM_CFG`, `TIM_STAT`, `TIM_NOW_LO`, `TIM_NOW_HI`, `TIM_RAW_LO`, `TIM_RAW_HI`,
`TIM_UNC`, `TIM_RATE_LO`, `TIM_RATE_HI`, `TIM_EPOCH_LO`, `TIM_EPOCH_HI`, `TIM_OFS_LO`, `TIM_OFS_HI`, `TIM_STEP_LO`,
`TIM_STEP_HI`, `TIM_STEP_CTRL`, `TIM_STEP_LIMIT`, `TIM_SLEW`, `TIM_FORCE_IDS`, `TIM_HOLD`, `TIM_PTP_OBS_LO`,
`TIM_PTP_OBS_HI`, `TIM_PTP_CTRL`, `TIM_PPS_CFG`, `TIM_PPS_STAT`, `TIM_PPS_OBS_LO`, `TIM_PPS_OBS_HI`,
`TIM_PPS_STAMP_LO`, `TIM_PPS_STAMP_HI`. -/
def tblTIM : List RegRow :=
  hdrRows .ro .ro 1  ++ [
  ⟨128, 1, 1, 1, 1, [⟨15, 8, .rwl, 30⟩, ⟨0, 0, .rwl, 1⟩]⟩,
  ⟨129, 1, 1, 1, 1, [⟨31, 31, .ro, 0⟩, ⟨30, 30, .ro, 0⟩, ⟨29, 29, .ro, 0⟩, ⟨5, 0, .ro, 0⟩]⟩,
  ⟨130, 1, 1, 1, 1, [⟨31, 0, .ro, 0⟩]⟩,
  ⟨131, 1, 1, 1, 1, [⟨31, 0, .ro, 0⟩]⟩,
  ⟨132, 1, 1, 1, 1, [⟨31, 31, .w1c, 0⟩, ⟨30, 0, .rw, 0⟩]⟩,
  ⟨133, 1, 1, 1, 1, [⟨15, 8, .rwl, 3⟩, ⟨7, 0, .ro, 0⟩]⟩,
  ⟨134, 1, 1, 1, 1, [⟨15, 15, .w1c, 0⟩, ⟨14, 0, .rw, 0⟩]⟩,
  ⟨8, 1, 1, 1, 1, [⟨31, 31, .rwl, 0⟩, ⟨30, 30, .rwl, 0⟩, ⟨29, 29, .rwl, 0⟩, ⟨28, 28, .rwl, 0⟩]⟩,
  ⟨9, 1, 1, 1, 1, [⟨31, 30, .ro, 0⟩, ⟨29, 29, .ro, 0⟩, ⟨28, 28, .ro, 0⟩, ⟨27, 27, .ro, 0⟩, ⟨26, 26, .ro, 0⟩, ⟨25, 25, .ro, 0⟩, ⟨24, 24, .ro, 0⟩, ⟨23, 22, .ro, 3⟩]⟩,
  ⟨10, 1, 1, 1, 1, [⟨31, 0, .ro, 0⟩]⟩,
  ⟨11, 1, 1, 1, 1, [⟨31, 0, .ro, 0⟩]⟩,
  ⟨12, 1, 1, 1, 1, [⟨31, 0, .ro, 0⟩]⟩,
  ⟨13, 1, 1, 1, 1, [⟨31, 0, .ro, 0⟩]⟩,
  ⟨14, 1, 1, 1, 1, [⟨31, 0, .ro, 4294967295⟩]⟩,
  ⟨15, 1, 1, 1, 1, [⟨31, 0, .rw, 0⟩]⟩,
  ⟨16, 1, 1, 1, 1, [⟨31, 0, .rw, 0⟩]⟩,
  ⟨17, 1, 1, 1, 1, [⟨31, 0, .ro, 0⟩]⟩,
  ⟨18, 1, 1, 1, 1, [⟨31, 0, .ro, 0⟩]⟩,
  ⟨19, 1, 1, 1, 1, [⟨31, 0, .ro, 0⟩]⟩,
  ⟨20, 1, 1, 1, 1, [⟨31, 0, .ro, 0⟩]⟩,
  ⟨21, 1, 1, 1, 1, [⟨31, 0, .wo, 0⟩]⟩,
  ⟨22, 1, 1, 1, 1, [⟨31, 0, .wo, 0⟩]⟩,
  ⟨23, 1, 1, 1, 1, [⟨31, 31, .w1s, 0⟩, ⟨30, 30, .w1c, 0⟩, ⟨15, 0, .rw, 0⟩]⟩,
  ⟨24, 1, 1, 1, 1, [⟨31, 0, .rwl, 1000⟩]⟩] ++ [
  ⟨25, 1, 1, 1, 1, [⟨31, 0, .ro, 0⟩]⟩,
  ⟨26, 1, 1, 1, 1, [⟨31, 0, .rwl, 0⟩]⟩,
  ⟨27, 1, 1, 1, 1, [⟨31, 16, .rwl, 50⟩, ⟨15, 8, .rwl, 2⟩, ⟨7, 0, .rwl, 3⟩]⟩,
  ⟨28, 1, 1, 1, 1, [⟨31, 0, .rw, 0⟩]⟩,
  ⟨29, 1, 1, 1, 1, [⟨31, 0, .rw, 0⟩]⟩,
  ⟨30, 1, 1, 1, 1, [⟨31, 31, .w1s, 0⟩, ⟨30, 30, .w1c, 0⟩, ⟨23, 16, .rw, 0⟩, ⟨15, 0, .rw, 0⟩]⟩,
  ⟨64, 1, 1, 1, 1, [⟨15, 0, .rwl, 0⟩]⟩,
  ⟨65, 1, 1, 1, 1, [⟨31, 30, .ro, 0⟩, ⟨29, 29, .ro, 0⟩, ⟨15, 0, .ro, 0⟩]⟩,
  ⟨66, 1, 1, 1, 1, [⟨31, 0, .ro, 0⟩]⟩,
  ⟨67, 1, 1, 1, 1, [⟨31, 0, .ro, 0⟩]⟩,
  ⟨68, 1, 1, 1, 1, [⟨31, 0, .ro, 0⟩]⟩,
  ⟨69, 1, 1, 1, 1, [⟨31, 0, .ro, 0⟩]⟩]

/-- Page ETH: header words and `ETH_CFG`, `ETH_LINK`, `ETH_MAC_LO`, `ETH_MAC_HI`, `ETH_RXR_BASE`, `ETH_TXR_BASE`,
`ETH_RXR_SIZE`, `ETH_TXR_SIZE`, `ETH_RXR_TAIL`, `ETH_TXR_TAIL`, `ETH_RXR_HEAD`, `ETH_TXR_HEAD`, `ETH_TS_CORR`,
`ETH_ASYM`, `ETH_CAL`, `ETH_TC`, `ETH_CNT_A`, `ETH_CNT_B`, `ETH_CNT_C`, `ETH_FLAGS`, `ETH_MCAST_LO`, `ETH_MCAST_HI`.
-/
def tblETH : List RegRow :=
  hdrRows .rw .w1s 1  ++ [
  ⟨8, 1, 1, 1, 1, [⟨31, 31, .rw, 0⟩, ⟨30, 30, .rw, 0⟩, ⟨29, 29, .rwl, 0⟩, ⟨28, 28, .rwl, 1⟩, ⟨27, 27, .rwl, 0⟩, ⟨26, 26, .rw, 0⟩, ⟨25, 25, .rw, 1⟩]⟩,
  ⟨9, 1, 1, 1, 1, [⟨31, 31, .ro, 0⟩, ⟨30, 30, .ro, 0⟩, ⟨29, 29, .w1c, 0⟩]⟩,
  ⟨10, 1, 1, 1, 1, [⟨31, 0, .rwl, 0⟩]⟩,
  ⟨11, 1, 1, 1, 1, [⟨31, 0, .rwl, 0⟩]⟩,
  ⟨12, 1, 1, 1, 1, [⟨31, 0, .rwl, 0⟩]⟩,
  ⟨14, 1, 1, 1, 1, [⟨31, 0, .rwl, 0⟩]⟩,
  ⟨13, 1, 1, 1, 1, [⟨10, 0, .rwl, 16⟩]⟩,
  ⟨15, 1, 1, 1, 1, [⟨10, 0, .rwl, 16⟩]⟩,
  ⟨16, 1, 1, 1, 1, [⟨9, 0, .rw, 0⟩]⟩,
  ⟨18, 1, 1, 1, 1, [⟨9, 0, .rw, 0⟩]⟩,
  ⟨17, 1, 1, 1, 1, [⟨9, 0, .ro, 0⟩]⟩,
  ⟨19, 1, 1, 1, 1, [⟨9, 0, .ro, 0⟩]⟩,
  ⟨20, 1, 1, 1, 1, [⟨31, 16, .rw, 0⟩, ⟨15, 0, .rw, 0⟩]⟩,
  ⟨21, 1, 1, 1, 1, [⟨31, 16, .rwl, 0⟩, ⟨15, 0, .rwl, 0⟩]⟩,
  ⟨22, 1, 1, 1, 1, [⟨31, 31, .w1s, 0⟩, ⟨30, 30, .ro, 0⟩, ⟨29, 29, .w1c, 0⟩, ⟨28, 28, .w1c, 0⟩, ⟨15, 0, .ro, 0⟩]⟩,
  ⟨23, 1, 1, 1, 1, [⟨31, 31, .rwl, 0⟩]⟩,
  ⟨24, 1, 1, 1, 1, [⟨31, 16, .rw, 0⟩, ⟨15, 0, .rw, 0⟩]⟩,
  ⟨25, 1, 1, 1, 1, [⟨31, 16, .ro, 0⟩, ⟨15, 0, .ro, 0⟩]⟩,
  ⟨26, 1, 1, 1, 1, [⟨31, 16, .ro, 0⟩, ⟨15, 0, .rw, 0⟩]⟩,
  ⟨27, 1, 1, 1, 1, [⟨2, 2, .w1c, 0⟩, ⟨1, 1, .w1c, 0⟩, ⟨0, 0, .w1c, 0⟩]⟩,
  ⟨64, 16, 2, 1, 1, [⟨31, 0, .rwl, 0⟩]⟩,
  ⟨65, 16, 2, 1, 1, [⟨31, 31, .rwl, 0⟩, ⟨15, 0, .rwl, 0⟩]⟩]

/-- Page CAN: header words and `CAN_MODE`, `CAN_NBT`, `CAN_DBT`, `CAN_TDC`, `CAN_ECNT`, `CAN_BUS`, `CAN_DUP`,
`CAN_CNT_A`, `CAN_CNT_B`, `CAN_FLAGS`, `CAN_TXQ`, `CAN_TXQ_ABORT`, `CAN_RXF`, `CAN_RXF_POP`, `CAN_PB_STAT`,
`CAN_PB_REL`, `CAN_PB`, `CAN_RXF_HEAD`, `CAN_FLT_ID`, `CAN_FLT_MASK`, `CAN_TXW`, `CAN_TXW_PUSH`, `CAN_TXW_RESULT`,
`CAN_TXE_STAT`, `CAN_TXE_TS`. -/
def tblCAN : List RegRow :=
  hdrRows .rw .w1s 1  ++ [
  ⟨8, 1, 1, 1, 1, [⟨11, 11, .rwl, 1⟩, ⟨10, 10, .rwl, 1⟩, ⟨9, 9, .rwl, 1⟩, ⟨8, 8, .rwl, 1⟩, ⟨1, 0, .rw, 0⟩]⟩,
  ⟨9, 1, 1, 1, 1, [⟨31, 24, .rwl, 0⟩, ⟨23, 16, .rwl, 62⟩, ⟨14, 8, .rwl, 15⟩, ⟨6, 0, .rwl, 15⟩]⟩,
  ⟨10, 1, 1, 1, 1, [⟨28, 24, .rwl, 0⟩, ⟨20, 16, .rwl, 6⟩, ⟨11, 8, .rwl, 1⟩, ⟨3, 0, .rwl, 1⟩]⟩,
  ⟨11, 1, 1, 1, 1, [⟨22, 16, .rwl, 8⟩, ⟨6, 0, .ro, 0⟩]⟩,
  ⟨12, 1, 1, 1, 1, [⟨31, 30, .ro, 0⟩, ⟨16, 8, .ro, 0⟩, ⟨7, 0, .ro, 0⟩]⟩,
  ⟨13, 1, 1, 1, 1, [⟨31, 31, .ro, 0⟩, ⟨30, 30, .ro, 0⟩, ⟨29, 29, .ro, 0⟩, ⟨28, 28, .ro, 0⟩, ⟨27, 24, .ro, 0⟩, ⟨7, 0, .ro, 0⟩]⟩,
  ⟨14, 1, 1, 1, 1, [⟨31, 31, .w1c, 0⟩, ⟨30, 30, .ro, 0⟩, ⟨28, 0, .ro, 0⟩]⟩,
  ⟨15, 1, 1, 1, 1, [⟨31, 16, .rw, 0⟩, ⟨15, 0, .rw, 0⟩]⟩,
  ⟨16, 1, 1, 1, 1, [⟨31, 16, .ro, 0⟩, ⟨15, 0, .ro, 0⟩]⟩,
  ⟨17, 1, 1, 1, 1, [⟨3, 3, .w1c, 0⟩, ⟨2, 2, .w1c, 0⟩, ⟨1, 1, .w1c, 0⟩, ⟨0, 0, .w1c, 0⟩]⟩,
  ⟨18, 1, 1, 1, 1, [⟨5, 0, .ro, 32⟩]⟩,
  ⟨19, 1, 1, 1, 1, [⟨31, 31, .wo, 0⟩, ⟨4, 0, .wo, 0⟩]⟩,
  ⟨20, 1, 1, 1, 1, [⟨6, 0, .ro, 0⟩]⟩,
  ⟨21, 1, 1, 1, 1, [⟨31, 0, .wo, 0⟩]⟩,
  ⟨22, 1, 1, 1, 1, [⟨15, 8, .w1c, 0⟩, ⟨7, 0, .ro, 0⟩]⟩,
  ⟨23, 1, 1, 1, 1, [⟨7, 0, .w1s, 0⟩]⟩,
  ⟨64, 8, 20, 20, 1, [⟨31, 0, .ro, 0⟩]⟩,
  ⟨224, 20, 1, 1, 1, [⟨31, 0, .ro, 0⟩]⟩,
  ⟨256, 128, 2, 1, 1, [⟨31, 31, .rwl, 0⟩, ⟨30, 30, .rwl, 0⟩, ⟨29, 29, .rwl, 0⟩, ⟨28, 0, .rwl, 0⟩]⟩,
  ⟨257, 128, 2, 1, 1, [⟨28, 0, .rwl, 0⟩]⟩,
  ⟨512, 20, 1, 1, 1, [⟨31, 0, .rw, 0⟩]⟩,
  ⟨532, 1, 1, 1, 1, [⟨31, 0, .wo, 0⟩]⟩,
  ⟨533, 1, 1, 1, 1, [⟨31, 31, .ro, 0⟩, ⟨10, 8, .ro, 0⟩, ⟨4, 0, .ro, 0⟩]⟩,
  ⟨536, 32, 1, 1, 1, [⟨1, 0, .ro, 0⟩]⟩] ++ [
  ⟨568, 32, 1, 1, 1, [⟨31, 0, .ro, 0⟩]⟩]

/-- Page CAN8: header words and `CAN_TS`, `CAN_HELM_CFG`, `CAN_HELM_MAP`, `CAN_HELM_LIM`, `CAN_HELM_STAT`, `CAN_FB`,
`CAN_FB_STAT`. -/
def tblCAN8 : List RegRow :=
  hdrRows .rw .w1s 1  ++ [
  ⟨8, 1, 1, 1, 1, [⟨31, 0, .ro, 0⟩]⟩,
  ⟨9, 1, 1, 1, 1, [⟨31, 20, .rwl, 0⟩, ⟨8, 8, .rwl, 0⟩, ⟨7, 0, .rwl, 8⟩]⟩,
  ⟨64, 24, 2, 1, 1, [⟨31, 31, .rwl, 0⟩, ⟨26, 24, .rwl, 0⟩, ⟨23, 23, .rwl, 0⟩, ⟨21, 16, .rwl, 0⟩]⟩,
  ⟨65, 24, 2, 1, 1, [⟨31, 16, .rwl, 0⟩, ⟨15, 0, .rwl, 0⟩]⟩,
  ⟨128, 24, 1, 1, 1, [⟨31, 24, .ro, 0⟩, ⟨16, 16, .w1c, 0⟩, ⟨15, 0, .rw, 0⟩]⟩,
  ⟨192, 24, 8, 8, 1, [⟨31, 0, .ro, 0⟩]⟩,
  ⟨384, 24, 1, 1, 1, [⟨31, 31, .ro, 0⟩, ⟨30, 30, .ro, 0⟩, ⟨29, 29, .w1c, 0⟩, ⟨23, 16, .rw, 0⟩, ⟨15, 0, .ro, 65535⟩]⟩]

/-- Page UAT: header words and `UAT_CFG`, `UAT_DIV`, `UAT_STAT`, `UAT_RX`, `UAT_TX`, `UAT_STAMP_LO`, `UAT_STAMP_HI`,
`UAT_STAMP_IDX`, `UAT_CNT`, `UAT_FLAGS`, `UAT_RXCHARS`. -/
def tblUAT : List RegRow :=
  hdrRows .rw .w1s 1  ++ [
  ⟨8, 1, 1, 1, 1, [⟨31, 31, .rw, 0⟩, ⟨30, 29, .rwl, 0⟩, ⟨28, 28, .rwl, 0⟩, ⟨27, 27, .rwl, 0⟩, ⟨26, 26, .rwl, 0⟩, ⟨23, 16, .rwl, 36⟩, ⟨15, 8, .rwl, 33⟩]⟩,
  ⟨9, 1, 1, 1, 1, [⟨17, 0, .rwl, 166667⟩]⟩,
  ⟨10, 1, 1, 1, 1, [⟨26, 16, .ro, 0⟩, ⟨13, 8, .ro, 0⟩, ⟨7, 0, .ro, 255⟩]⟩,
  ⟨11, 1, 1, 1, 1, [⟨31, 31, .ro, 0⟩, ⟨11, 11, .ro, 0⟩, ⟨10, 10, .ro, 0⟩, ⟨9, 9, .ro, 0⟩, ⟨8, 8, .ro, 0⟩, ⟨7, 0, .ro, 0⟩]⟩,
  ⟨12, 1, 1, 1, 1, [⟨7, 0, .wo, 0⟩]⟩,
  ⟨13, 1, 1, 1, 1, [⟨31, 0, .ro, 0⟩]⟩,
  ⟨14, 1, 1, 1, 1, [⟨31, 0, .ro, 0⟩]⟩,
  ⟨15, 1, 1, 1, 1, [⟨31, 0, .ro, 0⟩]⟩,
  ⟨16, 1, 1, 1, 1, [⟨31, 16, .rw, 0⟩, ⟨15, 0, .rw, 0⟩]⟩,
  ⟨17, 1, 1, 1, 1, [⟨2, 2, .w1c, 0⟩, ⟨1, 1, .w1c, 0⟩, ⟨0, 0, .w1c, 0⟩]⟩,
  ⟨18, 1, 1, 1, 1, [⟨31, 0, .ro, 0⟩]⟩]

/-- Page CLE0: header words and `CLE_MODE`, `CLE_FENCE_STAT`, `CLE_FENCE_ERR`, `CLE_FENCE_IN`, `CLE_FENCE_OUT`,
`CLE_TRAJ_STAT`, `CLE_COMMIT`, `CLE_MODE_REQ`, `CLE_FENCE_DWELL`, `CLE_FENCE_CFG`, `CLE_HELM`. -/
def tblCLE0 : List RegRow :=
  hdrRows .rw .w1s 1  ++ [
  ⟨8, 1, 1, 1, 1, [⟨31, 30, .ro, 0⟩, ⟨29, 29, .ro, 0⟩, ⟨28, 28, .ro, 0⟩]⟩,
  ⟨10, 1, 1, 1, 1, [⟨22, 20, .ro, 0⟩, ⟨18, 16, .ro, 0⟩, ⟨15, 0, .ro, 0⟩]⟩,
  ⟨12, 3, 1, 1, 1, [⟨31, 0, .ro, 0⟩]⟩,
  ⟨16, 3, 1, 1, 1, [⟨31, 0, .ro, 0⟩]⟩,
  ⟨20, 3, 1, 1, 1, [⟨31, 0, .ro, 0⟩]⟩,
  ⟨23, 1, 1, 1, 1, [⟨31, 31, .ro, 0⟩, ⟨30, 30, .ro, 0⟩, ⟨4, 0, .ro, 0⟩]⟩,
  ⟨32, 1, 1, 1, 1, [⟨31, 16, .ro, 0⟩, ⟨7, 6, .ro, 1⟩, ⟨5, 0, .ro, 0⟩]⟩,
  ⟨33, 1, 1, 1, 1, [⟨1, 1, .rws, 0⟩, ⟨0, 0, .rws, 0⟩]⟩,
  ⟨34, 1, 1, 1, 1, [⟨15, 0, .rws, 3000⟩]⟩,
  ⟨35, 1, 1, 1, 1, [⟨12, 8, .rws, 20⟩, ⟨4, 0, .rws, 28⟩]⟩,
  ⟨64, 24, 1, 1, 1, [⟨23, 23, .rwl, 0⟩, ⟨21, 16, .rwl, 0⟩, ⟨15, 15, .rwl, 0⟩, ⟨13, 8, .rwl, 0⟩, ⟨7, 7, .rwl, 0⟩, ⟨6, 6, .rwl, 1⟩, ⟨5, 0, .rwl, 0⟩]⟩]

/-- Page CLE12: header words and `CLE_SLOT_CFG`, `CLE_SLOT_IDX`, `CLE_SLOT_P`, `CLE_SLOT_KI`, `CLE_SLOT_A`,
`CLE_SLOT_SHIFT`, `CLE_SLOT_HYST_HI`, `CLE_SLOT_HYST_LO`, `CLE_SLOT_UMAX`, `CLE_SLOT_UMIN`, `CLE_SLOT_RATE`,
`CLE_SLOT_RAMP`, `CLE_SLOT_SPREG`, `CLE_SLOT_PVREG`, `CLE_SLOT_I_LO`, `CLE_SLOT_I_HI`, `CLE_SLOT_CTRL`,
`CLE_SLOT_OUT`, `CLE_SLOT_SP`, `CLE_SLOT_ERR`, `CLE_SLOT_IST_LO`, `CLE_SLOT_IST_HI`, `CLE_SLOT_STAT`, `CLE12_COMMIT`.
-/
def tblCLE12 : List RegRow :=
  hdrRows .rw .w1s 1  ++ [
  ⟨64, 32, 24, 1, 1, [⟨31, 31, .rws, 0⟩, ⟨30, 30, .rws, 0⟩, ⟨29, 29, .rws, 1⟩, ⟨28, 28, .rws, 0⟩, ⟨27, 24, .rws, 0⟩, ⟨23, 20, .rws, 0⟩, ⟨19, 16, .rws, 0⟩]⟩,
  ⟨65, 32, 24, 1, 1, [⟨23, 16, .rws, 0⟩, ⟨15, 8, .rws, 0⟩, ⟨7, 0, .rws, 0⟩]⟩,
  ⟨66, 32, 24, 1, 1, [⟨31, 0, .rws, 0⟩]⟩,
  ⟨67, 32, 24, 1, 1, [⟨31, 0, .rws, 0⟩]⟩,
  ⟨68, 32, 24, 1, 1, [⟨31, 0, .rws, 0⟩]⟩,
  ⟨69, 32, 24, 1, 1, [⟨20, 16, .rws, 0⟩, ⟨12, 8, .rws, 0⟩, ⟨4, 0, .rws, 0⟩]⟩,
  ⟨70, 32, 24, 1, 1, [⟨30, 0, .rws, 0⟩]⟩,
  ⟨71, 32, 24, 1, 1, [⟨30, 0, .rws, 0⟩]⟩,
  ⟨72, 32, 24, 1, 1, [⟨31, 0, .rws, 2147483647⟩]⟩,
  ⟨73, 32, 24, 1, 1, [⟨31, 0, .rws, 2147483648⟩]⟩,
  ⟨74, 32, 24, 1, 1, [⟨30, 0, .rws, 0⟩]⟩,
  ⟨75, 32, 24, 1, 1, [⟨30, 0, .rws, 0⟩]⟩,
  ⟨76, 32, 24, 1, 1, [⟨31, 0, .rws, 0⟩]⟩,
  ⟨77, 32, 24, 1, 1, [⟨31, 0, .rws, 0⟩]⟩,
  ⟨78, 32, 24, 1, 1, [⟨31, 0, .rws, 0⟩]⟩,
  ⟨79, 32, 24, 1, 1, [⟨31, 0, .rws, 0⟩]⟩,
  ⟨80, 32, 24, 1, 1, [⟨1, 1, .w1s, 0⟩, ⟨0, 0, .rw, 0⟩]⟩,
  ⟨81, 32, 24, 1, 1, [⟨31, 0, .ro, 0⟩]⟩,
  ⟨82, 32, 24, 1, 1, [⟨31, 0, .ro, 0⟩]⟩,
  ⟨83, 32, 24, 1, 1, [⟨31, 0, .ro, 0⟩]⟩,
  ⟨84, 32, 24, 1, 1, [⟨31, 0, .ro, 0⟩]⟩,
  ⟨85, 32, 24, 1, 1, [⟨31, 0, .ro, 0⟩]⟩,
  ⟨86, 32, 24, 1, 1, [⟨31, 30, .ro, 0⟩, ⟨29, 29, .ro, 0⟩, ⟨28, 28, .ro, 0⟩, ⟨27, 27, .ro, 0⟩, ⟨26, 26, .ro, 0⟩, ⟨25, 25, .w1c, 0⟩, ⟨24, 24, .w1c, 0⟩]⟩,
  ⟨32, 1, 1, 1, 1, [⟨31, 16, .ro, 0⟩, ⟨7, 6, .rwl, 0⟩, ⟨5, 0, .rwl, 0⟩]⟩]

/-- Page CLE3: header words and `CLE_TRAJ_T0_LO`, `CLE_TRAJ_T0_HI`, `CLE_TRAJ`. -/
def tblCLE3 : List RegRow :=
  hdrRows .rw .w1s 1  ++ [
  ⟨8, 1, 1, 1, 1, [⟨31, 0, .ro, 0⟩]⟩,
  ⟨9, 1, 1, 1, 1, [⟨31, 0, .ro, 0⟩]⟩,
  ⟨64, 20, 24, 24, 1, [⟨31, 16, .ro, 0⟩, ⟨15, 0, .ro, 0⟩]⟩]

/-- Page FLT: header words and `FLT_MCLK`, `FLT_SNAP_CFG`, `FLT_CH_CFG`, `FLT_CH_STEP`, `FLT_CH_CTRL`, `FLT_CH_OUT`,
`FLT_CH_FINE`, `FLT_CH_COARSE`, `FLT_CH_STAT`, `FLT_CH_CNT`. -/
def tblFLT : List RegRow :=
  hdrRows .rw .w1s 1  ++ [
  ⟨8, 1, 1, 1, 1, [⟨31, 31, .rw, 0⟩, ⟨7, 0, .rw, 80⟩]⟩,
  ⟨9, 1, 1, 1, 1, [⟨31, 31, .rwl, 0⟩, ⟨11, 0, .rwl, 0⟩]⟩,
  ⟨64, 16, 8, 1, 1, [⟨31, 31, .rw, 0⟩, ⟨30, 30, .rw, 1⟩, ⟨27, 25, .rw, 4⟩, ⟨24, 16, .rw, 250⟩, ⟨15, 12, .rw, 7⟩, ⟨11, 0, .rw, 0⟩]⟩,
  ⟨65, 16, 8, 1, 1, [⟨15, 0, .rw, 1638⟩]⟩,
  ⟨66, 16, 8, 1, 1, [⟨0, 0, .w1s, 0⟩]⟩,
  ⟨67, 16, 8, 1, 1, [⟨31, 0, .ro, 0⟩]⟩,
  ⟨68, 16, 8, 1, 1, [⟨31, 0, .ro, 0⟩]⟩,
  ⟨69, 16, 8, 1, 1, [⟨31, 0, .ro, 0⟩]⟩,
  ⟨70, 16, 8, 1, 1, [⟨31, 31, .ro, 0⟩, ⟨30, 30, .ro, 0⟩, ⟨29, 29, .ro, 0⟩, ⟨28, 28, .w1c, 0⟩, ⟨27, 27, .w1c, 0⟩, ⟨23, 0, .ro, 0⟩]⟩,
  ⟨71, 16, 8, 1, 1, [⟨31, 16, .rw, 0⟩, ⟨15, 0, .rw, 0⟩]⟩]

/-- Page GNS0: header words and `GNS_IF_CFG`, `GNS_IF_FREQ`, `GNS_AGC`, `GNS_JAM_CFG`, `GNS_JAM`, `GNS_NOTCH_TH`,
`GNS_NOTCH`, `GNS_ACQ_CFG`, `GNS_TRK_CFG`, `GNS_MEAS_CFG`, `GNS_SNAP_CTRL`, `GNS_SNAP_STAT`, `GNS_TIME_OBS_LO`,
`GNS_TIME_OBS_HI`, `GNS_TIME_CTRL`. -/
def tblGNS0 : List RegRow :=
  hdrRows .rw .w1s 1  ++ [
  ⟨8, 1, 1, 1, 1, [⟨31, 31, .rwl, 0⟩, ⟨30, 29, .rwl, 0⟩, ⟨28, 28, .rwl, 0⟩]⟩,
  ⟨9, 1, 1, 1, 1, [⟨31, 31, .rwl, 0⟩, ⟨30, 29, .rwl, 1⟩, ⟨28, 28, .rwl, 0⟩]⟩,
  ⟨10, 2, 1, 1, 1, [⟨31, 0, .rwl, 0⟩]⟩,
  ⟨12, 2, 1, 1, 1, [⟨31, 31, .rw, 1⟩, ⟨30, 30, .ro, 0⟩, ⟨23, 16, .rw, 33⟩, ⟨15, 8, .ro, 128⟩, ⟨7, 0, .rw, 128⟩]⟩,
  ⟨14, 1, 1, 1, 1, [⟨31, 31, .w1s, 0⟩, ⟨29, 24, .rwl, 37⟩, ⟨15, 8, .rwl, 16⟩, ⟨7, 0, .rwl, 40⟩]⟩,
  ⟨16, 2, 1, 1, 1, [⟨31, 31, .ro, 0⟩, ⟨23, 16, .ro, 0⟩, ⟨15, 0, .ro, 0⟩]⟩,
  ⟨23, 1, 1, 1, 1, [⟨7, 0, .rwl, 15⟩]⟩,
  ⟨24, 2, 4, 4, 1, [⟨31, 31, .rwl, 0⟩, ⟨30, 30, .rwl, 1⟩, ⟨29, 29, .ro, 0⟩, ⟨27, 26, .rwl, 1⟩, ⟨23, 0, .rwl, 0⟩]⟩,
  ⟨18, 1, 1, 1, 1, [⟨20, 16, .rwl, 2⟩, ⟨15, 0, .rwl, 640⟩]⟩,
  ⟨19, 1, 1, 1, 1, [⟨31, 30, .rwl, 1⟩, ⟨29, 28, .rwl, 1⟩, ⟨27, 26, .rwl, 1⟩, ⟨25, 25, .rwl, 1⟩, ⟨7, 0, .rwl, 100⟩]⟩,
  ⟨20, 1, 1, 1, 1, [⟨31, 31, .rwl, 0⟩, ⟨11, 0, .rwl, 0⟩]⟩,
  ⟨21, 1, 1, 1, 1, [⟨31, 31, .w1s, 0⟩, ⟨30, 30, .rw, 0⟩, ⟨29, 24, .rw, 0⟩, ⟨21, 16, .rw, 0⟩, ⟨13, 8, .rw, 1⟩, ⟨4, 0, .rw, 0⟩]⟩,
  ⟨22, 1, 1, 1, 1, [⟨31, 31, .ro, 0⟩, ⟨30, 30, .w1c, 0⟩, ⟨2, 0, .ro, 0⟩]⟩,
  ⟨64, 1, 1, 1, 1, [⟨31, 0, .rw, 0⟩]⟩,
  ⟨65, 1, 1, 1, 1, [⟨31, 0, .rw, 0⟩]⟩,
  ⟨66, 1, 1, 1, 1, [⟨31, 31, .w1s, 0⟩, ⟨30, 30, .ro, 0⟩, ⟨29, 29, .w1c, 0⟩, ⟨28, 24, .rwl, 2⟩, ⟨23, 16, .rw, 0⟩, ⟨15, 0, .rw, 0⟩]⟩]

/-- Page GNS1: header words and `GNS_CH_CFG`, `GNS_CH_CODE`, `GNS_CH_STAT`, `GNS_CH_ACQ`, `GNS_CH_BITS`,
`GNS_CH_BITCNT`. -/
def tblGNS1 : List RegRow :=
  hdrRows .rw .w1s 1  ++ [
  ⟨64, 56, 8, 1, 1, [⟨31, 31, .rw, 0⟩, ⟨30, 30, .rw, 0⟩, ⟨29, 29, .rw, 0⟩, ⟨28, 23, .rw, 0⟩, ⟨22, 18, .rw, 20⟩, ⟨15, 0, .rw, 0⟩]⟩,
  ⟨65, 56, 8, 1, 1, [⟨31, 0, .rw, 0⟩]⟩,
  ⟨66, 56, 8, 1, 1, [⟨31, 29, .ro, 0⟩, ⟨28, 26, .ro, 0⟩, ⟨25, 25, .ro, 0⟩, ⟨24, 24, .ro, 0⟩, ⟨23, 16, .ro, 0⟩, ⟨15, 0, .ro, 0⟩]⟩,
  ⟨67, 56, 8, 1, 1, [⟨15, 0, .ro, 0⟩]⟩,
  ⟨68, 56, 8, 1, 1, [⟨31, 0, .ro, 0⟩]⟩,
  ⟨69, 56, 8, 1, 1, [⟨31, 0, .ro, 0⟩]⟩]

/-- Page GNS2: header words and `GNS_MEAS_BUF_A`. -/
def tblGNS2 : List RegRow :=
  hdrRows .rw .w1s 1  ++ [
  ⟨64, 960, 1, 1, 1, [⟨31, 0, .ro, 0⟩]⟩]

/-- Page GNS3: header words and `GNS_MEAS_BUF_B`. -/
def tblGNS3 : List RegRow :=
  hdrRows .rw .w1s 1  ++ [
  ⟨64, 960, 1, 1, 1, [⟨31, 0, .ro, 0⟩]⟩]

/-- Page FUS0: header words and `FUS_GLOBAL`, `FUS_CAL_LIM`, `FUS_CAL_AREA`, `FUS_GROUP`, `FUS_GSTAT`, `FUS_PICK`,
`FUS0_COMMIT`. -/
def tblFUS0 : List RegRow :=
  hdrRows .rw .w1s 1  ++ [
  ⟨8, 1, 1, 1, 1, [⟨31, 26, .rwl, 60⟩, ⟨25, 20, .rwl, 0⟩, ⟨19, 16, .rwl, 3⟩, ⟨14, 12, .rwl, 0⟩, ⟨11, 0, .rwl, 1000⟩]⟩,
  ⟨9, 1, 1, 1, 1, [⟨31, 16, .rwl, 50⟩, ⟨15, 0, .rwl, 10⟩]⟩,
  ⟨10, 1, 1, 1, 1, [⟨29, 24, .rwl, 0⟩, ⟨11, 0, .rwl, 2048⟩]⟩,
  ⟨16, 8, 1, 1, 1, [⟨31, 31, .rwl, 0⟩, ⟨27, 24, .rwl, 0⟩, ⟨23, 20, .rwl, 3⟩, ⟨19, 16, .rwl, 5⟩, ⟨15, 8, .rwl, 100⟩, ⟨7, 0, .rwl, 72⟩]⟩,
  ⟨24, 8, 1, 1, 1, [⟨13, 8, .ro, 0⟩, ⟨4, 4, .ro, 0⟩, ⟨3, 3, .ro, 0⟩, ⟨2, 2, .ro, 0⟩, ⟨1, 1, .ro, 0⟩, ⟨0, 0, .ro, 0⟩]⟩,
  ⟨33, 8, 1, 1, 1, [⟨31, 31, .rws, 0⟩, ⟨4, 0, .rws, 0⟩]⟩,
  ⟨32, 1, 1, 1, 1, [⟨31, 16, .ro, 0⟩, ⟨7, 6, .ro, 1⟩, ⟨5, 0, .ro, 0⟩]⟩]

/-- Page FUS1: header words and `FUS_PORT_CFG`, `FUS_PORT_LAT`, `FUS_CLK_OFS_LO`, `FUS_CLK_OFS_HI`, `FUS_CLK_RATE`,
`FUS_CLK_EPOCH_LO`, `FUS_CLK_EPOCH_HI`, `FUS_CLK_DISC`, `FUS_PORT_STAT`, `FUS_PORT_CNT_A`, `FUS_PORT_CNT_B`,
`FUS_PORT_QUEUE`, `FUS1_COMMIT`. -/
def tblFUS1 : List RegRow :=
  hdrRows .rw .w1s 1  ++ [
  ⟨64, 32, 16, 1, 1, [⟨31, 28, .rwl, 0⟩, ⟨27, 24, .rwl, 0⟩, ⟨23, 23, .rwl, 0⟩, ⟨22, 20, .rwl, 0⟩, ⟨19, 16, .rwl, 0⟩, ⟨15, 13, .rwl, 2⟩, ⟨12, 8, .rwl, 0⟩, ⟨7, 4, .rwl, 0⟩, ⟨3, 3, .rwl, 0⟩, ⟨2, 2, .rwl, 0⟩, ⟨1, 1, .rwl, 0⟩]⟩,
  ⟨65, 32, 16, 1, 1, [⟨19, 0, .rwl, 0⟩]⟩,
  ⟨66, 32, 16, 1, 1, [⟨31, 0, .rws, 0⟩]⟩,
  ⟨67, 32, 16, 1, 1, [⟨31, 0, .rws, 0⟩]⟩,
  ⟨68, 32, 16, 1, 1, [⟨31, 0, .rws, 0⟩]⟩,
  ⟨69, 32, 16, 1, 1, [⟨31, 0, .rws, 0⟩]⟩,
  ⟨70, 32, 16, 1, 1, [⟨31, 0, .rws, 0⟩]⟩,
  ⟨71, 32, 16, 1, 1, [⟨31, 0, .ro, 0⟩]⟩,
  ⟨72, 32, 16, 1, 1, [⟨31, 31, .ro, 0⟩, ⟨30, 28, .ro, 0⟩, ⟨27, 20, .ro, 0⟩, ⟨19, 12, .ro, 0⟩, ⟨11, 9, .ro, 0⟩, ⟨8, 8, .ro, 0⟩, ⟨7, 7, .w1c, 0⟩, ⟨6, 6, .w1c, 0⟩, ⟨5, 5, .w1c, 0⟩, ⟨4, 4, .w1c, 0⟩, ⟨3, 3, .w1c, 0⟩, ⟨2, 2, .w1c, 0⟩]⟩,
  ⟨73, 32, 16, 1, 1, [⟨31, 16, .rw, 0⟩, ⟨15, 0, .rw, 0⟩]⟩,
  ⟨74, 32, 16, 1, 1, [⟨31, 16, .rw, 0⟩, ⟨15, 0, .rw, 0⟩]⟩,
  ⟨75, 32, 16, 1, 1, [⟨14, 8, .ro, 0⟩, ⟨4, 0, .ro, 0⟩]⟩,
  ⟨32, 1, 1, 1, 1, [⟨31, 16, .ro, 0⟩, ⟨7, 6, .ro, 1⟩, ⟨5, 0, .ro, 0⟩]⟩]

/-- Page FUS2: header words and `FUS_DEP`, `FUS_DEP_COMMIT`. -/
def tblFUS2 : List RegRow :=
  hdrRows .rw .w1s 1  ++ [
  ⟨64, 32, 16, 16, 1, [⟨31, 0, .rw, 0⟩]⟩,
  ⟨576, 32, 1, 1, 1, [⟨31, 0, .wo, 0⟩]⟩]

/-- Page FUS3: header words and `FUS_MOUNT`, `FUS3_COMMIT`. -/
def tblFUS3 : List RegRow :=
  hdrRows .rw .w1s 1  ++ [
  ⟨64, 32, 8, 6, 1, [⟨31, 0, .rws, 0⟩]⟩,
  ⟨70, 32, 8, 1, 1, [⟨31, 0, .rws, 1065353216⟩]⟩,
  ⟨71, 32, 8, 1, 1, [⟨31, 0, .rws, 0⟩]⟩,
  ⟨32, 1, 1, 1, 1, [⟨31, 16, .ro, 0⟩, ⟨7, 6, .ro, 1⟩, ⟨5, 0, .ro, 0⟩]⟩]

/-- Page GFE: header words and `GFE_PASS`, `GFE_VPT_X`, `GFE_VPT_Y`, `GFE_GRID`, `GFE_CORR`, `GFE_WSTAT`, `GFE_WADDR`,
`GFE_MAP_ADDR`, `GFE_POSE_STAT`, `GFE_POSE_CLR`, `GFE_MAP_SEL`, `GFE_COMMIT`. -/
def tblGFE : List RegRow :=
  hdrRows .rw .w1s 0  ++ [
  ⟨8, 1, 1, 1, 1, [⟨20, 16, .rwl, 0⟩, ⟨7, 0, .rwl, 0⟩]⟩,
  ⟨9, 1, 1, 1, 1, [⟨31, 0, .rwl, 0⟩]⟩,
  ⟨10, 1, 1, 1, 1, [⟨31, 0, .rwl, 0⟩]⟩,
  ⟨11, 1, 1, 1, 1, [⟨15, 0, .rwl, 1000⟩]⟩,
  ⟨12, 1, 1, 1, 1, [⟨31, 24, .rwl, 64⟩, ⟨23, 16, .rwl, 24⟩, ⟨15, 11, .rwl, 16⟩, ⟨10, 0, .rwl, 512⟩]⟩,
  ⟨13, 1, 1, 1, 1, [⟨31, 31, .ro, 0⟩, ⟨30, 30, .ro, 0⟩, ⟨7, 4, .ro, 0⟩, ⟨3, 0, .ro, 0⟩]⟩,
  ⟨14, 1, 1, 1, 1, [⟨23, 0, .rwl, 0⟩]⟩,
  ⟨64, 16, 1, 1, 1, [⟨23, 0, .rwl, 0⟩]⟩,
  ⟨15, 1, 1, 1, 1, [⟨31, 31, .ro, 0⟩, ⟨30, 28, .ro, 0⟩, ⟨23, 16, .ro, 0⟩, ⟨15, 0, .ro, 0⟩]⟩,
  ⟨16, 1, 1, 1, 1, [⟨0, 0, .w1s, 0⟩]⟩,
  ⟨33, 1, 1, 1, 1, [⟨31, 31, .rws, 0⟩, ⟨3, 0, .rws, 0⟩]⟩,
  ⟨32, 1, 1, 1, 1, [⟨31, 16, .ro, 0⟩, ⟨7, 6, .ro, 1⟩, ⟨5, 0, .ro, 0⟩]⟩]

/-- Page ASM0: header words and `ASM_TBL_CHK`, `ASM_SIZE_A`, `ASM_SIZE_B`, `ASM_TPRED`, `ASM_TIME`, `ASM_EST_LOC`,
`ASM_FIX_LOC`, `ASM_PROB`, `ASM_LSQ`, `ASM_SCEN`, `ASM_MAN`, `ASM_STAT`, `ASM_SCEN_STAT`, `ASM_EST_LATE_CNT`,
`ASM_TBL_SEL`, `ASM_PAST_SEL`, `ASM_THR_AVAIL`, `ASM_BUS_AVAIL`, `ASM0_COMMIT`. -/
def tblASM0 : List RegRow :=
  hdrRows .rw .w1s 1  ++ [
  ⟨8, 1, 1, 1, 1, [⟨31, 31, .w1s, 0⟩, ⟨30, 30, .w1s, 0⟩, ⟨29, 29, .ro, 0⟩, ⟨28, 28, .ro, 0⟩, ⟨27, 23, .rw, 0⟩, ⟨22, 15, .ro, 0⟩, ⟨14, 11, .ro, 0⟩, ⟨5, 0, .rw, 0⟩]⟩,
  ⟨9, 1, 1, 1, 1, [⟨31, 26, .ro, 0⟩, ⟨25, 15, .ro, 0⟩, ⟨14, 8, .ro, 0⟩]⟩,
  ⟨10, 1, 1, 1, 1, [⟨31, 16, .ro, 0⟩, ⟨15, 0, .ro, 0⟩]⟩,
  ⟨11, 1, 1, 1, 1, [⟨19, 0, .ro, 0⟩]⟩,
  ⟨21, 1, 1, 1, 1, [⟨19, 0, .ro, 0⟩]⟩,
  ⟨12, 1, 1, 1, 1, [⟨31, 31, .rwl, 0⟩, ⟨29, 24, .rwl, 0⟩, ⟨11, 0, .rwl, 0⟩]⟩,
  ⟨13, 1, 1, 1, 1, [⟨31, 31, .rwl, 0⟩, ⟨29, 24, .rwl, 0⟩, ⟨11, 0, .rwl, 0⟩]⟩,
  ⟨14, 1, 1, 1, 1, [⟨29, 24, .rwl, 48⟩, ⟨3, 0, .rwl, 8⟩]⟩,
  ⟨15, 1, 1, 1, 1, [⟨31, 31, .rwl, 0⟩, ⟨23, 16, .rwl, 1⟩]⟩,
  ⟨16, 1, 1, 1, 1, [⟨6, 0, .rwl, 0⟩]⟩,
  ⟨17, 1, 1, 1, 1, [⟨21, 16, .rwl, 2⟩, ⟨13, 8, .rwl, 1⟩, ⟨5, 0, .rwl, 0⟩]⟩,
  ⟨18, 1, 1, 1, 1, [⟨31, 31, .ro, 0⟩, ⟨30, 30, .ro, 0⟩, ⟨29, 29, .ro, 0⟩, ⟨28, 28, .ro, 0⟩, ⟨23, 16, .ro, 255⟩, ⟨15, 8, .ro, 0⟩, ⟨7, 0, .ro, 0⟩]⟩,
  ⟨19, 1, 1, 1, 1, [⟨31, 31, .ro, 0⟩, ⟨24, 16, .ro, 0⟩, ⟨8, 0, .ro, 0⟩]⟩,
  ⟨20, 1, 1, 1, 1, [⟨31, 31, .w1c, 0⟩, ⟨30, 0, .rw, 0⟩]⟩,
  ⟨33, 1, 1, 1, 1, [⟨31, 31, .rws, 0⟩, ⟨5, 0, .rws, 0⟩]⟩,
  ⟨34, 1, 1, 1, 1, [⟨31, 31, .rws, 0⟩, ⟨3, 0, .rws, 0⟩]⟩,
  ⟨35, 1, 1, 1, 1, [⟨23, 0, .rws, 16777215⟩]⟩,
  ⟨36, 1, 1, 1, 1, [⟨7, 0, .rws, 255⟩]⟩,
  ⟨32, 1, 1, 1, 1, [⟨31, 16, .ro, 0⟩, ⟨7, 6, .ro, 1⟩, ⟨5, 0, .ro, 0⟩]⟩]

/-- Page ASM1: header words and `ASM_PURSE_DIS`, `ASM_PURSE_CHG`, `ASM_PURSE_GEN`, `ASM_PURSE_RES`, `ASM_PURSE_SEQ`,
`ASM_PURSE_AGE`, `ASM_PURSE_LIM`, `ASM1_COMMIT`. -/
def tblASM1 : List RegRow :=
  hdrRows .rw .w1s 1  ++ [
  ⟨64, 8, 8, 1, 1, [⟨31, 0, .rws, 0⟩]⟩,
  ⟨65, 8, 8, 1, 1, [⟨31, 0, .rws, 0⟩]⟩,
  ⟨66, 8, 8, 1, 1, [⟨31, 0, .rws, 0⟩]⟩,
  ⟨67, 8, 8, 1, 1, [⟨31, 0, .rws, 0⟩]⟩,
  ⟨68, 8, 8, 1, 1, [⟨31, 0, .rws, 0⟩]⟩,
  ⟨69, 8, 8, 1, 1, [⟨15, 0, .ro, 65535⟩]⟩,
  ⟨70, 8, 8, 1, 1, [⟨31, 0, .ro, 0⟩]⟩,
  ⟨32, 1, 1, 1, 1, [⟨31, 16, .ro, 0⟩, ⟨7, 6, .ro, 1⟩, ⟨5, 0, .ro, 0⟩]⟩]

/-- Page LSC0: header words and `LSC_RES`, `LSC_TSTAT`, `LSC_PLACE`, `LSC_DL_CNT`, `LSC_RHO_CUR`, `LSC_MEM_NEED`,
`LSC_VSUM`, `LSC_VAGE`, `LSC_BUDGET`, `LSC_RHO`, `LSC_NUM`, `LSC_EPS`, `LSC_EPS_INF`, `LSC_ACC_RP`, `LSC_ACC_RD`,
`LSC_POOL`, `LSC_LANE_OUT`, `LSC_LSQ`, `LSC_VSLACK_NE`, `LSC_VSLACK_H`, `LSC_VERDICT`, `LSC0_COMMIT`. -/
def tblLSC0 : List RegRow :=
  hdrRows .rw .w1s 1  ++ [
  ⟨8, 1, 1, 1, 1, [⟨29, 24, .rwl, 56⟩]⟩,
  ⟨9, 1, 1, 1, 1, [⟨31, 16, .ro, 0⟩, ⟨15, 0, .ro, 0⟩]⟩,
  ⟨10, 1, 1, 1, 1, [⟨31, 24, .ro, 0⟩, ⟨23, 16, .ro, 0⟩, ⟨15, 8, .ro, 0⟩, ⟨7, 0, .ro, 0⟩]⟩,
  ⟨11, 1, 1, 1, 1, [⟨31, 31, .w1c, 0⟩, ⟨30, 0, .rw, 0⟩]⟩,
  ⟨12, 1, 1, 1, 1, [⟨7, 0, .ro, 253⟩]⟩,
  ⟨13, 1, 1, 1, 1, [⟨19, 0, .ro, 0⟩]⟩,
  ⟨14, 1, 1, 1, 1, [⟨26, 18, .ro, 0⟩, ⟨17, 9, .ro, 0⟩, ⟨8, 0, .ro, 0⟩]⟩,
  ⟨15, 1, 1, 1, 1, [⟨15, 0, .ro, 65535⟩]⟩,
  ⟨33, 1, 1, 1, 1, [⟨25, 24, .rws, 3⟩, ⟨17, 17, .rws, 0⟩, ⟨16, 16, .rws, 0⟩, ⟨15, 8, .rws, 48⟩, ⟨7, 0, .rws, 48⟩]⟩,
  ⟨34, 1, 1, 1, 1, [⟨24, 24, .rws, 1⟩, ⟨23, 16, .rws, 6⟩, ⟨15, 8, .rws, 246⟩, ⟨7, 0, .rws, 253⟩]⟩,
  ⟨35, 1, 1, 1, 1, [⟨13, 8, .rws, 20⟩, ⟨5, 0, .rws, 20⟩]⟩,
  ⟨36, 1, 1, 1, 1, [⟨31, 0, .rws, 981467136⟩]⟩,
  ⟨37, 1, 1, 1, 1, [⟨31, 0, .rws, 981467136⟩]⟩,
  ⟨38, 1, 1, 1, 1, [⟨31, 0, .rws, 1015021568⟩]⟩,
  ⟨39, 1, 1, 1, 1, [⟨31, 0, .rws, 1015021568⟩]⟩,
  ⟨40, 1, 1, 1, 1, [⟨6, 0, .rws, 94⟩]⟩,
  ⟨41, 3, 1, 1, 1, [⟨31, 0, .rws, 0⟩]⟩,
  ⟨44, 1, 1, 1, 1, [⟨23, 16, .rws, 1⟩, ⟨15, 8, .rws, 1⟩, ⟨7, 0, .rws, 24⟩]⟩,
  ⟨45, 1, 1, 1, 1, [⟨31, 0, .rws, 1028443341⟩]⟩,
  ⟨46, 1, 1, 1, 1, [⟨31, 0, .rws, 981668463⟩]⟩,
  ⟨47, 1, 1, 1, 1, [⟨15, 8, .rws, 3⟩, ⟨7, 0, .rws, 3⟩]⟩,
  ⟨32, 1, 1, 1, 1, [⟨31, 16, .ro, 0⟩, ⟨7, 6, .ro, 1⟩, ⟨5, 0, .ro, 0⟩]⟩]

/-- Page LSC1: header words and `LSC_JOB_A`. -/
def tblLSC1 : List RegRow :=
  hdrRows .rw .w1s 1  ++ [
  ⟨64, 60, 16, 16, 1, [⟨31, 0, .ro, 0⟩]⟩]

/-- Page LSC2: header words and `LSC_JOB_B`. -/
def tblLSC2 : List RegRow :=
  hdrRows .rw .w1s 1  ++ [
  ⟨64, 38, 16, 16, 1, [⟨31, 0, .ro, 0⟩]⟩]

/-- Page LAN: header words and `LAN_STATUS`, `LAN_LAST`, `LAN_ECC`, `LAN_UE_RUN`, `LAN_JOBS`. -/
def tblLAN : List RegRow :=
  hdrRows .rw .w1s 1  ++ [
  ⟨8, 1, 1, 1, 1, [⟨31, 29, .ro, 0⟩, ⟨28, 28, .ro, 0⟩, ⟨27, 25, .ro, 7⟩, ⟨15, 0, .ro, 0⟩]⟩,
  ⟨9, 1, 1, 1, 1, [⟨31, 28, .ro, 15⟩, ⟨27, 24, .ro, 0⟩, ⟨15, 0, .ro, 0⟩]⟩,
  ⟨10, 1, 1, 1, 1, [⟨31, 31, .w1c, 0⟩, ⟨30, 16, .rw, 0⟩, ⟨15, 15, .w1c, 0⟩, ⟨14, 0, .rw, 0⟩]⟩,
  ⟨11, 1, 1, 1, 1, [⟨7, 0, .ro, 0⟩]⟩,
  ⟨12, 1, 1, 1, 1, [⟨31, 0, .ro, 0⟩]⟩]

/-- Page DMA: header words and `DMA_GLOBAL`, `DMA_ERR_ADDR_LO`, `DMA_ERR_ADDR_HI`, `DMA_SRC_LO`, `DMA_DST_LO`,
`DMA_NEXT_LO`, `DMA_SRC_HI`, `DMA_DST_HI`, `DMA_NEXT_HI`, `DMA_COUNT`, `DMA_CTRL`, `DMA_STAT`. -/
def tblDMA : List RegRow :=
  hdrRows .rw .w1s 1  ++ [
  ⟨8, 1, 1, 1, 1, [⟨31, 31, .rw, 0⟩, ⟨30, 30, .w1c, 0⟩]⟩,
  ⟨9, 1, 1, 1, 1, [⟨31, 0, .ro, 0⟩]⟩,
  ⟨10, 1, 1, 1, 1, [⟨10, 8, .ro, 0⟩, ⟨7, 0, .ro, 0⟩]⟩,
  ⟨64, 32, 16, 1, 1, [⟨31, 0, .rw, 0⟩]⟩,
  ⟨66, 32, 16, 1, 1, [⟨31, 0, .rw, 0⟩]⟩,
  ⟨69, 32, 16, 1, 1, [⟨31, 0, .rw, 0⟩]⟩,
  ⟨65, 32, 16, 1, 1, [⟨7, 0, .rw, 0⟩]⟩,
  ⟨67, 32, 16, 1, 1, [⟨7, 0, .rw, 0⟩]⟩,
  ⟨70, 32, 16, 1, 1, [⟨7, 0, .rw, 0⟩]⟩,
  ⟨68, 32, 16, 1, 1, [⟨23, 0, .rw, 0⟩]⟩,
  ⟨71, 32, 16, 1, 1, [⟨31, 31, .w1s, 0⟩, ⟨30, 30, .w1s, 0⟩, ⟨29, 29, .rw, 0⟩, ⟨28, 28, .rw, 0⟩, ⟨27, 27, .rw, 1⟩, ⟨26, 26, .rw, 1⟩, ⟨25, 25, .rw, 0⟩, ⟨20, 16, .rw, 0⟩]⟩,
  ⟨72, 32, 16, 1, 1, [⟨31, 31, .ro, 0⟩, ⟨30, 30, .w1c, 0⟩, ⟨29, 27, .ro, 0⟩, ⟨15, 0, .ro, 0⟩]⟩]

/-- Page MEM: header words and `MEM_CFG`, `MEM_PROMOTE`, `MEM_UE_LAST`, `MEM_FAIL_LO`, `MEM_FAIL_HI`, `MEM_DEED`,
`MEM_DEED_PASS`, `MEM_ECC`. -/
def tblMEM : List RegRow :=
  hdrRows .ro .ro 1  ++ [
  ⟨8, 1, 1, 1, 1, [⟨31, 31, .rwl, 1⟩, ⟨15, 0, .rwl, 10⟩]⟩,
  ⟨9, 1, 1, 1, 1, [⟨31, 31, .w1c, 0⟩, ⟨30, 0, .rw, 0⟩]⟩,
  ⟨10, 1, 1, 1, 1, [⟨31, 31, .w1c, 0⟩, ⟨30, 25, .ro, 0⟩, ⟨19, 5, .ro, 0⟩, ⟨4, 0, .ro, 0⟩]⟩,
  ⟨12, 1, 1, 1, 1, [⟨31, 0, .ro, 0⟩]⟩,
  ⟨13, 1, 1, 1, 1, [⟨31, 0, .ro, 0⟩]⟩,
  ⟨64, 64, 1, 1, 1, [⟨23, 8, .ro, 0⟩, ⟨4, 0, .ro, 0⟩]⟩,
  ⟨128, 64, 1, 1, 1, [⟨4, 0, .wo, 0⟩]⟩,
  ⟨192, 64, 1, 1, 1, [⟨31, 31, .w1c, 0⟩, ⟨30, 16, .rw, 0⟩, ⟨15, 15, .w1c, 0⟩, ⟨14, 0, .rw, 0⟩]⟩]

/-- Page MAR: header words and `MAR_CTRL`, `MAR_STAT`, `MAR_FAIL_ADDR`, `MAR_RUNS`, `MAR_LANE_FAIL`. -/
def tblMAR : List RegRow :=
  hdrRows .rw .w1s 1  ++ [
  ⟨8, 1, 1, 1, 1, [⟨31, 31, .w1s, 0⟩, ⟨30, 30, .rw, 0⟩, ⟨29, 28, .rw, 0⟩, ⟨6, 0, .rw, 0⟩]⟩,
  ⟨9, 1, 1, 1, 1, [⟨31, 31, .ro, 0⟩, ⟨30, 30, .w1c, 0⟩, ⟨29, 29, .w1c, 0⟩, ⟨28, 26, .ro, 0⟩, ⟨11, 0, .ro, 0⟩]⟩,
  ⟨10, 1, 1, 1, 1, [⟨31, 0, .ro, 0⟩]⟩,
  ⟨11, 1, 1, 1, 1, [⟨31, 0, .ro, 0⟩]⟩,
  ⟨12, 3, 1, 1, 1, [⟨31, 0, .ro, 0⟩]⟩]

/-- Page DRC: header words and `DRC_STAT`, `DRC_SCRUB`, `DRC_ECC`, `DRC_UE_ADDR_LO`, `DRC_UE_ADDR_HI`. -/
def tblDRC : List RegRow :=
  hdrRows .ro .ro 1  ++ [
  ⟨8, 1, 1, 1, 1, [⟨31, 31, .ro, 0⟩, ⟨30, 30, .ro, 0⟩, ⟨29, 27, .ro, 0⟩]⟩,
  ⟨9, 1, 1, 1, 1, [⟨31, 31, .rwl, 1⟩, ⟨15, 0, .rwl, 24⟩]⟩,
  ⟨10, 1, 1, 1, 1, [⟨31, 31, .w1c, 0⟩, ⟨30, 16, .rw, 0⟩, ⟨15, 15, .w1c, 0⟩, ⟨14, 0, .rw, 0⟩]⟩,
  ⟨11, 1, 1, 1, 1, [⟨31, 0, .ro, 0⟩]⟩,
  ⟨12, 1, 1, 1, 1, [⟨31, 31, .w1c, 0⟩, ⟨7, 0, .ro, 0⟩]⟩]

/-- Page NFC: header words and `NFC_CFG`, `NFC_MEDIUM`, `NFC_SCRUB`, `NFC_READ_LIMIT`, `NFC_STAT`, `NFC_BLOCKS_A`,
`NFC_BLOCKS_B`, `NFC_WEAR`, `NFC_CNT`, `NFC_FLAGS`, `NFC_REQ_CTRL`, `NFC_REQ_DRAM`, `NFC_REQ_LEN`, `NFC_REQ_RES`,
`NFC_BOOT_SEL`, `NFC_FORMAT`, `NFC_PART`. -/
def tblNFC : List RegRow :=
  hdrRows .rw .w1s 1  ++ [
  ⟨8, 1, 1, 1, 1, [⟨31, 31, .rwl, 1⟩, ⟨2, 0, .rwl, 6⟩]⟩,
  ⟨9, 1, 1, 1, 1, [⟨31, 16, .rwl, 30⟩, ⟨15, 0, .rwl, 500⟩]⟩,
  ⟨10, 1, 1, 1, 1, [⟨31, 24, .rwl, 48⟩, ⟨23, 16, .rwl, 7⟩, ⟨15, 0, .rwl, 90⟩]⟩,
  ⟨11, 1, 1, 1, 1, [⟨31, 0, .rwl, 100000⟩]⟩,
  ⟨12, 1, 1, 1, 1, [⟨31, 29, .ro, 1⟩, ⟨28, 28, .ro, 0⟩, ⟨27, 27, .ro, 0⟩, ⟨26, 26, .ro, 0⟩, ⟨15, 0, .ro, 0⟩]⟩,
  ⟨13, 1, 1, 1, 1, [⟨31, 16, .ro, 0⟩, ⟨15, 0, .ro, 0⟩]⟩,
  ⟨14, 1, 1, 1, 1, [⟨31, 16, .ro, 0⟩, ⟨15, 0, .ro, 0⟩]⟩,
  ⟨15, 1, 1, 1, 1, [⟨31, 16, .ro, 0⟩, ⟨15, 0, .ro, 0⟩]⟩,
  ⟨16, 1, 1, 1, 1, [⟨31, 16, .rw, 0⟩, ⟨15, 0, .rw, 0⟩]⟩,
  ⟨17, 1, 1, 1, 1, [⟨1, 1, .w1c, 0⟩, ⟨0, 0, .w1c, 0⟩]⟩,
  ⟨20, 1, 1, 1, 1, [⟨31, 31, .w1s, 0⟩, ⟨30, 28, .rw, 0⟩, ⟨26, 24, .rw, 0⟩, ⟨20, 16, .rw, 0⟩]⟩,
  ⟨21, 1, 1, 1, 1, [⟨23, 0, .rw, 0⟩]⟩,
  ⟨22, 1, 1, 1, 1, [⟨31, 0, .rw, 0⟩]⟩,
  ⟨23, 1, 1, 1, 1, [⟨31, 31, .ro, 0⟩, ⟨30, 30, .w1c, 0⟩, ⟨3, 0, .ro, 0⟩]⟩,
  ⟨24, 1, 1, 1, 1, [⟨31, 16, .wo, 0⟩, ⟨0, 0, .wo, 0⟩]⟩,
  ⟨25, 1, 1, 1, 1, [⟨15, 0, .wo, 0⟩]⟩,
  ⟨64, 6, 1, 1, 1, [⟨31, 24, .ro, 0⟩, ⟨15, 0, .ro, 0⟩]⟩]

/-- Page LGR: header words and `LGR_CFG`, `LGR_VAULT_CFG`, `LGR_SEQ_LO`, `LGR_SEQ_HI`, `LGR_OLD_LO`, `LGR_OLD_HI`,
`LGR_RING_OLD_LO`, `LGR_RING_OLD_HI`, `LGR_VAULT_FIRST_LO`, `LGR_VAULT_FIRST_HI`, `LGR_VAULT_LAST_LO`,
`LGR_VAULT_LAST_HI`, `LGR_VAULT_STAT`, `LGR_CTRL`, `LGR_CNT_A`, `LGR_CNT_B`, `LGR_FLAGS`, `LGR_STAGE`, `LGR_NONCE_LO`,
`LGR_NONCE_HI`, `LGR_REL_CTRL`, `LGR_TRIG`, `LGR_TOKEN`, `LGR_SW`, `LGR_SW_COMMIT`, `LGR_SW_STAT`, `LGR_XTR_CTRL`,
`LGR_XTR_FIRST_LO`, `LGR_XTR_FIRST_HI`, `LGR_XTR_DRAM`, `LGR_XTR_RES_LO`, `LGR_XTR_RES_HI`, `LGR_XTR_RES_CNT`. -/
def tblLGR : List RegRow :=
  (hdrRows .ro .ro 1)  ++ [
  ⟨8, 1, 1, 1, 1, [⟨31, 31, .rwl, 0⟩, ⟨29, 24, .rwl, 44⟩, ⟨23, 12, .rwl, 500⟩, ⟨7, 0, .rwl, 1⟩]⟩,
  ⟨9, 1, 1, 1, 1, [⟨31, 31, .rwl, 0⟩, ⟨26, 16, .rwl, 1024⟩, ⟨11, 0, .rwl, 2048⟩]⟩,
  ⟨10, 1, 1, 1, 1, [⟨31, 0, .ro, 0⟩]⟩,
  ⟨11, 1, 1, 1, 1, [⟨31, 0, .ro, 0⟩]⟩,
  ⟨12, 1, 1, 1, 1, [⟨31, 0, .ro, 0⟩]⟩,
  ⟨13, 1, 1, 1, 1, [⟨31, 0, .ro, 0⟩]⟩,
  ⟨14, 1, 1, 1, 1, [⟨31, 0, .ro, 0⟩]⟩,
  ⟨15, 1, 1, 1, 1, [⟨31, 0, .ro, 0⟩]⟩,
  ⟨16, 1, 1, 1, 1, [⟨31, 0, .ro, 0⟩]⟩,
  ⟨17, 1, 1, 1, 1, [⟨31, 0, .ro, 0⟩]⟩,
  ⟨18, 1, 1, 1, 1, [⟨31, 0, .ro, 0⟩]⟩,
  ⟨19, 1, 1, 1, 1, [⟨31, 0, .ro, 0⟩]⟩,
  ⟨20, 1, 1, 1, 1, [⟨31, 30, .ro, 0⟩, ⟨12, 0, .ro, 0⟩]⟩,
  ⟨21, 1, 1, 1, 1, [⟨31, 31, .w1s, 0⟩, ⟨30, 30, .w1s, 0⟩, ⟨29, 29, .w1s, 0⟩, ⟨28, 28, .w1s, 0⟩, ⟨2, 2, .ro, 1⟩, ⟨1, 1, .rw, 0⟩]⟩,
  ⟨22, 1, 1, 1, 1, [⟨31, 16, .rw, 0⟩, ⟨15, 0, .rw, 0⟩]⟩,
  ⟨23, 1, 1, 1, 1, [⟨31, 16, .rw, 0⟩, ⟨15, 0, .rw, 0⟩]⟩,
  ⟨24, 1, 1, 1, 1, [⟨3, 3, .w1c, 0⟩, ⟨2, 2, .w1c, 0⟩, ⟨1, 1, .w1c, 0⟩, ⟨0, 0, .w1c, 0⟩]⟩,
  ⟨25, 1, 1, 1, 1, [⟨31, 31, .ro, 0⟩, ⟨14, 0, .ro, 0⟩]⟩,
  ⟨26, 1, 1, 1, 1, [⟨31, 0, .ro, 0⟩]⟩,
  ⟨27, 1, 1, 1, 1, [⟨31, 0, .ro, 0⟩]⟩,
  ⟨28, 1, 1, 1, 1, [⟨31, 31, .w1s, 0⟩, ⟨2, 0, .ro, 0⟩]⟩,
  ⟨64, 16, 1, 1, 1, [⟨31, 0, .rwl, 0⟩]⟩,
  ⟨80, 24, 1, 1, 1, [⟨31, 0, .wo, 0⟩]⟩,
  ⟨128, 4, 16, 10, 1, [⟨31, 0, .rw, 0⟩]⟩] ++ [
  ⟨138, 4, 16, 1, 1, [⟨31, 0, .wo, 0⟩]⟩,
  ⟨139, 4, 16, 1, 1, [⟨31, 30, .ro, 0⟩, ⟨29, 0, .ro, 0⟩]⟩,
  ⟨192, 1, 1, 1, 1, [⟨31, 31, .w1s, 0⟩, ⟨30, 30, .rw, 0⟩, ⟨29, 29, .ro, 0⟩, ⟨28, 28, .w1c, 0⟩, ⟨27, 27, .w1c, 0⟩, ⟨16, 0, .rw, 0⟩]⟩,
  ⟨193, 1, 1, 1, 1, [⟨31, 0, .rw, 0⟩]⟩,
  ⟨194, 1, 1, 1, 1, [⟨31, 0, .rw, 0⟩]⟩,
  ⟨195, 1, 1, 1, 1, [⟨23, 0, .rw, 0⟩]⟩,
  ⟨196, 1, 1, 1, 1, [⟨31, 0, .ro, 0⟩]⟩,
  ⟨197, 1, 1, 1, 1, [⟨31, 0, .ro, 0⟩]⟩,
  ⟨198, 1, 1, 1, 1, [⟨16, 0, .ro, 0⟩]⟩]

/-- Page PAR: header words and `PAR_CFG`, `PAR_CFG2`, `PAR_SBX`, `PAR_WATCH`, `PAR_STAT`, `PAR_TALLY`, `PAR_SEEN`,
`PAR_TALLY_WARN`, `PAR_REQ`, `PAR_EPOCH`, `PAR_DET`, `PAR_CNT_A`, `PAR_CNT_B`, `PAR_FLAGS`, `PAR_SBX_SEQ`,
`PAR_LAST_TO`, `PAR_FLASH`, `PAR_FLASH_DRAM`, `PAR_TRACK`. -/
def tblPAR : List RegRow :=
  hdrRows .ro .ro 1  ++ [
  ⟨8, 1, 1, 1, 1, [⟨31, 31, .rwl, 1⟩, ⟨30, 30, .rwl, 1⟩, ⟨29, 28, .rwl, 2⟩, ⟨27, 27, .ro, 0⟩, ⟨23, 16, .rwl, 220⟩, ⟨15, 8, .rwl, 10⟩, ⟨7, 0, .rwl, 10⟩]⟩,
  ⟨9, 1, 1, 1, 1, [⟨31, 26, .rwl, 10⟩, ⟨25, 16, .rwl, 100⟩, ⟨15, 8, .rwl, 10⟩]⟩,
  ⟨10, 1, 1, 1, 1, [⟨29, 24, .rwl, 40⟩, ⟨21, 16, .rwl, 41⟩]⟩,
  ⟨11, 1, 1, 1, 1, [⟨23, 0, .rwl, 16777215⟩]⟩,
  ⟨12, 1, 1, 1, 1, [⟨31, 30, .ro, 0⟩, ⟨29, 28, .ro, 0⟩, ⟨27, 27, .ro, 0⟩, ⟨26, 26, .ro, 0⟩, ⟨25, 24, .ro, 0⟩, ⟨23, 23, .ro, 0⟩, ⟨22, 22, .ro, 0⟩, ⟨21, 21, .ro, 0⟩, ⟨20, 20, .ro, 0⟩, ⟨19, 19, .ro, 0⟩, ⟨18, 18, .ro, 0⟩, ⟨17, 17, .ro, 0⟩, ⟨16, 16, .ro, 0⟩, ⟨15, 0, .ro, 65535⟩]⟩,
  ⟨13, 1, 1, 1, 1, [⟨31, 0, .ro, 0⟩]⟩,
  ⟨14, 1, 1, 1, 1, [⟨31, 0, .ro, 0⟩]⟩,
  ⟨15, 1, 1, 1, 1, [⟨31, 0, .rwl, 4026531840⟩]⟩,
  ⟨16, 1, 1, 1, 1, [⟨31, 31, .w1s, 0⟩, ⟨30, 30, .w1s, 0⟩, ⟨29, 29, .w1s, 0⟩, ⟨28, 28, .w1s, 0⟩, ⟨27, 27, .w1s, 0⟩]⟩,
  ⟨17, 1, 1, 1, 1, [⟨15, 0, .wo, 0⟩]⟩,
  ⟨18, 1, 1, 1, 1, [⟨7, 0, .ro, 0⟩]⟩,
  ⟨19, 1, 1, 1, 1, [⟨31, 16, .rw, 0⟩, ⟨15, 0, .rw, 0⟩]⟩,
  ⟨20, 1, 1, 1, 1, [⟨31, 16, .rw, 0⟩, ⟨15, 0, .rw, 0⟩]⟩,
  ⟨21, 1, 1, 1, 1, [⟨12, 8, .ro, 0⟩, ⟨4, 4, .w1c, 0⟩, ⟨3, 3, .w1c, 0⟩, ⟨2, 2, .w1c, 0⟩, ⟨1, 1, .w1c, 0⟩, ⟨0, 0, .w1c, 0⟩]⟩,
  ⟨22, 1, 1, 1, 1, [⟨31, 0, .ro, 0⟩]⟩,
  ⟨23, 1, 1, 1, 1, [⟨31, 16, .ro, 0⟩, ⟨13, 8, .ro, 0⟩, ⟨3, 0, .ro, 0⟩]⟩,
  ⟨24, 1, 1, 1, 1, [⟨31, 16, .ro, 65535⟩, ⟨15, 0, .ro, 0⟩]⟩,
  ⟨25, 1, 1, 1, 1, [⟨23, 0, .rwl, 0⟩]⟩,
  ⟨64, 7, 1, 1, 1, [⟨31, 31, .rwl, 0⟩, ⟨30, 30, .rwl, 0⟩, ⟨12, 8, .rwl, 0⟩, ⟨5, 0, .rwl, 0⟩]⟩]

/-- Page CMD: header words and `CMD_FRM_STAT_LO`, `CMD_FRM_STAT_HI`, `CMD_FRM_NUM_LO`, `CMD_FRM_NUM_HI`,
`CMD_DIGEST_LO`, `CMD_DIGEST_HI`, `CMD_TD_CNT`, `CMD_LIVE_BANKS_LO`, `CMD_LIVE_BANKS_HI`, `CMD_RPL_CTRL`,
`CMD_RPL_DEST`, `CMD_RPL_MAC_LO`, `CMD_RPL_MAC_HI`, `CMD_RPL_STAT`, `CMD_RPL_SRC`, `CMD_SEL`, `CMD_NOCOMMIT_CNT`,
`CMD_SETPT`. -/
def tblCMD : List RegRow :=
  hdrRows .rw .w1s 1  ++ [
  ⟨256, 1, 1, 1, 1, [⟨31, 0, .ro, 0⟩]⟩,
  ⟨257, 1, 1, 1, 1, [⟨31, 0, .ro, 0⟩]⟩,
  ⟨258, 1, 1, 1, 1, [⟨31, 0, .ro, 0⟩]⟩,
  ⟨259, 1, 1, 1, 1, [⟨31, 0, .ro, 0⟩]⟩,
  ⟨260, 1, 1, 1, 1, [⟨31, 0, .ro, 0⟩]⟩,
  ⟨261, 1, 1, 1, 1, [⟨31, 0, .ro, 0⟩]⟩,
  ⟨262, 1, 1, 1, 1, [⟨31, 31, .w1c, 0⟩, ⟨30, 0, .rw, 0⟩]⟩,
  ⟨264, 1, 1, 1, 1, [⟨31, 0, .rwl, 0⟩]⟩,
  ⟨265, 1, 1, 1, 1, [⟨31, 0, .rwl, 0⟩]⟩,
  ⟨268, 1, 1, 1, 1, [⟨31, 30, .rwl, 0⟩, ⟨29, 28, .rwl, 0⟩, ⟨27, 27, .w1s, 0⟩, ⟨15, 0, .rwl, 0⟩]⟩,
  ⟨269, 1, 1, 1, 1, [⟨31, 0, .rwl, 0⟩]⟩,
  ⟨270, 1, 1, 1, 1, [⟨31, 0, .rwl, 0⟩]⟩,
  ⟨271, 1, 1, 1, 1, [⟨31, 0, .rwl, 0⟩]⟩,
  ⟨272, 1, 1, 1, 1, [⟨31, 16, .rw, 0⟩, ⟨15, 15, .w1c, 0⟩, ⟨11, 8, .ro, 0⟩, ⟨1, 1, .ro, 0⟩, ⟨0, 0, .w1c, 0⟩]⟩,
  ⟨273, 1, 1, 1, 1, [⟨31, 0, .rwl, 0⟩]⟩,
  ⟨8, 1, 1, 1, 1, [⟨9, 9, .ro, 0⟩, ⟨8, 8, .ro, 0⟩, ⟨6, 4, .ro, 0⟩, ⟨0, 0, .ro, 0⟩]⟩,
  ⟨9, 1, 1, 1, 1, [⟨31, 31, .w1c, 0⟩, ⟨30, 0, .rw, 0⟩]⟩,
  ⟨64, 24, 1, 1, 1, [⟨31, 16, .ro, 0⟩, ⟨15, 0, .ro, 0⟩]⟩]

/-- Page FIO: header words and `FIO_STATUS`, `FIO_CFG`, `FIO_WD_CLR`, `FIO_SNAP_CFG`, `FIO_DI_STATE`, `FIO_DO_CMD`,
`FIO_COMMIT`, `FIO_OUT`, `FIO_DI_CFG`, `FIO_DI_CNT`, `FIO_DI_FREQ`, `FIO_DO_CFG`. -/
def tblFIO : List RegRow :=
  ((hdrRows .rw .w1s 1).take 2 ++ (hdrRows .ro .ro 1).drop 3)  ++ [
  ⟨3, 1, 1, 1, 1, [⟨31, 31, .ro, 0⟩, ⟨30, 30, .ro, 0⟩, ⟨29, 29, .ro, 0⟩, ⟨1, 1, .ro, 1⟩, ⟨0, 0, .ro, 0⟩]⟩,
  ⟨8, 1, 1, 1, 1, [⟨31, 31, .rw, 0⟩, ⟨11, 8, .rwl, 4⟩, ⟨7, 0, .rwl, 20⟩]⟩,
  ⟨9, 1, 1, 1, 1, [⟨0, 0, .w1s, 0⟩]⟩,
  ⟨10, 1, 1, 1, 1, [⟨31, 31, .rwl, 0⟩, ⟨11, 0, .rwl, 0⟩]⟩,
  ⟨11, 1, 1, 1, 1, [⟨15, 0, .ro, 0⟩]⟩,
  ⟨12, 1, 1, 1, 1, [⟨15, 0, .ro, 0⟩]⟩,
  ⟨32, 1, 1, 1, 1, [⟨31, 16, .ro, 0⟩]⟩,
  ⟨33, 1, 1, 1, 1, [⟨15, 0, .rws, 0⟩]⟩,
  ⟨64, 16, 4, 1, 1, [⟨31, 31, .rwl, 0⟩, ⟨30, 30, .rwl, 0⟩, ⟨29, 24, .rwl, 4⟩, ⟨18, 16, .rwl, 3⟩, ⟨15, 0, .rwl, 20000⟩]⟩,
  ⟨65, 8, 4, 1, 1, [⟨31, 0, .ro, 0⟩]⟩,
  ⟨66, 8, 4, 1, 1, [⟨31, 0, .ro, 0⟩]⟩,
  ⟨128, 16, 1, 1, 1, [⟨31, 31, .rw, 0⟩, ⟨30, 30, .rwl, 0⟩, ⟨29, 29, .rwl, 0⟩]⟩]

/-- Page SAF: header words and `SAF_CFG`, `SAF_TP`, `SAF_TIMING`, `SAF_DISC`, `SAF_STATE`, `SAF_DIAG`, `SAF_REQ`,
`SAF_RELEASE`, `SAF_DEMAND_CNT`, `SAF_CRC_PASS`, `SAF_AXIS_FLAGS`, `SAF_DI_CFG`, `SAF_AXIS_CFG`, `SAF_AXIS_ENV`,
`SAF_AXIS_LIM`, `SAF_AXIS_STAT`. -/
def tblSAF : List RegRow :=
  hdrRows .ro .ro 1  ++ [
  ⟨8, 1, 1, 1, 1, [⟨31, 31, .rwl, 0⟩, ⟨30, 30, .rwl, 1⟩, ⟨29, 29, .rwl, 1⟩, ⟨27, 24, .rwl, 0⟩]⟩,
  ⟨9, 1, 1, 1, 1, [⟨31, 16, .rwl, 100⟩, ⟨15, 0, .rwl, 200⟩]⟩,
  ⟨10, 1, 1, 1, 1, [⟨31, 16, .rwl, 10000⟩, ⟨7, 0, .rwl, 8⟩]⟩,
  ⟨11, 1, 1, 1, 1, [⟨7, 0, .rwl, 50⟩]⟩,
  ⟨12, 1, 1, 1, 1, [⟨31, 29, .ro, 0⟩, ⟨28, 28, .ro, 0⟩, ⟨27, 24, .ro, 0⟩, ⟨23, 20, .ro, 0⟩, ⟨19, 16, .ro, 0⟩, ⟨15, 12, .ro, 0⟩, ⟨11, 8, .ro, 0⟩, ⟨7, 0, .ro, 0⟩]⟩,
  ⟨13, 1, 1, 1, 1, [⟨19, 16, .ro, 0⟩, ⟨11, 8, .ro, 0⟩, ⟨6, 6, .w1c, 0⟩, ⟨5, 5, .w1c, 0⟩, ⟨4, 4, .w1c, 0⟩, ⟨3, 3, .w1c, 0⟩, ⟨2, 2, .w1c, 0⟩, ⟨1, 1, .w1c, 0⟩, ⟨0, 0, .w1c, 0⟩]⟩,
  ⟨14, 1, 1, 1, 1, [⟨0, 0, .w1s, 0⟩]⟩,
  ⟨15, 1, 1, 1, 1, [⟨15, 0, .wo, 0⟩]⟩,
  ⟨16, 1, 1, 1, 1, [⟨31, 31, .w1c, 0⟩, ⟨30, 0, .rw, 0⟩]⟩,
  ⟨17, 1, 1, 1, 1, [⟨31, 0, .ro, 0⟩]⟩,
  ⟨18, 1, 1, 1, 1, [⟨15, 8, .ro, 0⟩, ⟨7, 0, .ro, 0⟩]⟩,
  ⟨20, 2, 1, 1, 1, [⟨31, 31, .rwl, 0⟩, ⟨30, 30, .rwl, 1⟩, ⟨29, 28, .rwl, 1⟩, ⟨27, 26, .rwl, 0⟩, ⟨25, 25, .rwl, 0⟩]⟩,
  ⟨22, 2, 1, 1, 1, [⟨31, 31, .rwl, 0⟩, ⟨30, 30, .rwl, 1⟩, ⟨29, 28, .rwl, 1⟩, ⟨27, 26, .rwl, 1⟩, ⟨25, 25, .rwl, 0⟩]⟩,
  ⟨64, 8, 4, 1, 1, [⟨31, 31, .rwl, 0⟩, ⟨30, 30, .rwl, 0⟩, ⟨26, 24, .rwl, 0⟩, ⟨21, 20, .rwl, 0⟩, ⟨12, 8, .rwl, 0⟩]⟩,
  ⟨65, 8, 4, 1, 1, [⟨31, 16, .rwl, 0⟩, ⟨15, 0, .rwl, 500⟩]⟩,
  ⟨66, 8, 4, 1, 1, [⟨31, 16, .rwl, 100⟩, ⟨15, 0, .rwl, 10000⟩]⟩,
  ⟨67, 8, 4, 1, 1, [⟨31, 16, .ro, 0⟩, ⟨15, 0, .ro, 0⟩]⟩]

/-- The register table of page `p` (R494); none for the reserved pages. -/
def pageTable (p : Nat) : Option (List RegRow) :=
  if p < 1 then some tblSYS
  else if p < 2 then some tblPWR
  else if p < 3 then some tblEVT
  else if p < 4 then some tblFWL
  else if p < 5 then some tblLCS
  else if p < 6 then some tblTMX
  else if p < 7 then some tblTIM
  else if p < 11 then some tblETH
  else if p < 19 then some tblCAN
  else if p < 20 then some tblCAN8
  else if p < 28 then some tblUAT
  else if p < 29 then some tblCLE0
  else if p < 31 then some tblCLE12
  else if p < 32 then some tblCLE3
  else if p < 33 then some tblFLT
  else if p < 34 then some tblGNS0
  else if p < 35 then some tblGNS1
  else if p < 36 then some tblGNS2
  else if p < 37 then some tblGNS3
  else if p < 38 then some tblFUS0
  else if p < 39 then some tblFUS1
  else if p < 40 then some tblFUS2
  else if p < 41 then some tblFUS3
  else if p < 42 then some tblGFE
  else if p < 43 then some tblASM0
  else if p < 44 then some tblASM1
  else if p < 45 then some tblLSC0
  else if p < 46 then some tblLSC1
  else if p < 47 then some tblLSC2
  else if p < 143 then some tblLAN
  else if p < 144 then some tblDMA
  else if p < 145 then some tblMEM
  else if p < 146 then some tblMAR
  else if p < 147 then some tblDRC
  else if p < 148 then some tblNFC
  else if p < 149 then some tblLGR
  else if p < 150 then some tblPAR
  else if p < 151 then some tblCMD
  else if p < 152 then some tblFIO
  else if p < 153 then some tblSAF
  else none

end Sys2Proof.Machine
end

