-- ==== Sys2Proof/Machine/RegNames.lean ====
section
/-! DEFINITION. A name for every register (`Adr.X`, a word address: page × 1,024 + byte offset / 4) and every field
(`Fld.X_FIELD`, an `RF`) of the register tables of spec/, under the names the spec gives them. Arguments: the instance of a
block with several pages (`c` CAN controller, `e` Ethernet port, `u` UART, `l` lane) first, then the array indices. -/

namespace Sys2Proof.Machine

/-- `EVT_PEND`, R28 of 01_architecture. -/
abbrev Adr.EVT_PEND (i : Nat) : Nat := 2064 + i
abbrev Fld.EVT_PEND_RAW (i : Nat) : RF := ⟨Adr.EVT_PEND i, 31, 0⟩
/-- `EVT_ROUTE`, R28 of 01_architecture. -/
abbrev Adr.EVT_ROUTE (i : Nat) : Nat := 2112 + i
abbrev Fld.EVT_ROUTE_LGR (i : Nat) : RF := ⟨Adr.EVT_ROUTE i, 24, 24⟩
abbrev Fld.EVT_ROUTE_PRIO (i : Nat) : RF := ⟨Adr.EVT_ROUTE i, 18, 16⟩
abbrev Fld.EVT_ROUTE_SHP (i : Nat) : RF := ⟨Adr.EVT_ROUTE i, 8, 8⟩
abbrev Fld.EVT_ROUTE_CORE (i : Nat) : RF := ⟨Adr.EVT_ROUTE i, 3, 0⟩
/-- `EVT_CLAIM`, R28 of 01_architecture. -/
abbrev Adr.EVT_CLAIM (i : Nat) : Nat := 2624 + i * 2
abbrev Fld.EVT_CLAIM_VALID (i : Nat) : RF := ⟨Adr.EVT_CLAIM i, 31, 31⟩
abbrev Fld.EVT_CLAIM_SRC (i : Nat) : RF := ⟨Adr.EVT_CLAIM i, 8, 0⟩
/-- `EVT_DONE`, R28 of 01_architecture. -/
abbrev Adr.EVT_DONE (i : Nat) : Nat := 2625 + i * 2
abbrev Fld.EVT_DONE_SRC (i : Nat) : RF := ⟨Adr.EVT_DONE i, 8, 0⟩
/-- `EVT_THRESH`, R28 of 01_architecture. -/
abbrev Adr.EVT_THRESH (i : Nat) : Nat := 2640 + i
abbrev Fld.EVT_THRESH_LEVEL (i : Nat) : RF := ⟨Adr.EVT_THRESH i, 2, 0⟩
/-- `TIM_BEAT_CTRL`, R61 of 02_frame_timing. -/
abbrev Adr.TIM_BEAT_CTRL : Nat := 6272
abbrev Fld.TIM_BEAT_CTRL_START_TMO : RF := ⟨Adr.TIM_BEAT_CTRL, 15, 8⟩
abbrev Fld.TIM_BEAT_CTRL_ALLOW_FREE : RF := ⟨Adr.TIM_BEAT_CTRL, 0, 0⟩
/-- `TIM_BEAT_STAT`, R61 of 02_frame_timing. -/
abbrev Adr.TIM_BEAT_STAT : Nat := 6273
abbrev Fld.TIM_BEAT_STAT_RUN : RF := ⟨Adr.TIM_BEAT_STAT, 31, 31⟩
abbrev Fld.TIM_BEAT_STAT_FREE_RUN : RF := ⟨Adr.TIM_BEAT_STAT, 30, 30⟩
abbrev Fld.TIM_BEAT_STAT_REALIGN : RF := ⟨Adr.TIM_BEAT_STAT, 29, 29⟩
abbrev Fld.TIM_BEAT_STAT_BEAT : RF := ⟨Adr.TIM_BEAT_STAT, 5, 0⟩
/-- `TIM_FRAME_LO`, R61 of 02_frame_timing. -/
abbrev Adr.TIM_FRAME_LO : Nat := 6274
abbrev Fld.TIM_FRAME_LO_FRAME : RF := ⟨Adr.TIM_FRAME_LO, 31, 0⟩
/-- `TIM_FRAME_HI`, R61 of 02_frame_timing. -/
abbrev Adr.TIM_FRAME_HI : Nat := 6275
abbrev Fld.TIM_FRAME_HI_FRAME : RF := ⟨Adr.TIM_FRAME_HI, 31, 0⟩
/-- `TIM_OVR_CNT`, R61 of 02_frame_timing. -/
abbrev Adr.TIM_OVR_CNT : Nat := 6276
abbrev Fld.TIM_OVR_CNT_SAT : RF := ⟨Adr.TIM_OVR_CNT, 31, 31⟩
abbrev Fld.TIM_OVR_CNT_COUNT : RF := ⟨Adr.TIM_OVR_CNT, 30, 0⟩
/-- `TIM_OVR_RUN`, R61 of 02_frame_timing. -/
abbrev Adr.TIM_OVR_RUN : Nat := 6277
abbrev Fld.TIM_OVR_RUN_PERSIST : RF := ⟨Adr.TIM_OVR_RUN, 15, 8⟩
abbrev Fld.TIM_OVR_RUN_RUN : RF := ⟨Adr.TIM_OVR_RUN, 7, 0⟩
/-- `TIM_SLIP_CNT`, R61 of 02_frame_timing. -/
abbrev Adr.TIM_SLIP_CNT : Nat := 6278
abbrev Fld.TIM_SLIP_CNT_SAT : RF := ⟨Adr.TIM_SLIP_CNT, 15, 15⟩
abbrev Fld.TIM_SLIP_CNT_COUNT : RF := ⟨Adr.TIM_SLIP_CNT, 14, 0⟩
/-- `CMD_FRM_STAT_LO`, R61 of 02_frame_timing. -/
abbrev Adr.CMD_FRM_STAT_LO : Nat := 153856
abbrev Fld.CMD_FRM_STAT_LO_STAT : RF := ⟨Adr.CMD_FRM_STAT_LO, 31, 0⟩
/-- `CMD_FRM_STAT_HI`, R61 of 02_frame_timing. -/
abbrev Adr.CMD_FRM_STAT_HI : Nat := 153857
abbrev Fld.CMD_FRM_STAT_HI_STAT : RF := ⟨Adr.CMD_FRM_STAT_HI, 31, 0⟩
/-- `CMD_FRM_NUM_LO`, R61 of 02_frame_timing. -/
abbrev Adr.CMD_FRM_NUM_LO : Nat := 153858
abbrev Fld.CMD_FRM_NUM_LO_FRAME : RF := ⟨Adr.CMD_FRM_NUM_LO, 31, 0⟩
/-- `CMD_FRM_NUM_HI`, R61 of 02_frame_timing. -/
abbrev Adr.CMD_FRM_NUM_HI : Nat := 153859
abbrev Fld.CMD_FRM_NUM_HI_FRAME : RF := ⟨Adr.CMD_FRM_NUM_HI, 31, 0⟩
/-- `CMD_DIGEST_LO`, R61 of 02_frame_timing. -/
abbrev Adr.CMD_DIGEST_LO : Nat := 153860
abbrev Fld.CMD_DIGEST_LO_DIGEST : RF := ⟨Adr.CMD_DIGEST_LO, 31, 0⟩
/-- `CMD_DIGEST_HI`, R61 of 02_frame_timing. -/
abbrev Adr.CMD_DIGEST_HI : Nat := 153861
abbrev Fld.CMD_DIGEST_HI_DIGEST : RF := ⟨Adr.CMD_DIGEST_HI, 31, 0⟩
/-- `CMD_TD_CNT`, R61 of 02_frame_timing. -/
abbrev Adr.CMD_TD_CNT : Nat := 153862
abbrev Fld.CMD_TD_CNT_SAT : RF := ⟨Adr.CMD_TD_CNT, 31, 31⟩
abbrev Fld.CMD_TD_CNT_COUNT : RF := ⟨Adr.CMD_TD_CNT, 30, 0⟩
/-- `CMD_LIVE_BANKS_LO`, R61 of 02_frame_timing. -/
abbrev Adr.CMD_LIVE_BANKS_LO : Nat := 153864
abbrev Fld.CMD_LIVE_BANKS_LO_BANKS : RF := ⟨Adr.CMD_LIVE_BANKS_LO, 31, 0⟩
/-- `CMD_LIVE_BANKS_HI`, R61 of 02_frame_timing. -/
abbrev Adr.CMD_LIVE_BANKS_HI : Nat := 153865
abbrev Fld.CMD_LIVE_BANKS_HI_BANKS : RF := ⟨Adr.CMD_LIVE_BANKS_HI, 31, 0⟩
/-- `CMD_RPL_CTRL`, R61 of 02_frame_timing. -/
abbrev Adr.CMD_RPL_CTRL : Nat := 153868
abbrev Fld.CMD_RPL_CTRL_MODE : RF := ⟨Adr.CMD_RPL_CTRL, 31, 30⟩
abbrev Fld.CMD_RPL_CTRL_PORT : RF := ⟨Adr.CMD_RPL_CTRL, 29, 28⟩
abbrev Fld.CMD_RPL_CTRL_FULL_REQ : RF := ⟨Adr.CMD_RPL_CTRL, 27, 27⟩
abbrev Fld.CMD_RPL_CTRL_UDP_PORT : RF := ⟨Adr.CMD_RPL_CTRL, 15, 0⟩
/-- `CMD_RPL_DEST`, R61 of 02_frame_timing. -/
abbrev Adr.CMD_RPL_DEST : Nat := 153869
abbrev Fld.CMD_RPL_DEST_IPV4 : RF := ⟨Adr.CMD_RPL_DEST, 31, 0⟩
/-- `CMD_RPL_MAC_LO`, R61 of 02_frame_timing. -/
abbrev Adr.CMD_RPL_MAC_LO : Nat := 153870
abbrev Fld.CMD_RPL_MAC_LO_MAC : RF := ⟨Adr.CMD_RPL_MAC_LO, 31, 0⟩
/-- `CMD_RPL_MAC_HI`, R61 of 02_frame_timing. -/
abbrev Adr.CMD_RPL_MAC_HI : Nat := 153871
abbrev Fld.CMD_RPL_MAC_HI_MAC : RF := ⟨Adr.CMD_RPL_MAC_HI, 31, 0⟩
/-- `CMD_RPL_STAT`, R61 of 02_frame_timing. -/
abbrev Adr.CMD_RPL_STAT : Nat := 153872
abbrev Fld.CMD_RPL_STAT_DROPPED : RF := ⟨Adr.CMD_RPL_STAT, 31, 16⟩
abbrev Fld.CMD_RPL_STAT_DROP_SAT : RF := ⟨Adr.CMD_RPL_STAT, 15, 15⟩
abbrev Fld.CMD_RPL_STAT_BACKLOG : RF := ⟨Adr.CMD_RPL_STAT, 11, 8⟩
abbrev Fld.CMD_RPL_STAT_FULL_BUSY : RF := ⟨Adr.CMD_RPL_STAT, 1, 1⟩
abbrev Fld.CMD_RPL_STAT_CFG_MISMATCH : RF := ⟨Adr.CMD_RPL_STAT, 0, 0⟩
/-- `CMD_RPL_SRC`, R61 of 02_frame_timing. -/
abbrev Adr.CMD_RPL_SRC : Nat := 153873
abbrev Fld.CMD_RPL_SRC_IPV4 : RF := ⟨Adr.CMD_RPL_SRC, 31, 0⟩
/-- `FUS_GLOBAL`, R110 of 03_reference_fusion. -/
abbrev Adr.FUS_GLOBAL : Nat := 37896
abbrev Fld.FUS_GLOBAL_STORE_BANK : RF := ⟨Adr.FUS_GLOBAL, 31, 26⟩
abbrev Fld.FUS_GLOBAL_SNAP_BANK : RF := ⟨Adr.FUS_GLOBAL, 25, 20⟩
abbrev Fld.FUS_GLOBAL_SUS_N : RF := ⟨Adr.FUS_GLOBAL, 19, 16⟩
abbrev Fld.FUS_GLOBAL_HEAD_GROUP : RF := ⟨Adr.FUS_GLOBAL, 14, 12⟩
abbrev Fld.FUS_GLOBAL_MAX_AGE : RF := ⟨Adr.FUS_GLOBAL, 11, 0⟩
/-- `FUS_CAL_LIM`, R110 of 03_reference_fusion. -/
abbrev Adr.FUS_CAL_LIM : Nat := 37897
abbrev Fld.FUS_CAL_LIM_YAW : RF := ⟨Adr.FUS_CAL_LIM, 31, 16⟩
abbrev Fld.FUS_CAL_LIM_LEVER : RF := ⟨Adr.FUS_CAL_LIM, 15, 0⟩
/-- `FUS_CAL_AREA`, R110 of 03_reference_fusion. -/
abbrev Adr.FUS_CAL_AREA : Nat := 37898
abbrev Fld.FUS_CAL_AREA_BANK : RF := ⟨Adr.FUS_CAL_AREA, 29, 24⟩
abbrev Fld.FUS_CAL_AREA_OFS : RF := ⟨Adr.FUS_CAL_AREA, 11, 0⟩
/-- `FUS_GROUP`, R110 of 03_reference_fusion. -/
abbrev Adr.FUS_GROUP (i : Nat) : Nat := 37904 + i
abbrev Fld.FUS_GROUP_EN (i : Nat) : RF := ⟨Adr.FUS_GROUP i, 31, 31⟩
abbrev Fld.FUS_GROUP_KIND (i : Nat) : RF := ⟨Adr.FUS_GROUP i, 27, 24⟩
abbrev Fld.FUS_GROUP_M (i : Nat) : RF := ⟨Adr.FUS_GROUP i, 23, 20⟩
abbrev Fld.FUS_GROUP_N (i : Nat) : RF := ⟨Adr.FUS_GROUP i, 19, 16⟩
abbrev Fld.FUS_GROUP_READMIT (i : Nat) : RF := ⟨Adr.FUS_GROUP i, 15, 8⟩
abbrev Fld.FUS_GROUP_GATE (i : Nat) : RF := ⟨Adr.FUS_GROUP i, 7, 0⟩
/-- `FUS_GSTAT`, R110 of 03_reference_fusion. -/
abbrev Adr.FUS_GSTAT (i : Nat) : Nat := 37912 + i
abbrev Fld.FUS_GSTAT_ADMITTED (i : Nat) : RF := ⟨Adr.FUS_GSTAT i, 13, 8⟩
abbrev Fld.FUS_GSTAT_NONE (i : Nat) : RF := ⟨Adr.FUS_GSTAT i, 4, 4⟩
abbrev Fld.FUS_GSTAT_PICKED (i : Nat) : RF := ⟨Adr.FUS_GSTAT i, 3, 3⟩
abbrev Fld.FUS_GSTAT_DISAGREE (i : Nat) : RF := ⟨Adr.FUS_GSTAT i, 2, 2⟩
abbrev Fld.FUS_GSTAT_SPLIT (i : Nat) : RF := ⟨Adr.FUS_GSTAT i, 1, 1⟩
abbrev Fld.FUS_GSTAT_SINGLE (i : Nat) : RF := ⟨Adr.FUS_GSTAT i, 0, 0⟩
/-- `FUS_PICK`, R110 of 03_reference_fusion. -/
abbrev Adr.FUS_PICK (i : Nat) : Nat := 37921 + i
abbrev Fld.FUS_PICK_VALID (i : Nat) : RF := ⟨Adr.FUS_PICK i, 31, 31⟩
abbrev Fld.FUS_PICK_PORT (i : Nat) : RF := ⟨Adr.FUS_PICK i, 4, 0⟩
/-- `FUS_PORT_CFG`, R110 of 03_reference_fusion. -/
abbrev Adr.FUS_PORT_CFG (i : Nat) : Nat := 38976 + i * 16
abbrev Fld.FUS_PORT_CFG_TYPE (i : Nat) : RF := ⟨Adr.FUS_PORT_CFG i, 31, 28⟩
abbrev Fld.FUS_PORT_CFG_SRC_IDX (i : Nat) : RF := ⟨Adr.FUS_PORT_CFG i, 27, 24⟩
abbrev Fld.FUS_PORT_CFG_GROUP_EN (i : Nat) : RF := ⟨Adr.FUS_PORT_CFG i, 23, 23⟩
abbrev Fld.FUS_PORT_CFG_GROUP (i : Nat) : RF := ⟨Adr.FUS_PORT_CFG i, 22, 20⟩
abbrev Fld.FUS_PORT_CFG_ALLOW (i : Nat) : RF := ⟨Adr.FUS_PORT_CFG i, 19, 16⟩
abbrev Fld.FUS_PORT_CFG_INFL (i : Nat) : RF := ⟨Adr.FUS_PORT_CFG i, 15, 13⟩
abbrev Fld.FUS_PORT_CFG_OWNER (i : Nat) : RF := ⟨Adr.FUS_PORT_CFG i, 12, 8⟩
abbrev Fld.FUS_PORT_CFG_KIND (i : Nat) : RF := ⟨Adr.FUS_PORT_CFG i, 7, 4⟩
abbrev Fld.FUS_PORT_CFG_DMA (i : Nat) : RF := ⟨Adr.FUS_PORT_CFG i, 3, 3⟩
abbrev Fld.FUS_PORT_CFG_CAL_EN (i : Nat) : RF := ⟨Adr.FUS_PORT_CFG i, 2, 2⟩
abbrev Fld.FUS_PORT_CFG_CLK_MODEL (i : Nat) : RF := ⟨Adr.FUS_PORT_CFG i, 1, 1⟩
/-- `FUS_PORT_LAT`, R110 of 03_reference_fusion. -/
abbrev Adr.FUS_PORT_LAT (i : Nat) : Nat := 38977 + i * 16
abbrev Fld.FUS_PORT_LAT_LATENCY (i : Nat) : RF := ⟨Adr.FUS_PORT_LAT i, 19, 0⟩
/-- `FUS_CLK_OFS_LO`, R110 of 03_reference_fusion. -/
abbrev Adr.FUS_CLK_OFS_LO (i : Nat) : Nat := 38978 + i * 16
abbrev Fld.FUS_CLK_OFS_LO_VALUE (i : Nat) : RF := ⟨Adr.FUS_CLK_OFS_LO i, 31, 0⟩
/-- `FUS_CLK_OFS_HI`, R110 of 03_reference_fusion. -/
abbrev Adr.FUS_CLK_OFS_HI (i : Nat) : Nat := 38979 + i * 16
abbrev Fld.FUS_CLK_OFS_HI_VALUE (i : Nat) : RF := ⟨Adr.FUS_CLK_OFS_HI i, 31, 0⟩
/-- `FUS_CLK_RATE`, R110 of 03_reference_fusion. -/
abbrev Adr.FUS_CLK_RATE (i : Nat) : Nat := 38980 + i * 16
abbrev Fld.FUS_CLK_RATE_VALUE (i : Nat) : RF := ⟨Adr.FUS_CLK_RATE i, 31, 0⟩
/-- `FUS_CLK_EPOCH_LO`, R110 of 03_reference_fusion. -/
abbrev Adr.FUS_CLK_EPOCH_LO (i : Nat) : Nat := 38981 + i * 16
abbrev Fld.FUS_CLK_EPOCH_LO_VALUE (i : Nat) : RF := ⟨Adr.FUS_CLK_EPOCH_LO i, 31, 0⟩
/-- `FUS_CLK_EPOCH_HI`, R110 of 03_reference_fusion. -/
abbrev Adr.FUS_CLK_EPOCH_HI (i : Nat) : Nat := 38982 + i * 16
abbrev Fld.FUS_CLK_EPOCH_HI_VALUE (i : Nat) : RF := ⟨Adr.FUS_CLK_EPOCH_HI i, 31, 0⟩
/-- `FUS_CLK_DISC`, R110 of 03_reference_fusion. -/
abbrev Adr.FUS_CLK_DISC (i : Nat) : Nat := 38983 + i * 16
abbrev Fld.FUS_CLK_DISC_D (i : Nat) : RF := ⟨Adr.FUS_CLK_DISC i, 31, 0⟩
/-- `FUS_PORT_STAT`, R110 of 03_reference_fusion. -/
abbrev Adr.FUS_PORT_STAT (i : Nat) : Nat := 38984 + i * 16
abbrev Fld.FUS_PORT_STAT_SUSPECT (i : Nat) : RF := ⟨Adr.FUS_PORT_STAT i, 31, 31⟩
abbrev Fld.FUS_PORT_STAT_VOTE (i : Nat) : RF := ⟨Adr.FUS_PORT_STAT i, 30, 28⟩
abbrev Fld.FUS_PORT_STAT_PASS_RUN (i : Nat) : RF := ⟨Adr.FUS_PORT_STAT i, 27, 20⟩
abbrev Fld.FUS_PORT_STAT_HISTORY (i : Nat) : RF := ⟨Adr.FUS_PORT_STAT i, 19, 12⟩
abbrev Fld.FUS_PORT_STAT_LAST_BAD (i : Nat) : RF := ⟨Adr.FUS_PORT_STAT i, 11, 9⟩
abbrev Fld.FUS_PORT_STAT_COPY_BUSY (i : Nat) : RF := ⟨Adr.FUS_PORT_STAT i, 8, 8⟩
abbrev Fld.FUS_PORT_STAT_FOREIGN (i : Nat) : RF := ⟨Adr.FUS_PORT_STAT i, 7, 7⟩
abbrev Fld.FUS_PORT_STAT_LATE_SAT (i : Nat) : RF := ⟨Adr.FUS_PORT_STAT i, 6, 6⟩
abbrev Fld.FUS_PORT_STAT_DROP_SAT (i : Nat) : RF := ⟨Adr.FUS_PORT_STAT i, 5, 5⟩
abbrev Fld.FUS_PORT_STAT_BAD_SAT (i : Nat) : RF := ⟨Adr.FUS_PORT_STAT i, 4, 4⟩
abbrev Fld.FUS_PORT_STAT_FUTURE_SAT (i : Nat) : RF := ⟨Adr.FUS_PORT_STAT i, 3, 3⟩
abbrev Fld.FUS_PORT_STAT_CAL_OVERRIDE (i : Nat) : RF := ⟨Adr.FUS_PORT_STAT i, 2, 2⟩
/-- `FUS_PORT_CNT_A`, R110 of 03_reference_fusion. -/
abbrev Adr.FUS_PORT_CNT_A (i : Nat) : Nat := 38985 + i * 16
abbrev Fld.FUS_PORT_CNT_A_LATE (i : Nat) : RF := ⟨Adr.FUS_PORT_CNT_A i, 31, 16⟩
abbrev Fld.FUS_PORT_CNT_A_DROP (i : Nat) : RF := ⟨Adr.FUS_PORT_CNT_A i, 15, 0⟩
/-- `FUS_PORT_CNT_B`, R110 of 03_reference_fusion. -/
abbrev Adr.FUS_PORT_CNT_B (i : Nat) : Nat := 38986 + i * 16
abbrev Fld.FUS_PORT_CNT_B_BAD (i : Nat) : RF := ⟨Adr.FUS_PORT_CNT_B i, 31, 16⟩
abbrev Fld.FUS_PORT_CNT_B_FUTURE (i : Nat) : RF := ⟨Adr.FUS_PORT_CNT_B i, 15, 0⟩
/-- `FUS_PORT_QUEUE`, R110 of 03_reference_fusion. -/
abbrev Adr.FUS_PORT_QUEUE (i : Nat) : Nat := 38987 + i * 16
abbrev Fld.FUS_PORT_QUEUE_CAL_PAIRS (i : Nat) : RF := ⟨Adr.FUS_PORT_QUEUE i, 14, 8⟩
abbrev Fld.FUS_PORT_QUEUE_DEPTH (i : Nat) : RF := ⟨Adr.FUS_PORT_QUEUE i, 4, 0⟩
/-- `FUS_DEP`, R110 of 03_reference_fusion. -/
abbrev Adr.FUS_DEP (i j : Nat) : Nat := 40000 + i * 16 + j
abbrev Fld.FUS_DEP_WORD (i j : Nat) : RF := ⟨Adr.FUS_DEP i j, 31, 0⟩
/-- `FUS_DEP_COMMIT`, R110 of 03_reference_fusion. -/
abbrev Adr.FUS_DEP_COMMIT (i : Nat) : Nat := 40512 + i
abbrev Fld.FUS_DEP_COMMIT_COMMIT (i : Nat) : RF := ⟨Adr.FUS_DEP_COMMIT i, 31, 0⟩
/-- `FUS_MOUNT`, R110 of 03_reference_fusion. -/
abbrev Adr.FUS_MOUNT (i j : Nat) : Nat := 41024 + i * 8 + j
abbrev Fld.FUS_MOUNT_VALUE (i j : Nat) : RF := ⟨Adr.FUS_MOUNT i j, 31, 0⟩
/-- `GFE_PASS`, R110 of 03_reference_fusion. -/
abbrev Adr.GFE_PASS : Nat := 41992
abbrev Fld.GFE_PASS_POSE_PORT : RF := ⟨Adr.GFE_PASS, 20, 16⟩
abbrev Fld.GFE_PASS_DIV : RF := ⟨Adr.GFE_PASS, 7, 0⟩
/-- `GFE_VPT_X`, R110 of 03_reference_fusion. -/
abbrev Adr.GFE_VPT_X : Nat := 41993
abbrev Fld.GFE_VPT_X_VALUE : RF := ⟨Adr.GFE_VPT_X, 31, 0⟩
/-- `GFE_VPT_Y`, R110 of 03_reference_fusion. -/
abbrev Adr.GFE_VPT_Y : Nat := 41994
abbrev Fld.GFE_VPT_Y_VALUE : RF := ⟨Adr.GFE_VPT_Y, 31, 0⟩
/-- `GFE_GRID`, R110 of 03_reference_fusion. -/
abbrev Adr.GFE_GRID : Nat := 41995
abbrev Fld.GFE_GRID_MIN_RANGE : RF := ⟨Adr.GFE_GRID, 15, 0⟩
/-- `GFE_CORR`, R110 of 03_reference_fusion. -/
abbrev Adr.GFE_CORR : Nat := 41996
abbrev Fld.GFE_CORR_Q : RF := ⟨Adr.GFE_CORR, 31, 24⟩
abbrev Fld.GFE_CORR_RATIO : RF := ⟨Adr.GFE_CORR, 23, 16⟩
abbrev Fld.GFE_CORR_W : RF := ⟨Adr.GFE_CORR, 15, 11⟩
abbrev Fld.GFE_CORR_KEYS : RF := ⟨Adr.GFE_CORR, 10, 0⟩
/-- `GFE_WSTAT`, R110 of 03_reference_fusion. -/
abbrev Adr.GFE_WSTAT : Nat := 41997
abbrev Fld.GFE_WSTAT_LOADED : RF := ⟨Adr.GFE_WSTAT, 31, 31⟩
abbrev Fld.GFE_WSTAT_BAD : RF := ⟨Adr.GFE_WSTAT, 30, 30⟩
abbrev Fld.GFE_WSTAT_C : RF := ⟨Adr.GFE_WSTAT, 7, 4⟩
abbrev Fld.GFE_WSTAT_L : RF := ⟨Adr.GFE_WSTAT, 3, 0⟩
/-- `GFE_WADDR`, R110 of 03_reference_fusion. -/
abbrev Adr.GFE_WADDR : Nat := 41998
abbrev Fld.GFE_WADDR_ADDR : RF := ⟨Adr.GFE_WADDR, 23, 0⟩
/-- `GFE_MAP_ADDR`, R110 of 03_reference_fusion. -/
abbrev Adr.GFE_MAP_ADDR (i : Nat) : Nat := 42048 + i
abbrev Fld.GFE_MAP_ADDR_ADDR (i : Nat) : RF := ⟨Adr.GFE_MAP_ADDR i, 23, 0⟩
/-- `GFE_POSE_STAT`, R110 of 03_reference_fusion. -/
abbrev Adr.GFE_POSE_STAT : Nat := 41999
abbrev Fld.GFE_POSE_STAT_VALID : RF := ⟨Adr.GFE_POSE_STAT, 31, 31⟩
abbrev Fld.GFE_POSE_STAT_REASON : RF := ⟨Adr.GFE_POSE_STAT, 30, 28⟩
abbrev Fld.GFE_POSE_STAT_SCAN_DROP : RF := ⟨Adr.GFE_POSE_STAT, 23, 16⟩
abbrev Fld.GFE_POSE_STAT_PASSES : RF := ⟨Adr.GFE_POSE_STAT, 15, 0⟩
/-- `GFE_POSE_CLR`, R110 of 03_reference_fusion. -/
abbrev Adr.GFE_POSE_CLR : Nat := 42000
abbrev Fld.GFE_POSE_CLR_SCAN_CLR : RF := ⟨Adr.GFE_POSE_CLR, 0, 0⟩
/-- `GFE_MAP_SEL`, R110 of 03_reference_fusion. -/
abbrev Adr.GFE_MAP_SEL : Nat := 42017
abbrev Fld.GFE_MAP_SEL_VALID : RF := ⟨Adr.GFE_MAP_SEL, 31, 31⟩
abbrev Fld.GFE_MAP_SEL_MAP : RF := ⟨Adr.GFE_MAP_SEL, 3, 0⟩
/-- `GNS_IF_CFG`, R130 of 04_gnss_baseband. -/
abbrev Adr.GNS_IF_CFG (i : Nat) : Nat := 33800 + i
abbrev Fld.GNS_IF_CFG_EN (i : Nat) : RF := ⟨Adr.GNS_IF_CFG i, 31, 31⟩
abbrev Fld.GNS_IF_CFG_RATE (i : Nat) : RF := ⟨Adr.GNS_IF_CFG i, 30, 29⟩
abbrev Fld.GNS_IF_CFG_INV_Q (i : Nat) : RF := ⟨Adr.GNS_IF_CFG i, 28, 28⟩
/-- `GNS_IF_FREQ`, R130 of 04_gnss_baseband. -/
abbrev Adr.GNS_IF_FREQ (i : Nat) : Nat := 33802 + i
abbrev Fld.GNS_IF_FREQ_FREQ (i : Nat) : RF := ⟨Adr.GNS_IF_FREQ i, 31, 0⟩
/-- `GNS_AGC`, R130 of 04_gnss_baseband. -/
abbrev Adr.GNS_AGC (i : Nat) : Nat := 33804 + i
abbrev Fld.GNS_AGC_AUTO (i : Nat) : RF := ⟨Adr.GNS_AGC i, 31, 31⟩
abbrev Fld.GNS_AGC_CLK_OK (i : Nat) : RF := ⟨Adr.GNS_AGC i, 30, 30⟩
abbrev Fld.GNS_AGC_TARGET (i : Nat) : RF := ⟨Adr.GNS_AGC i, 23, 16⟩
abbrev Fld.GNS_AGC_GAIN_REF (i : Nat) : RF := ⟨Adr.GNS_AGC i, 15, 8⟩
abbrev Fld.GNS_AGC_GAIN (i : Nat) : RF := ⟨Adr.GNS_AGC i, 7, 0⟩
/-- `GNS_JAM_CFG`, R130 of 04_gnss_baseband. -/
abbrev Adr.GNS_JAM_CFG : Nat := 33806
abbrev Fld.GNS_JAM_CFG_CAL : RF := ⟨Adr.GNS_JAM_CFG, 31, 31⟩
abbrev Fld.GNS_JAM_CFG_NOISE_PRN : RF := ⟨Adr.GNS_JAM_CFG, 29, 24⟩
abbrev Fld.GNS_JAM_CFG_GSTEP : RF := ⟨Adr.GNS_JAM_CFG, 15, 8⟩
abbrev Fld.GNS_JAM_CFG_THRESH : RF := ⟨Adr.GNS_JAM_CFG, 7, 0⟩
/-- `GNS_JAM`, R130 of 04_gnss_baseband. -/
abbrev Adr.GNS_JAM (i : Nat) : Nat := 33808 + i
abbrev Fld.GNS_JAM_JAM (i : Nat) : RF := ⟨Adr.GNS_JAM i, 31, 31⟩
abbrev Fld.GNS_JAM_NF_REF (i : Nat) : RF := ⟨Adr.GNS_JAM i, 23, 16⟩
abbrev Fld.GNS_JAM_JI (i : Nat) : RF := ⟨Adr.GNS_JAM i, 15, 0⟩
/-- `GNS_NOTCH_TH`, R130 of 04_gnss_baseband. -/
abbrev Adr.GNS_NOTCH_TH : Nat := 33815
abbrev Fld.GNS_NOTCH_TH_THRESH : RF := ⟨Adr.GNS_NOTCH_TH, 7, 0⟩
/-- `GNS_NOTCH`, R130 of 04_gnss_baseband. -/
abbrev Adr.GNS_NOTCH (i j : Nat) : Nat := 33816 + i * 4 + j
abbrev Fld.GNS_NOTCH_EN (i j : Nat) : RF := ⟨Adr.GNS_NOTCH i j, 31, 31⟩
abbrev Fld.GNS_NOTCH_ADAPT (i j : Nat) : RF := ⟨Adr.GNS_NOTCH i j, 30, 30⟩
abbrev Fld.GNS_NOTCH_ACTIVE (i j : Nat) : RF := ⟨Adr.GNS_NOTCH i j, 29, 29⟩
abbrev Fld.GNS_NOTCH_WIDTH (i j : Nat) : RF := ⟨Adr.GNS_NOTCH i j, 27, 26⟩
abbrev Fld.GNS_NOTCH_FREQ (i j : Nat) : RF := ⟨Adr.GNS_NOTCH i j, 23, 0⟩
/-- `GNS_ACQ_CFG`, R130 of 04_gnss_baseband. -/
abbrev Adr.GNS_ACQ_CFG : Nat := 33810
abbrev Fld.GNS_ACQ_CFG_NNC : RF := ⟨Adr.GNS_ACQ_CFG, 20, 16⟩
abbrev Fld.GNS_ACQ_CFG_THRESH : RF := ⟨Adr.GNS_ACQ_CFG, 15, 0⟩
/-- `GNS_TRK_CFG`, R130 of 04_gnss_baseband. -/
abbrev Adr.GNS_TRK_CFG : Nat := 33811
abbrev Fld.GNS_TRK_CFG_PLL_BW : RF := ⟨Adr.GNS_TRK_CFG, 31, 30⟩
abbrev Fld.GNS_TRK_CFG_DLL_BW : RF := ⟨Adr.GNS_TRK_CFG, 29, 28⟩
abbrev Fld.GNS_TRK_CFG_SPACING : RF := ⟨Adr.GNS_TRK_CFG, 27, 26⟩
abbrev Fld.GNS_TRK_CFG_DD : RF := ⟨Adr.GNS_TRK_CFG, 25, 25⟩
abbrev Fld.GNS_TRK_CFG_LOSS_CN0 : RF := ⟨Adr.GNS_TRK_CFG, 7, 0⟩
/-- `GNS_MEAS_CFG`, R130 of 04_gnss_baseband. -/
abbrev Adr.GNS_MEAS_CFG : Nat := 33812
abbrev Fld.GNS_MEAS_CFG_EN : RF := ⟨Adr.GNS_MEAS_CFG, 31, 31⟩
abbrev Fld.GNS_MEAS_CFG_OFS : RF := ⟨Adr.GNS_MEAS_CFG, 11, 0⟩
/-- `GNS_SNAP_CTRL`, R130 of 04_gnss_baseband. -/
abbrev Adr.GNS_SNAP_CTRL : Nat := 33813
abbrev Fld.GNS_SNAP_CTRL_GO : RF := ⟨Adr.GNS_SNAP_CTRL, 31, 31⟩
abbrev Fld.GNS_SNAP_CTRL_INPUT : RF := ⟨Adr.GNS_SNAP_CTRL, 30, 30⟩
abbrev Fld.GNS_SNAP_CTRL_BANK : RF := ⟨Adr.GNS_SNAP_CTRL, 29, 24⟩
abbrev Fld.GNS_SNAP_CTRL_BEAT : RF := ⟨Adr.GNS_SNAP_CTRL, 21, 16⟩
abbrev Fld.GNS_SNAP_CTRL_D : RF := ⟨Adr.GNS_SNAP_CTRL, 13, 8⟩
abbrev Fld.GNS_SNAP_CTRL_LEN : RF := ⟨Adr.GNS_SNAP_CTRL, 4, 0⟩
/-- `GNS_SNAP_STAT`, R130 of 04_gnss_baseband. -/
abbrev Adr.GNS_SNAP_STAT : Nat := 33814
abbrev Fld.GNS_SNAP_STAT_BUSY : RF := ⟨Adr.GNS_SNAP_STAT, 31, 31⟩
abbrev Fld.GNS_SNAP_STAT_DONE : RF := ⟨Adr.GNS_SNAP_STAT, 30, 30⟩
abbrev Fld.GNS_SNAP_STAT_ERR : RF := ⟨Adr.GNS_SNAP_STAT, 2, 0⟩
/-- `GNS_TIME_OBS_LO`, R130 of 04_gnss_baseband. -/
abbrev Adr.GNS_TIME_OBS_LO : Nat := 33856
abbrev Fld.GNS_TIME_OBS_LO_OFS : RF := ⟨Adr.GNS_TIME_OBS_LO, 31, 0⟩
/-- `GNS_TIME_OBS_HI`, R130 of 04_gnss_baseband. -/
abbrev Adr.GNS_TIME_OBS_HI : Nat := 33857
abbrev Fld.GNS_TIME_OBS_HI_OFS : RF := ⟨Adr.GNS_TIME_OBS_HI, 31, 0⟩
/-- `GNS_TIME_CTRL`, R130 of 04_gnss_baseband. -/
abbrev Adr.GNS_TIME_CTRL : Nat := 33858
abbrev Fld.GNS_TIME_CTRL_VALID : RF := ⟨Adr.GNS_TIME_CTRL, 31, 31⟩
abbrev Fld.GNS_TIME_CTRL_AVAIL : RF := ⟨Adr.GNS_TIME_CTRL, 30, 30⟩
abbrev Fld.GNS_TIME_CTRL_REFUSED : RF := ⟨Adr.GNS_TIME_CTRL, 29, 29⟩
abbrev Fld.GNS_TIME_CTRL_HOLD : RF := ⟨Adr.GNS_TIME_CTRL, 28, 24⟩
abbrev Fld.GNS_TIME_CTRL_SIGMA : RF := ⟨Adr.GNS_TIME_CTRL, 23, 16⟩
abbrev Fld.GNS_TIME_CTRL_FRAME16 : RF := ⟨Adr.GNS_TIME_CTRL, 15, 0⟩
/-- `GNS_CH_CFG`, R130 of 04_gnss_baseband. -/
abbrev Adr.GNS_CH_CFG (i : Nat) : Nat := 34880 + i * 8
abbrev Fld.GNS_CH_CFG_RUN (i : Nat) : RF := ⟨Adr.GNS_CH_CFG i, 31, 31⟩
abbrev Fld.GNS_CH_CFG_MODE (i : Nat) : RF := ⟨Adr.GNS_CH_CFG i, 30, 30⟩
abbrev Fld.GNS_CH_CFG_L5 (i : Nat) : RF := ⟨Adr.GNS_CH_CFG i, 29, 29⟩
abbrev Fld.GNS_CH_CFG_PRN (i : Nat) : RF := ⟨Adr.GNS_CH_CFG i, 28, 23⟩
abbrev Fld.GNS_CH_CFG_HALF (i : Nat) : RF := ⟨Adr.GNS_CH_CFG i, 22, 18⟩
abbrev Fld.GNS_CH_CFG_DOPP (i : Nat) : RF := ⟨Adr.GNS_CH_CFG i, 15, 0⟩
/-- `GNS_CH_CODE`, R130 of 04_gnss_baseband. -/
abbrev Adr.GNS_CH_CODE (i : Nat) : Nat := 34881 + i * 8
abbrev Fld.GNS_CH_CODE_CODE (i : Nat) : RF := ⟨Adr.GNS_CH_CODE i, 31, 0⟩
/-- `GNS_CH_STAT`, R130 of 04_gnss_baseband. -/
abbrev Adr.GNS_CH_STAT (i : Nat) : Nat := 34882 + i * 8
abbrev Fld.GNS_CH_STAT_STATE (i : Nat) : RF := ⟨Adr.GNS_CH_STAT i, 31, 29⟩
abbrev Fld.GNS_CH_STAT_STATE5 (i : Nat) : RF := ⟨Adr.GNS_CH_STAT i, 28, 26⟩
abbrev Fld.GNS_CH_STAT_LOCK (i : Nat) : RF := ⟨Adr.GNS_CH_STAT i, 25, 25⟩
abbrev Fld.GNS_CH_STAT_BITSYNC (i : Nat) : RF := ⟨Adr.GNS_CH_STAT i, 24, 24⟩
abbrev Fld.GNS_CH_STAT_ACQ_TRIES (i : Nat) : RF := ⟨Adr.GNS_CH_STAT i, 23, 16⟩
abbrev Fld.GNS_CH_STAT_CN0 (i : Nat) : RF := ⟨Adr.GNS_CH_STAT i, 15, 0⟩
/-- `GNS_CH_ACQ`, R130 of 04_gnss_baseband. -/
abbrev Adr.GNS_CH_ACQ (i : Nat) : Nat := 34883 + i * 8
abbrev Fld.GNS_CH_ACQ_ACQ_RATIO (i : Nat) : RF := ⟨Adr.GNS_CH_ACQ i, 15, 0⟩
/-- `GNS_CH_BITS`, R130 of 04_gnss_baseband. -/
abbrev Adr.GNS_CH_BITS (i : Nat) : Nat := 34884 + i * 8
abbrev Fld.GNS_CH_BITS_BITS (i : Nat) : RF := ⟨Adr.GNS_CH_BITS i, 31, 0⟩
/-- `GNS_CH_BITCNT`, R130 of 04_gnss_baseband. -/
abbrev Adr.GNS_CH_BITCNT (i : Nat) : Nat := 34885 + i * 8
abbrev Fld.GNS_CH_BITCNT_COUNT (i : Nat) : RF := ⟨Adr.GNS_CH_BITCNT i, 31, 0⟩
/-- `FLT_MCLK`, R145 of 05_analogue_filter_chain. -/
abbrev Adr.FLT_MCLK : Nat := 32776
abbrev Fld.FLT_MCLK_EN : RF := ⟨Adr.FLT_MCLK, 31, 31⟩
abbrev Fld.FLT_MCLK_DIV : RF := ⟨Adr.FLT_MCLK, 7, 0⟩
/-- `FLT_SNAP_CFG`, R145 of 05_analogue_filter_chain. -/
abbrev Adr.FLT_SNAP_CFG : Nat := 32777
abbrev Fld.FLT_SNAP_CFG_EN : RF := ⟨Adr.FLT_SNAP_CFG, 31, 31⟩
abbrev Fld.FLT_SNAP_CFG_OFS : RF := ⟨Adr.FLT_SNAP_CFG, 11, 0⟩
/-- `FLT_CH_CFG`, R145 of 05_analogue_filter_chain. -/
abbrev Adr.FLT_CH_CFG (i : Nat) : Nat := 32832 + i * 8
abbrev Fld.FLT_CH_CFG_EN (i : Nat) : RF := ⟨Adr.FLT_CH_CFG i, 31, 31⟩
abbrev Fld.FLT_CH_CFG_FALLBACK (i : Nat) : RF := ⟨Adr.FLT_CH_CFG i, 30, 30⟩
abbrev Fld.FLT_CH_CFG_ORDER (i : Nat) : RF := ⟨Adr.FLT_CH_CFG i, 27, 25⟩
abbrev Fld.FLT_CH_CFG_RATIO (i : Nat) : RF := ⟨Adr.FLT_CH_CFG i, 24, 16⟩
abbrev Fld.FLT_CH_CFG_FIR (i : Nat) : RF := ⟨Adr.FLT_CH_CFG i, 15, 12⟩
abbrev Fld.FLT_CH_CFG_PHASE (i : Nat) : RF := ⟨Adr.FLT_CH_CFG i, 11, 0⟩
/-- `FLT_CH_STEP`, R145 of 05_analogue_filter_chain. -/
abbrev Adr.FLT_CH_STEP (i : Nat) : Nat := 32833 + i * 8
abbrev Fld.FLT_CH_STEP_TH (i : Nat) : RF := ⟨Adr.FLT_CH_STEP i, 15, 0⟩
/-- `FLT_CH_CTRL`, R145 of 05_analogue_filter_chain. -/
abbrev Adr.FLT_CH_CTRL (i : Nat) : Nat := 32834 + i * 8
abbrev Fld.FLT_CH_CTRL_RESTART (i : Nat) : RF := ⟨Adr.FLT_CH_CTRL i, 0, 0⟩
/-- `FLT_CH_OUT`, R145 of 05_analogue_filter_chain. -/
abbrev Adr.FLT_CH_OUT (i : Nat) : Nat := 32835 + i * 8
abbrev Fld.FLT_CH_OUT_VALUE (i : Nat) : RF := ⟨Adr.FLT_CH_OUT i, 31, 0⟩
/-- `FLT_CH_FINE`, R145 of 05_analogue_filter_chain. -/
abbrev Adr.FLT_CH_FINE (i : Nat) : Nat := 32836 + i * 8
abbrev Fld.FLT_CH_FINE_VALUE (i : Nat) : RF := ⟨Adr.FLT_CH_FINE i, 31, 0⟩
/-- `FLT_CH_COARSE`, R145 of 05_analogue_filter_chain. -/
abbrev Adr.FLT_CH_COARSE (i : Nat) : Nat := 32837 + i * 8
abbrev Fld.FLT_CH_COARSE_VALUE (i : Nat) : RF := ⟨Adr.FLT_CH_COARSE i, 31, 0⟩
/-- `FLT_CH_STAT`, R145 of 05_analogue_filter_chain. -/
abbrev Adr.FLT_CH_STAT (i : Nat) : Nat := 32838 + i * 8
abbrev Fld.FLT_CH_STAT_SETTLED (i : Nat) : RF := ⟨Adr.FLT_CH_STAT i, 31, 31⟩
abbrev Fld.FLT_CH_STAT_COARSE (i : Nat) : RF := ⟨Adr.FLT_CH_STAT i, 30, 30⟩
abbrev Fld.FLT_CH_STAT_STUCK (i : Nat) : RF := ⟨Adr.FLT_CH_STAT i, 29, 29⟩
abbrev Fld.FLT_CH_STAT_SAT_FLAG (i : Nat) : RF := ⟨Adr.FLT_CH_STAT i, 28, 28⟩
abbrev Fld.FLT_CH_STAT_STEP_FLAG (i : Nat) : RF := ⟨Adr.FLT_CH_STAT i, 27, 27⟩
abbrev Fld.FLT_CH_STAT_DELAY (i : Nat) : RF := ⟨Adr.FLT_CH_STAT i, 23, 0⟩
/-- `FLT_CH_CNT`, R145 of 05_analogue_filter_chain. -/
abbrev Adr.FLT_CH_CNT (i : Nat) : Nat := 32839 + i * 8
abbrev Fld.FLT_CH_CNT_SAT (i : Nat) : RF := ⟨Adr.FLT_CH_CNT i, 31, 16⟩
abbrev Fld.FLT_CH_CNT_STEPS (i : Nat) : RF := ⟨Adr.FLT_CH_CNT i, 15, 0⟩
/-- `ASM_TBL_CHK`, R182 of 06_problem_assembly. -/
abbrev Adr.ASM_TBL_CHK : Nat := 43016
abbrev Fld.ASM_TBL_CHK_CHECK : RF := ⟨Adr.ASM_TBL_CHK, 31, 31⟩
abbrev Fld.ASM_TBL_CHK_RELEASE : RF := ⟨Adr.ASM_TBL_CHK, 30, 30⟩
abbrev Fld.ASM_TBL_CHK_BUSY : RF := ⟨Adr.ASM_TBL_CHK, 29, 29⟩
abbrev Fld.ASM_TBL_CHK_OK : RF := ⟨Adr.ASM_TBL_CHK, 28, 28⟩
abbrev Fld.ASM_TBL_CHK_TO : RF := ⟨Adr.ASM_TBL_CHK, 27, 23⟩
abbrev Fld.ASM_TBL_CHK_ENTRY : RF := ⟨Adr.ASM_TBL_CHK, 22, 15⟩
abbrev Fld.ASM_TBL_CHK_ERR : RF := ⟨Adr.ASM_TBL_CHK, 14, 11⟩
abbrev Fld.ASM_TBL_CHK_BANK : RF := ⟨Adr.ASM_TBL_CHK, 5, 0⟩
/-- `ASM_SIZE_A`, R182 of 06_problem_assembly. -/
abbrev Adr.ASM_SIZE_A : Nat := 43017
abbrev Fld.ASM_SIZE_A_S : RF := ⟨Adr.ASM_SIZE_A, 31, 26⟩
abbrev Fld.ASM_SIZE_A_NVAR : RF := ⟨Adr.ASM_SIZE_A, 25, 15⟩
abbrev Fld.ASM_SIZE_A_HB : RF := ⟨Adr.ASM_SIZE_A, 14, 8⟩
/-- `ASM_SIZE_B`, R182 of 06_problem_assembly. -/
abbrev Adr.ASM_SIZE_B : Nat := 43018
abbrev Fld.ASM_SIZE_B_NNZ : RF := ⟨Adr.ASM_SIZE_B, 31, 16⟩
abbrev Fld.ASM_SIZE_B_ROWS : RF := ⟨Adr.ASM_SIZE_B, 15, 0⟩
/-- `ASM_TPRED`, R182 of 06_problem_assembly. -/
abbrev Adr.ASM_TPRED : Nat := 43019
abbrev Fld.ASM_TPRED_NS : RF := ⟨Adr.ASM_TPRED, 19, 0⟩
/-- `ASM_TIME`, R182 of 06_problem_assembly. -/
abbrev Adr.ASM_TIME : Nat := 43029
abbrev Fld.ASM_TIME_NS : RF := ⟨Adr.ASM_TIME, 19, 0⟩
/-- `ASM_EST_LOC`, R182 of 06_problem_assembly. -/
abbrev Adr.ASM_EST_LOC : Nat := 43020
abbrev Fld.ASM_EST_LOC_EN : RF := ⟨Adr.ASM_EST_LOC, 31, 31⟩
abbrev Fld.ASM_EST_LOC_BANK : RF := ⟨Adr.ASM_EST_LOC, 29, 24⟩
abbrev Fld.ASM_EST_LOC_OFS : RF := ⟨Adr.ASM_EST_LOC, 11, 0⟩
/-- `ASM_FIX_LOC`, R182 of 06_problem_assembly. -/
abbrev Adr.ASM_FIX_LOC : Nat := 43021
abbrev Fld.ASM_FIX_LOC_EN : RF := ⟨Adr.ASM_FIX_LOC, 31, 31⟩
abbrev Fld.ASM_FIX_LOC_BANK : RF := ⟨Adr.ASM_FIX_LOC, 29, 24⟩
abbrev Fld.ASM_FIX_LOC_OFS : RF := ⟨Adr.ASM_FIX_LOC, 11, 0⟩
/-- `ASM_PROB`, R182 of 06_problem_assembly. -/
abbrev Adr.ASM_PROB : Nat := 43022
abbrev Fld.ASM_PROB_BANK : RF := ⟨Adr.ASM_PROB, 29, 24⟩
abbrev Fld.ASM_PROB_NBANKS : RF := ⟨Adr.ASM_PROB, 3, 0⟩
/-- `ASM_LSQ`, R182 of 06_problem_assembly. -/
abbrev Adr.ASM_LSQ : Nat := 43023
abbrev Fld.ASM_LSQ_CAL_EN : RF := ⟨Adr.ASM_LSQ, 31, 31⟩
abbrev Fld.ASM_LSQ_CAL_DIV : RF := ⟨Adr.ASM_LSQ, 23, 16⟩
/-- `ASM_SCEN`, R182 of 06_problem_assembly. -/
abbrev Adr.ASM_SCEN : Nat := 43024
abbrev Fld.ASM_SCEN_PER_FRAME : RF := ⟨Adr.ASM_SCEN, 6, 0⟩
/-- `ASM_MAN`, R182 of 06_problem_assembly. -/
abbrev Adr.ASM_MAN : Nat := 43025
abbrev Fld.ASM_MAN_SLOT_N : RF := ⟨Adr.ASM_MAN, 21, 16⟩
abbrev Fld.ASM_MAN_SLOT_Y : RF := ⟨Adr.ASM_MAN, 13, 8⟩
abbrev Fld.ASM_MAN_SLOT_X : RF := ⟨Adr.ASM_MAN, 5, 0⟩
/-- `ASM_STAT`, R182 of 06_problem_assembly. -/
abbrev Adr.ASM_STAT : Nat := 43026
abbrev Fld.ASM_STAT_READY : RF := ⟨Adr.ASM_STAT, 31, 31⟩
abbrev Fld.ASM_STAT_NO_EST : RF := ⟨Adr.ASM_STAT, 30, 30⟩
abbrev Fld.ASM_STAT_NO_PAST : RF := ⟨Adr.ASM_STAT, 29, 29⟩
abbrev Fld.ASM_STAT_EQ_INEXACT : RF := ⟨Adr.ASM_STAT, 28, 28⟩
abbrev Fld.ASM_STAT_STALE : RF := ⟨Adr.ASM_STAT, 23, 16⟩
abbrev Fld.ASM_STAT_ISSUED : RF := ⟨Adr.ASM_STAT, 15, 8⟩
abbrev Fld.ASM_STAT_SPACE_CNT : RF := ⟨Adr.ASM_STAT, 7, 0⟩
/-- `ASM_SCEN_STAT`, R182 of 06_problem_assembly. -/
abbrev Adr.ASM_SCEN_STAT : Nat := 43027
abbrev Fld.ASM_SCEN_STAT_PIN_OVER : RF := ⟨Adr.ASM_SCEN_STAT, 31, 31⟩
abbrev Fld.ASM_SCEN_STAT_PINNED : RF := ⟨Adr.ASM_SCEN_STAT, 24, 16⟩
abbrev Fld.ASM_SCEN_STAT_U : RF := ⟨Adr.ASM_SCEN_STAT, 8, 0⟩
/-- `ASM_EST_LATE_CNT`, R182 of 06_problem_assembly. -/
abbrev Adr.ASM_EST_LATE_CNT : Nat := 43028
abbrev Fld.ASM_EST_LATE_CNT_SAT : RF := ⟨Adr.ASM_EST_LATE_CNT, 31, 31⟩
abbrev Fld.ASM_EST_LATE_CNT_COUNT : RF := ⟨Adr.ASM_EST_LATE_CNT, 30, 0⟩
/-- `ASM_TBL_SEL`, R182 of 06_problem_assembly. -/
abbrev Adr.ASM_TBL_SEL : Nat := 43041
abbrev Fld.ASM_TBL_SEL_VALID : RF := ⟨Adr.ASM_TBL_SEL, 31, 31⟩
abbrev Fld.ASM_TBL_SEL_BANK : RF := ⟨Adr.ASM_TBL_SEL, 5, 0⟩
/-- `ASM_PAST_SEL`, R182 of 06_problem_assembly. -/
abbrev Adr.ASM_PAST_SEL : Nat := 43042
abbrev Fld.ASM_PAST_SEL_VALID : RF := ⟨Adr.ASM_PAST_SEL, 31, 31⟩
abbrev Fld.ASM_PAST_SEL_IDX : RF := ⟨Adr.ASM_PAST_SEL, 3, 0⟩
/-- `ASM_THR_AVAIL`, R182 of 06_problem_assembly. -/
abbrev Adr.ASM_THR_AVAIL : Nat := 43043
abbrev Fld.ASM_THR_AVAIL_AVAIL : RF := ⟨Adr.ASM_THR_AVAIL, 23, 0⟩
/-- `ASM_BUS_AVAIL`, R182 of 06_problem_assembly. -/
abbrev Adr.ASM_BUS_AVAIL : Nat := 43044
abbrev Fld.ASM_BUS_AVAIL_AVAIL : RF := ⟨Adr.ASM_BUS_AVAIL, 7, 0⟩
/-- `ASM_PURSE_DIS`, R182 of 06_problem_assembly. -/
abbrev Adr.ASM_PURSE_DIS (i : Nat) : Nat := 44096 + i * 8
abbrev Fld.ASM_PURSE_DIS_KW (i : Nat) : RF := ⟨Adr.ASM_PURSE_DIS i, 31, 0⟩
/-- `ASM_PURSE_CHG`, R182 of 06_problem_assembly. -/
abbrev Adr.ASM_PURSE_CHG (i : Nat) : Nat := 44097 + i * 8
abbrev Fld.ASM_PURSE_CHG_KW (i : Nat) : RF := ⟨Adr.ASM_PURSE_CHG i, 31, 0⟩
/-- `ASM_PURSE_GEN`, R182 of 06_problem_assembly. -/
abbrev Adr.ASM_PURSE_GEN (i : Nat) : Nat := 44098 + i * 8
abbrev Fld.ASM_PURSE_GEN_KW (i : Nat) : RF := ⟨Adr.ASM_PURSE_GEN i, 31, 0⟩
/-- `ASM_PURSE_RES`, R182 of 06_problem_assembly. -/
abbrev Adr.ASM_PURSE_RES (i : Nat) : Nat := 44099 + i * 8
abbrev Fld.ASM_PURSE_RES_KW (i : Nat) : RF := ⟨Adr.ASM_PURSE_RES i, 31, 0⟩
/-- `ASM_PURSE_SEQ`, R182 of 06_problem_assembly. -/
abbrev Adr.ASM_PURSE_SEQ (i : Nat) : Nat := 44100 + i * 8
abbrev Fld.ASM_PURSE_SEQ_SEQ (i : Nat) : RF := ⟨Adr.ASM_PURSE_SEQ i, 31, 0⟩
/-- `ASM_PURSE_AGE`, R182 of 06_problem_assembly. -/
abbrev Adr.ASM_PURSE_AGE (i : Nat) : Nat := 44101 + i * 8
abbrev Fld.ASM_PURSE_AGE_AGE (i : Nat) : RF := ⟨Adr.ASM_PURSE_AGE i, 15, 0⟩
/-- `ASM_PURSE_LIM`, R182 of 06_problem_assembly. -/
abbrev Adr.ASM_PURSE_LIM (i : Nat) : Nat := 44102 + i * 8
abbrev Fld.ASM_PURSE_LIM_KW (i : Nat) : RF := ⟨Adr.ASM_PURSE_LIM i, 31, 0⟩
/-- `LSC_RES`, R219 of 07_solver_lanes. -/
abbrev Adr.LSC_RES : Nat := 45064
abbrev Fld.LSC_RES_BANK : RF := ⟨Adr.LSC_RES, 29, 24⟩
/-- `LSC_TSTAT`, R219 of 07_solver_lanes. -/
abbrev Adr.LSC_TSTAT : Nat := 45065
abbrev Fld.LSC_TSTAT_PRED_LAST : RF := ⟨Adr.LSC_TSTAT, 31, 16⟩
abbrev Fld.LSC_TSTAT_ACT_LAST : RF := ⟨Adr.LSC_TSTAT, 15, 0⟩
/-- `LSC_PLACE`, R219 of 07_solver_lanes. -/
abbrev Adr.LSC_PLACE : Nat := 45066
abbrev Fld.LSC_PLACE_JOBS : RF := ⟨Adr.LSC_PLACE, 31, 24⟩
abbrev Fld.LSC_PLACE_PLACED : RF := ⟨Adr.LSC_PLACE, 23, 16⟩
abbrev Fld.LSC_PLACE_DEFERRED : RF := ⟨Adr.LSC_PLACE, 15, 8⟩
abbrev Fld.LSC_PLACE_REFUSED : RF := ⟨Adr.LSC_PLACE, 7, 0⟩
/-- `LSC_DL_CNT`, R219 of 07_solver_lanes. -/
abbrev Adr.LSC_DL_CNT : Nat := 45067
abbrev Fld.LSC_DL_CNT_SAT : RF := ⟨Adr.LSC_DL_CNT, 31, 31⟩
abbrev Fld.LSC_DL_CNT_COUNT : RF := ⟨Adr.LSC_DL_CNT, 30, 0⟩
/-- `LSC_RHO_CUR`, R219 of 07_solver_lanes. -/
abbrev Adr.LSC_RHO_CUR : Nat := 45068
abbrev Fld.LSC_RHO_CUR_EXP : RF := ⟨Adr.LSC_RHO_CUR, 7, 0⟩
/-- `LSC_MEM_NEED`, R219 of 07_solver_lanes. -/
abbrev Adr.LSC_MEM_NEED : Nat := 45069
abbrev Fld.LSC_MEM_NEED_BYTES : RF := ⟨Adr.LSC_MEM_NEED, 19, 0⟩
/-- `LSC_VSUM`, R219 of 07_solver_lanes. -/
abbrev Adr.LSC_VSUM : Nat := 45070
abbrev Fld.LSC_VSUM_FAILS : RF := ⟨Adr.LSC_VSUM, 26, 18⟩
abbrev Fld.LSC_VSUM_UNKNOWN : RF := ⟨Adr.LSC_VSUM, 17, 9⟩
abbrev Fld.LSC_VSUM_HOLDS : RF := ⟨Adr.LSC_VSUM, 8, 0⟩
/-- `LSC_VAGE`, R219 of 07_solver_lanes. -/
abbrev Adr.LSC_VAGE : Nat := 45071
abbrev Fld.LSC_VAGE_MAX_AGE : RF := ⟨Adr.LSC_VAGE, 15, 0⟩
/-- `LSC_BUDGET`, R219 of 07_solver_lanes. -/
abbrev Adr.LSC_BUDGET : Nat := 45089
abbrev Fld.LSC_BUDGET_ALPHA : RF := ⟨Adr.LSC_BUDGET, 25, 24⟩
abbrev Fld.LSC_BUDGET_EARLY_SC : RF := ⟨Adr.LSC_BUDGET, 17, 17⟩
abbrev Fld.LSC_BUDGET_EARLY_BW : RF := ⟨Adr.LSC_BUDGET, 16, 16⟩
abbrev Fld.LSC_BUDGET_K_SC : RF := ⟨Adr.LSC_BUDGET, 15, 8⟩
abbrev Fld.LSC_BUDGET_K_BW : RF := ⟨Adr.LSC_BUDGET, 7, 0⟩
/-- `LSC_RHO`, R219 of 07_solver_lanes. -/
abbrev Adr.LSC_RHO : Nat := 45090
abbrev Fld.LSC_RHO_ADAPT : RF := ⟨Adr.LSC_RHO, 24, 24⟩
abbrev Fld.LSC_RHO_MAX : RF := ⟨Adr.LSC_RHO, 23, 16⟩
abbrev Fld.LSC_RHO_MIN : RF := ⟨Adr.LSC_RHO, 15, 8⟩
abbrev Fld.LSC_RHO_INIT : RF := ⟨Adr.LSC_RHO, 7, 0⟩
/-- `LSC_NUM`, R219 of 07_solver_lanes. -/
abbrev Adr.LSC_NUM : Nat := 45091
abbrev Fld.LSC_NUM_TAU : RF := ⟨Adr.LSC_NUM, 13, 8⟩
abbrev Fld.LSC_NUM_SIGMA : RF := ⟨Adr.LSC_NUM, 5, 0⟩
/-- `LSC_EPS`, R219 of 07_solver_lanes. -/
abbrev Adr.LSC_EPS : Nat := 45092
abbrev Fld.LSC_EPS_VALUE : RF := ⟨Adr.LSC_EPS, 31, 0⟩
/-- `LSC_EPS_INF`, R219 of 07_solver_lanes. -/
abbrev Adr.LSC_EPS_INF : Nat := 45093
abbrev Fld.LSC_EPS_INF_VALUE : RF := ⟨Adr.LSC_EPS_INF, 31, 0⟩
/-- `LSC_ACC_RP`, R219 of 07_solver_lanes. -/
abbrev Adr.LSC_ACC_RP : Nat := 45094
abbrev Fld.LSC_ACC_RP_VALUE : RF := ⟨Adr.LSC_ACC_RP, 31, 0⟩
/-- `LSC_ACC_RD`, R219 of 07_solver_lanes. -/
abbrev Adr.LSC_ACC_RD : Nat := 45095
abbrev Fld.LSC_ACC_RD_VALUE : RF := ⟨Adr.LSC_ACC_RD, 31, 0⟩
/-- `LSC_POOL`, R219 of 07_solver_lanes. -/
abbrev Adr.LSC_POOL : Nat := 45096
abbrev Fld.LSC_POOL_LIMIT : RF := ⟨Adr.LSC_POOL, 6, 0⟩
/-- `LSC_LANE_OUT`, R219 of 07_solver_lanes. -/
abbrev Adr.LSC_LANE_OUT (i : Nat) : Nat := 45097 + i
abbrev Fld.LSC_LANE_OUT_OUT (i : Nat) : RF := ⟨Adr.LSC_LANE_OUT i, 31, 0⟩
/-- `LSC_LSQ`, R219 of 07_solver_lanes. -/
abbrev Adr.LSC_LSQ : Nat := 45100
abbrev Fld.LSC_LSQ_CAL_TOL : RF := ⟨Adr.LSC_LSQ, 23, 16⟩
abbrev Fld.LSC_LSQ_FIX_TOL : RF := ⟨Adr.LSC_LSQ, 15, 8⟩
abbrev Fld.LSC_LSQ_HUBER : RF := ⟨Adr.LSC_LSQ, 7, 0⟩
/-- `LSC_VSLACK_NE`, R219 of 07_solver_lanes. -/
abbrev Adr.LSC_VSLACK_NE : Nat := 45101
abbrev Fld.LSC_VSLACK_NE_VALUE : RF := ⟨Adr.LSC_VSLACK_NE, 31, 0⟩
/-- `LSC_VSLACK_H`, R219 of 07_solver_lanes. -/
abbrev Adr.LSC_VSLACK_H : Nat := 45102
abbrev Fld.LSC_VSLACK_H_VALUE : RF := ⟨Adr.LSC_VSLACK_H, 31, 0⟩
/-- `LSC_VERDICT`, R219 of 07_solver_lanes. -/
abbrev Adr.LSC_VERDICT : Nat := 45103
abbrev Fld.LSC_VERDICT_UE_RUN : RF := ⟨Adr.LSC_VERDICT, 15, 8⟩
abbrev Fld.LSC_VERDICT_MAX_AGE : RF := ⟨Adr.LSC_VERDICT, 7, 0⟩
/-- `LAN_STATUS`, R219 of 07_solver_lanes. -/
abbrev Adr.LAN_STATUS (l : Nat) : Nat := (47 + l) * 1024 + 8
abbrev Fld.LAN_STATUS_PHASE (l : Nat) : RF := ⟨Adr.LAN_STATUS l, 31, 29⟩
abbrev Fld.LAN_STATUS_OUT (l : Nat) : RF := ⟨Adr.LAN_STATUS l, 28, 28⟩
abbrev Fld.LAN_STATUS_KIND (l : Nat) : RF := ⟨Adr.LAN_STATUS l, 27, 25⟩
abbrev Fld.LAN_STATUS_ITER (l : Nat) : RF := ⟨Adr.LAN_STATUS l, 15, 0⟩
/-- `LAN_LAST`, R219 of 07_solver_lanes. -/
abbrev Adr.LAN_LAST (l : Nat) : Nat := (47 + l) * 1024 + 9
abbrev Fld.LAN_LAST_STATUS (l : Nat) : RF := ⟨Adr.LAN_LAST l, 31, 28⟩
abbrev Fld.LAN_LAST_REASON (l : Nat) : RF := ⟨Adr.LAN_LAST l, 27, 24⟩
abbrev Fld.LAN_LAST_FLAGS (l : Nat) : RF := ⟨Adr.LAN_LAST l, 15, 0⟩
/-- `LAN_ECC`, R219 of 07_solver_lanes. -/
abbrev Adr.LAN_ECC (l : Nat) : Nat := (47 + l) * 1024 + 10
abbrev Fld.LAN_ECC_CE_SAT (l : Nat) : RF := ⟨Adr.LAN_ECC l, 31, 31⟩
abbrev Fld.LAN_ECC_CE (l : Nat) : RF := ⟨Adr.LAN_ECC l, 30, 16⟩
abbrev Fld.LAN_ECC_UE_SAT (l : Nat) : RF := ⟨Adr.LAN_ECC l, 15, 15⟩
abbrev Fld.LAN_ECC_UE (l : Nat) : RF := ⟨Adr.LAN_ECC l, 14, 0⟩
/-- `LAN_UE_RUN`, R219 of 07_solver_lanes. -/
abbrev Adr.LAN_UE_RUN (l : Nat) : Nat := (47 + l) * 1024 + 11
abbrev Fld.LAN_UE_RUN_RUN (l : Nat) : RF := ⟨Adr.LAN_UE_RUN l, 7, 0⟩
/-- `LAN_JOBS`, R219 of 07_solver_lanes. -/
abbrev Adr.LAN_JOBS (l : Nat) : Nat := (47 + l) * 1024 + 12
abbrev Fld.LAN_JOBS_COUNT (l : Nat) : RF := ⟨Adr.LAN_JOBS l, 31, 0⟩
/-- `CLE_MODE`, R241 of 08_control_engine. -/
abbrev Adr.CLE_MODE : Nat := 28680
abbrev Fld.CLE_MODE_CUR : RF := ⟨Adr.CLE_MODE, 31, 30⟩
abbrev Fld.CLE_MODE_GRAZING : RF := ⟨Adr.CLE_MODE, 29, 29⟩
abbrev Fld.CLE_MODE_REQ : RF := ⟨Adr.CLE_MODE, 28, 28⟩
/-- `CLE_FENCE_STAT`, R241 of 08_control_engine. -/
abbrev Adr.CLE_FENCE_STAT : Nat := 28682
abbrev Fld.CLE_FENCE_STAT_INSIDE : RF := ⟨Adr.CLE_FENCE_STAT, 22, 20⟩
abbrev Fld.CLE_FENCE_STAT_OUTSIDE : RF := ⟨Adr.CLE_FENCE_STAT, 18, 16⟩
abbrev Fld.CLE_FENCE_STAT_DWELL_CNT : RF := ⟨Adr.CLE_FENCE_STAT, 15, 0⟩
/-- `CLE_FENCE_ERR`, R241 of 08_control_engine. -/
abbrev Adr.CLE_FENCE_ERR (i : Nat) : Nat := 28684 + i
abbrev Fld.CLE_FENCE_ERR_COUNT (i : Nat) : RF := ⟨Adr.CLE_FENCE_ERR i, 31, 0⟩
/-- `CLE_FENCE_IN`, R241 of 08_control_engine. -/
abbrev Adr.CLE_FENCE_IN (i : Nat) : Nat := 28688 + i
abbrev Fld.CLE_FENCE_IN_COUNT (i : Nat) : RF := ⟨Adr.CLE_FENCE_IN i, 31, 0⟩
/-- `CLE_FENCE_OUT`, R241 of 08_control_engine. -/
abbrev Adr.CLE_FENCE_OUT (i : Nat) : Nat := 28692 + i
abbrev Fld.CLE_FENCE_OUT_COUNT (i : Nat) : RF := ⟨Adr.CLE_FENCE_OUT i, 31, 0⟩
/-- `CLE_TRAJ_STAT`, R241 of 08_control_engine. -/
abbrev Adr.CLE_TRAJ_STAT : Nat := 28695
abbrev Fld.CLE_TRAJ_STAT_VALID : RF := ⟨Adr.CLE_TRAJ_STAT, 31, 31⟩
abbrev Fld.CLE_TRAJ_STAT_END : RF := ⟨Adr.CLE_TRAJ_STAT, 30, 30⟩
abbrev Fld.CLE_TRAJ_STAT_STEP : RF := ⟨Adr.CLE_TRAJ_STAT, 4, 0⟩
/-- `CLE_COMMIT`, R241 of 08_control_engine. -/
abbrev Adr.CLE_COMMIT : Nat := 28704
abbrev Fld.CLE_COMMIT_GEN : RF := ⟨Adr.CLE_COMMIT, 31, 16⟩
abbrev Fld.CLE_COMMIT_AT : RF := ⟨Adr.CLE_COMMIT, 7, 6⟩
abbrev Fld.CLE_COMMIT_BEAT : RF := ⟨Adr.CLE_COMMIT, 5, 0⟩
/-- `CLE_MODE_REQ`, R241 of 08_control_engine. -/
abbrev Adr.CLE_MODE_REQ : Nat := 28705
abbrev Fld.CLE_MODE_REQ_GRAZE_EN : RF := ⟨Adr.CLE_MODE_REQ, 1, 1⟩
abbrev Fld.CLE_MODE_REQ_AUTO : RF := ⟨Adr.CLE_MODE_REQ, 0, 0⟩
/-- `CLE_FENCE_DWELL`, R241 of 08_control_engine. -/
abbrev Adr.CLE_FENCE_DWELL : Nat := 28706
abbrev Fld.CLE_FENCE_DWELL_FRAMES : RF := ⟨Adr.CLE_FENCE_DWELL, 15, 0⟩
/-- `CLE_FENCE_CFG`, R241 of 08_control_engine. -/
abbrev Adr.CLE_FENCE_CFG : Nat := 28707
abbrev Fld.CLE_FENCE_CFG_NE_EXP : RF := ⟨Adr.CLE_FENCE_CFG, 12, 8⟩
abbrev Fld.CLE_FENCE_CFG_H_EXP : RF := ⟨Adr.CLE_FENCE_CFG, 4, 0⟩
/-- `CLE_HELM`, R241 of 08_control_engine. -/
abbrev Adr.CLE_HELM (i : Nat) : Nat := 28736 + i
abbrev Fld.CLE_HELM_AZR_EN (i : Nat) : RF := ⟨Adr.CLE_HELM i, 23, 23⟩
abbrev Fld.CLE_HELM_AZR_SLOT (i : Nat) : RF := ⟨Adr.CLE_HELM i, 21, 16⟩
abbrev Fld.CLE_HELM_THR_EN (i : Nat) : RF := ⟨Adr.CLE_HELM i, 15, 15⟩
abbrev Fld.CLE_HELM_THR_SLOT (i : Nat) : RF := ⟨Adr.CLE_HELM i, 13, 8⟩
abbrev Fld.CLE_HELM_AZ_EN (i : Nat) : RF := ⟨Adr.CLE_HELM i, 7, 7⟩
abbrev Fld.CLE_HELM_AZ_SP (i : Nat) : RF := ⟨Adr.CLE_HELM i, 6, 6⟩
abbrev Fld.CLE_HELM_AZ_SLOT (i : Nat) : RF := ⟨Adr.CLE_HELM i, 5, 0⟩
/-- `CLE_SLOT_CFG`, R241 of 08_control_engine. -/
abbrev Adr.CLE_SLOT_CFG (i : Nat) : Nat := (29 + i / 32) * 1024 + 64 + (i % 32) * 24
abbrev Fld.CLE_SLOT_CFG_EN (i : Nat) : RF := ⟨Adr.CLE_SLOT_CFG i, 31, 31⟩
abbrev Fld.CLE_SLOT_CFG_WRAP_E (i : Nat) : RF := ⟨Adr.CLE_SLOT_CFG i, 30, 30⟩
abbrev Fld.CLE_SLOT_CFG_BUMPLESS (i : Nat) : RF := ⟨Adr.CLE_SLOT_CFG i, 29, 29⟩
abbrev Fld.CLE_SLOT_CFG_STOP_SP (i : Nat) : RF := ⟨Adr.CLE_SLOT_CFG i, 28, 28⟩
abbrev Fld.CLE_SLOT_CFG_SP_MAN (i : Nat) : RF := ⟨Adr.CLE_SLOT_CFG i, 27, 24⟩
abbrev Fld.CLE_SLOT_CFG_SP_AUTO (i : Nat) : RF := ⟨Adr.CLE_SLOT_CFG i, 23, 20⟩
abbrev Fld.CLE_SLOT_CFG_PV_SRC (i : Nat) : RF := ⟨Adr.CLE_SLOT_CFG i, 19, 16⟩
/-- `CLE_SLOT_IDX`, R241 of 08_control_engine. -/
abbrev Adr.CLE_SLOT_IDX (i : Nat) : Nat := (29 + i / 32) * 1024 + 65 + (i % 32) * 24
abbrev Fld.CLE_SLOT_IDX_MAN_IDX (i : Nat) : RF := ⟨Adr.CLE_SLOT_IDX i, 23, 16⟩
abbrev Fld.CLE_SLOT_IDX_AUTO_IDX (i : Nat) : RF := ⟨Adr.CLE_SLOT_IDX i, 15, 8⟩
abbrev Fld.CLE_SLOT_IDX_PV_IDX (i : Nat) : RF := ⟨Adr.CLE_SLOT_IDX i, 7, 0⟩
/-- `CLE_SLOT_P`, R241 of 08_control_engine. -/
abbrev Adr.CLE_SLOT_P (i : Nat) : Nat := (29 + i / 32) * 1024 + 66 + (i % 32) * 24
abbrev Fld.CLE_SLOT_P_C (i : Nat) : RF := ⟨Adr.CLE_SLOT_P i, 31, 0⟩
/-- `CLE_SLOT_KI`, R241 of 08_control_engine. -/
abbrev Adr.CLE_SLOT_KI (i : Nat) : Nat := (29 + i / 32) * 1024 + 67 + (i % 32) * 24
abbrev Fld.CLE_SLOT_KI_C (i : Nat) : RF := ⟨Adr.CLE_SLOT_KI i, 31, 0⟩
/-- `CLE_SLOT_A`, R241 of 08_control_engine. -/
abbrev Adr.CLE_SLOT_A (i : Nat) : Nat := (29 + i / 32) * 1024 + 68 + (i % 32) * 24
abbrev Fld.CLE_SLOT_A_C (i : Nat) : RF := ⟨Adr.CLE_SLOT_A i, 31, 0⟩
/-- `CLE_SLOT_SHIFT`, R241 of 08_control_engine. -/
abbrev Adr.CLE_SLOT_SHIFT (i : Nat) : Nat := (29 + i / 32) * 1024 + 69 + (i % 32) * 24
abbrev Fld.CLE_SLOT_SHIFT_SH_P (i : Nat) : RF := ⟨Adr.CLE_SLOT_SHIFT i, 20, 16⟩
abbrev Fld.CLE_SLOT_SHIFT_SH_KI (i : Nat) : RF := ⟨Adr.CLE_SLOT_SHIFT i, 12, 8⟩
abbrev Fld.CLE_SLOT_SHIFT_SH_A (i : Nat) : RF := ⟨Adr.CLE_SLOT_SHIFT i, 4, 0⟩
/-- `CLE_SLOT_HYST_HI`, R241 of 08_control_engine. -/
abbrev Adr.CLE_SLOT_HYST_HI (i : Nat) : Nat := (29 + i / 32) * 1024 + 70 + (i % 32) * 24
abbrev Fld.CLE_SLOT_HYST_HI_TH (i : Nat) : RF := ⟨Adr.CLE_SLOT_HYST_HI i, 30, 0⟩
/-- `CLE_SLOT_HYST_LO`, R241 of 08_control_engine. -/
abbrev Adr.CLE_SLOT_HYST_LO (i : Nat) : Nat := (29 + i / 32) * 1024 + 71 + (i % 32) * 24
abbrev Fld.CLE_SLOT_HYST_LO_TH (i : Nat) : RF := ⟨Adr.CLE_SLOT_HYST_LO i, 30, 0⟩
/-- `CLE_SLOT_UMAX`, R241 of 08_control_engine. -/
abbrev Adr.CLE_SLOT_UMAX (i : Nat) : Nat := (29 + i / 32) * 1024 + 72 + (i % 32) * 24
abbrev Fld.CLE_SLOT_UMAX_VALUE (i : Nat) : RF := ⟨Adr.CLE_SLOT_UMAX i, 31, 0⟩
/-- `CLE_SLOT_UMIN`, R241 of 08_control_engine. -/
abbrev Adr.CLE_SLOT_UMIN (i : Nat) : Nat := (29 + i / 32) * 1024 + 73 + (i % 32) * 24
abbrev Fld.CLE_SLOT_UMIN_VALUE (i : Nat) : RF := ⟨Adr.CLE_SLOT_UMIN i, 31, 0⟩
/-- `CLE_SLOT_RATE`, R241 of 08_control_engine. -/
abbrev Adr.CLE_SLOT_RATE (i : Nat) : Nat := (29 + i / 32) * 1024 + 74 + (i % 32) * 24
abbrev Fld.CLE_SLOT_RATE_STEP (i : Nat) : RF := ⟨Adr.CLE_SLOT_RATE i, 30, 0⟩
/-- `CLE_SLOT_RAMP`, R241 of 08_control_engine. -/
abbrev Adr.CLE_SLOT_RAMP (i : Nat) : Nat := (29 + i / 32) * 1024 + 75 + (i % 32) * 24
abbrev Fld.CLE_SLOT_RAMP_STEP (i : Nat) : RF := ⟨Adr.CLE_SLOT_RAMP i, 30, 0⟩
/-- `CLE_SLOT_SPREG`, R241 of 08_control_engine. -/
abbrev Adr.CLE_SLOT_SPREG (i : Nat) : Nat := (29 + i / 32) * 1024 + 76 + (i % 32) * 24
abbrev Fld.CLE_SLOT_SPREG_VALUE (i : Nat) : RF := ⟨Adr.CLE_SLOT_SPREG i, 31, 0⟩
/-- `CLE_SLOT_PVREG`, R241 of 08_control_engine. -/
abbrev Adr.CLE_SLOT_PVREG (i : Nat) : Nat := (29 + i / 32) * 1024 + 77 + (i % 32) * 24
abbrev Fld.CLE_SLOT_PVREG_VALUE (i : Nat) : RF := ⟨Adr.CLE_SLOT_PVREG i, 31, 0⟩
/-- `CLE_SLOT_I_LO`, R241 of 08_control_engine. -/
abbrev Adr.CLE_SLOT_I_LO (i : Nat) : Nat := (29 + i / 32) * 1024 + 78 + (i % 32) * 24
abbrev Fld.CLE_SLOT_I_LO_VALUE (i : Nat) : RF := ⟨Adr.CLE_SLOT_I_LO i, 31, 0⟩
/-- `CLE_SLOT_I_HI`, R241 of 08_control_engine. -/
abbrev Adr.CLE_SLOT_I_HI (i : Nat) : Nat := (29 + i / 32) * 1024 + 79 + (i % 32) * 24
abbrev Fld.CLE_SLOT_I_HI_VALUE (i : Nat) : RF := ⟨Adr.CLE_SLOT_I_HI i, 31, 0⟩
/-- `CLE_SLOT_CTRL`, R241 of 08_control_engine. -/
abbrev Adr.CLE_SLOT_CTRL (i : Nat) : Nat := (29 + i / 32) * 1024 + 80 + (i % 32) * 24
abbrev Fld.CLE_SLOT_CTRL_I_LOAD (i : Nat) : RF := ⟨Adr.CLE_SLOT_CTRL i, 1, 1⟩
abbrev Fld.CLE_SLOT_CTRL_WLOCK (i : Nat) : RF := ⟨Adr.CLE_SLOT_CTRL i, 0, 0⟩
/-- `CLE_SLOT_OUT`, R241 of 08_control_engine. -/
abbrev Adr.CLE_SLOT_OUT (i : Nat) : Nat := (29 + i / 32) * 1024 + 81 + (i % 32) * 24
abbrev Fld.CLE_SLOT_OUT_VALUE (i : Nat) : RF := ⟨Adr.CLE_SLOT_OUT i, 31, 0⟩
/-- `CLE_SLOT_SP`, R241 of 08_control_engine. -/
abbrev Adr.CLE_SLOT_SP (i : Nat) : Nat := (29 + i / 32) * 1024 + 82 + (i % 32) * 24
abbrev Fld.CLE_SLOT_SP_VALUE (i : Nat) : RF := ⟨Adr.CLE_SLOT_SP i, 31, 0⟩
/-- `CLE_SLOT_ERR`, R241 of 08_control_engine. -/
abbrev Adr.CLE_SLOT_ERR (i : Nat) : Nat := (29 + i / 32) * 1024 + 83 + (i % 32) * 24
abbrev Fld.CLE_SLOT_ERR_VALUE (i : Nat) : RF := ⟨Adr.CLE_SLOT_ERR i, 31, 0⟩
/-- `CLE_SLOT_IST_LO`, R241 of 08_control_engine. -/
abbrev Adr.CLE_SLOT_IST_LO (i : Nat) : Nat := (29 + i / 32) * 1024 + 84 + (i % 32) * 24
abbrev Fld.CLE_SLOT_IST_LO_VALUE (i : Nat) : RF := ⟨Adr.CLE_SLOT_IST_LO i, 31, 0⟩
/-- `CLE_SLOT_IST_HI`, R241 of 08_control_engine. -/
abbrev Adr.CLE_SLOT_IST_HI (i : Nat) : Nat := (29 + i / 32) * 1024 + 85 + (i % 32) * 24
abbrev Fld.CLE_SLOT_IST_HI_VALUE (i : Nat) : RF := ⟨Adr.CLE_SLOT_IST_HI i, 31, 0⟩
/-- `CLE_SLOT_STAT`, R241 of 08_control_engine. -/
abbrev Adr.CLE_SLOT_STAT (i : Nat) : Nat := (29 + i / 32) * 1024 + 86 + (i % 32) * 24
abbrev Fld.CLE_SLOT_STAT_RELAY (i : Nat) : RF := ⟨Adr.CLE_SLOT_STAT i, 31, 30⟩
abbrev Fld.CLE_SLOT_STAT_USAT (i : Nat) : RF := ⟨Adr.CLE_SLOT_STAT i, 29, 29⟩
abbrev Fld.CLE_SLOT_STAT_RLIM (i : Nat) : RF := ⟨Adr.CLE_SLOT_STAT i, 28, 28⟩
abbrev Fld.CLE_SLOT_STAT_FROZEN (i : Nat) : RF := ⟨Adr.CLE_SLOT_STAT i, 27, 27⟩
abbrev Fld.CLE_SLOT_STAT_HELD (i : Nat) : RF := ⟨Adr.CLE_SLOT_STAT i, 26, 26⟩
abbrev Fld.CLE_SLOT_STAT_OVF (i : Nat) : RF := ⟨Adr.CLE_SLOT_STAT i, 25, 25⟩
abbrev Fld.CLE_SLOT_STAT_BUMP (i : Nat) : RF := ⟨Adr.CLE_SLOT_STAT i, 24, 24⟩
/-- `CMD_SEL`, R241 of 08_control_engine. -/
abbrev Adr.CMD_SEL : Nat := 153608
abbrev Fld.CMD_SEL_PLAYING : RF := ⟨Adr.CMD_SEL, 9, 9⟩
abbrev Fld.CMD_SEL_COMMITTED : RF := ⟨Adr.CMD_SEL, 8, 8⟩
abbrev Fld.CMD_SEL_BW_STATUS : RF := ⟨Adr.CMD_SEL, 6, 4⟩
abbrev Fld.CMD_SEL_SEL : RF := ⟨Adr.CMD_SEL, 0, 0⟩
/-- `CMD_NOCOMMIT_CNT`, R241 of 08_control_engine. -/
abbrev Adr.CMD_NOCOMMIT_CNT : Nat := 153609
abbrev Fld.CMD_NOCOMMIT_CNT_SAT : RF := ⟨Adr.CMD_NOCOMMIT_CNT, 31, 31⟩
abbrev Fld.CMD_NOCOMMIT_CNT_COUNT : RF := ⟨Adr.CMD_NOCOMMIT_CNT, 30, 0⟩
/-- `CMD_SETPT`, R241 of 08_control_engine. -/
abbrev Adr.CMD_SETPT (i : Nat) : Nat := 153664 + i
abbrev Fld.CMD_SETPT_THR (i : Nat) : RF := ⟨Adr.CMD_SETPT i, 31, 16⟩
abbrev Fld.CMD_SETPT_AZ (i : Nat) : RF := ⟨Adr.CMD_SETPT i, 15, 0⟩
/-- `CAN_MODE`, R268 of 09_can_fd_helm. -/
abbrev Adr.CAN_MODE (c : Nat) : Nat := (11 + c) * 1024 + 8
abbrev Fld.CAN_MODE_TDC_EN (c : Nat) : RF := ⟨Adr.CAN_MODE c, 11, 11⟩
abbrev Fld.CAN_MODE_AUTO_RECOV (c : Nat) : RF := ⟨Adr.CAN_MODE c, 10, 10⟩
abbrev Fld.CAN_MODE_BRS_EN (c : Nat) : RF := ⟨Adr.CAN_MODE c, 9, 9⟩
abbrev Fld.CAN_MODE_FD_EN (c : Nat) : RF := ⟨Adr.CAN_MODE c, 8, 8⟩
abbrev Fld.CAN_MODE_MODE (c : Nat) : RF := ⟨Adr.CAN_MODE c, 1, 0⟩
/-- `CAN_NBT`, R268 of 09_can_fd_helm. -/
abbrev Adr.CAN_NBT (c : Nat) : Nat := (11 + c) * 1024 + 9
abbrev Fld.CAN_NBT_NBRP (c : Nat) : RF := ⟨Adr.CAN_NBT c, 31, 24⟩
abbrev Fld.CAN_NBT_NTSEG1 (c : Nat) : RF := ⟨Adr.CAN_NBT c, 23, 16⟩
abbrev Fld.CAN_NBT_NTSEG2 (c : Nat) : RF := ⟨Adr.CAN_NBT c, 14, 8⟩
abbrev Fld.CAN_NBT_NSJW (c : Nat) : RF := ⟨Adr.CAN_NBT c, 6, 0⟩
/-- `CAN_DBT`, R268 of 09_can_fd_helm. -/
abbrev Adr.CAN_DBT (c : Nat) : Nat := (11 + c) * 1024 + 10
abbrev Fld.CAN_DBT_DBRP (c : Nat) : RF := ⟨Adr.CAN_DBT c, 28, 24⟩
abbrev Fld.CAN_DBT_DTSEG1 (c : Nat) : RF := ⟨Adr.CAN_DBT c, 20, 16⟩
abbrev Fld.CAN_DBT_DTSEG2 (c : Nat) : RF := ⟨Adr.CAN_DBT c, 11, 8⟩
abbrev Fld.CAN_DBT_DSJW (c : Nat) : RF := ⟨Adr.CAN_DBT c, 3, 0⟩
/-- `CAN_TDC`, R268 of 09_can_fd_helm. -/
abbrev Adr.CAN_TDC (c : Nat) : Nat := (11 + c) * 1024 + 11
abbrev Fld.CAN_TDC_TDCO (c : Nat) : RF := ⟨Adr.CAN_TDC c, 22, 16⟩
abbrev Fld.CAN_TDC_TDCV (c : Nat) : RF := ⟨Adr.CAN_TDC c, 6, 0⟩
/-- `CAN_ECNT`, R268 of 09_can_fd_helm. -/
abbrev Adr.CAN_ECNT (c : Nat) : Nat := (11 + c) * 1024 + 12
abbrev Fld.CAN_ECNT_STATE (c : Nat) : RF := ⟨Adr.CAN_ECNT c, 31, 30⟩
abbrev Fld.CAN_ECNT_TEC (c : Nat) : RF := ⟨Adr.CAN_ECNT c, 16, 8⟩
abbrev Fld.CAN_ECNT_REC (c : Nat) : RF := ⟨Adr.CAN_ECNT c, 7, 0⟩
/-- `CAN_BUS`, R268 of 09_can_fd_helm. -/
abbrev Adr.CAN_BUS (c : Nat) : Nat := (11 + c) * 1024 + 13
abbrev Fld.CAN_BUS_LONELY (c : Nat) : RF := ⟨Adr.CAN_BUS c, 31, 31⟩
abbrev Fld.CAN_BUS_IDLE (c : Nat) : RF := ⟨Adr.CAN_BUS c, 30, 30⟩
abbrev Fld.CAN_BUS_TX_BUSY (c : Nat) : RF := ⟨Adr.CAN_BUS c, 29, 29⟩
abbrev Fld.CAN_BUS_RX_BUSY (c : Nat) : RF := ⟨Adr.CAN_BUS c, 28, 28⟩
abbrev Fld.CAN_BUS_LEC (c : Nat) : RF := ⟨Adr.CAN_BUS c, 27, 24⟩
abbrev Fld.CAN_BUS_ACK_RUN (c : Nat) : RF := ⟨Adr.CAN_BUS c, 7, 0⟩
/-- `CAN_DUP`, R268 of 09_can_fd_helm. -/
abbrev Adr.CAN_DUP (c : Nat) : Nat := (11 + c) * 1024 + 14
abbrev Fld.CAN_DUP_VALID (c : Nat) : RF := ⟨Adr.CAN_DUP c, 31, 31⟩
abbrev Fld.CAN_DUP_IDE (c : Nat) : RF := ⟨Adr.CAN_DUP c, 30, 30⟩
abbrev Fld.CAN_DUP_ID (c : Nat) : RF := ⟨Adr.CAN_DUP c, 28, 0⟩
/-- `CAN_CNT_A`, R268 of 09_can_fd_helm. -/
abbrev Adr.CAN_CNT_A (c : Nat) : Nat := (11 + c) * 1024 + 15
abbrev Fld.CAN_CNT_A_ERRORS (c : Nat) : RF := ⟨Adr.CAN_CNT_A c, 31, 16⟩
abbrev Fld.CAN_CNT_A_RXF_LOST (c : Nat) : RF := ⟨Adr.CAN_CNT_A c, 15, 0⟩
/-- `CAN_CNT_B`, R268 of 09_can_fd_helm. -/
abbrev Adr.CAN_CNT_B (c : Nat) : Nat := (11 + c) * 1024 + 16
abbrev Fld.CAN_CNT_B_TX_OK (c : Nat) : RF := ⟨Adr.CAN_CNT_B c, 31, 16⟩
abbrev Fld.CAN_CNT_B_RX_OK (c : Nat) : RF := ⟨Adr.CAN_CNT_B c, 15, 0⟩
/-- `CAN_FLAGS`, R268 of 09_can_fd_helm. -/
abbrev Adr.CAN_FLAGS (c : Nat) : Nat := (11 + c) * 1024 + 17
abbrev Fld.CAN_FLAGS_CFG_REF (c : Nat) : RF := ⟨Adr.CAN_FLAGS c, 3, 3⟩
abbrev Fld.CAN_FLAGS_ERR_SAT (c : Nat) : RF := ⟨Adr.CAN_FLAGS c, 2, 2⟩
abbrev Fld.CAN_FLAGS_LOST_SAT (c : Nat) : RF := ⟨Adr.CAN_FLAGS c, 1, 1⟩
abbrev Fld.CAN_FLAGS_TXQ_FULL (c : Nat) : RF := ⟨Adr.CAN_FLAGS c, 0, 0⟩
/-- `CAN_TXQ`, R268 of 09_can_fd_helm. -/
abbrev Adr.CAN_TXQ (c : Nat) : Nat := (11 + c) * 1024 + 18
abbrev Fld.CAN_TXQ_FREE (c : Nat) : RF := ⟨Adr.CAN_TXQ c, 5, 0⟩
/-- `CAN_TXQ_ABORT`, R268 of 09_can_fd_helm. -/
abbrev Adr.CAN_TXQ_ABORT (c : Nat) : Nat := (11 + c) * 1024 + 19
abbrev Fld.CAN_TXQ_ABORT_ALL (c : Nat) : RF := ⟨Adr.CAN_TXQ_ABORT c, 31, 31⟩
abbrev Fld.CAN_TXQ_ABORT_HANDLE (c : Nat) : RF := ⟨Adr.CAN_TXQ_ABORT c, 4, 0⟩
/-- `CAN_RXF`, R268 of 09_can_fd_helm. -/
abbrev Adr.CAN_RXF (c : Nat) : Nat := (11 + c) * 1024 + 20
abbrev Fld.CAN_RXF_FILL (c : Nat) : RF := ⟨Adr.CAN_RXF c, 6, 0⟩
/-- `CAN_RXF_POP`, R268 of 09_can_fd_helm. -/
abbrev Adr.CAN_RXF_POP (c : Nat) : Nat := (11 + c) * 1024 + 21
abbrev Fld.CAN_RXF_POP_POP (c : Nat) : RF := ⟨Adr.CAN_RXF_POP c, 31, 0⟩
/-- `CAN_PB_STAT`, R268 of 09_can_fd_helm. -/
abbrev Adr.CAN_PB_STAT (c : Nat) : Nat := (11 + c) * 1024 + 22
abbrev Fld.CAN_PB_STAT_OVWR (c : Nat) : RF := ⟨Adr.CAN_PB_STAT c, 15, 8⟩
abbrev Fld.CAN_PB_STAT_FULL (c : Nat) : RF := ⟨Adr.CAN_PB_STAT c, 7, 0⟩
/-- `CAN_PB_REL`, R268 of 09_can_fd_helm. -/
abbrev Adr.CAN_PB_REL (c : Nat) : Nat := (11 + c) * 1024 + 23
abbrev Fld.CAN_PB_REL_REL (c : Nat) : RF := ⟨Adr.CAN_PB_REL c, 7, 0⟩
/-- `CAN_PB`, R268 of 09_can_fd_helm. -/
abbrev Adr.CAN_PB (c i j : Nat) : Nat := (11 + c) * 1024 + 64 + i * 20 + j
abbrev Fld.CAN_PB_REC (c i j : Nat) : RF := ⟨Adr.CAN_PB c i j, 31, 0⟩
/-- `CAN_RXF_HEAD`, R268 of 09_can_fd_helm. -/
abbrev Adr.CAN_RXF_HEAD (c i : Nat) : Nat := (11 + c) * 1024 + 224 + i
abbrev Fld.CAN_RXF_HEAD_REC (c i : Nat) : RF := ⟨Adr.CAN_RXF_HEAD c i, 31, 0⟩
/-- `CAN_FLT_ID`, R268 of 09_can_fd_helm. -/
abbrev Adr.CAN_FLT_ID (c i : Nat) : Nat := (11 + c) * 1024 + 256 + i * 2
abbrev Fld.CAN_FLT_ID_EN (c i : Nat) : RF := ⟨Adr.CAN_FLT_ID c i, 31, 31⟩
abbrev Fld.CAN_FLT_ID_IDE (c i : Nat) : RF := ⟨Adr.CAN_FLT_ID c i, 30, 30⟩
abbrev Fld.CAN_FLT_ID_REJECT (c i : Nat) : RF := ⟨Adr.CAN_FLT_ID c i, 29, 29⟩
abbrev Fld.CAN_FLT_ID_ID (c i : Nat) : RF := ⟨Adr.CAN_FLT_ID c i, 28, 0⟩
/-- `CAN_FLT_MASK`, R268 of 09_can_fd_helm. -/
abbrev Adr.CAN_FLT_MASK (c i : Nat) : Nat := (11 + c) * 1024 + 257 + i * 2
abbrev Fld.CAN_FLT_MASK_MASK (c i : Nat) : RF := ⟨Adr.CAN_FLT_MASK c i, 28, 0⟩
/-- `CAN_TXW`, R268 of 09_can_fd_helm. -/
abbrev Adr.CAN_TXW (c i : Nat) : Nat := (11 + c) * 1024 + 512 + i
abbrev Fld.CAN_TXW_REC (c i : Nat) : RF := ⟨Adr.CAN_TXW c i, 31, 0⟩
/-- `CAN_TXW_PUSH`, R268 of 09_can_fd_helm. -/
abbrev Adr.CAN_TXW_PUSH (c : Nat) : Nat := (11 + c) * 1024 + 532
abbrev Fld.CAN_TXW_PUSH_PUSH (c : Nat) : RF := ⟨Adr.CAN_TXW_PUSH c, 31, 0⟩
/-- `CAN_TXW_RESULT`, R268 of 09_can_fd_helm. -/
abbrev Adr.CAN_TXW_RESULT (c : Nat) : Nat := (11 + c) * 1024 + 533
abbrev Fld.CAN_TXW_RESULT_OK (c : Nat) : RF := ⟨Adr.CAN_TXW_RESULT c, 31, 31⟩
abbrev Fld.CAN_TXW_RESULT_CODE (c : Nat) : RF := ⟨Adr.CAN_TXW_RESULT c, 10, 8⟩
abbrev Fld.CAN_TXW_RESULT_HANDLE (c : Nat) : RF := ⟨Adr.CAN_TXW_RESULT c, 4, 0⟩
/-- `CAN_TXE_STAT`, R268 of 09_can_fd_helm. -/
abbrev Adr.CAN_TXE_STAT (c i : Nat) : Nat := (11 + c) * 1024 + 536 + i
abbrev Fld.CAN_TXE_STAT_STATE (c i : Nat) : RF := ⟨Adr.CAN_TXE_STAT c i, 1, 0⟩
/-- `CAN_TXE_TS`, R268 of 09_can_fd_helm. -/
abbrev Adr.CAN_TXE_TS (c i : Nat) : Nat := (11 + c) * 1024 + 568 + i
abbrev Fld.CAN_TXE_TS_TS (c i : Nat) : RF := ⟨Adr.CAN_TXE_TS c i, 31, 0⟩
/-- `CAN_TS`, R268 of 09_can_fd_helm. -/
abbrev Adr.CAN_TS : Nat := 19464
abbrev Fld.CAN_TS_COUNT : RF := ⟨Adr.CAN_TS, 31, 0⟩
/-- `CAN_HELM_CFG`, R268 of 09_can_fd_helm. -/
abbrev Adr.CAN_HELM_CFG : Nat := 19465
abbrev Fld.CAN_HELM_CFG_INST : RF := ⟨Adr.CAN_HELM_CFG, 31, 20⟩
abbrev Fld.CAN_HELM_CFG_EN : RF := ⟨Adr.CAN_HELM_CFG, 8, 8⟩
abbrev Fld.CAN_HELM_CFG_FB_TMO : RF := ⟨Adr.CAN_HELM_CFG, 7, 0⟩
/-- `CAN_HELM_MAP`, R268 of 09_can_fd_helm. -/
abbrev Adr.CAN_HELM_MAP (i : Nat) : Nat := 19520 + i * 2
abbrev Fld.CAN_HELM_MAP_EN (i : Nat) : RF := ⟨Adr.CAN_HELM_MAP i, 31, 31⟩
abbrev Fld.CAN_HELM_MAP_CTRL (i : Nat) : RF := ⟨Adr.CAN_HELM_MAP i, 26, 24⟩
abbrev Fld.CAN_HELM_MAP_PR_EN (i : Nat) : RF := ⟨Adr.CAN_HELM_MAP i, 23, 23⟩
abbrev Fld.CAN_HELM_MAP_PR_SLOT (i : Nat) : RF := ⟨Adr.CAN_HELM_MAP i, 21, 16⟩
/-- `CAN_HELM_LIM`, R268 of 09_can_fd_helm. -/
abbrev Adr.CAN_HELM_LIM (i : Nat) : Nat := 19521 + i * 2
abbrev Fld.CAN_HELM_LIM_AZR_LIM (i : Nat) : RF := ⟨Adr.CAN_HELM_LIM i, 31, 16⟩
abbrev Fld.CAN_HELM_LIM_THR_RAMP (i : Nat) : RF := ⟨Adr.CAN_HELM_LIM i, 15, 0⟩
/-- `CAN_HELM_STAT`, R268 of 09_can_fd_helm. -/
abbrev Adr.CAN_HELM_STAT (i : Nat) : Nat := 19584 + i
abbrev Fld.CAN_HELM_STAT_SEQ (i : Nat) : RF := ⟨Adr.CAN_HELM_STAT i, 31, 24⟩
abbrev Fld.CAN_HELM_STAT_MISS_SAT (i : Nat) : RF := ⟨Adr.CAN_HELM_STAT i, 16, 16⟩
abbrev Fld.CAN_HELM_STAT_MISS (i : Nat) : RF := ⟨Adr.CAN_HELM_STAT i, 15, 0⟩
/-- `CAN_FB`, R268 of 09_can_fd_helm. -/
abbrev Adr.CAN_FB (i j : Nat) : Nat := 19648 + i * 8 + j
abbrev Fld.CAN_FB_WORD (i j : Nat) : RF := ⟨Adr.CAN_FB i j, 31, 0⟩
/-- `CAN_FB_STAT`, R268 of 09_can_fd_helm. -/
abbrev Adr.CAN_FB_STAT (i : Nat) : Nat := 19840 + i
abbrev Fld.CAN_FB_STAT_VALID (i : Nat) : RF := ⟨Adr.CAN_FB_STAT i, 31, 31⟩
abbrev Fld.CAN_FB_STAT_STALE (i : Nat) : RF := ⟨Adr.CAN_FB_STAT i, 30, 30⟩
abbrev Fld.CAN_FB_STAT_BAD_SAT (i : Nat) : RF := ⟨Adr.CAN_FB_STAT i, 29, 29⟩
abbrev Fld.CAN_FB_STAT_BAD (i : Nat) : RF := ⟨Adr.CAN_FB_STAT i, 23, 16⟩
abbrev Fld.CAN_FB_STAT_AGE (i : Nat) : RF := ⟨Adr.CAN_FB_STAT i, 15, 0⟩
/-- `FIO_STATUS`, R284 of 10_field_io. -/
abbrev Adr.FIO_STATUS : Nat := 154627
abbrev Fld.FIO_STATUS_FAULT : RF := ⟨Adr.FIO_STATUS, 31, 31⟩
abbrev Fld.FIO_STATUS_LINK : RF := ⟨Adr.FIO_STATUS, 30, 30⟩
abbrev Fld.FIO_STATUS_WD_TRIP : RF := ⟨Adr.FIO_STATUS, 29, 29⟩
abbrev Fld.FIO_STATUS_QUIET : RF := ⟨Adr.FIO_STATUS, 1, 1⟩
abbrev Fld.FIO_STATUS_BUSY : RF := ⟨Adr.FIO_STATUS, 0, 0⟩
/-- `FIO_CFG`, R284 of 10_field_io. -/
abbrev Adr.FIO_CFG : Nat := 154632
abbrev Fld.FIO_CFG_EN : RF := ⟨Adr.FIO_CFG, 31, 31⟩
abbrev Fld.FIO_CFG_BLANK : RF := ⟨Adr.FIO_CFG, 11, 8⟩
abbrev Fld.FIO_CFG_WD_MS : RF := ⟨Adr.FIO_CFG, 7, 0⟩
/-- `FIO_WD_CLR`, R284 of 10_field_io. -/
abbrev Adr.FIO_WD_CLR : Nat := 154633
abbrev Fld.FIO_WD_CLR_CLR : RF := ⟨Adr.FIO_WD_CLR, 0, 0⟩
/-- `FIO_SNAP_CFG`, R284 of 10_field_io. -/
abbrev Adr.FIO_SNAP_CFG : Nat := 154634
abbrev Fld.FIO_SNAP_CFG_EN : RF := ⟨Adr.FIO_SNAP_CFG, 31, 31⟩
abbrev Fld.FIO_SNAP_CFG_OFS : RF := ⟨Adr.FIO_SNAP_CFG, 11, 0⟩
/-- `FIO_DI_STATE`, R284 of 10_field_io. -/
abbrev Adr.FIO_DI_STATE : Nat := 154635
abbrev Fld.FIO_DI_STATE_DI : RF := ⟨Adr.FIO_DI_STATE, 15, 0⟩
/-- `FIO_DO_CMD`, R284 of 10_field_io. -/
abbrev Adr.FIO_DO_CMD : Nat := 154636
abbrev Fld.FIO_DO_CMD_DO : RF := ⟨Adr.FIO_DO_CMD, 15, 0⟩
/-- `FIO_COMMIT`, R284 of 10_field_io. -/
abbrev Adr.FIO_COMMIT : Nat := 154656
abbrev Fld.FIO_COMMIT_GEN : RF := ⟨Adr.FIO_COMMIT, 31, 16⟩
/-- `FIO_OUT`, R284 of 10_field_io. -/
abbrev Adr.FIO_OUT : Nat := 154657
abbrev Fld.FIO_OUT_DO : RF := ⟨Adr.FIO_OUT, 15, 0⟩
/-- `FIO_DI_CFG`, R284 of 10_field_io. -/
abbrev Adr.FIO_DI_CFG (i : Nat) : Nat := 154688 + i * 4
abbrev Fld.FIO_DI_CFG_TYPE (i : Nat) : RF := ⟨Adr.FIO_DI_CFG i, 31, 31⟩
abbrev Fld.FIO_DI_CFG_CNT_EN (i : Nat) : RF := ⟨Adr.FIO_DI_CFG i, 30, 30⟩
abbrev Fld.FIO_DI_CFG_GATE (i : Nat) : RF := ⟨Adr.FIO_DI_CFG i, 29, 24⟩
abbrev Fld.FIO_DI_CFG_FILT (i : Nat) : RF := ⟨Adr.FIO_DI_CFG i, 18, 16⟩
abbrev Fld.FIO_DI_CFG_FSCALE (i : Nat) : RF := ⟨Adr.FIO_DI_CFG i, 15, 0⟩
/-- `FIO_DI_CNT`, R284 of 10_field_io. -/
abbrev Adr.FIO_DI_CNT (i : Nat) : Nat := 154689 + i * 4
abbrev Fld.FIO_DI_CNT_COUNT (i : Nat) : RF := ⟨Adr.FIO_DI_CNT i, 31, 0⟩
/-- `FIO_DI_FREQ`, R284 of 10_field_io. -/
abbrev Adr.FIO_DI_FREQ (i : Nat) : Nat := 154690 + i * 4
abbrev Fld.FIO_DI_FREQ_VALUE (i : Nat) : RF := ⟨Adr.FIO_DI_FREQ i, 31, 0⟩
/-- `FIO_DO_CFG`, R284 of 10_field_io. -/
abbrev Adr.FIO_DO_CFG (i : Nat) : Nat := 154752 + i
abbrev Fld.FIO_DO_CFG_SHARED (i : Nat) : RF := ⟨Adr.FIO_DO_CFG i, 31, 31⟩
abbrev Fld.FIO_DO_CFG_SAFE (i : Nat) : RF := ⟨Adr.FIO_DO_CFG i, 30, 30⟩
abbrev Fld.FIO_DO_CFG_PAIRED (i : Nat) : RF := ⟨Adr.FIO_DO_CFG i, 29, 29⟩
/-- `SAF_CFG`, R305 of 11_safety_functions. -/
abbrev Adr.SAF_CFG : Nat := 155656
abbrev Fld.SAF_CFG_EN : RF := ⟨Adr.SAF_CFG, 31, 31⟩
abbrev Fld.SAF_CFG_OT_EN : RF := ⟨Adr.SAF_CFG, 30, 30⟩
abbrev Fld.SAF_CFG_RST_SRC : RF := ⟨Adr.SAF_CFG, 29, 29⟩
abbrev Fld.SAF_CFG_RST_DI : RF := ⟨Adr.SAF_CFG, 27, 24⟩
/-- `SAF_TP`, R305 of 11_safety_functions. -/
abbrev Adr.SAF_TP : Nat := 155657
abbrev Fld.SAF_TP_PERIOD : RF := ⟨Adr.SAF_TP, 31, 16⟩
abbrev Fld.SAF_TP_WIDTH : RF := ⟨Adr.SAF_TP, 15, 0⟩
/-- `SAF_TIMING`, R305 of 11_safety_functions. -/
abbrev Adr.SAF_TIMING : Nat := 155658
abbrev Fld.SAF_TIMING_TMAX : RF := ⟨Adr.SAF_TIMING, 31, 16⟩
abbrev Fld.SAF_TIMING_DWELL : RF := ⟨Adr.SAF_TIMING, 7, 0⟩
/-- `SAF_DISC`, R305 of 11_safety_functions. -/
abbrev Adr.SAF_DISC : Nat := 155659
abbrev Fld.SAF_DISC_DISC_MS : RF := ⟨Adr.SAF_DISC, 7, 0⟩
/-- `SAF_STATE`, R305 of 11_safety_functions. -/
abbrev Adr.SAF_STATE : Nat := 155660
abbrev Fld.SAF_STATE_PHASE : RF := ⟨Adr.SAF_STATE, 31, 29⟩
abbrev Fld.SAF_STATE_PARTNER_HELD : RF := ⟨Adr.SAF_STATE, 28, 28⟩
abbrev Fld.SAF_STATE_LINES : RF := ⟨Adr.SAF_STATE, 27, 24⟩
abbrev Fld.SAF_STATE_DI : RF := ⟨Adr.SAF_STATE, 23, 20⟩
abbrev Fld.SAF_STATE_OPEN_SEEN : RF := ⟨Adr.SAF_STATE, 19, 16⟩
abbrev Fld.SAF_STATE_TEST_DONE : RF := ⟨Adr.SAF_STATE, 15, 12⟩
abbrev Fld.SAF_STATE_DEMAND : RF := ⟨Adr.SAF_STATE, 11, 8⟩
abbrev Fld.SAF_STATE_AXIS_STO : RF := ⟨Adr.SAF_STATE, 7, 0⟩
/-- `SAF_DIAG`, R305 of 11_safety_functions. -/
abbrev Adr.SAF_DIAG : Nat := 155661
abbrev Fld.SAF_DIAG_LINE : RF := ⟨Adr.SAF_DIAG, 19, 16⟩
abbrev Fld.SAF_DIAG_INPUT : RF := ⟨Adr.SAF_DIAG, 11, 8⟩
abbrev Fld.SAF_DIAG_CODE_CRC : RF := ⟨Adr.SAF_DIAG, 6, 6⟩
abbrev Fld.SAF_DIAG_ECC_UE : RF := ⟨Adr.SAF_DIAG, 5, 5⟩
abbrev Fld.SAF_DIAG_SUBBEAT_OVR : RF := ⟨Adr.SAF_DIAG, 4, 4⟩
abbrev Fld.SAF_DIAG_TP_FAIL : RF := ⟨Adr.SAF_DIAG, 3, 3⟩
abbrev Fld.SAF_DIAG_DISCREP : RF := ⟨Adr.SAF_DIAG, 2, 2⟩
abbrev Fld.SAF_DIAG_READBACK_ON : RF := ⟨Adr.SAF_DIAG, 1, 1⟩
abbrev Fld.SAF_DIAG_READBACK_OFF : RF := ⟨Adr.SAF_DIAG, 0, 0⟩
/-- `SAF_REQ`, R305 of 11_safety_functions. -/
abbrev Adr.SAF_REQ : Nat := 155662
abbrev Fld.SAF_REQ_SS1 : RF := ⟨Adr.SAF_REQ, 0, 0⟩
/-- `SAF_RELEASE`, R305 of 11_safety_functions. -/
abbrev Adr.SAF_RELEASE : Nat := 155663
abbrev Fld.SAF_RELEASE_KEY : RF := ⟨Adr.SAF_RELEASE, 15, 0⟩
/-- `SAF_DEMAND_CNT`, R305 of 11_safety_functions. -/
abbrev Adr.SAF_DEMAND_CNT : Nat := 155664
abbrev Fld.SAF_DEMAND_CNT_SAT : RF := ⟨Adr.SAF_DEMAND_CNT, 31, 31⟩
abbrev Fld.SAF_DEMAND_CNT_COUNT : RF := ⟨Adr.SAF_DEMAND_CNT, 30, 0⟩
/-- `SAF_CRC_PASS`, R305 of 11_safety_functions. -/
abbrev Adr.SAF_CRC_PASS : Nat := 155665
abbrev Fld.SAF_CRC_PASS_COUNT : RF := ⟨Adr.SAF_CRC_PASS, 31, 0⟩
/-- `SAF_AXIS_FLAGS`, R305 of 11_safety_functions. -/
abbrev Adr.SAF_AXIS_FLAGS : Nat := 155666
abbrev Fld.SAF_AXIS_FLAGS_ENV : RF := ⟨Adr.SAF_AXIS_FLAGS, 15, 8⟩
abbrev Fld.SAF_AXIS_FLAGS_NOSPEED : RF := ⟨Adr.SAF_AXIS_FLAGS, 7, 0⟩
/-- `SAF_DI_CFG`, R305 of 11_safety_functions. -/
abbrev Adr.SAF_DI_CFG (i : Nat) : Nat := 155668 + i
abbrev Fld.SAF_DI_CFG_EN (i : Nat) : RF := ⟨Adr.SAF_DI_CFG i, 31, 31⟩
abbrev Fld.SAF_DI_CFG_KIND (i : Nat) : RF := ⟨Adr.SAF_DI_CFG i, 30, 30⟩
abbrev Fld.SAF_DI_CFG_FILT (i : Nat) : RF := ⟨Adr.SAF_DI_CFG i, 29, 28⟩
abbrev Fld.SAF_DI_CFG_TP (i : Nat) : RF := ⟨Adr.SAF_DI_CFG i, 27, 26⟩
abbrev Fld.SAF_DI_CFG_PAIR (i : Nat) : RF := ⟨Adr.SAF_DI_CFG i, 25, 25⟩
/-- `SAF_AXIS_CFG`, R305 of 11_safety_functions. -/
abbrev Adr.SAF_AXIS_CFG (i : Nat) : Nat := 155712 + i * 4
abbrev Fld.SAF_AXIS_CFG_EN (i : Nat) : RF := ⟨Adr.SAF_AXIS_CFG i, 31, 31⟩
abbrev Fld.SAF_AXIS_CFG_SRC (i : Nat) : RF := ⟨Adr.SAF_AXIS_CFG i, 30, 30⟩
abbrev Fld.SAF_AXIS_CFG_PULSE (i : Nat) : RF := ⟨Adr.SAF_AXIS_CFG i, 26, 24⟩
abbrev Fld.SAF_AXIS_CFG_LINE (i : Nat) : RF := ⟨Adr.SAF_AXIS_CFG i, 21, 20⟩
abbrev Fld.SAF_AXIS_CFG_THR (i : Nat) : RF := ⟨Adr.SAF_AXIS_CFG i, 12, 8⟩
/-- `SAF_AXIS_ENV`, R305 of 11_safety_functions. -/
abbrev Adr.SAF_AXIS_ENV (i : Nat) : Nat := 155713 + i * 4
abbrev Fld.SAF_AXIS_ENV_DECEL (i : Nat) : RF := ⟨Adr.SAF_AXIS_ENV i, 31, 16⟩
abbrev Fld.SAF_AXIS_ENV_MARGIN (i : Nat) : RF := ⟨Adr.SAF_AXIS_ENV i, 15, 0⟩
/-- `SAF_AXIS_LIM`, R305 of 11_safety_functions. -/
abbrev Adr.SAF_AXIS_LIM (i : Nat) : Nat := 155714 + i * 4
abbrev Fld.SAF_AXIS_LIM_STANDSTILL (i : Nat) : RF := ⟨Adr.SAF_AXIS_LIM i, 31, 16⟩
abbrev Fld.SAF_AXIS_LIM_PSCALE (i : Nat) : RF := ⟨Adr.SAF_AXIS_LIM i, 15, 0⟩
/-- `SAF_AXIS_STAT`, R305 of 11_safety_functions. -/
abbrev Adr.SAF_AXIS_STAT (i : Nat) : Nat := 155715 + i * 4
abbrev Fld.SAF_AXIS_STAT_V0 (i : Nat) : RF := ⟨Adr.SAF_AXIS_STAT i, 31, 16⟩
abbrev Fld.SAF_AXIS_STAT_SPEED (i : Nat) : RF := ⟨Adr.SAF_AXIS_STAT i, 15, 0⟩
/-- `PAR_CFG`, R345 of 12_pair_operation. -/
abbrev Adr.PAR_CFG : Nat := 152584
abbrev Fld.PAR_CFG_PAIR_EN : RF := ⟨Adr.PAR_CFG, 31, 31⟩
abbrev Fld.PAR_CFG_ALLOW_ALONE : RF := ⟨Adr.PAR_CFG, 30, 30⟩
abbrev Fld.PAR_CFG_MISS : RF := ⟨Adr.PAR_CFG, 29, 28⟩
abbrev Fld.PAR_CFG_UNIT : RF := ⟨Adr.PAR_CFG, 27, 27⟩
abbrev Fld.PAR_CFG_HELM_WIN : RF := ⟨Adr.PAR_CFG, 23, 16⟩
abbrev Fld.PAR_CFG_SEEK_TMO : RF := ⟨Adr.PAR_CFG, 15, 8⟩
abbrev Fld.PAR_CFG_LISTEN_MIN : RF := ⟨Adr.PAR_CFG, 7, 0⟩
/-- `PAR_CFG2`, R345 of 12_pair_operation. -/
abbrev Adr.PAR_CFG2 : Nat := 152585
abbrev Fld.PAR_CFG2_FLASH_PERIOD : RF := ⟨Adr.PAR_CFG2, 31, 26⟩
abbrev Fld.PAR_CFG2_MIRROR_AGE : RF := ⟨Adr.PAR_CFG2, 25, 16⟩
abbrev Fld.PAR_CFG2_HOLDOFF : RF := ⟨Adr.PAR_CFG2, 15, 8⟩
/-- `PAR_SBX`, R345 of 12_pair_operation. -/
abbrev Adr.PAR_SBX : Nat := 152586
abbrev Fld.PAR_SBX_DEV_BANK : RF := ⟨Adr.PAR_SBX, 29, 24⟩
abbrev Fld.PAR_SBX_STAGE_BANK : RF := ⟨Adr.PAR_SBX, 21, 16⟩
/-- `PAR_WATCH`, R345 of 12_pair_operation. -/
abbrev Adr.PAR_WATCH : Nat := 152587
abbrev Fld.PAR_WATCH_MASK : RF := ⟨Adr.PAR_WATCH, 23, 0⟩
/-- `PAR_STAT`, R345 of 12_pair_operation. -/
abbrev Adr.PAR_STAT : Nat := 152588
abbrev Fld.PAR_STAT_ROLE : RF := ⟨Adr.PAR_STAT, 31, 30⟩
abbrev Fld.PAR_STAT_TO_PHASE : RF := ⟨Adr.PAR_STAT, 29, 28⟩
abbrev Fld.PAR_STAT_ELIGIBLE : RF := ⟨Adr.PAR_STAT, 27, 27⟩
abbrev Fld.PAR_STAT_MIRROR_VALID : RF := ⟨Adr.PAR_STAT, 26, 26⟩
abbrev Fld.PAR_STAT_LINK : RF := ⟨Adr.PAR_STAT, 25, 24⟩
abbrev Fld.PAR_STAT_PARTNER_ON_CAN : RF := ⟨Adr.PAR_STAT, 23, 23⟩
abbrev Fld.PAR_STAT_CFG_MISMATCH : RF := ⟨Adr.PAR_STAT, 22, 22⟩
abbrev Fld.PAR_STAT_LAYOUT_MISMATCH : RF := ⟨Adr.PAR_STAT, 21, 21⟩
abbrev Fld.PAR_STAT_TIME_MISMATCH : RF := ⟨Adr.PAR_STAT, 20, 20⟩
abbrev Fld.PAR_STAT_FAULTY : RF := ⟨Adr.PAR_STAT, 19, 19⟩
abbrev Fld.PAR_STAT_EPOCH : RF := ⟨Adr.PAR_STAT, 18, 18⟩
abbrev Fld.PAR_STAT_CORES_UP : RF := ⟨Adr.PAR_STAT, 17, 17⟩
abbrev Fld.PAR_STAT_LANES_UP : RF := ⟨Adr.PAR_STAT, 16, 16⟩
abbrev Fld.PAR_STAT_MIRROR_AGE : RF := ⟨Adr.PAR_STAT, 15, 0⟩
/-- `PAR_TALLY`, R345 of 12_pair_operation. -/
abbrev Adr.PAR_TALLY : Nat := 152589
abbrev Fld.PAR_TALLY_TALLY : RF := ⟨Adr.PAR_TALLY, 31, 0⟩
/-- `PAR_SEEN`, R345 of 12_pair_operation. -/
abbrev Adr.PAR_SEEN : Nat := 152590
abbrev Fld.PAR_SEEN_SEEN : RF := ⟨Adr.PAR_SEEN, 31, 0⟩
/-- `PAR_TALLY_WARN`, R345 of 12_pair_operation. -/
abbrev Adr.PAR_TALLY_WARN : Nat := 152591
abbrev Fld.PAR_TALLY_WARN_LEVEL : RF := ⟨Adr.PAR_TALLY_WARN, 31, 0⟩
/-- `PAR_REQ`, R345 of 12_pair_operation. -/
abbrev Adr.PAR_REQ : Nat := 152592
abbrev Fld.PAR_REQ_HANDOVER : RF := ⟨Adr.PAR_REQ, 31, 31⟩
abbrev Fld.PAR_REQ_FAULT : RF := ⟨Adr.PAR_REQ, 30, 30⟩
abbrev Fld.PAR_REQ_CLR_FAULTY : RF := ⟨Adr.PAR_REQ, 29, 29⟩
abbrev Fld.PAR_REQ_RESYNC : RF := ⟨Adr.PAR_REQ, 28, 28⟩
abbrev Fld.PAR_REQ_FLASH_NOW : RF := ⟨Adr.PAR_REQ, 27, 27⟩
/-- `PAR_EPOCH`, R345 of 12_pair_operation. -/
abbrev Adr.PAR_EPOCH : Nat := 152593
abbrev Fld.PAR_EPOCH_KEY : RF := ⟨Adr.PAR_EPOCH, 15, 0⟩
/-- `PAR_DET`, R345 of 12_pair_operation. -/
abbrev Adr.PAR_DET : Nat := 152594
abbrev Fld.PAR_DET_MISS_RUN : RF := ⟨Adr.PAR_DET, 7, 0⟩
/-- `PAR_CNT_A`, R345 of 12_pair_operation. -/
abbrev Adr.PAR_CNT_A : Nat := 152595
abbrev Fld.PAR_CNT_A_HB_MISS : RF := ⟨Adr.PAR_CNT_A, 31, 16⟩
abbrev Fld.PAR_CNT_A_BAD : RF := ⟨Adr.PAR_CNT_A, 15, 0⟩
/-- `PAR_CNT_B`, R345 of 12_pair_operation. -/
abbrev Adr.PAR_CNT_B : Nat := 152596
abbrev Fld.PAR_CNT_B_SBX_SKIP : RF := ⟨Adr.PAR_CNT_B, 31, 16⟩
abbrev Fld.PAR_CNT_B_TAKEOVERS : RF := ⟨Adr.PAR_CNT_B, 15, 0⟩
/-- `PAR_FLAGS`, R345 of 12_pair_operation. -/
abbrev Adr.PAR_FLAGS : Nat := 152597
abbrev Fld.PAR_FLAGS_FAR_THR : RF := ⟨Adr.PAR_FLAGS, 12, 8⟩
abbrev Fld.PAR_FLAGS_FEEDBACK_FAR : RF := ⟨Adr.PAR_FLAGS, 4, 4⟩
abbrev Fld.PAR_FLAGS_HB_SAT : RF := ⟨Adr.PAR_FLAGS, 3, 3⟩
abbrev Fld.PAR_FLAGS_BAD_SAT : RF := ⟨Adr.PAR_FLAGS, 2, 2⟩
abbrev Fld.PAR_FLAGS_SKIP_SAT : RF := ⟨Adr.PAR_FLAGS, 1, 1⟩
abbrev Fld.PAR_FLAGS_TO_SAT : RF := ⟨Adr.PAR_FLAGS, 0, 0⟩
/-- `PAR_SBX_SEQ`, R345 of 12_pair_operation. -/
abbrev Adr.PAR_SBX_SEQ : Nat := 152598
abbrev Fld.PAR_SBX_SEQ_SEQ : RF := ⟨Adr.PAR_SBX_SEQ, 31, 0⟩
/-- `PAR_LAST_TO`, R345 of 12_pair_operation. -/
abbrev Adr.PAR_LAST_TO : Nat := 152599
abbrev Fld.PAR_LAST_TO_FRAME16 : RF := ⟨Adr.PAR_LAST_TO, 31, 16⟩
abbrev Fld.PAR_LAST_TO_BEAT : RF := ⟨Adr.PAR_LAST_TO, 13, 8⟩
abbrev Fld.PAR_LAST_TO_CAUSE : RF := ⟨Adr.PAR_LAST_TO, 3, 0⟩
/-- `PAR_FLASH`, R345 of 12_pair_operation. -/
abbrev Adr.PAR_FLASH : Nat := 152600
abbrev Fld.PAR_FLASH_AGE : RF := ⟨Adr.PAR_FLASH, 31, 16⟩
abbrev Fld.PAR_FLASH_SKIP : RF := ⟨Adr.PAR_FLASH, 15, 0⟩
/-- `PAR_FLASH_DRAM`, R345 of 12_pair_operation. -/
abbrev Adr.PAR_FLASH_DRAM : Nat := 152601
abbrev Fld.PAR_FLASH_DRAM_ADDR : RF := ⟨Adr.PAR_FLASH_DRAM, 23, 0⟩
/-- `PAR_TRACK`, R345 of 12_pair_operation. -/
abbrev Adr.PAR_TRACK (i : Nat) : Nat := 152640 + i
abbrev Fld.PAR_TRACK_EN (i : Nat) : RF := ⟨Adr.PAR_TRACK i, 31, 31⟩
abbrev Fld.PAR_TRACK_COLD (i : Nat) : RF := ⟨Adr.PAR_TRACK i, 30, 30⟩
abbrev Fld.PAR_TRACK_OWNER (i : Nat) : RF := ⟨Adr.PAR_TRACK i, 12, 8⟩
abbrev Fld.PAR_TRACK_BANK (i : Nat) : RF := ⟨Adr.PAR_TRACK i, 5, 0⟩
/-- `TIM_CFG`, R371 of 13_network_time. -/
abbrev Adr.TIM_CFG : Nat := 6152
abbrev Fld.TIM_CFG_REF_EXT : RF := ⟨Adr.TIM_CFG, 31, 31⟩
abbrev Fld.TIM_CFG_TPULSE_EN : RF := ⟨Adr.TIM_CFG, 30, 30⟩
abbrev Fld.TIM_CFG_PPS_EN : RF := ⟨Adr.TIM_CFG, 29, 29⟩
abbrev Fld.TIM_CFG_PRIO : RF := ⟨Adr.TIM_CFG, 28, 28⟩
/-- `TIM_STAT`, R371 of 13_network_time. -/
abbrev Adr.TIM_STAT : Nat := 6153
abbrev Fld.TIM_STAT_SRC : RF := ⟨Adr.TIM_STAT, 31, 30⟩
abbrev Fld.TIM_STAT_ACQUIRED : RF := ⟨Adr.TIM_STAT, 29, 29⟩
abbrev Fld.TIM_STAT_HOLDOVER : RF := ⟨Adr.TIM_STAT, 28, 28⟩
abbrev Fld.TIM_STAT_SLEWING : RF := ⟨Adr.TIM_STAT, 27, 27⟩
abbrev Fld.TIM_STAT_EXT_OK : RF := ⟨Adr.TIM_STAT, 26, 26⟩
abbrev Fld.TIM_STAT_PTP_AVAIL : RF := ⟨Adr.TIM_STAT, 25, 25⟩
abbrev Fld.TIM_STAT_PPS_AVAIL : RF := ⟨Adr.TIM_STAT, 24, 24⟩
abbrev Fld.TIM_STAT_TP_CODE : RF := ⟨Adr.TIM_STAT, 23, 22⟩
/-- `TIM_NOW_LO`, R371 of 13_network_time. -/
abbrev Adr.TIM_NOW_LO : Nat := 6154
abbrev Fld.TIM_NOW_LO_T : RF := ⟨Adr.TIM_NOW_LO, 31, 0⟩
/-- `TIM_NOW_HI`, R371 of 13_network_time. -/
abbrev Adr.TIM_NOW_HI : Nat := 6155
abbrev Fld.TIM_NOW_HI_T : RF := ⟨Adr.TIM_NOW_HI, 31, 0⟩
/-- `TIM_RAW_LO`, R371 of 13_network_time. -/
abbrev Adr.TIM_RAW_LO : Nat := 6156
abbrev Fld.TIM_RAW_LO_RAW : RF := ⟨Adr.TIM_RAW_LO, 31, 0⟩
/-- `TIM_RAW_HI`, R371 of 13_network_time. -/
abbrev Adr.TIM_RAW_HI : Nat := 6157
abbrev Fld.TIM_RAW_HI_RAW : RF := ⟨Adr.TIM_RAW_HI, 31, 0⟩
/-- `TIM_UNC`, R371 of 13_network_time. -/
abbrev Adr.TIM_UNC : Nat := 6158
abbrev Fld.TIM_UNC_NS : RF := ⟨Adr.TIM_UNC, 31, 0⟩
/-- `TIM_RATE_LO`, R371 of 13_network_time. -/
abbrev Adr.TIM_RATE_LO : Nat := 6159
abbrev Fld.TIM_RATE_LO_RATE : RF := ⟨Adr.TIM_RATE_LO, 31, 0⟩
/-- `TIM_RATE_HI`, R371 of 13_network_time. -/
abbrev Adr.TIM_RATE_HI : Nat := 6160
abbrev Fld.TIM_RATE_HI_RATE : RF := ⟨Adr.TIM_RATE_HI, 31, 0⟩
/-- `TIM_EPOCH_LO`, R371 of 13_network_time. -/
abbrev Adr.TIM_EPOCH_LO : Nat := 6161
abbrev Fld.TIM_EPOCH_LO_EPOCH : RF := ⟨Adr.TIM_EPOCH_LO, 31, 0⟩
/-- `TIM_EPOCH_HI`, R371 of 13_network_time. -/
abbrev Adr.TIM_EPOCH_HI : Nat := 6162
abbrev Fld.TIM_EPOCH_HI_EPOCH : RF := ⟨Adr.TIM_EPOCH_HI, 31, 0⟩
/-- `TIM_OFS_LO`, R371 of 13_network_time. -/
abbrev Adr.TIM_OFS_LO : Nat := 6163
abbrev Fld.TIM_OFS_LO_OFS : RF := ⟨Adr.TIM_OFS_LO, 31, 0⟩
/-- `TIM_OFS_HI`, R371 of 13_network_time. -/
abbrev Adr.TIM_OFS_HI : Nat := 6164
abbrev Fld.TIM_OFS_HI_OFS : RF := ⟨Adr.TIM_OFS_HI, 31, 0⟩
/-- `TIM_STEP_LO`, R371 of 13_network_time. -/
abbrev Adr.TIM_STEP_LO : Nat := 6165
abbrev Fld.TIM_STEP_LO_STEP : RF := ⟨Adr.TIM_STEP_LO, 31, 0⟩
/-- `TIM_STEP_HI`, R371 of 13_network_time. -/
abbrev Adr.TIM_STEP_HI : Nat := 6166
abbrev Fld.TIM_STEP_HI_STEP : RF := ⟨Adr.TIM_STEP_HI, 31, 0⟩
/-- `TIM_STEP_CTRL`, R371 of 13_network_time. -/
abbrev Adr.TIM_STEP_CTRL : Nat := 6167
abbrev Fld.TIM_STEP_CTRL_FORCE : RF := ⟨Adr.TIM_STEP_CTRL, 31, 31⟩
abbrev Fld.TIM_STEP_CTRL_REF_SAT : RF := ⟨Adr.TIM_STEP_CTRL, 30, 30⟩
abbrev Fld.TIM_STEP_CTRL_REF_CNT : RF := ⟨Adr.TIM_STEP_CTRL, 15, 0⟩
/-- `TIM_STEP_LIMIT`, R371 of 13_network_time. -/
abbrev Adr.TIM_STEP_LIMIT : Nat := 6168
abbrev Fld.TIM_STEP_LIMIT_NS : RF := ⟨Adr.TIM_STEP_LIMIT, 31, 0⟩
/-- `TIM_SLEW`, R371 of 13_network_time. -/
abbrev Adr.TIM_SLEW : Nat := 6169
abbrev Fld.TIM_SLEW_NS : RF := ⟨Adr.TIM_SLEW, 31, 0⟩
/-- `TIM_FORCE_IDS`, R371 of 13_network_time. -/
abbrev Adr.TIM_FORCE_IDS : Nat := 6170
abbrev Fld.TIM_FORCE_IDS_IDS : RF := ⟨Adr.TIM_FORCE_IDS, 31, 0⟩
/-- `TIM_HOLD`, R371 of 13_network_time. -/
abbrev Adr.TIM_HOLD : Nat := 6171
abbrev Fld.TIM_HOLD_GROW : RF := ⟨Adr.TIM_HOLD, 31, 16⟩
abbrev Fld.TIM_HOLD_PTP_HOLD : RF := ⟨Adr.TIM_HOLD, 15, 8⟩
abbrev Fld.TIM_HOLD_PPS_HOLD : RF := ⟨Adr.TIM_HOLD, 7, 0⟩
/-- `TIM_PTP_OBS_LO`, R371 of 13_network_time. -/
abbrev Adr.TIM_PTP_OBS_LO : Nat := 6172
abbrev Fld.TIM_PTP_OBS_LO_OFS : RF := ⟨Adr.TIM_PTP_OBS_LO, 31, 0⟩
/-- `TIM_PTP_OBS_HI`, R371 of 13_network_time. -/
abbrev Adr.TIM_PTP_OBS_HI : Nat := 6173
abbrev Fld.TIM_PTP_OBS_HI_OFS : RF := ⟨Adr.TIM_PTP_OBS_HI, 31, 0⟩
/-- `TIM_PTP_CTRL`, R371 of 13_network_time. -/
abbrev Adr.TIM_PTP_CTRL : Nat := 6174
abbrev Fld.TIM_PTP_CTRL_VALID : RF := ⟨Adr.TIM_PTP_CTRL, 31, 31⟩
abbrev Fld.TIM_PTP_CTRL_REFUSED : RF := ⟨Adr.TIM_PTP_CTRL, 30, 30⟩
abbrev Fld.TIM_PTP_CTRL_SIGMA : RF := ⟨Adr.TIM_PTP_CTRL, 23, 16⟩
abbrev Fld.TIM_PTP_CTRL_FRAME16 : RF := ⟨Adr.TIM_PTP_CTRL, 15, 0⟩
/-- `TIM_PPS_CFG`, R371 of 13_network_time. -/
abbrev Adr.TIM_PPS_CFG : Nat := 6208
abbrev Fld.TIM_PPS_CFG_DELAY : RF := ⟨Adr.TIM_PPS_CFG, 15, 0⟩
/-- `TIM_PPS_STAT`, R371 of 13_network_time. -/
abbrev Adr.TIM_PPS_STAT : Nat := 6209
abbrev Fld.TIM_PPS_STAT_CODE : RF := ⟨Adr.TIM_PPS_STAT, 31, 30⟩
abbrev Fld.TIM_PPS_STAT_ACCEPT : RF := ⟨Adr.TIM_PPS_STAT, 29, 29⟩
abbrev Fld.TIM_PPS_STAT_PULSES : RF := ⟨Adr.TIM_PPS_STAT, 15, 0⟩
/-- `TIM_PPS_OBS_LO`, R371 of 13_network_time. -/
abbrev Adr.TIM_PPS_OBS_LO : Nat := 6210
abbrev Fld.TIM_PPS_OBS_LO_OFS : RF := ⟨Adr.TIM_PPS_OBS_LO, 31, 0⟩
/-- `TIM_PPS_OBS_HI`, R371 of 13_network_time. -/
abbrev Adr.TIM_PPS_OBS_HI : Nat := 6211
abbrev Fld.TIM_PPS_OBS_HI_OFS : RF := ⟨Adr.TIM_PPS_OBS_HI, 31, 0⟩
/-- `TIM_PPS_STAMP_LO`, R371 of 13_network_time. -/
abbrev Adr.TIM_PPS_STAMP_LO : Nat := 6212
abbrev Fld.TIM_PPS_STAMP_LO_L : RF := ⟨Adr.TIM_PPS_STAMP_LO, 31, 0⟩
/-- `TIM_PPS_STAMP_HI`, R371 of 13_network_time. -/
abbrev Adr.TIM_PPS_STAMP_HI : Nat := 6213
abbrev Fld.TIM_PPS_STAMP_HI_L : RF := ⟨Adr.TIM_PPS_STAMP_HI, 31, 0⟩
/-- `ETH_CFG`, R371 of 13_network_time. -/
abbrev Adr.ETH_CFG (e : Nat) : Nat := (7 + e) * 1024 + 8
abbrev Fld.ETH_CFG_RX_EN (e : Nat) : RF := ⟨Adr.ETH_CFG e, 31, 31⟩
abbrev Fld.ETH_CFG_TX_EN (e : Nat) : RF := ⟨Adr.ETH_CFG e, 30, 30⟩
abbrev Fld.ETH_CFG_PCS (e : Nat) : RF := ⟨Adr.ETH_CFG e, 29, 29⟩
abbrev Fld.ETH_CFG_AN_EN (e : Nat) : RF := ⟨Adr.ETH_CFG e, 28, 28⟩
abbrev Fld.ETH_CFG_PAUSE_EN (e : Nat) : RF := ⟨Adr.ETH_CFG e, 27, 27⟩
abbrev Fld.ETH_CFG_PROMISC (e : Nat) : RF := ⟨Adr.ETH_CFG e, 26, 26⟩
abbrev Fld.ETH_CFG_BCAST (e : Nat) : RF := ⟨Adr.ETH_CFG e, 25, 25⟩
/-- `ETH_LINK`, R371 of 13_network_time. -/
abbrev Adr.ETH_LINK (e : Nat) : Nat := (7 + e) * 1024 + 9
abbrev Fld.ETH_LINK_UP (e : Nat) : RF := ⟨Adr.ETH_LINK e, 31, 31⟩
abbrev Fld.ETH_LINK_AN_DONE (e : Nat) : RF := ⟨Adr.ETH_LINK e, 30, 30⟩
abbrev Fld.ETH_LINK_BUS_ERR (e : Nat) : RF := ⟨Adr.ETH_LINK e, 29, 29⟩
/-- `ETH_MAC_LO`, R371 of 13_network_time. -/
abbrev Adr.ETH_MAC_LO (e : Nat) : Nat := (7 + e) * 1024 + 10
abbrev Fld.ETH_MAC_LO_MAC (e : Nat) : RF := ⟨Adr.ETH_MAC_LO e, 31, 0⟩
/-- `ETH_MAC_HI`, R371 of 13_network_time. -/
abbrev Adr.ETH_MAC_HI (e : Nat) : Nat := (7 + e) * 1024 + 11
abbrev Fld.ETH_MAC_HI_MAC (e : Nat) : RF := ⟨Adr.ETH_MAC_HI e, 31, 0⟩
/-- `ETH_RXR_BASE`, R371 of 13_network_time. -/
abbrev Adr.ETH_RXR_BASE (e : Nat) : Nat := (7 + e) * 1024 + 12
abbrev Fld.ETH_RXR_BASE_ADDR (e : Nat) : RF := ⟨Adr.ETH_RXR_BASE e, 31, 0⟩
/-- `ETH_TXR_BASE`, R371 of 13_network_time. -/
abbrev Adr.ETH_TXR_BASE (e : Nat) : Nat := (7 + e) * 1024 + 14
abbrev Fld.ETH_TXR_BASE_ADDR (e : Nat) : RF := ⟨Adr.ETH_TXR_BASE e, 31, 0⟩
/-- `ETH_RXR_SIZE`, R371 of 13_network_time. -/
abbrev Adr.ETH_RXR_SIZE (e : Nat) : Nat := (7 + e) * 1024 + 13
abbrev Fld.ETH_RXR_SIZE_N (e : Nat) : RF := ⟨Adr.ETH_RXR_SIZE e, 10, 0⟩
/-- `ETH_TXR_SIZE`, R371 of 13_network_time. -/
abbrev Adr.ETH_TXR_SIZE (e : Nat) : Nat := (7 + e) * 1024 + 15
abbrev Fld.ETH_TXR_SIZE_N (e : Nat) : RF := ⟨Adr.ETH_TXR_SIZE e, 10, 0⟩
/-- `ETH_RXR_TAIL`, R371 of 13_network_time. -/
abbrev Adr.ETH_RXR_TAIL (e : Nat) : Nat := (7 + e) * 1024 + 16
abbrev Fld.ETH_RXR_TAIL_IDX (e : Nat) : RF := ⟨Adr.ETH_RXR_TAIL e, 9, 0⟩
/-- `ETH_TXR_TAIL`, R371 of 13_network_time. -/
abbrev Adr.ETH_TXR_TAIL (e : Nat) : Nat := (7 + e) * 1024 + 18
abbrev Fld.ETH_TXR_TAIL_IDX (e : Nat) : RF := ⟨Adr.ETH_TXR_TAIL e, 9, 0⟩
/-- `ETH_RXR_HEAD`, R371 of 13_network_time. -/
abbrev Adr.ETH_RXR_HEAD (e : Nat) : Nat := (7 + e) * 1024 + 17
abbrev Fld.ETH_RXR_HEAD_IDX (e : Nat) : RF := ⟨Adr.ETH_RXR_HEAD e, 9, 0⟩
/-- `ETH_TXR_HEAD`, R371 of 13_network_time. -/
abbrev Adr.ETH_TXR_HEAD (e : Nat) : Nat := (7 + e) * 1024 + 19
abbrev Fld.ETH_TXR_HEAD_IDX (e : Nat) : RF := ⟨Adr.ETH_TXR_HEAD e, 9, 0⟩
/-- `ETH_TS_CORR`, R371 of 13_network_time. -/
abbrev Adr.ETH_TS_CORR (e : Nat) : Nat := (7 + e) * 1024 + 20
abbrev Fld.ETH_TS_CORR_EG (e : Nat) : RF := ⟨Adr.ETH_TS_CORR e, 31, 16⟩
abbrev Fld.ETH_TS_CORR_IN (e : Nat) : RF := ⟨Adr.ETH_TS_CORR e, 15, 0⟩
/-- `ETH_ASYM`, R371 of 13_network_time. -/
abbrev Adr.ETH_ASYM (e : Nat) : Nat := (7 + e) * 1024 + 21
abbrev Fld.ETH_ASYM_ASYM_TX (e : Nat) : RF := ⟨Adr.ETH_ASYM e, 31, 16⟩
abbrev Fld.ETH_ASYM_ASYM_RX (e : Nat) : RF := ⟨Adr.ETH_ASYM e, 15, 0⟩
/-- `ETH_CAL`, R371 of 13_network_time. -/
abbrev Adr.ETH_CAL (e : Nat) : Nat := (7 + e) * 1024 + 22
abbrev Fld.ETH_CAL_GO (e : Nat) : RF := ⟨Adr.ETH_CAL e, 31, 31⟩
abbrev Fld.ETH_CAL_BUSY (e : Nat) : RF := ⟨Adr.ETH_CAL e, 30, 30⟩
abbrev Fld.ETH_CAL_DONE (e : Nat) : RF := ⟨Adr.ETH_CAL e, 29, 29⟩
abbrev Fld.ETH_CAL_FAIL (e : Nat) : RF := ⟨Adr.ETH_CAL e, 28, 28⟩
abbrev Fld.ETH_CAL_RTT (e : Nat) : RF := ⟨Adr.ETH_CAL e, 15, 0⟩
/-- `ETH_TC`, R371 of 13_network_time. -/
abbrev Adr.ETH_TC (e : Nat) : Nat := (7 + e) * 1024 + 23
abbrev Fld.ETH_TC_EN (e : Nat) : RF := ⟨Adr.ETH_TC e, 31, 31⟩
/-- `ETH_CNT_A`, R371 of 13_network_time. -/
abbrev Adr.ETH_CNT_A (e : Nat) : Nat := (7 + e) * 1024 + 24
abbrev Fld.ETH_CNT_A_RX_NOBUF (e : Nat) : RF := ⟨Adr.ETH_CNT_A e, 31, 16⟩
abbrev Fld.ETH_CNT_A_RX_ERR (e : Nat) : RF := ⟨Adr.ETH_CNT_A e, 15, 0⟩
/-- `ETH_CNT_B`, R371 of 13_network_time. -/
abbrev Adr.ETH_CNT_B (e : Nat) : Nat := (7 + e) * 1024 + 25
abbrev Fld.ETH_CNT_B_TX_OK (e : Nat) : RF := ⟨Adr.ETH_CNT_B e, 31, 16⟩
abbrev Fld.ETH_CNT_B_RX_OK (e : Nat) : RF := ⟨Adr.ETH_CNT_B e, 15, 0⟩
/-- `ETH_CNT_C`, R371 of 13_network_time. -/
abbrev Adr.ETH_CNT_C (e : Nat) : Nat := (7 + e) * 1024 + 26
abbrev Fld.ETH_CNT_C_TC_FWD (e : Nat) : RF := ⟨Adr.ETH_CNT_C e, 31, 16⟩
abbrev Fld.ETH_CNT_C_TC_DROP (e : Nat) : RF := ⟨Adr.ETH_CNT_C e, 15, 0⟩
/-- `ETH_FLAGS`, R371 of 13_network_time. -/
abbrev Adr.ETH_FLAGS (e : Nat) : Nat := (7 + e) * 1024 + 27
abbrev Fld.ETH_FLAGS_NOBUF_SAT (e : Nat) : RF := ⟨Adr.ETH_FLAGS e, 2, 2⟩
abbrev Fld.ETH_FLAGS_RXERR_SAT (e : Nat) : RF := ⟨Adr.ETH_FLAGS e, 1, 1⟩
abbrev Fld.ETH_FLAGS_TCDROP_SAT (e : Nat) : RF := ⟨Adr.ETH_FLAGS e, 0, 0⟩
/-- `ETH_MCAST_LO`, R371 of 13_network_time. -/
abbrev Adr.ETH_MCAST_LO (e i : Nat) : Nat := (7 + e) * 1024 + 64 + i * 2
abbrev Fld.ETH_MCAST_LO_ADDR (e i : Nat) : RF := ⟨Adr.ETH_MCAST_LO e i, 31, 0⟩
/-- `ETH_MCAST_HI`, R371 of 13_network_time. -/
abbrev Adr.ETH_MCAST_HI (e i : Nat) : Nat := (7 + e) * 1024 + 65 + i * 2
abbrev Fld.ETH_MCAST_HI_EN (e i : Nat) : RF := ⟨Adr.ETH_MCAST_HI e i, 31, 31⟩
abbrev Fld.ETH_MCAST_HI_ADDR (e i : Nat) : RF := ⟨Adr.ETH_MCAST_HI e i, 15, 0⟩
/-- `UAT_CFG`, R371 of 13_network_time. -/
abbrev Adr.UAT_CFG (u : Nat) : Nat := (20 + u) * 1024 + 8
abbrev Fld.UAT_CFG_EN (u : Nat) : RF := ⟨Adr.UAT_CFG u, 31, 31⟩
abbrev Fld.UAT_CFG_PARITY (u : Nat) : RF := ⟨Adr.UAT_CFG u, 30, 29⟩
abbrev Fld.UAT_CFG_DATA7 (u : Nat) : RF := ⟨Adr.UAT_CFG u, 28, 28⟩
abbrev Fld.UAT_CFG_STOP2 (u : Nat) : RF := ⟨Adr.UAT_CFG u, 27, 27⟩
abbrev Fld.UAT_CFG_RX_DMA (u : Nat) : RF := ⟨Adr.UAT_CFG u, 26, 26⟩
abbrev Fld.UAT_CFG_SOS1 (u : Nat) : RF := ⟨Adr.UAT_CFG u, 23, 16⟩
abbrev Fld.UAT_CFG_SOS2 (u : Nat) : RF := ⟨Adr.UAT_CFG u, 15, 8⟩
/-- `UAT_DIV`, R371 of 13_network_time. -/
abbrev Adr.UAT_DIV (u : Nat) : Nat := (20 + u) * 1024 + 9
abbrev Fld.UAT_DIV_DIV (u : Nat) : RF := ⟨Adr.UAT_DIV u, 17, 0⟩
/-- `UAT_STAT`, R371 of 13_network_time. -/
abbrev Adr.UAT_STAT (u : Nat) : Nat := (20 + u) * 1024 + 10
abbrev Fld.UAT_STAT_RX_FILL (u : Nat) : RF := ⟨Adr.UAT_STAT u, 26, 16⟩
abbrev Fld.UAT_STAT_ST_FILL (u : Nat) : RF := ⟨Adr.UAT_STAT u, 13, 8⟩
abbrev Fld.UAT_STAT_TX_FREE (u : Nat) : RF := ⟨Adr.UAT_STAT u, 7, 0⟩
/-- `UAT_RX`, R371 of 13_network_time. -/
abbrev Adr.UAT_RX (u : Nat) : Nat := (20 + u) * 1024 + 11
abbrev Fld.UAT_RX_VALID (u : Nat) : RF := ⟨Adr.UAT_RX u, 31, 31⟩
abbrev Fld.UAT_RX_SOS (u : Nat) : RF := ⟨Adr.UAT_RX u, 11, 11⟩
abbrev Fld.UAT_RX_BREAK (u : Nat) : RF := ⟨Adr.UAT_RX u, 10, 10⟩
abbrev Fld.UAT_RX_FRAMING (u : Nat) : RF := ⟨Adr.UAT_RX u, 9, 9⟩
abbrev Fld.UAT_RX_PARITY (u : Nat) : RF := ⟨Adr.UAT_RX u, 8, 8⟩
abbrev Fld.UAT_RX_DATA (u : Nat) : RF := ⟨Adr.UAT_RX u, 7, 0⟩
/-- `UAT_TX`, R371 of 13_network_time. -/
abbrev Adr.UAT_TX (u : Nat) : Nat := (20 + u) * 1024 + 12
abbrev Fld.UAT_TX_DATA (u : Nat) : RF := ⟨Adr.UAT_TX u, 7, 0⟩
/-- `UAT_STAMP_LO`, R371 of 13_network_time. -/
abbrev Adr.UAT_STAMP_LO (u : Nat) : Nat := (20 + u) * 1024 + 13
abbrev Fld.UAT_STAMP_LO_T (u : Nat) : RF := ⟨Adr.UAT_STAMP_LO u, 31, 0⟩
/-- `UAT_STAMP_HI`, R371 of 13_network_time. -/
abbrev Adr.UAT_STAMP_HI (u : Nat) : Nat := (20 + u) * 1024 + 14
abbrev Fld.UAT_STAMP_HI_T (u : Nat) : RF := ⟨Adr.UAT_STAMP_HI u, 31, 0⟩
/-- `UAT_STAMP_IDX`, R371 of 13_network_time. -/
abbrev Adr.UAT_STAMP_IDX (u : Nat) : Nat := (20 + u) * 1024 + 15
abbrev Fld.UAT_STAMP_IDX_IDX (u : Nat) : RF := ⟨Adr.UAT_STAMP_IDX u, 31, 0⟩
/-- `UAT_CNT`, R371 of 13_network_time. -/
abbrev Adr.UAT_CNT (u : Nat) : Nat := (20 + u) * 1024 + 16
abbrev Fld.UAT_CNT_ERR (u : Nat) : RF := ⟨Adr.UAT_CNT u, 31, 16⟩
abbrev Fld.UAT_CNT_LOST (u : Nat) : RF := ⟨Adr.UAT_CNT u, 15, 0⟩
/-- `UAT_FLAGS`, R371 of 13_network_time. -/
abbrev Adr.UAT_FLAGS (u : Nat) : Nat := (20 + u) * 1024 + 17
abbrev Fld.UAT_FLAGS_DIV_REF (u : Nat) : RF := ⟨Adr.UAT_FLAGS u, 2, 2⟩
abbrev Fld.UAT_FLAGS_ERR_SAT (u : Nat) : RF := ⟨Adr.UAT_FLAGS u, 1, 1⟩
abbrev Fld.UAT_FLAGS_LOST_SAT (u : Nat) : RF := ⟨Adr.UAT_FLAGS u, 0, 0⟩
/-- `UAT_RXCHARS`, R371 of 13_network_time. -/
abbrev Adr.UAT_RXCHARS (u : Nat) : Nat := (20 + u) * 1024 + 18
abbrev Fld.UAT_RXCHARS_COUNT (u : Nat) : RF := ⟨Adr.UAT_RXCHARS u, 31, 0⟩
/-- `LGR_CFG`, R391 of 14_ledger. -/
abbrev Adr.LGR_CFG : Nat := 151560
abbrev Fld.LGR_CFG_EN : RF := ⟨Adr.LGR_CFG, 31, 31⟩
abbrev Fld.LGR_CFG_RING_BANK : RF := ⟨Adr.LGR_CFG, 29, 24⟩
abbrev Fld.LGR_CFG_FLUSH_MS : RF := ⟨Adr.LGR_CFG, 23, 12⟩
abbrev Fld.LGR_CFG_FRAME_DIV : RF := ⟨Adr.LGR_CFG, 7, 0⟩
/-- `LGR_VAULT_CFG`, R391 of 14_ledger. -/
abbrev Adr.LGR_VAULT_CFG : Nat := 151561
abbrev Fld.LGR_VAULT_CFG_CROSS : RF := ⟨Adr.LGR_VAULT_CFG, 31, 31⟩
abbrev Fld.LGR_VAULT_CFG_PRE : RF := ⟨Adr.LGR_VAULT_CFG, 26, 16⟩
abbrev Fld.LGR_VAULT_CFG_POST : RF := ⟨Adr.LGR_VAULT_CFG, 11, 0⟩
/-- `LGR_SEQ_LO`, R391 of 14_ledger. -/
abbrev Adr.LGR_SEQ_LO : Nat := 151562
abbrev Fld.LGR_SEQ_LO_SEQ : RF := ⟨Adr.LGR_SEQ_LO, 31, 0⟩
/-- `LGR_SEQ_HI`, R391 of 14_ledger. -/
abbrev Adr.LGR_SEQ_HI : Nat := 151563
abbrev Fld.LGR_SEQ_HI_SEQ : RF := ⟨Adr.LGR_SEQ_HI, 31, 0⟩
/-- `LGR_OLD_LO`, R391 of 14_ledger. -/
abbrev Adr.LGR_OLD_LO : Nat := 151564
abbrev Fld.LGR_OLD_LO_SEQ : RF := ⟨Adr.LGR_OLD_LO, 31, 0⟩
/-- `LGR_OLD_HI`, R391 of 14_ledger. -/
abbrev Adr.LGR_OLD_HI : Nat := 151565
abbrev Fld.LGR_OLD_HI_SEQ : RF := ⟨Adr.LGR_OLD_HI, 31, 0⟩
/-- `LGR_RING_OLD_LO`, R391 of 14_ledger. -/
abbrev Adr.LGR_RING_OLD_LO : Nat := 151566
abbrev Fld.LGR_RING_OLD_LO_SEQ : RF := ⟨Adr.LGR_RING_OLD_LO, 31, 0⟩
/-- `LGR_RING_OLD_HI`, R391 of 14_ledger. -/
abbrev Adr.LGR_RING_OLD_HI : Nat := 151567
abbrev Fld.LGR_RING_OLD_HI_SEQ : RF := ⟨Adr.LGR_RING_OLD_HI, 31, 0⟩
/-- `LGR_VAULT_FIRST_LO`, R391 of 14_ledger. -/
abbrev Adr.LGR_VAULT_FIRST_LO : Nat := 151568
abbrev Fld.LGR_VAULT_FIRST_LO_SEQ : RF := ⟨Adr.LGR_VAULT_FIRST_LO, 31, 0⟩
/-- `LGR_VAULT_FIRST_HI`, R391 of 14_ledger. -/
abbrev Adr.LGR_VAULT_FIRST_HI : Nat := 151569
abbrev Fld.LGR_VAULT_FIRST_HI_SEQ : RF := ⟨Adr.LGR_VAULT_FIRST_HI, 31, 0⟩
/-- `LGR_VAULT_LAST_LO`, R391 of 14_ledger. -/
abbrev Adr.LGR_VAULT_LAST_LO : Nat := 151570
abbrev Fld.LGR_VAULT_LAST_LO_SEQ : RF := ⟨Adr.LGR_VAULT_LAST_LO, 31, 0⟩
/-- `LGR_VAULT_LAST_HI`, R391 of 14_ledger. -/
abbrev Adr.LGR_VAULT_LAST_HI : Nat := 151571
abbrev Fld.LGR_VAULT_LAST_HI_SEQ : RF := ⟨Adr.LGR_VAULT_LAST_HI, 31, 0⟩
/-- `LGR_VAULT_STAT`, R391 of 14_ledger. -/
abbrev Adr.LGR_VAULT_STAT : Nat := 151572
abbrev Fld.LGR_VAULT_STAT_STATE : RF := ⟨Adr.LGR_VAULT_STAT, 31, 30⟩
abbrev Fld.LGR_VAULT_STAT_COUNT : RF := ⟨Adr.LGR_VAULT_STAT, 12, 0⟩
/-- `LGR_CTRL`, R391 of 14_ledger. -/
abbrev Adr.LGR_CTRL : Nat := 151573
abbrev Fld.LGR_CTRL_ARM : RF := ⟨Adr.LGR_CTRL, 31, 31⟩
abbrev Fld.LGR_CTRL_CLOSE : RF := ⟨Adr.LGR_CTRL, 30, 30⟩
abbrev Fld.LGR_CTRL_TRIGGER : RF := ⟨Adr.LGR_CTRL, 29, 29⟩
abbrev Fld.LGR_CTRL_FLUSH : RF := ⟨Adr.LGR_CTRL, 28, 28⟩
abbrev Fld.LGR_CTRL_ENABLE : RF := ⟨Adr.LGR_CTRL, 2, 2⟩
abbrev Fld.LGR_CTRL_QUIESCE : RF := ⟨Adr.LGR_CTRL, 1, 1⟩
/-- `LGR_CNT_A`, R391 of 14_ledger. -/
abbrev Adr.LGR_CNT_A : Nat := 151574
abbrev Fld.LGR_CNT_A_LOST : RF := ⟨Adr.LGR_CNT_A, 31, 16⟩
abbrev Fld.LGR_CNT_A_FRAME_SKIP : RF := ⟨Adr.LGR_CNT_A, 15, 0⟩
/-- `LGR_CNT_B`, R391 of 14_ledger. -/
abbrev Adr.LGR_CNT_B : Nat := 151575
abbrev Fld.LGR_CNT_B_TRIG_MISSED : RF := ⟨Adr.LGR_CNT_B, 31, 16⟩
abbrev Fld.LGR_CNT_B_FLUSH_ERR : RF := ⟨Adr.LGR_CNT_B, 15, 0⟩
/-- `LGR_FLAGS`, R391 of 14_ledger. -/
abbrev Adr.LGR_FLAGS : Nat := 151576
abbrev Fld.LGR_FLAGS_LOST_SAT : RF := ⟨Adr.LGR_FLAGS, 3, 3⟩
abbrev Fld.LGR_FLAGS_SKIP_SAT : RF := ⟨Adr.LGR_FLAGS, 2, 2⟩
abbrev Fld.LGR_FLAGS_MISS_SAT : RF := ⟨Adr.LGR_FLAGS, 1, 1⟩
abbrev Fld.LGR_FLAGS_FERR_SAT : RF := ⟨Adr.LGR_FLAGS, 0, 0⟩
/-- `LGR_STAGE`, R391 of 14_ledger. -/
abbrev Adr.LGR_STAGE : Nat := 151577
abbrev Fld.LGR_STAGE_FLUSH_BUSY : RF := ⟨Adr.LGR_STAGE, 31, 31⟩
abbrev Fld.LGR_STAGE_UNFLUSHED : RF := ⟨Adr.LGR_STAGE, 14, 0⟩
/-- `LGR_NONCE_LO`, R391 of 14_ledger. -/
abbrev Adr.LGR_NONCE_LO : Nat := 151578
abbrev Fld.LGR_NONCE_LO_NONCE : RF := ⟨Adr.LGR_NONCE_LO, 31, 0⟩
/-- `LGR_NONCE_HI`, R391 of 14_ledger. -/
abbrev Adr.LGR_NONCE_HI : Nat := 151579
abbrev Fld.LGR_NONCE_HI_NONCE : RF := ⟨Adr.LGR_NONCE_HI, 31, 0⟩
/-- `LGR_REL_CTRL`, R391 of 14_ledger. -/
abbrev Adr.LGR_REL_CTRL : Nat := 151580
abbrev Fld.LGR_REL_CTRL_GO : RF := ⟨Adr.LGR_REL_CTRL, 31, 31⟩
abbrev Fld.LGR_REL_CTRL_RESULT : RF := ⟨Adr.LGR_REL_CTRL, 2, 0⟩
/-- `LGR_TRIG`, R391 of 14_ledger. -/
abbrev Adr.LGR_TRIG (i : Nat) : Nat := 151616 + i
abbrev Fld.LGR_TRIG_MASK (i : Nat) : RF := ⟨Adr.LGR_TRIG i, 31, 0⟩
/-- `LGR_TOKEN`, R391 of 14_ledger. -/
abbrev Adr.LGR_TOKEN (i : Nat) : Nat := 151632 + i
abbrev Fld.LGR_TOKEN_WORD (i : Nat) : RF := ⟨Adr.LGR_TOKEN i, 31, 0⟩
/-- `LGR_SW`, R391 of 14_ledger. -/
abbrev Adr.LGR_SW (i j : Nat) : Nat := 151680 + i * 16 + j
abbrev Fld.LGR_SW_WORD (i j : Nat) : RF := ⟨Adr.LGR_SW i j, 31, 0⟩
/-- `LGR_SW_COMMIT`, R391 of 14_ledger. -/
abbrev Adr.LGR_SW_COMMIT (i : Nat) : Nat := 151690 + i * 16
abbrev Fld.LGR_SW_COMMIT_COMMIT (i : Nat) : RF := ⟨Adr.LGR_SW_COMMIT i, 31, 0⟩
/-- `LGR_SW_STAT`, R391 of 14_ledger. -/
abbrev Adr.LGR_SW_STAT (i : Nat) : Nat := 151691 + i * 16
abbrev Fld.LGR_SW_STAT_RESULT (i : Nat) : RF := ⟨Adr.LGR_SW_STAT i, 31, 30⟩
abbrev Fld.LGR_SW_STAT_SEQ (i : Nat) : RF := ⟨Adr.LGR_SW_STAT i, 29, 0⟩
/-- `LGR_XTR_CTRL`, R391 of 14_ledger. -/
abbrev Adr.LGR_XTR_CTRL : Nat := 151744
abbrev Fld.LGR_XTR_CTRL_GO : RF := ⟨Adr.LGR_XTR_CTRL, 31, 31⟩
abbrev Fld.LGR_XTR_CTRL_AREA : RF := ⟨Adr.LGR_XTR_CTRL, 30, 30⟩
abbrev Fld.LGR_XTR_CTRL_BUSY : RF := ⟨Adr.LGR_XTR_CTRL, 29, 29⟩
abbrev Fld.LGR_XTR_CTRL_DONE : RF := ⟨Adr.LGR_XTR_CTRL, 28, 28⟩
abbrev Fld.LGR_XTR_CTRL_ERR : RF := ⟨Adr.LGR_XTR_CTRL, 27, 27⟩
abbrev Fld.LGR_XTR_CTRL_COUNT : RF := ⟨Adr.LGR_XTR_CTRL, 16, 0⟩
/-- `LGR_XTR_FIRST_LO`, R391 of 14_ledger. -/
abbrev Adr.LGR_XTR_FIRST_LO : Nat := 151745
abbrev Fld.LGR_XTR_FIRST_LO_SEQ : RF := ⟨Adr.LGR_XTR_FIRST_LO, 31, 0⟩
/-- `LGR_XTR_FIRST_HI`, R391 of 14_ledger. -/
abbrev Adr.LGR_XTR_FIRST_HI : Nat := 151746
abbrev Fld.LGR_XTR_FIRST_HI_SEQ : RF := ⟨Adr.LGR_XTR_FIRST_HI, 31, 0⟩
/-- `LGR_XTR_DRAM`, R391 of 14_ledger. -/
abbrev Adr.LGR_XTR_DRAM : Nat := 151747
abbrev Fld.LGR_XTR_DRAM_ADDR : RF := ⟨Adr.LGR_XTR_DRAM, 23, 0⟩
/-- `LGR_XTR_RES_LO`, R391 of 14_ledger. -/
abbrev Adr.LGR_XTR_RES_LO : Nat := 151748
abbrev Fld.LGR_XTR_RES_LO_SEQ : RF := ⟨Adr.LGR_XTR_RES_LO, 31, 0⟩
/-- `LGR_XTR_RES_HI`, R391 of 14_ledger. -/
abbrev Adr.LGR_XTR_RES_HI : Nat := 151749
abbrev Fld.LGR_XTR_RES_HI_SEQ : RF := ⟨Adr.LGR_XTR_RES_HI, 31, 0⟩
/-- `LGR_XTR_RES_CNT`, R391 of 14_ledger. -/
abbrev Adr.LGR_XTR_RES_CNT : Nat := 151750
abbrev Fld.LGR_XTR_RES_CNT_COUNT : RF := ⟨Adr.LGR_XTR_RES_CNT, 16, 0⟩
/-- `NFC_CFG`, R415 of 15_flash_storage. -/
abbrev Adr.NFC_CFG : Nat := 150536
abbrev Fld.NFC_CFG_EN : RF := ⟨Adr.NFC_CFG, 31, 31⟩
abbrev Fld.NFC_CFG_TMODE : RF := ⟨Adr.NFC_CFG, 2, 0⟩
/-- `NFC_MEDIUM`, R415 of 15_flash_storage. -/
abbrev Adr.NFC_MEDIUM : Nat := 150537
abbrev Fld.NFC_MEDIUM_RATED : RF := ⟨Adr.NFC_MEDIUM, 31, 16⟩
abbrev Fld.NFC_MEDIUM_SPREAD : RF := ⟨Adr.NFC_MEDIUM, 15, 0⟩
/-- `NFC_SCRUB`, R415 of 15_flash_storage. -/
abbrev Adr.NFC_SCRUB : Nat := 150538
abbrev Fld.NFC_SCRUB_BITS : RF := ⟨Adr.NFC_SCRUB, 31, 24⟩
abbrev Fld.NFC_SCRUB_PATROL_DAYS : RF := ⟨Adr.NFC_SCRUB, 23, 16⟩
abbrev Fld.NFC_SCRUB_AGE_DAYS : RF := ⟨Adr.NFC_SCRUB, 15, 0⟩
/-- `NFC_READ_LIMIT`, R415 of 15_flash_storage. -/
abbrev Adr.NFC_READ_LIMIT : Nat := 150539
abbrev Fld.NFC_READ_LIMIT_LIMIT : RF := ⟨Adr.NFC_READ_LIMIT, 31, 0⟩
/-- `NFC_STAT`, R415 of 15_flash_storage. -/
abbrev Adr.NFC_STAT : Nat := 150540
abbrev Fld.NFC_STAT_STATE : RF := ⟨Adr.NFC_STAT, 31, 29⟩
abbrev Fld.NFC_STAT_RUN_SLOT : RF := ⟨Adr.NFC_STAT, 28, 28⟩
abbrev Fld.NFC_STAT_BOOT_SLOT : RF := ⟨Adr.NFC_STAT, 27, 27⟩
abbrev Fld.NFC_STAT_SPARE_LOW : RF := ⟨Adr.NFC_STAT, 26, 26⟩
abbrev Fld.NFC_STAT_DAY : RF := ⟨Adr.NFC_STAT, 15, 0⟩
/-- `NFC_BLOCKS_A`, R415 of 15_flash_storage. -/
abbrev Adr.NFC_BLOCKS_A : Nat := 150541
abbrev Fld.NFC_BLOCKS_A_GOOD : RF := ⟨Adr.NFC_BLOCKS_A, 31, 16⟩
abbrev Fld.NFC_BLOCKS_A_FACTORY_BAD : RF := ⟨Adr.NFC_BLOCKS_A, 15, 0⟩
/-- `NFC_BLOCKS_B`, R415 of 15_flash_storage. -/
abbrev Adr.NFC_BLOCKS_B : Nat := 150542
abbrev Fld.NFC_BLOCKS_B_FREE : RF := ⟨Adr.NFC_BLOCKS_B, 31, 16⟩
abbrev Fld.NFC_BLOCKS_B_GROWN_BAD : RF := ⟨Adr.NFC_BLOCKS_B, 15, 0⟩
/-- `NFC_WEAR`, R415 of 15_flash_storage. -/
abbrev Adr.NFC_WEAR : Nat := 150543
abbrev Fld.NFC_WEAR_MAX_EC : RF := ⟨Adr.NFC_WEAR, 31, 16⟩
abbrev Fld.NFC_WEAR_MEAN_EC : RF := ⟨Adr.NFC_WEAR, 15, 0⟩
/-- `NFC_CNT`, R415 of 15_flash_storage. -/
abbrev Adr.NFC_CNT : Nat := 150544
abbrev Fld.NFC_CNT_CORR_RELOC : RF := ⟨Adr.NFC_CNT, 31, 16⟩
abbrev Fld.NFC_CNT_UNCORR : RF := ⟨Adr.NFC_CNT, 15, 0⟩
/-- `NFC_FLAGS`, R415 of 15_flash_storage. -/
abbrev Adr.NFC_FLAGS : Nat := 150545
abbrev Fld.NFC_FLAGS_CORR_SAT : RF := ⟨Adr.NFC_FLAGS, 1, 1⟩
abbrev Fld.NFC_FLAGS_UNCORR_SAT : RF := ⟨Adr.NFC_FLAGS, 0, 0⟩
/-- `NFC_REQ_CTRL`, R415 of 15_flash_storage. -/
abbrev Adr.NFC_REQ_CTRL : Nat := 150548
abbrev Fld.NFC_REQ_CTRL_GO : RF := ⟨Adr.NFC_REQ_CTRL, 31, 31⟩
abbrev Fld.NFC_REQ_CTRL_OP : RF := ⟨Adr.NFC_REQ_CTRL, 30, 28⟩
abbrev Fld.NFC_REQ_CTRL_PART : RF := ⟨Adr.NFC_REQ_CTRL, 26, 24⟩
abbrev Fld.NFC_REQ_CTRL_INDEX : RF := ⟨Adr.NFC_REQ_CTRL, 20, 16⟩
/-- `NFC_REQ_DRAM`, R415 of 15_flash_storage. -/
abbrev Adr.NFC_REQ_DRAM : Nat := 150549
abbrev Fld.NFC_REQ_DRAM_ADDR : RF := ⟨Adr.NFC_REQ_DRAM, 23, 0⟩
/-- `NFC_REQ_LEN`, R415 of 15_flash_storage. -/
abbrev Adr.NFC_REQ_LEN : Nat := 150550
abbrev Fld.NFC_REQ_LEN_BYTES : RF := ⟨Adr.NFC_REQ_LEN, 31, 0⟩
/-- `NFC_REQ_RES`, R415 of 15_flash_storage. -/
abbrev Adr.NFC_REQ_RES : Nat := 150551
abbrev Fld.NFC_REQ_RES_BUSY : RF := ⟨Adr.NFC_REQ_RES, 31, 31⟩
abbrev Fld.NFC_REQ_RES_DONE : RF := ⟨Adr.NFC_REQ_RES, 30, 30⟩
abbrev Fld.NFC_REQ_RES_CODE : RF := ⟨Adr.NFC_REQ_RES, 3, 0⟩
/-- `NFC_BOOT_SEL`, R415 of 15_flash_storage. -/
abbrev Adr.NFC_BOOT_SEL : Nat := 150552
abbrev Fld.NFC_BOOT_SEL_KEY : RF := ⟨Adr.NFC_BOOT_SEL, 31, 16⟩
abbrev Fld.NFC_BOOT_SEL_SLOT : RF := ⟨Adr.NFC_BOOT_SEL, 0, 0⟩
/-- `NFC_FORMAT`, R415 of 15_flash_storage. -/
abbrev Adr.NFC_FORMAT : Nat := 150553
abbrev Fld.NFC_FORMAT_KEY : RF := ⟨Adr.NFC_FORMAT, 15, 0⟩
/-- `NFC_PART`, R415 of 15_flash_storage. -/
abbrev Adr.NFC_PART (i : Nat) : Nat := 150592 + i
abbrev Fld.NFC_PART_OBJECTS (i : Nat) : RF := ⟨Adr.NFC_PART i, 31, 24⟩
abbrev Fld.NFC_PART_USED (i : Nat) : RF := ⟨Adr.NFC_PART i, 15, 0⟩
/-- `MEM_CFG`, R439 of 16_memory_dma. -/
abbrev Adr.MEM_CFG : Nat := 147464
abbrev Fld.MEM_CFG_SCRUB_EN : RF := ⟨Adr.MEM_CFG, 31, 31⟩
abbrev Fld.MEM_CFG_SCRUB_S : RF := ⟨Adr.MEM_CFG, 15, 0⟩
/-- `MEM_PROMOTE`, R439 of 16_memory_dma. -/
abbrev Adr.MEM_PROMOTE : Nat := 147465
abbrev Fld.MEM_PROMOTE_SAT : RF := ⟨Adr.MEM_PROMOTE, 31, 31⟩
abbrev Fld.MEM_PROMOTE_COUNT : RF := ⟨Adr.MEM_PROMOTE, 30, 0⟩
/-- `MEM_UE_LAST`, R439 of 16_memory_dma. -/
abbrev Adr.MEM_UE_LAST : Nat := 147466
abbrev Fld.MEM_UE_LAST_VALID : RF := ⟨Adr.MEM_UE_LAST, 31, 31⟩
abbrev Fld.MEM_UE_LAST_BANK : RF := ⟨Adr.MEM_UE_LAST, 30, 25⟩
abbrev Fld.MEM_UE_LAST_WORD : RF := ⟨Adr.MEM_UE_LAST, 19, 5⟩
abbrev Fld.MEM_UE_LAST_MASTER : RF := ⟨Adr.MEM_UE_LAST, 4, 0⟩
/-- `MEM_FAIL_LO`, R439 of 16_memory_dma. -/
abbrev Adr.MEM_FAIL_LO : Nat := 147468
abbrev Fld.MEM_FAIL_LO_FAILED : RF := ⟨Adr.MEM_FAIL_LO, 31, 0⟩
/-- `MEM_FAIL_HI`, R439 of 16_memory_dma. -/
abbrev Adr.MEM_FAIL_HI : Nat := 147469
abbrev Fld.MEM_FAIL_HI_FAILED : RF := ⟨Adr.MEM_FAIL_HI, 31, 0⟩
/-- `MEM_DEED`, R439 of 16_memory_dma. -/
abbrev Adr.MEM_DEED (i : Nat) : Nat := 147520 + i
abbrev Fld.MEM_DEED_PASSES (i : Nat) : RF := ⟨Adr.MEM_DEED i, 23, 8⟩
abbrev Fld.MEM_DEED_HOLDER (i : Nat) : RF := ⟨Adr.MEM_DEED i, 4, 0⟩
/-- `MEM_DEED_PASS`, R439 of 16_memory_dma. -/
abbrev Adr.MEM_DEED_PASS (i : Nat) : Nat := 147584 + i
abbrev Fld.MEM_DEED_PASS_TO (i : Nat) : RF := ⟨Adr.MEM_DEED_PASS i, 4, 0⟩
/-- `MEM_ECC`, R439 of 16_memory_dma. -/
abbrev Adr.MEM_ECC (i : Nat) : Nat := 147648 + i
abbrev Fld.MEM_ECC_CE_SAT (i : Nat) : RF := ⟨Adr.MEM_ECC i, 31, 31⟩
abbrev Fld.MEM_ECC_CE (i : Nat) : RF := ⟨Adr.MEM_ECC i, 30, 16⟩
abbrev Fld.MEM_ECC_UE_SAT (i : Nat) : RF := ⟨Adr.MEM_ECC i, 15, 15⟩
abbrev Fld.MEM_ECC_UE (i : Nat) : RF := ⟨Adr.MEM_ECC i, 14, 0⟩
/-- `MAR_CTRL`, R439 of 16_memory_dma. -/
abbrev Adr.MAR_CTRL : Nat := 148488
abbrev Fld.MAR_CTRL_GO : RF := ⟨Adr.MAR_CTRL, 31, 31⟩
abbrev Fld.MAR_CTRL_PRESERVE : RF := ⟨Adr.MAR_CTRL, 30, 30⟩
abbrev Fld.MAR_CTRL_TARGET : RF := ⟨Adr.MAR_CTRL, 29, 28⟩
abbrev Fld.MAR_CTRL_INDEX : RF := ⟨Adr.MAR_CTRL, 6, 0⟩
/-- `MAR_STAT`, R439 of 16_memory_dma. -/
abbrev Adr.MAR_STAT : Nat := 148489
abbrev Fld.MAR_STAT_BUSY : RF := ⟨Adr.MAR_STAT, 31, 31⟩
abbrev Fld.MAR_STAT_DONE : RF := ⟨Adr.MAR_STAT, 30, 30⟩
abbrev Fld.MAR_STAT_FAIL : RF := ⟨Adr.MAR_STAT, 29, 29⟩
abbrev Fld.MAR_STAT_ERR : RF := ⟨Adr.MAR_STAT, 28, 26⟩
abbrev Fld.MAR_STAT_ROW : RF := ⟨Adr.MAR_STAT, 11, 0⟩
/-- `MAR_FAIL_ADDR`, R439 of 16_memory_dma. -/
abbrev Adr.MAR_FAIL_ADDR : Nat := 148490
abbrev Fld.MAR_FAIL_ADDR_OFS : RF := ⟨Adr.MAR_FAIL_ADDR, 31, 0⟩
/-- `MAR_RUNS`, R439 of 16_memory_dma. -/
abbrev Adr.MAR_RUNS : Nat := 148491
abbrev Fld.MAR_RUNS_COUNT : RF := ⟨Adr.MAR_RUNS, 31, 0⟩
/-- `MAR_LANE_FAIL`, R439 of 16_memory_dma. -/
abbrev Adr.MAR_LANE_FAIL (i : Nat) : Nat := 148492 + i
abbrev Fld.MAR_LANE_FAIL_FAILED (i : Nat) : RF := ⟨Adr.MAR_LANE_FAIL i, 31, 0⟩
/-- `DRC_STAT`, R439 of 16_memory_dma. -/
abbrev Adr.DRC_STAT : Nat := 149512
abbrev Fld.DRC_STAT_TRAINED : RF := ⟨Adr.DRC_STAT, 31, 31⟩
abbrev Fld.DRC_STAT_SELF_REF : RF := ⟨Adr.DRC_STAT, 30, 30⟩
abbrev Fld.DRC_STAT_TEMP : RF := ⟨Adr.DRC_STAT, 29, 27⟩
/-- `DRC_SCRUB`, R439 of 16_memory_dma. -/
abbrev Adr.DRC_SCRUB : Nat := 149513
abbrev Fld.DRC_SCRUB_EN : RF := ⟨Adr.DRC_SCRUB, 31, 31⟩
abbrev Fld.DRC_SCRUB_HOURS : RF := ⟨Adr.DRC_SCRUB, 15, 0⟩
/-- `DRC_ECC`, R439 of 16_memory_dma. -/
abbrev Adr.DRC_ECC : Nat := 149514
abbrev Fld.DRC_ECC_CE_SAT : RF := ⟨Adr.DRC_ECC, 31, 31⟩
abbrev Fld.DRC_ECC_CE : RF := ⟨Adr.DRC_ECC, 30, 16⟩
abbrev Fld.DRC_ECC_UE_SAT : RF := ⟨Adr.DRC_ECC, 15, 15⟩
abbrev Fld.DRC_ECC_UE : RF := ⟨Adr.DRC_ECC, 14, 0⟩
/-- `DRC_UE_ADDR_LO`, R439 of 16_memory_dma. -/
abbrev Adr.DRC_UE_ADDR_LO : Nat := 149515
abbrev Fld.DRC_UE_ADDR_LO_ADDR : RF := ⟨Adr.DRC_UE_ADDR_LO, 31, 0⟩
/-- `DRC_UE_ADDR_HI`, R439 of 16_memory_dma. -/
abbrev Adr.DRC_UE_ADDR_HI : Nat := 149516
abbrev Fld.DRC_UE_ADDR_HI_VALID : RF := ⟨Adr.DRC_UE_ADDR_HI, 31, 31⟩
abbrev Fld.DRC_UE_ADDR_HI_ADDR : RF := ⟨Adr.DRC_UE_ADDR_HI, 7, 0⟩
/-- `DMA_GLOBAL`, R439 of 16_memory_dma. -/
abbrev Adr.DMA_GLOBAL : Nat := 146440
abbrev Fld.DMA_GLOBAL_HALT : RF := ⟨Adr.DMA_GLOBAL, 31, 31⟩
abbrev Fld.DMA_GLOBAL_BUS_ERR : RF := ⟨Adr.DMA_GLOBAL, 30, 30⟩
/-- `DMA_ERR_ADDR_LO`, R439 of 16_memory_dma. -/
abbrev Adr.DMA_ERR_ADDR_LO : Nat := 146441
abbrev Fld.DMA_ERR_ADDR_LO_ADDR : RF := ⟨Adr.DMA_ERR_ADDR_LO, 31, 0⟩
/-- `DMA_ERR_ADDR_HI`, R439 of 16_memory_dma. -/
abbrev Adr.DMA_ERR_ADDR_HI : Nat := 146442
abbrev Fld.DMA_ERR_ADDR_HI_CODE : RF := ⟨Adr.DMA_ERR_ADDR_HI, 10, 8⟩
abbrev Fld.DMA_ERR_ADDR_HI_ADDR : RF := ⟨Adr.DMA_ERR_ADDR_HI, 7, 0⟩
/-- `DMA_SRC_LO`, R439 of 16_memory_dma. -/
abbrev Adr.DMA_SRC_LO (i : Nat) : Nat := 146496 + i * 16
abbrev Fld.DMA_SRC_LO_ADDR (i : Nat) : RF := ⟨Adr.DMA_SRC_LO i, 31, 0⟩
/-- `DMA_DST_LO`, R439 of 16_memory_dma. -/
abbrev Adr.DMA_DST_LO (i : Nat) : Nat := 146498 + i * 16
abbrev Fld.DMA_DST_LO_ADDR (i : Nat) : RF := ⟨Adr.DMA_DST_LO i, 31, 0⟩
/-- `DMA_NEXT_LO`, R439 of 16_memory_dma. -/
abbrev Adr.DMA_NEXT_LO (i : Nat) : Nat := 146501 + i * 16
abbrev Fld.DMA_NEXT_LO_ADDR (i : Nat) : RF := ⟨Adr.DMA_NEXT_LO i, 31, 0⟩
/-- `DMA_SRC_HI`, R439 of 16_memory_dma. -/
abbrev Adr.DMA_SRC_HI (i : Nat) : Nat := 146497 + i * 16
abbrev Fld.DMA_SRC_HI_ADDR (i : Nat) : RF := ⟨Adr.DMA_SRC_HI i, 7, 0⟩
/-- `DMA_DST_HI`, R439 of 16_memory_dma. -/
abbrev Adr.DMA_DST_HI (i : Nat) : Nat := 146499 + i * 16
abbrev Fld.DMA_DST_HI_ADDR (i : Nat) : RF := ⟨Adr.DMA_DST_HI i, 7, 0⟩
/-- `DMA_NEXT_HI`, R439 of 16_memory_dma. -/
abbrev Adr.DMA_NEXT_HI (i : Nat) : Nat := 146502 + i * 16
abbrev Fld.DMA_NEXT_HI_ADDR (i : Nat) : RF := ⟨Adr.DMA_NEXT_HI i, 7, 0⟩
/-- `DMA_COUNT`, R439 of 16_memory_dma. -/
abbrev Adr.DMA_COUNT (i : Nat) : Nat := 146500 + i * 16
abbrev Fld.DMA_COUNT_BYTES (i : Nat) : RF := ⟨Adr.DMA_COUNT i, 23, 0⟩
/-- `DMA_CTRL`, R439 of 16_memory_dma. -/
abbrev Adr.DMA_CTRL (i : Nat) : Nat := 146503 + i * 16
abbrev Fld.DMA_CTRL_START (i : Nat) : RF := ⟨Adr.DMA_CTRL i, 31, 31⟩
abbrev Fld.DMA_CTRL_STOP (i : Nat) : RF := ⟨Adr.DMA_CTRL i, 30, 30⟩
abbrev Fld.DMA_CTRL_MOVE (i : Nat) : RF := ⟨Adr.DMA_CTRL i, 29, 29⟩
abbrev Fld.DMA_CTRL_LINK (i : Nat) : RF := ⟨Adr.DMA_CTRL i, 28, 28⟩
abbrev Fld.DMA_CTRL_SRC_INC (i : Nat) : RF := ⟨Adr.DMA_CTRL i, 27, 27⟩
abbrev Fld.DMA_CTRL_DST_INC (i : Nat) : RF := ⟨Adr.DMA_CTRL i, 26, 26⟩
abbrev Fld.DMA_CTRL_IRQ (i : Nat) : RF := ⟨Adr.DMA_CTRL i, 25, 25⟩
abbrev Fld.DMA_CTRL_PACE (i : Nat) : RF := ⟨Adr.DMA_CTRL i, 20, 16⟩
/-- `DMA_STAT`, R439 of 16_memory_dma. -/
abbrev Adr.DMA_STAT (i : Nat) : Nat := 146504 + i * 16
abbrev Fld.DMA_STAT_BUSY (i : Nat) : RF := ⟨Adr.DMA_STAT i, 31, 31⟩
abbrev Fld.DMA_STAT_DONE (i : Nat) : RF := ⟨Adr.DMA_STAT i, 30, 30⟩
abbrev Fld.DMA_STAT_ERR (i : Nat) : RF := ⟨Adr.DMA_STAT i, 29, 27⟩
abbrev Fld.DMA_STAT_DESCS (i : Nat) : RF := ⟨Adr.DMA_STAT i, 15, 0⟩
/-- `FWL_ARM`, R460 of 17_access_lifecycle. -/
abbrev Adr.FWL_ARM : Nat := 3080
abbrev Fld.FWL_ARM_KEY : RF := ⟨Adr.FWL_ARM, 15, 0⟩
/-- `FWL_STAT`, R460 of 17_access_lifecycle. -/
abbrev Adr.FWL_STAT : Nat := 3081
abbrev Fld.FWL_STAT_ENFORCE : RF := ⟨Adr.FWL_STAT, 31, 31⟩
abbrev Fld.FWL_STAT_CLAIMED : RF := ⟨Adr.FWL_STAT, 30, 30⟩
abbrev Fld.FWL_STAT_REFUSED : RF := ⟨Adr.FWL_STAT, 29, 29⟩
abbrev Fld.FWL_STAT_ARM_ERR : RF := ⟨Adr.FWL_STAT, 28, 28⟩
abbrev Fld.FWL_STAT_VALID_RULES : RF := ⟨Adr.FWL_STAT, 12, 0⟩
/-- `FWL_RULE_SEL`, R460 of 17_access_lifecycle. -/
abbrev Adr.FWL_RULE_SEL : Nat := 3082
abbrev Fld.FWL_RULE_SEL_IDX : RF := ⟨Adr.FWL_RULE_SEL, 11, 0⟩
/-- `FWL_RULE_W`, R460 of 17_access_lifecycle. -/
abbrev Adr.FWL_RULE_W (i : Nat) : Nat := 3084 + i
abbrev Fld.FWL_RULE_W_WORD (i : Nat) : RF := ⟨Adr.FWL_RULE_W i, 31, 0⟩
/-- `FWL_RULE_COMMIT`, R460 of 17_access_lifecycle. -/
abbrev Adr.FWL_RULE_COMMIT : Nat := 3088
abbrev Fld.FWL_RULE_COMMIT_COMMIT : RF := ⟨Adr.FWL_RULE_COMMIT, 31, 0⟩
/-- `FWL_VIOL_CNT`, R460 of 17_access_lifecycle. -/
abbrev Adr.FWL_VIOL_CNT : Nat := 3089
abbrev Fld.FWL_VIOL_CNT_SAT : RF := ⟨Adr.FWL_VIOL_CNT, 31, 31⟩
abbrev Fld.FWL_VIOL_CNT_COUNT : RF := ⟨Adr.FWL_VIOL_CNT, 30, 0⟩
/-- `FWL_VIOL_LAST_A`, R460 of 17_access_lifecycle. -/
abbrev Adr.FWL_VIOL_LAST_A : Nat := 3090
abbrev Fld.FWL_VIOL_LAST_A_VALID : RF := ⟨Adr.FWL_VIOL_LAST_A, 31, 31⟩
abbrev Fld.FWL_VIOL_LAST_A_ACCESS : RF := ⟨Adr.FWL_VIOL_LAST_A, 30, 29⟩
abbrev Fld.FWL_VIOL_LAST_A_MASTER : RF := ⟨Adr.FWL_VIOL_LAST_A, 28, 24⟩
abbrev Fld.FWL_VIOL_LAST_A_TARGET : RF := ⟨Adr.FWL_VIOL_LAST_A, 7, 0⟩
/-- `FWL_VIOL_LAST_B`, R460 of 17_access_lifecycle. -/
abbrev Adr.FWL_VIOL_LAST_B : Nat := 3091
abbrev Fld.FWL_VIOL_LAST_B_OFS : RF := ⟨Adr.FWL_VIOL_LAST_B, 31, 0⟩
/-- `FWL_TGT`, R460 of 17_access_lifecycle. -/
abbrev Adr.FWL_TGT (i : Nat) : Nat := 3136 + i
abbrev Fld.FWL_TGT_FIRST (i : Nat) : RF := ⟨Adr.FWL_TGT i, 27, 16⟩
abbrev Fld.FWL_TGT_COUNT (i : Nat) : RF := ⟨Adr.FWL_TGT i, 12, 0⟩
/-- `LCS_STATE`, R460 of 17_access_lifecycle. -/
abbrev Adr.LCS_STATE : Nat := 4104
abbrev Fld.LCS_STATE_STATE : RF := ⟨Adr.LCS_STATE, 31, 29⟩
abbrev Fld.LCS_STATE_PENDING : RF := ⟨Adr.LCS_STATE, 28, 28⟩
abbrev Fld.LCS_STATE_TARGET : RF := ⟨Adr.LCS_STATE, 27, 25⟩
abbrev Fld.LCS_STATE_SECRET : RF := ⟨Adr.LCS_STATE, 3, 3⟩
abbrev Fld.LCS_STATE_LEDGER_KEY : RF := ⟨Adr.LCS_STATE, 2, 2⟩
abbrev Fld.LCS_STATE_CFG_KEY : RF := ⟨Adr.LCS_STATE, 1, 1⟩
abbrev Fld.LCS_STATE_CUST_KEY : RF := ⟨Adr.LCS_STATE, 0, 0⟩
/-- `LCS_UID_LO`, R460 of 17_access_lifecycle. -/
abbrev Adr.LCS_UID_LO : Nat := 4105
abbrev Fld.LCS_UID_LO_UID : RF := ⟨Adr.LCS_UID_LO, 31, 0⟩
/-- `LCS_UID_HI`, R460 of 17_access_lifecycle. -/
abbrev Adr.LCS_UID_HI : Nat := 4106
abbrev Fld.LCS_UID_HI_UID : RF := ⟨Adr.LCS_UID_HI, 31, 0⟩
/-- `LCS_NONCE_LO`, R460 of 17_access_lifecycle. -/
abbrev Adr.LCS_NONCE_LO : Nat := 4107
abbrev Fld.LCS_NONCE_LO_NONCE : RF := ⟨Adr.LCS_NONCE_LO, 31, 0⟩
/-- `LCS_NONCE_HI`, R460 of 17_access_lifecycle. -/
abbrev Adr.LCS_NONCE_HI : Nat := 4108
abbrev Fld.LCS_NONCE_HI_NONCE : RF := ⟨Adr.LCS_NONCE_HI, 31, 0⟩
/-- `LCS_REQ`, R460 of 17_access_lifecycle. -/
abbrev Adr.LCS_REQ : Nat := 4109
abbrev Fld.LCS_REQ_GO : RF := ⟨Adr.LCS_REQ, 31, 31⟩
abbrev Fld.LCS_REQ_OP : RF := ⟨Adr.LCS_REQ, 30, 28⟩
abbrev Fld.LCS_REQ_ARG : RF := ⟨Adr.LCS_REQ, 7, 0⟩
/-- `LCS_RESULT`, R460 of 17_access_lifecycle. -/
abbrev Adr.LCS_RESULT : Nat := 4110
abbrev Fld.LCS_RESULT_BUSY : RF := ⟨Adr.LCS_RESULT, 31, 31⟩
abbrev Fld.LCS_RESULT_DONE : RF := ⟨Adr.LCS_RESULT, 30, 30⟩
abbrev Fld.LCS_RESULT_CODE : RF := ⟨Adr.LCS_RESULT, 2, 0⟩
/-- `LCS_DBG`, R460 of 17_access_lifecycle. -/
abbrev Adr.LCS_DBG : Nat := 4111
abbrev Fld.LCS_DBG_OPEN : RF := ⟨Adr.LCS_DBG, 31, 31⟩
abbrev Fld.LCS_DBG_MAKER : RF := ⟨Adr.LCS_DBG, 30, 30⟩
/-- `LCS_TOKEN`, R460 of 17_access_lifecycle. -/
abbrev Adr.LCS_TOKEN (i : Nat) : Nat := 4160 + i
abbrev Fld.LCS_TOKEN_WORD (i : Nat) : RF := ⟨Adr.LCS_TOKEN i, 31, 0⟩
/-- `LCS_PUBKEY`, R460 of 17_access_lifecycle. -/
abbrev Adr.LCS_PUBKEY (i : Nat) : Nat := 4184 + i
abbrev Fld.LCS_PUBKEY_WORD (i : Nat) : RF := ⟨Adr.LCS_PUBKEY i, 31, 0⟩
/-- `LCS_DATA`, R460 of 17_access_lifecycle. -/
abbrev Adr.LCS_DATA (i : Nat) : Nat := 4208 + i
abbrev Fld.LCS_DATA_WORD (i : Nat) : RF := ⟨Adr.LCS_DATA i, 31, 0⟩
/-- `LCS_SECRET`, R460 of 17_access_lifecycle. -/
abbrev Adr.LCS_SECRET (i : Nat) : Nat := 4224 + i
abbrev Fld.LCS_SECRET_WORD (i : Nat) : RF := ⟨Adr.LCS_SECRET i, 31, 0⟩
/-- `TMX_STAT`, R460 of 17_access_lifecycle. -/
abbrev Adr.TMX_STAT : Nat := 5128
abbrev Fld.TMX_STAT_REFUSED : RF := ⟨Adr.TMX_STAT, 7, 0⟩
/-- `TMX_SEL`, R460 of 17_access_lifecycle. -/
abbrev Adr.TMX_SEL (i : Nat) : Nat := 5184 + i
abbrev Fld.TMX_SEL_EN (i : Nat) : RF := ⟨Adr.TMX_SEL i, 31, 31⟩
abbrev Fld.TMX_SEL_SIG (i : Nat) : RF := ⟨Adr.TMX_SEL i, 8, 0⟩
/-- `PWR_STAT`, R478 of 18_power_reset_boot. -/
abbrev Adr.PWR_STAT : Nat := 1032
abbrev Fld.PWR_STAT_STATE : RF := ⟨Adr.PWR_STAT, 31, 29⟩
abbrev Fld.PWR_STAT_LANES_ON : RF := ⟨Adr.PWR_STAT, 28, 28⟩
abbrev Fld.PWR_STAT_CORES_FULL : RF := ⟨Adr.PWR_STAT, 27, 27⟩
abbrev Fld.PWR_STAT_WHY : RF := ⟨Adr.PWR_STAT, 26, 24⟩
abbrev Fld.PWR_STAT_OFF_REF : RF := ⟨Adr.PWR_STAT, 23, 23⟩
/-- `PWR_OFF`, R478 of 18_power_reset_boot. -/
abbrev Adr.PWR_OFF : Nat := 1033
abbrev Fld.PWR_OFF_KEY : RF := ⟨Adr.PWR_OFF, 15, 0⟩
/-- `PWR_DOZE_CNT`, R478 of 18_power_reset_boot. -/
abbrev Adr.PWR_DOZE_CNT : Nat := 1034
abbrev Fld.PWR_DOZE_CNT_COUNT : RF := ⟨Adr.PWR_DOZE_CNT, 31, 0⟩
/-- `PWR_LAT_TOL`, R478 of 18_power_reset_boot. -/
abbrev Adr.PWR_LAT_TOL (i : Nat) : Nat := 1088 + i
abbrev Fld.PWR_LAT_TOL_EN (i : Nat) : RF := ⟨Adr.PWR_LAT_TOL i, 31, 31⟩
abbrev Fld.PWR_LAT_TOL_CLASS (i : Nat) : RF := ⟨Adr.PWR_LAT_TOL i, 30, 30⟩
abbrev Fld.PWR_LAT_TOL_US (i : Nat) : RF := ⟨Adr.PWR_LAT_TOL i, 23, 0⟩
/-- `SYS_CAPS`, R478 of 18_power_reset_boot. -/
abbrev Adr.SYS_CAPS : Nat := 1
abbrev Fld.SYS_CAPS_STEPPING : RF := ⟨Adr.SYS_CAPS, 31, 28⟩
abbrev Fld.SYS_CAPS_GNSS : RF := ⟨Adr.SYS_CAPS, 0, 0⟩
/-- `SYS_RST_CAUSE`, R478 of 18_power_reset_boot. -/
abbrev Adr.SYS_RST_CAUSE : Nat := 8
abbrev Fld.SYS_RST_CAUSE_CODE : RF := ⟨Adr.SYS_RST_CAUSE, 31, 28⟩
abbrev Fld.SYS_RST_CAUSE_SUB : RF := ⟨Adr.SYS_RST_CAUSE, 27, 24⟩
/-- `SYS_RST_CNT`, R478 of 18_power_reset_boot. -/
abbrev Adr.SYS_RST_CNT : Nat := 9
abbrev Fld.SYS_RST_CNT_WDT : RF := ⟨Adr.SYS_RST_CNT, 31, 16⟩
abbrev Fld.SYS_RST_CNT_SHP : RF := ⟨Adr.SYS_RST_CNT, 15, 0⟩
/-- `SYS_SWRESET`, R478 of 18_power_reset_boot. -/
abbrev Adr.SYS_SWRESET : Nat := 10
abbrev Fld.SYS_SWRESET_KEY : RF := ⟨Adr.SYS_SWRESET, 15, 0⟩
/-- `SYS_WDT_CFG`, R478 of 18_power_reset_boot. -/
abbrev Adr.SYS_WDT_CFG : Nat := 11
abbrev Fld.SYS_WDT_CFG_EN : RF := ⟨Adr.SYS_WDT_CFG, 31, 31⟩
abbrev Fld.SYS_WDT_CFG_MS : RF := ⟨Adr.SYS_WDT_CFG, 9, 0⟩
/-- `SYS_WDT_KICK`, R478 of 18_power_reset_boot. -/
abbrev Adr.SYS_WDT_KICK : Nat := 12
abbrev Fld.SYS_WDT_KICK_KEY : RF := ⟨Adr.SYS_WDT_KICK, 15, 0⟩
/-- `SYS_BOOT`, R478 of 18_power_reset_boot. -/
abbrev Adr.SYS_BOOT : Nat := 13
abbrev Fld.SYS_BOOT_SRC : RF := ⟨Adr.SYS_BOOT, 31, 30⟩
abbrev Fld.SYS_BOOT_SHP_STALE : RF := ⟨Adr.SYS_BOOT, 29, 29⟩
abbrev Fld.SYS_BOOT_LAYOUT : RF := ⟨Adr.SYS_BOOT, 23, 16⟩
abbrev Fld.SYS_BOOT_TRY_PREF : RF := ⟨Adr.SYS_BOOT, 15, 12⟩
abbrev Fld.SYS_BOOT_TRY_OTHER : RF := ⟨Adr.SYS_BOOT, 11, 8⟩
abbrev Fld.SYS_BOOT_TRY_PARTNER : RF := ⟨Adr.SYS_BOOT, 7, 4⟩
/-- `SYS_START`, R478 of 18_power_reset_boot. -/
abbrev Adr.SYS_START : Nat := 14
abbrev Fld.SYS_START_STEP : RF := ⟨Adr.SYS_START, 31, 29⟩
abbrev Fld.SYS_START_SAF_DIFF : RF := ⟨Adr.SYS_START, 28, 28⟩
abbrev Fld.SYS_START_NEXT_REF : RF := ⟨Adr.SYS_START, 27, 27⟩
/-- `SYS_START_CTRL`, R478 of 18_power_reset_boot. -/
abbrev Adr.SYS_START_CTRL : Nat := 15
abbrev Fld.SYS_START_CTRL_NEXT : RF := ⟨Adr.SYS_START_CTRL, 31, 31⟩
abbrev Fld.SYS_START_CTRL_CORE_REL : RF := ⟨Adr.SYS_START_CTRL, 3, 1⟩
/-- `SYS_SAF_LOC`, R478 of 18_power_reset_boot. -/
abbrev Adr.SYS_SAF_LOC : Nat := 16
abbrev Fld.SYS_SAF_LOC_BANK : RF := ⟨Adr.SYS_SAF_LOC, 29, 24⟩
abbrev Fld.SYS_SAF_LOC_OFS : RF := ⟨Adr.SYS_SAF_LOC, 11, 0⟩
/-- `SYS_RETAIN`, R478 of 18_power_reset_boot. -/
abbrev Adr.SYS_RETAIN : Nat := 17
abbrev Fld.SYS_RETAIN_RING_BANK : RF := ⟨Adr.SYS_RETAIN, 5, 0⟩
/-- `PWR_AVS`, R493 of 19_electrical_package. -/
abbrev Adr.PWR_AVS : Nat := 1035
abbrev Fld.PWR_AVS_FIXED : RF := ⟨Adr.PWR_AVS, 31, 31⟩
abbrev Fld.PWR_AVS_CMD_MV : RF := ⟨Adr.PWR_AVS, 25, 16⟩
abbrev Fld.PWR_AVS_READ_MV : RF := ⟨Adr.PWR_AVS, 9, 0⟩
/-- `PWR_THERM`, R493 of 19_electrical_package. -/
abbrev Adr.PWR_THERM : Nat := 1036
abbrev Fld.PWR_THERM_WARN : RF := ⟨Adr.PWR_THERM, 31, 31⟩
abbrev Fld.PWR_THERM_LIMIT : RF := ⟨Adr.PWR_THERM, 30, 24⟩
abbrev Fld.PWR_THERM_TJ : RF := ⟨Adr.PWR_THERM, 15, 0⟩
/-- `LSC_JOB[i][j]` (R219): descriptors 0–59 on LSC1, 60–97 on LSC2. -/
abbrev Adr.LSC_JOB (i j : Nat) : Nat :=
  if i < 60 then 46144 + i * 16 + j else 47168 + (i - 60) * 16 + j
/-- `CLE_TRAJ_T0_LO`, R241 of 08_control_engine. -/
abbrev Adr.CLE_TRAJ_T0_LO : Nat := 31752
abbrev Fld.CLE_TRAJ_T0_LO_T0 : RF := ⟨Adr.CLE_TRAJ_T0_LO, 31, 0⟩
/-- `CLE_TRAJ_T0_HI`, R241 of 08_control_engine. -/
abbrev Adr.CLE_TRAJ_T0_HI : Nat := 31753
abbrev Fld.CLE_TRAJ_T0_HI_T0 : RF := ⟨Adr.CLE_TRAJ_T0_HI, 31, 0⟩
/-- `CLE_TRAJ`, R241 of 08_control_engine. -/
abbrev Adr.CLE_TRAJ (i j : Nat) : Nat := 31808 + i * 24 + j
abbrev Fld.CLE_TRAJ_THR (i j : Nat) : RF := ⟨Adr.CLE_TRAJ i j, 31, 16⟩
abbrev Fld.CLE_TRAJ_AZ (i j : Nat) : RF := ⟨Adr.CLE_TRAJ i j, 15, 0⟩
/-- `GNS_MEAS_BUF` word `i` (R126): GNS2 from 0x100, then GNS3 from 0x100. -/
abbrev Adr.GNS_MEAS_BUF (i : Nat) : Nat :=
  if i < 960 then 35904 + i else 36928 + (i - 960)

end Sys2Proof.Machine
end

