-- ==== Sys2Proof/Machine/Sparse.lean ====
section
/-! DEFINITION. Sparse data by key: a list of (key, value) pairs in one canonical form, keys strictly rising and no entry
equal to what an unlisted key reads as (`d`). Registers, memory and the other large arrays of the block are held so. -/

namespace Sys2Proof.Machine

variable {β : Type}

/-- The value at key `k`; an unlisted key reads `d k`. -/
def spGet (d : Nat → β) : List (Nat × β) → Nat → β
  | [], k => d k
  | (a, v) :: m, k => if k = a then v else if k < a then d k else spGet d m k

/-- Remove key `k`. -/
def spErase : List (Nat × β) → Nat → List (Nat × β)
  | [], _ => []
  | (a, v) :: m, k => if k = a then m else if k < a then (a, v) :: m else (a, v) :: spErase m k

/-- Insert or replace the entry of key `k`. -/
def spInsert : List (Nat × β) → Nat → β → List (Nat × β)
  | [], k, w => [(k, w)]
  | (a, v) :: m, k, w =>
    if k = a then (k, w) :: m else if k < a then (k, w) :: (a, v) :: m else (a, v) :: spInsert m k w

/-- Write `w` at key `k`, keeping the canonical form. -/
def spSet [DecidableEq β] (d : Nat → β) (m : List (Nat × β)) (k : Nat) (w : β) : List (Nat × β) :=
  if w = d k then spErase m k else spInsert m k w

/-- Every listed key is above `lo`. -/
def spAbove (lo : Nat) : List (Nat × β) → Bool
  | [] => true
  | (a, _) :: m => decide (lo < a) && spAbove lo m

/-- The canonical form: keys strictly rising, no entry equal to what an unlisted key reads as. -/
def spWf [DecidableEq β] (d : Nat → β) : List (Nat × β) → Bool
  | [] => true
  | (a, v) :: m => spAbove a m && decide (v ≠ d a) && spWf d m

/-- Remove every key in [lo, hi). -/
def spClear (m : List (Nat × β)) (lo hi : Nat) : List (Nat × β) := m.filter fun e => e.1 < lo || hi ≤ e.1

end Sys2Proof.Machine
end

