-- ==== Sys2Proof/Machine/State.lean ====
section
/-! DEFINITION. The state of one FH9600 as plain data, and the state after power-on reset.

The registers of the 153 pages stand in ONE register file, `regs`, keyed by word address (page × 1,024 + offset / 4), with a
second file for the shadows of RWS registers (R9, R501). Both are sparse: an unlisted register holds its reset value of
Machine/RegTable.lean. Memory is one sparse list of bytes; an unlisted byte reads 0 (R425, R430). Every other piece of
state the spec gives the device stands in the structures below, one per chapter. The value after each `:=` is the value
after reset. -/

namespace Sys2Proof.Machine

/-- Why a step stops with a fault. No command of this block ends so: every request outside the device's address space is
answered on the fabric (R18) and the block goes on. -/
inductive Fault where
  /-- Never raised; the fabric answers DECERR instead (safe). -/
  | none
deriving DecidableEq, Repr

/-- Why a command has no meaning. -/
inductive Refusal where
  /-- The command has no meaning in the model yet (safe): raised only by the dispatcher. -/
  | notModelled (mnemonic : String)
deriving DecidableEq, Repr

/-- The five fabric responses of R19. -/
inductive Rsp where
  | okay | decErr | denied | tgtErr | retired
deriving DecidableEq, Repr

/-- The answer to the last request or register read: response and data. -/
structure Answer where
  rsp : Rsp := .okay
  data : List Byte := []
deriving DecidableEq, Repr

/-- A record offered to the ledger writer (R372, R375): source, type, time of the cause and payload; `sw` names the software
window that offered it (R379), `trig` is 1 on a TRIGGER record that the vault captures (R387). -/
structure LRec where
  source : Nat := 0
  type : Nat := 0
  time : Nat := 0
  payload : List Byte := []
  sw : Option Nat := none
  trig : Bool := false
deriving DecidableEq, Repr


/-- Where a message leaves the device. -/
inductive Port where
  | can | icvo | eth | uart | field | avs | tpulse | pairBeat
deriving DecidableEq, Repr

/-- One message that has left the device: its port, the port's number, and its bytes. -/
structure Msg where
  port : Port
  index : Nat := 0
  bytes : List Byte := []
deriving DecidableEq, Repr


/-- Time block (R356–R359). -/
structure TimeSt where
  /-- Raw counter, 64 bits, 1 ns (R356). -/
  raw : Nat := 0
  /-- Offset in force, modulo 2⁶⁴ (R357). -/
  ofs : Nat := 0
  /-- Rate in force, signed, units of 2⁻⁴⁸ (R357). -/
  rate : Int := 0
  /-- Epoch of the rate, a raw value (R357). -/
  epoch : Nat := 0
  /-- Slew remaining, signed ns (R359). -/
  slew : Int := 0
  /-- Consecutive accepted observations of PTP, GNSS and PPS, at most 3 (R129, R362, R364). -/
  ptpRun : Nat := 0
  gnssRun : Nat := 0
  ppsRun : Nat := 0
  /-- GNSS is an available source (R129). -/
  gnssAvail : Bool := false
  /-- `SIGMA` of the last observation accepted from PTP, from GNSS (R366). -/
  sigPtp : Nat := 0
  sigGnss : Nat := 0
  /-- The uncertainty while a source was last selected (R366). -/
  uncBase : Nat := 0
  /-- Raw value at the last observation accepted from any source (R366). -/
  lastObs : Nat := 0
  /-- The last PPS rise not yet ended: stamp L and raw value (R363). -/
  ppsRise : Option (Nat × Nat) := none
  /-- `PPS_TIME` of the last valid heartbeat and the disciplined time of its arrival (R310, R363). -/
  hbPps : Option (Nat × Nat) := none
  /-- Disciplined time of the last TPULSE edge (R310, R364). -/
  lastTp : Nat := 0
deriving DecidableEq, Repr

/-- Event controller (R24–R28). -/
structure EvtSt where
  /-- (target, source) pairs claimed and not yet done (R24–R26). -/
  claimed : List (Nat × Nat) := []
  /-- Sources already recorded in this beat (R28). -/
  recorded : List Nat := []
  /-- Assertions waiting to be counted into the next record of a source (R28), by source. -/
  merged : List (Nat × Nat) := []
deriving DecidableEq, Repr

/-- One block under reset (R29, R30). -/
structure ResetSt where
  page : Nat
  /-- Disciplined time of the reset write (R375). -/
  time : Nat
  /-- Requests answered RETIRED so far (R19, R29). -/
  retired : Nat
deriving DecidableEq, Repr

/-- Fabric (R19, R29, R377). -/
structure FabSt where
  /-- Blocks under reset (R29). -/
  inReset : List ResetSt := []
  /-- Masters whose error response of this beat is already recorded (R377). -/
  recorded : List Nat := []
  /-- Further error responses to be counted into a master's next record (R377), by master. -/
  merged : List (Nat × Nat) := []
deriving DecidableEq, Repr

/-- Ledger writer (R372–R390). -/
structure LgrSt where
  /-- Offered records, oldest first, at most 256 (R376). -/
  queue : List LRec := []
  /-- Staged records not yet on flash: sequence number and raw time of staging (R381). -/
  unflushed : List (Nat × Nat) := []
  /-- Units handed to the flash manager and not yet written, oldest first (R381). -/
  units : List Nat := []
  /-- Records lost since the last GAP record (R382). -/
  lost : Nat := 0
  /-- Time and source of the first of them. -/
  lostTime : Nat := 0
  lostSrc : Nat := 0
  /-- Sequence number of the last START record (R386). -/
  startSeq : Nat := 0
  /-- The till on flash (R383): unit number and its 4,096 bytes. -/
  till : List (Nat × List Byte) := []
  /-- Vault header (R385): state, first and last sequence number, and the records held. -/
  vState : Nat := 0
  vFirst : Nat := 0
  vLast : Nat := 0
  vault : List (List Byte) := []
  /-- POST records still to take after a trigger (R386); none while filling without CROSS. -/
  vPost : Option Nat := none
  /-- A captured trigger whose record is not yet staged (R387). -/
  vTrig : Bool := false
  /-- The valid nonce (R388). -/
  nonce : Option (BitVec 64) := none
  /-- Frame number whose frame records are offered (R378) and whether they were. -/
  frameDue : Option Nat := none
  /-- An extraction in progress (R390). -/
  xtr : Bool := false
  /-- The `START` record, to be staged before every other (R374, R384). -/
  start : Option LRec := none
  /-- The ring scan since the last device reset is done (R384). -/
  scanned : Bool := false
  /-- The next sequence number to assign (R374). -/
  nextSeq : Nat := 0
deriving DecidableEq, Repr

/-- One march test in progress (R426–R428): target kind (0 bank, 1 lane memory, 2 feature-engine memory), index, preserving. -/
structure March where
  target : Nat
  index : Nat
  preserve : Bool
deriving DecidableEq, Repr

/-- A memory range [lo, hi) filled at once: with undefined contents, the free bytes from draw `src` on, or with zeros. -/
structure Fill where
  lo : Nat
  hi : Nat
  src : Option Nat
deriving DecidableEq, Repr

/-- On-chip memory and DRAM (R416–R430). -/
structure MemSt where
  /-- Ranges that read as undefined contents or as zero where nothing has been written since, newest first. -/
  fill : List Fill := []
  /-- Halves holding an error, by byte address: 1 correctable, 2 uncorrectable (R423). -/
  ecc : List (Nat × Nat) := []
  /-- The clear of the on-chip memories is complete (R425). -/
  cleared : Bool := false
  /-- The feature-engine memory has failed its march test (R426). -/
  gfeFailed : Bool := false
  /-- Dirty bits of the 256-byte blocks of tracked banks (R320), by bank × 1,024 + block. -/
  dirty : List (Nat × Bool) := []
  /-- `ECC_CE` already raised in this beat by MEM, by DRC (R439). -/
  ceMem : Bool := false
  ceDrc : Bool := false
  /-- March tests in progress. -/
  march : List March := []
deriving DecidableEq, Repr

/-- DMA (R431–R437). -/
structure DmaSt where
  /-- Channels with a STOP waiting for their outstanding responses (R435). -/
  stopping : List Nat := []
  /-- Words a paced transfer has brought to a deposit window so far, by channel (R70, R433). -/
  held : List (Nat × List Byte) := []
deriving DecidableEq, Repr

/-- Access tables (R442–R448): the 4,096 rules, word w of rule j at key 4·j + w. -/
structure FwlSt where
  rules : List (Nat × Word) := []
deriving DecidableEq, Repr

/-- Fuses and life cycle (R450–R457). -/
structure LcsSt where
  /-- Fuses blown in the groups of states 1–5, 0–3 each (R451). -/
  fuses : List Nat := [0, 0, 0, 0, 0]
  /-- State in force: read at power-on reset and RESET_N (R451). -/
  state : Nat := 0
  /-- SHA-384 hashes of the customer, configuration and ledger-release keys (R452). -/
  custHash : Option (List Byte) := none
  cfgHash : Option (List Byte) := none
  lgrHash : Option (List Byte) := none
  /-- The customer secret's fuses (R452, R455). -/
  secret : Option (List Byte) := none
  /-- The device's unique identity. -/
  uid : BitVec 64 := 0
  /-- The valid nonce (R453). -/
  nonce : Option (BitVec 64) := none
  /-- The cores the debug port holds halted: bit c a core, bit 4 the shepherd core (R457). -/
  halted : Nat := 0
  /-- The first start in RETURNED has been made (R455). -/
  erased : Bool := false
deriving DecidableEq, Repr

/-- The TAP instructions (R459). -/
inductive TapIr where
  | bypass | idcode | samplePreload | extest | clamp | highz | dbgAccess
deriving DecidableEq, Repr

/-- Boundary scan (R459). -/
structure TapSt where
  ir : TapIr := .idcode
  /-- The boundary chain's contents. -/
  chain : List Bool := []
  /-- Pin values captured by SAMPLE. -/
  sampled : List Bool := []
  /-- The data last shifted out. -/
  out : Nat := 0
deriving DecidableEq, Repr

/-- Power sequencer, device resets and boot (R461–R477, R480–R482). -/
structure PwrSt where
  /-- The device has power (false in OFF and after a loss of VAON). -/
  on : Bool := true
  /-- VAON is in range. -/
  vaon : Bool := true
  /-- The main island is held in reset (R468). -/
  mainHeld : Bool := true
  /-- A main rail is out of range (R482). -/
  railBad : Bool := false
  /-- A change that stops the lanes, waiting for the next B0 edge (R464). -/
  pendingDown : Option Nat := none
  /-- CAN, Icvo and PAIR_BEAT are stopped by a clock fault (R23). -/
  silent : Bool := false
  /-- Application cores released: bit c (R468). -/
  cores : Nat := 0
  /-- Application cores in their wait state: bit c (R462). -/
  waiting : Nat := 0
  /-- The shepherd core waits in the boot ROM (R475). -/
  shpWaiting : Bool := true
  /-- SHA-384 of the section the shepherd core runs (R475). -/
  shpHash : List Byte := []
  /-- The bank that holds the handed-over shepherd section and the section's length (R475). -/
  shpSection : Option (Nat × Nat) := none
  /-- The boot ROM waits 10 s to try again (R473). -/
  bootWait : Bool := false
  /-- A partner boot is in progress, and the boot data received: offset and bytes (R474). -/
  bootPartner : Bool := false
  bootGot : List (Nat × List Byte) := []
  /-- Every boot source has failed: nothing leaves on CAN or Icvo but boot requests (R473). -/
  bootMute : Bool := false
  /-- Raw time at which this unit last answered a boot request (R474). -/
  bootServe : Option Nat := none
  /-- The entry address of the application section the boot ROM loaded (R471). -/
  bootEntry : Nat := 0
  /-- Consecutive failed AVSBus transactions (R480). -/
  avsFails : Nat := 0
  /-- Half of the watchdog's time has passed without a restart (R469). -/
  wdtHalf : Bool := false
  /-- SHA-384 of the handed-over shepherd section as its firmware header gives it (R475). -/
  shpNew : List Byte := []
deriving DecidableEq, Repr

/-- What is fitted and strapped. -/
structure DevSt where
  /-- FH9600-AG: the GNSS baseband is fitted (R2). -/
  gnss : Bool := true
  /-- The level of the PAIR_ID strap (R306). -/
  pairId : Nat := 0
  /-- The unit it made this device at the last sampling: 0 unit A, 1 unit B (R306). -/
  unit : Nat := 0
deriving DecidableEq, Repr

/-- What is known of the frame in progress (R40–R52) and of the beat generator (R37, R38). -/
structure FrameSt where
  /-- The frame path runs in this frame: false where it is suspended (R315), in DOZE (R465) or before beats start. -/
  runs : Bool := false
  /-- Completion of the stages of R40 in this frame. -/
  fusDone : Bool := false
  asmDone : Bool := false
  lanDone : Bool := false
  cmdDone : Bool := false
  recDone : Bool := false
  pubDone : Bool := false
  /-- The estimate block of this frame was accepted at B7 (R160). -/
  estOk : Bool := false
  /-- Overruns of this frame (R46). -/
  ovrFus : Bool := false
  estLate : Bool := false
  ovrAsm : Bool := false
  ovrCmd : Bool := false
  /-- The publish stage of the previous frame overran; of this frame. -/
  prevOvrPub : Bool := false
  ovrPub : Bool := false
  /-- LATE samples latched into this frame, at most 255 (R43, R48). -/
  lateCnt : Nat := 0
  /-- A sample was latched while its port was in CLOCK_SUSPECT (R48). -/
  suspect : Bool := false
  /-- A live source was read during B0–B33 (R53). -/
  liveRead : Bool := false
  /-- An uncorrectable ECC error on the frame path (R423). -/
  eccUe : Bool := false
  /-- `FREE_RUN` at this frame's B0 edge. -/
  freeRun : Bool := false
  /-- Lanes that ended DEADLINE or STALE; whether any ended DEADLINE, STALE; scenarios solved (R48). -/
  lanesDl : Nat := 0
  deadline : Bool := false
  stale : Bool := false
  scenDone : Nat := 0
  /-- Selection of command formation: backstop (R231). -/
  selBackstop : Bool := false
  /-- The frame is computed from a replayed snapshot (R59). -/
  replay : Bool := false
  /-- Error of the edges against their targets still to be removed by realignment, and without realignment, ns (R38). -/
  realignErr : Int := 0
  driftErr : Int := 0
  /-- The last published frame number, status word and digest (R48–R50). -/
  pubFrame : Nat := 0
  pubStat : Nat := 0
  pubDigest : Nat := 0
  /-- The values latched by the last read of `CMD_FRM_NUM_LO` (R60). -/
  latched : Option (Nat × Nat × Nat) := none
  /-- The frame's mode (R229): 0 `MANUAL`, 1 `AUTO`, 2 `GRAZE`, 3 `SAFE_STOP`. -/
  mode : Nat := 0
  /-- The mode at the B36 commit (R48). -/
  mode36 : Nat := 0
  /-- Disciplined time of the last B0 edge (R41–R43). -/
  lastB0 : Option Nat := none
  /-- START_TMO counts: step 3 has ended (R37, R476). -/
  startTmo : Bool := false
deriving DecidableEq, Repr


/-- A segmented replay message being received (R54): kind, frame number, segment count and the segments held. -/
structure RplMsg where
  kind : Nat
  frame : Nat
  count : Nat
  segs : List (Nat × List Byte)
deriving DecidableEq, Repr

/-- Replay port (R54–R59). -/
structure RplSt where
  /-- Receive mode's holds of R58 are in force: until `MODE` is changed and the block is reset. -/
  hold : Bool := false
  /-- The snapshot of the frame in progress has been queued (R54, R55). -/
  queued : Bool := false
  /-- Frames queued for sending, oldest first, at most 8; each is the list of its Ethernet frames still to send (R55). -/
  tx : List (List (List Byte)) := []
  /-- A full strongbox image is to be sent with the next image (R55). -/
  fullDue : Bool := false
  /-- Receive: a complete full image that the next B0 edge loads (R59). -/
  img : List Byte := []
  /-- Receive: the configuration digest of the loaded full image; none while no snapshot may be processed (R59). -/
  loaded : Option Nat := none
  /-- Receive: a trailer's configuration digest differs from the loaded image's; processing has stopped (R59). -/
  stopped : Bool := false
  /-- Receive: messages of which segments are held. -/
  got : List RplMsg := []
  /-- Receive: complete snapshots waiting for a B0 edge: frame number and payload. -/
  ready : List (Nat × List Byte) := []
deriving DecidableEq, Repr


/-- One deposited sample (R66, R70, R73). -/
structure Smp where
  /-- The 64 bytes as deposited. -/
  bytes : List Byte
  /-- The copied point block of a scan (R73). -/
  pts : List Byte := []
  /-- Its 64 KiB place in the scan store, of a scan. -/
  slot : Nat := 0
  /-- Disciplined time and raw counter of its arrival (R42, R76). -/
  arr : Nat
  cyc : Nat
  /-- Disciplined time of the last B0 edge before its arrival (R43). -/
  prevB0 : Option Nat := none
  /-- Counted in `FUTURE` (R78); held over an edge with `ENABLE` at 0 (R504). -/
  waited : Bool := false
  held : Bool := false
deriving DecidableEq, Repr

/-- One sample latched into the frame (R43, R75–R77). -/
structure Latched where
  smp : Smp
  tov : Nat
  late : Bool := false
  susp : Bool := false
deriving DecidableEq, Repr

/-- One intake port (R62–R84). -/
structure FusPort where
  /-- Queued samples in order of arrival (R71). -/
  queue : List Smp := []
  /-- Scan headers whose point blocks are being copied, oldest first (R73). -/
  copies : List (List Byte) := []
  /-- Consecutive latched samples with |D| > 10,000 µs and with |D| ≤ 5,000 µs (R77). -/
  susRun : Nat := 0
  okRun : Nat := 0
  /-- The samples latched into this frame, in record order. -/
  latched : List Latched := []
  /-- Calibration pairs, oldest first, 128 bytes each (R83). -/
  pairs : List (List Byte) := []
  /-- The mounting was refined at this latch (R84). -/
  cal : Bool := false
  /-- `FUS_MOUNT` of the port has been written since the last commit (R84). -/
  mountDirty : Bool := false
deriving DecidableEq, Repr

/-- A result of an LSQ-CAL job waiting for the next B0 edge (R84). -/
structure CalRes where
  port : Nat
  x : Nat
  y : Nat
  yaw : Nat
deriving DecidableEq, Repr

/-- A grid pose waiting for the next B0 edge (R81). -/
structure PoseRes where
  port : Nat
  bytes : List Byte
  late : Bool
deriving DecidableEq, Repr

/-- Fusion block (R62–R95). -/
structure FusSt where
  port : List FusPort := List.replicate 32 {}
  /-- Last agreeing consensus record of each group (R94). -/
  agree : List (Option (List Byte)) := List.replicate 8 none
  /-- The POS_NE sample of the last LSQ-FIX job (R80). -/
  fix : Option (List Byte) := none
  calRes : List CalRes := []
  pose : Option PoseRes := none
  /-- Disciplined time of the latching edge, and whether a latch was made at it (R504). -/
  edge : Nat := 0
  latch : Bool := false
  /-- The fused records of this frame in digest order (R50). -/
  recs : List Byte := []
deriving DecidableEq, Repr

/-- A latched scan on its way to the grid (R96–R100). -/
structure GridScan where
  port : Nat
  tov : Nat
  pts : List Byte
deriving DecidableEq, Repr

/-- A grid pass in progress (R100, R105). -/
structure GridPass where
  scans : List GridScan
  /-- `GFE_MAP_SEL` and the latest estimate block at its starting edge (R105, R107). -/
  sel : Word
  est : List Byte
  /-- B0 edges since its start. -/
  edges : Nat := 0
deriving DecidableEq, Repr

/-- Grid feature engine (R100–R109). -/
structure GfeSt where
  /-- Scans latched since the previous pass started. -/
  since : List GridScan := []
  pass : Option GridPass := none
  /-- The weight blob loaded (R104). -/
  blob : List Byte := []
  /-- The resident map: its number and bytes (R105). -/
  map : Option (Nat × List Byte) := none
deriving DecidableEq, Repr



/-- One baseband channel (R116–R125): what stands beside its registers. -/
structure GnsCh where
  /-- A direct start waits for the next B0 edge (R119). -/
  direct : Bool := false
  /-- Code phase and Doppler at which pull-in starts (R118, R119). -/
  code0 : Nat := 0
  dopp0 : Int := 0
  /-- Frames in `TRACK` of the L1 and the L5 part (R125). -/
  frames : Nat := 0
  frames5 : Nat := 0
  /-- The Doppler last measured, mHz (R118). -/
  dopp : Int := 0
deriving DecidableEq, Repr

/-- One notch filter (R114). -/
structure NotchSt where
  /-- Centre while engaged, 8 Hz units. -/
  centre : Int := 0
  /-- Consecutive frames in which its bin lay low. -/
  low : Nat := 0
deriving DecidableEq, Repr

/-- A snapshot capture (R127, R128). -/
structure SnapSt where
  input : Nat
  bank : Nat
  beat : Nat
  d : Nat
  len : Nat
  rate : Nat
  freq : Nat
  /-- Disciplined time of the starting edge, once it has come. -/
  start : Option Nat
deriving DecidableEq, Repr

/-- Satellite navigation baseband (R111–R130). -/
structure GnsSt where
  ch : List GnsCh := List.replicate 56 {}
  /-- Channels waiting for the acquisition engine; the first is being searched (R116). -/
  queue : List Nat := []
  /-- Notches, input i notch k at 4·i + k. -/
  notch : List NotchSt := List.replicate 8 {}
  /-- The noise power last measured per input, 0.25 dB (R115). -/
  nf : List Nat := [0, 0]
  snap : Option SnapSt := none
deriving DecidableEq, Repr


/-- One filter channel (R133–R142). -/
structure FltSt where
  /-- The configuration in force: the value of `FLT_CH_CFG` latched at an edge (R141). -/
  cfg : Word := 0
  /-- A configuration write, or a restart, waits for the next edge (R139, R141). -/
  due : Bool := false
  /-- Sampled stream, newest first, at most 17,000 values, +1 or −1 (R133). -/
  bits : List Int := []
  /-- Values that have entered the paths since the last restart. -/
  since : Nat := 0
  /-- CIC outputs since the last restart, newest first, at most 47 (R134, R135). -/
  line : List Int := []
deriving DecidableEq, Repr

/-- Filter chain (R131–R144). -/
structure FltAll where
  /-- The value of `FLT_MCLK` in force. -/
  mclk : Word := 80
  /-- A write of `FLT_MCLK` waits for the next edge. -/
  due : Bool := false
  ch : List FltSt := List.replicate 16 {}
  /-- The records of R144 of the last 40 edges, oldest first. -/
  hist : List (List Byte) := []
deriving DecidableEq, Repr


/-- Assembler (R146–R182). -/
structure AsmSt where
  /-- The last accepted estimate block, 128 bytes; empty before the first (R160). -/
  est : List Byte := []
  /-- The bank being checked (R148). -/
  chk : Option Nat := none
  /-- Banks whose last check passed and whose deed has been held since (R149). -/
  passed : List Nat := []
  /-- The selected table set (R149). -/
  sel : Option Nat := none
  /-- `ASM_TBL_SEL` has been written and not yet refused (R149). -/
  selNew : Bool := false
  /-- Committed purse sequence numbers (R156). -/
  seqs : List Nat := [0, 0, 0, 0, 0, 0, 0, 0]
  /-- The bellwether of the last frame was not assembled (R160). -/
  noQp : Bool := false
  /-- Outputs of the manual slots at the B0 latch (R177). -/
  man : List Int := [0, 0, 0]
  /-- The thrust committed at the last B36 edge, binary32 (R163). -/
  fin : List Nat := []
  /-- This frame's job list has been written (R190); a usable estimate and a pasture are there (R160). -/
  listed : Bool := false
  usable : Bool := false
  past : Bool := false
  /-- Raw time of the B7 edge (R180). -/
  b7 : Nat := 0
deriving DecidableEq, Repr

/-- One lane at work or finished in this frame (R191–R204). -/
structure LanSt where
  /-- Index of its job in the job list; none without a job. -/
  job : Option Nat := none
  /-- 0 idle, 1 load, 2 at work, 6 finished. -/
  phase : Nat := 0
  /-- The image it was loaded with; of a scenario its own part. -/
  image : List Byte := []
  /-- Raw time at which the load completed. -/
  loaded : Nat := 0
  /-- A completion record and result section waiting for the store after the deadline (R204). -/
  waiting : Option (List Byte × List Byte) := none
deriving DecidableEq, Repr

/-- Lane array and lane scheduler (R183–R219). -/
structure LscSt where
  /-- The job list (R189): descriptors of 64 bytes. -/
  jobs : List (List Byte) := []
  lane : List LanSt := List.replicate 96 {}
  /-- The bellwether's image as delivered to the lanes, and an error response to it (R193). -/
  base : List Byte := []
  baseErr : Bool := false
  /-- The warm start x, z, y, unscaled, and whether it is cold (R198). -/
  wx : List Nat := []
  wz : List Nat := []
  wy : List Nat := []
  cold : Bool := true
  /-- The bellwether's previous x (R203). -/
  prevX : List Byte := []
  /-- Predicted ends by job, ns after B10 (R194). -/
  pred : List Nat := []
  /-- Raw time of the B10 edge. -/
  b10 : Nat := 0
  /-- Placement has been made in this frame (R191); the deeds have passed on (R204). -/
  placed : Bool := false
  passed : Bool := false
  /-- Completion records of this frame, by job (R210). -/
  recs : List (Nat × List Byte) := []
  /-- Pool jobs placed in this frame. -/
  pool : Nat := 0
  /-- Lanes with an uncorrectable error in this frame (R217). -/
  ue : List Nat := []
  /-- `VERDICT_OLD` is raised and its condition still holds (R214). -/
  old : Bool := false
  /-- Verdicts as they stood at the last summary (R214). -/
  verdicts : List Nat := []
  /-- `LSC_RHO` has been written since the last commit (R216). -/
  rhoNew : Bool := false
deriving DecidableEq, Repr


/-- What a loop slot holds beside its registers (R222–R225, R238, R239). -/
structure SlotSt where
  /-- Enabled by the commit of this edge (R223). -/
  fresh : Bool := false
  /-- A commit of this edge has changed P, A or their shifts (R225). -/
  preset : Bool := false
  /-- The high half of I64 latched by the last read of the low half (R239). -/
  ist : Option Nat := none
  /-- Beat edges at which `WLOCK` has read 1 without a break, at most 41 (R238). -/
  held : Nat := 0
deriving DecidableEq, Repr

/-- A trajectory written by command formation and not yet committed (R231, R233). -/
structure TrajCand where
  /-- The 480 words of `CLE_TRAJ`, step by step, and T, the number of configured thrusters. -/
  words : List Nat
  thr : Nat
  /-- The stage-0 thrusts, binary32 (R163). -/
  fin : List Nat
  /-- h in ns. -/
  h : Nat
deriving DecidableEq, Repr

/-- Control engine, fence unit and command formation (R220–R241). -/
structure CleSt where
  slot : List SlotSt := List.replicate 64 {}
  /-- The mode of the last slot evaluation (R225). -/
  lastMode : Nat := 0
  /-- The mode a changed request brings at the next B36 edge (R229). -/
  modeTo : Option Nat := none
  /-- `SAFE_STOP` demanded (3) or released (0) since the last beat edge (R230). -/
  stopReq : Option Nat := none
  /-- η̃ of x₀ of this frame, binary32 (R226). -/
  err : Option (List Nat) := none
  /-- h of the committed trajectory, ns; `TRAJ_END` has been raised for it (R234). -/
  h : Nat := 0
  endRaised : Bool := false
  /-- The last committed step-0 azimuth of each thruster (R231). -/
  lastAz : List (Option Nat) := List.replicate 24 none
  cand : Option TrajCand := none
  /-- Status of the bellwether's record as command formation read it (R241). -/
  bwStatus : Nat := 0
deriving DecidableEq, Repr


/-- One pending transmit entry of a CAN controller (R249). -/
structure CanTx where
  handle : Nat
  frame : CanFrame
  /-- The thruster whose helm frame it is. -/
  helm : Option Nat := none
  /-- Withdrawn while in transmission: ends as aborted unless the attempt succeeds. -/
  gone : Bool := false
deriving DecidableEq, Repr

/-- One CAN controller (R242–R257). -/
structure CanSt where
  /-- Pending entries in order of queueing. -/
  pend : List CanTx := []
  /-- Handle of the entry in transmission. -/
  busy : Option Nat := none
  /-- FIFO of 80-byte frame records, oldest first, at most 64 (R254). -/
  fifo : List (List Byte) := []
  /-- The tracked identifier (extended or base, identifier) and its count (R257). -/
  dup : Option (Bool × Nat × Nat) := none
  /-- A write of `NORMAL` has allowed recovery from bus-off (R255). -/
  recover : Bool := false
deriving DecidableEq, Repr

/-- One drive's acceptance state (R264–R266) and the set-points it obeys. -/
structure DriveSt where
  /-- The drive's installation code. -/
  inst : Nat := 0
  top : Nat := 0
  known : Bool := false
  lastSeq : Nat := 0
  /-- Raw time of the last accepted frame. -/
  tValid : Nat := 0
  bad : Nat := 0
  ss1 : Bool := false
  sto : Bool := false
  holding : Bool := false
  az : Nat := 0
  thr : Int := 0
  pr : Int := 0
  azr : Int := 0
  thrRamp : Nat := 0
  azrLim : Nat := 0
  /-- `FRAME16`, `BEAT` and unit bit of the last accepted frame (R262). -/
  frame16 : Nat := 0
  beat : Nat := 0
  unit : Nat := 0
deriving DecidableEq, Repr


/-- Field island (R269–R283): what stands on the field side. -/
structure FioSt where
  /-- Outputs whose voltage disagrees with the command, judged after blanking (R281): bit j. -/
  mism : Nat := 0
  /-- Outputs that have turned themselves off (R269, R280): bit j. -/
  tripped : Nat := 0
  /-- L+ is under voltage (R281). -/
  low : Bool := false
  /-- The field side has stopped answering (R281). -/
  lost : Bool := false
  /-- No refresh with `EN` at 1 has arrived since field-side power-up (R273). -/
  fresh : Bool := true
  /-- Outputs as switched by the last refresh: bit j. -/
  out : Nat := 0
  /-- Rising edges of DI0–DI7 of the last 40 beats: input, age in beats, time in ns (R275, R276). -/
  edges : List (Nat × Nat × Nat) := []
  /-- The records of R277 of the last 40 edges, oldest first. -/
  hist : List (List Byte) := []
deriving DecidableEq, Repr

/-- Safety functions (R285–R301): what the shepherd core holds beside the SAF registers. -/
structure SafSt where
  /-- Ownership of the safety inputs and lines persists from before a reset of code 2 or 3 (R285, R448). -/
  kept : Bool := false
  /-- Inputs whose filtered state is known since the last restart, by bit. -/
  known : Nat := 0
  /-- The start-up test has passed (R290). -/
  tested : Bool := false
  /-- Demands waiting for the next sub-beat (R291): an input's opening, of `KIND` 0 (STO), `SAF_REQ`. -/
  pendIn : Bool := false
  pendSto : Bool := false
  pendReq : Bool := false
  /-- Raw time of the demand (R293) and standstill counts of the axes. -/
  demandAt : Nat := 0
  dwell : List Nat := [0, 0, 0, 0, 0, 0, 0, 0]
  /-- Thrusters whose helm frames carry `STOP.STO`, by bit (R295). -/
  sto : Nat := 0xFFFFFF
  /-- Consecutive wrong readbacks on and off, raw time of the last de-energisation, of the last off-test, and since when the
  line has read correctly, per line (R296, R297). -/
  badOn : List Nat := [0, 0, 0, 0]
  badOff : List Nat := [0, 0, 0, 0]
  offAt : List Nat := [0, 0, 0, 0]
  otAt : List (Option Nat) := [none, none, none, none]
  okSince : List (Option Nat) := [none, none, none, none]
  /-- Lines whose off-test is due (R296), and the disciplined time of the last sub-beat. -/
  otDue : Nat := 0
  lastSub : Nat := 0
  /-- Causes of the failures (R297): inputs with `TP_FAIL`, pairs with `DISCREP`, lines with `READBACK_ON` and `READBACK_OFF`. -/
  tpBad : Nat := 0
  discBad : Nat := 0
  onBad : Nat := 0
  offBad : Nat := 0
  /-- Consecutive pulses each input has passed, at most 10 (R297). -/
  tpPass : List Nat := [0, 0, 0, 0]
  /-- Raw time of the rise of the reset input (R298). -/
  rise : Option Nat := none
  /-- A release waits for the end of the next sub-beat (R298); it is to be passed to the partner (R301). -/
  release : Bool := false
  relPass : Bool := false
  /-- The partner's last heartbeat: its own latched demands and `REL_OK` (R299, R301). -/
  pDemand : Nat := 0
  pOk : Bool := false
deriving DecidableEq, Repr


/-- Pair block (R306–R344): what stands beside its registers. -/
structure ParSt where
  /-- Icvo lanes that are up (R308). -/
  lanes : List Bool := [false, false]
  /-- The mapped controllers have been listened on for `LISTEN_MIN` (R313). -/
  listened : Bool := false
  /-- Level of PAIR_BEAT_O (R39). -/
  level : Bool := false
  /-- The last valid heartbeat of the partner, 64 bytes (R310), and the raw time of its arrival. -/
  hb : List Byte := []
  hbAt : Option Nat := none
  /-- A valid heartbeat naming this beat, the next beat, has come in its window; a toggle has (R331). -/
  hbNow : Bool := false
  hbNext : Bool := false
  togNow : Bool := false
  togNext : Bool := false
  /-- The last toggle came within 10 µs of the unit's own edge (R314). -/
  togNear : Bool := false
  /-- Thrusters whose partner helm frame of this beat has come, by bit (R331). -/
  helmSeen : Nat := 0
  /-- `FRAME16`, beat and tally of the partner's last helm frame (R333). -/
  pHelm : Option (Nat × Nat × Nat) := none
  /-- This beat has been established as missed (R331). -/
  missed : Bool := false
  /-- Raw time at which the unit last left `ACTIVE` or `ALONE` (R331). -/
  leftAt : Option Nat := none
  /-- Beat edges since the last valid heartbeat or partner helm frame, at most 255 (R319). -/
  signAge : Nat := 255
  /-- The partner's last valid beat record (R311). -/
  rcd : List Byte := []
  /-- Highest tally of the partner's parity seen (R319). -/
  pTally : Nat := 0
  /-- Pending map (R325, R326): block (bank × 1,024 + block) and the sequence of the delta that carries its newest content. -/
  map : List (Nat × Nat) := []
  /-- The last acknowledged sequence, the base of the next delta (R326). -/
  base : Nat := 0
  /-- A resync is to start at the next image instant; banks still to send (R328). -/
  resync : Bool := false
  banks : List Nat := []
  /-- The next bank message of a resync that this standby expects; the sequence of its mirror, none before a resync (R327, R328). -/
  rxNext : Nat := 0
  mirSeq : Option Nat := none
  /-- A checked delta whose copy is in progress, and the cause of a takeover decision made during it (R327). -/
  copy : Option (List Byte) := none
  decided : Option Nat := none
  /-- Frame number and digest of the mirrored frame record (R333). -/
  recDig : Option (Nat × Nat) := none
  /-- Raw time of the takeover decision (R336), and the raw time from which the first B0 edge restarts the frame path (R337). -/
  toAt : Nat := 0
  restart : Option Nat := none
  /-- The tracked banks' deeds are to be taken at the next B0 edge (R320). -/
  deedDue : Bool := true
  /-- The raise was refused: no helm frames are built (R341). -/
  noHelm : Bool := false
  /-- A handover announced by this unit, by the partner: beat number (frame × 40 + beat) of the edge, and cause (R339). -/
  ho : Option (Nat × Nat) := none
  hoIn : Option (Nat × Nat) := none
  /-- A copy to flash is due at the next image instant; the last one is being written (R329). -/
  flashDue : Bool := false
  flashBusy : Bool := false
  /-- Raw time of the last completed copy (R329). -/
  flashAt : Option Nat := none
  /-- The flash image is to be brought into force before the first frame (R323, R342). -/
  cold : Bool := false
deriving DecidableEq, Repr



/-- One Ethernet MAC (R346–R355). -/
structure EthSt where
  /-- Identity, sequence number (12 bytes) and receive stamp of the last 16 Delay_Req messages, newest first (R353). -/
  delayReq : List (List Byte × Nat) := []
  /-- Transit frames waiting, oldest first, at most 8, each with its receive stamp (R355). -/
  transit : List (List Byte × Nat) := []
  /-- The port's DMA has stopped on an error response (R349). -/
  stopped : Bool := false
  /-- The last frame that was no transit frame came from the transmit ring (R349). -/
  lastRing : Bool := false
  /-- Raw time until which a received PAUSE holds transmission (R346). -/
  pausedTo : Nat := 0
deriving DecidableEq, Repr

/-- One UART (R368–R370). -/
structure UartSt where
  /-- Received words in `UAT_RX` format without `VALID`, oldest first, at most 1,024. -/
  rx : List Nat := []
  /-- Stamps and character indices, oldest first, at most 32. -/
  stamps : List (Nat × Nat) := []
  /-- Characters waiting to be sent, oldest first, at most 255. -/
  tx : List Byte := []
deriving DecidableEq, Repr

/-- One block of the flash medium (R397–R402). -/
structure NBlock where
  /-- Erase count. -/
  ec : Nat := 0
  /-- 0 good, 1 factory bad, 2 grown bad. -/
  bad : Nat := 0
  /-- 0 erased, 1 in use, 2 superseded and waiting for its erase. -/
  use : Nat := 0
  /-- Quarter reads since its last erase (R400). -/
  reads : Nat := 0
  /-- Day of its last erase, and of its oldest quarter (R398, R401). -/
  erased : Nat := 0
  day : Nat := 0
  /-- Relocation scheduled: 0 no, 1 yes, 2 for corrected bits (R396, R398, R400, R401). -/
  move : Nat := 0
deriving DecidableEq, Repr

/-- Marked content of the flash medium (R403): an object (R406) or a strongbox image (R408). -/
structure NObj where
  /-- Partition code (R405) and object index. -/
  part : Nat
  index : Nat
  /-- Write sequence of its first data quarter. -/
  wseq : Nat
  data : List Byte
  /-- Its blocks, and its quarters that read as uncorrectable. -/
  blocks : List Nat
  lost : List Nat := []
deriving DecidableEq, Repr

/-- One block of the till's log (R409): the block and the units its quarters hold, oldest first. -/
structure NLog where
  block : Nat
  units : List Nat
deriving DecidableEq, Repr

/-- The medium header of a channel (R397). -/
structure NHead where
  day : Nat := 0
  slot : Nat := 0
deriving DecidableEq, Repr

/-- A software flash request (R407). -/
structure NReq where
  op : Nat
  part : Nat
  index : Nat
deriving DecidableEq, Repr

/-- The flash manager and its medium (R392–R414). The medium fitted is the recommended one of R393. -/
structure NfcSt where
  /-- A medium that R393 supports is fitted; channels that answer READ ID with a readable header (R413). -/
  supported : Bool := true
  chanOk : List Bool := [true, true]
  /-- Blocks of the medium, half of them on each channel, and pages of a block. -/
  nBlocks : Nat := 16384
  pages : Nat := 256
  /-- The medium header; none on a blank medium (R397). -/
  head : Option NHead := none
  /-- Erase count of every block not listed below, and the blocks that differ from a good, erased one never read. -/
  base : Nat := 0
  blocks : List (Nat × NBlock) := []
  /-- Write sequence (R395). -/
  wseq : Nat := 0
  objs : List NObj := []
  log : List NLog := []
  /-- Blocks of the vault (R409). -/
  vault : List Nat := []
  /-- The software request being served (R407, R411). -/
  req : Option NReq := none
  /-- `WEAR_WARN` has been raised (R413). -/
  worn : Bool := false
  /-- The configuration image last loaded (R314, R324). -/
  config : List Byte := []
deriving DecidableEq, Repr



/-- The state of one FH9600 and the queue of commands waiting for it. -/
structure State where
  /-- Commands waiting, first in, first out. -/
  pending : List Instr := []
  /-- Register file: word address and value (R496); unlisted registers hold their reset value. -/
  regs : List (Nat × Word) := []
  /-- Shadows of the RWS registers (R9, R501). -/
  shadow : List (Nat × Word) := []
  /-- Every addressed byte of shared SRAM, lane, feature-engine and shepherd memory and DRAM (R17), by physical address. -/
  mem : List Host.Cell := []
  /-- The answer to the last request or register read. -/
  answer : Answer := {}
  /-- Messages that have left the device, oldest first (the model's own record of its outputs). -/
  sent : List Msg := []
  /-- The model's counter of free values drawn so far. -/
  draws : Nat := 0
  dev : DevSt := {}
  tim : TimeSt := {}
  evt : EvtSt := {}
  fab : FabSt := {}
  lgr : LgrSt := {}
  mm : MemSt := {}
  dma : DmaSt := {}
  fwl : FwlSt := {}
  lcs : LcsSt := {}
  tap : TapSt := {}
  pwr : PwrSt := {}
  frm : FrameSt := {}
  rpl : RplSt := {}
  /-- The four MACs. -/
  eth : List EthSt := List.replicate 4 {}
  /-- The eight UARTs. -/
  uart : List UartSt := List.replicate 8 {}
  /-- The eight CAN controllers. -/
  can : List CanSt := List.replicate 8 {}
  /-- The helm engine's staging slots, one per thruster (R249, R261). -/
  staged : List (Option CanFrame) := List.replicate 24 none
  /-- The 24 drives (outside the device; the acceptance rule of R264–R266 is part of the spec). -/
  drives : List DriveSt := List.replicate 24 {}
  flt : FltAll := {}
  fio : FioSt := {}
  saf : SafSt := {}
  gns : GnsSt := {}
  fus : FusSt := {}
  gfe : GfeSt := {}
  asm : AsmSt := {}
  lsc : LscSt := {}
  cle : CleSt := {}
  par : ParSt := {}
  nfc : NfcSt := {}
deriving DecidableEq, Repr

/-- The device right after power-on reset (R467): every field at the value after its `:=`. -/
def State.reset : State := {}

end Sys2Proof.Machine
end

