-- ==== Sys2Proof/Machine/Ops.lean ====
section
/-! DEFINITION. The named operations over registers, time, events, the ledger's queue and memory that every meaning is
written with. -/

namespace Sys2Proof.Machine

/-- What a command answers. -/
abbrev Out := Host.Outcome State Fault Refusal

/-- A command's effect while the device has power; without power nothing happens (R466, R482). -/
def live (s t : State) : Out := .next (if s.pwr.on then t else s)

/-- A command whose operands name nothing of the device changes nothing. -/
def liveIf (c : Bool) (s t : State) : Out := live s (if c then t else s)

/-- Page `p` carries a block that takes writes (R494, and R2: the GNS pages only on an FH9600-AG). -/
def State.pageOk (s : State) (p : Nat) : Bool :=
  decide (p < 153) && (s.dev.gnss || (decide (p < 33) || decide (36 < p)))

/-! ### Registers -/

/-- The page that carries the header words 0x008–0x018 of the block of page `p` (R498). -/
def blockPage (p : Nat) : Nat :=
  if 28 ≤ p ∧ p < 32 then 28 else if 33 ≤ p ∧ p < 37 then 33 else if 37 ≤ p ∧ p < 41 then 37
  else if 42 ≤ p ∧ p < 44 then 42 else if 44 ≤ p ∧ p < 47 then 44 else p

/-- The one home of a register word: shared header words (R498) and the doubled `LGR_CTRL` (R500) are folded. -/
def canon (a : Nat) : Nat :=
  if a = 148 * 1024 + 2 then 148 * 1024 + 21
  else if 2 ≤ a % 1024 ∧ a % 1024 ≤ 6 then blockPage (a / 1024) * 1024 + a % 1024 else a

/-- Whether word offset `o` lies in a table row. -/
def rowHit (r : RegRow) (o : Nat) : Bool :=
  decide (r.off ≤ o) && (decide ((o - r.off) / r.s1 < r.n1) &&
    (decide ((o - r.off) % r.s1 % r.s2 = 0) && decide ((o - r.off) % r.s1 / r.s2 < r.n2)))

/-- The fields of the register at word address `a` (none where no register is). -/
def fieldsOf (a : Nat) : List FRow :=
  match pageTable (a / 1024) with
  | none => []
  | some t =>
    match t.find? fun r => rowHit r (a % 1024) with
    | none => []
    | some r => r.fields

/-- The reset value of the register at word address `a` (R8). -/
def regReset (a : Nat) : Word :=
  BitVec.ofNat 32 ((fieldsOf a).foldl (fun x r => putBits x r.hi r.lo r.rst) 0)

/-- The current value of the register at word address `a`. -/
def State.reg (s : State) (a : Nat) : Word := spGet regReset s.regs (canon a)

/-- Set the register at word address `a`. -/
def State.setReg (s : State) (a : Nat) (v : Word) : State := { s with regs := spSet regReset s.regs (canon a) v }

/-- The shadow of an RWS register (R9). -/
def State.sh (s : State) (a : Nat) : Word := spGet regReset s.shadow a

/-- Write the shadow of an RWS register. -/
def State.setSh (s : State) (a : Nat) (v : Word) : State := { s with shadow := spSet regReset s.shadow a v }

/-- A field of a register, as a number. -/
def State.f (s : State) (r : RF) : Nat := bitsOf (s.reg r.a).toNat r.hi r.lo

/-- A field of a register, as a truth value. -/
def State.fb (s : State) (r : RF) : Bool := s.f r != 0

/-- A field of a register, as a signed number. -/
def State.fi (s : State) (r : RF) : Int := sgn (r.hi + 1 - r.lo) (s.f r)

/-- Set a field of a register. -/
def State.setF (s : State) (r : RF) (v : Nat) : State :=
  s.setReg r.a (BitVec.ofNat 32 (putBits (s.reg r.a).toNat r.hi r.lo v))

/-- The whole register as a field. -/
def whole (a : Nat) : RF := ⟨a, 31, 0⟩

/-- A 64-bit value held in a pair of registers. -/
def State.pair (s : State) (lo hi : Nat) : Nat := (s.reg lo).toNat + (s.reg hi).toNat * 2 ^ 32

/-- Set a 64-bit pair. -/
def State.setPair (s : State) (lo hi v : Nat) : State :=
  (s.setReg lo (BitVec.ofNat 32 v)).setReg hi (BitVec.ofNat 32 (v / 2 ^ 32))

/-- Count `n` in a `STICK` counter (R10): it stays at its maximum and sets its sticky flag there. -/
def State.stick (s : State) (c flag : RF) (n : Nat) : State :=
  let mx := 2 ^ (c.hi + 1 - c.lo) - 1
  if n = 0 then s
  else if s.f c + n < mx then s.setF c (s.f c + n) else (s.setF c mx).setF flag 1

/-- Count `n` in a `STICK` counter that has no flag. -/
def State.stickN (s : State) (c : RF) (n : Nat) : State := s.setF c (min (s.f c + n) (2 ^ (c.hi + 1 - c.lo) - 1))

/-- Count `n` in a `WRAP` counter (R10). -/
def State.wrap (s : State) (c : RF) (n : Nat) : State := s.setF c (s.f c + n)

/-- Whether a field of type RWL of the register at `a` is locked (R497). -/
def State.locked (s : State) (a : Nat) : Bool :=
  let l := (s.reg (a / 1024 * 1024 + 7)).toNat
  let o := a % 1024
  if o < 8 then false else if o < 32 then bitOf l 0 else if o < 64 then bitOf l 1 else bitOf l 2

/-- The bits of the register at word address `a` that have a shadow (R9). -/
def rwsMask (a : Nat) : Nat :=
  (fieldsOf a).foldl (fun m r => if r.ty = .rws then putBits m r.hi r.lo (2 ^ (r.hi + 1 - r.lo) - 1) else m) 0

/-- Copy the shadow of the register at `a` whole (R237). -/
def State.commitWord (s : State) (a : Nat) : State :=
  let m := BitVec.ofNat 32 (rwsMask a)
  s.setReg a ((s.reg a &&& ~~~m) ||| (s.sh a &&& m))

/-- Commit the shadow registers of page `p` for which `ok` holds (R236, R237, R501). -/
def State.commitRegs (s : State) (p : Nat) (ok : Nat → Bool) : State :=
  let l := (s.regs.map fun e => e.1) ++ s.shadow.map fun e => e.1
  (l.filter fun a => a / 1024 == p && (ok a && rwsMask a != 0)).foldl State.commitWord s

/-- The generation count of page `p`'s commits (R237). -/
def State.commitGen (s : State) (p : Nat) : State :=
  let r : RF := ⟨p * 1024 + 32, 31, 16⟩
  s.setF r (s.f r + 1)

/-- A commit of the whole of page `p`. -/
def State.commitPage (s : State) (p : Nat) : State := (s.commitRegs p fun _ => true).commitGen p

/-! ### Disciplined time (R357) -/

/-- Disciplined time of a clock whose raw counter, offset, epoch and rate are given (R357). -/
def discTime (raw ofs epoch : Nat) (rate : Int) : Nat :=
  uns 64 (Int.ofNat raw + Int.ofNat ofs + fdiv (rate * (Int.ofNat raw - Int.ofNat epoch)) (2 ^ 48))

/-- Disciplined time now. -/
def State.now (s : State) : Nat := discTime s.tim.raw s.tim.ofs s.tim.epoch s.tim.rate

/-- The current frame number (R35). -/
def State.frame (s : State) : Nat := s.pair Adr.TIM_FRAME_LO Adr.TIM_FRAME_HI

/-- The index of the current beat (R34). -/
def State.beat (s : State) : Nat := s.f Fld.TIM_BEAT_STAT_BEAT

/-- Beats are running (R37). -/
def State.running (s : State) : Bool := s.fb Fld.TIM_BEAT_STAT_RUN

/-- `xxx_CTRL.ENABLE` of the block on page `p` (R497). -/
def State.enabled (s : State) (p : Nat) : Bool := bitOf (s.reg (p * 1024 + 2)).toNat 2

/-- `xxx_CTRL.QUIESCE` of the block on page `p` (R32). -/
def State.quiesced (s : State) (p : Nat) : Bool := bitOf (s.reg (p * 1024 + 2)).toNat 1

/-! ### Free values and outputs -/

/-- Step the counter of free values. -/
def State.draw (s : State) : State := { s with draws := s.draws + 1 }

/-- The free value the next `draw` stands for. -/
def State.free (s : State) : Nat := Config.freeNat s.draws

/-- Boundary scan replaces every functional output but the field island's (R459). -/
def State.muted (s : State) : Bool := s.tap.ir == .extest || (s.tap.ir == .clamp || s.tap.ir == .highz)

/-- Send a message out of a port: nothing leaves while boundary scan holds the balls (R459). -/
def State.send (s : State) (p : Port) (i : Nat) (b : List Byte) : State :=
  if s.muted && p != .field then s else { s with sent := s.sent ++ [⟨p, i, b⟩] }

/-- Give a response. -/
def State.ans (s : State) (r : Rsp) (b : List Byte) : State := { s with answer := ⟨r, b⟩ }

/-- Answer a performed write. -/
def State.ok (s : State) : State := s.ans .okay []

/-- Answer a register read with a word. -/
def State.ansW (s : State) (w : Word) : State := s.ans .okay (leBytes 4 w.toNat)

/-! ### Events (R24–R28, R387, R499) -/

/-- An event: the page that carries the block's header and the bit of `xxx_EVENT`. -/
structure Ev where
  page : Nat
  bit : Nat
deriving DecidableEq, Repr

def Ev.TIM_FRAME : Ev := ⟨6, 0⟩
def Ev.TIM_OVERRUN : Ev := ⟨6, 1⟩
def Ev.TIM_OVR_PERSIST : Ev := ⟨6, 2⟩
def Ev.TIM_REALIGN : Ev := ⟨6, 3⟩
def Ev.CMD_TD : Ev := ⟨150, 8⟩
def Ev.CMD_RPL_DROP : Ev := ⟨150, 9⟩
def Ev.CMD_RPL_MISMATCH : Ev := ⟨150, 10⟩
def Ev.FUS_CFG_REFUSED : Ev := ⟨37, 0⟩
def Ev.FUS_DROP : Ev := ⟨37, 1⟩
def Ev.FUS_BAD : Ev := ⟨37, 2⟩
def Ev.FUS_CLK_SUSPECT : Ev := ⟨37, 3⟩
def Ev.FUS_VOTED_OUT : Ev := ⟨37, 4⟩
def Ev.FUS_READMIT : Ev := ⟨37, 5⟩
def Ev.FUS_DISAGREE : Ev := ⟨37, 6⟩
def Ev.FUS_CAL_APPLIED : Ev := ⟨37, 7⟩
def Ev.FUS_SCAN_COPIED : Ev := ⟨37, 8⟩
def Ev.GFE_PASS_DONE : Ev := ⟨41, 0⟩
def Ev.GFE_POSE_INVALID : Ev := ⟨41, 1⟩
def Ev.GFE_WEIGHTS_BAD : Ev := ⟨41, 2⟩
def Ev.GFE_MAP_BAD : Ev := ⟨41, 3⟩
def Ev.GNS_ACQ_DONE : Ev := ⟨33, 0⟩
def Ev.GNS_LOSS : Ev := ⟨33, 1⟩
def Ev.GNS_JAM : Ev := ⟨33, 2⟩
def Ev.GNS_NOTCH : Ev := ⟨33, 3⟩
def Ev.GNS_SNAP_DONE : Ev := ⟨33, 4⟩
def Ev.GNS_TIME_LOST : Ev := ⟨33, 5⟩
def Ev.GNS_IF_DOWN : Ev := ⟨33, 6⟩
def Ev.FLT_STUCK : Ev := ⟨32, 0⟩
def Ev.FLT_SETTLE_LOST : Ev := ⟨32, 1⟩
def Ev.FLT_CFG_REFUSED : Ev := ⟨32, 2⟩
def Ev.ASM_CHK_DONE : Ev := ⟨42, 0⟩
def Ev.ASM_TBL_REFUSED : Ev := ⟨42, 1⟩
def Ev.ASM_PURSE_STALE : Ev := ⟨42, 2⟩
def Ev.ASM_NO_QP : Ev := ⟨42, 3⟩
def Ev.ASM_SPACE : Ev := ⟨42, 4⟩
def Ev.LSC_LANE_DL : Ev := ⟨44, 0⟩
def Ev.LSC_REFUSED : Ev := ⟨44, 1⟩
def Ev.LSC_DEFERRED : Ev := ⟨44, 2⟩
def Ev.LSC_PRED_OVER : Ev := ⟨44, 3⟩
def Ev.LSC_CONSEQ_FAIL : Ev := ⟨44, 4⟩
def Ev.LSC_VERDICT_OLD : Ev := ⟨44, 5⟩
def Ev.LSC_LANE_FAULT : Ev := ⟨44, 6⟩
def Ev.LSC_RHO_CHANGED : Ev := ⟨44, 7⟩
def Ev.CLE_OVF : Ev := ⟨28, 0⟩
def Ev.CLE_BUMP : Ev := ⟨28, 1⟩
def Ev.CLE_LOCK_HELD : Ev := ⟨28, 2⟩
def Ev.CLE_FENCE_GRAZE : Ev := ⟨28, 3⟩
def Ev.CLE_FENCE_HOLD : Ev := ⟨28, 4⟩
def Ev.CLE_MODE_CHANGED : Ev := ⟨28, 5⟩
def Ev.CMD_NO_COMMIT : Ev := ⟨150, 0⟩
def Ev.CMD_TRAJ_END : Ev := ⟨150, 1⟩
def Ev.CAN_RXF (c : Nat) : Ev := ⟨11 + c, 8⟩
def Ev.CAN_RXF_LOST (c : Nat) : Ev := ⟨11 + c, 9⟩
def Ev.CAN_TX_DONE (c : Nat) : Ev := ⟨11 + c, 10⟩
def Ev.CAN_TXQ_FULL (c : Nat) : Ev := ⟨11 + c, 11⟩
def Ev.CAN_ERR_PASSIVE (c : Nat) : Ev := ⟨11 + c, 12⟩
def Ev.CAN_BUS_OFF (c : Nat) : Ev := ⟨11 + c, 13⟩
def Ev.CAN_LONELY (c : Nat) : Ev := ⟨11 + c, 14⟩
def Ev.CAN_DUP_ID_SUSPECT (c : Nat) : Ev := ⟨11 + c, 15⟩
def Ev.CAN8_TS_WRAP : Ev := ⟨19, 0⟩
def Ev.CAN8_HELM_MISS : Ev := ⟨19, 1⟩
def Ev.CAN8_FB_BAD : Ev := ⟨19, 2⟩
def Ev.CAN8_FB_STALE : Ev := ⟨19, 3⟩
def Ev.FIO_FAULT : Ev := ⟨151, 0⟩
def Ev.FIO_WD_TRIP : Ev := ⟨151, 1⟩
def Ev.FIO_LINK_LOST : Ev := ⟨151, 2⟩
def Ev.SAF_DEMAND : Ev := ⟨152, 0⟩
def Ev.SAF_STO : Ev := ⟨152, 1⟩
def Ev.SAF_RELEASED : Ev := ⟨152, 2⟩
def Ev.SAF_DIAG_FAIL : Ev := ⟨152, 3⟩
def Ev.SAF_STARTUP_DONE : Ev := ⟨152, 4⟩
def Ev.SAF_ENVELOPE : Ev := ⟨152, 5⟩
def Ev.SAF_PARTNER_HELD : Ev := ⟨152, 6⟩
def Ev.SAF_BEAT_LOST : Ev := ⟨152, 7⟩
def Ev.PAR_ROLE_CHANGED : Ev := ⟨149, 0⟩
def Ev.PAR_TAKEOVER : Ev := ⟨149, 1⟩
def Ev.PAR_PARTNER_LOST : Ev := ⟨149, 2⟩
def Ev.PAR_SPLIT_BRAIN : Ev := ⟨149, 3⟩
def Ev.PAR_HO_REFUSED : Ev := ⟨149, 4⟩
def Ev.PAR_MIRROR_STALE : Ev := ⟨149, 5⟩
def Ev.PAR_TALLY_WARN : Ev := ⟨149, 6⟩
def Ev.PAR_TALLY_LIMIT : Ev := ⟨149, 7⟩
def Ev.PAR_LINK_DEGRADED : Ev := ⟨149, 8⟩
def Ev.PAR_FLASH_COPY : Ev := ⟨149, 9⟩
def Ev.PAR_PARTNER_WRONG : Ev := ⟨149, 10⟩
def Ev.PAR_SELF_FAULT : Ev := ⟨149, 11⟩
def Ev.TIM_STEP_REFUSED : Ev := ⟨6, 4⟩
def Ev.TIM_HOLDOVER : Ev := ⟨6, 5⟩
def Ev.TIM_ACQUIRED : Ev := ⟨6, 6⟩
def Ev.TIM_SRC_CHANGED : Ev := ⟨6, 7⟩
def Ev.TIM_PPS_BAD : Ev := ⟨6, 8⟩
def Ev.TIM_EXT_LOST : Ev := ⟨6, 9⟩
def Ev.ETH_RX (c : Nat) : Ev := ⟨7 + c, 0⟩
def Ev.ETH_TX_DONE (c : Nat) : Ev := ⟨7 + c, 1⟩
def Ev.ETH_ERR (c : Nat) : Ev := ⟨7 + c, 2⟩
def Ev.UAT_RX (c : Nat) : Ev := ⟨20 + c, 0⟩
def Ev.UAT_ERR (c : Nat) : Ev := ⟨20 + c, 1⟩
def Ev.LGR_VAULT_SEALED : Ev := ⟨148, 0⟩
def Ev.LGR_TRIG_MISSED : Ev := ⟨148, 1⟩
def Ev.LGR_LOST : Ev := ⟨148, 2⟩
def Ev.LGR_FLUSH_ERR : Ev := ⟨148, 3⟩
def Ev.LGR_XTR_DONE : Ev := ⟨148, 4⟩
def Ev.LGR_RELEASED : Ev := ⟨148, 5⟩
def Ev.NFC_GROWN_BAD : Ev := ⟨147, 0⟩
def Ev.NFC_UNCORR : Ev := ⟨147, 1⟩
def Ev.NFC_SPARE_LOW : Ev := ⟨147, 2⟩
def Ev.NFC_WEAR_WARN : Ev := ⟨147, 3⟩
def Ev.NFC_READ_ONLY : Ev := ⟨147, 4⟩
def Ev.NFC_REQ_DONE : Ev := ⟨147, 5⟩
def Ev.NFC_MOUNTED : Ev := ⟨147, 6⟩
def Ev.MEM_ECC_UE : Ev := ⟨144, 0⟩
def Ev.MEM_ECC_CE : Ev := ⟨144, 1⟩
def Ev.MEM_DEED_DENIED : Ev := ⟨144, 2⟩
def Ev.MAR_MARCH_DONE : Ev := ⟨145, 0⟩
def Ev.MAR_MARCH_FAIL : Ev := ⟨145, 1⟩
def Ev.DRC_ECC_UE : Ev := ⟨146, 0⟩
def Ev.DRC_ECC_CE : Ev := ⟨146, 1⟩
def Ev.DRC_TEMP_HIGH : Ev := ⟨146, 2⟩
def Ev.DMA_DONE : Ev := ⟨143, 0⟩
def Ev.DMA_ERR : Ev := ⟨143, 1⟩
def Ev.DMA_BUS_ERR : Ev := ⟨143, 2⟩
def Ev.FWL_VIOLATION : Ev := ⟨3, 0⟩
def Ev.FWL_ARM_REFUSED : Ev := ⟨3, 1⟩
def Ev.LCS_LC_DONE : Ev := ⟨4, 0⟩
def Ev.LCS_DBG_OPENED : Ev := ⟨4, 1⟩
def Ev.SYS_WDT_WARN : Ev := ⟨0, 0⟩
def Ev.SYS_SAF_DIFF : Ev := ⟨0, 1⟩
def Ev.SYS_BOOT_FALLBACK : Ev := ⟨0, 2⟩
def Ev.SYS_NEXT_REFUSED : Ev := ⟨0, 3⟩
def Ev.PWR_STATE_CHANGED : Ev := ⟨1, 0⟩
def Ev.PWR_WAKE : Ev := ⟨1, 1⟩
def Ev.PWR_AVS_FAIL : Ev := ⟨1, 2⟩
def Ev.PWR_THERM_WARN : Ev := ⟨1, 3⟩

/-- The event sources of the blocks: page, first event bit, number of events, first source (R494 and the event tables). -/
def evTable : List (Nat × Nat × Nat × Nat) :=
  [(0, 0, 4, 0), (1, 0, 4, 8), (3, 0, 2, 80), (4, 0, 2, 84), (6, 0, 10, 64), (7, 0, 3, 456), (8, 0, 3, 459),
   (9, 0, 3, 462), (10, 0, 3, 465), (11, 0, 16, 296), (12, 0, 16, 312), (13, 0, 16, 328), (14, 0, 16, 344),
   (15, 0, 16, 360), (16, 0, 16, 376), (17, 0, 16, 392), (18, 0, 16, 408), (19, 0, 4, 424)] ++
  [(20, 0, 2, 472), (21, 0, 2, 474), (22, 0, 2, 476), (23, 0, 2, 478), (24, 0, 2, 480), (25, 0, 2, 482),
   (26, 0, 2, 484), (27, 0, 2, 486), (28, 0, 6, 288), (32, 0, 3, 264), (33, 0, 7, 256), (37, 0, 9, 240),
   (41, 0, 4, 252), (42, 0, 5, 268), (44, 0, 8, 276), (143, 0, 3, 112), (144, 0, 3, 96), (145, 0, 2, 100)] ++
  [(146, 0, 3, 104), (147, 0, 7, 496), (148, 0, 6, 488), (149, 0, 12, 440), (150, 8, 3, 200), (150, 0, 2, 203),
   (151, 0, 3, 428), (152, 0, 8, 432)]

/-- The source number of event bit `b` of the block on page `p`. -/
def evSource (p b : Nat) : Option Nat :=
  (evTable.find? fun e => e.1 == p && (decide (e.2.1 ≤ b) && decide (b < e.2.1 + e.2.2.1))).map
    fun e => e.2.2.2 + (b - e.2.1)

/-- The page and event bit of source `n`. -/
def evOfSource (n : Nat) : Option (Nat × Nat) :=
  (evTable.find? fun e => decide (e.2.2.2 ≤ n) && decide (n < e.2.2.2 + e.2.2.1)).map
    fun e => (e.1, e.2.1 + (n - e.2.2.2))

/-- The event bits the block on page `p` has. -/
def evMask (p : Nat) : Nat :=
  evTable.foldl (fun m e => if e.1 = p then m + (2 ^ e.2.2.1 - 1) * 2 ^ e.2.1 else m) 0

/-- The word address of a header word of page `p`. -/
def hdr (p o : Nat) : Nat := p * 1024 + o

/-- The enabled event lines of the block on page `p`: `EVENT` AND `EVENT_EN` (R497). -/
def State.lines (s : State) (p : Nat) : Nat := (s.reg (hdr p 4)).toNat &&& (s.reg (hdr p 5)).toNat

/-- Source `n` is asserted. -/
def State.asserted (s : State) (n : Nat) : Bool :=
  match evOfSource n with
  | none => false
  | some (p, b) => bitOf (s.lines p) b

/-- The bits of `new` that `old` has not, as sources of page `p`, lowest first. -/
def newSources (p old new : Nat) : List Nat :=
  (List.range 32).filterMap fun b => if bitOf new b && !bitOf old b then evSource p b else none

/-- A record of source `src`, type `ty`, time `t` and payload `b`. -/
def mkRec (src ty t : Nat) (b : List Byte) : LRec := { source := src, type := ty, time := t, payload := b }

/-- Offer a record to the ledger writer (R376): dropped while `LGR_CFG.EN` is 0; lost when the queue of 256 is full (R382).
`rz` raises an event. -/
def offerWith (rz : State → Ev → State) (s : State) (r : LRec) : State :=
  if s.f Fld.LGR_CFG_EN = 0 then s
  else if s.lgr.queue.length < 256 then { s with lgr := { s.lgr with queue := s.lgr.queue ++ [r] } }
  else
    let l := if s.lgr.lost = 0 then { s.lgr with lost := 1, lostTime := r.time, lostSrc := r.source }
      else { s.lgr with lost := s.lgr.lost + 1 }
    rz (({ s with lgr := l } : State).stick Fld.LGR_CNT_A_LOST Fld.LGR_FLAGS_LOST_SAT 1) Ev.LGR_LOST

/-- Take a key's count out of a sparse count list. -/
def takeCount (m : List (Nat × Nat)) (k : Nat) : Nat × List (Nat × Nat) := (spGet (fun _ => 0) m k, spErase m k)

/-- The assertion of source `n` is recorded when `EVT_ROUTE[n].LGR` is 1, once per beat; further assertions of the beat are
counted into the next record (R28, R375). -/
def recordSource (rz : State → Ev → State) (s : State) (n : Nat) : State :=
  if s.f (Fld.EVT_ROUTE_LGR n) = 0 then s
  else if s.running && s.evt.recorded.contains n then
    { s with evt := { s.evt with merged := spSet (fun _ => 0) s.evt.merged n (spGet (fun _ => 0) s.evt.merged n + 1) } }
  else
    let (m, rest) := takeCount s.evt.merged n
    offerWith rz { s with evt := { s.evt with recorded := n :: s.evt.recorded, merged := rest } }
      { source := n, type := 0, time := s.now, payload := leBytes 8 s.frame ++ leBytes 4 (min m (2 ^ 32 - 1)) }

/-- A trigger of the vault by source `n`, with `more` further triggers in the same cycle (R387). -/
def triggerWith (rz : State → Ev → State) (s : State) (n more : Nat) : State :=
  let cap := s.lgr.vState == 1 && (s.fb Fld.LGR_VAULT_CFG_CROSS && !s.lgr.vTrig)
  let s1 := offerWith rz { s with lgr := { s.lgr with vTrig := s.lgr.vTrig || cap } }
    { source := 516, type := 3, time := s.now, trig := cap,
      payload := leBytes 2 n ++ leBytes 2 (b2n cap) ++ leBytes 4 more ++ leBytes 8 s.frame }
  if cap then s1 else rz (s1.stick Fld.LGR_CNT_B_TRIG_MISSED Fld.LGR_FLAGS_MISS_SAT 1) Ev.LGR_TRIG_MISSED

/-- Bit `n` of `LGR_TRIG` (R387). -/
def State.triggers (s : State) (n : Nat) : Bool := bitOf (s.reg (Adr.LGR_TRIG (n / 32))).toNat (n % 32)

/-- What follows from the lines of page `p` having been `old` and being what they are now: the sources that have become
asserted are recorded (R28) and may trigger the vault (R387). `fuel` bounds the events the ledger raises in turn. -/
def linesFrom : Nat → State → Nat → Nat → State
  | 0, s, _, _ => s
  | k + 1, s, p, old =>
    let rz := fun (s : State) (e : Ev) =>
      let o := s.lines e.page
      linesFrom k (s.setReg (hdr e.page 4) (s.reg (hdr e.page 4) ||| BitVec.ofNat 32 (2 ^ e.bit))) e.page o
    let ns := newSources p old (s.lines p)
    let s1 := ns.foldl (recordSource rz) s
    match ns.filter s.triggers with
    | [] => s1
    | n :: more => triggerWith rz s1 n more.length

/-- Set event bits of the block on page `p` (R499), with what an assertion brings about. -/
def State.raiseBits (s : State) (p bits : Nat) : State :=
  let o := s.lines p
  linesFrom 4 (s.setReg (hdr p 4) (s.reg (hdr p 4) ||| BitVec.ofNat 32 (bits &&& evMask p))) p o

/-- Raise one event (R499). -/
def State.raise (s : State) (e : Ev) : State := s.raiseBits e.page (2 ^ e.bit)

/-- Offer a record to the ledger writer. -/
def State.offer (s : State) (r : LRec) : State := offerWith State.raise s r

/-- The record of an error response (R19, R375), at most one per master and beat (R377). -/
def State.offerFabric (s : State) (m code : Nat) (write : Bool) (addr : Nat) : State :=
  if s.running && s.fab.recorded.contains m then
    { s with fab := { s.fab with merged := spSet (fun _ => 0) s.fab.merged m (spGet (fun _ => 0) s.fab.merged m + 1) } }
  else
    let (c, rest) := takeCount s.fab.merged m
    ({ s with fab := { s.fab with recorded := m :: s.fab.recorded, merged := rest } } : State).offer
      { source := 512, type := 1, time := s.now,
        payload := leBytes 1 m ++ leBytes 1 code ++ leBytes 1 (b2n write) ++ leBytes 5 addr ++ leBytes 4 (min c (2 ^ 32 - 1)) }

/-! ### Memory (R17, R320, R423) -/

/-- What an unlisted byte of memory reads as: 0 (R425, R430: cleared memory), or an undefined byte where the newest fill of its
range left undefined contents. -/
def memDflt (fs : List Fill) (a : Nat) : Byte :=
  match fs.find? fun f => decide (f.lo ≤ a) && decide (a < f.hi) with
  | none => 0
  | some f =>
    match f.src with
    | none => 0
    | some k => Config.freeByte (k + (a - f.lo))

/-- Memory is in canonical form. -/
def State.memWf (s : State) : Bool := spWf (memDflt s.mm.fill) s.mem

/-- Read one byte. -/
def State.rd8 (s : State) (a : Nat) : Byte := spGet (memDflt s.mm.fill) s.mem a

/-- Read `n` bytes from `a`. -/
def State.rdN (s : State) (a n : Nat) : List Byte := (List.range n).map fun i => s.rd8 (a + i)

/-- Read a little-endian number of `n` bytes. -/
def State.rdLe (s : State) (a n : Nat) : Nat := ofLe (s.rdN a n)

/-- Write bytes from `a` upward into the memory list. -/
def memWrite (fs : List Fill) : List Byte → List Host.Cell → Nat → List Host.Cell
  | [], m, _ => m
  | b :: bs, m, a => memWrite fs bs (spSet (memDflt fs) m a b) (a + 1)

/-- The first address of shared SRAM (R17). -/
def sramBase : Nat := 0x1000_0000

/-- The physical address of byte `o` of bank `b`. -/
def bankAddr (b o : Nat) : Nat := sramBase + b * 0x4_0000 + o

/-- The physical address of byte `o` of lane memory `n`. -/
def laneAddr (n o : Nat) : Nat := 0x2000_0000 + n * 0x4_0000 + o

/-- The DRAM address of a register field that holds bits [39:16]. -/
def dramAddr (x : Nat) : Nat := x * 0x1_0000

/-- The tracked banks (R320): the device bank, then the enabled entries that name no earlier bank and not the staging bank. -/
def State.tracked (s : State) : List Nat :=
  (List.range 7).foldl (fun l i =>
    let b := s.f (Fld.PAR_TRACK_BANK i)
    if s.f (Fld.PAR_TRACK_EN i) = 0 ∨ l.contains b ∨ b = s.f Fld.PAR_SBX_STAGE_BANK then l else l ++ [b])
    [s.f Fld.PAR_SBX_DEV_BANK]

/-- Set the dirty bits of the blocks that a write of `n` bytes at `a` touches, in tracked banks (R320). -/
def State.touch (s : State) (a n : Nat) : State :=
  if n = 0 ∨ a < sramBase ∨ sramBase + 0x100_0000 ≤ a then s
  else
    let t := s.tracked
    let lo := (a - sramBase) / 256
    let hi := (a + n - 1 - sramBase) / 256
    let d := (List.range (hi + 1 - lo)).foldl (fun d i =>
      if t.contains ((lo + i) / 1024) then spSet (fun _ => false) d (lo + i) true else d) s.mm.dirty
    { s with mm := { s.mm with dirty := d } }

/-- A performed write: the bytes, the dirty bits of their blocks (R320), and the errors of whole halves replaced (R423). -/
def State.store (s : State) (a : Nat) (bs : List Byte) : State :=
  let m := { s with mem := memWrite s.mm.fill bs s.mem a, mm := { s.mm with ecc := s.mm.ecc.filter fun e =>
    !(decide (a ≤ e.1) && decide (e.1 + 8 ≤ a + bs.length)) } }
  State.touch m a bs.length

/-- Write a little-endian number of `n` bytes. -/
def State.storeLe (s : State) (a n v : Nat) : State := s.store a (leBytes n v)

/-- Put a fill in front of the others: those it covers go, and a zero fill that overlaps none is not kept. -/
def addFill (f : Fill) (l : List Fill) : List Fill :=
  let r := l.filter fun g => !(decide (f.lo ≤ g.lo) && decide (g.hi ≤ f.hi))
  if f.src.isNone && r.all (fun g => decide (g.hi ≤ f.lo) || decide (f.hi ≤ g.lo)) then r else f :: r

/-- Fill the memory range [lo, hi), with correct check bits. -/
def State.fillMem (s : State) (f : Fill) : State :=
  { s with mem := spClear s.mem f.lo f.hi,
           mm := { s.mm with ecc := spClear s.mm.ecc f.lo f.hi, fill := addFill f s.mm.fill } }

/-- Clear the memory range [lo, hi) with correct check bits (R425, R430). -/
def State.clearMem (s : State) (lo hi : Nat) : State := s.fillMem ⟨lo, hi, none⟩

/-- Leave undefined contents in `n` bytes from `a`. -/
def State.scramble (s : State) (a n : Nat) : State :=
  State.touch (({ s with draws := s.draws + n } : State).fillMem ⟨a, a + n, some s.draws⟩) a n

end Sys2Proof.Machine
end

