-- ==== Sys2Proof/Machine/Medium.lean ====
section
/-! DEFINITION. The flash medium (R392–R402, R408, R409, R413): blocks, wear, relocation, and the figures the manager reports
of them. Content is held whole with its object, image or ledger unit; of a block the model holds what the manager's rules
look at. -/

namespace Sys2Proof.Machine

/-- Block `b` of the medium; blocks are numbered by channel, chip enable, LUN and block (R399). -/
def State.nblk (s : State) (b : Nat) : NBlock := spGet (fun _ => { ec := s.nfc.base }) s.nfc.blocks b

/-- Replace block `b`. -/
def State.setBlk (s : State) (b : Nat) (x : NBlock) : State := { s with nfc := { s.nfc with blocks := spSet (fun _ => { ec := s.nfc.base }) s.nfc.blocks b x } }

/-- A header block (R397). -/
def State.headBlk (s : State) (b : Nat) : Bool := let h := s.nfc.nBlocks / 2; b == 0 || (b == 1 || (b == h || b == h + 1))

/-- A free good block: erased and in the pool (R397, R399). -/
def State.freeBlk (s : State) (b : Nat) : Bool :=
  let x := s.nblk b
  decide (b < s.nfc.nBlocks) && (!s.headBlk b && (x.bad == 0 && x.use == 0))

/-- The blocks the map lists. -/
def State.listed (s : State) : List Nat := s.nfc.blocks.map fun e => e.1

/-- Bytes of a block, of a page's quarter. -/
def State.blkBytes (s : State) : Nat := s.nfc.pages * 16384

/-- The first block that is not listed and no header block. -/
def State.firstFresh (s : State) : Option Nat :=
  (List.range s.nfc.nBlocks).find? fun b => !s.headBlk b && !s.listed.contains b

/-- The free block with the smallest erase count, or with the largest when `top`; the lower number between equals (R399). -/
def State.pickBlk (s : State) (top : Bool) : Option Nat :=
  let c := (s.listed.filter s.freeBlk) ++ s.firstFresh.toList
  c.foldl (fun (m : Option Nat) b =>
    match m with
    | none => some b
    | some a =>
      let ea := (s.nblk a).ec
      let eb := (s.nblk b).ec
      if (if top then decide (ea < eb) else decide (eb < ea)) || (ea == eb && decide (b < a)) then some b else some a) none

/-- The day (R395, R396): of disciplined time, or the last recorded one before time is first acquired. -/
def State.day (s : State) : Nat :=
  if s.fb Fld.TIM_STAT_ACQUIRED then s.now / 86400000000000 % 65536 else (s.nfc.head.map fun h => h.day).getD 0

/-- Take `n` blocks from the pool for new content (R399). -/
def State.takeBlks : Nat → State → State × List Nat
  | 0, s => (s, [])
  | n + 1, s =>
    match s.pickBlk false with
    | none => (s, [])
    | some b =>
      let r := State.takeBlks n (s.setBlk b { s.nblk b with use := 1, day := s.day, move := 0 })
      (r.1, b :: r.2)

/-- Superseded blocks wait for their erase (R402, R403). -/
def State.dropBlks (s : State) (l : List Nat) : State :=
  l.foldl (fun t b => t.setBlk b { t.nblk b with use := 2, move := 0 }) s

/-- Counts over the medium: blocks that are factory bad, grown bad; free good blocks. -/
def State.badCount (s : State) (k : Nat) : Nat := (s.nfc.blocks.filter fun e => e.2.bad == k).length
def State.freeCount (s : State) : Nat := s.nfc.nBlocks - 4 - (s.nfc.blocks.filter fun e => !s.freeBlk e.1 && !s.headBlk e.1).length
def State.goodCount (s : State) : Nat := s.nfc.nBlocks - s.badCount 1 - s.badCount 2

/-- Largest and total erase count of the good blocks. -/
def State.maxEc (s : State) : Nat := s.nfc.blocks.foldl (fun m e => if e.2.bad = 0 then max m e.2.ec else m) s.nfc.base
def State.sumEc (s : State) : Nat := s.nfc.blocks.foldl (fun m e => if e.2.bad = 0 then m + e.2.ec else m)
  (s.nfc.base * (s.nfc.nBlocks - s.nfc.blocks.length))

/-- Content of partition `p`, oldest first. -/
def State.objsOf (s : State) (p : Nat) : List NObj := s.nfc.objs.filter fun o => o.part == p

/-- Blocks in use by partition `p` (R415). -/
def State.partBlks (s : State) (p : Nat) : Nat :=
  if p = 6 then s.nfc.log.length + s.nfc.vault.length else ((s.objsOf p).map fun o => o.blocks.length).foldl (· + ·) 0

/-- The manager may program and erase: state `READY` (R392, R413). -/
def State.nfcReady (s : State) : Bool := s.fb Fld.NFC_CFG_EN && s.f Fld.NFC_STAT_STATE == 2

/-- The manager may read. -/
def State.nfcReads (s : State) : Bool := s.fb Fld.NFC_CFG_EN && (s.f Fld.NFC_STAT_STATE == 2 || s.f Fld.NFC_STAT_STATE == 3)

/-- The figures the manager reports, and the conditions of R413. -/
def State.nfcShow (s : State) : State :=
  let s1 := ((((s.setF Fld.NFC_BLOCKS_A_GOOD s.goodCount).setF Fld.NFC_BLOCKS_A_FACTORY_BAD (s.badCount 1)).setF Fld.NFC_BLOCKS_B_FREE
    s.freeCount).setF Fld.NFC_BLOCKS_B_GROWN_BAD (s.badCount 2)).setF Fld.NFC_WEAR_MAX_EC (min 65535 s.maxEc)
  let s2 := s1.setF Fld.NFC_WEAR_MEAN_EC (min 65535 (s.sumEc / max 1 s.goodCount))
  let s3 := forUp 6 (fun i t => (t.setF (Fld.NFC_PART_OBJECTS i) (min 255 (s.objsOf (i + 1)).length)).setF (Fld.NFC_PART_USED i) (s.partBlks (i + 1))) s2
  let low := decide (s.nfc.nBlocks < 20 * s.badCount 2)
  let s4 := if low && !s3.fb Fld.NFC_STAT_SPARE_LOW then (s3.setF Fld.NFC_STAT_SPARE_LOW 1).raise Ev.NFC_SPARE_LOW else s3
  let s5 := if s4.nfc.worn = false ∧ 800 * s.f Fld.NFC_MEDIUM_RATED ≤ s.maxEc then
      ({ s4 with nfc := { s4.nfc with worn := true } } : State).raise Ev.NFC_WEAR_WARN else s4
  if s5.f Fld.NFC_STAT_STATE = 2 ∧ s.nfc.nBlocks < 5 * (s.badCount 1 + s.badCount 2) then
    (s5.setF Fld.NFC_STAT_STATE 6).raise Ev.NFC_READ_ONLY
  else if s5.f Fld.NFC_STAT_STATE = 2 ∧ s.freeCount < 8 then (s5.setF Fld.NFC_STAT_STATE 3).raise Ev.NFC_READ_ONLY else s5

/-- The pages of an image and its mark, in blocks; content lies in whole pages (R403, R408). -/
def State.blksFor (s : State) (n : Nat) : Nat := ((n + 16383) / 16384 * 4 + 1 + (4 * s.nfc.pages - 1)) / (4 * s.nfc.pages)

/-- Write content of partition `p` and index `i` (R403): the superseded content is freed once the mark is programmed. -/
def State.putContent (s : State) (p i : Nat) (d : List Byte) : State :=
  let (s1, bs) := State.takeBlks (s.blksFor d.length) s
  let old := s1.nfc.objs.filter fun o => o.part == p && (o.index == i && p != 5)
  let s2 := s1.dropBlks (old.flatMap fun o => o.blocks)
  let keep := s2.nfc.objs.filter fun o => !(o.part == p && (o.index == i && p != 5))
  let w := s2.nfc.wseq
  ({ s2 with nfc := { s2.nfc with
    objs := keep ++ [{ part := p, index := i, wseq := w, data := d, blocks := bs }]
    wseq := w + (d.length + 4095) / 4096 + 1 } } : State).nfcShow

/-- Remove content for which `p` holds. -/
def State.dropContent (s : State) (p : NObj → Bool) : State :=
  let s1 := s.dropBlks ((s.nfc.objs.filter p).flatMap fun o => o.blocks)
  ({ s1 with nfc := { s1.nfc with objs := s1.nfc.objs.filter fun o => !p o } } : State).nfcShow

/-- A unit of the till takes the next quarter of the log (R409). -/
def State.logUnit (s : State) (u : Nat) : State :=
  let s0 : State := { s with nfc := { s.nfc with wseq := s.nfc.wseq + 1 } }
  match s0.nfc.log.getLast? with
  | some l =>
    if l.units.length < 4 * s.nfc.pages then
      { s0 with nfc := { s0.nfc with log := s0.nfc.log.dropLast ++ [{ l with units := l.units ++ [u] }] } }
    else
      let (s1, bs) := State.takeBlks 1 s0
      { s1 with nfc := { s1.nfc with log := s1.nfc.log ++ bs.map fun b => ⟨b, [u]⟩ } }
  | none =>
    let (s1, bs) := State.takeBlks 1 s0
    { s1 with nfc := { s1.nfc with log := s1.nfc.log ++ bs.map fun b => ⟨b, [u]⟩ } }

/-- Blocks of the log whose every unit is superseded or lies before the till's oldest unit `old` are freed (R409). -/
def State.logFree (s : State) (old : Nat) : State :=
  let later := fun (i u : Nat) => (s.nfc.log.drop (i + 1)).any fun l => l.units.contains u
  let dead := (List.range (s.nfc.log.length - 1)).filter fun i =>
    match s.nfc.log[i]? with
    | none => false
    | some l => l.units.all fun u => decide (u < old) || later i u
  let gone := dead.filterMap fun i => s.nfc.log[i]?.map fun l => l.block
  let s1 := s.dropBlks gone
  ({ s1 with nfc := { s1.nfc with log := s1.nfc.log.filter fun l => !gone.contains l.block } } : State).nfcShow

/-- The vault's own blocks (R409): one quarter of header and one of each 64 records. -/
def State.vaultBlks (s : State) : State :=
  if s.nfc.vault = [] then
    let (s1, bs) := State.takeBlks 1 s
    ({ s1 with nfc := { s1.nfc with vault := bs } } : State).nfcShow
  else s

/-- The vault's blocks are erased at a release (R409). -/
def State.vaultErase (s : State) : State :=
  let s1 := s.dropBlks s.nfc.vault
  ({ s1 with nfc := { s1.nfc with vault := [] } } : State).nfcShow

/-- A block becomes grown bad (R398). -/
def State.growBad (s : State) (b : Nat) : State := ((s.setBlk b { s.nblk b with bad := 2, use := 0, move := 0 }).raise Ev.NFC_GROWN_BAD).nfcShow

/-- Schedule the relocation of block `b`: for corrected bits, or not (R396, R400–R402). -/
def State.schedule (s : State) (b : Nat) (bits : Bool) : State :=
  let x := s.nblk b
  if x.use = 1 ∧ x.bad = 0 then s.setBlk b { x with move := if bits then 2 else max 1 x.move } else s

/-- Replace block `b` by `c` in the logical map (R402). -/
def State.switchBlk (s : State) (b c : Nat) : State :=
  let r := fun (x : Nat) => if x = b then c else x
  { s with nfc := { s.nfc with
    objs := s.nfc.objs.map fun o => { o with blocks := o.blocks.map r }
    log := s.nfc.log.map fun l => { l with block := r l.block }
    vault := s.nfc.vault.map r } }

/-- The static move of R399: the spread is exceeded and `b` is the block in use with the smallest count. -/
def State.staticMove (s : State) (b : Nat) : Bool :=
  let used := s.listed.filter fun i => (s.nblk i).use == 1 && (s.nblk i).bad == 0
  let least := if s.firstFresh.isSome then s.nfc.base else s.nfc.blocks.foldl (fun m e => if e.2.bad = 0 then min m e.2.ec else m) s.maxEc
  decide (least + s.f Fld.NFC_MEDIUM_SPREAD < s.maxEc) && (used.contains b && used.all fun i => decide ((s.nblk b).ec ≤ (s.nblk i).ec))

/-- Move the content of block `b` to a fresh block (R399, R402); the old one waits for its erase, or is grown bad when it was
moved for corrected bits within 7 days of its last erase (R398). -/
def State.relocate (s : State) (b : Nat) : State :=
  let x := s.nblk b
  match s.pickBlk (x.move == 0 && s.staticMove b) with
  | none => s
  | some c =>
    let s1 := (s.setBlk c { s.nblk c with use := 1, day := s.day, move := 0 }).switchBlk b c
    let s2 : State := { s1 with nfc := { s1.nfc with wseq := s1.nfc.wseq + 4 * s1.nfc.pages } }
    if x.move = 2 ∧ (s.day + 65536 - x.erased) % 65536 < 7 then s2.growBad b
    else (s2.setBlk b { x with use := 2, move := 0 }).nfcShow

/-- A quarter read of block `b` that corrected at most `c` bits in a sector, or was uncorrectable (R396, R400). -/
def State.readBlk (s : State) (b : Nat) (c : Option Nat) : State :=
  let x := s.nblk b
  let s1 := s.setBlk b { x with reads := x.reads + 1 }
  let s2 := if s.f Fld.NFC_READ_LIMIT_LIMIT ≤ x.reads + 1 then s1.schedule b false else s1
  match c with
  | some n =>
    if n ≤ min 72 (s.f Fld.NFC_SCRUB_BITS) then s2
    else (s2.schedule b true).stick Fld.NFC_CNT_CORR_RELOC Fld.NFC_FLAGS_CORR_SAT 1
  | none => ((s2.schedule b false).stick Fld.NFC_CNT_UNCORR Fld.NFC_FLAGS_UNCORR_SAT 1).raise Ev.NFC_UNCORR

/-- Quarter `q` of block `b` is lost to its object (R396). -/
def State.loseQuarter (s : State) (b q : Nat) : State :=
  { s with nfc := { s.nfc with objs := s.nfc.objs.map fun o =>
    match (List.range o.blocks.length).find? fun i => o.blocks.getD i 0 == b with
    | none => o
    | some i => { o with lost := (i * 4 * s.nfc.pages + q) :: o.lost } } }

/-- A block erase ends (R398, R402). -/
def State.eraseBlk (s : State) (b : Nat) (good : Bool) : State :=
  let x := s.nblk b
  if x.use ≠ 2 ∨ x.bad ≠ 0 then s
  else if good then (s.setBlk b { x with ec := x.ec + 1, use := 0, reads := 0, erased := s.day, day := 0, move := 0 }).nfcShow
  else s.growBad b

/-- A page program fails (R398): the block's quarters are rewritten in another block. -/
def State.progFail (s : State) (b : Nat) : State :=
  if (s.nblk b).use ≠ 1 then s.growBad b
  else
    match s.pickBlk false with
    | none => s
    | some c => ((s.setBlk c { s.nblk c with use := 1, day := s.day, move := 0 }).switchBlk b c).growBad b

/-- Content whose quarters all read (R396). -/
def NObj.whole (o : NObj) : Bool := o.lost.isEmpty

end Sys2Proof.Machine
end

