-- ==== Sys2Proof/Machine/Ledger.lean ====
section
/-! DEFINITION. The ledger writer (R372–R391): staging, flushing, the till, the vault, nonces and release, extraction. -/

namespace Sys2Proof.Machine

/-- The first ring bank (R380). -/
def State.ringBank (s : State) : Nat := min (s.f Fld.LGR_CFG_RING_BANK) 60

/-- The address of the slot of sequence number `q` in the ring that starts at bank `b` (R380). -/
def slotAddr (b q : Nat) : Nat := bankAddr b (64 * (q % 16384))

/-- Bytes 0–59 of a record: fields, payload and CRC (R372). -/
def recBody (q : Nat) (r : LRec) : List Byte :=
  let h := leBytes 8 q ++ leBytes 8 r.time ++ leBytes 2 r.source ++ leBytes 1 r.type ++ leBytes 1 (min r.payload.length 36)
    ++ padTo 36 (r.payload.take 36)
  h ++ leBytes 4 (crc32c h)

/-- The valid mark of sequence number `q` (R373). -/
def recMark (q : Nat) : Nat := (q % 2 ^ 32) ^^^ 0xA5C33C5A

/-- A 64-byte record (R372). -/
def recBytes (q : Nat) (r : LRec) : List Byte := recBody q r ++ leBytes 4 (recMark q)

/-- The sequence number of a valid 64-byte record; none when its CRC or mark is wrong (R373). -/
def validSeq (b : List Byte) : Option Nat :=
  let q := leAt b 0 8
  if leAt b 56 4 = crc32c (b.take 56) ∧ leAt b 60 4 = recMark q then some q else none

/-- The valid records of the ring that starts at bank `b`, as (sequence number, bytes), in slot order. -/
def State.ringRecords (s : State) (b : Nat) : List (Nat × List Byte) :=
  (List.range 16384).filterMap fun i =>
    let x := s.rdN (slotAddr b i) 64
    (validSeq x).map fun q => (q, x)

/-- The valid records of a till unit. -/
def unitRecords (u : List Byte) : List (Nat × List Byte) :=
  (List.range 64).filterMap fun i =>
    let x := (u.drop (64 * i)).take 64
    (validSeq x).map fun q => (q, x)

/-- The least number of a list. -/
def minOf : List Nat → Option Nat
  | [] => none
  | x :: l => match minOf l with
    | none => some x
    | some y => some (min x y)

/-- The oldest valid record in the ring (`LGR_RING_OLD`). -/
def State.ringOld (s : State) : Nat := (minOf ((s.ringRecords s.ringBank).map (·.1))).getD 0

/-- The oldest record of the till, counting those still in the ring (`LGR_OLD`, R383). -/
def State.tillOld (s : State) : Nat :=
  match minOf ((s.lgr.till.take 1).flatMap fun u => (unitRecords u.2).map (·.1)) with
  | some q => q
  | none => s.ringOld

/-- The last sequence number staged. -/
def State.lastSeq (s : State) : Nat := s.pair Adr.LGR_SEQ_LO Adr.LGR_SEQ_HI

/-- Hand unit `u` to the flash manager (R381). -/
def State.handUnit (s : State) (u : Nat) : State :=
  if s.lgr.units.contains u then s else { s with lgr := { s.lgr with units := s.lgr.units ++ [u] } }

/-- Hand over the unit that is being filled, when it holds an unflushed record (R381). -/
def State.flushCurrent (s : State) : State :=
  match s.lgr.unflushed.getLast? with
  | none => s
  | some (q, _) => s.handUnit (q / 64)

/-- The vault-state record (R385): new state, first and last sequence number, count; the header quarter is rewritten (R409). -/
def State.offerVault (s : State) : State :=
  (if s.nfcReady then s.vaultBlks else s).offer (mkRec 516 4 s.now
    (leBytes 8 s.lgr.vState ++ leBytes 8 s.lgr.vFirst ++ leBytes 8 s.lgr.vLast ++ leBytes 4 s.lgr.vault.length))

/-- Seal the vault (R385): it is flushed, a vault-state record is written and `VAULT_SEALED` is raised. -/
def State.seal (s : State) : State :=
  let s1 : State := { s with lgr := { s.lgr with vState := 3, vPost := none } }
  (s1.offerVault.raise Ev.LGR_VAULT_SEALED).flushCurrent

/-- The vault takes record `q` (R385, R386). -/
def State.vaultTake (s : State) (q : Nat) (b : List Byte) : State :=
  let n := s.lgr.vault.length
  { s with lgr := { s.lgr with vault := s.lgr.vault ++ [b], vFirst := if n = 0 then q else s.lgr.vFirst, vLast := q } }

/-- The effective `POST` of R386. -/
def State.postCount (s : State) : Nat := min (s.f Fld.LGR_VAULT_CFG_POST) (4095 - s.f Fld.LGR_VAULT_CFG_PRE)

/-- What the vault does with the record of sequence number `q` just staged; `trig` when it is a captured trigger (R385, R386). -/
def State.vaultStep (s : State) (q : Nat) (b : List Byte) (trig : Bool) : State :=
  if s.lgr.vState = 1 ∧ trig then
    let n := min (s.f Fld.LGR_VAULT_CFG_PRE) (q - s.lgr.startSeq)
    let s1 := (List.range n).foldl (fun t i => t.vaultTake (q - n + i) (s.rdN (slotAddr s.ringBank (q - n + i)) 64)) s
    let s2 := s1.vaultTake q b
    let s3 : State := { s2 with lgr := { s2.lgr with vState := 2, vTrig := false, vPost := some s.postCount } }
    let s4 := s3.offerVault
    if s.postCount = 0 then s4.seal else s4
  else if s.lgr.vState = 1 ∧ s.f Fld.LGR_VAULT_CFG_CROSS = 0 then
    let s1 := s.vaultTake q b
    ({ s1 with lgr := { s1.lgr with vState := 2, vPost := none } } : State).offerVault
  else if s.lgr.vState = 2 then
    let s1 := s.vaultTake q b
    match s1.lgr.vPost with
    | none => if s1.lgr.vault.length < 4096 then s1 else s1.seal
    | some k =>
      let s2 : State := { s1 with lgr := { s1.lgr with vPost := some (k - 1) } }
      if k ≤ 1 then s2.seal else s2
  else s

/-- Slot `q` still holds an unflushed record (R382). -/
def State.slotBusy (s : State) (q : Nat) : Bool := s.lgr.unflushed.any fun e => e.1 % 16384 == q % 16384

/-- The writer holds the deed of the ring bank of sequence number `q` (R380). -/
def State.ringHeld (s : State) (q : Nat) : Bool := s.f (Fld.MEM_DEED_HOLDER (s.ringBank + q % 16384 / 4096)) == 26

/-- Stage one record (R373, R374, R380): bytes 0–59, then the mark, then `LGR_SEQ`; a full unit is handed over (R381). -/
def State.stage (s : State) (r : LRec) : State :=
  let q := s.lgr.nextSeq
  let a := slotAddr s.ringBank q
  let s1 := (s.store a (recBody q r)).store (a + 60) (leBytes 4 (recMark q))
  let s2 := s1.setPair Adr.LGR_SEQ_LO Adr.LGR_SEQ_HI q
  let s3 : State := { s2 with lgr := { s2.lgr with
    nextSeq := q + 1, unflushed := s2.lgr.unflushed ++ [(q, s.tim.raw)]
    startSeq := if r.source = 516 ∧ r.type = 1 then q else s2.lgr.startSeq } }
  let s4 := match r.sw with
    | none => s3
    | some c => (s3.setF (Fld.LGR_SW_STAT_RESULT c) 1).setF (Fld.LGR_SW_STAT_SEQ c) q
  let s5 := if q % 64 = 63 then s4.handUnit (q / 64) else s4
  s5.vaultStep q (recBytes q r) r.trig

/-- A record at the front of the queue finds no room (R382). -/
def State.loseFront (s : State) (r : LRec) (rest : List LRec) : State :=
  let l := if s.lgr.lost = 0 then { s.lgr with queue := rest, lost := 1, lostTime := r.time, lostSrc := r.source }
    else { s.lgr with queue := rest, lost := s.lgr.lost + 1 }
  let l := if r.trig then { l with vTrig := false } else l
  let s1 := (({ s with lgr := l } : State).stick Fld.LGR_CNT_A_LOST Fld.LGR_FLAGS_LOST_SAT 1).raise Ev.LGR_LOST
  match r.sw with
  | none => s1
  | some c => s1.setF (Fld.LGR_SW_STAT_RESULT c) 3

/-- The GAP record (R382). -/
def State.gapRec (s : State) : LRec :=
  mkRec 516 2 s.now (leBytes 4 s.lgr.lost ++ leBytes 8 s.lgr.lostTime ++ leBytes 2 s.lgr.lostSrc)

/-- The writer stages the next record (R374, R376, R380, R382, R384): the START record first, a GAP record first after a loss. Without room in the ring
the offered record is lost; while writing is disabled or the ring's deed is not held, records wait. -/
def State.stageNext (s : State) : State :=
  if s.f Fld.LGR_CFG_EN = 0 ∨ s.ringHeld s.lgr.nextSeq = false then s
  else
    match s.lgr.start with
    | some r => ({ s with lgr := { s.lgr with start := none } } : State).stage r
    | none =>
      if s.slotBusy s.lgr.nextSeq then
        match s.lgr.queue with
        | [] => s
        | r :: rest => s.loseFront r rest
      else if 0 < s.lgr.lost then
        ({ s with lgr := { s.lgr with lost := 0 } } : State).stage s.gapRec
      else
        match s.lgr.queue with
        | [] => s
        | r :: rest => ({ s with lgr := { s.lgr with queue := rest } } : State).stage r

/-- A write of `LGR_SW_COMMIT[c]` by master `m` (R379). -/
def doSwCommit (s : State) (m c : Nat) : State :=
  if m ≠ c ∨ 4 ≤ c then s.ok
  else
    let w := (s.reg (Adr.LGR_SW c 0)).toNat
    let src := bitsOf w 15 0
    let len := bitsOf w 31 24
    let body := (List.range 9).flatMap fun i => leBytes 4 (s.reg (Adr.LGR_SW c (i + 1))).toNat
    if src < 768 ∨ 1023 < src ∨ 36 < len then (s.setF (Fld.LGR_SW_STAT_RESULT c) 2).ok
    else if s.f Fld.LGR_CFG_EN = 0 then (s.setF (Fld.LGR_SW_STAT_RESULT c) 0).ok
    else
      let full := 256 ≤ s.lgr.queue.length
      let s1 := (s.setF (Fld.LGR_SW_STAT_RESULT c) (if full then 3 else 0)).offer
        { source := src, type := bitsOf w 23 16, time := s.now, payload := body.take len, sw := some c }
      s1.ok

/-- The till with unit `u` written: it replaces the unit of that number, or displaces the oldest of 1,024 (R383). -/
def tillPut (t : List (Nat × List Byte)) (u : Nat) (b : List Byte) : List (Nat × List Byte) :=
  let t1 := spInsert t u b
  t1.drop (t1.length - 1024)

/-- The 4,096 bytes of unit `u` as the ring holds it; slots not yet staged are 0 (R381). -/
def State.unitBytes (s : State) (u : Nat) : List Byte :=
  (List.range 64).flatMap fun i =>
    let q := 64 * u + i
    let x := s.rdN (slotAddr s.ringBank q) 64
    if validSeq x = some q then x else zeros 64

/-- A unit write completes or fails (R381, R382); a medium that is not writable refuses it (R413). -/
def State.unitWritten (s : State) (good : Bool) : State :=
  match s.lgr.units with
  | [] => s
  | u :: rest =>
    let s0 : State := { s with lgr := { s.lgr with units := rest } }
    if good && s.nfcReady then
      let l := { s0.lgr with
        till := tillPut s0.lgr.till u (s.unitBytes u), unflushed := s0.lgr.unflushed.filter fun e => e.1 / 64 != u }
      let s1 : State := { s0 with lgr := l }
      (s1.logUnit u).logFree ((s1.lgr.till.map fun e => e.1).headD 0)
    else (s0.stick Fld.LGR_CNT_B_FLUSH_ERR Fld.LGR_FLAGS_FERR_SAT 1).raise Ev.LGR_FLUSH_ERR

/-- Insert by sequence number. -/
def insertSeq (l : List (Nat × List Byte)) (e : Nat × List Byte) : List (Nat × List Byte) := spInsert l e.1 e.2

/-- The till after writing records in sequence order into their units (R384). -/
def tillAdd (t : List (Nat × List Byte)) (e : Nat × List Byte) : List (Nat × List Byte) :=
  let u := e.1 / 64
  let old := spGet (fun _ => zeros 4096) t u
  tillPut t u (old.take (64 * (e.1 % 64)) ++ e.2 ++ old.drop (64 * (e.1 % 64) + 64))

/-- The last sequence number of the till. -/
def tillLast (t : List (Nat × List Byte)) : Nat :=
  t.foldl (fun m u => (unitRecords u.2).foldl (fun m r => max m r.1) m) 0

/-- The writer starts (R374, R384): ring scan in the banks of `SYS_RETAIN`, records recovered to the till, numbers resumed
at the next multiple of 65,536, and the START record put first. -/
def State.ledgerStart (s : State) : State :=
  let last := tillLast s.lgr.till
  let recs := ((s.ringRecords (min (s.f Fld.SYS_RETAIN_RING_BANK) 60)).filter fun e => last < e.1).foldl insertSeq []
  let till := recs.foldl tillAdd s.lgr.till
  let high := recs.foldl (fun m e => max m e.1) (max last s.lgr.vLast)
  let start : LRec := mkRec 516 1 s.now
    (leBytes 8 high ++ leBytes 4 recs.length ++ leBytes 1 (s.f Fld.SYS_RST_CAUSE_CODE))
  { s with lgr := { s.lgr with
    scanned := true, till := till, nextSeq := (high / 65536 + 1) * 65536, unflushed := [], units := [], start := some start } }

/-- `ARM` (R385). -/
def doArm (s : State) : State :=
  if s.lgr.vState = 0 then
    ({ s with lgr := { s.lgr with vState := 1, vault := [], vFirst := 0, vLast := 0 } } : State).offerVault.ok
  else s.ok

/-- `CLOSE` (R385). -/
def doClose (s : State) : State := if s.lgr.vState = 2 then s.seal.ok else s.ok

/-- `TRIGGER` (R387): the write has source code 516. -/
def doTrigger (s : State) : State := (triggerWith State.raise s 516 0).ok

/-- `FLUSH` (R381). -/
def doFlush (s : State) : State := s.flushCurrent.ok

/-- A write of `LGR_CTRL`: QUIESCE, and the four commands in the order of R376's sources. -/
def doLgrCtrl (s : State) (v : Word) : State :=
  let x := v.toNat
  let s1 := s.setF ⟨Adr.LGR_CTRL, 1, 1⟩ (bitsOf x 1 1)
  let s2 := if bitOf x 31 then doArm s1 else s1
  let s3 := if bitOf x 30 then doClose s2 else s2
  let s4 := if bitOf x 29 then doTrigger s3 else s3
  (if bitOf x 28 then doFlush s4 else s4).ok

/-- A read of `LGR_NONCE_LO` (R388): a fresh nonce, every earlier one void. -/
def doLgrNonce (s : State) : State :=
  let n := Config.nonce s.draws
  let t := s.draw
  let s1 : State := { t with lgr := { t.lgr with nonce := some n } }
  (s1.setPair Adr.LGR_NONCE_LO Adr.LGR_NONCE_HI n.toNat).ansW (BitVec.ofNat 32 n.toNat)

/-- Words of an array of registers as bytes, word 0 bits [7:0] first. -/
def State.words (s : State) (a n : Nat) : List Byte := (List.range n).flatMap fun i => leBytes 4 (s.reg (a + i)).toNat

/-- The message a release signs (R388). -/
def State.releaseMsg (s : State) (n : BitVec 64) : List Byte :=
  ascii "DQLR" ++ leBytes 2 1 ++ leBytes 2 0 ++ leBytes 8 n.toNat ++ leBytes 8 s.lgr.vFirst ++ leBytes 8 s.lgr.vLast

/-- The public key in `LCS_PUBKEY` (R452). -/
def State.pubKey (s : State) : List Byte := s.words (Adr.LCS_PUBKEY 0) 24

/-- The result of a release attempt (R388). -/
def State.releaseResult (s : State) : Nat :=
  if s.lgr.vState ≠ 3 then 3
  else
    match s.lgr.nonce with
    | none => 4
    | some n =>
      if s.lcs.lgrHash = some (sha384 s.pubKey) ∧ ecdsaVerify s.pubKey (s.releaseMsg n) (s.words (Adr.LGR_TOKEN 0) 24) = true
      then 1 else 2

/-- A write of `LGR_REL_CTRL.GO` (R388, R386). -/
def doRelease (s : State) : State :=
  let r := s.releaseResult
  let n := (s.lgr.nonce.getD 0).toNat
  let s0 := ({ s with lgr := { s.lgr with nonce := none } } : State).setF Fld.LGR_REL_CTRL_RESULT r
  if r = 1 then
    let cross := s.fb Fld.LGR_VAULT_CFG_CROSS
    let s1 := s0.offer (mkRec 516 5 s.now (leBytes 8 s.lgr.vFirst ++ leBytes 8 s.lgr.vLast ++ leBytes 8 n))
    let s2 : State := { s1 with lgr := { s1.lgr with vState := if cross then 1 else 0, vFirst := 0, vLast := 0, vault := [] } }
    (s2.vaultErase.offerVault.raise Ev.LGR_RELEASED).ok
  else s0.ok

/-- A write of `LGR_XTR_CTRL` with `GO` (R390); ignored while busy. -/
def doXtrGo (s : State) (v : Word) : State :=
  let s0 := (s.setF Fld.LGR_XTR_CTRL_AREA (bitsOf v.toNat 30 30)).setF Fld.LGR_XTR_CTRL_COUNT (bitsOf v.toNat 16 0)
  if s.lgr.xtr then s0.ok
  else (({ s0 with lgr := { s0.lgr with xtr := true } } : State).setF Fld.LGR_XTR_CTRL_BUSY 1).ok

/-- Every record of till and ring, in sequence order. -/
def State.allRecords (s : State) : List (Nat × List Byte) :=
  (s.ringRecords s.ringBank).foldl insertSeq ((s.lgr.till.flatMap fun u => unitRecords u.2).foldl insertSeq [])

/-- The records an extraction copies (R390). -/
def State.xtrRecords (s : State) : List (Nat × List Byte) :=
  if s.f Fld.LGR_XTR_CTRL_AREA = 1 then s.lgr.vault.map fun b => (leAt b 0 8, b)
  else
    let first := s.pair Adr.LGR_XTR_FIRST_LO Adr.LGR_XTR_FIRST_HI
    let n := max 1 (min 65536 (s.f Fld.LGR_XTR_CTRL_COUNT))
    (s.allRecords.filter fun e => decide (first ≤ e.1) && decide (s.tillOld ≤ e.1)).take n

/-- The bytes of usable DRAM (R17). -/
def inDram (a : Nat) : Bool := decide (0x08_0000_0000 ≤ a) && decide (a < 0x09_C000_0000)

/-- Store into DRAM, the part that lies in usable DRAM. -/
def State.storeDram (s : State) (a : Nat) (b : List Byte) : State :=
  if inDram a then s.store a (b.take (0x09_C000_0000 - a)) else s

/-- An extraction ends (R390); `fail` gives the records copied before a flash read error. -/
def State.xtrEnd (s : State) (fail : Option Nat) : State :=
  if s.lgr.xtr then
    let rs := match fail with
      | none => s.xtrRecords
      | some k => s.xtrRecords.take k
    let s1 := s.storeDram (dramAddr (s.f Fld.LGR_XTR_DRAM_ADDR)) (rs.flatMap (·.2))
    let s2 := (s1.setPair Adr.LGR_XTR_RES_LO Adr.LGR_XTR_RES_HI ((rs.map (·.1)).headD 0)).setF Fld.LGR_XTR_RES_CNT_COUNT
      rs.length
    let s3 := ({ s2 with lgr := { s2.lgr with xtr := false } } : State).setF Fld.LGR_XTR_CTRL_BUSY 0
    let s4 := if fail.isSome then s3.setF Fld.LGR_XTR_CTRL_ERR 1 else s3
    (s4.setF Fld.LGR_XTR_CTRL_DONE 1).raise Ev.LGR_XTR_DONE
  else s

/-- `LEDGER_STAGE`. -/
def execLedgerStage (s : State) : Out := live s s.stageNext

/-- `LGR_SW_COMMIT`. -/
def execLgrSwCommit (m c : Nat) (s : State) : Out := live s (doSwCommit s m c)

/-- `FLUSH`. -/
def execFlush (s : State) : Out := live s (doFlush s)

/-- `FLUSH_MS_EXPIRY`: the unit of the oldest unflushed record goes to flash (R381). -/
def execFlushMsExpiry (s : State) : Out :=
  live s (match s.lgr.unflushed with
    | [] => s
    | (q, _) :: _ => s.handUnit (q / 64))

/-- `LEDGER_UNIT_WRITTEN`. -/
def execLedgerUnitWritten (good : Bool) (s : State) : Out := liveIf (s.f Fld.NFC_STAT_STATE != 1) s (s.unitWritten good)

/-- `ARM`. -/
def execArm (s : State) : Out := live s (doArm s)

/-- `CLOSE`. -/
def execClose (s : State) : Out := live s (doClose s)

/-- `TRIGGER`. -/
def execTrigger (s : State) : Out := live s (doTrigger s)

/-- `LGR_NONCE_DRAW`. -/
def execLgrNonceDraw (s : State) : Out := live s (doLgrNonce s)

/-- `VAULT_RELEASE`. -/
def execVaultRelease (s : State) : Out := live s (doRelease s)

/-- `XTR_GO`. -/
def execXtrGo (v : Word) (s : State) : Out := live s (doXtrGo s v)

/-- `XTR_DONE`. -/
def execXtrDone (fail : Option Nat) (s : State) : Out := live s (s.xtrEnd fail)

end Sys2Proof.Machine
end

