-- ==== Sys2Proof/Machine/Access.lean ====
section
/-! DEFINITION. Access tables, life cycle, test multiplexer and boundary scan (R440–R460). -/

namespace Sys2Proof.Machine

/-! ### Targets and rules (R440–R444) -/

/-- The access-table target of peripheral page `p` and the index of the page within it (R440, R441). -/
def pageTarget (p : Nat) : Nat × Nat :=
  if p < 7 then (p, 0) else if p < 11 then (7, p - 7) else if p < 20 then (8, p - 11) else if p < 28 then (9, p - 20)
  else if p < 32 then (10, p - 28) else if p < 33 then (11, 0) else if p < 37 then (12, p - 33)
  else if p < 41 then (13, p - 37) else if p < 42 then (14, 0) else if p < 44 then (15, p - 42)
  else if p < 47 then (16, p - 44) else if p < 143 then (17, p - 47) else if p < 151 then (p - 125, 0)
  else if p = 151 then (205, 0) else (206, 0)

/-- The shared-SRAM address that an address views: itself, or the word behind an alias window (R422). -/
def viewed (a : Nat) : Nat :=
  if 0x1400_0000 ≤ a ∧ a < 0x1500_0000 then a - 0x400_0000
  else if 0x1800_0000 ≤ a ∧ a < 0x1900_0000 then a - 0x800_0000 else a

/-- Whether an address lies in an alias window, and whether that window clears (R17). -/
def aliasOf (a : Nat) : Option Bool :=
  if 0x1400_0000 ≤ a ∧ a < 0x1500_0000 then some false
  else if 0x1800_0000 ≤ a ∧ a < 0x1900_0000 then some true else none

/-- Whether an address is in shared SRAM or one of its alias windows. -/
def inSram (a : Nat) : Bool := decide (sramBase ≤ viewed a) && decide (viewed a < sramBase + 0x100_0000)

/-- The bank of a shared-SRAM address (either view). -/
def bankOf (a : Nat) : Nat := (viewed a - sramBase) / 0x4_0000

/-- The access-table target of an address and the word offset within it (R440, R441). -/
def targetOf (a : Nat) : Option (Nat × Nat) :=
  if inSram a then some (26 + bankOf a, (viewed a - sramBase) % 0x4_0000 / 4)
  else if 0x2000_0000 ≤ a ∧ a < 0x2180_0000 then some (90 + (a - 0x2000_0000) / 0x4_0000, (a - 0x2000_0000) % 0x4_0000 / 4)
  else if 0x3000_0000 ≤ a ∧ a < 0x3040_0000 then some (186, (a - 0x3000_0000) / 4)
  else if inDram a then some (187 + (a - 0x08_0000_0000) / 0x1C00_0000, (a - 0x08_0000_0000) % 0x1C00_0000 / 4)
  else if 0x4000_0000 ≤ a ∧ a < 0x4009_9000 then
    let p := (a - 0x4000_0000) / 4096
    some ((pageTarget p).1, (pageTarget p).2 * 1024 + (a - 0x4000_0000) % 4096 / 4)
  else none

/-- Word `w` of rule `j` (R442). -/
def State.rule (s : State) (j w : Nat) : Nat := (spGet (fun _ => (0 : Word)) s.fwl.rules (4 * j + w)).toNat

/-- The permission bit of an access in word 3 of a rule (R442). -/
def permBit : Acc → Nat
  | .read => 0
  | .write => 1
  | .fetch => 2

/-- Rule `j` covers the word at offset `o` for master `m` and access `k` (R443). -/
def State.ruleCovers (s : State) (m : Nat) (k : Acc) (o j : Nat) : Bool :=
  bitOf (s.rule j 3) 31 && (bitOf (s.rule j 0) m && (bitOf (s.rule j 3) (permBit k) &&
    (decide (s.rule j 1 ≤ o) && (s.rule j 2 == 0 || decide (o < s.rule j 1 + s.rule j 2)))))

/-- The list of target `t` covers the word at offset `o` (R443). -/
def State.listCovers (s : State) (m : Nat) (k : Acc) (t o : Nat) : Bool :=
  (List.range (s.f (Fld.FWL_TGT_COUNT t))).any fun i => s.ruleCovers m k o (s.f (Fld.FWL_TGT_FIRST t) + i)

/-- The tables permit one word (R443, R444): identity 4 to EVT and the safety block always; writes of identity 20 into shared
SRAM by item 1 of the Icvo target; the debug port opened with the maker key bypasses them (R457). -/
def State.wordPermitted (s : State) (m : Nat) (k : Acc) (t o : Nat) : Bool :=
  if m = 4 ∧ (t = 2 ∨ t = 206) then true
  else if m = 22 ∧ s.fb Fld.LCS_DBG_MAKER then true
  else if m = 20 ∧ k = .write ∧ 26 ≤ t ∧ t < 90 then s.listCovers m k 204 1
  else s.listCovers m k t o

/-- The first word a request touches that no rule covers, as (target, offset); none when it is permitted (R443). -/
def State.uncovered (s : State) (m : Nat) (k : Acc) (a n : Nat) : Option (Nat × Nat) :=
  if s.f Fld.FWL_STAT_ENFORCE = 0 then none
  else
    (List.range ((a + n + 3) / 4 - a / 4)).findSome? fun i =>
      match targetOf (4 * (a / 4 + i)) with
      | none => none
      | some (t, o) => if s.wordPermitted m k t o then none else some (t, o)

/-- The code of an access in `FWL_VIOL_LAST_A.ACCESS`. -/
def accCode : Acc → Nat
  | .read => 0
  | .write => 1
  | .fetch => 2

/-- A request refused by the tables is counted, described and raised (R449); its ledger record is the fabric's (R375). -/
def State.violation (s : State) (m : Nat) (k : Acc) (t o : Nat) : State :=
  let s1 := s.stick Fld.FWL_VIOL_CNT_COUNT Fld.FWL_VIOL_CNT_SAT 1
  let s2 := if s1.fb Fld.FWL_VIOL_LAST_A_VALID then s1
    else ((((s1.setF Fld.FWL_VIOL_LAST_A_VALID 1).setF Fld.FWL_VIOL_LAST_A_ACCESS (accCode k)).setF
      Fld.FWL_VIOL_LAST_A_MASTER m).setF Fld.FWL_VIOL_LAST_A_TARGET t).setF Fld.FWL_VIOL_LAST_B_OFS o
  s2.raise Ev.FWL_VIOLATION

/-- Every list lies within the rule store (R446). -/
def State.listsOk (s : State) : Bool :=
  (List.range 207).all fun k => decide (s.f (Fld.FWL_TGT_FIRST k) + s.f (Fld.FWL_TGT_COUNT k) ≤ 4096)

/-- A write of `FWL_ARM.KEY` (R446). -/
def doFwlArm (s : State) (key : Nat) : State :=
  if key % 65536 ≠ 0x10C4 then s.ok
  else if s.listsOk then ((s.setReg (hdr 3 7) 7).setF Fld.FWL_STAT_ENFORCE 1).ok
  else ((s.setF Fld.FWL_STAT_ARM_ERR 1).raise Ev.FWL_ARM_REFUSED).ok

/-- A write of `FWL_RULE_SEL` (R447): selects rule `j` and loads the window. -/
def doRuleSelect (s : State) (j : Nat) : State :=
  (forUp 4 (fun w t => t.setReg (Adr.FWL_RULE_W w) (BitVec.ofNat 32 (s.rule (j % 4096) w)))
    (s.setF Fld.FWL_RULE_SEL_IDX j)).ok

/-- A write of `FWL_RULE_COMMIT` (R447). -/
def doRuleCommit (s : State) : State :=
  let j := s.f Fld.FWL_RULE_SEL_IDX
  let w3 := (s.reg (Adr.FWL_RULE_W 3)).toNat &&& 0xE0000007
  let o3 := s.rule j 3
  if s.fb Fld.FWL_STAT_ENFORCE ∧ (bitOf o3 30 ∨ (bitOf w3 30 ∧ !bitOf o3 30) ∨ (bitOf w3 29 ∧ !bitOf o3 29)) then
    (s.setF Fld.FWL_STAT_REFUSED 1).ok
  else
    let put := fun (r : List (Nat × Word)) (w x : Nat) => spSet (fun _ => 0) r (4 * j + w) (BitVec.ofNat 32 x)
    let r := put (put (put (put s.fwl.rules 0 (s.reg (Adr.FWL_RULE_W 0)).toNat) 1 (s.reg (Adr.FWL_RULE_W 1)).toNat)
      2 (s.reg (Adr.FWL_RULE_W 2)).toNat) 3 w3
    ({ s with fwl := { s.fwl with rules := r } } : State).ok

/-- The safety block owns DI12–DI15, DO12–DO15, TP0 and TP1 (R448). -/
def State.claimed (s : State) : Bool :=
  s.fb Fld.FWL_STAT_ENFORCE &&
    (List.range (s.f (Fld.FWL_TGT_COUNT 206))).any fun i =>
      let j := s.f (Fld.FWL_TGT_FIRST 206) + i
      decide (s.rule j 3 / 2 ^ 29 = 7) && s.rule j 0 == 0x10

/-- The safety block owns its inputs and lines: claimed, or as before a reset of code 2 or 3 until tables are enforced again
(R270, R285, R448). -/
def State.safOwned (s : State) : Bool := s.claimed || (s.saf.kept && !s.fb Fld.FWL_STAT_ENFORCE)

/-- Rules with `VALID` at 1. -/
def State.validRules (s : State) : Nat := (s.fwl.rules.filter fun e => e.1 % 4 == 3 && bitOf e.2.toNat 31).length

/-! ### Life cycle (R450–R456) -/

/-- The state the fuses hold (R451): the highest group with at least two of its three fuses blown. -/
def LcsSt.fuseState (l : LcsSt) : Nat :=
  (List.range 5).foldl (fun m i => if 2 ≤ l.fuses.getD i 0 then i + 1 else m) 0

/-- A read of `LCS_NONCE_LO` (R453). -/
def doLcNonce (s : State) : State :=
  let n := Config.nonce s.draws
  let s1 : State := { s.draw with lcs := { s.lcs with nonce := some n } }
  (s1.setPair Adr.LCS_NONCE_LO Adr.LCS_NONCE_HI n.toNat).ansW (BitVec.ofNat 32 n.toNat)

/-- Bytes 24–71 of a request's message (R453). -/
def State.lcData (s : State) (op arg : Nat) : List Byte :=
  let d := s.words (Adr.LCS_DATA 0) 12
  if op = 5 then d.take 32 ++ zeros 16
  else if op = 4 ∨ (op = 1 ∧ arg = 2) then d else zeros 48

/-- The signed message of a request (R453). -/
def State.lcMsg (s : State) (op arg : Nat) (n : BitVec 64) : List Byte :=
  ascii "DQLC" ++ leBytes 2 1 ++ leBytes 1 op ++ leBytes 1 arg ++ leBytes 8 s.lcs.uid.toNat ++ leBytes 8 n.toNat
    ++ s.lcData op arg

/-- Whether the table of R454 allows the request in the present state. -/
def State.lcAllowed (s : State) (op arg : Nat) : Bool :=
  let st := s.lcs.state
  if op = 1 then
    !s.fb Fld.LCS_STATE_PENDING &&
      ((st == 0 && arg == 1) || ((st == 1 && arg == 2) || ((st == 2 && arg == 3) ||
        (((st == 2 || st == 3) && arg == 4) || (st != 5 && arg == 5)))))
  else if op = 2 then st == 1 || (st == 4 || st == 2)
  else if op = 4 then st == 2 && (arg == 1 || arg == 2)
  else if op = 5 then st == 2
  else false

/-- The condition of R454 on slots and keys. -/
def State.lcSlots (s : State) (op arg : Nat) : Bool :=
  if op = 1 ∧ arg = 3 then s.lcs.cfgHash.isSome && s.lcs.lgrHash.isSome
  else if op = 1 ∧ arg = 2 then s.lcs.custHash.isNone
  else if op = 4 then (if arg = 1 then s.lcs.cfgHash.isNone else s.lcs.lgrHash.isNone)
  else if op = 5 then s.lcs.secret.isNone
  else true

/-- Whether the request is signed with the maker key (R454). -/
def State.lcMaker (s : State) (op arg : Nat) : Bool :=
  if op = 1 then decide (arg < 3) || (arg == 5 && s.lcs.custHash.isNone)
  else if op = 2 then s.lcs.state != 2 else false

/-- The result code of a request (R454, R460). -/
def State.lcCode (s : State) (op arg : Nat) : Nat :=
  if op = 3 then 1
  else if !s.lcAllowed op arg then 3
  else
    match s.lcs.nonce with
    | none => 4
    | some n =>
      if !s.lcSlots op arg then 5
      else
        let mk := s.lcMaker op arg
        let key := if mk then Config.makerKey else s.pubKey
        if !mk && s.lcs.custHash != some (sha384 key) then 6
        else if ecdsaVerify key (s.lcMsg op arg n) (s.words (Adr.LCS_TOKEN 0) 24) then 1 else 2

/-- Set `LCS_DBG.OPEN` and `MAKER` (R457); a rise raises `DBG_OPENED`. -/
def State.setDebug (s : State) (open_ maker : Bool) : State :=
  let was := s.fb Fld.LCS_DBG_OPEN
  let s1 := (s.setF Fld.LCS_DBG_OPEN (b2n open_)).setF Fld.LCS_DBG_MAKER (b2n (open_ && maker))
  if open_ && !was then s1.raise Ev.LCS_DBG_OPENED else s1

/-- The effect of a request that passes every check (R451–R454). -/
def State.lcPerform (s : State) (op arg : Nat) : State :=
  let d := s.words (Adr.LCS_DATA 0) 12
  if op = 1 then
    let l0 := { s.lcs with fuses := setNth s.lcs.fuses (arg - 1) 3 }
    let l1 := if arg = 2 then { l0 with custHash := some d } else l0
    let l2 := if 4 ≤ arg then { l1 with secret := some (List.replicate 32 0xFF) } else l1
    (({ s with lcs := l2 } : State).setF Fld.LCS_STATE_PENDING 1).setF Fld.LCS_STATE_TARGET arg
  else if op = 2 then s.setDebug true (s.lcMaker op arg)
  else if op = 3 then s.setDebug false false
  else if op = 4 then
    { s with lcs := if arg = 1 then { s.lcs with cfgHash := some d } else { s.lcs with lgrHash := some d } }
  else if op = 5 then { s with lcs := { s.lcs with secret := some (d.take 32) } }
  else s

/-- A write of `LCS_REQ` with `GO` (R453, R454): the request runs and ends, and voids the nonce; `good` is 0 when the fuses
do not take the blow (code 7). -/
def doLcReq (s : State) (op arg8 : Nat) (good : Bool) : State :=
  let arg := arg8 % 256
  let c0 := s.lcCode op arg
  let c := if c0 = 1 ∧ op ≠ 2 ∧ op ≠ 3 ∧ good = false then 7 else c0
  let s0 := (s.setF Fld.LCS_REQ_OP op).setF Fld.LCS_REQ_ARG arg
  let s1 := if c = 1 then s0.lcPerform op arg else s0
  let s2 : State := { s1 with lcs := { s1.lcs with nonce := none } }
  (((s2.setF Fld.LCS_RESULT_CODE c).setF Fld.LCS_RESULT_DONE 1).raise Ev.LCS_LC_DONE).ok

/-! ### Test multiplexer and boundary scan (R458, R459) -/

/-- The internal signals the life-cycle state opens (R450). -/
def State.tmxAllows (s : State) (sig : Nat) : Bool :=
  if s.lcs.state = 2 then decide (sig < 64) else s.lcs.state != 3 && s.lcs.state != 5

/-- A write of `TMX_SEL[k]` (R458). -/
def doTmxSel (s : State) (k : Nat) (v : Word) : State :=
  if s.lcs.state = 3 ∨ s.lcs.state = 5 then s.ok
  else
    let x := v.toNat
    let s1 := (s.setF (Fld.TMX_SEL_EN k) (bitsOf x 31 31)).setF (Fld.TMX_SEL_SIG k) (bitsOf x 8 0)
    (s1.setF ⟨Adr.TMX_STAT, k, k⟩ (b2n !(s.tmxAllows (bitsOf x 8 0)))).ok

/-- The signal that pin OBSk shows: none when it is driven low (R458). -/
def State.obs (s : State) (k : Nat) : Option Nat :=
  if s.fb (Fld.TMX_SEL_EN k) && s.tmxAllows (s.f (Fld.TMX_SEL_SIG k)) then some (s.f (Fld.TMX_SEL_SIG k)) else none

/-- Load a TAP instruction. -/
def State.setIr (s : State) (i : TapIr) : State := { s with tap := { s.tap with ir := i } }

/-- `FWL_ARM`. -/
def execFwlArm (key : Nat) (s : State) : Out := live s (doFwlArm s key)

/-- `RULE_SELECT`. -/
def execRuleSelect (j : Nat) (s : State) : Out := live s (doRuleSelect s j)

/-- `RULE_COMMIT`. -/
def execRuleCommit (s : State) : Out := live s (doRuleCommit s)

/-- `LC_NONCE_DRAW`. -/
def execLcNonceDraw (s : State) : Out := live s (doLcNonce s)

/-- `LC_TRANSITION`: `OP` 1, `ARG` the target state. -/
def execLcTransition (arg : Nat) (good : Bool) (s : State) : Out := live s (doLcReq s 1 arg good)

/-- `LC_OPEN_DEBUG`: `OP` 2. -/
def execLcOpenDebug (arg : Nat) (s : State) : Out := live s (doLcReq s 2 arg true)

/-- `LC_CLOSE_DEBUG`: `OP` 3. -/
def execLcCloseDebug (arg : Nat) (s : State) : Out := live s (doLcReq s 3 arg true)

/-- `LC_PROGRAM_KEY`: `OP` 4, `ARG` the key slot. -/
def execLcProgramKey (arg : Nat) (good : Bool) (s : State) : Out := live s (doLcReq s 4 arg good)

/-- `LC_PROGRAM_SECRET`: `OP` 5. -/
def execLcProgramSecret (arg : Nat) (good : Bool) (s : State) : Out := live s (doLcReq s 5 arg good)

/-- `TMX_SELECT`. -/
def execTmxSelect (k : Nat) (v : Word) (s : State) : Out := liveIf (decide (k < 8)) s (doTmxSel s k v)

/-- `TAP_BYPASS`: one bit, captured as 0. -/
def execTapBypass (s : State) : Out :=
  live s { s with tap := { s.tap with ir := .bypass, out := 0 } }

/-- `TAP_IDCODE` (R459). -/
def execTapIdcode (s : State) : Out :=
  live s { s with tap := { s.tap with ir := .idcode, out := 0x1960058B } }

/-- `TAP_SAMPLE_PRELOAD`: `pins` are sampled, `chain` is loaded. -/
def execTapSamplePreload (pins chain : List Bool) (s : State) : Out :=
  live s { s with tap := { s.tap with ir := .samplePreload, sampled := pins, chain := chain } }

/-- `TAP_EXTEST`: the chain, loaded with `chain`, drives the balls; the pins are captured. -/
def execTapExtest (pins chain : List Bool) (s : State) : Out :=
  live s { s with tap := { s.tap with ir := .extest, sampled := pins, chain := chain } }

/-- `TAP_CLAMP`: the balls hold what the chain holds. -/
def execTapClamp (s : State) : Out := live s { s with tap := { s.tap with ir := .clamp, out := 0 } }

/-- `TAP_HIGHZ`: the balls float. -/
def execTapHighz (s : State) : Out := live s { s with tap := { s.tap with ir := .highz, out := 0 } }

end Sys2Proof.Machine
end

