-- ==== Sys2Proof/Machine/Numeric.lean ====
section
/-! DEFINITION. Binary32 arithmetic: exact dyadic values, IEEE 754 rounding to nearest even with gradual underflow, the
solver lanes' exceptions (R184), the 40-bit accumulator (R185, R505) and the functions of at most 1 ulp (R89). -/

namespace Sys2Proof.Machine

/-- The exact value `m · 2^e`. -/
structure Dy where
  m : Int
  e : Int
deriving DecidableEq, Repr

/-- `x · 2^k` for a natural exponent given as an integer (0 for a negative one). -/
def shl (x : Int) (k : Int) : Int := x * Int.ofNat (2 ^ k.toNat)

def Dy.add (a b : Dy) : Dy :=
  let e := min a.e b.e
  ⟨shl a.m (a.e - e) + shl b.m (b.e - e), e⟩

def Dy.neg (a : Dy) : Dy := ⟨-a.m, a.e⟩

def Dy.mul (a b : Dy) : Dy := ⟨a.m * b.m, a.e + b.e⟩

/-- The sign of `a − b`: −1, 0 or 1. -/
def Dy.cmp (a b : Dy) : Int := (Dy.add a b.neg).m.sign

/-- `a` rounded towards minus infinity. -/
def Dy.floor (a : Dy) : Int := if 0 ≤ a.e then shl a.m a.e else fdiv a.m (2 ^ (-a.e).toNat)

/-- `a` rounded to nearest, halves to even. -/
def Dy.rne (a : Dy) : Int := if 0 ≤ a.e then shl a.m a.e else rneDivI a.m (2 ^ (-a.e).toNat)

/-- An integer as an exact value. -/
def Dy.ofInt (i : Int) : Dy := ⟨i, 0⟩

/-- `a` rounded to a `p`-bit significand, nearest even, exponent unbounded. -/
def Dy.round (p : Nat) (a : Dy) : Dy :=
  let n := Nat.log2 a.m.natAbs + 1
  if n ≤ p then a else ⟨rneDivI a.m (2 ^ (n - p)), a.e + Int.ofNat (n - p)⟩

/-- The integer square root of `x`, by the bits of its result from bit `k − 1` down. -/
def isqrtGo (x : Nat) : Nat → Nat → Nat
  | 0, r => r
  | k + 1, r => if (r + 2 ^ k) * (r + 2 ^ k) ≤ x then isqrtGo x k (r + 2 ^ k) else isqrtGo x k r

/-- The integer square root. -/
def isqrt (x : Nat) : Nat := isqrtGo x (Nat.log2 x / 2 + 1) 0

/-! ### Codes -/

/-- The sign bit of a binary32 code. -/
def fNeg (c : Nat) : Bool := bitOf c 31

/-- The magnitude bits of a binary32 code. -/
def fMag (c : Nat) : Nat := c % 2 ^ 31

/-- Finite, infinite, not a number. -/
def fFin (c : Nat) : Bool := decide (fMag c < 0x7F800000)
def fInf (c : Nat) : Bool := fMag c == 0x7F800000
def fNan (c : Nat) : Bool := decide (0x7F800000 < fMag c)

/-- The value of a finite binary32 code. -/
def fDy (c : Nat) : Dy :=
  let ex := bitsOf c 30 23
  let m := if ex = 0 then bitsOf c 22 0 else bitsOf c 22 0 + 2 ^ 23
  ⟨if fNeg c then -(Int.ofNat m) else Int.ofNat m, if ex = 0 then -149 else Int.ofNat ex - 150⟩

/-- The magnitude code nearest (ties to even) to `m · 2^e`, with gradual underflow; 0x7F800000 or more where the result
exceeds the largest finite value. -/
def magCode (m : Nat) (e : Int) : Nat :=
  if m = 0 then 0
  else
    let E := max (e + Int.ofNat (Nat.log2 m) - 23) (-149)
    let M := if e ≤ E then rneDiv m (2 ^ (E - e).toNat) else m * 2 ^ (e - E).toNat
    (E + 149).toNat * 2 ^ 23 + M

/-- A sign and a magnitude code. -/
def withSign (n : Bool) (c : Nat) : Nat := if n then 2 ^ 31 + c else c

/-- The code of an exact value that is not zero, or of a zero of sign `z`. -/
def codeOf (z : Bool) (d : Dy) : Nat := if d.m = 0 then withSign z 0 else withSign (decide (d.m < 0)) (magCode d.m.natAbs d.e)

/-- IEEE 754 overflow: the infinity of the sign. -/
def ieee (c : Nat) : Nat := if 0x7F800000 < fMag c then withSign (fNeg c) 0x7F800000 else c

/-- The not-a-number an operation on `a` and `b` gives: its sign and payload are free. -/
def nanCode (a b : Nat) : Nat :=
  withSign (Config.nan a b % 2 == 1) (0x7F800001 + Config.nan a b / 2 % (2 ^ 23 - 1))

/-- The quotient of two exact values as an exact value with a sticky last bit, for rounding to 24 bits (divisor not 0). -/
def Dy.quot (a b : Dy) : Dy :=
  let n := a.m.natAbs * 2 ^ 96
  let q := Int.ofNat (n / b.m.natAbs * 2 + (if n % b.m.natAbs = 0 then 0 else 1))
  ⟨if (a.m < 0) ≠ (b.m < 0) then -q else q, a.e - b.e - 97⟩

/-- The square root of an exact value ≥ 0 with a sticky last bit. -/
def Dy.sqrt (a : Dy) : Dy :=
  let k := if a.e % 2 = 0 then 96 else 97
  let n := a.m.natAbs * 2 ^ k
  let r := isqrt n
  ⟨Int.ofNat (r * 2 + (if r * r = n then 0 else 1)), (a.e - Int.ofNat k) / 2 - 1⟩

/-! ### IEEE 754 operations of the fusion block, the assembler and command formation (R89) -/

/-- Sum of two codes. -/
def fAdd (a b : Nat) : Nat :=
  if fNan a || (fNan b || (fInf a && (fInf b && fNeg a != fNeg b))) then nanCode a b
  else if fInf a then a else if fInf b then b
  else ieee (codeOf (fMag a == 0 && (fMag b == 0 && (fNeg a && fNeg b))) (Dy.add (fDy a) (fDy b)))

/-- Negation. -/
def fNegate (a : Nat) : Nat := withSign (!fNeg a) (fMag a)

/-- Absolute value. -/
def fAbs (a : Nat) : Nat := fMag a

/-- Difference. -/
def fSub (a b : Nat) : Nat := if fNan b then nanCode a b else fAdd a (fNegate b)

/-- Product. -/
def fMul (a b : Nat) : Nat :=
  if fNan a || (fNan b || ((fInf a && fMag b == 0) || (fInf b && fMag a == 0))) then nanCode a b
  else if fInf a || fInf b then withSign (fNeg a != fNeg b) 0x7F800000
  else ieee (codeOf (fNeg a != fNeg b) (Dy.mul (fDy a) (fDy b)))

/-- Quotient. -/
def fDiv (a b : Nat) : Nat :=
  if fNan a || (fNan b || ((fInf a && fInf b) || (fMag a == 0 && fMag b == 0))) then nanCode a b
  else if fInf a || fMag b == 0 then withSign (fNeg a != fNeg b) 0x7F800000
  else if fInf b then withSign (fNeg a != fNeg b) 0
  else ieee (codeOf (fNeg a != fNeg b) (Dy.quot (fDy a) (fDy b)))

/-- An integer as binary32. -/
def fOfInt (i : Int) : Nat := ieee (codeOf false (Dy.ofInt i))

/-- The binary32 nearest to `n / d`. -/
def fRatio (n : Int) (d : Nat) : Nat := ieee (codeOf false (Dy.quot (Dy.ofInt n) (Dy.ofInt (Int.ofNat d))))

/-- `a < b`, false where either is not a number. -/
def fLt (a b : Nat) : Bool :=
  !fNan a && (!fNan b &&
    (if fNeg a then (if fNeg b then decide (fMag b < fMag a) else fMag a != 0 || fMag b != 0)
     else !fNeg b && decide (fMag a < fMag b)))

/-- `a ≤ b`, false where either is not a number. -/
def fLe (a b : Nat) : Bool := !fNan a && (!fNan b && !fLt b a)

/-- The larger and the smaller of two codes. -/
def fMax (a b : Nat) : Nat := if fLt a b then b else a
def fMin (a b : Nat) : Nat := if fLt b a then b else a

/-- A code scaled by a power of two. -/
def fScale (a : Nat) (k : Int) : Nat := if fFin a then ieee (codeOf (fNeg a) ⟨(fDy a).m, (fDy a).e + k⟩) else a

/-- Floor of a finite code as an integer. -/
def fFloor (a : Nat) : Int := (fDy a).floor

/-- A finite code rounded half to even as an integer. -/
def fRne (a : Nat) : Int := (fDy a).rne

/-- The constant 1. -/
def fOne : Nat := 0x3F800000

/-! ### Functions within 1 ulp (R89)

The true value is taken in fixed point with 400 fractional bits; the result is one of the codes within 1 ulp of it, and which
one is free (a constant function of the operands, so that every device gives the same). -/

/-- Fractional bits of the fixed-point values. -/
def fxBits : Nat := 400

/-- π with 640 fractional bits. -/
def piFix : Nat :=
  14333329926761567455775730701799299831126131522901418329710873694248203755857903894978459978948837038337184470360789102305252273090192709030764248428292776480232102476327552185579501988876367276

/-- An exact value in fixed point, rounded down. -/
def Dy.fix (a : Dy) : Int := (Dy.mk a.m (a.e + 400)).floor

/-- Product of two fixed-point values. -/
def fxMul (a b : Int) : Int := fdiv (a * b) (2 ^ 400)

/-- The alternating series whose n-th term follows from the one before by x²/(k(k+1)). -/
def sinSeries (x2 : Int) : Nat → Int → Nat → Int
  | 0, _, _ => 0
  | f + 1, t, k => t + sinSeries x2 f (-(fdiv (fxMul t x2) (Int.ofNat (k * (k + 1))))) (k + 2)

/-- Sine in fixed point of an exact angle (reduced by 2π). -/
def fxSin (x : Dy) : Int :=
  let wide := (Dy.mk x.m (x.e + 640)).floor
  let r := wide - 2 * Int.ofNat piFix * rneDivI wide (2 * piFix)
  let y := fdiv r (2 ^ 240)
  sinSeries (fxMul y y) 100 y 2

/-- Cosine in fixed point. -/
def fxCos (x : Dy) : Int :=
  let wide := (Dy.mk x.m (x.e + 640)).floor
  let r := wide - 2 * Int.ofNat piFix * rneDivI wide (2 * piFix)
  let y := fdiv r (2 ^ 240)
  sinSeries (fxMul y y) 100 (2 ^ 400) 1

/-- Taylor series of the arctangent: terms (−1)ⁿ x^(2n+1) / (2n+1). -/
def atanSeries (x2 : Int) : Nat → Int → Nat → Int
  | 0, _, _ => 0
  | f + 1, p, k => fdiv p (Int.ofNat k) + atanSeries x2 f (-(fxMul p x2)) (k + 2)

/-- Arctangent in fixed point of t, 0 ≤ t ≤ 1, by `n` halvings of the angle. -/
def fxAtan : Nat → Int → Int
  | 0, t => atanSeries (fxMul t t) 150 t 1
  | n + 1, t =>
    let h := Int.ofNat (isqrt ((2 ^ 800) + (t * t).toNat))
    2 * fxAtan n (fdiv (t * 2 ^ 400) (2 ^ 400 + h))

/-- The codes within 1 ulp of a fixed-point value, and the free choice among them; `k` names the function. -/
def pickUlp (k a b : Nat) (x : Int) : Nat :=
  let c := magCode x.natAbs (-400)
  let u : Int := Int.ofNat (2 ^ (max (Nat.log2 x.natAbs) 274 - 23))
  let cs := [c - 1, c, c + 1].filter fun d => decide (((fDy d).fix - Int.ofNat x.natAbs).natAbs ≤ u.natAbs)
  withSign (decide (x < 0)) (cs.getD (Config.ulp k a b % cs.length) c)

/-- Sine, cosine (of a finite code). -/
def fSin (a : Nat) : Nat := if fFin a then pickUlp 0 a 0 (fxSin (fDy a)) else nanCode a 0
def fCos (a : Nat) : Nat := if fFin a then pickUlp 1 a 0 (fxCos (fDy a)) else nanCode a 0

/-- Square root. -/
def fSqrt (a : Nat) : Nat :=
  if fNan a || (fNeg a && fMag a != 0) then nanCode a 0
  else if fInf a || fMag a == 0 then a
  else pickUlp 2 a 0 (Dy.fix (Dy.sqrt (fDy a)))

/-- The angle of (x, y), −π to π. -/
def fAtan2 (y x : Nat) : Nat :=
  if !fFin y || !fFin x then nanCode y x
  else
    let X := (fDy x).m.natAbs
    let q (n d : Dy) : Int := (Dy.mk (fdiv (n.m.natAbs * 2 ^ 600) d.m.natAbs) (n.e - d.e - 600)).fix
    let pi := Int.ofNat (piFix / 2 ^ 240)
    let lo := fLe (fAbs y) (fAbs x)
    let t := if fMag x = 0 ∧ fMag y = 0 then 0
      else if lo then fxAtan 4 (q (fDy y) (fDy x)) else fdiv pi 2 - fxAtan 4 (q (fDy x) (fDy y))
    let r := if fNeg x then pi - t else t
    if X = 0 ∧ (fDy y).m = 0 ∧ !fNeg x then withSign (fNeg y) 0
    else pickUlp 3 y x (if fNeg y then -r else r)

/-! ### Lane arithmetic (R184, R185) -/

/-- A lane value: its code, and whether an exceptional event entered it (`NONFINITE`). -/
structure Fl where
  c : Nat
  bad : Bool := false
deriving DecidableEq, Repr

/-- A lane result: a magnitude above the largest finite value is replaced by it (R184). -/
def laneCode (bad : Bool) (c : Nat) : Fl :=
  if fMag c < 0x7F800000 then ⟨c, bad⟩ else ⟨withSign (fNeg c) 0x7F7FFFFF, true⟩

def Fl.add (a b : Fl) : Fl :=
  laneCode (a.bad || b.bad)
    (codeOf (fMag a.c == 0 && (fMag b.c == 0 && (fNeg a.c && fNeg b.c))) (Dy.add (fDy a.c) (fDy b.c)))

def Fl.neg (a : Fl) : Fl := ⟨fNegate a.c, a.bad⟩

def Fl.abs (a : Fl) : Fl := ⟨fMag a.c, a.bad⟩

def Fl.sub (a b : Fl) : Fl := a.add b.neg

def Fl.mul (a b : Fl) : Fl := laneCode (a.bad || b.bad) (codeOf (fNeg a.c != fNeg b.c) (Dy.mul (fDy a.c) (fDy b.c)))

/-- Quotient; a division by zero cannot occur (R184) and gives the largest finite value. -/
def Fl.div (a b : Fl) : Fl :=
  if fMag b.c = 0 then ⟨withSign (fNeg a.c != fNeg b.c) 0x7F7FFFFF, true⟩
  else laneCode (a.bad || b.bad) (codeOf (fNeg a.c != fNeg b.c) (Dy.quot (fDy a.c) (fDy b.c)))

/-- Square root; of a negative number it gives +0 (R184). -/
def Fl.sqrt (a : Fl) : Fl :=
  if fMag a.c = 0 then a
  else if fNeg a.c then ⟨0, true⟩
  else laneCode a.bad (codeOf false (Dy.sqrt (fDy a.c)))

def Fl.lt (a b : Fl) : Bool := fLt a.c b.c
def Fl.le (a b : Fl) : Bool := !fLt b.c a.c

/-- The larger, the smaller, and a value limited to lo … hi; an event in any operand stays noted. -/
def Fl.max (a b : Fl) : Fl := ⟨fMax a.c b.c, a.bad || b.bad⟩
def Fl.min (a b : Fl) : Fl := ⟨fMin a.c b.c, a.bad || b.bad⟩

/-- A constant. -/
def Fl.of (c : Nat) : Fl := ⟨c, false⟩

/-- The accumulator of R185: an exact running sum rounded to 40 bits after each addition. -/
structure Acc40 where
  v : Dy := ⟨0, 0⟩
  bad : Bool := false
deriving DecidableEq, Repr

/-- Add an exact value to the accumulator. -/
def Acc40.addDy (a : Acc40) (d : Dy) (bad : Bool) : Acc40 := ⟨(Dy.add a.v d).round 40, a.bad || bad⟩

/-- Add an exact product. -/
def Acc40.mac (a : Acc40) (x y : Fl) : Acc40 := a.addDy (Dy.mul (fDy x.c) (fDy y.c)) (x.bad || y.bad)

/-- Add a value. -/
def Acc40.add (a : Acc40) (x : Fl) : Acc40 := a.addDy (fDy x.c) x.bad

/-- The final rounding to binary32. -/
def Acc40.out (a : Acc40) : Fl := laneCode a.bad (codeOf false a.v)

/-- A dot product in ascending index order. -/
def dot : List Fl → List Fl → Acc40 → Acc40
  | x :: xs, y :: ys, a => dot xs ys (a.mac x y)
  | _, _, a => a

end Sys2Proof.Machine
end

