-- ==== Sys2Proof/Machine/Memory.lean ====
section
/-! DEFINITION. Deeds, ECC, scrubbing, clearing and march tests of the on-chip memories, and the DRAM controller
(R416–R430). -/

namespace Sys2Proof.Machine

/-- The deed holder of bank `b` (R417). -/
def State.holder (s : State) (b : Nat) : Nat := s.f (Fld.MEM_DEED_HOLDER b)

/-- `MAR_STAT` at the end of a test: `BUSY` while another runs, `DONE`, `ERR`; `MARCH_DONE` is raised (R426, R439). -/
def State.marchEnd (s : State) (m : March) (err : Nat) : State :=
  let s1 : State := { s with mm := { s.mm with march := s.mm.march.erase m } }
  (((s1.setF Fld.MAR_STAT_BUSY (b2n !s1.mm.march.isEmpty)).setF Fld.MAR_STAT_ERR err).setF Fld.MAR_STAT_DONE 1).raise
    Ev.MAR_MARCH_DONE

/-- Pass the deed of bank `b` to `to` (R417, R418): the holder changes, `PASSES` counts, and a destructive march on the bank
is aborted with undefined contents (R426). A pass away from the assembler ends its holding (R149). -/
def State.passDeed (s : State) (b h : Nat) : State :=
  let s0 : State := if h = 24 then s else { s with asm := { s.asm with passed := s.asm.passed.filter (· ≠ b) } }
  let s1 := (s0.setF (Fld.MEM_DEED_HOLDER b) h).wrap (Fld.MEM_DEED_PASSES b) 1
  if s1.mm.march.contains ⟨0, b, false⟩ then (s1.marchEnd ⟨0, b, false⟩ 3).scramble (bankAddr b 0) 0x4_0000 else s1

/-- Whether a deed pass by master `m` takes effect (R417). -/
def State.passAllowed (s : State) (m b h : Nat) : Bool :=
  (m == s.holder b || m == 4) && (decide (h < 28) && !(h == 27 && s.mm.march.contains ⟨0, b, false⟩))

/-- Whether no block of the device may write the bank of address `a` now: a tracked bank from the B36 edge to the B39 edge
(R321, R424, R427). -/
def State.windowClosed (s : State) (a : Nat) : Bool :=
  inSram a && (s.running && (decide (36 ≤ s.beat) && (decide (s.beat < 39) && s.tracked.contains (bankOf a))))

/-- The error mark of the half at byte address `a`: 0 none, 1 correctable, 2 uncorrectable. -/
def State.eccAt (s : State) (a : Nat) : Nat := spGet (fun _ => 0) s.mm.ecc (a / 8 * 8)

/-- The outside world puts a bit error into a half. -/
def State.upset (s : State) (u : Upset) : State :=
  let h := u.addr / 8 * 8
  let v := if u.ue then 2 else max 1 (s.eccAt h)
  { s with mm := { s.mm with ecc := spSet (fun _ => 0) s.mm.ecc h v } }

/-- A corrected error is counted and raised, at most once per beat (R423, R439). -/
def State.countCe (s : State) (a : Nat) : State :=
  if inDram a then
    let s1 := s.stick Fld.DRC_ECC_CE Fld.DRC_ECC_CE_SAT 1
    if s1.running && s1.mm.ceDrc then s1
    else ({ s1 with mm := { s1.mm with ceDrc := true } } : State).raise Ev.DRC_ECC_CE
  else if inSram a then
    let s1 := s.stick (Fld.MEM_ECC_CE (bankOf a)) (Fld.MEM_ECC_CE_SAT (bankOf a)) 1
    if s1.running && s1.mm.ceMem then s1
    else ({ s1 with mm := { s1.mm with ceMem := true } } : State).raise Ev.MEM_ECC_CE
  else s

/-- An uncorrectable error found by reader `m` (31: the scrubber) is counted, recorded and raised; on the frame path it marks
the frame (R423, R424, R429). -/
def State.countUe (s : State) (a m : Nat) : State :=
  let s0 := if m = 5 ∨ m = 6 ∨ m = 23 ∨ m = 24 ∨ m = 25 then { s with frm := { s.frm with eccUe := true } } else s
  if inDram a then
    let s1 := s0.stick Fld.DRC_ECC_UE Fld.DRC_ECC_UE_SAT 1
    let h := a / 8 * 8
    (((s1.setF Fld.DRC_UE_ADDR_LO_ADDR h).setF Fld.DRC_UE_ADDR_HI_ADDR (h / 2 ^ 32)).setF Fld.DRC_UE_ADDR_HI_VALID 1).raise
      Ev.DRC_ECC_UE
  else if inSram a then
    let b := bankOf a
    let s1 := s0.stick (Fld.MEM_ECC_UE b) (Fld.MEM_ECC_UE_SAT b) 1
    let w := (viewed a - sramBase) % 0x4_0000 / 8
    ((((s1.setF Fld.MEM_UE_LAST_VALID 1).setF Fld.MEM_UE_LAST_BANK b).setF Fld.MEM_UE_LAST_WORD w).setF
      Fld.MEM_UE_LAST_MASTER m).raise Ev.MEM_ECC_UE
  else s0

/-- The scrubber or the DRAM patrol reads the half at `a` (R424, R430). -/
def State.scrub (s : State) (a : Nat) : State :=
  if s.eccAt a = 1 then s.countCe a else if s.eccAt a = 2 then s.countUe a 31 else s

/-- A corrected half is written back (R423): its block's dirty bit is set (R424). -/
def State.writeBack (s : State) (a : Nat) : State :=
  if s.eccAt a = 1 ∧ s.windowClosed a = false then
    ({ s with mm := { s.mm with ecc := spErase s.mm.ecc (a / 8 * 8) } } : State).touch (a / 8 * 8) 8
  else s

/-- Bank `b` has failed its march test (R426). -/
def State.bankFailed (s : State) (b : Nat) : Bool :=
  if b < 32 then bitOf (s.f Fld.MEM_FAIL_LO_FAILED) b else bitOf (s.f Fld.MEM_FAIL_HI_FAILED) (b - 32)

/-- Mark or clear the failure of a march target (R426). -/
def State.markFailed (s : State) (target i : Nat) (bad : Bool) : State :=
  if target = 1 then s.setF ⟨Adr.MAR_LANE_FAIL (i / 32), i % 32, i % 32⟩ (b2n bad)
  else if target = 2 then { s with mm := { s.mm with gfeFailed := bad } }
  else if i < 32 then s.setF ⟨Adr.MEM_FAIL_LO, i, i⟩ (b2n bad) else s.setF ⟨Adr.MEM_FAIL_HI, i - 32, i - 32⟩ (b2n bad)

/-- The memory of a march target: first address and size. -/
def marchRange (target i : Nat) : Nat × Nat :=
  if target = 1 then (laneAddr i 0, 0x4_0000) else if target = 2 then (0x3000_0000, 0x40_0000) else (bankAddr i 0, 0x4_0000)

/-- `LAN_STATUS.PHASE` of lane `n` (R219): 0 idle, 1 load, 2–5 at work, 6 store. -/
def State.lanePhase (s : State) (n : Nat) : Nat :=
  let x := s.lsc.lane.getD n {}
  if x.phase = 6 ∧ x.waiting.isNone then 0 else x.phase

/-- A lane is idle (R426). -/
def State.laneIdle (s : State) (n : Nat) : Bool := s.lanePhase n == 0

/-- Why a `GO` is refused (R426, R439); 0 when it is not. -/
def State.marchErr (s : State) (preserve : Bool) (target i : Nat) : Nat :=
  if (target = 0 ∧ 64 ≤ i) ∨ (target = 1 ∧ 96 ≤ i) then 4
  else if s.mm.march ≠ [] ∨ (target = 1 ∧ s.laneIdle i = false) then 2
  else if target = 0 ∧ preserve = false ∧ s.holder i ≠ 27 then 1
  else 0

/-- A write of `MAR_CTRL` with `GO` (R426, R427). -/
def doMarch (s : State) (v : Word) : State :=
  let x := v.toNat
  let t := if bitsOf x 29 28 = 3 then 0 else bitsOf x 29 28
  let i := if t = 2 then 0 else bitsOf x 6 0
  let pre := bitOf x 30 && t == 0
  let s0 := ((s.setF Fld.MAR_CTRL_PRESERVE (bitsOf x 30 30)).setF Fld.MAR_CTRL_TARGET (bitsOf x 29 28)).setF
    Fld.MAR_CTRL_INDEX (bitsOf x 6 0)
  let e := s.marchErr pre t i
  if e ≠ 0 then (s0.setF Fld.MAR_STAT_ERR e).ok
  else
    let s1 : State := { s0 with mm := { s0.mm with march := s0.mm.march ++ [⟨t, i, pre⟩] } }
    ((s1.setF Fld.MAR_STAT_BUSY 1).setF Fld.MAR_STAT_ERR 0).ok

/-- A march test ends: pass, or the first miscompare at byte offset `bad` (R426, R427). In step 1 of start-up the engine
passes a tested bank's deed back to identity 0 (R428). -/
def State.marchDone (s : State) (target i : Nat) (bad : Option Nat) : State :=
  match s.mm.march.find? fun m => m.target == target && m.index == i with
  | none => s
  | some m =>
    let (a, n) := marchRange target i
    let s0 := s.wrap Fld.MAR_RUNS_COUNT 1
    let s1 := match bad with
      | none =>
        let t := s0.markFailed target i false
        if m.preserve then t.touch a n else (t.clearMem a (a + n)).touch a n
      | some o =>
        let t := ((s0.setF Fld.MAR_STAT_FAIL 1).setF Fld.MAR_STAT_ROW (o / 1024)).setF Fld.MAR_FAIL_ADDR_OFS o
        let t := if m.preserve then t.touch a (o / 1024 * 1024 + 1024) else (t.markFailed target i true).scramble a n
        t.raise Ev.MAR_MARCH_FAIL
    let s2 := s1.marchEnd m 0
    if target = 0 ∧ m.preserve = false ∧ s.f Fld.SYS_START_STEP = 1 then s2.passDeed i 0 else s2

/-- `ARBITRATION_PROMOTE` (R421). -/
def execArbitrationPromote (s : State) : Out := live s (s.stick Fld.MEM_PROMOTE_COUNT Fld.MEM_PROMOTE_SAT 1)

/-- `ECC_WRITEBACK`. -/
def execEccWriteback (a : Nat) (s : State) : Out := live s (s.writeBack a)

/-- `SCRUB_STEP`: the scrubber reads the shared-SRAM half at `a`, into which the outside world may have put errors (R424). -/
def execScrubStep (a : Nat) (upsets : List Upset) (s : State) : Out :=
  liveIf (s.fb Fld.MEM_CFG_SCRUB_EN && inSram a) s ((upsets.foldl State.upset s).scrub a)

/-- `MARCH_GO`. -/
def execMarchGo (v : Word) (s : State) : Out := live s (doMarch s v)

/-- `MARCH_PRESERVE_GO`: a `GO` with `PRESERVE` at 1. -/
def execMarchPreserveGo (v : Word) (s : State) : Out := live s (doMarch s (v ||| 0x4000_0000))

/-- `DRAM_PATROL` (R430). -/
def execDramPatrol (a : Nat) (upsets : List Upset) (s : State) : Out :=
  liveIf (s.fb Fld.DRC_SCRUB_EN && inDram a) s ((upsets.foldl State.upset s).scrub a)

/-- `TEMP_HIGH` (R430): the devices report refresh-rate code `code`, above their normal range or not. -/
def execTempHigh (code : Nat) (above : Bool) (s : State) : Out :=
  let t := s.setF Fld.DRC_STAT_TEMP code
  live s (if above then t.raise Ev.DRC_TEMP_HIGH else t)

end Sys2Proof.Machine
end

