-- ==== Sys2Proof/Machine/Port.lean ====
section
/-! DEFINITION. Fabric requests to the memories (R15–R19, R186, R422, R423, R443): decode, access tables, deed check, block
reset, availability, ECC, and the access itself. Requests to peripheral pages are in Machine/Fabric.lean. -/

namespace Sys2Proof.Machine

/-- The regions of the address map (R17). -/
inductive Region where
  | none | rom | shp | sram | lane | gfe | page | dram
deriving DecidableEq, Repr

/-- The region of an address (R17, R18): reserved pages are outside every decoded range (R495). -/
def regionOf (a : Nat) : Region :=
  if a < 0x4_0000 then .rom
  else if 0x0100_0000 ≤ a ∧ a < 0x0108_0000 then .shp
  else if inSram a then .sram
  else if 0x2000_0000 ≤ a ∧ a < 0x2180_0000 then .lane
  else if 0x3000_0000 ≤ a ∧ a < 0x3040_0000 then .gfe
  else if 0x4000_0000 ≤ a ∧ a < 0x4009_9000 then .page
  else if inDram a then .dram
  else .none

/-- The code of a response (R19). -/
def rspCode : Rsp → Nat
  | .okay => 0
  | .decErr => 1
  | .denied => 2
  | .tgtErr => 3
  | .retired => 4

/-- Whether the block of page `p` is under reset (R29). -/
def State.inReset (s : State) (p : Nat) : Bool := s.fab.inReset.any fun r => r.page == blockPage p

/-- A retired request is counted into its reset's record (R19, R29). -/
def State.countRetired (s : State) (p n : Nat) : State :=
  let l := s.fab.inReset.map fun r => if r.page = blockPage p then { r with retired := r.retired + n } else r
  { s with fab := { s.fab with inReset := l } }

/-- The page whose block owns the port of a memory address: lanes and the feature engine. -/
def portPage (a : Nat) : Option Nat :=
  match regionOf a with
  | .lane => some (47 + (a - 0x2000_0000) / 0x4_0000)
  | .gfe => some 41
  | _ => none

/-- The banks a range of shared SRAM touches. -/
def banksOf (a n : Nat) : List Nat := (List.range (bankOf (a + n - 1) + 1 - bankOf a)).map (bankOf a + ·)

/-- The deed check of R15: every bank a write touches is held by the writer. -/
def State.deedOk (s : State) (m : Nat) (k : Acc) (a n : Nat) : Bool :=
  k != .write || (regionOf a != .sram || (banksOf a n).all fun b => s.holder b == m)

/-- Memory that cannot answer: not yet cleared (R425), failed (R426), DRAM not trained (R430), lanes or feature engine without
power (R464). -/
def State.available (s : State) (a n : Nat) : Bool :=
  match regionOf a with
  | .sram => s.mm.cleared && (banksOf a n).all fun b => !s.bankFailed b
  | .lane =>
    let l := (a - 0x2000_0000) / 0x4_0000
    s.mm.cleared && (s.fb Fld.PWR_STAT_LANES_ON && !(bitOf (s.f (Fld.MAR_LANE_FAIL_FAILED (l / 32))) (l % 32)))
  | .gfe => s.mm.cleared && (s.fb Fld.PWR_STAT_LANES_ON && !s.mm.gfeFailed)
  | .dram => s.fb Fld.DRC_STAT_TRAINED
  | _ => true

/-- The 64-bit halves a range touches, by address of the memory viewed. -/
def halvesOf (a n : Nat) : List Nat := (List.range ((viewed a + n + 7) / 8 - viewed a / 8)).map fun i => (viewed a / 8 + i) * 8

/-- The halves that an access reads: all of a read; of a write those it covers in part or, through an alias, all (R422, R423). -/
def halvesRead (k : Acc) (a n : Nat) : List Nat :=
  if k ≠ .write ∨ aliasOf a ≠ none then halvesOf a n
  else (halvesOf a n).filter fun h => !(decide (viewed a ≤ h) && decide (h + 8 ≤ viewed a + n))

/-- The byte written at the place of `old`: plain, bit-set or bit-clear (R422). -/
def mergeByte (al : Option Bool) (old new : Byte) : Byte :=
  match al with
  | none => new
  | some false => old ||| new
  | some true => old &&& ~~~new

/-- The bytes a write leaves, with its enables (none given: every byte) and its alias window (R422). -/
def mergeBytes (al : Option Bool) : List Bool → List Byte → List Byte → List Byte
  | e :: es, o :: os, d :: ds => (if e then mergeByte al o d else o) :: mergeBytes al es os ds
  | [], o :: os, d :: ds => mergeByte al o d :: mergeBytes al [] os ds
  | _, _, _ => []

/-- The bytes a read returns. -/
def State.readBytes (s : State) (a n : Nat) : List Byte :=
  if regionOf a = .rom then (List.range n).map fun i => Config.bootRom (a + i) else s.rdN (viewed a) n

/-- What the fabric answers to a request: the state, the response and the data read. -/
structure Reply where
  st : State
  rsp : Rsp
  data : List Byte := []

/-- An error response: recorded in the ledger (R19, R375). -/
def State.refuse (s : State) (m : Nat) (k : Acc) (a : Nat) (r : Rsp) : Reply :=
  { st := s.offerFabric m (rspCode r) (k == .write) a, rsp := r }

/-- The checks that precede a request's queueing, in order: decode (R18), access tables (R443, R449), boot-ROM and lane-memory
writes (R18, R186), deed (R15, R417). `none` lets the request through. -/
def State.gate (s : State) (m : Nat) (k : Acc) (a n : Nat) : Option Reply :=
  if n = 0 ∨ regionOf a = .none ∨ regionOf (a + n - 1) ≠ regionOf a ∨ 2 ^ 40 < a + n
      ∨ (regionOf a = .shp ∧ m ≠ 4) then some (s.refuse m k a .decErr)
  else
    match s.uncovered m k a n with
    | some (t, o) => some ((s.violation m k t o).refuse m k a .denied)
    | none =>
      if k = .write ∧ regionOf a = .rom then some (s.refuse m k a .tgtErr)
      else if k = .write ∧ regionOf a = .lane ∧ m ≠ 5 ∧ m ≠ 27 then some (s.refuse m k a .denied)
      else if !s.deedOk m k a n then some ((s.raise Ev.MEM_DEED_DENIED).refuse m k a .denied)
      else none

/-- A request of master `m` to a memory: kind, address, size, and of a write its bytes and enables. -/
def State.memReq (s : State) (m : Nat) (k : Acc) (a n : Nat) (d : List Byte) (en : List Bool) : Reply :=
  match s.gate m k a n with
  | some r => r
  | none =>
    match (portPage a).filter fun p => s.inReset p with
    | some p => { st := s.countRetired p 1, rsp := .retired }
    | none =>
      if !s.available a n then s.refuse m k a .tgtErr
      else
        let hs := halvesRead k a n
        match hs.find? fun h => s.eccAt h == 2 with
        | some h => (if k = .write then s else s.countUe h m).refuse m k a .tgtErr
        | none =>
          let s1 := (hs.filter fun h => s.eccAt h == 1).foldl (fun t h => t.countCe h) s
          if k = .write then
            { st := s1.store (viewed a) (mergeBytes (aliasOf a) en (s.readBytes a n) (padTo n d)), rsp := .okay }
          else { st := s1, rsp := .okay, data := s.readBytes a n }

/-- A read of a block master, as bytes. -/
def State.mRead (s : State) (m a n : Nat) : Reply := s.memReq m .read a n [] []

/-- A write of a block master. -/
def State.mWrite (s : State) (m a : Nat) (d : List Byte) : Reply := s.memReq m .write a d.length d []

/-- A pass of a deed by a frame-path block as holder (R14, R418): it takes effect when the block holds the deed. -/
def State.framePass (s : State) (m b h : Nat) : State := if s.passAllowed m b h then s.passDeed b h else s

/-- An application-core read of a live source during B0–B33 (R53, R63). -/
def State.noteLive (s : State) (m : Nat) : State :=
  if m < 4 ∧ s.running = true ∧ s.beat < 34 then { s with frm := { s.frm with liveRead := true } } else s

/-- A port of type `ty` (1 UART, 2 CAN controller) names instance `i` as its source (R63). -/
def State.liveSrc (s : State) (ty i : Nat) : Bool :=
  (List.range 32).any fun p => s.f (Fld.FUS_PORT_CFG_TYPE p) == ty && s.f (Fld.FUS_PORT_CFG_SRC_IDX p) == i

/-- A read of a receive-data register of instance `i` (R63). -/
def State.noteSrc (s : State) (m ty i : Nat) : State := if s.liveSrc ty i then s.noteLive m else s

/-- The block on page `p` is clocked: the always-on island always (R467), the main island while it is neither held in reset
(R468) nor in `DOZE` (R461). -/
def State.clocked (s : State) (p : Nat) : Bool :=
  p == 1 || (p == 2 || (p == 4 || (p == 5 || (p == 6 || (p == 152 || (!s.pwr.mainHeld && s.f Fld.PWR_STAT_STATE != 3))))))

/-- The block on page `p` takes new work: clocked, enabled and not under reset (R29, R497). -/
def State.works (s : State) (p : Nat) : Bool := s.clocked p && (s.enabled p && !s.inReset p)

/-- The block on page `p` may issue a new master request (R32). -/
def State.mayMaster (s : State) (p : Nat) : Bool := s.works p && !s.quiesced p

end Sys2Proof.Machine
end

