-- ==== Sys2Proof/Machine/Intake.lean ====
section
/-! DEFINITION. Intake of the position references: port configuration, deposits, scan copies, sensor clocks and the latch at a
B0 edge (R41–R43, R62–R81, R503, R504). -/

namespace Sys2Proof.Machine

/-- Port `p` of the fusion block. -/
def State.fusOf (s : State) (p : Nat) : FusPort := s.fus.port.getD p {}

/-- Replace port `p`. -/
def State.setFus (s : State) (p : Nat) (x : FusPort) : State :=
  { s with fus := { s.fus with port := setNth s.fus.port p x } }

/-- Replace port `p` and show its queue's depth (R110). -/
def State.setFusQ (s : State) (p : Nat) (x : FusPort) : State :=
  (s.setFus p x).setF (Fld.FUS_PORT_QUEUE_DEPTH p) x.queue.length

/-- `TYPE` of port `p` (R62). -/
def State.ptype (s : State) (p : Nat) : Nat := s.f (Fld.FUS_PORT_CFG_TYPE p)

/-- The group of port `p` (R90). -/
def State.groupOf (s : State) (p : Nat) : Option Nat :=
  if s.fb (Fld.FUS_PORT_CFG_GROUP_EN p) then some (s.f (Fld.FUS_PORT_CFG_GROUP p)) else none

/-- Group `g` is enabled (R90, R110). -/
def State.groupOn (s : State) (g : Nat) : Bool :=
  s.fb (Fld.FUS_GROUP_EN g) && [1, 2, 3, 4, 5, 6, 9].contains (s.f (Fld.FUS_GROUP_KIND g))

/-- `COUNT` of a kind (R67). -/
def kindCount (k : Nat) : Nat := ([0, 4, 1, 3, 3, 2, 2, 4, 0, 1] : List Nat).getD k 0

/-- Number of voted components of a kind: they are the first ones (R67). -/
def kindVoted (k : Nat) : Nat := ([0, 2, 1, 3, 3, 2, 2, 2, 0, 1] : List Nat).getD k 0

/-- The component of a kind that is an angle from 0 to below 2π (R67). -/
def kindAngle (k : Nat) : Option Nat := if k = 2 then some 0 else if k = 6 then some 1 else none

/-- 2π and π in binary32. -/
def twoPi : Nat := 0x40C90FDB
def piF : Nat := 0x40490FDB

/-- `V_i` and `S_i` of a record, and its `TOV`, `SEQ`, `KIND` (R66). -/
def recV (b : List Byte) (i : Nat) : Nat := leAt b (24 + 4 * i) 4
def recS (b : List Byte) (i : Nat) : Nat := leAt b (44 + 4 * i) 4
def recTov (b : List Byte) : Nat := leAt b 0 8
def recSeq (b : List Byte) : Nat := leAt b 20 4
def recKind (b : List Byte) : Nat := leAt b 12 1

/-- `BAD` counted with its code (R68). -/
def State.fusBad (s : State) (p code : Nat) : State :=
  ((s.stick (Fld.FUS_PORT_CNT_B_BAD p) (Fld.FUS_PORT_STAT_BAD_SAT p) 1).setF (Fld.FUS_PORT_STAT_LAST_BAD p) code).raise Ev.FUS_BAD

/-- `n` samples dropped (R65, R71). -/
def State.fusDrop (s : State) (p n : Nat) : State := s.stick (Fld.FUS_PORT_CNT_A_DROP p) (Fld.FUS_PORT_STAT_DROP_SAT p) n

/-- Sensor time to disciplined time with the committed clock model (R74). -/
def State.convTov (s : State) (p ts : Nat) : Nat :=
  if s.fb (Fld.FUS_PORT_CFG_CLK_MODEL p) then
    let ofs := sgn 64 (s.pair (Adr.FUS_CLK_OFS_LO p) (Adr.FUS_CLK_OFS_HI p))
    let dt := sgn 64 (uns 64 (Int.ofNat ts - Int.ofNat (s.pair (Adr.FUS_CLK_EPOCH_LO p) (Adr.FUS_CLK_EPOCH_HI p))))
    uns 64 (Int.ofNat ts + ofs + fdiv (s.fi (Fld.FUS_CLK_RATE_VALUE p) * dt) (2 ^ 32))
  else ts

/-- Checks 1–3 of R68; 0 where all pass. -/
def State.fusCheck (s : State) (p : Nat) (b : List Byte) : Nat :=
  let k := recKind b
  let ty := s.ptype p
  let scan := decide (k = 8)
  let n := leAt b 14 2
  if k = 0 ∨ k = 7 ∨ 9 < k ∨ scan ≠ decide (ty = 6) ∨ ty = 0 ∨ ty = 4 ∨ ty = 5 ∨ ty = 7
      ∨ (k = 8 ∧ (n = 0 ∨ 8192 < n)) ∨ (k ≠ 8 ∧ leAt b 18 1 ≠ kindCount k) then 1
  else
    let g := (s.groupOf p).filter s.groupOn
    if g.any fun g => s.f (Fld.FUS_GROUP_KIND g) != k then 2
    else if scan then 0
    else
      let bad := (List.range (kindCount k)).any fun i => !fFin (recV b i)
      let badS := (List.range (kindVoted k)).any fun i => !fFin (recS b i) || !fLt 0 (recS b i)
      let badR := decide (k = 1) && fLt fOne (fAbs (recV b 3))
      let badA := (kindAngle k).any fun i => fLt (recV b i) 0 || !fLt (recV b i) twoPi
      if bad || (badS || (badR || badA)) then 3 else 0

/-- Checks 4 and 5 of R68, with the clock model committed at arrival (R75). -/
def State.fusAge (s : State) (p : Nat) (b : List Byte) : Nat :=
  let age := sgn 64 (uns 64 (Int.ofNat s.now - Int.ofNat (s.convTov p (recTov b))))
  if Int.ofNat (max 1 (s.f Fld.FUS_GLOBAL_MAX_AGE) * 1000000) < age then 4 else if age < -1000000000 then 5 else 0

/-- Queue a checked sample (R71); `pts` and `slot` of a scan. -/
def State.fusQueue (s : State) (p : Nat) (b pts : List Byte) (slot : Nat) : State :=
  let x := s.fusOf p
  if (if s.ptype p = 6 then 4 else 16) ≤ x.queue.length then (s.fusDrop p 1).raise Ev.FUS_DROP
  else
    let q : Smp := { bytes := b, pts := pts, slot := slot, arr := s.now, cyc := s.tim.raw, prevB0 := s.frm.lastB0 }
    s.setFusQ p { x with queue := x.queue ++ [q] }

/-- A deposited record: checked, and queued, or a scan's copy begun (R68, R70, R73). -/
def State.fusDeposit (s : State) (p : Nat) (b : List Byte) : State :=
  let c := s.fusCheck p b
  if c ≠ 0 then s.fusBad p c
  else if s.ptype p = 6 then
    (s.setFus p { s.fusOf p with copies := (s.fusOf p).copies ++ [b] }).setF (Fld.FUS_PORT_STAT_COPY_BUSY p) 1
  else
    let a := s.fusAge p b
    if a ≠ 0 then s.fusBad p a else s.fusQueue p b [] 0

/-- A DMA transfer of `n` records into the window of port `p` has completed (R70): every complete 64 bytes are one sample, and a
shorter remainder is discarded with code 1. -/
def State.fusDma (s : State) (p : Nat) (d : List Byte) : State :=
  let s1 := (List.range (d.length / 64)).foldl (fun t i => t.fusDeposit p ((d.drop (64 * i)).take 64)) s
  if d.length % 64 = 0 then s1 else s1.fusBad p 1

/-- The window of port `p` (R69). -/
def State.fusWindow (s : State) (p : Nat) : List Byte :=
  ((List.range 16).map fun w => leBytes 4 (s.reg (Adr.FUS_DEP p w)).toNat).flatten

/-- A write of a window word (R69). -/
def doDepWrite (s : State) (m p w : Nat) (v : Word) : State :=
  (if m = s.f (Fld.FUS_PORT_CFG_OWNER p) then s.setReg (Adr.FUS_DEP p w) v else s.setF (Fld.FUS_PORT_STAT_FOREIGN p) 1).ok

/-- A write of `FUS_DEP_COMMIT[p]` (R70). -/
def doDepCommit (s : State) (m p : Nat) : State :=
  (if m = s.f (Fld.FUS_PORT_CFG_OWNER p) then s.fusDeposit p (s.fusWindow p) else s.setF (Fld.FUS_PORT_STAT_FOREIGN p) 1).ok

/-- The rank of port `p` among the ports of type 6. -/
def State.scanRank (s : State) (p : Nat) : Nat := ((List.range p).filter fun q => s.ptype q == 6).length

/-- The address of place `i` of the scan store (R73): the four banks hold 16 scans of 64 KiB. -/
def State.storeAddr (s : State) (i : Nat) : Nat := bankAddr (min 60 (s.f Fld.FUS_GLOBAL_STORE_BANK)) (i * 0x1_0000)

/-- The oldest copy of port `p` completes: the points as they stand when read (R73). -/
def doScanCopied (s : State) (p : Nat) : State :=
  match (s.fusOf p).copies with
  | [] => s
  | b :: rest =>
    let s1 := (s.setFus p { s.fusOf p with copies := rest }).setF (Fld.FUS_PORT_STAT_COPY_BUSY p) (b2n !rest.isEmpty)
    let r := s1.mRead 23 (leAt b 24 5) (8 * leAt b 14 2)
    let a := r.st.fusAge p b
    if a ≠ 0 then r.st.fusBad p a
    else if r.rsp ≠ .okay then r.st.fusBad p 6
    else
      let used := (s1.fusOf p).queue.map fun q => q.slot
      let slot := 4 * s1.scanRank p + ((List.range 4).find? fun i => !used.contains (4 * s1.scanRank p + i)).getD 0
      let t := if (s1.fusOf p).queue.length < 4 then (r.st.mWrite 23 (s1.storeAddr slot) r.data).st else r.st
      (t.fusQueue p b r.data slot).raise Ev.FUS_SCAN_COPIED

/-- Make port `p` an admitted member with an empty test history (R65, R90). -/
def State.admitPort (s : State) (p : Nat) : State :=
  ((s.setF (Fld.FUS_PORT_STAT_VOTE p) (s.f (Fld.FUS_PORT_CFG_GROUP_EN p))).setF (Fld.FUS_PORT_STAT_PASS_RUN p) 0).setF
    (Fld.FUS_PORT_STAT_HISTORY p) 0

/-- The refusal of `TYPE` (R64). -/
def State.typeRefused (s : State) (p : Nat) (v : Word) : Bool :=
  let t := bitsOf v.toNat 31 28
  let others := ((List.range 32).filter fun q => q != p).map s.ptype
  let k := bitsOf v.toNat 7 4
  decide (8 ≤ t) || ((decide (t = 5) && (!s.dev.gnss || others.contains 5)) ||
    ((decide (t = 6) && decide (4 ≤ (others.filter (· == 6)).length)) || (decide (t = 4) && (k != 2 && k != 9))))

/-- The bytes of the calibration area (R83): one slot of 8,192 bytes for each port with `CAL_EN`, written with zeros. -/
def State.calClear (s : State) : State :=
  let n := ((List.range 32).filter fun p => s.fb (Fld.FUS_PORT_CFG_CAL_EN p)).length
  let o := 64 * s.f Fld.FUS_CAL_AREA_OFS
  let len := min (8192 * n) (0x4_0000 - o)
  let s1 := if len = 0 then s else (s.mWrite 23 (bankAddr (s.f Fld.FUS_CAL_AREA_BANK) o) (zeros len)).st
  forUp 32 (fun p t => (t.setFus p { t.fusOf p with pairs := [] }).setF (Fld.FUS_PORT_QUEUE_CAL_PAIRS p) 0) s1

/-- A write of `FUS_PORT_CFG[p]` (R64, R65, R83). -/
def doPortCfg (s : State) (p : Nat) (v : Word) : State :=
  if s.locked (Adr.FUS_PORT_CFG p) then s.ok
  else
    let old := s.reg (Adr.FUS_PORT_CFG p)
    let w := (if s.typeRefused p v then (v &&& 0x0FFFFFFF) ||| (old &&& 0xF0000000) else v) &&& 0xFFFFFFFE
    let s0 := if bitOf w.toNat 2 = bitOf old.toNat 2 then s else s.calClear
    let s1 := s0.setReg (Adr.FUS_PORT_CFG p) w
    let s2 := if s.typeRefused p v then s1.raise Ev.FUS_CFG_REFUSED else s1
    (if (w ^^^ old) &&& 0xF0F00000 = 0 then s2
     else
      let x := s2.fusOf p
      let s3 := (s2.fusDrop p (x.queue.length + x.copies.length)).setFusQ p
        { x with queue := [], copies := [], susRun := 0, okRun := 0 }
      ((s3.setF (Fld.FUS_PORT_STAT_COPY_BUSY p) 0).setF (Fld.FUS_PORT_STAT_SUSPECT p) 0).admitPort p).ok

/-- A write of `FUS_GROUP[g]`: when a group is enabled, its members start admitted with an empty history (R90). -/
def doGroupCfg (s : State) (g : Nat) (v : Word) : State :=
  if s.locked (Adr.FUS_GROUP g) then s.ok
  else
    let s1 := s.setReg (Adr.FUS_GROUP g) (v &&& 0x8FFFFFFF)
    (if s1.groupOn g && !s.groupOn g then
      forUp 32 (fun p t => if t.groupOf p = some g then t.admitPort p else t) s1 else s1).ok

/-! ### The latch (R503) -/

/-- The lexicographic order of lists of numbers. -/
def lexLt : List Nat → List Nat → Bool
  | [], [] => false
  | [], _ :: _ => true
  | _ :: _, [] => false
  | a :: as, b :: bs => if a = b then lexLt as bs else decide (a < b)

/-- Insert into a sorted list, after equal keys. -/
def insertBy {α : Type} (key : α → List Nat) (x : α) : List α → List α
  | [] => [x]
  | y :: l => if lexLt (key x) (key y) then x :: y :: l else y :: insertBy key x l

/-- Stable sort by key. -/
def sortBy {α : Type} (key : α → List Nat) (l : List α) : List α := l.foldl (fun acc x => insertBy key x acc) []

/-- Record order (R72): TOV, `SEQ`, then the bytes of the deposited record. -/
def recKey (tov : Nat) (b : List Byte) : List Nat := tov :: recSeq b :: b.map BitVec.toNat

/-- The discrepancy of a latched sample in µs (R76). -/
def State.discrepancy (s : State) (p : Nat) (q : Smp) (tov : Nat) : Int :=
  let d := sgn 64 (uns 64 (Int.ofNat q.arr - Int.ofNat (1000 * s.f (Fld.FUS_PORT_LAT_LATENCY p)) - Int.ofNat tov))
  clampI (-2147483647) 2147483647 (Int.tdiv d 1000)

/-- What discrepancy `d` does to the port: the counts and `CLOCK_SUSPECT`, and the vote state by clock (R77). -/
def State.applyDisc (s : State) (p : Nat) (d : Int) : State :=
  let x := s.fusOf p
  let sr := if 10000 < d.natAbs then x.susRun + 1 else 0
  let okr := if d.natAbs ≤ 5000 then x.okRun + 1 else 0
  let was := s.fb (Fld.FUS_PORT_STAT_SUSPECT p)
  let enter := !was && decide (max 1 (s.f Fld.FUS_GLOBAL_SUS_N) ≤ sr)
  let leave := was && decide (20 ≤ okr)
  let s1 := ((s.setFus p { x with susRun := sr, okRun := okr }).setReg (Adr.FUS_CLK_DISC p) (BitVec.ofNat 32 (uns 32 d))).setF
    (Fld.FUS_PORT_STAT_SUSPECT p) (b2n (enter || (was && !leave)))
  let s2 := if enter then s1.raise Ev.FUS_CLK_SUSPECT else s1
  let v := s2.f (Fld.FUS_PORT_STAT_VOTE p)
  if v = 0 then s2
  else if 40000 < d.natAbs then
    if v = 3 then s2
    else ((s2.setF (Fld.FUS_PORT_STAT_VOTE p) 3).setF (Fld.FUS_PORT_STAT_HISTORY p) 0).setF (Fld.FUS_PORT_STAT_PASS_RUN p) 0
  else if v = 3 then (s2.setF (Fld.FUS_PORT_STAT_VOTE p) 2).setF (Fld.FUS_PORT_STAT_PASS_RUN p) 0
  else s2

/-- One sample at the latch of edge `e`: latched or kept (R43, R75–R78, R503); `force` says that it is latched and whether it is
`LATE` (a replayed snapshot, R56). -/
def latchOne (p e : Nat) (force : Option Bool) (acc : State × List Smp × List Latched) (q : Smp) :
    State × List Smp × List Latched :=
  let (s, keep, out) := acc
  let tov := s.convTov p (recTov q.bytes)
  let thr := tov + 250000 * min 8 (s.f (Fld.FUS_PORT_CFG_ALLOW p))
  let was := s.fb (Fld.FUS_PORT_STAT_SUSPECT p)
  if force = none ∧ was = false ∧ e ≤ thr then
    let s1 := if q.waited then s else s.stick (Fld.FUS_PORT_CNT_B_FUTURE p) (Fld.FUS_PORT_STAT_FUTURE_SAT p) 1
    (s1, keep ++ [{ q with waited := true }], out)
  else
    let late := force.getD (!q.held && q.prevB0.any fun b => decide (thr < b))
    let s1 := s.applyDisc p (s.discrepancy p q tov)
    let l : Latched := if s1.fb (Fld.FUS_PORT_STAT_SUSPECT p) then
        { smp := q, tov := uns 64 (Int.ofNat q.arr - Int.ofNat (1000 * s.f (Fld.FUS_PORT_LAT_LATENCY p))), susp := true }
      else { smp := q, tov := tov, late := late }
    (s1, keep, out ++ [l])

/-- A record with the given kind, values and deviations. -/
def mkSample (tov kind : Nat) (v sd : List Nat) : List Byte :=
  leBytes 8 tov ++ zeros 4 ++ leBytes 1 kind ++ zeros 5 ++ leBytes 1 (kindCount kind) ++ zeros 5 ++
    ((List.range 5).map fun i => leBytes 4 (v.getD i 0)).flatten ++ ((List.range 5).map fun i => leBytes 4 (sd.getD i 0)).flatten

/-- A derived sample. -/
def derived (s : State) (b : List Byte) (late : Bool) : Latched :=
  { smp := { bytes := b, arr := s.now, cyc := s.tim.raw }, tov := recTov b, late := late }

/-- The samples derived at edge `e` for port `p` (R79–R81). -/
def State.derivedOf (s : State) (p e : Nat) : List Latched :=
  if s.ptype p = 4 then
    let tov := uns 64 (Int.ofNat e - Int.ofNat (1000 * s.f (Fld.FUS_PORT_LAT_LATENCY p)))
    let x := ieee (codeOf false ⟨sgn 32 (s.reg (Adr.FLT_CH_OUT (s.f (Fld.FUS_PORT_CFG_SRC_IDX p)))).toNat, -31⟩)
    let v := fMul (s.reg (Adr.FUS_MOUNT p 6)).toNat x
    [derived s (mkSample tov (s.f (Fld.FUS_PORT_CFG_KIND p)) [v] [(s.reg (Adr.FUS_MOUNT p 7)).toNat]) false]
  else if s.ptype p = 5 then (s.fus.fix.map fun b => derived s b false).toList
  else if s.ptype p = 7 then ((s.fus.pose.filter fun r => r.port == p).map fun r => derived s r.bytes r.late).toList
  else []

/-- The latch of one port: `rep` gives the port's samples of a replayed snapshot, each with its `LATE` bit. -/
def State.latchPort (s : State) (p e : Nat) (rep : Option (List (Smp × Bool))) : State :=
  let x := s.fusOf p
  let key := fun (q : Smp) => q.cyc :: recKey (s.convTov p (recTov q.bytes)) q.bytes
  let acc : State × List Smp × List Latched := match rep with
    | some l => (sortBy (fun (q : Smp × Bool) => key q.1) l).foldl (fun a (q : Smp × Bool) => latchOne p e (some q.2) a q.1) (s, x.queue, [])
    | none => (sortBy key x.queue).foldl (latchOne p e none) (s, [], [])
  let s1 := acc.1
  let runs := s1.frm.runs
  let out : List Latched := if runs then sortBy (fun (l : Latched) => recKey l.tov l.smp.bytes) (acc.2.2 ++ s1.derivedOf p e) else []
  let lates := (out.filter fun l => l.late).length
  let s2 := s1.setFusQ p { s1.fusOf p with queue := acc.2.1, latched := out, cal := false }
  let s3 := s2.stick (Fld.FUS_PORT_CNT_A_LATE p) (Fld.FUS_PORT_STAT_LATE_SAT p) lates
  { s3 with frm := { s3.frm with lateCnt := min 255 (s3.frm.lateCnt + lates), suspect := s3.frm.suspect || out.any fun l => l.susp } }

/-- At an edge at which no latch is made the queued samples are held (R504). -/
def State.holdPort (s : State) (p : Nat) : State :=
  let x := s.fusOf p
  let n := (x.queue.filter fun q => !q.waited).length
  (s.setFus p { x with queue := x.queue.map fun q => { q with waited := true, held := true }, latched := [], cal := false }).stick
    (Fld.FUS_PORT_CNT_B_FUTURE p) (Fld.FUS_PORT_STAT_FUTURE_SAT p) n

/-- Move `old` towards `want` by at most `lim` (R84). -/
def stepTo (old want lim : Nat) : Nat :=
  let d := fSub want old
  if fLe (fAbs d) lim then want else if fNeg d then fSub old lim else fAdd old lim

/-- A refinement is applied or discarded (R84): ledger record, event, registers and shadow. -/
def State.refine (s : State) (r : CalRes) : State :=
  let p := r.port
  let x := s.fusOf p
  if x.mountDirty then s.setF (Fld.FUS_PORT_STAT_CAL_OVERRIDE p) 1
  else
    let lev := fRatio (Int.ofNat (s.f Fld.FUS_CAL_LIM_LEVER)) 10000
    let yl := fRatio (Int.ofNat (s.f Fld.FUS_CAL_LIM_YAW)) 1000000
    let o := fun w => (s.reg (Adr.FUS_MOUNT p w)).toNat
    let n0 := stepTo (o 0) r.x lev
    let n1 := stepTo (o 1) r.y lev
    let n3 := stepTo (o 3) r.yaw yl
    let put := fun (w v : Nat) (t : State) => (t.setReg (Adr.FUS_MOUNT p w) (BitVec.ofNat 32 v)).setSh (Adr.FUS_MOUNT p w) (BitVec.ofNat 32 v)
    let s1 := put 3 n3 (put 1 n1 (put 0 n0 s))
    ((s1.setFus p { x with cal := true }).offer (mkRec 514 1 s.now (leBytes 1 p ++ zeros 3 ++
      ([o 0, o 1, o 3, n0, n1, n3].map fun v => leBytes 4 v).flatten))).raise Ev.FUS_CAL_APPLIED

/-- The frame snapshot is latched at B0 edge `e` (R43, R75–R84, R503, R504); `rep` gives a replayed snapshot's samples by port. -/
def State.fusLatch (s : State) (rep : Option (Nat → List (Smp × Bool))) : State :=
  let e := s.now
  if s.works 37 then
    let s1 : State := { s with fus := { s.fus with edge := e, latch := s.frm.runs, recs := [] } }
    let s2 := forUp 32 (fun p t => t.latchPort p e (rep.map fun f => f p)) s1
    let s3 := s2.fus.calRes.foldl State.refine s2
    { s3 with fus := { s3.fus with fix := none, pose := none, calRes := [] } }
  else forUp 32 (fun p t => t.holdPort p) { s with fus := { s.fus with edge := e, latch := false, recs := [] } }

/-! ### The commands -/

/-- `PORT_CFG_WRITE`. -/
def execPortCfgWrite (p : Nat) (v : Word) (s : State) : Out := liveIf (decide (p < 32)) s (doPortCfg s p v)

/-- `DEPOSIT_WINDOW_WRITE` by master `m`. -/
def execDepositWindowWrite (m p w : Nat) (v : Word) (s : State) : Out :=
  liveIf (decide (p < 32) && decide (w < 16)) s (doDepWrite s m p w v)

/-- `DEPOSIT_COMMIT` by master `m`. -/
def execDepositCommit (m p : Nat) (s : State) : Out := liveIf (decide (p < 32)) s (doDepCommit s m p)

/-- `SCAN_COPY_DONE`. -/
def execScanCopyDone (p : Nat) (s : State) : Out := liveIf (decide (p < 32)) s (doScanCopied s p)

end Sys2Proof.Machine
end

