-- ==== Sys2Proof/Machine/Vote.lean ====
section
/-! DEFINITION. Fusion: alignment, voting, consensus, fused records and calibration pairs (R82–R95), performed when the fusion
stage of a frame completes (R40). All arithmetic is binary32 (R89). -/

namespace Sys2Proof.Machine

/-- A record being fused (R66, R87). -/
structure FRec where
  port : Nat
  kind : Nat
  tov : Nat
  seq : Nat := 0
  /-- `FLAGS` bits [15:11] in place, and bits [10:0]. -/
  user : Nat := 0
  flags : Nat := 0
  v : List Nat := [0, 0, 0, 0, 0]
  s : List Nat := [0, 0, 0, 0, 0]
  grp : Nat := 0xFF
  vote : Nat := 0
  /-- The oldest TOV that contributes (R88). -/
  oldest : Nat
  /-- The deposited record of a scan, whose layout is its own (R96). -/
  scan : Option (List Byte) := none
deriving DecidableEq, Repr

/-- The flags of R87. -/
def flVALID : Nat := 1
def flLATE : Nat := 2
def flSUSPECT : Nat := 4
def flNOHEAD : Nat := 8
def flCAL : Nat := 16
def flCONS : Nat := 32
def flSINGLE : Nat := 64
def flSPLIT : Nat := 128
def flDISAGREE : Nat := 256
def flREPEATED : Nat := 512
def flPICKED : Nat := 1024

/-- AOC in µs at latching edge `e` (R88). -/
def aocOf (e oldest : Nat) : Nat := uns 32 (fdiv (sgn 64 (uns 64 (Int.ofNat e - Int.ofNat oldest))) 1000)

/-- The 64 bytes of a fused record (R87). -/
def FRec.pack (r : FRec) (e : Nat) : List Byte :=
  match r.scan with
  | some b =>
    leBytes 8 r.tov ++ leBytes 4 (aocOf e r.oldest) ++ leBytes 1 r.kind ++ leBytes 1 r.port ++ leBytes 1 r.grp ++
      leBytes 1 r.vote ++ leBytes 2 (r.user + r.flags) ++ b.drop 18
  | none =>
    leBytes 8 r.tov ++ leBytes 4 (aocOf e r.oldest) ++ leBytes 1 r.kind ++ leBytes 1 r.port ++ leBytes 1 r.grp ++
      leBytes 1 r.vote ++ leBytes 2 (r.user + r.flags) ++ leBytes 1 (kindCount r.kind) ++ zeros 1 ++ leBytes 4 r.seq ++
      (r.v.map fun x => leBytes 4 x).flatten ++ (r.s.map fun x => leBytes 4 x).flatten

/-- A latched sample of port `p` as a record, not yet aligned (R77, R87). -/
def State.toRec (s : State) (p : Nat) (l : Latched) : FRec :=
  let b := l.smp.bytes
  let infl := Int.ofNat (s.f (Fld.FUS_PORT_CFG_INFL p))
  { port := p, kind := recKind b, tov := l.tov, seq := recSeq b, user := leAt b 16 2 / 2048 * 2048,
    flags := flVALID + (if l.late then flLATE else 0) + (if l.susp then flSUSPECT else 0) +
      (if (s.fusOf p).cal then flCAL else 0),
    v := (List.range 5).map (recV b), s := (List.range 5).map fun i => if l.susp then fScale (recS b i) infl else recS b i,
    grp := (s.groupOf p).getD 0xFF, oldest := l.tov, scan := if recKind b = 8 then some b else none }

/-- The integer quotient of two exact values, rounded down (divisor positive). -/
def Dy.fdivI (a b : Dy) : Int := let e := min a.e b.e; fdiv (shl a.m (a.e - e)) (shl b.m (b.e - e))

/-- `x` less `k` times 2π. -/
def lessTurns (x : Nat) (k : Int) : Nat :=
  codeOf false (Dy.add (fDy x) (Dy.mul (Dy.ofInt (-k)) (fDy twoPi)))

/-- An angle reduced to 0 to below 2π (R82, R91). -/
def reduceAngle (x : Nat) : Nat :=
  if !fFin x then x
  else let r := lessTurns x (Dy.fdivI (fDy x) (fDy twoPi)); if fLt r twoPi then r else 0

/-- An angular difference wrapped to (−π, π] (R92). -/
def wrapAngle (x : Nat) : Nat :=
  if !fFin x then x else lessTurns x (-(Dy.fdivI (Dy.add (fDy piF) (fDy x).neg) (fDy twoPi)))

/-- The position `v` moved by a lever arm at heading `psi`: p − R(ψ)·(x, y) (R82). -/
def lessLever (v : List Nat) (psi x y : Nat) : List Nat :=
  let c := fCos psi
  let n := fSin psi
  setNth (setNth v 0 (fSub (v.getD 0 0) (fSub (fMul c x) (fMul n y)))) 1 (fSub (v.getD 1 0) (fAdd (fMul n x) (fMul c y)))

/-- Alignment of a record (R82). -/
def State.align (s : State) (psi : Option Nat) (r : FRec) : FRec :=
  let w := fun i => (s.reg (Adr.FUS_MOUNT r.port i)).toNat
  if r.kind = 1 ∨ r.kind = 7 then
    match psi with
    | none => { r with flags := r.flags ||| flNOHEAD }
    | some h =>
      let x := if r.kind = 1 then w 0 else (s.reg Adr.GFE_VPT_X).toNat
      let y := if r.kind = 1 then w 1 else (s.reg Adr.GFE_VPT_Y).toNat
      { r with v := lessLever r.v h x y }
  else if r.kind = 2 then { r with v := setNth r.v 0 (reduceAngle (fSub (r.v.getD 0 0) (w 3))) }
  else if r.kind = 6 then { r with v := setNth r.v 1 (reduceAngle (fAdd (r.v.getD 1 0) (w 3))) }
  else r

/-- The latest estimate block is valid (R91, R159, R160). -/
def State.estValid (s : State) : Bool := s.asm.est.length == 128 && bitOf (leAt s.asm.est 16 1) 0

/-- A binary32 field of the latest estimate block. -/
def State.estF (s : State) (o : Nat) : Nat := leAt s.asm.est o 4

/-- The difference of two instants in seconds. -/
def secondsF (a b : Nat) : Nat := fRatio (sgn 64 (uns 64 (Int.ofNat a - Int.ofNat b))) 1000000000

/-- The values of a record propagated to instant `t` (R91). -/
def State.propagate (s : State) (t : Nat) (r : FRec) : List Nat :=
  if !s.estValid then r.v
  else
    let dt := secondsF t r.tov
    let mv := fun (i o : Nat) (v : List Nat) => setNth v i (fAdd (v.getD i 0) (fMul (s.estF o) dt))
    if r.kind = 1 ∨ r.kind = 7 then mv 1 52 (mv 0 48 r.v)
    else if r.kind = 2 then let v := mv 0 44 r.v; setNth v 0 (reduceAngle (v.getD 0 0))
    else r.v

/-- A member that takes part in a frame: its last record and the record's values at the group instant (R90, R91). -/
structure Voter where
  r : FRec
  x : List Nat
deriving DecidableEq, Repr

/-- 1/σ² (R91). -/
def weightOf (sd : Nat) : Nat := fDiv fOne (fMul sd sd)

/-- The consensus value and variance of component `k` over a set of members in port order (R91). -/
def consOf (ang : Option Nat) (k : Nat) (ms : List Voter) : Nat × Nat :=
  let ref := match ms with
    | [] => 0
    | m :: _ => m.x.getD k 0
  let isA := ang == some k
  let sw := ms.foldl (fun a m => fAdd a (weightOf (m.r.s.getD k 0))) 0
  let sx := ms.foldl (fun a m =>
    let x := m.x.getD k 0
    fAdd a (fMul (weightOf (m.r.s.getD k 0)) (if isA then wrapAngle (fSub x ref) else x))) 0
  let mean := fDiv sx sw
  (if isA then reduceAngle (fAdd mean ref) else mean, fDiv fOne sw)

/-- One term (x − c)² / (σ² + s²) of the statistic of R92 and R94. -/
def statTerm (ang : Option Nat) (k x sd c var : Nat) : Nat :=
  let d := fSub x c
  let e := if ang == some k then wrapAngle d else d
  fDiv (fMul e e) (fAdd (fMul sd sd) var)

/-- The statistic of a member against a consensus (R92). -/
def statOf (ang : Option Nat) (n : Nat) (m : Voter) (c : List (Nat × Nat)) : Nat :=
  (List.range n).foldl (fun a k =>
    fAdd a (statTerm ang k (m.x.getD k 0) (m.r.s.getD k 0) (c.getD k (0, 0)).1 (c.getD k (0, 0)).2)) 0

/-- The statistic of two members against one another (R94). -/
def statPair (ang : Option Nat) (n : Nat) (a b : Voter) : Nat :=
  (List.range n).foldl (fun t k =>
    fAdd t (statTerm ang k (a.x.getD k 0) (a.r.s.getD k 0) (b.x.getD k 0)
      (fMul (b.r.s.getD k 0) (b.r.s.getD k 0)))) 0

/-- The number of failures among the last `n` outcomes of a history. -/
def failsIn (h n : Nat) : Nat := ((List.range n).filter fun i => bitOf h i).length

/-- The outcome of a member changes its history, pass run and vote state (R93): 1 pass, 2 fail. -/
def State.charge (s : State) (g p o : Nat) : State :=
  let n := min 8 (max 1 (s.f (Fld.FUS_GROUP_N g)))
  let mf := min n (max 1 (s.f (Fld.FUS_GROUP_M g)))
  if s.f (Fld.FUS_PORT_STAT_VOTE p) = 1 then
    let h := (s.f (Fld.FUS_PORT_STAT_HISTORY p) * 2 + b2n (o == 2)) % 256
    if mf ≤ failsIn h n then
      (((s.setF (Fld.FUS_PORT_STAT_VOTE p) 2).setF (Fld.FUS_PORT_STAT_HISTORY p) 0).setF (Fld.FUS_PORT_STAT_PASS_RUN p) 0).raise
        Ev.FUS_VOTED_OUT
    else s.setF (Fld.FUS_PORT_STAT_HISTORY p) h
  else
    let run := if o = 1 then min 255 (s.f (Fld.FUS_PORT_STAT_PASS_RUN p) + 1) else 0
    if max 1 (s.f (Fld.FUS_GROUP_READMIT g)) ≤ run then
      (((s.setF (Fld.FUS_PORT_STAT_VOTE p) 1).setF (Fld.FUS_PORT_STAT_HISTORY p) 0).setF (Fld.FUS_PORT_STAT_PASS_RUN p) 0).raise
        Ev.FUS_READMIT
    else s.setF (Fld.FUS_PORT_STAT_PASS_RUN p) run

/-- The members of group `g` with samples, in port order, at the group instant (R90, R91). -/
def State.voters (s : State) (g : Nat) (recs : List (List FRec)) (t : Nat) : List Voter :=
  (List.range 32).filterMap fun p =>
    if s.groupOf p = some g then ((recs.getD p []).getLast?).map fun r => { r := r, x := s.propagate t r } else none

/-- The group instant: the latest TOV among the members' samples (R91). -/
def State.groupInstant (s : State) (g : Nat) (recs : List (List FRec)) : Nat :=
  (s.voters g recs 0).foldl (fun t m => max t m.r.tov) 0

/-- A consensus record of group `g` with no values (R87, R95). -/
def State.emptyCons (s : State) (g t e : Nat) : FRec :=
  { port := 0x80 + g, kind := s.f (Fld.FUS_GROUP_KIND g), tov := t, grp := g, flags := flCONS, oldest := e }

/-- The consensus record over admitted members (R87, R91, R95). -/
def State.consRec (s : State) (g t e : Nat) (ms : List Voter) : FRec :=
  let k := s.f (Fld.FUS_GROUP_KIND g)
  let n := kindVoted k
  let r0 := s.emptyCons g t e
  let nh := if ms.any fun m => bitOf m.r.flags 3 then flNOHEAD else 0
  match ms with
  | [] => r0
  | [m] =>
    { r0 with v := (List.range 5).map fun i => if i < n then m.x.getD i 0 else 0
              s := (List.range 5).map fun i => if i < n then m.r.s.getD i 0 else 0
              flags := flVALID + flCONS + flSINGLE + nh, vote := 1, oldest := m.r.tov }
  | m :: _ =>
    let c := (List.range n).map fun i => consOf (kindAngle k) i ms
    { r0 with v := (List.range 5).map fun i => if i < n then (c.getD i (0, 0)).1 else 0
              s := (List.range 5).map fun i => if i < n then fSqrt (c.getD i (0, 0)).2 else 0
              flags := flVALID + flCONS + nh, vote := ms.length
              oldest := ms.foldl (fun t v => min t v.r.tov) m.r.tov }

/-- A stored consensus record read back (R94). -/
def recOfBytes (b : List Byte) : FRec :=
  { port := leAt b 13 1, kind := recKind b, tov := recTov b, seq := recSeq b, user := leAt b 16 2 / 2048 * 2048,
    flags := leAt b 16 2 % 2048, v := (List.range 5).map (recV b), s := (List.range 5).map (recS b),
    grp := leAt b 14 1, vote := leAt b 15 1, oldest := recTov b }

/-- The record of a group in `DISAGREE` (R94, R95). -/
def State.disagreeRec (s : State) (g t e : Nat) (adm : List Voter) : FRec :=
  let pick := (adm.filter fun m => m.r.port == s.f (Fld.FUS_PICK_PORT g)).head?
  match (if s.fb (Fld.FUS_PICK_VALID g) then pick else none) with
  | some m =>
    { m.r with port := 0x80 + g, grp := g, vote := 1
               flags := flVALID + flCONS + flDISAGREE + flPICKED + (if bitOf m.r.flags 3 then flNOHEAD else 0) }
  | none =>
    match s.fus.agree.getD g none with
    | some b =>
      let r := recOfBytes b
      if Int.ofNat (max 1 (s.f Fld.FUS_GLOBAL_MAX_AGE) * 1000000) < sgn 64 (uns 64 (Int.ofNat e - Int.ofNat r.tov)) then
        { s.emptyCons g t e with flags := flCONS + flDISAGREE }
      else { r with flags := flVALID + flCONS + flDISAGREE + flREPEATED + (if bitOf r.flags 3 then flNOHEAD else 0) }
    | none => { s.emptyCons g t e with flags := flCONS + flDISAGREE }

/-- What a vote yields: the state, the consensus record, and the outcomes by port (1 pass, 2 fail, 3 fail not charged). -/
structure Voted where
  st : State
  cons : FRec
  out : List (Nat × Nat)

/-- The vote of group `g` at latching edge `e` (R92–R95). -/
def State.voteGroup (s : State) (g e : Nat) (recs : List (List FRec)) : Voted :=
  let k := s.f (Fld.FUS_GROUP_KIND g)
  let n := kindVoted k
  let ang := kindAngle k
  let gate := fRatio (Int.ofNat (s.f (Fld.FUS_GROUP_GATE g))) 8
  let t := s.groupInstant g recs
  let vs := s.voters g recs t
  let st := fun (m : Voter) => s.f (Fld.FUS_PORT_STAT_VOTE m.r.port)
  let adm := vs.filter fun m => st m == 1
  let disagree := match adm with
    | [a, b] => fLt gate (statPair ang n a b)
    | _ => false
  let outcome := fun (m : Voter) =>
    let others := adm.filter fun o => o.r.port != m.r.port
    if disagree || (st m == 3 || decide (others.length < 2)) then 0
    else if fLt gate (statOf ang n m ((List.range n).map fun i => consOf ang i others)) then 2 else 1
  let outs := vs.map fun m => (m.r.port, outcome m)
  let tested := adm.filter fun m => outcome m != 0
  let fails := adm.filter fun m => outcome m == 2
  let split := decide (2 ≤ fails.length) && decide (tested.length ≤ 2 * fails.length)
  let outs' := if split then outs.map fun o => if (fails.any fun m => m.r.port == o.1) then (o.1, 3) else o else outs
  let s1 := if split then s else outs.foldl (fun t o => if o.2 = 0 then t else t.charge g o.1 o.2) s
  let final := vs.filter fun m => s1.f (Fld.FUS_PORT_STAT_VOTE m.r.port) == 1
  let c0 := if disagree then s1.disagreeRec g t e adm else s1.consRec g t e final
  let c := if split then { c0 with flags := c0.flags ||| flSPLIT } else c0
  let s2 : State := if !disagree && bitOf c.flags 0 then
    { s1 with fus := { s1.fus with agree := setNth s1.fus.agree g (some (c.pack e)) } } else s1
  let s3 := if disagree && !s2.fb (Fld.FUS_GSTAT_DISAGREE g) then s2.raise Ev.FUS_DISAGREE else s2
  let admN := ((List.range 32).filter fun p => s3.groupOf p == some g && s3.f (Fld.FUS_PORT_STAT_VOTE p) == 1).length
  let gs := admN * 256 + 16 * b2n (!bitOf c.flags 0) + 8 * b2n (bitOf c.flags 10) + 4 * b2n disagree + 2 * b2n split +
    b2n (bitOf c.flags 6)
  { st := s3.setReg (Adr.FUS_GSTAT g) (BitVec.ofNat 32 gs), cons := c, out := outs' }

/-- The vote byte of the records of port `p` (R87): the member state, and the outcome in its last record. -/
def State.voteBytes (s : State) (p : Nat) (out : List (Nat × Nat)) (rs : List FRec) : List FRec :=
  let v := s.f (Fld.FUS_PORT_STAT_VOTE p)
  let o := ((out.filter fun x => x.1 == p).map fun x => x.2).headD 0
  rs.mapIdx fun i r => { r with vote := if i + 1 = rs.length then v + 16 * o else v }

/-- The lowest-numbered member of group `g` (R86). -/
def State.firstMember (s : State) (g : Nat) : Option Nat := (List.range 32).find? fun p => s.groupOf p == some g

/-- The directory and records of the fused area from the 32 port sections (R85, R86). -/
def fusedArea (secs : List (List Byte)) : List Byte :=
  let dir := (List.range 32).foldl (fun (a : List Byte × Nat) p =>
    let sec := secs.getD p []
    (a.1 ++ leBytes 4 a.2 ++ leBytes 2 (sec.length / 64) ++ leBytes 2 0, a.2 + sec.length)) ([], 256)
  dir.1 ++ secs.flatten

/-- The address of the calibration slot of port `p` (R83); `none` where it would pass the end of the bank. -/
def State.calSlot (s : State) (p : Nat) : Option Nat :=
  let rank := ((List.range p).filter fun q => s.fb (Fld.FUS_PORT_CFG_CAL_EN q)).length
  let o := 64 * s.f Fld.FUS_CAL_AREA_OFS + 8192 * rank
  if o + 8192 ≤ 0x4_0000 then some (bankAddr (s.f Fld.FUS_CAL_AREA_BANK) o) else none

/-- The new calibration pairs of port `p` in this frame (R83, R209): unaligned record, then leave-one-out consensus with the
heading that aligned the latch in `V4`. -/
def State.newPairs (s : State) (p g e : Nat) (psi : Option Nat) (raw recs : List (List FRec)) : List (List Byte) :=
  (raw.getD p []).filterMap fun r =>
    let ms := (s.voters g recs r.tov).filter fun m => m.r.port != p && s.f (Fld.FUS_PORT_STAT_VOTE m.r.port) == 1
    if ms = [] then none
    else
      let c := s.consRec g r.tov e ms
      some (r.pack e ++ ({ c with v := setNth c.v 4 (psi.getD 0) } : FRec).pack e)

/-- Keep the pairs of port `p` and write its slot whole (R83). -/
def State.keepPairs (s : State) (p : Nat) (new : List (List Byte)) : State :=
  match s.calSlot p with
  | none => s.setF (Fld.FUS_PORT_QUEUE_CAL_PAIRS p) 0
  | some a =>
    let all := (s.fusOf p).pairs ++ new
    let ps := all.drop (all.length - 64)
    ((s.setFus p { s.fusOf p with pairs := ps }).setF (Fld.FUS_PORT_QUEUE_CAL_PAIRS p) ps.length).mWrite 23 a
      (padTo 8192 ps.flatten) |>.st

/-- Alignment, voting and the fused records of the frame (R82–R95). -/
def State.fuse (s : State) : State :=
  let e := s.fus.edge
  let raw := (List.range 32).map fun p => (s.fusOf p).latched.map (s.toRec p)
  let hg := s.f Fld.FUS_GLOBAL_HEAD_GROUP
  let hon := s.groupOn hg
  let inH := fun p => hon && s.groupOf p == some hg
  let r1 := raw.mapIdx fun p rs => if inH p then rs.map (s.align none) else rs
  let hv : Option Voted := if hon then some (s.voteGroup hg e r1) else none
  let s1 := (hv.map fun v => v.st).getD s
  let psi := (hv.filter fun v => s.f (Fld.FUS_GROUP_KIND hg) == 2 && bitOf v.cons.flags 0).map fun v => v.cons.v.getD 0 0
  let r2 := r1.mapIdx fun p rs => if inH p then rs else rs.map (s1.align psi)
  let gs := (List.range 8).filter fun g => s.groupOn g && g != hg
  let acc := gs.foldl (fun (a : State × List (Nat × FRec) × List (Nat × Nat)) g =>
      let v := a.1.voteGroup g e r2
      (v.st, a.2.1 ++ [(g, v.cons)], a.2.2 ++ v.out))
    (s1, (hv.map fun v => (hg, v.cons)).toList, (hv.map fun v => v.out).getD [])
  let s2 := acc.1
  let r3 := r2.mapIdx fun p rs => s2.voteBytes p acc.2.2 rs
  let secs := r3.mapIdx fun p rs =>
    (rs.map fun r => r.pack e).flatten ++
      ((List.range 8).map fun g =>
        if s2.groupOn g && s2.firstMember g == some p then
          ((acc.2.1.filter fun c => c.1 == g).map fun c => c.2.pack e).flatten else []).flatten
  let s3 := (s2.mWrite 23 (bankAddr (s.f Fld.FUS_GLOBAL_SNAP_BANK) 0) (fusedArea secs)).st
  let s4 := forUp 32 (fun p t =>
    match (t.groupOf p).filter t.groupOn with
    | some g => if t.fb (Fld.FUS_PORT_CFG_CAL_EN p) && !(raw.getD p []).isEmpty then
        t.keepPairs p (t.newPairs p g e psi raw r2) else t
    | none => t) s3
  { s4 with fus := { s4.fus with recs := secs.flatten }, frm := { s4.frm with fusDone := true } }

/-- The fusion stage overran at B4: the records not written are marked absent (R46, R85), and the work on the frame stops. -/
def State.fusAbsent (s : State) : State :=
  let lost := fun p => !(s.fusOf p).latched.isEmpty || (List.range 8).any fun g => s.groupOn g && s.firstMember g == some p
  let dir := ((List.range 32).map fun p => leBytes 4 256 ++ leBytes 2 0 ++ leBytes 2 (b2n (lost p))).flatten
  let s1 := (s.mWrite 23 (bankAddr (s.f Fld.FUS_GLOBAL_SNAP_BANK) 0) dir).st
  { s1 with fus := { s1.fus with latch := false, recs := [] } }

/-- `FUSION_STAGE_DONE`: where a latch was made and B4 has not come (R40). -/
def execFusionStageDone (s : State) : Out := liveIf (s.fus.latch && (!s.frm.fusDone && s.works 37)) s s.fuse

end Sys2Proof.Machine
end

