-- ==== Sys2Proof/Machine/Tables.lean ====
section
/-! DEFINITION. The assembler's table set (R146–R158, R174): its parts, its check and its sizes; and the matrix arithmetic of
R505. -/

namespace Sys2Proof.Machine

/-! ### Sums of products (R505) -/

/-- A sum of products accumulated as in R185; where an operand is not finite, IEEE 754 decides. -/
def sumProd (xs ys : List Nat) : Nat :=
  let ps := xs.zip ys
  if ps.all fun p => fFin p.1 && fFin p.2 then
    ieee (codeOf false (ps.foldl (fun (a : Dy) p => (Dy.add a (Dy.mul (fDy p.1) (fDy p.2))).round 40) ⟨0, 0⟩))
  else ps.foldl (fun a p => fAdd a (fMul p.1 p.2)) 0

/-- Matrix times vector. -/
def matVec (a : List (List Nat)) (v : List Nat) : List Nat := a.map fun r => sumProd r v

/-- Column `j` of a matrix. -/
def column (a : List (List Nat)) (j : Nat) : List Nat := a.map fun r => r.getD j 0

/-- Matrix times matrix; `w` is the width of the second. -/
def matMul (a b : List (List Nat)) (w : Nat) : List (List Nat) := a.map fun r => (List.range w).map fun j => sumProd r (column b j)

/-- An entry of a matrix. -/
def ent (a : List (List Nat)) (i j : Nat) : Nat := (a.getD i []).getD j 0

/-- The matrix of `r` rows and `c` columns with the given entries. -/
def matOf (r c : Nat) (f : Nat → Nat → Nat) : List (List Nat) := (List.range r).map fun i => (List.range c).map (f i)

/-- The identity's entry. -/
def idEnt (i j : Nat) : Nat := if i = j then fOne else 0

/-! ### The parts of a table set (R146) -/

/-- One thruster entry (R152). -/
structure Thr where
  ty : Nat
  bus : Nat
  segs : Nat
  fold : Bool
  nsect : Nat
  sides : Nat
  x : Nat
  y : Nat
  fmax : Nat
  fmin : Nat
  alpha : Nat
  azRate : Nat
  fRate : Nat
  park : Nat
  sect : List Nat
  seg : List (Nat × Nat)
deriving DecidableEq, Repr

/-- Thruster entry `j`. -/
def thrOf (tb : List Byte) (j : Nat) : Thr :=
  let b := (tb.drop (0x600 + 128 * j)).take 128
  let w := fun o => leAt b o 4
  { ty := leAt b 0 1, bus := leAt b 1 1, segs := min 8 (leAt b 2 1), fold := bitOf (leAt b 3 1) 0, nsect := min 2 (leAt b 4 1),
    sides := leAt b 5 1, x := w 8, y := w 12, fmax := w 16, fmin := w 20, alpha := w 24, azRate := w 28, fRate := w 32, park := w 36,
    sect := (List.range 4).map fun i => w (40 + 4 * i), seg := (List.range 8).map fun i => (w (64 + 8 * i), w (68 + 8 * i)) }

/-- A table set read from its bank. -/
structure TSet where
  tb : List Byte
  /-- T, B, N and h in ms (R147). -/
  t : Nat
  b : Nat
  n : Nat
  h : Nat
  thr : List Thr
deriving DecidableEq, Repr

/-- The table set in 12,800 bytes. -/
def tsetOf (tb : List Byte) : TSet :=
  let t := min 24 (leAt tb 6 1)
  { tb := tb, t := t, b := min 8 (leAt tb 7 1), n := leAt tb 8 1, h := leAt tb 10 2, thr := (List.range t).map (thrOf tb) }

/-- Word `i` of the vessel model (R151), of the objective `o` (0 hold, 1 `GRAZE`; R158), of the backstop block (R158). -/
def TSet.model (t : TSet) (i : Nat) : Nat := leAt t.tb (0x40 + 4 * i) 4
def TSet.obj (t : TSet) (o i : Nat) : Nat := leAt t.tb (0xC0 + 64 * o + 4 * i) 4
def TSet.back (t : TSet) (i : Nat) : Nat := leAt t.tb (0x140 + 4 * i) 4

/-- Word `i` of pasture `p` (R157). -/
def TSet.past (t : TSet) (p i : Nat) : Nat := leAt t.tb (0x200 + 64 * p + 4 * i) 4

/-- Fallback limit and stale threshold of section `b` (R156). -/
def TSet.fallback (t : TSet) (b : Nat) : Nat := leAt t.tb (0x180 + 16 * b) 4
def TSet.threshold (t : TSet) (b : Nat) : Nat := max 1 (leAt t.tb (0x184 + 16 * b) 2)

/-- One scenario entry (R174). -/
structure Scen where
  kind : Nat
  pin : Bool
  prio : Nat
  index : Nat
  v : List Nat
deriving DecidableEq, Repr

/-- The 32 bytes of scenario entry `i`. -/
def TSet.scenBytes (t : TSet) (i : Nat) : List Byte := (t.tb.drop (0x1200 + 32 * i)).take 32

/-- Scenario entry `i`. -/
def TSet.scen (t : TSet) (i : Nat) : Scen :=
  let b := t.scenBytes i
  { kind := leAt b 0 1, pin := bitOf (leAt b 1 1) 0, prio := leAt b 2 1, index := leAt b 3 1,
    v := (List.range 3).map fun k => leAt b (8 + 4 * k) 4 }

/-- The enabled entries with and without `PIN`, in index order (R176). -/
def TSet.pinned (t : TSet) : List Nat := (List.range 256).filter fun i => (t.scen i).kind != 0 && (t.scen i).pin
def TSet.unpinned (t : TSet) : List Nat := (List.range 256).filter fun i => (t.scen i).kind != 0 && !(t.scen i).pin

/-! ### Sizes (R164, R166, R167, R170) -/

/-- Thrust variables of a thruster. -/
def Thr.vars (x : Thr) : Nat := if x.ty = 1 then 2 else 1

/-- m_j of R166. -/
def Thr.mj (x : Thr) : Nat := if x.ty = 1 ∨ fNeg x.fmin = false ∨ fMag x.fmin = 0 then 1 else 2

def TSet.nf (t : TSet) : Nat := (t.thr.map Thr.vars).sum
def TSet.npi (t : TSet) : Nat := (t.thr.filter fun x => !x.fold).length
def TSet.s (t : TSet) : Nat := t.nf + t.npi + 9

/-- The folded thruster of section `b` (R153). -/
def TSet.folded (t : TSet) (b : Nat) : Option Thr := t.thr.find? fun x => x.fold && x.bus == b

/-- Purse rows of section `b` (R166). -/
def TSet.purseRows (t : TSet) (b : Nat) : Nat :=
  match t.folded b with
  | some x => x.mj * x.segs
  | none => 1

/-- Rows per stage (R166). -/
def TSet.rows (t : TSet) : Nat :=
  let az := t.thr.filter fun x => x.ty == 1
  let un := t.thr.filter fun x => !x.fold
  12 + (t.thr.map Thr.vars).sum + (az.map fun x => x.sides).sum + (az.map fun x => x.nsect).sum +
    (un.map fun x => x.mj * x.segs).sum + ((List.range t.b).map t.purseRows).sum + (t.thr.length - az.length) + un.length + 3

/-- Nonzeros of stage `k` (R167). -/
def TSet.nnzStage (t : TSet) (first : Bool) : Nat :=
  let az := t.thr.filter fun x => x.ty == 1
  let un := t.thr.filter fun x => !x.fold
  6 * (if first then 1 + t.nf else 7 + t.nf) + 12 + (if first then 1 else 2) * t.nf + 2 * (az.map fun x => x.sides).sum +
    2 * (az.map fun x => x.nsect).sum + (un.map fun x => x.mj * x.segs * (1 + x.vars)).sum +
    ((List.range t.b).map fun b =>
      t.purseRows b * ((un.filter fun x => x.bus == b).length + ((t.folded b).map Thr.vars).getD 0)).sum +
    (t.thr.length - az.length) + un.length + 3

def TSet.nvar (t : TSet) : Nat := t.n * t.s
def TSet.m (t : TSet) : Nat := t.n * t.rows
def TSet.nnz (t : TSet) : Nat := if t.n = 0 then 0 else t.nnzStage true + (t.n - 1) * t.nnzStage false

/-! ### The vessel model's inverse (R151, R505) -/

/-- The 2 × 2 cofactor of M at (i, j), signed. -/
def TSet.cof (t : TSet) (i j : Nat) : Nat :=
  let m := fun r c => t.model (3 * r + c)
  let r := ([1, 2, 0, 2, 0, 1] : List Nat)
  let r0 := r.getD (2 * i) 0
  let r1 := r.getD (2 * i + 1) 0
  let c0 := r.getD (2 * j) 0
  let c1 := r.getD (2 * j + 1) 0
  let d := sumProd [m r0 c0, fNegate (m r0 c1)] [m r1 c1, m r1 c0]
  if (i + j) % 2 = 0 then d else fNegate d

/-- The determinant of M by its first row. -/
def TSet.det (t : TSet) : Nat := sumProd [t.model 0, t.model 1, t.model 2] [t.cof 0 0, t.cof 0 1, t.cof 0 2]

/-- M⁻¹, the adjugate divided by the determinant. -/
def TSet.minv (t : TSet) : List (List Nat) := matOf 3 3 fun i j => fDiv (t.cof j i) t.det

/-! ### The check (R148) -/

/-- The bytes [a, b) are all 0. -/
def zeroAt (bs : List Byte) (a b : Nat) : Bool := ((bs.drop a).take (b - a)).all (· == 0)

/-- A value is an angle from 0 to below 2π. -/
def isAngle (c : Nat) : Bool := fFin c && (fLe 0 c && fLt c twoPi)

/-- A finite value of at least 0, or above 0. -/
def fNonneg (c : Nat) : Bool := fFin c && fLe 0 c
def fPos (c : Nat) : Bool := fFin c && fLt 0 c

/-- The vessel model passes (R151). -/
def TSet.modelOk (t : TSet) : Bool :=
  let m := t.model
  ((List.range 21).all fun i => fFin (m i)) && (m 1 == m 3 && (m 2 == m 6 && (m 5 == m 7 && (fLt 0 (m 0) &&
    (fLt 0 (t.cof 2 2) && (fLt 0 t.det && (([18, 19, 20].all fun i => fLe 0 (m i)) && zeroAt t.tb 0x94 0xC0)))))))

/-- A forbidden sector from `a` clockwise to `b` is narrower than π (R152). -/
def sectorOk (a b : Nat) : Bool := fLt (reduceAngle (fSub b a)) piF

/-- Thruster entry `j` passes (R152, R153). -/
def TSet.thrOk (t : TSet) (j : Nat) : Bool :=
  let b := (t.tb.drop (0x600 + 128 * j)).take 128
  let x := thrOf t.tb j
  if t.t ≤ j then zeroAt b 0 128
  else
    let az := x.ty == 1
    let others := (t.thr.take j).any fun y => y.fold && y.bus == x.bus
    decide (1 ≤ x.ty) && (decide (x.ty ≤ 3) && (decide (x.bus < t.b) && (decide (1 ≤ leAt b 2 1) && (decide (leAt b 2 1 ≤ 8) &&
      (decide (leAt b 3 1 < 2) && (decide (leAt b 4 1 ≤ (if az then 2 else 0)) &&
        ((if az then x.sides == 8 || x.sides == 16 else x.sides == 0) && (zeroAt b 6 8 &&
          (fFin x.x && (fFin x.y && (fPos x.fmax && (fFin x.fmin && ((if az then x.fmin == 0 else fLe x.fmin x.fmax) &&
            ((if x.ty = 3 then isAngle x.alpha else x.alpha == 0) && (fNonneg x.azRate && (fPos x.fRate &&
              (isAngle x.park && (zeroAt b 56 64 &&
                (((List.range 2).all fun k => if k < x.nsect then
                    isAngle (x.sect.getD (2 * k) 0) && (isAngle (x.sect.getD (2 * k + 1) 0) &&
                      sectorOk (x.sect.getD (2 * k) 0) (x.sect.getD (2 * k + 1) 0))
                  else zeroAt b (40 + 8 * k) (48 + 8 * k)) &&
                (((List.range 8).all fun k => if k < x.segs then
                    fNonneg (leAt b (64 + 8 * k) 4) && fFin (leAt b (68 + 8 * k) 4)
                  else zeroAt b (64 + 8 * k) (72 + 8 * k)) &&
                !(x.fold && others)))))))))))))))))))))

/-- Objective `o` passes (R148, R158). -/
def TSet.objOk (t : TSet) (o : Nat) : Bool :=
  ((List.range 15).all fun i => fNonneg (t.obj o i)) && (([6, 11, 12, 13].all fun i => fLt 0 (t.obj o i)) && t.obj o 15 == 0)

/-- The backstop block passes. -/
def TSet.backOk (t : TSet) : Bool := ((List.range 13).all fun i => fNonneg (t.back i)) && zeroAt t.tb 0x174 0x180

/-- Bus entry `b` passes (R156). -/
def TSet.busOk (t : TSet) (b : Nat) : Bool := fNonneg (t.fallback b) && zeroAt t.tb (0x186 + 16 * b) (0x190 + 16 * b)

/-- Pasture entry `p` passes (R157). -/
def TSet.pastOk (t : TSet) (p : Nat) : Bool :=
  let w := t.past p
  fFin (w 0) && (fFin (w 1) && (isAngle (w 2) && (((List.range 3).all fun i =>
    fNonneg (w (3 + i)) && (fFin (w (6 + i)) && fLe (w (3 + i)) (w (6 + i)))) && (fFin (w 11) &&
      zeroAt t.tb (0x230 + 64 * p) (0x240 + 64 * p)))))

/-- Scenario entry `i` passes (R174). -/
def TSet.scenOk (t : TSet) (i : Nat) : Bool :=
  let b := t.scenBytes i
  let x := t.scen i
  let lim := ([0, t.t, t.b, t.b, 32, 1] : List Nat).getD x.kind 0
  x.kind == 0 || (decide (x.kind ≤ 5) && (decide (x.index < lim) && (decide (x.prio ≤ 3) && (decide (leAt b 1 1 < 2) &&
    ((x.v.all fun v => fFin v) && ((x.kind != 4 || x.v.all fun v => fLe 0 v) && (zeroAt b 4 8 && zeroAt b 20 24)))))))

/-- The first failure of a check in the order of R148: code and entry. `held` says that the assembler holds the bank's deed. -/
def TSet.check (t : TSet) (held readOk : Bool) : Option (Nat × Nat) :=
  let tb := t.tb
  let bad := fun (n : Nat) (ok : Nat → Bool) => (List.range n).find? fun i => !ok i
  if !held then some (1, 0)
  else if !(readOk && (tb.take 4 == ascii "DQAT" && (leAt tb 4 2 == 1 && (leAt tb 12 4 == crc32c (tb.take 12 ++ tb.drop 16) &&
      (zeroAt tb 9 10 && zeroAt tb 16 64))))) then some (2, 0)
  else if leAt tb 6 1 = 0 ∨ 24 < leAt tb 6 1 ∨ leAt tb 7 1 = 0 ∨ 8 < leAt tb 7 1 ∨ t.n < 4 ∨ 32 < t.n ∨ t.h < 100 ∨ 1000 < t.h then
    some (3, 0)
  else if !t.modelOk then some (4, 0)
  else match bad 24 t.thrOk with
  | some j => some (5, j)
  | none =>
    if !(t.objOk 0 && (t.objOk 1 && t.backOk)) then some (6, 0)
    else match bad 8 t.busOk with
    | some j => some (7, j)
    | none => match bad 16 t.pastOk with
      | some j => some (8, j)
      | none => match bad 256 t.scenOk with
        | some j => some (9, j)
        | none =>
          if 40 < t.s then some (10, 0) else if 1024 < t.nvar then some (11, 0) else if 2048 < t.m then some (12, 0)
          else if 16384 < t.nnz then some (13, 0) else none

end Sys2Proof.Machine
end

