-- ==== Sys2Proof/Machine/QpBuild.lean ====
section
/-! DEFINITION. The bellwether and its scenarios (R161–R176): linearised model, rows, masks, equilibration and images; and the
warm start they are built around (R165, R198). -/

namespace Sys2Proof.Machine

/-! ### The previous result and its shift (R198, R210) -/

/-- The address of byte `o` of the result area (R210). -/
def State.resAddr (s : State) (o : Nat) : Nat := bankAddr (min 62 (s.f Fld.LSC_RES_BANK)) o

/-- `n` binary32 values of the result area from byte `o`, read by master `m` of the device as they stand. -/
def State.resVals (s : State) (o n : Nat) : List Nat :=
  let a := s.resAddr o
  (List.range n).map fun i => s.rdLe (a + 4 * i) 4

/-- No warm start exists for a problem of `n` variables and `m` rows (R198). -/
def State.coldFor (s : State) (n m : Nat) : Bool :=
  let hn := s.rdLe (s.resAddr 16) 2
  let hm := s.rdLe (s.resAddr 18) 2
  hn == 0 || (hn != n || (hm != m || (s.rdLe (s.resAddr (0x40 + 128 + 10)) 1 == 5)))

/-- Stage values shifted by one frame: v'_k = v_k + φ·(v_{k+1} − v_k), the last stage kept (R198); `w` values a stage. -/
def shiftStages (phi w : Nat) (v : List Nat) : List Nat :=
  v.mapIdx fun i x =>
    if i + w < v.length then (Fl.add (Fl.of x) (Fl.mul (Fl.of phi) (Fl.sub (Fl.of (v.getD (i + w) 0)) (Fl.of x)))).c else x

/-- φ = 10 ms / h (R198). -/
def phiOf (h : Nat) : Nat := fRatio 10 h

/-- A warm start: x, z and y, unscaled, and whether it is cold (R198). -/
structure Warm where
  x : List Nat
  z : List Nat
  y : List Nat
  cold : Bool

/-- The warm start for a problem of `n` variables and `m` rows in `st` stages with step `h` ms (R198). -/
def State.warm (s : State) (n m st h : Nat) : Warm :=
  if s.coldFor n m then ⟨List.replicate n 0, List.replicate m 0, List.replicate m 0, true⟩
  else
    let phi := phiOf h
    let x := s.resVals 0x6000 n
    let z := s.resVals (0x6000 + 4 * n) m
    let y := s.resVals (0x6000 + 4 * n + 4 * m) m
    ⟨shiftStages phi (n / st) x, shiftStages phi (m / st) z, shiftStages phi (m / st) y, false⟩

/-! ### The linearised model (R161–R163) -/

/-- An angle wrapped to −π to below π (R161). -/
def wrapHalf (x : Nat) : Nat :=
  if !fFin x then x else lessTurns x (Dy.fdivI (Dy.add (fDy x) (fDy piF)) (fDy twoPi))

/-- What the linearisation of a frame gives. -/
structure Lin where
  ad : List (List Nat)
  e : List (List Nat)
  bd : List (List Nat)
  cd : List Nat
  x0 : List Nat
  tc : List (List Nat)
  /-- τ_env and Dq·ν₀ of R162. -/
  tau : List Nat
  dqv : List Nat
  psi : Nat
  fin : List Nat
  h : Nat

/-- Columns of the configuration matrix of one thruster. -/
def Thr.cols (x : Thr) : List (List Nat) :=
  if x.ty = 1 then [[fOne, 0, fNegate x.y], [0, fOne, x.x]]
  else if x.ty = 2 then [[0, fOne, x.x]]
  else
    let c := fCos x.alpha
    let n := fSin x.alpha
    [[c, n, sumProd [x.x, fNegate x.y] [n, c]]]

/-- c_d of the force τ + Dq·ν₀ (R162, R163). -/
def gustCd (minv e : List (List Nat)) (tau dqv : List Nat) : List Nat :=
  matVec e ([0, 0, 0] ++ matVec minv ((List.range 3).map fun i => fAdd (tau.getD i 0) (dqv.getD i 0)))

/-- The linearised, discretised model (R162, R163) for estimate block `est`, target words `tgt`, thrust `fin0` and Δ = `dl`. -/
def TSet.lin (t : TSet) (est : List Byte) (tgt : List Nat) (fin0 : List Nat) (dl : Nat) : Lin :=
  let g4 := fun o => leAt est o 4
  let nu := [g4 36, g4 40, g4 44]
  let psi := g4 32
  let tau := [g4 56, g4 60, g4 64]
  let minv := t.minv
  let dq := (List.range 3).map fun i => fMul (t.model (18 + i)) (fAbs (nu.getD i 0))
  let dmat := matOf 3 3 fun i j =>
    if i = j then fAdd (t.model (9 + 3 * i + j)) (fMul 0x40000000 (dq.getD i 0)) else t.model (9 + 3 * i + j)
  let md := matMul minv dmat 3
  let c := fCos psi
  let n := fSin psi
  let cm : List (List Nat) := [[c, fNegate n, 0], [n, c, 0], [0, 0, fOne]]
  let a := matOf 6 6 fun i j =>
    if j < 3 then 0 else if i < 3 then ent cm i (j - 3) else fNegate (ent md (i - 3) (j - 3))
  let cols := (t.thr.map Thr.cols).flatten
  let nf := cols.length
  let tc := matOf 3 nf fun i v => ent cols v i
  let bc : List (List Nat) := List.replicate 3 (List.replicate nf 0) ++ matMul minv tc nf
  let dqv := (List.range 3).map fun i => fMul (dq.getD i 0) (nu.getD i 0)
  let g := [0, 0, 0] ++ matVec minv ((List.range 3).map fun i => fAdd (tau.getD i 0) (dqv.getD i 0))
  let h := fRatio (Int.ofNat t.h) 1000
  let hh := fMul h h
  let aa := matMul a a 6
  let half := fun x => fDiv x 0x40000000
  let ad := matOf 6 6 fun i j => fAdd (fAdd (idEnt i j) (fMul h (ent a i j))) (half (fMul hh (ent aa i j)))
  let e := matOf 6 6 fun i j => fAdd (fMul h (idEnt i j)) (half (fMul hh (ent a i j)))
  let fin := (List.range nf).map fun v => fin0.getD v 0
  let x := [fSub (g4 24) (tgt.getD 0 0), fSub (g4 28) (tgt.getD 1 0), wrapHalf (fSub psi (tgt.getD 2 0))] ++ nu
  let ax := matVec a x
  let bf := matVec bc fin
  let xd := (List.range 6).map fun i => fAdd (fAdd (ax.getD i 0) (bf.getD i 0)) (g.getD i 0)
  let hd := half (fMul dl dl)
  let ha := matVec (matOf 6 6 fun i j => fMul hd (ent a i j)) xd
  { ad := ad, e := e, bd := matMul e bc nf, cd := matVec e g, tc := tc, tau := tau, dqv := dqv, psi := psi, fin := fin, h := h
    x0 := if dl = 0 then x else (List.range 6).map fun i =>
      fAdd (fAdd (x.getD i 0) (fMul dl (xd.getD i 0))) (ha.getD i 0) }

/-! ### Rows (R164–R168) -/

/-- The family of a row (R166) with what masks and scenarios need to know of it. -/
inductive RTag where
  | dyn (k i : Nat)
  | past (i : Nat) (upper : Bool)
  | rate (j : Nat)
  | poly (j : Nat)
  | sect (j : Nat)
  | epi (j : Nat)
  | purse (b : Nat) (bk : Option Nat)
  | thrust (j : Nat)
  | pi (j : Nat)
  | slack (i : Nat)
deriving DecidableEq, Repr

/-- One row: nonzeros by ascending column, bounds, family. -/
structure QRow where
  ents : List (Nat × Nat)
  lo : Nat
  hi : Nat
  tag : RTag
deriving DecidableEq, Repr

/-- The infinities. -/
def posInf : Nat := 0x7F800000
def negInf : Nat := 0xFF800000

/-- The first thrust variable of thruster `j` and the index of its epigraph variable within a stage (R164). -/
def TSet.fIdx (t : TSet) (j : Nat) : Nat := ((t.thr.take j).map Thr.vars).sum
def TSet.piIdx (t : TSet) (j : Nat) : Nat := t.nf + ((t.thr.take j).filter fun x => !x.fold).length

/-- Direction and magnitude of azimuth thruster `j` at stage `k` of the warm start (R165). -/
def TSet.dir (t : TSet) (wx : List Nat) (k j : Nat) (x : Thr) : Nat × Nat × Nat :=
  let fx := wx.getD (k * t.s + t.fIdx j) 0
  let fy := wx.getD (k * t.s + t.fIdx j + 1) 0
  let mag := fSqrt (sumProd [fx, fy] [fx, fy])
  if fLt mag (fMul 0x3C23D70A x.fmax) then (fCos x.park, fSin x.park, mag) else (fDiv fx mag, fDiv fy mag, mag)

/-- The signs of ±t: +t, then −t where m_j is 2 (R166). -/
def Thr.signs (x : Thr) : List Bool := if x.mj = 2 then [false, true] else [false]

/-- The nonzeros of a·F, of either sign, for thruster `j` at stage `k` (R166). -/
def TSet.fTerm (t : TSet) (k j : Nat) (x : Thr) (d : Nat × Nat × Nat) (a : Nat) (neg : Bool) : List (Nat × Nat) :=
  let v := k * t.s + t.fIdx j
  let sg := fun c => if neg then fNegate c else c
  if x.ty = 1 then [(v, sg (fMul a d.1)), (v + 1, sg (fMul a d.2.1))] else [(v, sg a)]

/-- The nearer edge of a sector to a direction, and whether it is the start (R168). -/
def nearEdge (d : Nat × Nat × Nat) (a b : Nat) : Nat × Bool :=
  let ca := sumProd [d.1, d.2.1] [fCos a, fSin a]
  let cb := sumProd [d.1, d.2.1] [fCos b, fSin b]
  if fLt ca cb then (b, false) else (a, true)

/-- The rows of stage `k` (R166): `lim` gives each section's limit P_b, `outer` the outer half-widths. -/
def TSet.stageRows (t : TSet) (l : Lin) (wx lim outer : List Nat) (k : Nat) : List QRow :=
  let base := k * t.s
  let so := t.nf + t.npi
  let xo := so + 3
  let ths := t.thr.mapIdx fun j x => (j, x, t.dir wx k j x)
  let dyn := (List.range 6).map fun i =>
    let prev := if k = 0 then [] else (List.range 6).map fun c => ((k - 1) * t.s + xo + c, fNegate (ent l.ad i c))
    let b := if k = 0 then fAdd (l.cd.getD i 0) (sumProd (l.ad.getD i []) l.x0) else l.cd.getD i 0
    (⟨prev ++ ((List.range t.nf).map fun v => (base + v, fNegate (ent l.bd i v))) ++ [(base + xo + i, fOne)], b, b, .dyn k i⟩ : QRow)
  let past := ((List.range 3).map fun i =>
    let o := outer.getD i 0
    [(⟨[(base + so + i, fNegate fOne), (base + xo + i, fOne)], negInf, o, .past i true⟩ : QRow),
     ⟨[(base + so + i, fOne), (base + xo + i, fOne)], fNegate o, posInf, .past i false⟩]).flatten
  let rate := (ths.map fun (j, x, d) =>
    let bnd := if x.ty = 1 then fMul l.h (fAdd x.fRate (fMul x.azRate d.2.2)) else fMul l.h x.fRate
    (List.range x.vars).map fun c =>
      let v := base + t.fIdx j + c
      if k = 0 then
        let f := l.fin.getD (t.fIdx j + c) 0
        (⟨[(v, fOne)], fSub f bnd, fAdd f bnd, .rate j⟩ : QRow)
      else ⟨[(v - t.s, fNegate fOne), (v, fOne)], fNegate bnd, bnd, .rate j⟩).flatten
  let poly := (ths.map fun (j, x, _) =>
    if x.ty ≠ 1 then [] else (List.range x.sides).map fun m =>
      let th := fDiv (fMul twoPi (fOfInt (Int.ofNat m))) (fOfInt (Int.ofNat x.sides))
      let v := base + t.fIdx j
      (⟨[(v, fCos th), (v + 1, fSin th)], negInf, fMul x.fmax (fCos (fDiv piF (fOfInt (Int.ofNat x.sides)))), .poly j⟩ : QRow)).flatten
  let sect := (ths.map fun (j, x, d) =>
    if x.ty ≠ 1 then [] else (List.range x.nsect).map fun q =>
      let e := nearEdge d (x.sect.getD (2 * q) 0) (x.sect.getD (2 * q + 1) 0)
      let v := base + t.fIdx j
      (⟨[(v, fNegate (fSin e.1)), (v + 1, fCos e.1)], if e.2 then negInf else 0, if e.2 then 0 else posInf, .sect j⟩ : QRow)).flatten
  let epi := (ths.map fun (j, x, d) =>
    if x.fold then [] else ((x.seg.take x.segs).map fun sg => x.signs.map fun ng =>
      (⟨t.fTerm k j x d sg.1 (!ng) ++ [(base + t.piIdx j, fOne)], sg.2, posInf, .epi j⟩ : QRow)).flatten).flatten
  let purse := ((List.range t.b).map fun b =>
    let pis := ths.filterMap fun (j, x, _) => if !x.fold && x.bus == b then some (base + t.piIdx j, fOne) else none
    let p := lim.getD b 0
    match ths.find? fun (_, x, _) => x.fold && x.bus == b with
    | none => [(⟨pis, negInf, p, .purse b none⟩ : QRow)]
    | some (j, x, d) => ((x.seg.take x.segs).map fun sg => x.signs.map fun ng =>
        (⟨t.fTerm k j x d sg.1 ng ++ pis, negInf, fSub p sg.2, .purse b (some sg.2)⟩ : QRow)).flatten).flatten
  let bt := ths.filterMap fun (j, x, _) =>
    if x.ty = 1 then none else some (⟨[(base + t.fIdx j, fOne)], x.fmin, x.fmax, .thrust j⟩ : QRow)
  let bp := ths.filterMap fun (j, x, _) => if x.fold then none else some (⟨[(base + t.piIdx j, fOne)], 0, posInf, .pi j⟩ : QRow)
  let bs := (List.range 3).map fun i => (⟨[(base + so + i, fOne)], 0, posInf, .slack i⟩ : QRow)
  dyn ++ past ++ rate ++ poly ++ sect ++ epi ++ purse ++ bt ++ bp ++ bs

/-! ### Masks and scenarios (R154, R175) -/

/-- Thrusters `js` removed (R175, kind 1). -/
def QRow.lose (js : List Nat) (r : QRow) : QRow :=
  match r.tag with
  | .poly j => if js.contains j then { r with hi := 0 } else r
  | .thrust j => if js.contains j then { r with lo := 0, hi := 0 } else r
  | .pi j => if js.contains j then { r with lo := 0, hi := 0 } else r
  | .rate j => if js.contains j then { r with lo := negInf, hi := posInf } else r
  | .epi j => if js.contains j then { r with lo := negInf, hi := posInf } else r
  | .dyn _ _ | .past _ _ | .sect _ | .purse _ _ | .slack _ => r

/-- The purse rows of sections `bs` disabled (R175, kind 2). -/
def QRow.drop (bs : List Nat) (r : QRow) : QRow :=
  match r.tag with
  | .purse b _ => if bs.contains b then { r with lo := negInf, hi := posInf } else r
  | _ => r

/-- The purse of section `b` replaced by `p` (R175, kind 3). -/
def QRow.newPurse (b p : Nat) (r : QRow) : QRow :=
  match r.tag with
  | .purse c bk => if c = b then { r with hi := (bk.map fun k => fSub p k).getD p } else r
  | _ => r

/-- The outer half-widths reduced by `v`, not below 0 (R175, kind 4). -/
def QRow.tighten (outer v : List Nat) (r : QRow) : QRow :=
  match r.tag with
  | .past i up =>
    let o := fMax 0 (fSub (outer.getD i 0) (v.getD i 0))
    if up then { r with hi := o } else { r with lo := fNegate o }
  | _ => r

/-- The dynamics right-hand sides replaced (R175, kind 5). -/
def QRow.gust (l : Lin) (cd : List Nat) (r : QRow) : QRow :=
  match r.tag with
  | .dyn k i =>
    let b := if k = 0 then fAdd (cd.getD i 0) (sumProd (l.ad.getD i []) l.x0) else cd.getD i 0
    { r with lo := b, hi := b }
  | _ => r

/-! ### Equilibration (R171) -/

/-- The exponent of |v|, read exactly; none for 0. -/
def ilog2 (c : Nat) : Option Int :=
  let d := fDy c
  if d.m = 0 then none else some (Int.ofNat (Nat.log2 d.m.natAbs) + d.e)

/-- The larger of two optional exponents. -/
def optMax (a b : Option Int) : Option Int :=
  match a, b with
  | some x, some y => some (max x y)
  | some x, none => some x
  | none, y => y

/-- Row and column exponents. -/
structure Exps where
  rho : List Int
  kap : Array Int

/-- One pass of R171 over rows of (column, exponent) and the exponents of P. -/
def eqPass (rows : List (List (Nat × Int))) (p : List (Option Int)) (x : Exps) : Exps :=
  let rho := (rows.zip x.rho).map fun (r, e) =>
    match r.foldl (fun m q => optMax m (some (q.2 + x.kap.getD q.1 0))) none with
    | none => e
    | some m => e - fdiv (m + e) 2
  let cm := (rows.zip rho).foldl (fun (a : Array (Option Int)) (r, e) =>
    r.foldl (fun a q => a.setIfInBounds q.1 (optMax (a.getD q.1 none) (some (e + q.2)))) a) (Array.replicate x.kap.size none)
  let kap := (List.range x.kap.size).map fun j =>
    let k := x.kap.getD j 0
    match optMax ((cm.getD j none).map (· + k)) ((p.getD j none).map (· + 2 * k)) with
    | none => k
    | some m => k - fdiv m 2
  ⟨rho.map (clampI (-60) 60), (kap.map (clampI (-60) 60)).toArray⟩

/-- A value scaled by 2^k, and whether the scaling was inexact (R171). -/
def scaleX (c : Nat) (k : Int) : Nat × Bool :=
  if !fFin c then (c, false)
  else
    let r := fScale c k
    (r, !fFin r || Dy.cmp (fDy r) ⟨(fDy c).m, (fDy c).e + k⟩ != 0)

/-- The equilibrated bellwether. -/
structure Bell where
  n : Nat
  m : Nat
  nnz : Nat
  gamma : Int
  x : Exps
  p : List Nat
  q : List Nat
  rows : List QRow
  vals : List Nat
  inexact : Bool

/-- Bounds of rows scaled by 2^ρ (R171). -/
def scaleBounds (x : Exps) (rows : List QRow) : List (Nat × Bool) × List (Nat × Bool) :=
  ((rows.zip x.rho).map fun (r, e) => scaleX r.lo e, (rows.zip x.rho).map fun (r, e) => scaleX r.hi e)

/-- Equilibration of the rows and the diagonal objective (R171). -/
def equilibrate (n : Nat) (rows : List QRow) (p q : List Nat) : Bell :=
  let er := rows.map fun r => r.ents.filterMap fun e => (ilog2 e.2).map fun i => (e.1, i)
  let ep := p.map ilog2
  let x := (List.range 8).foldl (fun x _ => eqPass er ep x) ⟨List.replicate rows.length 0, Array.replicate n 0⟩
  let gm := (List.range n).foldl (fun m j =>
    let k := x.kap.getD j 0
    optMax m (optMax ((ep.getD j none).map (· + 2 * k)) ((ilog2 (q.getD j 0)).map (· + k)))) none
  let g := clampI (-128) 127 (-(gm.getD 0))
  let sv := ((rows.zip x.rho).map fun (r, e) => r.ents.map fun t => scaleX t.2 (e + x.kap.getD t.1 0)).flatten
  let sp := p.mapIdx fun j c => scaleX c (g + 2 * x.kap.getD j 0)
  let sq := q.mapIdx fun j c => scaleX c (g + x.kap.getD j 0)
  let sb := scaleBounds x rows
  { n := n, m := rows.length, nnz := sv.length, gamma := g, x := x, p := sp.map fun v => v.1, q := sq.map fun v => v.1, rows := rows,
    vals := sv.map fun v => v.1,
    inexact := (sv ++ sp ++ sq ++ sb.1 ++ sb.2).any fun v => v.2 }

/-! ### Objective and images (R169, R172) -/

/-- The diagonal of P and the vector q (R169) with objective `o`. -/
def TSet.objective (t : TSet) (o : Nat) : List Nat × List Nat :=
  let w := t.obj o
  let two := fun c => fMul 0x40000000 c
  let st := fun k =>
    List.replicate t.nf (two (w 6)) ++ List.replicate t.npi 0 ++ ((List.range 3).map fun i => two (w (11 + i))) ++
      (List.range 6).map fun i => if k + 1 = t.n then fMul (two (w i)) (w 14) else two (w i)
  let sq := List.replicate t.nf 0 ++ List.replicate t.npi (w 7) ++ ((List.range 3).map fun i => w (8 + i)) ++ List.replicate 6 0
  (((List.range t.n).map st).flatten, ((List.range t.n).map fun _ => sq).flatten)

/-- Bytes padded with zeros to a multiple of 64. -/
def pad64 (b : List Byte) : List Byte := b ++ zeros ((64 - b.length % 64) % 64)

/-- Words of 32 bits as bytes. -/
def words32 (l : List Nat) : List Byte := (l.map fun x => leBytes 4 x).flatten

/-- The 64-byte header of a quadratic-programming image (R172). -/
def qpHeader (t : TSet) (b : Bell) (kind frame index prio obj addr : Nat) : List Byte :=
  padTo 64 (ascii "DQQP" ++ leBytes 2 1 ++ leBytes 1 kind ++ leBytes 1 (uns 8 b.gamma) ++ leBytes 8 frame ++ leBytes 2 b.n ++
    leBytes 2 b.m ++ leBytes 2 b.nnz ++ leBytes 1 t.s ++ leBytes 1 t.n ++ leBytes 2 index ++ leBytes 1 prio ++ leBytes 1 obj ++
    leBytes 5 addr)

/-- The bellwether image (R172). -/
def bellImage (t : TSet) (b : Bell) (frame obj : Nat) : List Byte :=
  let sb := scaleBounds b.x b.rows
  let ptr := b.rows.foldl (fun (a : List Byte × Nat) r => (a.1 ++ leBytes 2 (a.2 + r.ents.length), a.2 + r.ents.length)) (leBytes 2 0, 0)
  qpHeader t b 0 frame 0xFFFF 0 obj 0 ++ pad64 (words32 b.p) ++ pad64 (words32 b.q) ++ pad64 (words32 (sb.1.map fun v => v.1)) ++
    pad64 (words32 (sb.2.map fun v => v.1)) ++ pad64 ptr.1 ++
    pad64 ((b.rows.map fun r => (r.ents.map fun e => leBytes 2 e.1).flatten).flatten) ++ pad64 (words32 b.vals) ++
    pad64 ((b.x.rho.map fun e => leBytes 1 (uns 8 e)).flatten) ++ pad64 ((b.x.kap.toList.map fun e => leBytes 1 (uns 8 e)).flatten)

/-- A scenario image (R172): its header, l and u; and whether its scaling was inexact. -/
def scenImage (t : TSet) (b : Bell) (rows : List QRow) (frame index prio obj addr : Nat) : List Byte × Bool :=
  let sb := scaleBounds b.x rows
  (qpHeader t b 1 frame index prio obj addr ++ pad64 (words32 (sb.1.map fun v => v.1)) ++ pad64 (words32 (sb.2.map fun v => v.1)),
    (sb.1 ++ sb.2).any fun v => v.2)

/-- The rows of a scenario (R175): `lostT`, `lostB` are what the masks removed already, `batt` each section's limit without
battery. -/
def TSet.scenRows (t : TSet) (l : Lin) (outer batt : List Nat) (lostT lostB : List Nat) (x : Scen) (rows : List QRow) : List QRow :=
  if x.kind = 1 then (if lostT.contains x.index then rows else rows.map (QRow.lose [x.index]))
  else if x.kind = 2 then
    if lostB.contains x.index then rows
    else
      let js := (List.range t.t).filter fun j => ((t.thr.map fun y => y.bus).getD j 99 == x.index) && !lostT.contains j
      rows.map fun r => (r.lose js).drop [x.index]
  else if x.kind = 3 then (if lostB.contains x.index then rows else rows.map (QRow.newPurse x.index (batt.getD x.index 0)))
  else if x.kind = 4 then rows.map (QRow.tighten outer x.v)
  else if x.kind = 5 then
    let cd := gustCd t.minv l.e ((List.range 3).map fun i => fAdd (l.tau.getD i 0) (x.v.getD i 0)) l.dqv
    rows.map (QRow.gust l cd)
  else rows

end Sys2Proof.Machine
end

