-- ==== Sys2Proof/Machine/Assembler.lean ====
section
/-! DEFINITION. The assembler (R146–R182): table checks and selection, purses, the estimate block, the job list and the images
of a frame's jobs. -/

namespace Sys2Proof.Machine

/-- The selected table set (R149), read from its bank. -/
def State.tset (s : State) : Option TSet := s.asm.sel.map fun b => tsetOf (s.rdN (bankAddr b 0) 12800)

/-! ### Table checks (R148–R150) -/

/-- The predicted time of R180 in ns: with Q scenarios and with the least-squares kinds enabled (64 fix records). -/
def State.tPred (s : State) (t : TSet) : Nat :=
  90000 + 4000 * t.n + 40 * t.nnz + 2 * t.m * min 94 (s.f Fld.ASM_SCEN_PER_FRAME) + 4000 +
    (if s.fb Fld.ASM_FIX_LOC_EN then 2000 + 400 * 64 else 0) + (if s.fb Fld.ASM_LSQ_CAL_EN then 17000 else 0)

/-- A write of `ASM_TBL_CHK` by software (R148, R150). -/
def doTblCtl (s : State) (v : Word) : State :=
  let b := bitsOf v.toNat 5 0
  let s1 := (s.setF Fld.ASM_TBL_CHK_TO (bitsOf v.toNat 27 23)).setF Fld.ASM_TBL_CHK_BANK b
  let s2 := if bitOf v.toNat 30 && s.asm.sel != some b then s1.framePass 24 b (bitsOf v.toNat 27 23) else s1
  (if bitOf v.toNat 31 && !s.fb Fld.ASM_TBL_CHK_BUSY then
    let s3 : State := { s2 with asm := { s2.asm with chk := some b } }
    (((s3.setF Fld.ASM_TBL_CHK_BUSY 1).setF Fld.ASM_TBL_CHK_OK 0).setF Fld.ASM_TBL_CHK_ERR 0).setF Fld.ASM_TBL_CHK_ENTRY 0
  else s2).ok

/-- A check completes (R148). -/
def State.checkDone (s : State) (b : Nat) : State :=
  let held := s.holder b == 24
  let r := s.mRead 24 (bankAddr b 0) 12800
  let t := tsetOf (padTo 12800 r.data)
  let c := t.check held (r.rsp == .okay)
  let others := r.st.asm.passed.filter fun x => x != b
  let s1 : State := { r.st with asm := { r.st.asm with chk := none, passed := if c.isNone then b :: others else others } }
  let s2 := (((s1.setF Fld.ASM_TBL_CHK_BUSY 0).setF Fld.ASM_TBL_CHK_OK (b2n c.isNone)).setF Fld.ASM_TBL_CHK_ERR
    ((c.map fun x => x.1).getD 0)).setF Fld.ASM_TBL_CHK_ENTRY ((c.map fun x => x.2).getD 0)
  let s3 := ((s2.setF Fld.ASM_SIZE_A_S (min 63 t.s)).setF Fld.ASM_SIZE_A_NVAR (min 2047 t.nvar)).setF Fld.ASM_SIZE_A_HB (min 127 (t.s + 5))
  let s4 := (s3.setF Fld.ASM_SIZE_B_NNZ (min 65535 t.nnz)).setF Fld.ASM_SIZE_B_ROWS (min 65535 t.m)
  (s4.setF Fld.ASM_TPRED_NS (min 1048575 (s.tPred t))).raise Ev.ASM_CHK_DONE

/-! ### Purses (R155, R156) -/

/-- The four values of a purse: discharge, charge, generator, reserve (R155). -/
def State.purse (s : State) (b : Nat) : List Nat :=
  [(s.reg (Adr.ASM_PURSE_DIS b)).toNat, (s.reg (Adr.ASM_PURSE_CHG b)).toNat, (s.reg (Adr.ASM_PURSE_GEN b)).toNat,
   (s.reg (Adr.ASM_PURSE_RES b)).toNat]

/-- Section `b`'s purse is stale under table set `t` (R156). -/
def State.purseStale (s : State) (t : TSet) (b : Nat) : Bool :=
  decide (t.threshold b ≤ s.f (Fld.ASM_PURSE_AGE_AGE b)) || (s.purse b).any fun v => !fNonneg v

/-- The limit P_b of section `b` (R155, R156). -/
def State.purseLim (s : State) (t : TSet) (b : Nat) : Nat :=
  let p := s.purse b
  if s.purseStale t b then t.fallback b else fSub (fAdd (p.getD 0 0) (p.getD 2 0)) (p.getD 3 0)

/-- Section `b`'s limit with its battery lost (R175, kind 3). -/
def State.purseBatt (s : State) (t : TSet) (b : Nat) : Nat :=
  let p := s.purse b
  if s.purseStale t b then t.fallback b else fSub (p.getD 2 0) (p.getD 3 0)

/-- The purses at a B0 commit: ages, staleness and its onset (R156); `first` at the commit that first selects a table set. -/
def State.purseStep (s : State) (first : Bool) : State :=
  let ages := forUp 8 (fun b t =>
    let q := (t.reg (Adr.ASM_PURSE_SEQ b)).toNat
    if q = t.asm.seqs.getD b 0 then t.setF (Fld.ASM_PURSE_AGE_AGE b) (min 65535 (t.f (Fld.ASM_PURSE_AGE_AGE b) + 1))
    else ({ t with asm := { t.asm with seqs := setNth t.asm.seqs b q } } : State).setF (Fld.ASM_PURSE_AGE_AGE b) 0) s
  match ages.tset with
  | none => forUp 8 (fun b t => t.setReg (Adr.ASM_PURSE_LIM b) 0) (ages.setF Fld.ASM_STAT_STALE 255)
  | some t =>
    let old := ages.f Fld.ASM_STAT_STALE
    let new := (List.range 8).foldl (fun m b => if ages.purseStale t b then m + 2 ^ b else m) 0
    let on := (List.range 8).any fun b => bitOf new b && (first || !bitOf old b)
    let s1 := ages.setF Fld.ASM_STAT_STALE new
    if on then s1.raise Ev.ASM_PURSE_STALE else s1

/-! ### Selection (R149) -/

/-- The table-set selection at a B0 commit: `w` is the shadow of `ASM_TBL_SEL`. -/
def State.tblCommit (s : State) (w : Word) : State :=
  let b := bitsOf w.toNat 5 0
  let want := if bitOf w.toNat 31 then some b else none
  if want = s.asm.sel ∧ s.reg Adr.ASM_TBL_SEL = w ∧ s.asm.selNew = false then s
  else if want ≠ none ∧ (want ≠ s.asm.sel ∨ s.asm.selNew = true) ∧ ¬(s.asm.passed.contains b) then
    if s.asm.selNew then ({ s with asm := { s.asm with selNew := false } } : State).raise Ev.ASM_TBL_REFUSED else s
  else
    let s1 : State := { s with asm := { s.asm with sel := want, selNew := false } }
    (s1.setReg Adr.ASM_TBL_SEL w).setF Fld.ASM_STAT_READY (b2n want.isSome)

/-! ### B7: estimate block and job list (R159, R160, R176, R178–R181, R189) -/

/-- The location of a block given in units of 64 bytes. -/
def State.locAddr (s : State) (bank ofs : RF) : Nat := bankAddr (s.f bank) (64 * s.f ofs)

/-- T_c, the disciplined time of the frame's B36 edge (R160). -/
def State.tCommand (s : State) : Nat := uns 64 (Int.ofNat (s.frm.lastB0.getD 0) + 9000000)

/-- The estimate copy in the edge cycle of B7 (R160). -/
def State.estCopy (s : State) : State :=
  let r := s.mRead 24 (s.locAddr Fld.ASM_EST_LOC_BANK Fld.ASM_EST_LOC_OFS) 128
  if r.rsp = .okay ∧ leAt r.data 0 8 = s.frame then { r.st with asm := { r.st.asm with est := r.data } }
  else
    ({ r.st with frm := { r.st.frm with estLate := true } } : State).stick Fld.ASM_EST_LATE_CNT_COUNT Fld.ASM_EST_LATE_CNT_SAT 1

/-- The estimate block in use is usable (R160). -/
def State.estUsable (s : State) : Bool :=
  let d := sgn 64 (uns 64 (Int.ofNat s.tCommand - Int.ofNat (leAt s.asm.est 8 8)))
  s.estValid && (decide (0 ≤ d) && decide (d ≤ 1000000000))

/-- A job descriptor as first written, pending or not assembled (R189). -/
def pendingDesc (frame kind prio st index : Nat) : List Byte :=
  padTo 64 (leBytes 1 kind ++ leBytes 1 prio ++ leBytes 1 st ++ zeros 1 ++ leBytes 2 index ++ zeros 2 ++ leBytes 8 frame)

/-- The scenarios of frame `f` (R176). -/
def scenariosOf (t : TSet) (q f : Nat) : List Nat :=
  let pin := t.pinned.take q
  let rest := q - pin.length
  let un := t.unpinned
  pin ++ (List.range (min rest un.length)).map fun i => un.getD ((f * rest + i) % un.length) 0

/-- The fix table of this frame and its record count (R178). -/
def State.fixTable (s : State) : State × Option (List Byte × Nat) :=
  if !s.fb Fld.ASM_FIX_LOC_EN then (s, none)
  else
    let a := s.locAddr Fld.ASM_FIX_LOC_BANK Fld.ASM_FIX_LOC_OFS
    let r := s.mRead 24 a 64
    let n := leAt r.data 8 1
    if r.rsp = .okay ∧ leAt r.data 0 8 = s.frame ∧ 5 ≤ n ∧ n ≤ 64 then
      let d := r.st.mRead 24 a (64 + 32 * n)
      (d.st, if d.rsp = .okay then some (d.data, n) else none)
    else (r.st, none)

/-- The port of this frame's LSQ-CAL job (R179). -/
def State.calPort (s : State) : Option Nat :=
  let d := max 1 (s.f Fld.ASM_LSQ_CAL_DIV)
  let ps := (List.range 32).filter fun p =>
    s.fb (Fld.FUS_PORT_CFG_CAL_EN p) && ((s.groupOf p).isSome && s.f (Fld.FUS_PORT_QUEUE_CAL_PAIRS p) == 64)
  if s.fb Fld.ASM_LSQ_CAL_EN && (s.frame % d == 0 && !ps.isEmpty) then ps[s.frame / d % ps.length]? else none

/-- The job list of the frame, every entry pending (R160, R180, R181, R189). -/
def State.jobList (s : State) (t : Option TSet) : State × List (List Byte) :=
  let f := s.frame
  match t with
  | none => (s, [pendingDesc f 2 0 3 0xFFFF, pendingDesc f 0 0 3 0xFFFF])
  | some t =>
    let qp := s.asm.usable && s.asm.past
    let sc := if qp then scenariosOf t (min 94 (s.f Fld.ASM_SCEN_PER_FRAME)) f else []
    let (s1, fix) := s.fixTable
    let cal := s1.calPort
    (s1, [pendingDesc f 2 0 0 0xFFFF, pendingDesc f 0 0 (if qp then 0 else 3) 0xFFFF] ++
      (sc.map fun i => pendingDesc f 1 (t.scen i).prio 0 i) ++ (fix.map fun _ => pendingDesc f 3 0 0 0xFFFF).toList ++
      (cal.map fun p => pendingDesc f 4 0 0 p).toList)

/-- The assembler at the B7 edge (R160, R180). -/
def State.asmB7 (s : State) : State :=
  if !s.frm.runs || !s.works 42 then s
  else
    let s1 := s.estCopy
    let us := s1.estUsable
    let pa := s1.fb Fld.ASM_PAST_SEL_VALID
    let t := s1.tset
    let s2 : State := { s1 with asm := { s1.asm with usable := us, past := pa, listed := true, b7 := s1.tim.raw } }
    let s3 := (s2.setF Fld.ASM_STAT_NO_EST (b2n !us)).setF Fld.ASM_STAT_NO_PAST (b2n !pa)
    let s4 := match t with
      | none => s3
      | some t =>
        ((s3.setF Fld.ASM_SCEN_STAT_PINNED t.pinned.length).setF Fld.ASM_SCEN_STAT_U t.unpinned.length).setF
          Fld.ASM_SCEN_STAT_PIN_OVER (b2n (decide (min 94 (s.f Fld.ASM_SCEN_PER_FRAME) < t.pinned.length)))
    let no := !(us && (pa && t.isSome))
    let s5 := if no && !s4.asm.noQp then s4.raise Ev.ASM_NO_QP else s4
    let (s6, js) := ({ s5 with asm := { s5.asm with noQp := no } } : State).jobList t
    { s6 with lsc := { s6.lsc with jobs := js } }

/-! ### Images (R172, R173, R177–R180, R206) -/

/-- Thrusters and sections the masks remove (R154). -/
def State.lostThr (s : State) (t : TSet) : List Nat :=
  (List.range t.t).filter fun j => !bitOf (s.f Fld.ASM_THR_AVAIL_AVAIL) j ||
    !bitOf (s.f Fld.ASM_BUS_AVAIL_AVAIL) ((t.thr.map fun x => x.bus).getD j 0)
def State.lostBus (s : State) (t : TSet) : List Nat := (List.range t.b).filter fun b => !bitOf (s.f Fld.ASM_BUS_AVAIL_AVAIL) b

/-- The objective of the frame: 1 in `GRAZE` (R169). -/
def State.objSel (s : State) : Nat := if s.frm.mode = 2 then 1 else 0

/-- The linearisation of the frame: at the estimate propagated to T_c, or at the last accepted block as it stands (R160). -/
def State.frameLin (s : State) (t : TSet) : Lin :=
  let est := padTo 128 s.asm.est
  let i := s.f Fld.ASM_PAST_SEL_IDX
  let tgt := if s.asm.past then [t.past i 0, t.past i 1, t.past i 2] else [0, 0, 0]
  t.lin est tgt s.asm.fin (if s.asm.usable then secondsF s.tCommand (leAt est 8 8) else 0)

/-- The manual demand: `MAN_GAIN` × slot outputs as fractions of full scale (R177). -/
def State.tauMan (s : State) (t : TSet) : List Nat :=
  (List.range 3).map fun i => fMul (t.back (10 + i)) (ieee (codeOf false ⟨s.asm.man.getD i 0, -31⟩))

/-- The backstop image (R177, R206). Where the frame has no usable estimate or no pasture the gains are 0, so that the demand is
−τ_env. -/
def State.backImage (s : State) (t : TSet) (l : Lin) : List Byte :=
  let gain := s.asm.usable && s.asm.past
  let kd := (List.range 6).map fun i => if gain then t.back i else 0
  let lost := s.lostThr t
  let hd := padTo 64 (ascii "DQLS" ++ leBytes 2 1 ++ leBytes 1 2 ++ leBytes 1 s.frm.mode ++ leBytes 8 s.frame ++ zeros 2 ++
    leBytes 2 t.nf ++ leBytes 1 t.n ++ leBytes 1 t.t)
  let a := l.ad.flatten ++ l.cd ++ l.x0 ++ [fCos l.psi, fSin l.psi] ++ kd ++ [t.back 6, t.back 7, t.back 8, t.obj s.objSel 6, t.back 9] ++
    l.tau ++ s.tauMan t ++ [l.h]
  let b := ((List.range t.nf).map fun v => column l.tc v ++ column l.bd v ++ [l.fin.getD v 0]).flatten
  let c := (t.thr.mapIdx fun j x =>
    let r := if x.sides = 0 then 0 else fMul x.fmax (fCos (fDiv piF (fOfInt (Int.ofNat x.sides))))
    padTo 64 (leBytes 1 x.ty ++ leBytes 1 (b2n !lost.contains j) ++ leBytes 1 x.sides ++ leBytes 1 x.nsect ++
      words32 ([r, x.fmin, x.fmax, fMul l.h x.fRate, fMul l.h x.azRate] ++ x.sect))).flatten
  hd ++ pad64 (words32 a) ++ pad64 (words32 b) ++ c

/-- The LSQ-FIX image of a fix table with `n` records (R178, R206). -/
def fixImage (t : TSet) (frame n : Nat) (d : List Byte) : List Byte :=
  padTo 64 (ascii "DQLS" ++ leBytes 2 1 ++ leBytes 1 3 ++ zeros 1 ++ leBytes 8 frame ++ leBytes 2 n ++ leBytes 2 4 ++ leBytes 1 t.n ++
    leBytes 1 t.t) ++ pad64 ((d.drop 64).take (32 * n) ++ (d.drop 12).take 12)

/-- The LSQ-CAL image of port `p` (R179, R206). -/
def State.calImage (s : State) (t : TSet) (p : Nat) : List Byte :=
  padTo 64 (ascii "DQLS" ++ leBytes 2 1 ++ leBytes 1 4 ++ zeros 1 ++ leBytes 8 s.frame ++ leBytes 2 64 ++ leBytes 2 3 ++ leBytes 1 t.n ++
    leBytes 1 t.t) ++
    pad64 ((s.fusOf p).pairs.flatten ++ words32 ((List.range 6).map fun w => (s.reg (Adr.FUS_MOUNT p w)).toNat))

/-- A descriptor whose image has been issued: budget, location and numbers (R189). -/
def State.fillDesc (s : State) (t : TSet) (d : List Byte) (addr len : Nat) : List Byte :=
  let k := leAt d 0 1
  let kb := if k = 0 then max 1 (s.f Fld.LSC_BUDGET_K_BW) else if k = 1 then max 1 (s.f Fld.LSC_BUDGET_K_SC) else 0
  let ea := if k = 0 then s.f Fld.LSC_BUDGET_EARLY_BW else if k = 1 then s.f Fld.LSC_BUDGET_EARLY_SC else 0
  let tail := leBytes 1 (s.f Fld.LSC_RHO_CUR_EXP) ++ leBytes 1 (s.f Fld.LSC_NUM_SIGMA) ++ leBytes 1 (s.f Fld.LSC_NUM_TAU) ++
    leBytes 1 (s.f Fld.LSC_BUDGET_ALPHA) ++ leBytes 1 (t.nf + t.npi) ++ leBytes 1 t.s ++ leBytes 1 t.n
  padTo 64 (d.take 2 ++ leBytes 1 1 ++ (d.drop 3).take 3 ++ leBytes 1 kb ++ leBytes 1 ea ++ (d.drop 8).take 8 ++ leBytes 5 addr ++
    zeros 3 ++ leBytes 4 len ++ tail)

/-- A descriptor with another `STATE`. -/
def descState (d : List Byte) (st : Nat) : List Byte := putAt d 2 1 st

/-- The space of the problem banks in bytes (R173). -/
def State.probSpace (s : State) : Nat := min (max 1 (s.f Fld.ASM_PROB_NBANKS)) (64 - s.f Fld.ASM_PROB_BANK) * 0x4_0000

/-- Issuing: the state, the bytes of problem space taken, the descriptors so far and the address of the bellwether image. -/
structure Issue where
  st : State
  off : Nat
  done : List (List Byte)
  bell : Nat

/-- Issue one job's image (R173). -/
def Issue.put (a : Issue) (t : TSet) (d img : List Byte) : Issue :=
  let addr := bankAddr (a.st.f Fld.ASM_PROB_BANK) a.off
  if a.st.probSpace < a.off + img.length then
    let s1 := (a.st.stickN Fld.ASM_STAT_SPACE_CNT 1).raise Ev.ASM_SPACE
    { a with st := s1, done := a.done ++ [descState d 2] }
  else
    let r := a.st.mWrite 24 addr img
    let d' := if r.rsp = .okay then a.st.fillDesc t d addr img.length else descState d 4
    { st := r.st, off := a.off + img.length, done := a.done ++ [d'], bell := if leAt d 0 1 = 0 then addr else a.bell }

/-- Build and issue the first `k` jobs of the list (R180); the others stay pending. -/
def State.assemble (s : State) (k : Nat) : State :=
  match s.tset with
  | none => (s.setF Fld.ASM_STAT_ISSUED 0).setF Fld.ASM_STAT_SPACE_CNT 0 |>.setF Fld.ASM_STAT_EQ_INEXACT 0
  | some t =>
    let l := s.frameLin t
    let i := s.f Fld.ASM_PAST_SEL_IDX
    let outer := (List.range 3).map fun j => t.past i (6 + j)
    let lim := (List.range 8).map (s.purseLim t)
    let batt := (List.range 8).map (s.purseBatt t)
    let w := s.warm t.nvar t.m t.n t.h
    let lostT := s.lostThr t
    let lostB := s.lostBus t
    let rows := (((List.range t.n).map fun k => t.stageRows l w.x lim outer k).flatten).map fun r => (r.lose lostT).drop lostB
    let pq := t.objective s.objSel
    let b := equilibrate t.nvar rows pq.1 pq.2
    let qp := s.asm.usable && s.asm.past
    let s0 := ((s.setF Fld.ASM_STAT_SPACE_CNT 0).setF Fld.ASM_STAT_EQ_INEXACT (b2n (qp && b.inexact)))
    let s1 := forUp 8 (fun j u => u.setReg (Adr.ASM_PURSE_LIM j) (BitVec.ofNat 32 (lim.getD j 0))) s0
    let step := fun (a : Issue) (d : List Byte) =>
      let kind := leAt d 0 1
      let idx := leAt d 4 2
      if leAt d 2 1 = 3 then { a with done := a.done ++ [d] }
      else if kind = 2 then a.put t d (s.backImage t l)
      else if kind = 0 then a.put t d (bellImage t b s.frame s.objSel)
      else if kind = 1 then
        let sr := scenImage t b (t.scenRows l outer batt lostT lostB (t.scen idx) rows) s.frame idx (t.scen idx).prio s.objSel a.bell
        let a' := a.put t d sr.1
        if sr.2 then { a' with st := a'.st.setF Fld.ASM_STAT_EQ_INEXACT 1 } else a'
      else if kind = 3 then
        match a.st.fixTable with
        | (u, some (fd, n)) => ({ a with st := u } : Issue).put t d (fixImage t s.frame n fd)
        | (u, none) => { a with st := u, done := a.done ++ [descState d 4] }
      else a.put t d (s.calImage t idx)
    let js := s.lsc.jobs
    let r := (js.take k).foldl step { st := s1, off := 0, done := [], bell := 0 }
    let issued := (r.done.filter fun d => leAt d 0 1 == 1 && leAt d 2 1 == 1).length
    let s2 := r.st.setF Fld.ASM_STAT_ISSUED issued
    { s2 with lsc := { s2.lsc with jobs := r.done ++ js.drop k } }

/-- The stage ends: its time is noted (R180). -/
def State.asmDone (s : State) : State :=
  let t := s.assemble s.lsc.jobs.length
  let u := t.setF Fld.ASM_TIME_NS (min 1048575 (t.tim.raw - t.asm.b7))
  { u with frm := { u.frm with asmDone := true } }

/-! ### The commands -/

/-- `TABLE_CHECK`: a write of `v` to `ASM_TBL_CHK` with `CHECK` at 1. -/
def execTableCheck (v : Word) (s : State) : Out := live s (doTblCtl s (v ||| 0x80000000))

/-- `TABLE_RELEASE`: a write of `v` to `ASM_TBL_CHK` with `RELEASE` at 1. -/
def execTableRelease (v : Word) (s : State) : Out := live s (doTblCtl s (v ||| 0x40000000))

/-- `CHK_DONE`. -/
def execChkDone (s : State) : Out :=
  match s.asm.chk with
  | none => live s s
  | some b => live s (s.checkDone b)

/-- `ASSEMBLY_DONE`: where the frame's list is written and B10 has not come. -/
def execAssemblyDone (s : State) : Out := liveIf (s.asm.listed && (!s.frm.asmDone && s.works 42)) s s.asmDone

end Sys2Proof.Machine
end

