-- ==== Sys2Proof/Machine/Fio.lean ====
section
/-! DEFINITION. The isolated field inputs and outputs (R269–R283). -/

namespace Sys2Proof.Machine

/-- floor(a / b + ½): the rounding of R220. -/
def roundHalfUp (a : Int) (b : Nat) : Int := fdiv (2 * a + Int.ofNat b) (2 * Int.ofNat b)

/-- This unit commands and holds the highest tally its pair block has seen (R278, R315). -/
def State.topTally (s : State) : Bool :=
  decide (2 ≤ s.f Fld.PAR_STAT_ROLE) && decide (s.f Fld.PAR_SEEN_SEEN ≤ s.f Fld.PAR_TALLY_TALLY)

/-- The outputs of the field island are held in safe state (R58, R272). -/
def State.fioSafe (s : State) : Bool := s.fb Fld.FIO_STATUS_WD_TRIP || s.rpl.hold

/-- The command in force for output `j` (R278). -/
def State.doCmd (s : State) (j : Nat) : Bool :=
  if 12 ≤ j ∧ s.safOwned = true then bitOf (s.f Fld.SAF_STATE_LINES) (j - 12)
  else if s.fioSafe then s.fb (Fld.FIO_DO_CFG_SAFE j)
  else if s.f Fld.FIO_CFG_EN = 0 then false
  else if s.fb (Fld.FIO_DO_CFG_PAIRED j) && !s.topTally then s.fb (Fld.FIO_DO_CFG_SAFE j)
  else bitOf (s.reg Adr.FIO_OUT).toNat j

/-- The commands in force of all 16 outputs. -/
def State.doCmds (s : State) : Nat := (List.range 16).foldl (fun m j => if s.doCmd j then m + 2 ^ j else m) 0

/-- A mismatch that R281 judges: not the off-state of a `SHARED` output (R283). -/
def State.judged (s : State) (j : Nat) : Bool :=
  bitOf (s.fio.mism ||| (s.fio.tripped &&& s.f Fld.FIO_DO_CMD_DO)) j
    && (bitOf (s.f Fld.FIO_DO_CMD_DO) j || !s.fb (Fld.FIO_DO_CFG_SHARED j))

/-- `FAULT` follows its causes (R281). -/
def State.fioFault (s : State) : State :=
  let n := s.fio.low || (s.fio.lost || (List.range 16).any s.judged)
  let s1 := s.setF Fld.FIO_STATUS_FAULT (b2n n)
  if n && !s.fb Fld.FIO_STATUS_FAULT then s1.raise Ev.FIO_FAULT else s1

/-- The logic side sends refreshes: not in `DOZE` or `OFF`, no clock fault, no reset (R272). -/
def State.refreshes (s : State) : Bool :=
  s.pwr.on && (!s.pwr.mainHeld && (!s.pwr.silent && (!s.inReset 151 && decide (s.f Fld.PWR_STAT_STATE < 3))))

/-- One refresh (R271–R273, R280): the field side switches the commands in force; an output that had turned itself off is
re-armed when its command goes off. -/
def State.fioRefresh (s : State) : State :=
  if !s.refreshes || s.fio.lost then s
  else
    let c := s.doCmds
    let fresh := s.fio.fresh && s.f Fld.FIO_CFG_EN == 0
    let tr := s.fio.tripped &&& c
    let old := s.f Fld.FIO_DO_CMD_DO
    let out := if fresh then 0 else c &&& (65535 - tr)
    let x := { s.fio with fresh := fresh, tripped := tr, mism := s.fio.mism &&& (65535 - (old ^^^ c)), out := out }
    ((({ s with fio := x } : State).setF Fld.FIO_DO_CMD_DO c).send .field 0 (leBytes 2 c)).fioFault

/-- The frequency signal of input `i` in this edge cycle (R276). -/
def State.diFreq (s : State) (i : Nat) : Int :=
  let g := min 40 (max 1 (s.f (Fld.FIO_DI_CFG_GATE i)))
  let ts := (s.fio.edges.filter fun e => e.1 == i && decide (e.2.1 < g)).map fun e => e.2.2
  match ts, ts.getLast? with
  | t1 :: _ :: _, some tn =>
    if tn ≤ t1 then 0
    else satI 32 (roundHalfUp (Int.ofNat ((ts.length - 1) * 1000000000 * 2 ^ 31))
      ((tn - t1) * max 1 (s.f (Fld.FIO_DI_CFG_FSCALE i))))
  | _, _ => 0

/-- The 128-byte record of this edge (R277). -/
def State.fioRecord (s : State) : List Byte :=
  leBytes 2 (s.f Fld.FIO_DI_STATE_DI) ++ leBytes 2 (s.f Fld.FIO_DO_CMD_DO) ++
    leBytes 4 (s.f Fld.FIO_STATUS_FAULT + 2 * s.f Fld.FIO_STATUS_LINK + 4 * s.f Fld.FIO_STATUS_WD_TRIP) ++
    ((List.range 8).map fun i => leBytes 4 (s.reg (Adr.FIO_DI_CNT i)).toNat).flatten ++
    ((List.range 8).map fun i => leBytes 4 (s.reg (Adr.FIO_DI_FREQ i)).toNat).flatten ++ zeros 56

/-- The field island in an edge cycle: frequencies, the record of R277, and the ageing of edge stamps. -/
def State.fioEdge (s : State) : State :=
  let s1 := forUp 8 (fun i t => t.setReg (Adr.FIO_DI_FREQ i)
    (if s.fb (Fld.FIO_DI_CFG_CNT_EN i) then BitVec.ofNat 32 (uns 32 (s.diFreq i)) else 0)) s
  let es := (s.fio.edges.map fun e => (e.1, e.2.1 + 1, e.2.2)).filter fun e => e.2.1 < 40
  { s1 with fio := { s1.fio with edges := es, hist := (s1.fio.hist ++ [s1.fioRecord]).drop (s1.fio.hist.length + 1 - 40) } }

/-- A rising edge on counting input `i` (R275). -/
def doPulse (s : State) (i : Nat) : State :=
  ({ s with fio := { s.fio with edges := s.fio.edges ++ [(i, 0, s.tim.raw / 25 * 25)] } } : State).wrap
    (Fld.FIO_DI_CNT_COUNT i) 1

/-- `FIO_FREE_REFRESH` (R271). -/
def execFioFreeRefresh (s : State) : Out := liveIf (!s.running) s s.fioRefresh

/-- Switch the outputs of the field side: bit j. -/
def State.setOut (s : State) (x : Nat) : State := { s with fio := { s.fio with out := x } }

/-- `WD_TRIP` (R272). -/
def execWdTrip (s : State) : Out :=
  let t := (s.setF Fld.FIO_STATUS_WD_TRIP 1).raise Ev.FIO_WD_TRIP
  let c := t.doCmds
  liveIf (s.fb Fld.FIO_CFG_EN) s
    (((t.setOut (c &&& (65535 - t.fio.tripped))).setF Fld.FIO_DO_CMD_DO c).fioFault)

/-- A write of `FIO_WD_CLR` (R272). -/
def doWdClr (s : State) (v : Word) : State :=
  (if bitOf v.toNat 0 && s.fb Fld.FIO_STATUS_LINK then s.setF Fld.FIO_STATUS_WD_TRIP 0 else s).ok

/-- `FIO_WD_CLR`. -/
def execFioWdClr (v : Word) (s : State) : Out := live s (doWdClr s v)

/-- A write of `FIO_CFG` (R273); in `SPENT`, `EN` stays 0 (R456). -/
def doFioCfg (s : State) (v : Word) : State :=
  let w := if s.lcs.state = 5 then v &&& 0x7FFFFFFF else v
  (s.setReg Adr.FIO_CFG (if s.locked Adr.FIO_CFG then (s.reg Adr.FIO_CFG &&& 0xFFF) ||| (w &&& 0x80000000)
    else w &&& 0x80000FFF)).ok

/-- `FIO_ENABLE_WRITE`. -/
def execFioEnableWrite (v : Word) (s : State) : Out := live s (doFioCfg s v)

/-- `PULSE_EDGE`. -/
def execPulseEdge (i : Nat) (s : State) : Out := liveIf (decide (i < 8) && s.fb (Fld.FIO_DI_CFG_CNT_EN i)) s (doPulse s i)

/-- `OUTPUT_TRIP` (R280). -/
def execOutputTrip (j : Nat) (s : State) : Out :=
  let x := { s.fio with tripped := s.fio.tripped ||| 2 ^ j, out := s.fio.out &&& (65535 - 2 ^ j) }
  liveIf (decide (j < 16) && bitOf s.fio.out j) s ({ s with fio := x } : State).fioFault

/-- `ISLAND_OVERCURRENT` (R269): every output is switched off as under overcurrent. -/
def execIslandOvercurrent (s : State) : Out :=
  live s ({ s with fio := { s.fio with tripped := s.fio.tripped ||| s.fio.out, out := 0 } } : State).fioFault

/-- `LPLUS_UNDERVOLTAGE` (R281): `low` when L+ falls below 16.0 V, otherwise it rises above 17.0 V. -/
def execLplusUndervoltage (low : Bool) (s : State) : Out := live s ({ s with fio := { s.fio with low := low } } : State).fioFault

/-- `LINK_LOST` (R281). -/
def execLinkLost (s : State) : Out :=
  let t : State := { s with fio := { s.fio with lost := true, fresh := true, out := 0 } }
  live s (((t.setF Fld.FIO_STATUS_LINK 0).setReg Adr.FIO_DI_STATE 0).raise Ev.FIO_LINK_LOST).fioFault

/-- `FIELD_LINK_UP` (R281). -/
def execFieldLinkUp (s : State) : Out :=
  live s (({ s with fio := { s.fio with lost := false } } : State).setF Fld.FIO_STATUS_LINK 1).fioFault

/-- `OUTPUT_MISMATCH` (R281): the voltage of output `j` comes to disagree with its command, or agrees again. -/
def execOutputMismatch (j : Nat) (present : Bool) (s : State) : Out :=
  let m := if present then s.fio.mism ||| 2 ^ j else s.fio.mism &&& (65535 - 2 ^ j)
  liveIf (decide (j < 16)) s ({ s with fio := { s.fio with mism := m } } : State).fioFault

end Sys2Proof.Machine
end

