-- ==== Sys2Proof/Machine/Flt.lean ====
section
/-! DEFINITION. The analogue filter chain (R131–R144). -/

namespace Sys2Proof.Machine

/-- Filter channel `c`. -/
def State.fltOf (s : State) (c : Nat) : FltSt := s.flt.ch.getD c {}

/-- Replace filter channel `c`. -/
def State.setFlt (s : State) (c : Nat) (x : FltSt) : State := { s with flt := { s.flt with ch := setNth s.flt.ch c x } }

/-- The dividers of R131. -/
def mclkDivs : List Nat := [40, 50, 64, 80, 100, 125, 160]

/-- `ORDER`, `RATIO`, `FIR` and `PHASE` of a configuration word. -/
def cicN (w : Word) : Nat := bitsOf w.toNat 27 25
/-- See `cicN`. -/
def cicR (w : Word) : Nat := bitsOf w.toNat 24 16
/-- See `cicN`. -/
def cicFir (w : Word) : Nat := bitsOf w.toNat 15 12
/-- See `cicN`. -/
def cicPhase (w : Word) : Nat := bitsOf w.toNat 11 0

/-- Tap count of a compensation entry (R135). -/
def firTaps (e : Nat) : Nat := if e = 0 then 1 else [11, 15, 21, 31, 47].getD ((e - 1) % 5) 1

/-- One running sum of `r` values over a weight list: the convolution with `r` ones. -/
def boxConv (r : Nat) (h : List Int) : List Int :=
  (List.range (h.length + r - 1)).map fun i => ((h.take (i + 1)).drop (i + 1 - r)).foldl (· + ·) 0

/-- The weights of a CIC decimator of order `n` and ratio `r` (R134). -/
def cicWeights (r : Nat) : Nat → List Int
  | 0 => [1]
  | n + 1 => boxConv r (cicWeights r n)

/-- Sum of products. -/
def dotInt : List Int → List Int → Int
  | a :: as, b :: bs => a * b + dotInt as bs
  | _, _ => 0

/-- The taps of compensation entry `e`, units of 2⁻³⁰, symmetric and with DC gain 1 (R135). -/
def firTapList (e : Nat) : List Int :=
  let t := firTaps e
  let half := (List.range ((t - 1) / 2)).map fun i => Config.firTap e i
  half ++ [2 ^ 30 - 2 * half.foldl (· + ·) 0] ++ half.reverse

/-- `a / b` rounded to nearest, half away from zero (b positive). -/
def roundAway (a : Int) (b : Nat) : Int :=
  let q := Int.ofNat ((2 * a.natAbs + b) / (2 * b))
  if a < 0 then -q else q

/-- The delayed stream as the paths hold it: newest first, since the last restart (R133, R139). -/
def FltSt.stream (x : FltSt) : List Int := (x.bits.drop (cicPhase x.cfg)).take x.since

/-- The CIC output for the present stream. -/
def FltSt.cic (x : FltSt) : Int := dotInt (cicWeights (cicR x.cfg) (cicN x.cfg)) x.stream

/-- The exact fine value as a fraction: numerator and denominator (R134). -/
def FltSt.fine (x : FltSt) : Int × Nat :=
  (dotInt (firTapList (cicFir x.cfg)) x.line * 2 ^ 31, cicR x.cfg ^ cicN x.cfg * 2 ^ 30)

/-- The coarse value (R137): the last 15 values with weights 1 to 8 to 1, × 2²⁵, saturated. -/
def FltSt.coarse (x : FltSt) : Int := satI 32 (dotInt [1, 2, 3, 4, 5, 6, 7, 8, 7, 6, 5, 4, 3, 2, 1] x.stream * 2 ^ 25)

/-- The fine delay in ns (R136). -/
def fineDelay (w : Word) (div : Nat) : Nat :=
  let h := cicN w * (cicR w - 1) + 2 * ((firTaps (cicFir w) - 1) / 2) * cicR w + 2 * cicPhase w
  (h * div * 5 + 4) / 8

/-- The channel is enabled, with MCLK running. -/
def State.fltOn (s : State) (c : Nat) : Bool :=
  s.works 32 && (bitOf s.flt.mclk.toNat 31 && bitOf (s.fltOf c).cfg.toNat 31)

/-- A fine output of channel `c` with the bits sampled since the last one (R134). -/
def doFineOutput (s : State) (c : Nat) (new : List Bool) : State :=
  let x := s.fltOf c
  let x1 := { x with
    bits := ((new.reverse.map fun (b : Bool) => if b then (1 : Int) else -1) ++ x.bits).take 17000
    since := min 17000 (x.since + new.length) }
  let x2 := { x1 with line := (x1.cic :: x1.line).take 47 }
  let (n, d) := x2.fine
  let v := roundAway n d
  let wide := decide (2 ^ 31 * Int.ofNat d < n) || decide (n < -(2 ^ 31 * Int.ofNat d))
  let s1 := ((s.setFlt c x2).setReg (Adr.FLT_CH_FINE c) (BitVec.ofNat 32 (uns 32 (satI 32 v)))).setReg
    (Adr.FLT_CH_COARSE c) (BitVec.ofNat 32 (uns 32 x2.coarse))
  if wide then (s1.stick (Fld.FLT_CH_CNT_SAT c) (Fld.FLT_CH_STAT_SAT_FLAG c) 1).setF (Fld.FLT_CH_STAT_SAT_FLAG c) 1 else s1

/-- A detection (R138). -/
def doStepDetected (s : State) (c : Nat) : State :=
  if s.fb (Fld.FLT_CH_STAT_SETTLED c) then
    ((s.setF (Fld.FLT_CH_STAT_SETTLED c) 0).stick (Fld.FLT_CH_CNT_STEPS c) (Fld.FLT_CH_STAT_STEP_FLAG c) 1).raise
      Ev.FLT_SETTLE_LOST
  else s

/-- A restart of channel `c` in an edge cycle (R139). -/
def State.fltRestart (s : State) (c : Nat) : State :=
  (s.setFlt c { s.fltOf c with due := false, since := 0, line := [] }).setF (Fld.FLT_CH_STAT_SETTLED c) 0

/-- A configuration write or restart of channel `c` takes effect (R139, R141). -/
def State.fltApply (s : State) (c : Nat) : State :=
  let s1 := s.setFlt c { s.fltOf c with cfg := s.reg (Adr.FLT_CH_CFG c) }
  (s1.fltRestart c).setF (Fld.FLT_CH_STAT_DELAY c) (fineDelay (s.reg (Adr.FLT_CH_CFG c)) (bitsOf s.flt.mclk.toNat 7 0))

/-- The value channel `c` delivers at this edge (R140, R142). -/
def State.fltDeliver (s : State) (c : Nat) : State :=
  let set := s.fb (Fld.FLT_CH_STAT_SETTLED c)
  let dead := !s.fltOn c || s.fb (Fld.FLT_CH_STAT_STUCK c)
  let co := !dead && (bitOf (s.fltOf c).cfg.toNat 30 && !set)
  let v := if dead then 0 else if co then s.reg (Adr.FLT_CH_COARSE c) else s.reg (Adr.FLT_CH_FINE c)
  ((s.setReg (Adr.FLT_CH_OUT c) v).setF (Fld.FLT_CH_STAT_COARSE c) (b2n co)).setF (Fld.FLT_CH_STAT_SETTLED c)
    (b2n (set && !dead))

/-- The 8-byte record of channel `c` (R144). -/
def State.fltRecord (s : State) (c : Nat) : List Byte :=
  leBytes 4 (s.reg (Adr.FLT_CH_OUT c)).toNat ++ zeros 3 ++ leBytes 1 ((s.reg (Adr.FLT_CH_STAT c)).toNat / 2 ^ 24 &&& 0xF8)

/-- Set the filter records of the last 40 edges. -/
def State.setFltHist (s : State) (h : List (List Byte)) : State := { s with flt := { s.flt with hist := h } }

/-- The filter chain in an edge cycle: waiting configuration takes effect (R139, R141), values are delivered (R140) and the
edge is recorded (R144). -/
def State.fltEdge (s : State) : State :=
  let mdue := s.flt.due
  let div := bitsOf s.flt.mclk.toNat 7 0 != s.f Fld.FLT_MCLK_DIV
  let s1 : State := if mdue then { s with flt := { s.flt with mclk := s.reg Adr.FLT_MCLK, due := false } } else s
  let s2 := forUp 16 (fun c t =>
    (if (t.fltOf c).due || (mdue && (div && bitOf (t.fltOf c).cfg.toNat 31)) then t.fltApply c else t).fltDeliver c) s1
  let r := ((List.range 16).map s2.fltRecord).flatten
  s2.setFltHist ((s2.flt.hist ++ [r]).drop (s2.flt.hist.length + 1 - 40))

/-- A write of `FLT_MCLK` (R141). -/
def doFltMclk (s : State) (v : Word) : State :=
  let d := bitsOf v.toNat 7 0
  let s0 : State := { s with flt := { s.flt with due := true } }
  let s1 := s0.setF Fld.FLT_MCLK_EN (bitsOf v.toNat 31 31)
  (if mclkDivs.contains d then s1.setF Fld.FLT_MCLK_DIV d else s1.raise Ev.FLT_CFG_REFUSED).ok

/-- A write of `FLT_CH_CFG[c]` (R141): a refused field keeps its value. -/
def doFltCfg (s : State) (c : Nat) (v : Word) : State :=
  let r := bitsOf v.toNat 24 16
  let o := bitsOf v.toNat 27 25
  let nb := 200000 / s.f Fld.FLT_MCLK_DIV
  let okO := decide (3 ≤ o) && decide (o ≤ 5)
  let okR := decide (16 ≤ r) && (decide (r ≤ 256) && decide (nb % r = 0))
  let old := s.reg (Adr.FLT_CH_CFG c)
  let w := (v &&& 0xC000FFFF) ||| ((if okO then v else old) &&& 0x0E000000) ||| ((if okR then v else old) &&& 0x01FF0000)
  let s1 := (s.setReg (Adr.FLT_CH_CFG c) w).setFlt c { s.fltOf c with due := true }
  (if okO && okR then s1 else s1.raise Ev.FLT_CFG_REFUSED).ok

/-- `FLT_CFG_WRITE`: register `n` — channel 0–15, or 16 for `FLT_MCLK`. -/
def execFltCfgWrite (n : Nat) (v : Word) (s : State) : Out :=
  liveIf (decide (n ≤ 16)) s (if n = 16 then doFltMclk s v else doFltCfg s n v)

/-- A write of `FLT_CH_CTRL.RESTART`: it takes effect at the next edge (R139). -/
def doFltRestart (s : State) (c : Nat) : State := (s.setFlt c { s.fltOf c with due := true }).ok

/-- `FLT_RESTART`. -/
def execFltRestart (c : Nat) (s : State) : Out := liveIf (decide (c < 16)) s (doFltRestart s c)

/-- `FINE_OUTPUT`: the bits sampled on `MDAT[c]` since the last fine output, oldest first. -/
def execFineOutput (c : Nat) (bits : List Bool) (s : State) : Out :=
  liveIf (decide (c < 16) && s.fltOn c) s (doFineOutput s c bits)

/-- `STEP_DETECTED`. -/
def execStepDetected (c : Nat) (s : State) : Out := liveIf (decide (c < 16) && s.fltOn c) s (doStepDetected s c)

/-- `SETTLED_RETURN` (R138). -/
def execSettledReturn (c : Nat) (s : State) : Out :=
  liveIf (decide (c < 16) && (s.fltOn c && !s.fb (Fld.FLT_CH_STAT_STUCK c))) s (s.setF (Fld.FLT_CH_STAT_SETTLED c) 1)

/-- `STUCK` (R142). -/
def execStuck (c : Nat) (s : State) : Out :=
  liveIf (decide (c < 16) && s.fltOn c) s
    (((s.setF (Fld.FLT_CH_STAT_STUCK c) 1).setF (Fld.FLT_CH_STAT_SETTLED c) 0).raise Ev.FLT_STUCK)

/-- `STUCK_CLEAR` (R142): the channel restarts at the next edge (R139). -/
def execStuckClear (c : Nat) (s : State) : Out :=
  liveIf (decide (c < 16) && s.fb (Fld.FLT_CH_STAT_STUCK c)) s
    ((s.setF (Fld.FLT_CH_STAT_STUCK c) 0).setFlt c { s.fltOf c with due := true })

end Sys2Proof.Machine
end

