-- ==== Sys2Proof/Machine/Solver.lean ====
section
/-! DEFINITION. The numerical work of a lane (R184, R185, R187, R188, R195–R203, R206–R209): quadratic programs by ADMM with a
banded LDLᵀ factorisation, and the three least-squares jobs. -/

namespace Sys2Proof.Machine

/-! ### Vectors -/

/-- Element `i` of a vector. -/
def gv (a : Array Fl) (i : Nat) : Fl := a.getD i (Fl.of 0)

/-- A value whose event has been noted. -/
def Fl.clean (x : Fl) : Fl := ⟨x.c, false⟩

/-- `x · 2^k` (R184). -/
def Fl.scale (x : Fl) (k : Int) : Fl := laneCode x.bad (codeOf (fNeg x.c) ⟨(fDy x.c).m, (fDy x.c).e + k⟩)

/-- An event in any element. -/
def anyBad (a : Array Fl) : Bool := a.any fun x => x.bad

/-- The ∞-norm (R197). -/
def norm (a : Array Fl) : Fl := a.foldl (fun m x => Fl.max m x.abs) (Fl.of 0)

/-- The power of two 2^k, its rounding included. -/
def pow2 (k : Int) : Fl := laneCode false (codeOf false ⟨1, k⟩)

/-- A sum of exact triple products (R185). -/
def Acc40.mac3 (a : Acc40) (x y z : Fl) : Acc40 :=
  a.addDy (Dy.mul (Dy.mul (fDy x.c) (fDy y.c)) (fDy z.c)) (x.bad || (y.bad || z.bad))

/-- `n` little-endian numbers of `k` bytes. -/
def cutLe (k : Nat) : Nat → List Byte → List Nat
  | 0, _ => []
  | n + 1, b => ofLe (padTo k (b.take k)) :: cutLe k n (b.drop k)

/-- A list split into runs of the given lengths. -/
def splitRuns {α : Type} : List Nat → List α → List (List α)
  | [], _ => []
  | n :: ns, l => l.take n :: splitRuns ns (l.drop n)

/-- Size padded to a multiple of 64. -/
def up64 (n : Nat) : Nat := (n + 63) / 64 * 64

/-- What a job gives (R200, R211). -/
structure JobOut where
  status : Nat
  flags : Nat := 0
  iters : Nat := 0
  best : Nat := 0
  pivots : Nat := 0
  nonfin : Nat := 0
  rp : Nat := 0
  rd : Nat := 0
  merit : Nat := 0
  obj : Nat := 0
  slack : List Nat := [0, 0, 0]
  rho : Nat := 0
  words : List Nat := [0, 0, 0, 0, 0, 0, 0, 0]
  sec : List Byte := []
  cut : Bool := false

/-- Flag bits of R211. -/
def flagWord (piv nonf noBest cold early sat ws : Bool) : Nat :=
  b2n piv + 2 * b2n nonf + 4 * b2n noBest + 8 * b2n cold + 16 * b2n early + 32 * b2n sat + 1024 * b2n ws

/-! ### Quadratic programs: images -/

/-- The header of a quadratic-programming image (R172). -/
structure QpHdr where
  kind : Nat
  gamma : Int
  n : Nat
  m : Nat
  nnz : Nat
  s : Nat
  st : Nat
  base : Nat

/-- Read the header. -/
def qpHdr (b : List Byte) : QpHdr :=
  { kind := leAt b 6 1, gamma := sgn 8 (leAt b 7 1), n := leAt b 16 2, m := leAt b 18 2, nnz := leAt b 20 2, s := leAt b 22 1,
    st := leAt b 23 1, base := leAt b 28 5 }

/-- Lane memory in bytes (R187). -/
def QpHdr.mem (h : QpHdr) : Nat :=
  4 * h.n * (h.s + 6) + 6 * h.nnz + 2 * (h.m + 1) + 37 * h.n + 29 * h.m + 4096

/-- The length of a bellwether image (R172). -/
def QpHdr.len (h : QpHdr) : Nat :=
  64 + 2 * up64 (4 * h.n) + 2 * up64 (4 * h.m) + up64 (2 * (h.m + 1)) + up64 (2 * h.nnz) + up64 (4 * h.nnz) + up64 h.m + up64 h.n

/-- Setup, factorisation and one iteration in ns (R194). -/
def QpHdr.times (h : QpHdr) : Nat × Nat × Nat :=
  let hb := h.s + 5
  (2 * h.n + 5 * h.m, 3 * h.n * (hb + 1) * (hb + 2) / 2 + 6 * h.nnz, h.n * (2 * hb + 11) + 2 * h.nnz + 256)

/-- Magic, version, kind and sizes of an image are in range (R170, R188). -/
def QpHdr.ok (b : List Byte) (kind : Nat) : Bool :=
  let h := qpHdr b
  b.take 4 == ascii "DQQP" && (leAt b 4 2 == 1 && (h.kind == kind && (h.n == h.st * h.s && (decide (1 ≤ h.n) && (decide (h.n ≤ 1024) &&
    (decide (h.s ≤ 40) && (decide (h.m ≤ 2048) && (h.m % h.st == 0 && decide (h.nnz ≤ 16384)))))))))

/-- The equilibrated problem a lane holds. -/
structure Qp where
  h : QpHdr
  p : Array Fl
  q : Array Fl
  lo : Array Nat
  hi : Array Nat
  rows : List (List (Nat × Fl))
  rho : List Int
  kap : List Int

/-- The problem of a bellwether image, or of a scenario's `own` part with the bellwether's image `b`; none where a check of R188
fails. -/
def qpOf (b own : List Byte) (scen : Bool) : Option Qp :=
  let h := qpHdr b
  let o1 := 64
  let o2 := o1 + up64 (4 * h.n)
  let o3 := o2 + up64 (4 * h.n)
  let o4 := o3 + up64 (4 * h.m)
  let o5 := o4 + up64 (4 * h.m)
  let o6 := o5 + up64 (2 * (h.m + 1))
  let o7 := o6 + up64 (2 * h.nnz)
  let o8 := o7 + up64 (4 * h.nnz)
  let o9 := o8 + up64 h.m
  let p := cutLe 4 h.n (b.drop o1)
  let q := cutLe 4 h.n (b.drop o2)
  let lo := if scen then cutLe 4 h.m (own.drop 64) else cutLe 4 h.m (b.drop o3)
  let hi := if scen then cutLe 4 h.m (own.drop (64 + up64 (4 * h.m))) else cutLe 4 h.m (b.drop o4)
  let ptr := cutLe 2 (h.m + 1) (b.drop o5)
  let cols := cutLe 2 h.nnz (b.drop o6)
  let vals := cutLe 4 h.nnz (b.drop o7)
  let rho := (cutLe 1 h.m (b.drop o8)).map (sgn 8)
  let kap := (cutLe 1 h.n (b.drop o9)).map (sgn 8)
  let gaps := ptr.zip (ptr.drop 1)
  let same := let g := qpHdr own; !scen || (QpHdr.ok own 1 && (g.n == h.n && (g.m == h.m && (g.s == h.s && g.st == h.st))))
  if QpHdr.ok b 0 && (same && (p.all fFin && (q.all fFin && (vals.all fFin && (cols.all (fun c => decide (c < h.n)) &&
      (ptr.headD 1 == 0 && (ptr.getLastD 0 == h.nnz && (gaps.all (fun g => decide (g.1 ≤ g.2)) &&
      (lo.zip hi).all fun e => !fNan e.1 && (!fNan e.2 && !fLt e.2 e.1))))))))) then
    some { h := h, p := (p.map Fl.of).toArray, q := (q.map Fl.of).toArray, lo := lo.toArray, hi := hi.toArray,
           rows := splitRuns (gaps.map fun g => g.2 - g.1) (cols.zip (vals.map Fl.of)), rho := rho, kap := kap }
  else none

/-! ### Quadratic programs: factorisation (R185, R199) -/

/-- A·v. -/
def Qp.ax (a : Qp) (v : Array Fl) : Array Fl :=
  (a.rows.map fun r => (r.foldl (fun (s : Acc40) e => s.mac e.2 (gv v e.1)) {}).out).toArray

/-- The columns of A: rows ascending. -/
def Qp.cols (a : Qp) : Array (List (Nat × Fl)) :=
  let z : Array (List (Nat × Fl)) := Array.replicate a.h.n []
  (a.rows.zipIdx.reverse).foldl (fun z (r, i) => r.foldl (fun z e => z.setIfInBounds e.1 ((i, e.2) :: z.getD e.1 [])) z) z

/-- Aᵀ·w over given columns. -/
def atv (cols : Array (List (Nat × Fl))) (w : Array Fl) : Array Fl :=
  cols.map fun c => (c.foldl (fun (s : Acc40) e => s.mac e.2 (gv w e.1)) {}).out

/-- The band of K = P + σI + ρAᵀA: entry `t` of row `r` is column r − t (R185, R199). -/
def Qp.band (a : Qp) (hb : Nat) (rho sigma : Fl) : Array (Array Fl) :=
  let z : Array (Array Acc40) := Array.replicate a.h.n (Array.replicate (hb + 1) {})
  let sums := a.rows.foldl (fun z r => r.foldl (fun z e => r.foldl (fun (z : Array (Array Acc40)) g =>
    if g.1 ≤ e.1 ∧ e.1 - g.1 ≤ hb then
      z.modify e.1 fun row => row.modify (e.1 - g.1) fun s => s.mac e.2 g.2
    else z) z) z) z
  sums.mapIdx fun r row => row.mapIdx fun t s =>
    let v := Fl.mul rho s.out
    if t = 0 then Fl.add (Fl.add (gv a.p r) sigma) v else v

/-- A banded factorisation: row `r` of L holds columns r − hb … r − 1. -/
structure Fact where
  l : Array (Array Fl) := #[]
  d : Array Fl := #[]
  piv : Nat := 0

/-- The pivot rule (R199): the pivot and whether it was replaced. -/
def pivot (tau kjj dj : Fl) : Fl × Bool :=
  let fl := Fl.max (Fl.mul tau (Fl.max kjj (Fl.of 0x00800000))) (Fl.of 1)
  if Fl.lt dj fl then (⟨fl.c, fl.bad || dj.bad⟩, true) else (dj, false)

/-- Row `r` of the factorisation. -/
def factRow (hb : Nat) (tau : Fl) (k : Array (Array Fl)) (f : Fact) (r : Nat) : Fact :=
  let lo := r - hb
  let ke := fun t => gv (k.getD r #[]) t
  let row := (List.range (r - lo)).foldl (fun (row : Array Fl) t =>
    let j := lo + t
    let lj := f.l.getD j #[]
    let s := (List.range t).foldl (fun (a : Acc40) u => a.mac3 (gv row u) (gv lj (lo + u - (j - hb))) (gv f.d (lo + u))) {}
    row.push (Fl.div (Fl.sub (ke (r - j)) s.out) (gv f.d j))) #[]
  let s := (List.range (r - lo)).foldl (fun (a : Acc40) u => a.mac3 (gv row u) (gv row u) (gv f.d (lo + u))) {}
  let p := pivot tau (ke 0) (Fl.sub (ke 0) s.out)
  { l := f.l.push row, d := f.d.push p.1, piv := f.piv + b2n p.2 }

/-- The factorisation. -/
def factor (n hb : Nat) (tau : Fl) (k : Array (Array Fl)) : Fact := (List.range n).foldl (factRow hb tau k) {}

/-- Solve with the factors. -/
def Fact.solve (f : Fact) (n hb : Nat) (b : Array Fl) : Array Fl :=
  let y := (List.range n).foldl (fun (y : Array Fl) r =>
    let lo := r - hb
    let s := (List.range (r - lo)).foldl (fun (a : Acc40) u => a.mac (gv (f.l.getD r #[]) u) (gv y (lo + u))) {}
    y.push (Fl.sub (gv b r) s.out)) #[]
  let w := y.zipWith Fl.div f.d
  (List.range n).reverse.foldl (fun (x : Array Fl) j =>
    let s := (List.range (min (n - 1) (j + hb) - j)).foldl (fun (a : Acc40) u =>
      let r := j + 1 + u
      a.mac (gv (f.l.getD r #[]) (j - (r - hb))) (gv x r)) {}
    x.setIfInBounds j (Fl.sub (gv x j) s.out)) w

/-! ### Quadratic programs: iterations (R195–R202) -/

/-- What the descriptor and the committed registers give a job. -/
structure QpPar where
  rho : Int
  sigma : Nat
  tau : Nat
  alpha : Nat
  budget : Nat
  early : Bool
  eps : Nat
  epsInf : Nat
  slack : Nat

/-- α and 1 − α (R196). -/
def alphaOf (c : Nat) : Fl × Fl :=
  if c = 0 then (Fl.of 0x3F800000, Fl.of 0) else if c = 1 then (Fl.of 0x3FB00000, Fl.of 0xBEC00000)
  else if c = 2 then (Fl.of 0x3FC00000, Fl.of 0xBF000000) else (Fl.of 0x3FD00000, Fl.of 0xBF200000)

/-- An iterate with its residuals. -/
structure It where
  it : Nat := 0
  x : Array Fl := #[]
  z : Array Fl := #[]
  y : Array Fl := #[]
  rp : Fl := Fl.of 0
  rd : Fl := Fl.of 0
  merit : Fl := Fl.of 0

/-- One iteration of R197; an event in it is left in the values. -/
def qpStep (a : Qp) (cols : Array (List (Nat × Fl))) (f : Fact) (par : QpPar) (t : It) : It :=
  let n := a.h.n
  let hb := a.h.s + 5
  let rho := pow2 par.rho
  let sg := pow2 (-(Int.ofNat par.sigma))
  let al := alphaOf par.alpha
  let one := Fl.of fOne
  let w := Array.zipWith (fun z y => Fl.sub (Fl.mul rho z) y) t.z t.y
  let rhs := Array.zipWith Fl.add (Array.zipWith (fun x q => Fl.sub (Fl.mul sg x) q) t.x a.q) (atv cols w)
  let xt := f.solve n hb rhs
  let zt := a.ax xt
  let relax := Array.zipWith (fun u v => Fl.add (Fl.mul al.1 u) (Fl.mul al.2 v))
  let x := relax xt t.x
  let zr := relax zt t.z
  let zn := (Array.zipWith (fun u y => Fl.add u (Fl.div y rho)) zr t.y).mapIdx fun i v =>
    Fl.min (Fl.max v (Fl.of (a.lo.getD i 0))) (Fl.of (a.hi.getD i 0))
  let y := Array.zipWith Fl.add t.y (Array.zipWith (fun u v => Fl.mul rho (Fl.sub u v)) zr zn)
  let ax := a.ax x
  let px := Array.zipWith Fl.mul a.p x
  let aty := atv cols y
  let rp := Fl.div (norm (Array.zipWith Fl.sub ax zn)) (Fl.add one (Fl.max (norm ax) (norm zn)))
  let rd := Fl.div (norm (Array.zipWith Fl.add (Array.zipWith Fl.add px a.q) aty))
    (Fl.add one (Fl.max (Fl.max (norm px) (norm aty)) (norm a.q)))
  { it := t.it + 1, x := x, z := zn, y := y, rp := rp, rd := rd, merit := Fl.max rp rd }

/-- An event arose in the iterate. -/
def It.bad (t : It) : Bool := anyBad t.x || (anyBad t.z || (anyBad t.y || t.merit.bad))

/-- The iterate with its events noted. -/
def It.clean (t : It) : It :=
  { t with x := t.x.map Fl.clean, z := t.z.map Fl.clean, y := t.y.map Fl.clean, rp := t.rp.clean, rd := t.rd.clean,
           merit := t.merit.clean }

/-- The progress of the iterations. -/
structure Run where
  cur : It
  prevY : Array Fl
  best : Option It := none
  nonfin : Nat := 0
  stop : Bool := false

/-- One more iteration, unless an early stop has been taken. -/
def Run.next (r : Run) (a : Qp) (cols : Array (List (Nat × Fl))) (f : Fact) (par : QpPar) : Run :=
  if r.stop then r
  else
    let t := qpStep a cols f par r.cur
    let bad := t.bad
    let c := t.clean
    let best := if bad then r.best else match r.best with
      | none => some c
      | some b => if Fl.lt c.merit b.merit then some c else some b
    let hit := par.early && match best with
      | none => false
      | some b => fLe b.merit.c par.eps
    { cur := c, prevY := r.cur.y, best := best, nonfin := r.nonfin + b2n bad, stop := hit }

/-- The certificate of R201 at the last iteration; and an event in it. -/
def certificate (a : Qp) (cols : Array (List (Nat × Fl))) (r : Run) (epsInf : Nat) : Bool × Bool :=
  let dy := Array.zipWith Fl.sub r.cur.y r.prevY
  let nd := norm dy
  let lim := Fl.mul (Fl.of epsInf) nd
  let at' := norm (atv cols dy)
  let ts := dy.toList.zipIdx.filterMap fun (v, i) =>
    if fMag v.c = 0 then none else some (v, if fNeg v.c then a.lo.getD i 0 else a.hi.getD i 0)
  let inf := ts.any fun e => fInf e.2
  let s := (ts.foldl (fun (s : Acc40) e => s.mac e.1 (Fl.of e.2)) {}).out
  (decide (r.cur.it ≠ 0) && (decide (fMag nd.c ≠ 0) && (fLe at'.c lim.c && (!inf && fLt s.c (fNegate lim.c)))),
    nd.bad || (at'.bad || (lim.bad || (!inf && s.bad))))

/-- A quadratic-programming job whose iterations end after `limit` at the latest (R197–R203): warm start `wx`, `wz`, `wy`. -/
def qpSolve (a : Qp) (par : QpPar) (wx wz wy : List Nat) (cold : Bool) (limit : Nat) : JobOut :=
  let n := a.h.n
  let g := a.h.gamma
  let x0 := (Array.zipWith (fun c k => Fl.scale (Fl.of c) (-k)) wx.toArray a.kap.toArray)
  let z0 := (Array.zipWith (fun c r => Fl.scale (Fl.of c) r) wz.toArray a.rho.toArray)
  let y0 := (Array.zipWith (fun c r => Fl.scale (Fl.of c) (g - r)) wy.toArray a.rho.toArray)
  let k := a.band (a.h.s + 5) (pow2 par.rho) (pow2 (-(Int.ofNat par.sigma)))
  let f := factor n (a.h.s + 5) (pow2 (-(Int.ofNat par.tau))) k
  let pre := anyBad x0 || (anyBad z0 || (anyBad y0 || (k.any anyBad || (anyBad f.d || f.l.any anyBad))))
  let f' : Fact := { f with l := f.l.map fun r => r.map Fl.clean, d := f.d.map Fl.clean }
  let cols := a.cols
  let c0 : It := { x := x0.map Fl.clean, z := z0.map Fl.clean, y := y0.map Fl.clean }
  let its := min par.budget limit
  let r := (List.range its).foldl (fun (r : Run) _ => r.next a cols f' par) { cur := c0, prevY := c0.y }
  let cert := certificate a cols r par.epsInf
  let conv : Bool := match r.best with
    | none => false
    | some b => fLe b.merit.c par.eps
  let cut := decide (limit < par.budget) && !r.stop
  let res : Array Fl × Array Fl × Array Fl := match r.best with
    | none => ((wx.map Fl.of).toArray, (wz.map Fl.of).toArray, (wy.map Fl.of).toArray)
    | some b => (Array.zipWith Fl.scale b.x a.kap.toArray, Array.zipWith (fun v e => Fl.scale v (-e)) b.z a.rho.toArray,
        Array.zipWith (fun v e => Fl.scale v (e - g)) b.y a.rho.toArray)
  let x := res.1
  let half : Dy := ⟨1, -1⟩
  let sq := (List.range n).foldl (fun (s : Acc40) j =>
    let v := fDy (gv x j).c
    let p := fDy (gv a.p j).c
    s.addDy (Dy.mul half (Dy.mul ⟨p.m, p.e - g - 2 * a.kap.getD j 0⟩ (Dy.mul v v))) false) {}
  let ob := ((List.range n).foldl (fun (s : Acc40) j =>
    let q := fDy (gv a.q j).c
    s.addDy (Dy.mul ⟨q.m, q.e - g - a.kap.getD j 0⟩ (fDy (gv x j).c)) false) sq).out
  let slack := (List.range 3).map fun i =>
    let vs := (List.range a.h.st).map fun st => (gv x (st * a.h.s + par.slack + i)).c
    vs.foldl fMax (vs.headD 0)
  let nf := pre || (decide (0 < r.nonfin) || (cert.2 || (anyBad x || (anyBad res.2.1 || (anyBad res.2.2 || ob.bad)))))
  let words := fun (v : Array Fl) => words32 (v.toList.map fun y => y.c)
  { status := if cut then 2 else if !conv && cert.1 then 4 else if conv then 0 else 1
    flags := flagWord (decide (0 < f.piv)) nf r.best.isNone cold (r.stop && decide (r.cur.it < par.budget)) false r.best.isNone
    iters := r.cur.it
    best := (r.best.map fun b => b.it).getD 0
    pivots := min f.piv 65535
    nonfin := min r.nonfin 65535
    rp := (r.best.map fun b => b.rp.c).getD (Config.recFill 0 % 2 ^ 32)
    rd := (r.best.map fun b => b.rd.c).getD (Config.recFill 1 % 2 ^ 32)
    merit := (r.best.map fun b => b.merit.c).getD (Config.recFill 2 % 2 ^ 32)
    obj := ob.c
    slack := slack
    rho := (pow2 par.rho).c
    sec := if a.h.kind = 0 then words x ++ words res.2.1 ++ words res.2.2 else words x
    cut := cut }

/-! ### Least squares: normal equations (R199, R206) -/

/-- The Cholesky factors of a small matrix given by rows: lower rows with the diagonal last, and pivots replaced. -/
def cholesky (tau : Fl) (n : Nat) (a : Nat → Nat → Fl) : Array (Array Fl) × Nat :=
  (List.range n).foldl (fun (acc : Array (Array Fl) × Nat) r =>
    let row := (List.range r).foldl (fun (row : Array Fl) j =>
      let lj := acc.1.getD j #[]
      let s := (List.range j).foldl (fun (c : Acc40) i => c.mac (gv row i) (gv lj i)) {}
      row.push (Fl.div (Fl.sub (a r j) s.out) (gv lj j))) #[]
    let s := (List.range r).foldl (fun (c : Acc40) i => c.mac (gv row i) (gv row i)) {}
    let p := pivot tau (a r r) (Fl.sub (a r r) s.out)
    (acc.1.push (row.push (Fl.sqrt p.1)), acc.2 + b2n p.2)) (#[], 0)

/-- Solve with Cholesky factors. -/
def cholSolve (l : Array (Array Fl)) (b : Array Fl) : Array Fl :=
  let n := b.size
  let y := (List.range n).foldl (fun (y : Array Fl) r =>
    let lr := l.getD r #[]
    let s := (List.range r).foldl (fun (c : Acc40) i => c.mac (gv lr i) (gv y i)) {}
    y.push (Fl.div (Fl.sub (gv b r) s.out) (gv lr r))) #[]
  (List.range n).reverse.foldl (fun (x : Array Fl) j =>
    let s := (List.range (n - 1 - j)).foldl (fun (c : Acc40) u => c.mac (gv (l.getD (j + 1 + u) #[]) j) (gv x (j + 1 + u))) {}
    x.setIfInBounds j (Fl.div (Fl.sub (gv x j) s.out) (gv (l.getD j #[]) j))) y

/-- The inverse by columns. -/
def cholInv (l : Array (Array Fl)) (n : Nat) : List (Array Fl) :=
  (List.range n).map fun j => cholSolve l ((Array.replicate n (Fl.of 0)).setIfInBounds j (Fl.of fOne))

/-- The upper triangle of a matrix by columns, row by row. -/
def upper (n : Nat) (c : List (Array Fl)) : List Nat :=
  ((List.range n).map fun i => (List.range (n - i)).map fun u => (gv (c.getD (i + u) #[]) i).c).flatten

/-! ### LSQ-ALLOC (R206, R207) -/

/-- A thruster of an LSQ-ALLOC image. -/
structure AThr where
  ty : Nat
  avail : Bool
  nsect : Nat
  radius : Fl
  fmin : Fl
  fmax : Fl
  hf : Fl
  haz : Fl
  sect : List Nat
  /-- Its first variable. -/
  v : Nat

/-- Number of variables of a thruster. -/
def AThr.vars (t : AThr) : Nat := if t.ty = 1 then 2 else 1

/-- An LSQ-ALLOC problem. -/
structure Alloc where
  mode : Nat
  nf : Nat
  st : Nat
  a : Array Fl
  b : Array Fl
  thr : List AThr

/-- The header fields of a least-squares image: kind, record count, n_f or unknowns, N, T (R206). -/
def lsHdr (b : List Byte) : Nat × Nat × Nat × Nat × Nat := (leAt b 6 1, leAt b 16 2, leAt b 18 2, leAt b 20 1, leAt b 21 1)

/-- Magic, version and kind of a least-squares image (R188). -/
def lsOk (b : List Byte) (kind : Nat) : Bool :=
  b.take 4 == ascii "DQLS" && (leAt b 4 2 == 1 && leAt b 6 1 == kind)

/-- The problem of an LSQ-ALLOC image; none where a check of R188 fails. -/
def allocOf (b : List Byte) : Option Alloc :=
  let (_, _, nf, st, t) := lsHdr b
  let a := cutLe 4 68 (b.drop 64)
  let bb := cutLe 4 (10 * nf) (b.drop 384)
  let c := b.drop (384 + up64 (40 * nf))
  let th := (List.range t).foldl (fun (acc : List AThr × Nat) j =>
    let e := (c.drop (64 * j)).take 64
    let f := cutLe 4 9 (e.drop 4)
    let g := fun i => Fl.of (f.getD i 0)
    let x : AThr := { ty := leAt e 0 1, avail := leAt e 1 1 != 0, nsect := leAt e 3 1, radius := g 0, fmin := g 1, fmax := g 2, hf := g 3,
                      haz := g 4, sect := f.drop 5, v := acc.2 }
    (acc.1 ++ [x], acc.2 + x.vars)) ([], 0)
  if lsOk b 2 && (decide (1 ≤ st) && (decide (t ≤ 24) && (th.2 == nf && (a.all fFin && (bb.all fFin && th.1.all fun x =>
      decide (x.nsect ≤ 2) && (fFin x.radius.c && (fFin x.fmin.c && (fFin x.fmax.c && (fFin x.hf.c && (fFin x.haz.c && x.sect.all fFin))))))))))
    then
    some { mode := leAt b 7 1, nf := nf, st := st, a := (a.map Fl.of).toArray, b := (bb.map Fl.of).toArray, thr := th.1 }
  else none

/-- Tc of variable `v`, component `i`; B_d; f_in. -/
def Alloc.tc (p : Alloc) (i v : Nat) : Fl := gv p.b (10 * v + i)
def Alloc.bd (p : Alloc) (i v : Nat) : Fl := gv p.b (10 * v + 3 + i)
def Alloc.fin (p : Alloc) (v : Nat) : Fl := gv p.b (10 * v + 9)

/-- The demand at state `x` (R177, R207). -/
def Alloc.demand (p : Alloc) (x : Array Fl) : Array Fl :=
  let g := gv p.a
  if p.mode = 0 then #[g 64, g 65, g 66]
  else if p.mode = 3 then #[Fl.of 0, Fl.of 0, Fl.of 0]
  else
    let c := g 48
    let n := g 49
    let e := #[(dot [c, n] [gv x 0, gv x 1] {}).out, (dot [n.neg, c] [gv x 0, gv x 1] {}).out, gv x 2]
    (Array.range 3).map fun i =>
      Fl.sub (Fl.sub (Fl.mul (g (50 + i)).neg (gv e i)) (Fl.mul (g (53 + i)) (gv x (3 + i)))) (g (61 + i))

/-- The magnitude of a planar thrust. -/
def mag2 (x y : Fl) : Fl := Fl.sqrt (dot [x, y] [x, y] {}).out

/-- Limited to lo … hi. -/
def Fl.clamp (v lo hi : Fl) : Fl := Fl.min (Fl.max v lo) hi

/-- Whether direction (x, y) lies strictly inside the sector from edge `a` to edge `b`, turning to rising angles. -/
def inSector (x y : Fl) (a b : Nat) : Bool :=
  let det := fun (p q r s : Dy) => (Dy.add (Dy.mul p s) (Dy.mul q r).neg).m
  let dx := fDy x.c
  let dy := fDy y.c
  let ax := fDy (fCos a)
  let ay := fDy (fSin a)
  let bx := fDy (fCos b)
  let by' := fDy (fSin b)
  let w := fSub b a
  let w' := if fNeg w then fAdd w twoPi else w
  if fLe w' piF then decide (0 < det ax ay dx dy) && decide (0 < det dx dy bx by')
  else !(decide (0 ≤ det bx by' dx dy) && decide (0 ≤ det dx dy ax ay))

/-- Clamp thruster `t` into its set (R207): `f` the thrusts, `p` those of the stage before. -/
def AThr.clamp (t : AThr) (f p : Array Fl) : Array Fl :=
  let q := gv p t.v
  if t.ty ≠ 1 then
    f.setIfInBounds t.v (Fl.clamp (Fl.clamp (gv f t.v) (Fl.sub q t.hf) (Fl.add q t.hf)) t.fmin t.fmax)
  else
    let r := gv p (t.v + 1)
    let lim := Fl.add t.hf (Fl.mul t.haz (mag2 q r))
    let x1 := Fl.clamp (gv f t.v) (Fl.sub q lim) (Fl.add q lim)
    let y1 := Fl.clamp (gv f (t.v + 1)) (Fl.sub r lim) (Fl.add r lim)
    let mg := mag2 x1 y1
    let wide := Fl.lt t.radius mg
    let x2 := if wide then Fl.div (Fl.mul x1 t.radius) mg else x1
    let y2 := if wide then Fl.div (Fl.mul y1 t.radius) mg else y1
    let hit := (List.range t.nsect).find? fun k => inSector x2 y2 (t.sect.getD (2 * k) 0) (t.sect.getD (2 * k + 1) 0)
    let out := match hit with
      | none => (x2, y2)
      | some k =>
        let e := nearEdge (x2.c, y2.c, 0) (t.sect.getD (2 * k) 0) (t.sect.getD (2 * k + 1) 0)
        let m := mag2 x2 y2
        (Fl.mul m (Fl.of (fCos e.1)), Fl.mul m (Fl.of (fSin e.1)))
    (f.setIfInBounds t.v out.1).setIfInBounds (t.v + 1) out.2

/-- The codes of thruster `t` differ between two thrust vectors. -/
def AThr.changed (t : AThr) (f g : Array Fl) : Bool :=
  (List.range t.vars).any fun i => (gv f (t.v + i)).c != (gv g (t.v + i)).c

/-- One stage in progress. -/
structure Pass where
  f : Array Fl
  fixed : List Nat
  /-- Thrusts after each pass. -/
  hist : List (Array Fl) := []
  piv : Nat := 0
  nonfin : Nat := 0
  bad : Bool := false
  /-- The last pass clamped something. -/
  hit : Bool := false

/-- One pass of R207 for demand `tau` and the previous thrusts `fp`. -/
def Alloc.pass (p : Alloc) (tauPiv : Fl) (tau fp : Array Fl) (a : Pass) : Pass :=
  let g := gv p.a
  let free := (List.range p.nf).filter fun v => !a.fixed.contains v
  let held := (List.range p.nf).filter a.fixed.contains
  let lam := g 60
  let wl := Fl.add (g 59) lam
  let r := (Array.range 3).map fun i => Fl.sub (gv tau i) (held.foldl (fun (s : Acc40) v => s.mac (p.tc i v) (gv a.f v)) {}).out
  let fv := free.toArray
  let mat := fun i j =>
    let s := ((List.range 3).foldl (fun (s : Acc40) c => s.mac3 (p.tc c (fv.getD i 0)) (g (56 + c)) (p.tc c (fv.getD j 0))) {}).out
    if i = j then Fl.add s wl else s
  let rhs := fv.map fun v =>
    Fl.add ((List.range 3).foldl (fun (s : Acc40) c => s.mac3 (p.tc c v) (g (56 + c)) (gv r c)) {}).out (Fl.mul lam (gv fp v))
  let ch := cholesky tauPiv fv.size mat
  let sol := cholSolve ch.1 rhs
  let f1 := (free.zip sol.toList).foldl (fun (f : Array Fl) e => f.setIfInBounds e.1 e.2) a.f
  let act := p.thr.filter fun t => !a.fixed.contains t.v
  let f2 := act.foldl (fun f t => t.clamp f fp) f1
  let moved := act.filter fun t => t.changed f1 f2
  let bad := anyBad f2
  let f3 := f2.map Fl.clean
  { f := f3, fixed := a.fixed ++ (moved.map fun t => (List.range t.vars).map (t.v + ·)).flatten, hist := a.hist ++ [f3],
    piv := a.piv + ch.2, nonfin := a.nonfin + b2n bad, bad := a.bad || bad, hit := !moved.isEmpty }

/-- The progress over the stages. -/
structure Stages where
  x : Array Fl
  fp : Array Fl
  f : List (Array Fl) := []
  xs : List (Array Fl) := []
  piv : Nat := 0
  nonfin : Nat := 0
  bad : Bool := false
  sat : Bool := false
  hit3 : Bool := false
  hist0 : List (Array Fl) := []
  tau0 : Array Fl := #[]

/-- One stage of R207. -/
def Alloc.stage (p : Alloc) (tauPiv : Fl) (k : Stages) : Stages :=
  let tau := p.demand k.x
  let off := ((p.thr.filter fun t => !t.avail).map fun t => (List.range t.vars).map (t.v + ·)).flatten
  let a := (List.range 3).foldl (fun a _ => p.pass tauPiv (tau.map Fl.clean) k.fp a)
    ({ f := Array.replicate p.nf (Fl.of 0), fixed := off } : Pass)
  let f := (p.thr.filter fun t => t.avail).foldl (fun f t => t.clamp f k.fp) a.f
  let sat := p.thr.any fun t => t.changed a.f f
  let ad := gv p.a
  let x := (Array.range 6).map fun i =>
    let s1 := (List.range 6).foldl (fun (s : Acc40) j => s.mac (ad (6 * i + j)) (gv k.x j)) {}
    let s2 := (List.range p.nf).foldl (fun (s : Acc40) v => s.mac (p.bd i v) (gv f v)) s1
    (s2.add (ad (36 + i))).out
  { x := x.map Fl.clean, fp := f.map Fl.clean, f := k.f ++ [f.map Fl.clean], xs := k.xs ++ [x.map Fl.clean], piv := k.piv + a.piv,
    nonfin := k.nonfin + a.nonfin, bad := k.bad || (a.bad || (anyBad tau || (anyBad f || anyBad x))), sat := k.sat || sat,
    hit3 := k.hit3 || a.hit, hist0 := if k.f.isEmpty then a.hist else k.hist0, tau0 := if k.f.isEmpty then tau else k.tau0 }

/-- An LSQ-ALLOC job of which `passes` passes are complete; none where no stage is complete (R207). -/
def Alloc.solve (p : Alloc) (tau : Nat) (passes : Nat) : Option JobOut :=
  let st := min p.st (passes / 3)
  let k := (List.range st).foldl (fun k _ => p.stage (pow2 (-(Int.ofNat tau))) k)
    ({ x := (p.a.extract 42 48), fp := ((List.range p.nf).map p.fin).toArray } : Stages)
  match k.f.getLast?, k.xs.getLast? with
  | some lf, some lx =>
    let cut := decide (st < p.st)
    let fs := k.f ++ List.replicate (p.st - st) lf
    let xs := k.xs ++ List.replicate (p.st - st) lx
    let f0 := k.f.headD #[]
    let res := (List.range 3).map fun i =>
      Fl.sub ((List.range p.nf).foldl (fun (s : Acc40) v => s.mac (p.tc i v) (gv f0 v)) {}).out (gv k.tau0 i)
    let ob := (res.zipIdx.foldl (fun (s : Acc40) (r, i) => s.mac3 (gv p.a (56 + i)) r r) {}).out
    let mer := norm (Array.zipWith Fl.sub (k.hist0.getD 2 #[]) (k.hist0.getD 1 #[]))
    let out := fun (l : List (Array Fl)) => words32 ((l.map fun v => v.toList.map fun y => y.c).flatten)
    some { status := if cut then 2 else if k.hit3 then 1 else 0
           flags := flagWord (decide (0 < k.piv)) (k.bad || (ob.bad || (mer.bad || res.any fun r => r.bad))) false false false k.sat false
           iters := min passes (3 * p.st), pivots := min k.piv 65535, nonfin := min k.nonfin 65535, merit := mer.c, obj := ob.c
           rho := Config.recFill 5 % 2 ^ 32
           words := (res.map fun r => r.c) ++ [0, 0, 0, 0, 0], sec := out fs ++ out xs, cut := cut }
  | _, _ => none

/-! ### LSQ-FIX (R208) -/

/-- One record: line of sight, prefit residual, deviation. -/
structure FixRow where
  j : List Fl
  r : Fl
  sd : Fl

/-- Rows and linearisation point of an LSQ-FIX image; none where a check of R188 fails. -/
def fixOf (b : List Byte) : Option (List FixRow × List Nat) :=
  let n := leAt b 16 2
  let rs := (List.range n).map fun i => cutLe 4 5 (b.drop (64 + 32 * i))
  let pt := cutLe 4 3 (b.drop (64 + 32 * n))
  if lsOk b 3 && (decide (5 ≤ n) && (decide (n ≤ 64) && ((rs.all fun r => r.all fFin) && pt.all fFin))) then
    some (rs.map fun r => ⟨[Fl.of (fNegate (r.getD 0 0)), Fl.of (fNegate (r.getD 1 0)), Fl.of (fNegate (r.getD 2 0)), Fl.of fOne],
      Fl.of (r.getD 3 0), Fl.of (r.getD 4 0)⟩, pt)
  else none

/-- A set of weighted rows solved with weight `lam` on the diagonal: solution, factors, replaced pivots (R206). -/
def wls (tau lam : Fl) (n : Nat) (rows : List (List Fl × Fl × Fl)) (extra : Nat → Fl) : Array Fl × Array (Array Fl) × Nat :=
  let jl := fun (j : List Fl) i => j.getD i (Fl.of 0)
  let mat := fun i k =>
    let s := (rows.foldl (fun (s : Acc40) e => s.mac3 (jl e.1 i) e.2.1 (jl e.1 k)) {}).out
    if i = k then Fl.add s lam else s
  let ch := cholesky tau n mat
  let rhs := (Array.range n).map fun i => Fl.add (rows.foldl (fun (s : Acc40) e => s.mac3 (jl e.1 i) e.2.1 e.2.2) {}).out (extra i)
  (cholSolve ch.1 rhs, ch.1, ch.2)

/-- The progress of the passes. -/
structure LsRun where
  d : Array Fl
  prev : Array Fl
  w : List Fl := []
  v : List Fl := []
  l : Array (Array Fl) := #[]
  piv : Nat := 0
  nonfin : Nat := 0

/-- One pass of R208. -/
def fixPass (tau : Fl) (hub : Nat) (rows : List FixRow) (k : Nat) (a : LsRun) : LsRun :=
  let one := Fl.of fOne
  let h := Fl.of (fRatio (Int.ofNat hub) 16)
  let w := rows.zipIdx.map fun (e, i) =>
    let base := Fl.div one (Fl.mul e.sd e.sd)
    if k = 0 then base
    else
      let v := (a.v.getD i (Fl.of 0)).abs
      if fMag v.c = 0 then base else Fl.mul base (Fl.min one (Fl.div (Fl.mul h e.sd) v))
  let s := wls tau (pow2 (-20)) 4 ((rows.zip w).map fun (e, w) => (e.j, w, e.r)) fun _ => Fl.of 0
  let v := rows.map fun e => Fl.sub e.r (dot e.j s.1.toList {}).out
  let bad := anyBad s.1 || (v.any (fun y => y.bad) || w.any fun y => y.bad)
  { d := s.1.map Fl.clean, prev := a.d, w := w.map Fl.clean, v := v.map Fl.clean, l := s.2.1.map fun r => r.map Fl.clean,
    piv := a.piv + s.2.2, nonfin := a.nonfin + b2n bad }

/-- An LSQ-FIX job of which `passes` passes are complete (at least one). -/
def fixSolve (p : List FixRow × List Nat) (tau hub tol passes : Nat) : Option JobOut :=
  let k := min 8 passes
  if k = 0 then none
  else
    let z : Array Fl := Array.replicate 4 (Fl.of 0)
    let a := (List.range k).foldl (fun a i => fixPass (pow2 (-(Int.ofNat tau))) hub p.1 i a) ({ d := z, prev := z } : LsRun)
    let step := Array.zipWith Fl.sub a.d a.prev
    let lim := fRatio (Int.ofNat tol) 1000
    let conv := (List.range 3).all fun i => fLe (gv step i).abs.c lim
    let cov := cholInv a.l 4
    let c := fun i j => gv (cov.getD j #[]) i
    let sd := (List.range 3).map fun i => Fl.sqrt (c i i)
    let rho := Fl.div (c 0 1) (Fl.mul (sd.getD 0 (Fl.of 0)) (sd.getD 1 (Fl.of 0)))
    let pt := fun i => Fl.add (Fl.of (p.2.getD i 0)) (gv a.d i)
    let ob := ((a.w.zip a.v).foldl (fun (s : Acc40) e => s.mac3 e.1 e.2 e.2) {}).out
    let ws := [pt 0, pt 1, (pt 2).neg, rho] ++ sd ++ [gv a.d 3]
    let cut := decide (k < 8)
    some { status := if cut then 2 else if conv then 0 else 1
           flags := flagWord (decide (0 < a.piv)) (decide (0 < a.nonfin) || (ws.any fun y => y.bad)) false false false false false
           iters := k, pivots := min a.piv 65535, nonfin := a.nonfin, merit := if k < 2 then 0 else (norm step).c, obj := ob.c
           rho := Config.recFill 5 % 2 ^ 32
           words := ws.map fun y => y.c
           sec := words32 (upper 4 cov ++ (a.v.map fun y => y.c) ++ a.w.map fun y => y.c), cut := cut }

/-! ### LSQ-CAL (R209) -/

/-- Pairs and committed mounting of an LSQ-CAL image; none where a check of R188 fails. -/
def calOf (b : List Byte) : Option (List (List Byte × List Byte) × List Nat) :=
  let n := leAt b 16 2
  let ps := (List.range n).map fun i => ((b.drop (64 + 128 * i)).take 64, (b.drop (128 + 128 * i)).take 64)
  let mt := cutLe 4 6 (b.drop (64 + 128 * n))
  let fin := fun (q : List Byte) => (cutLe 4 10 (q.drop 24)).all fFin
  if lsOk b 4 && (n == 64 && ((ps.all fun q => fin q.1 && fin q.2) && mt.all fFin)) then some (ps, mt) else none

/-- The rows of one pair at lever (x, y) and yaw: derivatives, weight, residual (R209). -/
def calRows (x y yaw : Fl) (p : List Byte × List Byte) : List (List Fl × Fl × Fl) :=
  let sv := fun i => recV p.1 i
  let cv := fun i => recV p.2 i
  let wt := fun i => Fl.of (let w := Config.calWeight (recS p.1 i) (recS p.2 i) % 2 ^ 32; if fFin w then w else 0)
  let z := Fl.of 0
  let one := Fl.of fOne
  let kind := recKind p.1
  if kind = 1 ∨ kind = 7 then
    let psi := cv 4
    let c := Fl.of (fCos psi)
    let n := Fl.of (fSin psi)
    [([c, n.neg, z], wt 0, Fl.sub (Fl.sub (Fl.of (sv 0)) (dot [c, n.neg] [x, y] {}).out) (Fl.of (cv 0))),
     ([n, c, z], wt 1, Fl.sub (Fl.sub (Fl.of (sv 1)) (dot [n, c] [x, y] {}).out) (Fl.of (cv 1)))]
  else if kind = 2 then
    [([z, z, one], wt 0, Fl.of (wrapHalf (Fl.sub (Fl.sub (Fl.of (sv 0)) yaw) (Fl.of (cv 0))).c))]
  else if kind = 6 then
    [([z, z, one.neg], wt 1, Fl.of (wrapHalf (Fl.sub (Fl.add (Fl.of (sv 1)) yaw) (Fl.of (cv 1))).c))]
  else (List.range (kindVoted kind)).map fun i => ([z, z, z], wt i, Fl.sub (Fl.of (sv i)) (Fl.of (cv i)))

/-- One Gauss–Newton iteration of R209 with the prior `m`. -/
def calPass (tau lam : Fl) (ps : List (List Byte × List Byte)) (m : Array Fl) (a : LsRun) : LsRun :=
  let rows := (ps.map (calRows (gv a.d 0) (gv a.d 1) (gv a.d 2))).flatten
  let s := wls tau lam 3 rows fun i => Fl.mul lam (Fl.sub (gv m i) (gv a.d i))
  let d := Array.zipWith Fl.add a.d s.1
  let bad := anyBad d || rows.any fun r => r.2.2.bad
  { d := d.map Fl.clean, prev := a.d, w := rows.map fun r => r.2.1, v := rows.map fun r => r.2.2.clean, l := s.2.1.map fun r => r.map Fl.clean,
    piv := a.piv + s.2.2, nonfin := a.nonfin + b2n bad }

/-- An LSQ-CAL job of which `passes` iterations are complete (at least one), with Tikhonov weight `lam`. -/
def calSolve (p : List (List Byte × List Byte) × List Nat) (tau lam tol passes : Nat) : Option JobOut :=
  let k := min 8 passes
  if k = 0 then none
  else
    let m := #[Fl.of (p.2.getD 0 0), Fl.of (p.2.getD 1 0), Fl.of (p.2.getD 3 0)]
    let a := (List.range k).foldl (fun a _ => calPass (pow2 (-(Int.ofNat tau))) (Fl.of lam) p.1 m a) ({ d := m, prev := m } : LsRun)
    let step := Array.zipWith Fl.sub a.d a.prev
    let lev := fRatio (Int.ofNat tol) 10000
    let yl := fRatio (Int.ofNat tol) 1000000
    let conv := fLe (gv step 0).abs.c lev && (fLe (gv step 1).abs.c lev && fLe (gv step 2).abs.c yl)
    let cov := cholInv a.l 3
    let sd := (List.range 3).map fun i => Fl.sqrt (gv (cov.getD i #[]) i)
    let fin := (p.1.map (calRows (gv a.d 0) (gv a.d 1) (gv a.d 2))).flatten
    let ob := (fin.foldl (fun (s : Acc40) e => s.mac3 e.2.1 e.2.2 e.2.2) {}).out
    let cut := decide (k < 8)
    some { status := if cut then 2 else if conv then 0 else 1
           flags := flagWord (decide (0 < a.piv)) (decide (0 < a.nonfin) || (sd.any fun y => y.bad)) false false false false false
           iters := k, pivots := min a.piv 65535, nonfin := a.nonfin, merit := if k < 2 then 0 else (norm step).c, obj := ob.c
           rho := Config.recFill 5 % 2 ^ 32
           words := (a.d.toList.map fun y => y.c) ++ (sd.map fun y => y.c) ++ [0, 0], sec := words32 (upper 3 cov), cut := cut }

end Sys2Proof.Machine
end

