-- ==== Sys2Proof/Machine/Lanes.lean ====
section
/-! DEFINITION. The lane array (R186–R194, R203, R204, R210–R218): placement, loads, runs, the wall deadline, completion
records, verdicts and the steps at the B36 edge. -/

namespace Sys2Proof.Machine

/-! ### Descriptors, lanes and records -/

/-- Kind, state and index of descriptor `d` (R189). -/
def dKind (d : List Byte) : Nat := leAt d 0 1
def dState (d : List Byte) : Nat := leAt d 2 1
def dIndex (d : List Byte) : Nat := leAt d 4 2
def dAddr (d : List Byte) : Nat := leAt d 16 5
def dLen (d : List Byte) : Nat := leAt d 24 4

/-- Descriptor `j`. -/
def State.desc (s : State) (j : Nat) : List Byte := s.lsc.jobs.getD j []

/-- Lane `l`. -/
def State.laneOf (s : State) (l : Nat) : LanSt := s.lsc.lane.getD l {}
def State.setLane (s : State) (l : Nat) (x : LanSt) : State := { s with lsc := { s.lsc with lane := setNth s.lsc.lane l x } }

/-- Offset of a lane's result section (R210). -/
def secOfs (l : Nat) : Nat := if l = 0 then 0x6000 else if l = 1 then 0xB000 else 0xD000 + (l - 2) * 0x1000

/-- The parts of a completion record that are not the job's own result. -/
structure RecCtx where
  frame : Nat
  kind : Nat
  index : Nat
  /-- 0xFF when not placed. -/
  lane : Nat
  reason : Nat := 0
  /-- Flags added to the job's: ECC_CE, ECC_UE, BUS_ERR, PRED_OVER, UNSHIFTED. -/
  flags : Nat := 0
  resLen : Nat := 0
  start : Nat := 0
  loaded : Nat := 0
  fin : Nat := 0
  pred : Nat := 0
  phase : Nat := 0

/-- A completion record (R211). -/
def jobRecord (c : RecCtx) (o : JobOut) : List Byte :=
  let w4 := fun (x : Nat) => leBytes 4 x
  leBytes 8 c.frame ++ leBytes 1 c.kind ++ leBytes 1 c.lane ++ leBytes 1 o.status ++ leBytes 1 c.reason ++ leBytes 2 (o.flags ||| c.flags) ++
    leBytes 2 c.index ++ leBytes 2 o.iters ++ leBytes 2 o.best ++ leBytes 2 o.pivots ++ leBytes 2 o.nonfin ++ w4 o.rp ++ w4 o.rd ++
    w4 o.merit ++ w4 o.obj ++ (o.slack.map w4).flatten ++ w4 o.rho ++
    w4 (if c.resLen = 0 then Config.recFill 6 % 2 ^ 32 else secOfs c.lane) ++ w4 c.resLen ++ (o.words.map w4).flatten ++
    w4 c.start ++ w4 c.loaded ++ w4 c.fin ++ w4 c.pred ++ leBytes 1 c.phase ++ zeros 15

/-- The result of a job that has computed nothing: the values the spec does not state are the filler of R211. -/
def noResult (kind status flags : Nat) : JobOut :=
  let g := fun i => Config.recFill i % 2 ^ 32
  let qp := decide (kind < 2)
  { status := status, flags := flags, rp := if qp then g 0 else 0, rd := if qp then g 1 else 0, merit := if qp then g 2 else 0,
    obj := g 3, slack := if qp then [g 4, g 4, g 4] else [0, 0, 0], rho := g 5,
    words := if qp then List.replicate 8 0 else List.replicate 8 (g 7) }

/-- The filler of a timing field that has no time. -/
def noTime : Nat := Config.recFill 8 % 2 ^ 32

/-- ns after the B10 edge. -/
def State.afterB10 (s : State) : Nat := (s.tim.raw - s.lsc.b10) % 2 ^ 32

/-- Status, reason, flags of a record. -/
def rStatus (r : List Byte) : Nat := leAt r 10 1
def rFlags (r : List Byte) : Nat := leAt r 12 2

/-! ### Storing results (R204, R210, R213, R218) -/

/-- The verdict of a record (R213). -/
def State.verdictOf (s : State) (r : List Byte) : Nat :=
  let st := rStatus r
  let fin := (st == 0 || st == 1) && (!bitOf (rFlags r) 2 && (fLe (leAt r 24 4) (s.f Fld.LSC_ACC_RP_VALUE) &&
    fLe (leAt r 28 4) (s.f Fld.LSC_ACC_RD_VALUE)))
  let ne := s.f Fld.LSC_VSLACK_NE_VALUE
  let slack := fLe (leAt r 40 4) ne && (fLe (leAt r 44 4) ne && fLe (leAt r 48 4) (s.f Fld.LSC_VSLACK_H_VALUE))
  if fin && slack then 1 else if st = 4 ∨ fin = true then 2 else 3

/-- The verdict entry of a scenario record (R213). -/
def State.storeVerdict (s : State) (r : List Byte) : State :=
  let e := r.take 8 ++ leBytes 1 (s.verdictOf r) ++ leBytes 1 (rStatus r) ++ leBytes 2 (rFlags r) ++ (r.drop 32).take 4 ++
    (r.drop 40).take 12 ++ (r.drop 36).take 4
  (s.mWrite 5 (s.resAddr (0x4000 + 32 * leAt r 14 2)) e).st

/-- A job of kind 3 or 4 that ended `CONVERGED` or `BUDGET` feeds the fusion block (R80, R84, R209). -/
def State.feedFusion (s : State) (r : List Byte) : State :=
  let w := fun i => leAt r (64 + 4 * i) 4
  if 1 < rStatus r then s
  else if leAt r 8 1 = 3 then
    { s with fus := { s.fus with fix := some (mkSample (s.frm.lastB0.getD 0) 1 [w 0, w 1, w 2, w 3] [w 4, w 5, w 6]) } }
  else if leAt r 8 1 = 4 then
    { s with fus := { s.fus with calRes := s.fus.calRes ++ [⟨leAt r 14 2, w 0, w 1, w 2⟩] } }
  else s

/-- Store job `j`'s result section `sec` and record `r` (R204, R210, R218), with the events and counters of its end. -/
def State.storeJob (s : State) (j : Nat) (r sec : List Byte) : State :=
  let l := leAt r 9 1
  let st := rStatus r
  let w1 := if sec.isEmpty then { st := s, rsp := .okay } else s.mWrite 5 (s.resAddr (secOfs l)) sec
  let w2 := w1.st.mWrite 5 (s.resAddr (0x40 + 128 * j)) r
  let ok := decide (w1.rsp = .okay) && decide (w2.rsp = .okay)
  let first := fun (c : Nat) => !s.lsc.recs.any fun e => rStatus e.2 == c
  let s1 : State := { w2.st with lsc := { w2.st.lsc with recs := s.lsc.recs ++ [(j, r)] } }
  let s2 := if st = 5 ∧ first 5 = true then s1.raise Ev.LSC_REFUSED else if st = 6 ∧ first 6 = true then s1.raise Ev.LSC_DEFERRED
    else if st = 2 ∨ st = 3 then s1.raise Ev.LSC_LANE_DL else s1
  let s3 := if l < 96 then
      let t := (((s2.setF (Fld.LAN_LAST_STATUS l) st).setF (Fld.LAN_LAST_REASON l) (if ok then leAt r 11 1 else 12)).setF (Fld.LAN_LAST_FLAGS l)
        (rFlags r))
      if st < 5 then t.wrap (Fld.LAN_JOBS_COUNT l) 1 else t
    else s2
  let s4 := if ok && (leAt r 8 1 == 1 && decide (st < 5)) then s3.storeVerdict r else s3
  let s5 := if ok && (l == 0 && !sec.isEmpty) then (s4.mWrite 5 (s4.resAddr 16) ((s4.lsc.base.drop 16).take 4)).st else s4
  if ok then s5.feedFusion r else s5

/-- The context of descriptor `j`'s record in lane `l`. -/
def State.ctxOf (s : State) (j l : Nat) : RecCtx :=
  let d := s.desc j
  { frame := s.frame, kind := dKind d, index := dIndex d, lane := l, start := noTime, loaded := noTime, fin := s.afterB10, pred := noTime }

/-- What a job returns when it is cut before its work (R203): the flag `UNSHIFTED` and its section. -/
def State.prevSection (s : State) (kind : Nat) : List Byte := if kind = 1 then s.lsc.prevX else []

/-- The length a section that keeps its contents has: the previous record's. -/
def State.keptLen (s : State) (j kind : Nat) : Nat :=
  if kind = 1 then s.lsc.prevX.length else if kind = 0 ∨ kind = 2 then s.rdLe (s.resAddr (0x40 + 128 * j + 60)) 4 else 0

/-- A `STALE` record that returns the previous result unshifted, and its section (R203). -/
def State.staleKept (s : State) (j : Nat) (c : RecCtx) (flags : Nat) : List Byte × List Byte :=
  (jobRecord { c with flags := c.flags ||| 2048 ||| flags, resLen := s.keptLen j c.kind } (noResult c.kind 3 0), s.prevSection c.kind)

/-- A `STALE` record that returns the warm start, and its section (R203, R217, R218). -/
def State.staleWarm (s : State) (j : Nat) (c : RecCtx) (flags : Nat) : List Byte × List Byte :=
  if c.kind < 2 then
    let sec := if c.kind = 0 then words32 (s.lsc.wx ++ s.lsc.wz ++ s.lsc.wy) else words32 s.lsc.wx
    (jobRecord { c with flags := c.flags ||| flags, resLen := sec.length } (noResult c.kind 3 (1024 + 8 * b2n s.lsc.cold)), sec)
  else s.staleKept j c flags

/-! ### Placement at the B10 edge (R187, R190–R194) -/

/-- Lane `l` is out of service as committed (R191). -/
def State.laneOut (s : State) (l : Nat) : Bool := decide (2 ≤ l) && bitOf (s.f (Fld.LSC_LANE_OUT_OUT (l / 32))) (l % 32)

/-- The pool lanes to use, ascending (R191). -/
def State.poolLanes (s : State) : List Nat :=
  (((List.range 94).map fun i => i + 2).filter fun l => !s.laneOut l).take (min 94 (s.f Fld.LSC_POOL_LIMIT))

/-- Issued pool jobs in placement order (R191): scenarios by priority, then LSQ-FIX, then LSQ-CAL. -/
def State.poolJobs (s : State) : List Nat :=
  let js := (List.range s.lsc.jobs.length).filter fun j => dState (s.desc j) == 1
  let sc := fun p => js.filter fun j => dKind (s.desc j) == 1 && leAt (s.desc j) 1 1 == p
  sc 3 ++ sc 2 ++ sc 1 ++ sc 0 ++ (js.filter fun j => dKind (s.desc j) == 3) ++ js.filter fun j => dKind (s.desc j) == 4

/-- The lane of each job placed (R191). -/
def State.placement (s : State) : List (Nat × Nat) :=
  let own := (List.range s.lsc.jobs.length).filterMap fun j =>
    if dState (s.desc j) = 1 ∧ dKind (s.desc j) = 0 then some (j, 0) else if dState (s.desc j) = 1 ∧ dKind (s.desc j) = 2 then some (j, 1) else none
  own ++ s.poolJobs.zip s.poolLanes

/-- Bytes loaded, run time in ns and bytes stored of a job with descriptor `d` and header `h` (R194). -/
def jobCost (d h : List Byte) : Nat × Nat × Nat :=
  let k := dKind d
  let q := qpHdr h
  let (su, fa, it) := q.times
  let (_, r, nf, n, _) := lsHdr h
  if k < 2 then
    (dLen d + (if k = 0 then 4 * (q.n + 2 * q.m) else 0), su + fa + leAt d 6 1 * it, 128 + 4 * (if k = 0 then q.n + 2 * q.m else q.n))
  else if k = 2 then (dLen d, 2000 + n * (3 * (8 * nf * nf + 64 * nf + 200) + 48 * nf), 128 + 4 * n * (nf + 6))
  else if k = 3 then (dLen d, 2000 + 8 * (4000 * r + 1750), 128 + 40 + 8 * r)
  else (dLen d, 2000 + 8 * (2900 * r + 300), 128 + 24)

/-- Predicted ends in 1/64 ns of jobs given in load order with their headers (R194). -/
def predict : List (Nat × List Byte × List Byte) → Nat → List (Nat × Nat)
  | [], _ => []
  | (j, d, h) :: r, t =>
    let c := jobCost d h
    let t' := t + 5 * c.1
    (j, t' + 64 * c.2.1 + 5 * c.2.2) :: predict r t'

/-- Predicted end of job `j`, ns, rounded up. -/
def State.predOf (s : State) (j : Nat) : Nat := ((s.lsc.pred.getD j 0) + 63) / 64

/-- The flag `PRED_OVER` of job `j`. -/
def State.predFlag (s : State) (j : Nat) : Nat := if 384000000 < s.lsc.pred.getD j 0 then 512 else 0

/-- Records of the jobs that do not run (R190, R192, R218), one job. -/
def State.settle (s : State) (pl : List (Nat × Nat)) (off : Bool) (j : Nat) : State :=
  let d := s.desc j
  let k := dKind d
  let main := k == 0 || k == 2
  let lane := if k = 0 then 0 else 1
  let stale := fun (rs fl : Nat) =>
    let r := s.staleKept j { s.ctxOf j lane with reason := rs } fl
    s.storeJob j r.1 r.2
  let out := fun (st rs : Nat) => s.storeJob j (jobRecord { s.ctxOf j 0xFF with reason := rs } (noResult k st 0)) []
  if off then
    let l := if main then lane else (pl.lookup j).getD 0xFF
    if main ∨ l < 96 then
      let r := s.staleKept j { s.ctxOf j l with reason := 14 } 0
      s.storeJob j r.1 r.2
    else out 3 14
  else if dState d = 3 then out 5 (if s.asm.sel.isNone then 1 else if !s.asm.usable then 2 else 3)
  else if dState d = 2 then out 6 8
  else if dState d = 4 then (if main then stale 12 256 else out 6 12)
  else if dState d = 0 then (if main then stale 9 0 else out 6 9)
  else match pl.lookup j with
    | some _ => s
    | none => if k = 3 then out 5 7 else out 6 6

/-- The lane scheduler at the B10 edge. -/
def State.lscB10 (s : State) : State :=
  if s.inReset 44 then s
  else
    let fresh : LscSt := { s.lsc with lane := List.replicate 96 {}, base := [], baseErr := false, recs := [], ue := [], b10 := s.tim.raw,
                                      placed := true, passed := false, pred := [], pool := 0 }
    let off := !(s.enabled 44 && s.fb Fld.PWR_STAT_LANES_ON)
    if !s.asm.listed then
      let s1 : State := { s with lsc := fresh, frm := { s.frm with ovrAsm := true } }
      let go := fun (t : State) (j k l : Nat) =>
        let c : RecCtx := { frame := t.frame, kind := k, index := 0xFFFF, lane := l, reason := 9, start := noTime, loaded := noTime,
                            fin := t.afterB10, pred := noTime }
        let r := t.staleKept j c 0
        t.storeJob j r.1 r.2
      go (go s1 0 2 1) 1 0 0
    else
      let hn := s.rdLe (s.resAddr 16) 2
      let s0 : State := { s with lsc := { fresh with prevX := (s.resVals 0x6000 hn).map (leBytes 4) |>.flatten },
                                 frm := { s.frm with ovrAsm := s.frm.ovrAsm || s.lsc.jobs.any fun d => dState d == 0 } }
      let pl := s0.placement
      let heads := (List.range s0.lsc.jobs.length).filterMap fun j =>
        (pl.lookup j).map fun l => (j, l, s0.mRead 5 (dAddr (s0.desc j)) 64)
      let qp := heads.find? fun (j, _, _) => dKind (s0.desc j) == 0
      let qp' := match qp with
        | some q => some q
        | none => heads.find? fun (j, _, _) => dKind (s0.desc j) == 1
      let tm := (s0.tset.map fun t => t.h).getD 1
      let s1 : State := match qp' with
        | none => s0
        | some (_, _, h) =>
          let q := qpHdr h.data
          let w := s0.warm q.n q.m (max 1 q.st) tm
          { s0 with lsc := { s0.lsc with wx := w.x, wz := w.z, wy := w.y, cold := w.cold } }
      let s2 := match qp with
        | some (_, _, h) => s1.setF Fld.LSC_MEM_NEED_BYTES (min (qpHdr h.data).mem (2 ^ 20 - 1))
        | none => s1
      let big := fun (x : Nat × Nat × Reply) => decide (dKind (s0.desc x.1) < 2) && decide (262144 < (qpHdr x.2.2.data).mem)
      let s3 := (List.range s2.lsc.jobs.length).foldl (fun t j => t.settle pl off j) s2
      if off then s3
      else
        let run := heads.filter fun x => !big x && decide (x.2.2.rsp = .okay)
        let pr := predict (run.map fun (j, _, h) => (j, s0.desc j, h.data)) 0
        let pred := (List.range s0.lsc.jobs.length).map fun j => (pr.lookup j).getD 0
        let s4 : State := { s3 with lsc := { s3.lsc with pred := pred, pool := (pl.filter fun x => decide (2 ≤ x.2)).length } }
        let s5 := if pred.any fun x => decide (384000000 < x) then s4.raise Ev.LSC_PRED_OVER else s4
        heads.foldl (fun t (j, l, h) =>
          if h.rsp ≠ .okay then
            let r := t.staleKept j { t.ctxOf j l with reason := 12 } 256
            t.storeJob j r.1 r.2
          else if big (j, l, h) then t.storeJob j (jobRecord { t.ctxOf j l with reason := 5 } (noResult (dKind (t.desc j)) 5 0)) []
          else t.setLane l { job := some j, phase := 1 }) s5

/-! ### Loads and runs (R188, R193, R203) -/

/-- Whether lane `l` is the next to load: no job earlier in the list is still loading (R193). -/
def State.loadsNext (s : State) (l : Nat) : Bool :=
  match (s.laneOf l).job with
  | none => false
  | some j => (s.laneOf l).phase == 1 && s.lsc.lane.all fun x => x.phase != 1 || decide (j ≤ x.job.getD j)

/-- The parameters of a quadratic program from its descriptor and the committed registers. -/
def State.qpPar (s : State) (d : List Byte) : QpPar :=
  { rho := sgn 8 (leAt d 28 1), sigma := leAt d 29 1, tau := leAt d 30 1, alpha := leAt d 31 1, budget := leAt d 6 1,
    early := bitOf (leAt d 7 1) 0, eps := s.f Fld.LSC_EPS_VALUE, epsInf := s.f Fld.LSC_EPS_INF_VALUE, slack := leAt d 32 1 }

/-- A check of R188 fails for the image in lane `l`. -/
def State.badImage (s : State) (l : Nat) (d : List Byte) : Bool :=
  let b := (s.laneOf l).image
  if dKind d = 0 then (qpOf b [] false).isNone else if dKind d = 1 then (qpOf s.lsc.base b true).isNone
  else if dKind d = 2 then (allocOf b).isNone else if dKind d = 3 then (fixOf b).isNone else (calOf b).isNone

/-- The job in lane `l` with at most `done` iterations or passes complete: none where nothing can be returned. -/
def State.jobResult (s : State) (l : Nat) (d : List Byte) (done : Nat) : Option JobOut :=
  let b := (s.laneOf l).image
  let tau := leAt d 30 1
  if dKind d = 0 then (qpOf b [] false).map fun q => qpSolve q (s.qpPar d) s.lsc.wx s.lsc.wz s.lsc.wy s.lsc.cold done
  else if dKind d = 1 then
    (qpOf s.lsc.base b true).map fun q => qpSolve { q with h := { q.h with kind := 1 } } (s.qpPar d) s.lsc.wx s.lsc.wz s.lsc.wy s.lsc.cold done
  else if dKind d = 2 then (allocOf b).bind fun a => a.solve tau done
  else if dKind d = 3 then (fixOf b).bind fun a => fixSolve a tau (s.f Fld.LSC_LSQ_HUBER) (s.f Fld.LSC_LSQ_FIX_TOL) done
  else (calOf b).bind fun a => calSolve a tau ((s.tset.map fun t => t.back 9).getD 0) (s.f Fld.LSC_LSQ_CAL_TOL) done

/-- The record context of the job at work in lane `l`. -/
def State.laneCtx (s : State) (l j : Nat) : RecCtx :=
  let t := ((s.laneOf l).loaded - s.lsc.b10) % 2 ^ 32
  { s.ctxOf j l with flags := s.predFlag j, start := t, loaded := t, pred := s.predOf j }

/-- Lane memory errors since the load: corrected, uncorrectable (R217). -/
def State.laneErrs (s : State) (l : Nat) : Nat × Nat :=
  let e := s.mm.ecc.filter fun e => decide (laneAddr l 0 ≤ e.1) && decide (e.1 < laneAddr (l + 1) 0)
  ((e.filter fun x => x.2 == 1).length, (e.filter fun x => x.2 != 1).length)

/-- Corrected errors are counted; the flag `ECC_CE`. -/
def State.laneCe (s : State) (l : Nat) : State × Nat :=
  let n := (s.laneErrs l).1
  (s.stick (Fld.LAN_ECC_CE l) (Fld.LAN_ECC_CE_SAT l) n, if n = 0 then 0 else 64)

/-- Lane `l` is finished; its memory holds undefined contents. -/
def State.laneEnd (s : State) (l : Nat) : State := (s.scramble (laneAddr l 0) 0x4_0000).setLane l { s.laneOf l with phase := 6, image := [] }

/-- The load of lane `l` completes (R188, R193, R218). -/
def State.laneLoad (s : State) (l j : Nat) : State :=
  let d := s.desc j
  let k := dKind d
  let r := s.mRead 5 (dAddr d) (dLen d)
  let q := qpHdr r.data
  let r2 := if k = 0 ∧ s.lsc.cold = false then r.st.mRead 5 (s.resAddr 0x6000) (4 * (q.n + 2 * q.m)) else { st := r.st, rsp := .okay }
  let err := decide (r.rsp ≠ .okay) || decide (r2.rsp ≠ .okay)
  let t := r2.st
  let t1 : State := if k = 0 then { t with lsc := { t.lsc with base := r.data, baseErr := err } } else t
  let r3 := if k = 1 ∧ t1.lsc.base.isEmpty ∧ t1.lsc.baseErr = false then t1.mRead 5 q.base q.len else { st := t1, rsp := .okay, data := t1.lsc.base }
  let t2 : State := if k = 1 then { r3.st with lsc := { r3.st.lsc with base := r3.data, baseErr := r3.st.lsc.baseErr || decide (r3.rsp ≠ .okay) } }
    else r3.st
  let bad := err || (k == 1 && t2.lsc.baseErr)
  let t3 := (t2.scramble (laneAddr l 0) 0x4_0000).setLane l { job := some j, phase := 2, image := r.data, loaded := s.tim.raw }
  if bad then
    let x := t3.staleKept j { t3.laneCtx l j with reason := 12 } 256
    (t3.storeJob j x.1 x.2).laneEnd l
  else if t3.badImage l d then (t3.storeJob j (jobRecord { t3.laneCtx l j with reason := 4 } (noResult k 5 0)) []).laneEnd l
  else t3

/-- An uncorrectable error ends lane `l`'s job (R217). -/
def State.laneUe (s : State) (l j : Nat) : State :=
  let s1 := s.stick (Fld.LAN_ECC_UE l) (Fld.LAN_ECC_UE_SAT l) 1
  let s2 : State := { s1 with lsc := { s1.lsc with ue := l :: s1.lsc.ue.filter (· != l) } }
  let c := { s2.laneCtx l j with reason := 11 }
  let c := if (s.laneOf l).phase = 1 then { c with start := noTime, loaded := noTime } else c
  let r := s2.staleWarm j c 128
  (s2.storeJob j r.1 r.2).laneEnd l

/-- Lane `l` completes its job (R200). -/
def State.laneDone (s : State) (l j : Nat) (phase : Nat) : State :=
  if 0 < (s.laneErrs l).2 then s.laneUe l j
  else
    let (s1, ce) := s.laneCe l
    match s1.jobResult l (s1.desc j) (max 256 (3 * 256)) with
    | none => (s1.storeJob j (jobRecord { s1.laneCtx l j with reason := 4 } (noResult (dKind (s1.desc j)) 5 0)) []).laneEnd l
    | some o =>
      let c := s1.laneCtx l j
      (s1.storeJob j (jobRecord { c with flags := c.flags ||| ce, resLen := o.sec.length, phase := phase } o) o.sec).laneEnd l

/-- `LAN_CTRL.RESET` during lane `l`'s job (R218). -/
def State.laneReset (s : State) (l : Nat) : State :=
  match (s.laneOf l).job with
  | some j =>
    if (s.laneOf l).phase = 1 ∨ (s.laneOf l).phase = 2 then
      let r := s.staleWarm j { s.laneCtx l j with reason := 13 } 0
      (s.storeJob j r.1 r.2).laneEnd l
    else s
  | none => s

/-! ### The wall deadline (R203, R204) -/

/-- The banks of frame data (R14): the snapshot bank, the problem banks and the result banks. -/
def State.frameBanks (s : State) : List Nat :=
  let pb := s.f Fld.ASM_PROB_BANK
  let rb := min 62 (s.f Fld.LSC_RES_BANK)
  s.f Fld.FUS_GLOBAL_SNAP_BANK :: ((List.range (max 1 (s.f Fld.ASM_PROB_NBANKS))).map (pb + ·)).filter (· < 64) ++ [rb, rb + 1]

/-- Pass the frame's banks from `m` to `to` (R14). -/
def State.passBanks (s : State) (m h : Nat) : State := s.frameBanks.foldl (fun t b => t.framePass m b h) s

/-- The frame's jobs are all stored: area header, `LSC_PLACE`, `LSC_TSTAT`, `LSC_DL_CNT`, the fields of R212, and the deeds
(R204, R210, R212). -/
def State.lscFinish (s : State) : State :=
  let rs := s.lsc.recs.map fun e => e.2
  let cnt := fun (p : List Byte → Bool) => (rs.filter p).length
  let dl := cnt fun r => rStatus r == 2
  let st := cnt fun r => rStatus r == 3
  let nj := if s.asm.listed then s.lsc.jobs.length else 0
  let s1 := (((s.setF Fld.LSC_PLACE_JOBS nj).setF Fld.LSC_PLACE_PLACED s.lsc.pool).setF Fld.LSC_PLACE_DEFERRED
    (cnt fun r => rStatus r == 6)).setF Fld.LSC_PLACE_REFUSED (cnt fun r => rStatus r == 5)
  let h := leBytes 8 s.frame ++ leBytes 1 nj ++ leBytes 1 s.lsc.pool ++ zeros 2 ++ leBytes 4 (s1.reg Adr.LSC_PLACE).toNat
  let s2 := (s1.mWrite 5 (s1.resAddr 0) h).st
  let s2 := (s2.mWrite 5 (s2.resAddr 20) (zeros 44)).st
  let pr := s.lsc.pred.foldl max 0
  let act := (rs.filter fun r => leAt r 9 1 != 0xFF).foldl (fun m r => max m (leAt r 104 4)) 0
  let s3 := (s2.setF Fld.LSC_TSTAT_PRED_LAST (min 65535 (pr / 64000))).setF Fld.LSC_TSTAT_ACT_LAST (min 65535 (act / 1000))
  let s4 := if dl + st = 0 then s3 else s3.stick Fld.LSC_DL_CNT_COUNT Fld.LSC_DL_CNT_SAT 1
  let s5 := s4.passBanks 5 25
  { s5 with lsc := { s5.lsc with passed := true, lane := s5.lsc.lane.map fun x => { x with phase := 0 } },
            frm := { s5.frm with
              lanDone := true, lanesDl := dl + st, deadline := decide (0 < dl), stale := decide (0 < st),
              scenDone := cnt (fun r => leAt r 8 1 == 1 && (rStatus r == 0 || (rStatus r == 1 || rStatus r == 4))),
              eccUe := s5.frm.eccUe || rs.any fun r => bitOf (rFlags r) 7 } }

/-- Lane `l` at the wall deadline (R203). -/
def State.cutLane (s : State) (cuts : List LaneCut) (l : Nat) : State :=
  let x := s.laneOf l
  match x.job with
  | none => s
  | some j =>
    let d := s.desc j
    let k := dKind d
    let wait := fun (t : State) (r : List Byte × List Byte) => t.setLane l { t.laneOf l with phase := 6, waiting := some r, image := [] }
    if x.phase = 1 then
      wait s (s.staleKept j { s.laneCtx l j with reason := 10, phase := 1, loaded := noTime, start := noTime } 0)
    else if x.phase = 2 then
      match cuts.find? fun c => c.lane == l with
      | none => wait s (s.staleKept j { s.laneCtx l j with reason := 10, phase := 2 } 0)
      | some c =>
        if c.phase = 6 then s.laneDone l j 6
        else if k < 2 ∧ c.phase = 3 then wait s (s.staleWarm j { s.laneCtx l j with reason := 10, phase := 3 } 0)
        else if (k < 2 ∧ c.phase = 4) ∨ (2 ≤ k ∧ c.phase = 5) then
          let (s1, ce) := s.laneCe l
          match s1.jobResult l d c.done with
          | none => wait s1 (s1.staleKept j { s1.laneCtx l j with reason := 10, phase := 5 } ce)
          | some o =>
            let rc := s1.laneCtx l j
            if o.cut then
              wait s1 (jobRecord { rc with flags := rc.flags ||| ce, resLen := o.sec.length, phase := c.phase } o, o.sec)
            else s1.laneDone l j 0
        else wait s (s.staleKept j { s.laneCtx l j with reason := 10, phase := 2 } 0)
    else s

/-- The array's work of the frame waits for stores after the deadline. -/
def State.lanesWait (s : State) : Bool := s.lsc.lane.any fun x => x.waiting.isSome

/-- The B34 edge: lanes still at work are cut; without a cut the deeds pass now (R204). -/
def State.lscB34 (s : State) (cuts : List LaneCut) : State :=
  if s.inReset 44 || (!s.lsc.placed || s.lsc.passed) then s
  else
    let t := (List.range 96).foldl (fun t l => t.cutLane cuts l) s
    if t.lanesWait then t else t.lscFinish

/-- The stores after the deadline, in lane order, and the end of the array's work (R204). -/
def State.storeWaiting (s : State) : State :=
  ((List.range 96).foldl (fun t l =>
    let x := t.laneOf l
    match x.job, x.waiting with
    | some j, some (r, sec) =>
      ((t.storeJob j (r.take 104 ++ leBytes 4 t.afterB10 ++ r.drop 108) sec).setLane l { x with waiting := none }).laneEnd l
    | _, _ => t) s).lscFinish

/-! ### The B0 and B36 edges and resets (R213, R214, R216–R218) -/

/-- Every verdict is none and no warm start exists (R213, R218). -/
def State.noVerdicts (s : State) : State :=
  ({ s with lsc := { s.lsc with verdicts := [] } } : State).store (s.resAddr 0x4000) (zeros 8192)
def State.noWarmStart (s : State) : State := s.store (s.resAddr 16) (zeros 4)

/-- The exponent of ρ after a commit of `LSC_RHO` (R216). -/
def State.rhoInit (s : State) : State :=
  let lo := s.fi Fld.LSC_RHO_MIN
  let hi := s.fi Fld.LSC_RHO_MAX
  { s.setF Fld.LSC_RHO_CUR_EXP (uns 8 (clampI lo hi (s.fi Fld.LSC_RHO_INIT))) with lsc := { s.lsc with rhoNew := false } }

/-- The lane scheduler at a B0 commit: `old` is the table set selected before. -/
def State.lscB0 (s : State) (old : Option Nat) : State :=
  let s1 := if s.lsc.rhoNew then s.rhoInit else s
  if s1.asm.sel = old then s1 else s1.noVerdicts

/-- ρ adapts to the bellwether's residuals (R216). -/
def State.rhoAdapt (s : State) : State :=
  match s.lsc.recs.find? fun e => leAt e.2 8 1 == 0 with
  | none => s
  | some (_, r) =>
    if rStatus r ≤ 1 ∧ bitOf (rFlags r) 2 = false ∧ s.fb Fld.LSC_RHO_ADAPT = true then
      let rp := leAt r 24 4
      let rd := leAt r 28 4
      let e := s.fi Fld.LSC_RHO_CUR_EXP
      let e' := if fLt (fScale rd 2) rp then e + 1 else if fLt (fScale rp 2) rd then e - 1 else e
      let e2 := clampI (s.fi Fld.LSC_RHO_MIN) (s.fi Fld.LSC_RHO_MAX) e'
      if e2 = e then s else (s.setF Fld.LSC_RHO_CUR_EXP (uns 8 e2)).raise Ev.LSC_RHO_CHANGED
    else s

/-- Verdict summary and ages (R214). -/
def State.verdictSum (s : State) : State :=
  let en := match s.tset with
    | none => []
    | some t => (List.range 256).filter fun i => (t.scen i).kind != 0
  let vs := en.map fun i => s.rdLe (s.resAddr (0x4000 + 32 * i + 8)) 1
  let ages := en.map fun i =>
    if s.rdLe (s.resAddr (0x4000 + 32 * i + 8)) 1 = 0 then 65535
    else min 65535 (uns 64 (Int.ofNat s.frame - Int.ofNat (s.rdLe (s.resAddr (0x4000 + 32 * i)) 8)))
  let all := (List.range 256).map fun i => s.rdLe (s.resAddr (0x4000 + 32 * i + 8)) 1
  let fails := (all.zip (s.lsc.verdicts ++ List.replicate 256 0)).any fun e => e.1 == 2 && e.2 != 2
  let mx := ages.foldl max 0
  let s1 := (((s.setF Fld.LSC_VSUM_FAILS (vs.filter (· == 2)).length).setF Fld.LSC_VSUM_HOLDS (vs.filter (· == 1)).length).setF
    Fld.LSC_VSUM_UNKNOWN (vs.filter fun v => v != 1 && v != 2).length).setF Fld.LSC_VAGE_MAX_AGE mx
  let s2 := if fails then s1.raise Ev.LSC_CONSEQ_FAIL else s1
  let old := decide (max 1 (s.f Fld.LSC_VERDICT_MAX_AGE) < mx)
  let s3 := if old && !s.lsc.old then s2.raise Ev.LSC_VERDICT_OLD else s2
  { s3 with lsc := { s3.lsc with old := old, verdicts := all } }

/-- Runs of frames with uncorrectable lane errors (R217): the state, and whether lane 0 or 1 has just reached the limit. -/
def State.ueRuns (s : State) : State × Bool :=
  let thr := max 1 (s.f Fld.LSC_VERDICT_UE_RUN)
  let hit := (List.range 96).filter fun l => s.lsc.ue.contains l && s.f (Fld.LAN_UE_RUN_RUN l) + 1 == thr
  let s1 := forUp 96 (fun l t => t.setF (Fld.LAN_UE_RUN_RUN l) (if t.lsc.ue.contains l then min 255 (t.f (Fld.LAN_UE_RUN_RUN l) + 1) else 0)) s
  (if hit.isEmpty then s1 else s1.raise Ev.LSC_LANE_FAULT, hit.any (· < 2))

/-- The lane scheduler at the B36 edge: the state, and whether lane 0 or 1 has a `LANE_FAULT`. -/
def State.lscB36 (s : State) : State × Bool := if s.inReset 44 then (s, false) else s.verdictSum.rhoAdapt.ueRuns

/-! ### The commands -/

/-- `LANE_LOAD_DONE` of lane `l`. -/
def execLaneLoadDone (l : Nat) (s : State) : Out :=
  match (s.laneOf l).job with
  | none => live s s
  | some j => liveIf (s.loadsNext l) s (s.laneLoad l j)

/-- `LANE_JOB_DONE` of lane `l`. -/
def execLaneJobDone (l : Nat) (s : State) : Out :=
  match (s.laneOf l).job with
  | none => live s s
  | some j => liveIf ((s.laneOf l).phase == 2) s (s.laneDone l j 0)

/-- `LANE_ARRAY_DONE`: the stores after the deadline. -/
def execLaneArrayDone (s : State) : Out := liveIf (s.lanesWait && !s.inReset 44) s s.storeWaiting

/-- `LANE_ECC_UE` in lane `l`. -/
def execLaneEccUe (l : Nat) (s : State) : Out :=
  match (s.laneOf l).job with
  | none => live s s
  | some j => liveIf (decide ((s.laneOf l).phase = 1 ∨ (s.laneOf l).phase = 2)) s (s.laneUe l j)

end Sys2Proof.Machine
end

