-- ==== Sys2Proof/Machine/Control.lean ====
section
/-! DEFINITION. The control engine (R220–R240): signals, the slot law, sources, the fence unit, modes, the trajectory store,
command formation and the commits of the slot pages. -/

namespace Sys2Proof.Machine

/-! ### Signals (R220, R221) -/

/-- Angle into a signal. -/
def angIn (a : Nat) : Int := sgn 32 (uns 32 (roundHalfUp (Int.ofNat (a * 2 ^ 32)) 36000))

/-- Thrust into a signal. -/
def thrIn (p : Int) : Int := satI 32 (roundHalfUp (p * 2 ^ 31) 10000)

/-- A signal as an angle in 0.01°. -/
def angOut (y : Int) : Nat := ((roundHalfUp (Int.ofNat (uns 32 y * 36000)) (2 ^ 32)) % 36000).toNat

/-- A signal as thrust in 0.01 %. -/
def thrOut (y : Int) : Int := clampI (-10000) 10000 (roundHalfUp (y * 10000) (2 ^ 31))

/-- round(v · 2^k) of R221. -/
def roundShift (v k : Int) : Int := if 0 ≤ k then shl v k else roundHalfUp v (2 ^ (-k).toNat)

/-! ### Slots -/

/-- Slot `n`. -/
def State.slotOf (s : State) (n : Nat) : SlotSt := s.cle.slot.getD n {}
def State.setSlot (s : State) (n : Nat) (x : SlotSt) : State := { s with cle := { s.cle with slot := setNth s.cle.slot n x } }

/-- Output, effective set-point and integrator of slot `n` (R222). -/
def State.slotY (s : State) (n : Nat) : Int := s.fi (Fld.CLE_SLOT_OUT_VALUE n)
def State.slotSp (s : State) (n : Nat) : Int := s.fi (Fld.CLE_SLOT_SP_VALUE n)
def State.slotI (s : State) (n : Nat) : Int := sgn 64 (s.pair (Adr.CLE_SLOT_IST_LO n) (Adr.CLE_SLOT_IST_HI n))
def State.setSlotI (s : State) (n : Nat) (v : Int) : State := s.setPair (Adr.CLE_SLOT_IST_LO n) (Adr.CLE_SLOT_IST_HI n) (uns 64 v)

/-- The mode in force (R229). -/
def State.mode (s : State) : Nat := s.f Fld.CLE_MODE_CUR

/-- `AUTO` reads as `GRAZE` while the fence state is `GRAZE` (R229). -/
def State.asGraze (s : State) (m : Nat) : Nat := if m = 1 ∨ m = 2 then (if s.fb Fld.CLE_MODE_GRAZING then 2 else 1) else m

/-- Set the mode in force, with `MODE_CHANGED` (R229, R230). -/
def State.setMode (s : State) (m : Nat) : State :=
  let t := s.setF Fld.CLE_MODE_CUR (s.asGraze m)
  if m = s.mode ∨ (m = 1 ∧ s.mode = 2) then t else t.raise Ev.CLE_MODE_CHANGED

/-! ### Sources (R224, R234, R263) -/

/-- Feedback word `w` of thruster `t` as a signal (R263). -/
def State.fbSignal (s : State) (t w : Nat) : Int :=
  let hw := fun (i : Nat) => bitsOf (s.reg (Adr.CAN_FB t (i / 2))).toNat (16 * (i % 2) + 15) (16 * (i % 2))
  if 24 ≤ t ∨ s.fb (Fld.CAN_FB_STAT_VALID t) = false then 0
  else if w = 0 then angIn (hw 3)
  else if w ≤ 5 then thrIn (sgn 16 (hw (3 + w)))
  else 0

/-- The step of the committed trajectory in force, before its limit (R234). -/
def State.trajStep (s : State) : Nat :=
  let d := Int.ofNat s.now - Int.ofNat (s.pair Adr.CLE_TRAJ_T0_LO Adr.CLE_TRAJ_T0_HI)
  if d < 0 then 0 else d.toNat / max 1 s.cle.h

/-- The playout at a beat edge (R234). -/
def State.playout (s : State) : State :=
  if !s.fb Fld.CLE_TRAJ_STAT_VALID then s
  else
    let k := s.trajStep
    let s1 := (s.setF Fld.CLE_TRAJ_STAT_STEP (min 19 k)).setF Fld.CLE_TRAJ_STAT_END (b2n (decide (20 ≤ k)))
    if 20 ≤ k ∧ s.cle.endRaised = false then
      ({ s1 with cle := { s1.cle with endRaised := true } } : State).raise Ev.CMD_TRAJ_END
    else s1

/-- The value of source `code` with index `idx` for a slot whose register source is `r` and whose process value is `pv` (R224). -/
def State.source (s : State) (code idx : Nat) (r pv : Int) : Int :=
  if code = 1 then r
  else if code = 2 then (if idx < 16 then sgn 32 (s.reg (Adr.FLT_CH_OUT idx)).toNat else 0)
  else if code = 3 then (if idx < 8 then sgn 32 (s.reg (Adr.FIO_DI_CNT idx)).toNat else 0)
  else if code = 4 then (if idx < 8 then sgn 32 (s.reg (Adr.FIO_DI_FREQ idx)).toNat else 0)
  else if code = 5 then
    let t := idx % 32
    if !s.fb Fld.CLE_TRAJ_STAT_VALID then (if bitOf idx 5 then 0 else pv)
    else if 24 ≤ t then 0
    else
      let k := s.f Fld.CLE_TRAJ_STAT_STEP
      if bitOf idx 5 then thrIn (s.fi (Fld.CLE_TRAJ_THR k t)) else angIn (s.f (Fld.CLE_TRAJ_AZ k t))
  else if code = 6 then s.fbSignal (idx % 32) (bitsOf idx 7 5)
  else if code = 7 then (if idx < 64 then s.slotY idx else 0)
  else 0

/-- The set-point source of slot `n` in mode `m`: code and index; constant 0 as code 0, index 0 (R224). -/
def State.spKey (s : State) (n m : Nat) : Nat × Nat :=
  let norm := fun (c i : Nat) => if c = 0 ∨ 8 ≤ c then (0, 0) else (c, i)
  if m = 0 then norm (s.f (Fld.CLE_SLOT_CFG_SP_MAN n)) (s.f (Fld.CLE_SLOT_IDX_MAN_IDX n))
  else if m = 3 ∧ s.fb (Fld.CLE_SLOT_CFG_STOP_SP n) = true then (0, 0)
  else norm (s.f (Fld.CLE_SLOT_CFG_SP_AUTO n)) (s.f (Fld.CLE_SLOT_IDX_AUTO_IDX n))

/-! ### The slot law (R221–R225) -/

/-- What one evaluation of the law reads: the source value, the process value, coefficients and limits (R221, R222). -/
structure SlotIn where
  src : Int
  pv : Int
  wrapE : Bool
  p : Int
  ki : Int
  a : Int
  shP : Int
  shKi : Int
  shA : Int
  hystHi : Int
  hystLo : Int
  umax : Int
  umin : Int
  rate : Int
  ramp : Int
  fresh : Bool
  preset : Bool
  yPrev : Int
  sp : Int
  i64 : Int
  relay : Int
deriving DecidableEq, Repr

/-- What it gives. -/
structure SlotOut where
  y : Int
  sp : Int
  e : Int
  i64 : Int
  relay : Int
  usat : Bool
  rlim : Bool
  frozen : Bool
  ovf : Bool
  bump : Bool
deriving DecidableEq, Repr

/-- `sp_eff` of R222 and R223. -/
def SlotIn.spEff (i : SlotIn) : Int :=
  if i.fresh then i.src
  else
    let d := i.src - i.sp
    let dsp := if i.wrapE then sgn 32 (uns 32 d) else d
    let st := i.sp + (if i.ramp = 0 then dsp else clampI (-i.ramp) i.ramp dsp)
    if i.wrapE then sgn 32 (uns 32 st) else st

/-- The error before its saturation, and as the law uses it. -/
def SlotIn.err (i : SlotIn) : Int :=
  let e := i.spEff - i.pv
  if i.wrapE then sgn 32 (uns 32 e) else satI 32 e

/-- The relay state s. -/
def SlotIn.relayNext (i : SlotIn) : Int :=
  let e := i.err
  if i.hystHi < e then 1 else if e < -i.hystHi then -1 else if Int.ofNat e.natAbs < i.hystLo then 0 else i.relay

/-- The law of R222. -/
def SlotIn.law (i : SlotIn) : SlotOut :=
  let sp := i.spEff
  let e := i.err
  let s := i.relayNext
  let pe := roundShift (i.p * e) (i.shP - 31)
  let pterm := satI 32 pe
  let ae := roundShift i.a i.shA
  let asig := satI 32 ae
  let de := roundShift (i.ki * e) (i.shKi + 1)
  let d := satI 64 de
  let aterm := s * asig
  let pre := i.yPrev - aterm - pterm
  let i0 := if i.preset then satI 32 pre * 2 ^ 32 else i.i64
  let u := fdiv i0 (2 ^ 32) + aterm + pterm
  let uOut := clampI i.umin i.umax u
  let frozen := (decide (i.umax < u) && decide (0 < d)) || (decide (u < i.umin) && decide (d < 0))
  let i1 := if frozen then i0 else satI 64 (i0 + d)
  let y := if i.rate = 0 then uOut else clampI (i.yPrev - i.rate) (i.yPrev + i.rate) uOut
  { y := y, sp := sp, e := e, i64 := i1, relay := s, usat := decide (u ≠ uOut), rlim := decide (y ≠ uOut), frozen := frozen,
    ovf := decide (pterm ≠ pe) || (decide (asig ≠ ae) || (decide (d ≠ de) || ((!frozen && decide (i1 ≠ i0 + d)) ||
      (!i.wrapE && decide (e ≠ sp - i.pv)))))
    bump := i.preset && decide (satI 32 pre ≠ pre) }

/-- The operands of slot `n` in this beat (R224, R225). -/
def State.slotIn (s : State) (n : Nat) : SlotIn :=
  let x := s.slotOf n
  let m := s.mode
  let pv := s.source (s.f (Fld.CLE_SLOT_CFG_PV_SRC n)) (s.f (Fld.CLE_SLOT_IDX_PV_IDX n)) (s.fi (Fld.CLE_SLOT_PVREG_VALUE n)) 0
  let key := s.spKey n m
  let umax := s.fi (Fld.CLE_SLOT_UMAX_VALUE n)
  let hh := s.f (Fld.CLE_SLOT_HYST_HI_TH n)
  let r := s.f (Fld.CLE_SLOT_STAT_RELAY n)
  { src := s.source key.1 key.2 (s.fi (Fld.CLE_SLOT_SPREG_VALUE n)) pv, pv := pv, wrapE := s.fb (Fld.CLE_SLOT_CFG_WRAP_E n),
    p := s.fi (Fld.CLE_SLOT_P_C n), ki := s.fi (Fld.CLE_SLOT_KI_C n), a := s.fi (Fld.CLE_SLOT_A_C n),
    shP := s.fi (Fld.CLE_SLOT_SHIFT_SH_P n), shKi := s.fi (Fld.CLE_SLOT_SHIFT_SH_KI n), shA := s.fi (Fld.CLE_SLOT_SHIFT_SH_A n),
    hystHi := Int.ofNat hh, hystLo := Int.ofNat (min hh (s.f (Fld.CLE_SLOT_HYST_LO_TH n))),
    umax := umax, umin := min umax (s.fi (Fld.CLE_SLOT_UMIN_VALUE n)),
    rate := Int.ofNat (s.f (Fld.CLE_SLOT_RATE_STEP n)), ramp := Int.ofNat (s.f (Fld.CLE_SLOT_RAMP_STEP n)),
    fresh := x.fresh,
    preset := s.fb (Fld.CLE_SLOT_CFG_BUMPLESS n) && (!x.fresh && (x.preset || decide (s.spKey n s.cle.lastMode ≠ key))),
    yPrev := s.slotY n, sp := s.slotSp n, i64 := s.slotI n, relay := if r = 1 then 1 else if r = 3 then -1 else 0 }

/-- Put an evaluation's results into slot `n`'s registers. -/
def State.putSlot (s : State) (n : Nat) (o : SlotOut) : State :=
  let st := (s.reg (Adr.CLE_SLOT_STAT n)).toNat
  let w := bitsOf st 25 0 + (if o.relay = 1 then 0x40000000 else if o.relay = -1 then 0xC0000000 else 0) + 0x20000000 * b2n o.usat +
    0x10000000 * b2n o.rlim + 0x08000000 * b2n o.frozen
  let s1 := (((s.setReg (Adr.CLE_SLOT_OUT n) (BitVec.ofNat 32 (uns 32 o.y))).setReg (Adr.CLE_SLOT_SP n)
    (BitVec.ofNat 32 (uns 32 o.sp))).setReg (Adr.CLE_SLOT_ERR n) (BitVec.ofNat 32 (uns 32 o.e))).setSlotI n o.i64
  let s2 := s1.setReg (Adr.CLE_SLOT_STAT n) (BitVec.ofNat 32 w)
  let s3 := if o.ovf then (s2.setF (Fld.CLE_SLOT_STAT_OVF n) 1).raise Ev.CLE_OVF else s2
  if o.bump then (s3.setF (Fld.CLE_SLOT_STAT_BUMP n) 1).raise Ev.CLE_BUMP else s3

/-- A disabled slot (R223). -/
def slotZero : SlotOut := ⟨0, 0, 0, 0, 0, false, false, false, false, false⟩

/-- Evaluate slot `n` (R222, R223). -/
def State.evalSlot (s : State) (n : Nat) : State :=
  let o := if s.fb (Fld.CLE_SLOT_CFG_EN n) then (s.slotIn n).law else slotZero
  let t := s.putSlot n o
  t.setSlot n { t.slotOf n with fresh := false, preset := false }

/-- The slots of one beat, ascending (R222), after the playout. -/
def State.evalSlots (s : State) : State :=
  if !s.works 28 then s
  else
    let t := forUp 64 (fun n t => t.evalSlot n) s.playout
    { t with cle := { t.cle with lastMode := t.mode } }

/-! ### Commits of the slot pages (R236–R238) -/

/-- The registers of slot `n` with shadows. -/
def slotRegs (n : Nat) : Nat × Nat := (Adr.CLE_SLOT_CFG n, Adr.CLE_SLOT_I_HI n)

/-- Slot `n` is committed (R223, R225, R238). -/
def State.commitSlot (s : State) (n : Nat) : State :=
  let r := slotRegs n
  let t := s.commitRegs (r.1 / 1024) fun a => decide (r.1 ≤ a) && decide (a ≤ r.2)
  let was := s.fb (Fld.CLE_SLOT_CFG_EN n)
  let on := t.fb (Fld.CLE_SLOT_CFG_EN n)
  let fresh := on && !was
  let gains := [Adr.CLE_SLOT_P n, Adr.CLE_SLOT_A n].any (fun a => decide (s.reg a ≠ t.reg a)) ||
    (s.f (Fld.CLE_SLOT_SHIFT_SH_P n) != t.f (Fld.CLE_SLOT_SHIFT_SH_P n) || s.f (Fld.CLE_SLOT_SHIFT_SH_A n) != t.f (Fld.CLE_SLOT_SHIFT_SH_A n))
  let load := s.fb (Fld.CLE_SLOT_CTRL_I_LOAD n)
  let t1 := if fresh then (t.setSlotI n 0).setReg (Adr.CLE_SLOT_OUT n) 0 else t
  let t2 := if load && on then t1.setSlotI n (sgn 64 (t1.pair (Adr.CLE_SLOT_I_LO n) (Adr.CLE_SLOT_I_HI n))) else t1
  let t3 := if fresh then t2.setF (Fld.CLE_SLOT_STAT_RELAY n) 0 else t2
  (t3.setF (Fld.CLE_SLOT_CTRL_I_LOAD n) 0).setSlot n { s.slotOf n with fresh := fresh, preset := gains }

/-- `LOCK_HELD` of slot `n` at a beat edge (R238). -/
def State.lockStep (s : State) (n : Nat) : State :=
  if s.fb (Fld.CLE_SLOT_CTRL_WLOCK n) then
    let h := min 42 ((s.slotOf n).held + 1)
    let t := s.setSlot n { s.slotOf n with held := h }
    if h = 41 then t.raise Ev.CLE_LOCK_HELD else t
  else s.setSlot n { s.slotOf n with held := 0 }

/-- The commit of page `p` (29 or 30) when its commit register names beat `b` (R236). -/
def State.commitSlots (s : State) (p b : Nat) : State :=
  let w := (s.reg (p * 1024 + 32)).toNat
  if bitsOf w 7 6 = 1 ∧ min 39 (bitsOf w 5 0) ≠ b then s
  else
    (forUp 32 (fun i t =>
      let n := (p - 29) * 32 + i
      if t.fb (Fld.CLE_SLOT_CTRL_WLOCK n) then t else t.commitSlot n) s).commitGen p

/-! ### The fence unit (R226–R228) -/

/-- The exponents of the fence unit. -/
def State.fenceExp (s : State) (a : Nat) : Int :=
  Int.ofNat (min 30 (if a < 2 then s.f Fld.CLE_FENCE_CFG_NE_EXP else s.f Fld.CLE_FENCE_CFG_H_EXP))

/-- A binary32 value as a count (R226). -/
def fenceCount (c : Nat) (k : Int) : Int := satI 32 (Dy.mk (fDy c).m ((fDy c).e + k)).rne

/-- The assembler passes η̃ of x₀ (R226). -/
def State.fencePass (s : State) : State :=
  match s.tset with
  | none => s
  | some t =>
    if s.asm.usable && s.asm.past then
      let x := (s.frameLin t).x0
      let s1 := forUp 3 (fun a u => u.setF (Fld.CLE_FENCE_ERR_COUNT a) (uns 32 (fenceCount (x.getD a 0) (u.fenceExp a)))) s
      { s1 with cle := { s1.cle with err := some (x.take 3) } }
    else s

/-- The fence half-widths of the committed pasture as counts, at a B0 commit (R226). -/
def State.fenceWidths (s : State) : State :=
  match s.tset with
  | none => s
  | some t =>
    let i := s.f Fld.ASM_PAST_SEL_IDX
    forUp 3 (fun a u =>
      (u.setF (Fld.CLE_FENCE_IN_COUNT a) (uns 32 (fenceCount (t.past i (3 + a)) (u.fenceExp a)))).setF
        (Fld.CLE_FENCE_OUT_COUNT a) (uns 32 (fenceCount (t.past i (6 + a)) (u.fenceExp a)))) s

/-- `HOLD` with a dwell count of 0 (R228). -/
def State.fenceHold (s : State) : State :=
  let t := (s.setF Fld.CLE_MODE_GRAZING 0).setF Fld.CLE_FENCE_STAT_DWELL_CNT 0
  t.setF Fld.CLE_MODE_CUR (t.asGraze t.mode)

/-- The dwell count has reached `FRAMES`: `GRAZE` (R227). -/
def State.fenceGraze (s : State) : State :=
  if s.mode = 1 ∧ s.fb Fld.CLE_MODE_GRAZING = false ∧ max 1 (s.f Fld.CLE_FENCE_DWELL_FRAMES) ≤ s.f Fld.CLE_FENCE_STAT_DWELL_CNT then
    let t := (s.setF Fld.CLE_MODE_GRAZING 1).setF Fld.CLE_FENCE_STAT_DWELL_CNT 0
    (t.setF Fld.CLE_MODE_CUR 2).raise Ev.CLE_FENCE_GRAZE
  else s

/-- The B36 update (R227, R228). -/
def State.fenceUpdate (s : State) : State :=
  let idle := !(s.mode == 1 || s.mode == 2) || (!s.fb Fld.CLE_MODE_REQ_GRAZE_EN || s.cle.err.isNone)
  let inn := fun a => s.f (Fld.CLE_FENCE_IN_COUNT a)
  let out := fun a => s.f (Fld.CLE_FENCE_OUT_COUNT a)
  let cnt := fun a => (s.fi (Fld.CLE_FENCE_ERR_COUNT a)).natAbs
  let zero := fun a => inn a == 0 && out a == 0
  let ins := (List.range 3).foldl (fun m a => if !zero a && decide (cnt a ≤ inn a) then m + 2 ^ a else m) 0
  let outs := (List.range 3).foldl (fun m a => if zero a || decide (out a < cnt a) then m + 2 ^ a else m) 0
  let s1 := if s.cle.err.isNone then s else (s.setF Fld.CLE_FENCE_STAT_INSIDE ins).setF Fld.CLE_FENCE_STAT_OUTSIDE outs
  if idle then s1.fenceHold
  else if s1.fb Fld.CLE_MODE_GRAZING then (if outs = 0 then s1 else s1.fenceHold.raise Ev.CLE_FENCE_HOLD)
  else if ins = 7 then (s1.stickN Fld.CLE_FENCE_STAT_DWELL_CNT 1).fenceGraze
  else s1.setF Fld.CLE_FENCE_STAT_DWELL_CNT 0

/-! ### Modes (R229, R230) -/

/-- `SAFE_STOP` is entered or left at the first beat edge after the demand or the release (R230). -/
def State.stopStep (s : State) : State :=
  match s.cle.stopReq with
  | none => s
  | some m =>
    let t : State := { s with cle := { s.cle with stopReq := none, modeTo := none } }
    if m = 3 then t.setMode 3 else if s.mode = 3 then t.setMode 0 else t

/-- The B0 commit of `CLE_MODE_REQ` and the frame's mode (R229); `was` is the request committed before. -/
def State.modeB0 (s : State) : State :=
  let was := s.f Fld.CLE_MODE_REQ
  let req := s.f Fld.CLE_MODE_REQ_AUTO
  let s1 := s.setF Fld.CLE_MODE_REQ req
  if s.mode = 3 then { s1 with frm := { s1.frm with mode := 3 }, cle := { s1.cle with modeTo := none } }
  else if req ≠ was then { s1 with frm := { s1.frm with mode := s1.asGraze req }, cle := { s1.cle with modeTo := some req } }
  else { s1 with frm := { s1.frm with mode := s1.asGraze s1.mode }, cle := { s1.cle with modeTo := none } }

/-- The mode transfer at the B36 edge (R229). -/
def State.modeB36 (s : State) : State :=
  match s.cle.modeTo with
  | none => s
  | some m =>
    let t : State := { s with cle := { s.cle with modeTo := none } }
    if s.mode = 3 then t else t.setMode m

/-- The CLE0 page and the fence unit at a B0 edge (R226, R228, R229, R236): `fence` says that the commit changes
`ASM_PAST_SEL`. -/
def State.cleB0 (s : State) (past : Bool) : State :=
  let e := s.reg Adr.CLE_FENCE_CFG
  let t := s.commitPage 28
  let t1 := (if past || decide (t.reg Adr.CLE_FENCE_CFG ≠ e) then t.fenceHold else t).fenceWidths
  ({ t1 with cle := { t1.cle with err := none } } : State).modeB0

/-! ### Command formation (R215, R231–R233) -/

/-- A binary32 angle in radians as 0.01°, modulo 36,000 (R231). -/
def degOf (c : Nat) : Nat := ((Dy.floor (Dy.add (fDy (fMul c 0x45B30CA0)) ⟨1, -1⟩)) % 36000).toNat

/-- x / F_MAX × 10,000 rounded (R231). -/
def pctOf (x fmax : Nat) : Int := Dy.floor (Dy.add (fDy (fMul (fDiv x fmax) 0x461C4000)) ⟨1, -1⟩)

/-- One thruster's step: azimuth and thrust fields from its thrust variables (R231). -/
def stepOf (x : Thr) (avail : Bool) (prev : Nat) (fx fy : Nat) : Nat × Int :=
  if !avail then (prev, 0)
  else if x.ty = 1 then
    let mag := fSqrt (fAdd (fMul fx fx) (fMul fy fy))
    (if fLt mag (fMul 0x3C23D70A x.fmax) then prev else degOf (fAtan2 fy fx), min 10000 (pctOf mag x.fmax))
  else (if x.ty = 2 then 9000 else degOf x.alpha, clampI (-10000) 10000 (pctOf fx x.fmax))

/-- The steps of the trajectory: `sol` the selected solution with `w` values a stage (R231). -/
def State.trajSteps (s : State) (t : TSet) (sol : List Nat) (w : Nat) : List (List (Nat × Int)) :=
  let lost := s.lostThr t
  let prev0 := t.thr.mapIdx fun j x => ((s.cle.lastAz.getD j none).getD (degOf x.park))
  ((List.range 20).foldl (fun (acc : List (List (Nat × Int)) × List Nat) k =>
    let st := (sol.drop (min k (t.n - 1) * w)).take w
    let row := t.thr.mapIdx fun j x =>
      stepOf x (!lost.contains j) (acc.2.getD j 0) (st.getD (t.fIdx j) 0) (st.getD (t.fIdx j + 1) 0)
    (acc.1 ++ [row], row.map fun e => e.1)) ([], prev0)).1

/-- An entry of R232 as a little-endian word. -/
def entryWord (e : Nat × Int) : Nat := e.1 % 65536 + 65536 * uns 16 e.2

/-- The completion record of job `j` as command formation reads it (R215, R218): all zeros with `REFUSED` where the read fails. -/
def State.cmdRecord (s : State) (j : Nat) : State × List Byte :=
  let r := s.mRead 25 (s.resAddr (0x40 + 128 * j)) 128
  (r.st, if r.rsp = .okay then r.data else putAt (zeros 128) 10 1 5)

/-- The bellwether result is accepted (R215). -/
def State.accepts (s : State) (r : List Byte) : Bool :=
  (s.frm.mode == 1 || s.frm.mode == 2) && (decide (rStatus r ≤ 1) && (!bitOf (rFlags r) 2 &&
    (fLe (leAt r 24 4) (s.f Fld.LSC_ACC_RP_VALUE) && fLe (leAt r 28 4) (s.f Fld.LSC_ACC_RD_VALUE))))

/-- Command formation (R215, R231, R233). -/
def State.formCommand (s : State) : State :=
  let (s1, bs) := s.cmdRecord 0
  let (s2, bw) := s1.cmdRecord 1
  let acc := s2.accepts bw
  let s3 : State := { s2 with frm := { s2.frm with cmdDone := true, selBackstop := !acc }, cle := { s2.cle with cand := none, bwStatus := rStatus bw } }
  match s3.tset with
  | none => s3
  | some t =>
    if acc = false ∧ rStatus bs = 5 then s3
    else
      let w := if acc then t.s else t.nf
      let r := s3.mRead 25 (s3.resAddr (if acc then 0x6000 else 0xB000)) (4 * t.n * w)
      if r.rsp ≠ .okay then r.st
      else
        let sol := cutLe 4 (t.n * w) r.data
        let rows := r.st.trajSteps t sol w
        let words := (rows.map fun row => (List.range 24).map fun j => (row[j]?.map entryWord).getD 0).flatten
        { r.st with cle := { r.st.cle with cand := some ⟨words, t.t, sol.take t.nf, 1000000 * t.h⟩ } }

/-- The trajectory store at the B36 edge (R46, R233). -/
def State.commitTraj (s : State) : State :=
  let late := !s.frm.cmdDone
  let s0 : State := { s with frm := { s.frm with ovrCmd := late } }
  let base := fun (t : State) (done : Bool) =>
    (((t.setF Fld.CMD_SEL_PLAYING (b2n !done)).setF Fld.CMD_SEL_COMMITTED (b2n done)).setF Fld.CMD_SEL_BW_STATUS t.cle.bwStatus).setF
      Fld.CMD_SEL_SEL (b2n t.frm.selBackstop)
  match late, s0.cle.cand with
  | false, some c =>
    let s1 := forUp 20 (fun k t => forUp 24 (fun j t => t.setReg (Adr.CLE_TRAJ k j) (BitVec.ofNat 32 (c.words.getD (24 * k + j) 0))) t) s0
    let s2 := (s1.setPair Adr.CLE_TRAJ_T0_LO Adr.CLE_TRAJ_T0_HI s.tCommand).setReg Adr.CLE_TRAJ_STAT 0x80000000
    let s3 := forUp 24 (fun j t => t.setReg (Adr.CMD_SETPT j) (BitVec.ofNat 32 (c.words.getD j 0))) s2
    let az := (List.range 24).map fun j => if j < c.thr then some (c.words.getD j 0 % 65536) else s.cle.lastAz.getD j none
    base { s3 with cle := { s3.cle with h := c.h, endRaised := false, lastAz := az, cand := none }, asm := { s3.asm with fin := c.fin } } true
  | _, _ =>
    let s1 := (s0.stick Fld.CMD_NOCOMMIT_CNT_COUNT Fld.CMD_NOCOMMIT_CNT_SAT 1).raise Ev.CMD_NO_COMMIT
    base { s1 with cle := { s1.cle with cand := none } } false

/-! ### The helm fields (R235) -/

/-- Azimuth, thrust, pitch and azimuth-rate fields of thruster `t`; `ps` names the pitch slot. -/
def State.helmFields (s : State) (t : Nat) (ps : Option Nat) : Nat × Int × Int × Int :=
  if !s.works 28 then (0, 0, 0, 0)
  else
    let az := s.f (Fld.CLE_HELM_AZ_SLOT t)
    (if s.fb (Fld.CLE_HELM_AZ_EN t) then angOut (if s.fb (Fld.CLE_HELM_AZ_SP t) then s.slotSp az else s.slotY az) else 0,
     if s.fb (Fld.CLE_HELM_THR_EN t) then thrOut (s.slotY (s.f (Fld.CLE_HELM_THR_SLOT t))) else 0,
     (ps.map fun n => thrOut (s.slotY n)).getD 0,
     if s.fb (Fld.CLE_HELM_AZR_EN t) then thrOut (s.slotY (s.f (Fld.CLE_HELM_AZR_SLOT t))) else 0)

/-! ### The commands -/

/-- `CMD_FORMATION_DONE`: in B34–B35, once the deeds have passed. -/
def execCmdFormationDone (s : State) : Out :=
  liveIf (s.running && ((s.beat == 34 || s.beat == 35) && (s.frm.runs && (s.lsc.passed && (!s.frm.cmdDone && s.works 150))))) s s.formCommand

/-- `SLOT_I_LOAD` of slot `n`. -/
def execSlotILoad (n : Nat) (s : State) : Out := liveIf (decide (n < 64)) s ((s.setF (Fld.CLE_SLOT_CTRL_I_LOAD n) 1).ok)

/-- `SLOT_WLOCK`: a write of `on` to `WLOCK` of slot `n`. -/
def execSlotWlock (n : Nat) (on : Bool) (s : State) : Out := liveIf (decide (n < 64)) s ((s.setF (Fld.CLE_SLOT_CTRL_WLOCK n) (b2n on)).ok)

/-- `LOCK_HELD` of slot `n`: more than 40 beats have passed under `WLOCK`. -/
def execLockHeld (n : Nat) (s : State) : Out :=
  liveIf (decide (n < 64) && decide (40 < (s.slotOf n).held)) s (s.raise Ev.CLE_LOCK_HELD)

/-- `SLOT_IST_READ`: a read of `CLE_SLOT_IST_LO` of slot `n`. -/
def execSlotIstRead (n : Nat) (s : State) : Out :=
  liveIf (decide (n < 64)) s ((s.setSlot n { s.slotOf n with ist := some (s.reg (Adr.CLE_SLOT_IST_HI n)).toNat }).ansW (s.reg (Adr.CLE_SLOT_IST_LO n)))

/-- `FENCE_GRAZE`. -/
def execFenceGraze (s : State) : Out := live s s.fenceGraze

end Sys2Proof.Machine
end

