-- ==== Sys2Proof/Machine/Eth.lean ====
section
/-! DEFINITION. The Ethernet MACs (R346–R355): receive filter, rings, timestamps, one-step insertion and the two-port
transparent clock. Frames are byte lists without their FCS. -/

namespace Sys2Proof.Machine

/-- MAC `k`. -/
def State.ethOf (s : State) (k : Nat) : EthSt := s.eth.getD k {}

/-- Replace MAC `k`. -/
def State.setEth (s : State) (k : Nat) (x : EthSt) : State := { s with eth := setNth s.eth k x }

/-- Byte `i` of a frame. -/
def byteAt (b : List Byte) (i : Nat) : Nat := (b.getD i 0).toNat

/-- The big-endian number in bytes `o … o + n − 1`. -/
def beAt (b : List Byte) (o n : Nat) : Nat := ofBe ((padTo (o + n) b).drop o |>.take n)

/-- A frame with bytes `o …` replaced by `d`. -/
def splice (b : List Byte) (o : Nat) (d : List Byte) : List Byte := b.take o ++ d ++ b.drop (o + d.length)

/-- Where the frame's payload starts and its EtherType, one 802.1Q tag skipped (R352). -/
def etherType (b : List Byte) : Nat × Nat := if beAt b 12 2 = 0x8100 then (18, beAt b 16 2) else (14, beAt b 12 2)

/-- A PTP message in a frame: its offset, the UDP header's offset, and whether that is over IPv4 (R352). -/
structure PtpAt where
  off : Nat
  udp : Option Nat
  v4 : Bool
deriving DecidableEq, Repr

/-- The PTP message in the UDP datagram whose header is at `u`. -/
def ptpUdp (b : List Byte) (u : Nat) (v4 : Bool) : Option PtpAt :=
  if beAt b (u + 2) 2 = 319 ∨ beAt b (u + 2) 2 = 320 then some ⟨u + 8, some u, v4⟩ else none

/-- Recognise a PTP message (R352). -/
def ptpOf (b : List Byte) : Option PtpAt :=
  let (o, t) := etherType b
  if t = 0x88F7 then some ⟨o, none, false⟩
  else if t = 0x0800 ∧ byteAt b (o + 9) = 17 then ptpUdp b (o + byteAt b o % 16 * 4) true
  else if t = 0x86DD ∧ byteAt b (o + 6) = 17 then ptpUdp b (o + 40) false
  else none

/-- messageType. -/
def ptpType (b : List Byte) (p : PtpAt) : Nat := byteAt b p.off % 16

/-- An event message: Sync, Delay_Req, Pdelay_Req or Pdelay_Resp (R352). -/
def ptpEvent (b : List Byte) : Bool :=
  match ptpOf b with
  | none => false
  | some p => decide (ptpType b p < 4)

/-- The destination address. -/
def dstMac (b : List Byte) : Nat := ofLe (b.take 6)

/-- The addresses of PTP multicast (IEEE 1588-2019 annexes C, D and E), as little-endian numbers of their six bytes. -/
def ptpMulticast : List Nat :=
  [ofLe [0x01, 0x1B, 0x19, 0, 0, 0], ofLe [0x01, 0x80, 0xC2, 0, 0, 0x0E], ofLe [0x01, 0x00, 0x5E, 0, 0x01, 0x81],
   ofLe [0x01, 0x00, 0x5E, 0, 0, 0x6B], ofLe [0x33, 0x33, 0, 0, 0x01, 0x81], ofLe [0x33, 0x33, 0, 0, 0, 0x6B]]

/-- The length of the fixed part of a PTP message. -/
def ptpBody (t : Nat) : Nat :=
  if t = 2 ∨ t = 3 ∨ t = 9 ∨ t = 10 then 54 else if t = 11 then 64 else if t = 13 then 48 else 44

/-- Whether an AUTHENTICATION TLV stands among the TLVs from `o` to `e`. -/
def hasAuth (b : List Byte) (e : Nat) : Nat → Nat → Bool
  | 0, _ => false
  | n + 1, o => if e < o + 4 then false else beAt b o 2 == 0x8009 || hasAuth b e n (o + 4 + beAt b (o + 2) 2)

/-- A PTP message that carries an authentication TLV (R352). -/
def ptpAuth (b : List Byte) (p : PtpAt) : Bool :=
  hasAuth b (p.off + beAt b (p.off + 2) 2) 400 (p.off + ptpBody (ptpType b p))

/-- Sum of 16-bit words of a byte string, big-endian. -/
def words16 : List Byte → Nat
  | a :: b :: r => a.toNat * 256 + b.toNat + words16 r
  | [a] => a.toNat * 256
  | [] => 0

/-- One's-complement fold to 16 bits. -/
def fold16 (x : Nat) : Nat := if x = 0 then 0 else (x - 1) % 65535 + 1

/-- Replace bytes `o …` of a PTP message by `d` (`o` and the length even within the datagram) and update the UDP checksum
incrementally (R354): an IPv4 checksum of 0 stays 0. -/
def ptpPatch (b : List Byte) (p : PtpAt) (o : Nat) (d : List Byte) : List Byte :=
  let r := splice b (p.off + o) d
  match p.udp with
  | none => r
  | some u =>
    let c := beAt b (u + 6) 2
    if p.v4 = true ∧ c = 0 then r
    else
      let old := words16 ((b.drop (p.off + o)).take d.length)
      let x := fold16 ((65535 - c) + (65535 * d.length - old) + words16 d)
      splice r (u + 6) (beBytes 2 (if x = 65535 then 65535 else 65535 - x))

/-- The station address of MAC `k` (R347). -/
def State.stationMac (s : State) (k : Nat) : Nat := (s.reg (Adr.ETH_MAC_LO k)).toNat + s.f (Fld.ETH_MAC_HI_MAC k) % 65536 * 2 ^ 32

/-- A frame is kept (R347). -/
def State.ethKeeps (s : State) (k : Nat) (b : List Byte) : Bool :=
  let d := dstMac b
  d == s.stationMac k || (d == 2 ^ 48 - 1 && s.fb (Fld.ETH_CFG_BCAST k))
    || ((List.range 16).any fun n => s.fb (Fld.ETH_MCAST_HI_EN k n)
      && d == (s.reg (Adr.ETH_MCAST_LO k n)).toNat + s.f (Fld.ETH_MCAST_HI_ADDR k n) * 2 ^ 32)
    || (ptpMulticast.contains d && (ptpOf b).isSome) || s.fb (Fld.ETH_CFG_PROMISC k)

/-- A ring's number of descriptors (R348). -/
def ringSize (n : Nat) : Nat := if 16 ≤ n ∧ n ≤ 1024 then n else 16

/-- An error response to the port's DMA (R349). -/
def State.ethBusErr (s : State) (k : Nat) : State :=
  ((s.setEth k { s.ethOf k with stopped := true }).setF (Fld.ETH_LINK_BUS_ERR k) 1).raise (Ev.ETH_ERR k)

/-- A descriptor's 32 bytes completed: `LEN`, `FLAGS` with `OWN` cleared, and `TS` (R348). -/
def descDone (d : List Byte) (len flags ts : Nat) : List Byte := putAt (putAt (putAt d 6 2 len) 8 2 flags) 16 8 ts

/-- Deliver a received frame with stamp `ts` to the receive ring (R348, R349). -/
def State.ethDeliver (s : State) (k : Nat) (b : List Byte) (ts : Nat) (transit : Bool) : State :=
  let h := s.f (Fld.ETH_RXR_HEAD_IDX k)
  let da := s.f (Fld.ETH_RXR_BASE_ADDR k) * 256 + 32 * h
  let r := s.mRead (16 + k) da 32
  if r.rsp ≠ .okay then r.st.ethBusErr k
  else
    let fl := leAt r.data 8 2
    if fl % 2 = 0 then
      (r.st.stick (Fld.ETH_CNT_A_RX_NOBUF k) (Fld.ETH_FLAGS_NOBUF_SAT k) 1).raise (Ev.ETH_ERR k)
    else
      let w := r.st.mWrite (16 + k) (leAt r.data 0 5) b
      if w.rsp ≠ .okay then w.st.ethBusErr k
      else
        let fl2 := bitsOf fl 1 1 * 2 + 4 + 8 * b2n (ptpEvent b) + 256 * b2n transit
        let q := w.st.mWrite (16 + k) da (descDone r.data b.length fl2 ts)
        if q.rsp ≠ .okay then q.st.ethBusErr k
        else
          let s1 := (q.st.setF (Fld.ETH_RXR_HEAD_IDX k) ((h + 1) % ringSize (s.f (Fld.ETH_RXR_SIZE_N k)))).wrap
            (Fld.ETH_CNT_B_RX_OK k) 1
          if bitOf fl 1 then s1.raise (Ev.ETH_RX k) else s1

/-- Keep the stamp of a received Delay_Req (R353). -/
def State.keepDelayReq (s : State) (k : Nat) (b : List Byte) (ts : Nat) : State :=
  match ptpOf b with
  | none => s
  | some p =>
    if ptpType b p = 1 then
      let key := (b.drop (p.off + 20)).take 12
      let x := s.ethOf k
      s.setEth k { x with delayReq := (((key, ts) :: x.delayReq)).take 16 }
    else s

/-- The transparent clock forwards this frame (R352, R355). -/
def State.ethForwards (s : State) (k : Nat) (b : List Byte) : Bool :=
  s.fb (Fld.ETH_TC_EN (k / 2 * 2)) && ptpMulticast.contains (dstMac b) &&
    match ptpOf b with
    | none => false
    | some p => !ptpAuth b p

/-- A received PAUSE frame holds transmission (R346, IEEE 802.3 annex 31B): opcode 1, quanta of 512 bit times. -/
def State.pauseRx (s : State) (k : Nat) (b : List Byte) : Option State :=
  if s.fb (Fld.ETH_CFG_PAUSE_EN k) = true ∧ beAt b 12 2 = 0x8808 ∧ beAt b 14 2 = 1 then
    some (s.setEth k { s.ethOf k with pausedTo := s.tim.raw + 512 * beAt b 16 2 })
  else none

/-- MAC `k` receives: enabled, link up, DMA running. -/
def State.ethRxOn (s : State) (k : Nat) : Bool :=
  s.mayMaster (7 + k) && (s.fb (Fld.ETH_CFG_RX_EN k) && (s.fb (Fld.ETH_LINK_UP k) && !(s.ethOf k).stopped))

/-- A received frame's stamp (R350): its start-of-frame delimiter passed `back` ns ago. -/
def State.rxStamp (s : State) (k back : Nat) : Nat :=
  uns 64 (Int.ofNat s.now - Int.ofNat (back + s.f (Fld.ETH_TS_CORR_IN k) + s.f (Fld.ETH_ASYM_ASYM_RX k)))

/-- A transmitted frame's stamp (R350). -/
def State.txStamp (s : State) (k : Nat) : Nat :=
  uns 64 (Int.ofNat (s.now + s.f (Fld.ETH_TS_CORR_EG k) + s.f (Fld.ETH_ASYM_ASYM_TX k)))

/-- Keep, forward and deliver a frame with a correct FCS (R347, R355). -/
def State.ethTake (s : State) (k : Nat) (b : List Byte) (back : Nat) : State :=
  let ts := s.rxStamp k back
  let s1 := s.keepDelayReq k b ts
  if s.ethForwards k b then
    let o := s1.ethOf (k ^^^ 1)
    if o.transit.length < 8 then
      (s1.setEth (k ^^^ 1) { o with transit := o.transit ++ [(b, ts)] }).ethDeliver k b ts true
    else
      (s1.stick (Fld.ETH_CNT_C_TC_DROP (k ^^^ 1)) (Fld.ETH_FLAGS_TCDROP_SAT (k ^^^ 1)) 1).ethDeliver k b ts false
  else s1.ethDeliver k b ts false

/-- A frame arrives at MAC `k` (R346, R347). -/
def doEthRx (s : State) (k : Nat) (b : List Byte) (fcs : Bool) (back : Nat) : State :=
  if s.ethRxOn k = false then s
  else if fcs = false ∨ b.length < 60 ∨ 1518 < b.length then
    s.stick (Fld.ETH_CNT_A_RX_ERR k) (Fld.ETH_FLAGS_RXERR_SAT k) 1
  else
    match s.pauseRx k b with
    | some t => t
    | none => if s.ethKeeps k b then s.ethTake k b back else s

/-- MAC `k` may transmit. -/
def State.ethTxOn (s : State) (k : Nat) : Bool :=
  s.works (7 + k) && (s.fb (Fld.ETH_CFG_TX_EN k) && (s.fb (Fld.ETH_LINK_UP k)
    && decide ((s.ethOf k).pausedTo ≤ s.tim.raw)))

/-- A transit frame leaves with its residence time added (R355). -/
def State.ethTransitTx (s : State) (k : Nat) (b : List Byte) (ts : Nat) : State :=
  let x := s.ethOf k
  let b2 := if ptpEvent b then
    match ptpOf b with
    | none => b
    | some p =>
      let d := Int.ofNat (s.txStamp k) - Int.ofNat ts
      ptpPatch b p 8 (beBytes 8 (uns 64 (Int.ofNat (beAt b (p.off + 8) 8) + d * 65536)))
    else b
  (((s.setEth k { x with transit := x.transit.drop 1 }).send .eth k b2).wrap (Fld.ETH_CNT_C_TC_FWD k) 1).wrap
    (Fld.ETH_CNT_B_TX_OK k) 1

/-- One-step and Delay_Resp insertion (R353): the frame as sent and whether no receive stamp matched. -/
def State.ethInsert (s : State) (k : Nat) (b : List Byte) (flags : Nat) : List Byte × Bool :=
  match ptpOf b with
  | none => (b, false)
  | some p =>
    if bitOf flags 4 = true ∧ ptpType b p = 0 then
      let t := s.txStamp k
      (ptpPatch b p 34 (beBytes 6 (t / 1000000000) ++ beBytes 4 (t % 1000000000)), false)
    else if bitOf flags 5 = true ∧ ptpType b p = 9 then
      let key := (b.drop (p.off + 44)).take 10 ++ (b.drop (p.off + 30)).take 2
      match (s.ethOf k).delayReq.find? fun e => e.1 == key with
      | some e => (ptpPatch b p 34 (beBytes 6 (e.2 / 1000000000) ++ beBytes 4 (e.2 % 1000000000)), false)
      | none => (b, true)
    else (b, false)

/-- The transmit ring's next descriptor, when the MAC owns it: its address and bytes; `none` with the state after the
read where it does not (R348). -/
def State.txDesc (s : State) (k : Nat) : State × Option (Nat × List Byte) :=
  if (s.ethOf k).stopped = true ∨ s.quiesced (7 + k) = true then (s, none)
  else
    let da := s.f (Fld.ETH_TXR_BASE_ADDR k) * 256 + 32 * s.f (Fld.ETH_TXR_HEAD_IDX k)
    let r := s.mRead (16 + k) da 32
    if r.rsp ≠ .okay then (r.st.ethBusErr k, none)
    else if leAt r.data 8 2 % 2 = 0 then (r.st, none) else (r.st, some (da, r.data))

/-- Send the frame of the transmit ring's descriptor `d` at `da` (R348, R350, R353); a `LEN` outside 60–1,518 completes with
`ERR` and sends nothing. -/
def State.ethRingTx (s : State) (k da : Nat) (d : List Byte) : State :=
  let n := leAt d 6 2
  let fl := leAt d 8 2
  let good := decide (60 ≤ n) && decide (n ≤ 1518)
  let r := s.mRead (16 + k) (leAt d 0 5) (if good then n else 1)
  if good = true ∧ r.rsp ≠ .okay then r.st.ethBusErr k
  else
    let s0 := if good then r.st else s
    let (b, noMatch) := s0.ethInsert k r.data fl
    let s1 := if good then (s0.send .eth k b).wrap (Fld.ETH_CNT_B_TX_OK k) 1 else s0
    let fl2 := bitsOf fl 1 1 * 2 + 16 * bitsOf fl 4 4 + 32 * bitsOf fl 5 5 +
      (if good then 4 + 8 * b2n (ptpEvent b) + 64 * b2n noMatch else 128)
    let q := s1.mWrite (16 + k) da (descDone d n fl2 (s0.txStamp k))
    if q.rsp ≠ .okay then q.st.ethBusErr k
    else
      let h := (s.f (Fld.ETH_TXR_HEAD_IDX k) + 1) % ringSize (s.f (Fld.ETH_TXR_SIZE_N k))
      let s2 := (q.st.setF (Fld.ETH_TXR_HEAD_IDX k) h).setEth k { q.st.ethOf k with lastRing := true }
      if bitOf fl 1 then s2.raise (Ev.ETH_TX_DONE k) else s2

/-- The replay queue has a frame for MAC `k` (R54, R57). -/
def State.rplReady (s : State) (k : Nat) : Bool :=
  s.f Fld.CMD_RPL_CTRL_MODE == 1 && (s.f Fld.CMD_RPL_CTRL_PORT == k && s.rpl.tx.any fun l => !l.isEmpty)

/-- The oldest replay datagram, and the queue without it: a frame all of whose datagrams are sent leaves the buffer (R55). -/
def popReplay : List (List (List Byte)) → Option (List Byte × List (List (List Byte)))
  | [] => none
  | [] :: r => popReplay r
  | (b :: bs) :: r => some (b, if bs.isEmpty then r else bs :: r)

/-- Send one replay datagram on MAC `k` (R54). -/
def State.ethReplayTx (s : State) (k : Nat) : State :=
  match popReplay s.rpl.tx with
  | none => s
  | some (b, q) =>
    ((({ s with rpl := { s.rpl with tx := q } } : State).setEth k { s.ethOf k with lastRing := false }).send .eth k b).wrap
      (Fld.ETH_CNT_B_TX_OK k) 1

/-- One frame is transmitted (R349): transit frames first, then the transmit ring and the replay queue alternately. -/
def doEthTx (s : State) (k : Nat) : State :=
  match (s.ethOf k).transit with
  | (b, ts) :: _ => s.ethTransitTx k b ts
  | [] =>
    if s.rplReady k = true ∧ (s.ethOf k).lastRing = true then s.ethReplayTx k
    else
      match s.txDesc k with
      | (t, some (da, d)) => t.ethRingTx k da d
      | (t, none) => if t.rplReady k then t.ethReplayTx k else t

/-- A write of a ring's tail (R348). -/
def doEthTail (s : State) (k : Nat) (tx : Bool) (i : Nat) : State :=
  (s.setF (if tx then Fld.ETH_TXR_TAIL_IDX k else Fld.ETH_RXR_TAIL_IDX k) i).ok

/-- A write of 1 to `ETH_CAL.GO` (R351): ignored while `RX_EN` or `TX_EN` is 1. -/
def doEthCalGo (s : State) (k : Nat) : State :=
  (if s.fb (Fld.ETH_CFG_RX_EN k) || (s.fb (Fld.ETH_CFG_TX_EN k) || !s.works (7 + k)) then s
    else s.setF (Fld.ETH_CAL_BUSY k) 1).ok

/-- The calibration ends with `n` test frames returned and mean round trip `rtt` (R351). -/
def doEthCalDone (s : State) (k n rtt : Nat) : State :=
  let s1 := s.setF (Fld.ETH_CAL_BUSY k) 0
  if n < 60 then s1.setF (Fld.ETH_CAL_FAIL k) 1
  else
    let r := rtt % 65536
    ((((s1.setF (Fld.ETH_CAL_RTT k) r).setF (Fld.ETH_TS_CORR_IN k) (r / 2)).setF (Fld.ETH_TS_CORR_EG k) (r - r / 2)).setF
      (Fld.ETH_CAL_DONE k) 1).raise (Ev.ETH_ERR k)

/-- `ETH_TX_DONE`. -/
def execEthTxDone (k : Nat) (s : State) : Out := liveIf (decide (k < 4) && s.ethTxOn k) s (doEthTx s k)

/-- `ETH_RING_TAIL`: `tx` selects the transmit ring. -/
def execEthRingTail (k : Nat) (tx : Bool) (i : Nat) (s : State) : Out := liveIf (decide (k < 4)) s (doEthTail s k tx i)

/-- `ETH_LINK_DOWN` (R349). -/
def execEthLinkDown (k : Nat) (s : State) : Out :=
  liveIf (decide (k < 4) && s.fb (Fld.ETH_LINK_UP k)) s
    (((s.setF (Fld.ETH_LINK_UP k) 0).setF (Fld.ETH_LINK_AN_DONE k) 0).raise (Ev.ETH_ERR k))

/-- `ETH_LINK_UP` (R349). -/
def execEthLinkUp (k : Nat) (s : State) : Out :=
  liveIf (decide (k < 4)) s ((s.setF (Fld.ETH_LINK_UP k) 1).setF (Fld.ETH_LINK_AN_DONE k) (s.f (Fld.ETH_CFG_AN_EN k)))

/-- `ETH_CAL_GO`. -/
def execEthCalGo (k : Nat) (s : State) : Out := liveIf (decide (k < 4)) s (doEthCalGo s k)

/-- `ETH_CAL_DONE`: `n` of 64 test frames returned, mean round trip `rtt`. -/
def execEthCalDone (k n rtt : Nat) (s : State) : Out :=
  liveIf (decide (k < 4) && s.fb (Fld.ETH_CAL_BUSY k)) s (doEthCalDone s k n rtt)

end Sys2Proof.Machine
end

