-- ==== Sys2Proof/Machine/Can.lean ====
section
/-! DEFINITION. The CAN FD controllers (R242–R257): modes, transmit queue, reception, errors. Bus times are not modelled:
an attempt starts as soon as a controller that may transmit has an entry pending, and its end is a command. -/

namespace Sys2Proof.Machine

/-- Controller `k`. -/
def State.canOf (s : State) (k : Nat) : CanSt := s.can.getD k {}

/-- Replace controller `k`. -/
def State.setCan (s : State) (k : Nat) (x : CanSt) : State := { s with can := setNth s.can k x }

/-- The bytes a DLC stands for (R248, R262). -/
def dlcLen (fdf : Bool) (n : Nat) : Nat :=
  if n ≤ 8 then n else if fdf then [12, 16, 20, 24, 32, 48, 64].getD (n - 9) 64 else 8

/-- A frame with its data cut or filled to what its DLC carries. -/
def CanFrame.norm (f : CanFrame) : CanFrame :=
  let n := if f.rtr then 0 else dlcLen f.fdf (f.dlc % 16)
  { f with dlc := f.dlc % 16, data := padTo n (f.data.take n) }

/-- The 80-byte frame record (R247). -/
def recordOf (f : CanFrame) (entry ts : Nat) : List Byte :=
  leBytes 4 (f.id % 2 ^ 29 + 2 ^ 29 * b2n f.ide + 2 ^ 30 * b2n f.rtr) ++
    leBytes 4 (f.dlc % 16 + 2 ^ 8 * b2n f.fdf + 2 ^ 9 * b2n f.brs + 2 ^ 10 * b2n f.esi + 2 ^ 16 * (entry % 256)) ++
    leBytes 4 ts ++ zeros 4 ++ padTo 64 (f.data.take 64)

/-- The frame of a record. -/
def frameOf (r : List Byte) : CanFrame :=
  let w := leAt r 0 4
  let b := leAt r 4 4
  CanFrame.norm
    { id := w % 2 ^ 29, ide := bitOf w 29, rtr := bitOf w 30, fdf := bitOf b 8, brs := bitOf b 9, esi := bitOf b 10,
      dlc := b % 16, data := r.drop 16 }

/-- The CAN timestamp counter at `back` ns ago (R250, R251). -/
def State.canTs (s : State) (back : Nat) : Nat := uns 64 (Int.ofNat s.now - Int.ofNat back) / 100 % 2 ^ 32

/-- Thrusters that `CAN_HELM_MAP` assigns to controller `k`, each with its reserved handle, the highest first (R249). -/
def State.reserved (s : State) (k : Nat) : List (Nat × Nat) :=
  let ts := (List.range 24).filter fun t => s.fb (Fld.CAN_HELM_MAP_EN t) && s.f (Fld.CAN_HELM_MAP_CTRL t) == k
  (List.range ts.length).map fun i => (ts.getD i 0, 31 - i)

/-- The mode in force (R58, R244, R312, R456). -/
def State.canMode (s : State) (k : Nat) : Nat :=
  if s.lcs.state = 5 then 0
  else if s.rpl.hold then 2
  else if s.f Fld.PAR_STAT_ROLE < 2 ∧ s.reserved k ≠ [] then 2
  else s.f (Fld.CAN_MODE_MODE k)

/-- Controller `k` may start an attempt: enabled, `NORMAL` or `LOOPBACK`, not in bus-off, and not stopped by a clock
fault (R23, R244, R255). -/
def State.canTxOn (s : State) (k : Nat) : Bool :=
  s.works (11 + k) && (s.canMode k % 2 == 1 && (s.f (Fld.CAN_ECNT_STATE k) != 2 && !s.pwr.silent))

/-- The order of arbitration: base identifiers before extended ones with the same leading bits (ISO 11898-1). -/
def arbKey (f : CanFrame) : Nat :=
  if f.ide then f.id / 2 ^ 18 * 2 ^ 19 + 2 ^ 18 + f.id % 2 ^ 18 else f.id % 2 ^ 11 * 2 ^ 19

/-- The entry offered for arbitration: the lowest identifier, the earlier queued between equals (R249). -/
def firstTx : List CanTx → Option CanTx
  | [] => none
  | e :: l =>
    match firstTx l with
    | none => some e
    | some m => if arbKey m.frame < arbKey e.frame then some m else some e

/-- A helm frame in transmission when the role ends completes (R340): only the override of R312 holds the controller back. -/
def State.canLets (s : State) (k : Nat) : Bool :=
  s.works (11 + k) && (s.f (Fld.CAN_MODE_MODE k) == 1 && (!s.rpl.hold && (s.f (Fld.CAN_ECNT_STATE k) != 2 && (!s.pwr.silent &&
    (s.canOf k).pend.any fun e => e.helm.isSome && (s.canOf k).busy == some e.handle))))

/-- Keep `FREE`, `IDLE` and `TX_BUSY` true, and start an attempt where one may start. -/
def State.canKick (s : State) (k : Nat) : State :=
  let x := s.canOf k
  let b := if s.canTxOn k then (match x.busy with
    | some h => some h
    | none => (firstTx x.pend).map CanTx.handle) else if s.canLets k then x.busy else none
  let used := (x.pend.filter fun e => e.handle < 32 - (s.reserved k).length).length
  (((s.setCan k { x with busy := b }).setF (Fld.CAN_TXQ_FREE k) (32 - (s.reserved k).length - used)).setF
    (Fld.CAN_BUS_TX_BUSY k) (b2n b.isSome)).setF (Fld.CAN_BUS_IDLE k) (b2n (s.canMode k != 0 && b.isNone))

/-- Every controller re-evaluated, as after a change of role, power or map. -/
def State.canKickAll (s : State) : State := forUp 8 (fun k t => t.canKick k) s

/-- Entry `h` leaves the pending entries. -/
def State.canDrop (s : State) (k h : Nat) : State :=
  let x := s.canOf k
  s.setCan k { x with pend := x.pend.filter fun e => e.handle != h, busy := if x.busy = some h then none else x.busy }

/-- Entry `h` ends with state `st` (2 sent, 3 aborted) and raises `TX_DONE` (R249). -/
def State.canEnd (s : State) (k h st : Nat) : State :=
  ((s.canDrop k h).setF (Fld.CAN_TXE_STAT_STATE k h) st).raise (Ev.CAN_TX_DONE k)

/-- Entry `h` takes a frame (R249). -/
def State.canQueue (s : State) (k h : Nat) (f : CanFrame) (helm : Option Nat) : State :=
  let t := s.canDrop k h
  let x := t.canOf k
  (t.setCan k { x with pend := x.pend ++ [{ handle := h, frame := f, helm := helm }] }).setF (Fld.CAN_TXE_STAT_STATE k h) 1

/-- A missed helm frame of thruster `t` (R261). -/
def State.helmMiss (s : State) (t : Nat) : State :=
  (s.stick (Fld.CAN_HELM_STAT_MISS t) (Fld.CAN_HELM_STAT_MISS_SAT t) 1).raise Ev.CAN8_HELM_MISS

/-- The staged frame of thruster `t` (R261). -/
def State.stagedOf (s : State) (t : Nat) : Option CanFrame := s.staged.getD t none

/-- Set the staging slot of thruster `t`. -/
def State.setStaged (s : State) (t : Nat) (f : Option CanFrame) : State := { s with staged := setNth s.staged t f }

/-- When a helm entry's attempt has ended, its staged frame takes the entry (R261). -/
def State.takeStaged (s : State) (k h : Nat) (helm : Option Nat) : State :=
  match helm with
  | none => s
  | some t =>
    match s.stagedOf t with
    | none => s
    | some f => (s.setStaged t none).canQueue k h f (some t)

/-- The attempt of entry `e` fails (R249, R261). -/
def State.canFail (s : State) (k : Nat) (e : CanTx) : State :=
  let s0 := s.setCan k { s.canOf k with busy := none }
  match e.helm.bind s.stagedOf with
  | some _ => (((s0.canEnd k e.handle 3).helmMiss (e.helm.getD 0)).takeStaged k e.handle e.helm).canKick k
  | none => (if e.gone then s0.canEnd k e.handle 3 else s0).canKick k

/-- The attempt in progress on bus `k` ends as failed (R255, R261). -/
def State.canFailBusy (s : State) (k : Nat) : State :=
  match ((s.canOf k).pend.find? fun e => (s.canOf k).busy == some e.handle) with
  | none => s
  | some e => s.canFail k e

/-- The standard's error state after a change of the counters (R255): entry to error-passive and bus-off is raised, and the
attempt in progress fails at bus-off. -/
def State.canErrState (s : State) (k : Nat) : State :=
  let st := s.f (Fld.CAN_ECNT_STATE k)
  let tec := s.f (Fld.CAN_ECNT_TEC k)
  let n := if st = 2 then 2 else if 255 < tec then 2 else if 127 < tec ∨ 127 < s.f (Fld.CAN_ECNT_REC k) then 1 else 0
  let s1 := s.setF (Fld.CAN_ECNT_STATE k) n
  if n = st then s1
  else if n = 1 then s1.raise (Ev.CAN_ERR_PASSIVE k)
  else if n = 2 then
    ((s1.setCan k { s1.canOf k with recover := false }).raise (Ev.CAN_BUS_OFF k)).canFailBusy k
  else s1

/-- Store an accepted frame in priority buffer `b` (R253). -/
def State.canPb (s : State) (k b : Nat) (r : List Byte) : State :=
  let s1 := forUp 20 (fun j t => t.setReg (Adr.CAN_PB k b j) (BitVec.ofNat 32 (leAt r (4 * j) 4))) s
  let full := s.f (Fld.CAN_PB_STAT_FULL k)
  let s2 := if bitOf full b then s1.setF (Fld.CAN_PB_STAT_OVWR k) (s.f (Fld.CAN_PB_STAT_OVWR k) ||| 2 ^ b) else s1
  (s2.setF (Fld.CAN_PB_STAT_FULL k) (full ||| 2 ^ b)).raiseBits (11 + k) (2 ^ b)

/-- Set the FIFO, with `FILL` and the oldest frame in `CAN_RXF_HEAD` (zeros when empty). -/
def State.setFifo (s : State) (k : Nat) (l : List (List Byte)) : State :=
  let s1 := (s.setCan k { s.canOf k with fifo := l }).setF (Fld.CAN_RXF_FILL k) l.length
  forUp 20 (fun j t => t.setReg (Adr.CAN_RXF_HEAD k j) (BitVec.ofNat 32 (leAt (l.headD []) (4 * j) 4))) s1

/-- Put an accepted frame into the FIFO (R254). -/
def State.canFifo (s : State) (k : Nat) (r : List Byte) : State :=
  let l := (s.canOf k).fifo
  if 64 ≤ l.length then
    (s.stick (Fld.CAN_CNT_A_RXF_LOST k) (Fld.CAN_FLAGS_LOST_SAT k) 1).raise (Ev.CAN_RXF_LOST k)
  else
    let s1 := s.setFifo k (l ++ [r])
    if l = [] then s1.raise (Ev.CAN_RXF k) else s1

/-- Filter entry `n` matches (R252). -/
def State.canMatch (s : State) (k n : Nat) (f : CanFrame) : Bool :=
  s.fb (Fld.CAN_FLT_ID_EN k n) && (s.fb (Fld.CAN_FLT_ID_IDE k n) == f.ide &&
    (s.f (Fld.CAN_FLT_ID_ID k n) &&& s.f (Fld.CAN_FLT_MASK_MASK k n)) == (f.id &&& s.f (Fld.CAN_FLT_MASK_MASK k n)))

/-- Filtering of a received frame whose SOF lay `back` ns ago (R252). -/
def State.canFilter (s : State) (k : Nat) (f : CanFrame) (back : Nat) : State :=
  match (List.range 128).find? fun n => s.canMatch k n f with
  | none => s
  | some n =>
    if s.fb (Fld.CAN_FLT_ID_REJECT k n) then s
    else
      let r := recordOf f n (s.canTs back)
      if n < 8 then s.canPb k n r else s.canFifo k r

/-- A frame that passes the bus checks is counted (R255) and filtered. -/
def State.canTake (s : State) (k : Nat) (f : CanFrame) (back : Nat) : State :=
  let s1 := s.wrap (Fld.CAN_CNT_B_RX_OK k) 1
  let rec0 := s.f (Fld.CAN_ECNT_REC k)
  let s2 := if s.canMode k = 2 then s1
    else (s1.setF (Fld.CAN_ECNT_REC k) (if 127 < rec0 then 127 else rec0 - 1)).canErrState k
  s2.canFilter k f back

/-- A detected error is counted (R255, R257): `lec` its code, `tx` as transmitter, `arb` in the arbitration field, `heavy`
where ISO 11898-1 counts a receiver's error eightfold. -/
def doCanError (s : State) (k lec : Nat) (tx arb heavy : Bool) : State :=
  let s1 := (s.stick (Fld.CAN_CNT_A_ERRORS k) (Fld.CAN_FLAGS_ERR_SAT k) 1).setF (Fld.CAN_BUS_LEC k) lec
  let tec := s.f (Fld.CAN_ECNT_TEC k)
  let rc := s.f (Fld.CAN_ECNT_REC k)
  let free := (lec == 3 && s.f (Fld.CAN_ECNT_STATE k) == 1) || (lec == 1 && arb)
  let s2 := if s.canMode k = 2 then s1
    else if tx then s1.setF (Fld.CAN_ECNT_TEC k) (if free then tec else min 511 (tec + 8))
    else s1.setF (Fld.CAN_ECNT_REC k) (min 255 (rc + if heavy then 8 else 1))
  let s3 := if tx = false then s2
    else if lec = 3 then
      let s4 := s2.stickN (Fld.CAN_BUS_ACK_RUN k) 1
      if s4.f (Fld.CAN_BUS_ACK_RUN k) = 32 then (s4.setF (Fld.CAN_BUS_LONELY k) 1).raise (Ev.CAN_LONELY k) else s4
    else s2.setF (Fld.CAN_BUS_ACK_RUN k) 0
  let x := s3.canOf k
  let s5 :=
    match (x.pend.find? fun e => x.busy == some e.handle) with
    | none => s3
    | some e =>
      if tx = false ∨ arb = true ∨ (lec ≠ 4 ∧ lec ≠ 5) then s3
      else
        match x.dup with
        | none => s3.setCan k { x with dup := some (e.frame.ide, e.frame.id, 1) }
        | some (i, d, n) =>
          if i ≠ e.frame.ide ∨ d ≠ e.frame.id then s3
          else if n < 3 then s3.setCan k { x with dup := some (i, d, n + 1) }
          else
            ((s3.setCan k { x with dup := none }).setReg (Adr.CAN_DUP k)
              (BitVec.ofNat 32 (2 ^ 31 + 2 ^ 30 * b2n i + d))).raise (Ev.CAN_DUP_ID_SUSPECT k)
  (s5.canErrState k).canKick k

/-- An attempt ends as sent; its SOF lay `back` ns ago (R249, R251, R256). -/
def State.canSent (s : State) (k : Nat) (e : CanTx) (back : Nat) : State :=
  let f := { e.frame with esi := e.frame.fdf && s.f (Fld.CAN_ECNT_STATE k) == 1 }
  let s1 := ((s.setF (Fld.CAN_BUS_ACK_RUN k) 0).setF (Fld.CAN_BUS_LONELY k) 0).setReg (Adr.CAN_TXE_TS k e.handle)
    (BitVec.ofNat 32 (s.canTs back))
  let s2 := if s.canMode k = 3 then s1.canTake k f back
    else ((s1.setF (Fld.CAN_ECNT_TEC k) (s.f (Fld.CAN_ECNT_TEC k) - 1)).canErrState k).wrap (Fld.CAN_CNT_B_TX_OK k) 1
      |>.send .can k (recordOf f 255 (s.canTs back))
  (s2.canEnd k e.handle 2).takeStaged k e.handle e.helm

/-- A transmission attempt ends: sent, or failed (R249). -/
def doTxEnd (s : State) (k : Nat) (sent : Bool) (back : Nat) : State :=
  let x := s.canOf k
  match x.pend.find? fun e => x.busy == some e.handle with
  | none => s
  | some e => if sent then (s.canSent k e back).canKick k else s.canFail k e

/-- Attempts of controllers that may no longer transmit are cut (R246): the entry stays pending, or gives way to a staged
frame. -/
def State.canCut (s : State) (k : Nat) : State :=
  let x := s.canOf k
  if s.canTxOn k || s.canLets k then s
  else
    match x.pend.find? fun e => x.busy == some e.handle with
    | none => s
    | some e => s.canFail k e

/-- Every controller cut and re-evaluated, as after a change of role or a clock fault. -/
def State.canCutAll (s : State) : State := forUp 8 (fun k t => (t.canCut k).canKick k) s

/-- In `OFF` the queue is emptied: pending entries end as aborted, and staged frames with them (R244). -/
def State.canEmpty (s : State) (k : Nat) : State :=
  let x := s.canOf k
  x.pend.foldl (fun t e => (match e.helm with
    | some i => t.setStaged i none
    | none => t).canEnd k e.handle 3) s

/-- A write of `CAN_MODE` (R244–R246, R255). -/
def doCanMode (s : State) (k : Nat) (v : Word) : State :=
  let m := v.toNat % 4
  let old := s.reg (Adr.CAN_MODE k)
  let s1 := s.setReg (Adr.CAN_MODE k)
    (if s.locked (Adr.CAN_MODE k) then (old &&& 0xF00) ||| BitVec.ofNat 32 m else v &&& 0xF03)
  let s2 := if m = 0 then s1.canEmpty k else s1.canCut k
  let s3 := if m = 1 ∧ s.f (Fld.CAN_ECNT_STATE k) = 2 then s2.setCan k { s2.canOf k with recover := true } else s2
  (s3.canKick k).ok

/-- Kernel clocks of a nominal bit for a value of `CAN_NBT`, and of a data bit for one of `CAN_DBT` (R243). -/
def nomClocks (v : Nat) : Nat := (bitsOf v 31 24 + 1) * (1 + (bitsOf v 23 16 + 1) + (bitsOf v 14 8 + 1))

/-- See `nomClocks`. -/
def datClocks (v : Nat) : Nat := (bitsOf v 28 24 + 1) * (1 + (bitsOf v 20 16 + 1) + (bitsOf v 11 8 + 1))

/-- A write of `CAN_NBT`, or of `CAN_DBT` when `data` (R243). -/
def doBitTiming (s : State) (k : Nat) (data : Bool) (v : Word) : State :=
  let a := if data then Adr.CAN_DBT k else Adr.CAN_NBT k
  let w := v &&& (if data then 0x1F1F0F0F else 0xFFFF7F7F)
  let n := if data then (s.reg (Adr.CAN_NBT k)).toNat else w.toNat
  let d := if data then w.toNat else (s.reg (Adr.CAN_DBT k)).toNat
  (if s.f (Fld.CAN_MODE_MODE k) ≠ 0 ∨ s.locked a = true then s
    else if nomClocks n < 80 ∨ datClocks d < 10 ∨ nomClocks n < datClocks d ∨ bitsOf n 23 16 = 0 then
      s.setF (Fld.CAN_FLAGS_CFG_REF k) 1
    else s.setReg a w).ok

/-- The record in `CAN_TXW`. -/
def State.txw (s : State) (k : Nat) : List Byte := ((List.range 20).map fun j => leBytes 4 (s.reg (Adr.CAN_TXW k j)).toNat).flatten

/-- The refusal code of a pushed record when an entry is free; 0 for none (R248). -/
def State.pushCode (s : State) (k : Nat) (r : List Byte) : Nat :=
  let w := leAt r 0 4
  let b := leAt r 4 4
  let fdf := bitOf b 8
  let brs := bitOf b 9
  if (fdf && !s.fb (Fld.CAN_MODE_FD_EN k)) || (brs && !s.fb (Fld.CAN_MODE_BRS_EN k)) then 2
  else if bitOf w 30 && fdf then 3
  else if bitOf w 31 || (!bitOf w 29 && bitsOf w 28 11 != 0) || bitsOf b 7 4 != 0 || bitsOf b 15 11 != 0 || (brs && !fdf)
      || bitsOf b 31 24 != 0 || leAt r 12 4 != 0 then 4
  else 0

/-- A write to `CAN_TXW_PUSH` (R248): the lowest free handle is taken; in `OFF` the entry ends as aborted at once (R244). -/
def doTxPush (s : State) (k : Nat) : State :=
  let r := s.txw k
  let hs := (List.range (32 - (s.reserved k).length)).filter fun h => s.f (Fld.CAN_TXE_STAT_STATE k h) != 1
  (match hs with
  | [] =>
    ((s.setReg (Adr.CAN_TXW_RESULT k) 0x100).setF (Fld.CAN_FLAGS_TXQ_FULL k) 1).raise (Ev.CAN_TXQ_FULL k)
  | h :: _ =>
    let c := s.pushCode k r
    if c ≠ 0 then s.setReg (Adr.CAN_TXW_RESULT k) (BitVec.ofNat 32 (c * 256))
    else
      let s1 := (s.setReg (Adr.CAN_TXW_RESULT k) (BitVec.ofNat 32 (2 ^ 31 + h))).canQueue k h (frameOf r) none
      (if s.canMode k = 0 then s1.canEnd k h 3 else s1).canKick k).ok

/-- Withdraw entry `h` (R249). -/
def State.canAbort (s : State) (k h : Nat) : State :=
  let x := s.canOf k
  if (x.pend.any fun e => e.handle == h) = false then s
  else if x.busy = some h then
    s.setCan k { x with pend := x.pend.map fun e => if e.handle = h then { e with gone := true } else e }
  else s.canEnd k h 3

/-- `CAN_MODE_CHANGE`. -/
def execCanModeChange (k : Nat) (v : Word) (s : State) : Out := liveIf (decide (k < 8)) s (doCanMode s k v)

/-- `BIT_TIMING_WRITE`: `data` selects `CAN_DBT`. -/
def execBitTimingWrite (k : Nat) (data : Bool) (v : Word) (s : State) : Out :=
  liveIf (decide (k < 8)) s (doBitTiming s k data v)

/-- `TX_PUSH`. -/
def execTxPush (k : Nat) (s : State) : Out := liveIf (decide (k < 8)) s (doTxPush s k)

/-- A write of `CAN_TXQ_ABORT` that names a handle (R249). -/
def doTxAbort (s : State) (k h : Nat) : State := ((s.canAbort k h).canKick k).ok

/-- `TX_ABORT`. -/
def execTxAbort (k h : Nat) (s : State) : Out := liveIf (decide (k < 8) && decide (h < 32)) s (doTxAbort s k h)

/-- A write of `CAN_TXQ_ABORT` with `ALL` (R249). -/
def doTxAbortAll (s : State) (k : Nat) : State :=
  ((forUp (32 - (s.reserved k).length) (fun h t => t.canAbort k h) s).canKick k).ok

/-- `TX_ABORT_ALL`. -/
def execTxAbortAll (k : Nat) (s : State) : Out := liveIf (decide (k < 8)) s (doTxAbortAll s k)

/-- `TX_ATTEMPT_END`: sent or failed; the attempt's SOF lay `back` ns ago. -/
def execTxAttemptEnd (k : Nat) (sent : Bool) (back : Nat) (s : State) : Out :=
  liveIf (decide (k < 8)) s (doTxEnd s k sent back)

/-- A write of `CAN_PB_REL` (R253). -/
def doPbRel (s : State) (k : Nat) (v : Word) : State :=
  (s.setF (Fld.CAN_PB_STAT_FULL k) (s.f (Fld.CAN_PB_STAT_FULL k) &&& (255 - v.toNat % 256))).ok

/-- `PB_RELEASE`. -/
def execPbRelease (k : Nat) (v : Word) (s : State) : Out := liveIf (decide (k < 8)) s (doPbRel s k v)

/-- A write of `CAN_RXF_POP` (R254). -/
def doRxfPop (s : State) (k : Nat) : State := (s.setFifo k ((s.canOf k).fifo.drop 1)).ok

/-- `RXF_POP`. -/
def execRxfPop (k : Nat) (s : State) : Out := liveIf (decide (k < 8)) s (doRxfPop s k)

/-- `CAN_ERROR`: `lec` 1–6. -/
def execCanError (k lec : Nat) (tx arb heavy : Bool) (s : State) : Out :=
  liveIf (decide (k < 8) && (decide (1 ≤ lec) && (decide (lec ≤ 6) && (s.canMode k != 0 && s.works (11 + k))))) s
    (doCanError s k lec tx arb heavy)

/-- `BUS_OFF_RECOVERY` (R255). -/
def execBusOffRecovery (k : Nat) (s : State) : Out :=
  liveIf (decide (k < 8) && (s.f (Fld.CAN_ECNT_STATE k) == 2 && (s.fb (Fld.CAN_MODE_AUTO_RECOV k) || (s.canOf k).recover))) s
    (((s.setReg (Adr.CAN_ECNT k) 0).setCan k { s.canOf k with recover := false }).canKick k)

/-- `DUP_WINDOW_END` (R257). -/
def execDupWindowEnd (k : Nat) (s : State) : Out :=
  liveIf (decide (k < 8)) s (s.setCan k { s.canOf k with dup := none })

/-- `TS_WRAP` (R250). -/
def execTsWrap (s : State) : Out := live s (s.raise Ev.CAN8_TS_WRAP)

/-! ### The helm engine: identifiers, queueing and feedback (R258–R263) -/

/-- The identifier of a helm frame (R258). -/
def helmId (inst unit t : Nat) : Nat := 2 ^ 26 + 0x48 * 2 ^ 18 + inst % 4096 * 64 + unit % 2 * 32 + t % 32

/-- The edge cycle's treatment of thruster `t`'s reserved entry (R261): pending and not in transmission, it is withdrawn and
counts as a miss. -/
def State.helmWithdraw (s : State) (k t h : Nat) : State :=
  let x := s.canOf k
  if (x.pend.any fun e => e.handle == h) = true ∧ x.busy ≠ some h then (s.canEnd k h 3).helmMiss t else s

/-- A frame still in thruster `t`'s staging slot when the next frame arrives counts as a miss (R261). -/
def State.dropStaged (s : State) (t : Nat) : State :=
  if (s.stagedOf t).isSome then (s.helmMiss t).setStaged t none else s

/-- Place the beat's frame of thruster `t` (R261). -/
def State.helmPlace (s : State) (k t h : Nat) (f : CanFrame) : State :=
  let u := s.dropStaged t
  if u.f (Fld.CAN_ECNT_STATE k) = 2 then u.helmMiss t
  else if (u.canOf k).busy = some h then u.setStaged t (some f)
  else u.canQueue k h f (some t)

/-- `AGE` of thruster `t`'s feedback passes `FB_TMO` (R263). -/
def State.fbStale (s : State) (t : Nat) : State :=
  if s.fb (Fld.CAN_FB_STAT_VALID t) ∧ ¬ s.fb (Fld.CAN_FB_STAT_STALE t) ∧
      max 1 (s.f Fld.CAN_HELM_CFG_FB_TMO) < s.f (Fld.CAN_FB_STAT_AGE t) then
    (s.setF (Fld.CAN_FB_STAT_STALE t) 1).raise Ev.CAN8_FB_STALE
  else s

/-- A beat edge ages the feedback of thruster `t` (R263). -/
def State.fbAge (s : State) (t : Nat) : State := (s.stickN (Fld.CAN_FB_STAT_AGE t) 1).fbStale t

/-- The payload of a helm or feedback frame in the form of R259 and R262: FD, at least 32 bytes. -/
def helmPayload (f : CanFrame) : Option (List Byte) :=
  if f.ide && (!f.rtr && (f.fdf && decide (32 ≤ f.data.length))) then some (f.data.take 32) else none

/-- The CRC of a helm or feedback payload is right (R260). -/
def helmCrcOk (b : List Byte) : Bool := crc32c (b.take 28) == leAt b 28 4

/-- Feedback of thruster `t` is stored, or counted in `BAD` (R263). -/
def State.fbCapture (s : State) (t : Nat) (b : List Byte) : State :=
  if helmCrcOk b && decide (leAt b 6 2 < 36000) then
    (forUp 8 (fun w u => u.setReg (Adr.CAN_FB t w) (BitVec.ofNat 32 (leAt b (4 * w) 4))) s).setReg (Adr.CAN_FB_STAT t)
      ((s.reg (Adr.CAN_FB_STAT t) &&& 0x20FF0000) ||| 0x80000000)
  else (s.stick (Fld.CAN_FB_STAT_BAD t) (Fld.CAN_FB_STAT_BAD_SAT t) 1).raise Ev.CAN8_FB_BAD

/-- `FB_STALE`. -/
def execFbStale (t : Nat) (s : State) : Out := liveIf (decide (t < 24)) s (s.fbStale t)

/-! ### The drives (R264–R266) -/

/-- Drive `d`. -/
def State.driveOf (s : State) (d : Nat) : DriveSt := s.drives.getD d {}

/-- Replace drive `d`. -/
def State.setDrive (s : State) (d : Nat) (x : DriveSt) : State := { s with drives := setNth s.drives d x }

/-- What an accepted frame does (R264): the set-points apply; a `STOP` of 0 clears a stop (R266). -/
def driveApply (x : DriveSt) (b : List Byte) (unit now : Nat) : DriveSt :=
  { x with
    lastSeq := leAt b 21 1, known := true, tValid := now, holding := false
    ss1 := x.ss1 && leAt b 20 1 != 0, sto := x.sto && leAt b 20 1 != 0
    az := leAt b 8 2, thr := sgn 16 (leAt b 10 2), pr := sgn 16 (leAt b 12 2), azr := sgn 16 (leAt b 14 2)
    thrRamp := leAt b 16 2, azrLim := leAt b 18 2, frame16 := leAt b 4 2, beat := leAt b 6 1, unit := unit }

/-- The drive acceptance rule (R264, R266) on a frame with identifier `id` and payload `b`. -/
def driveRule (x : DriveSt) (d id : Nat) (b : List Byte) (now : Nat) : DriveSt :=
  if bitsOf id 25 18 ≠ 0x48 ∨ bitsOf id 17 6 ≠ x.inst ∨ bitsOf id 4 0 ≠ d then x
  else if helmCrcOk b = false then { x with bad := x.bad + 1 }
  else
    let tally := leAt b 0 4
    if tally % 2 ≠ bitsOf id 5 5 then x
    else
      let st := leAt b 20 1
      let x1 := { x with ss1 := x.ss1 || bitOf st 0, sto := x.sto || bitOf st 1 }
      if tally < x1.top then x1
      else
        let x2 := if x1.top < tally then { x1 with top := tally, known := false } else x1
        let d := (leAt b 21 1 + 256 - x2.lastSeq % 256) % 256
        if x2.known = true ∧ ¬ (1 ≤ d ∧ d ≤ 127) then x2 else driveApply x2 b (bitsOf id 5 5) now

/-- `DRIVE_HELM_FRAME`: drive `d` receives a frame. -/
def execDriveHelmFrame (d : Nat) (f : CanFrame) (s : State) : Out :=
  .next (match helmPayload f with
    | none => s
    | some b => if d < 24 then s.setDrive d (driveRule (s.driveOf d) d f.id b s.tim.raw) else s)

/-- `DRIVE_HOLD_TIMEOUT` (R265): thrust and pitch ramp to zero, azimuth holds. -/
def execDriveHoldTimeout (d : Nat) (s : State) : Out :=
  .next (if d < 24 then s.setDrive d { s.driveOf d with holding := true, known := false, thr := 0, pr := 0 } else s)

/-- `DRIVE_RESET` (R264). -/
def execDriveReset (d : Nat) (s : State) : Out :=
  .next (if d < 24 then s.setDrive d { s.driveOf d with top := 0, known := false } else s)

end Sys2Proof.Machine
end

