-- ==== Sys2Proof/Machine/Events.lean ====
section
/-! DEFINITION. The event controller (R24–R28) and the header words that every page shares (R497–R499). -/

namespace Sys2Proof.Machine

/-- Source `n` is routed to target `t` (R24): cores 0–3, shepherd core 4. -/
def State.routed (s : State) (t n : Nat) : Bool :=
  if t < 4 then bitOf (s.f (Fld.EVT_ROUTE_CORE n)) t else decide (t = 4) && s.fb (Fld.EVT_ROUTE_SHP n)

/-- Source `n` is claimable by target `t` (R24). -/
def State.claimable (s : State) (t n : Nat) : Bool :=
  s.asserted n && (s.routed t n && (decide (s.f (Fld.EVT_THRESH_LEVEL t) < s.f (Fld.EVT_ROUTE_PRIO n))
    && !s.evt.claimed.contains (t, n)))

/-- The interrupt input of target `t` (R24). -/
def State.interrupt (s : State) (t : Nat) : Bool := (List.range 512).any fun n => s.claimable t n

/-- The claimable source of the highest priority, the lowest number between equals (R25). -/
def State.bestSource (s : State) (t : Nat) : Option Nat :=
  (List.range 512).foldl (fun b n =>
    if s.claimable t n then
      match b with
      | none => some n
      | some m => if s.f (Fld.EVT_ROUTE_PRIO m) < s.f (Fld.EVT_ROUTE_PRIO n) then some n else some m
    else b) none

/-- A read of `EVT_CLAIM[t]` (R25). -/
def doEvtClaim (s : State) (t : Nat) : State :=
  match s.bestSource t with
  | none => s.ansW 0
  | some n =>
    ({ s with evt := { s.evt with claimed := (t, n) :: s.evt.claimed } } : State).ansW (BitVec.ofNat 32 (2 ^ 31 + n))

/-- A write of source `n` to `EVT_DONE[t]` (R26). -/
def doEvtDone (s : State) (t n : Nat) : State :=
  ({ s with evt := { s.evt with claimed := s.evt.claimed.filter (· ≠ (t, n)) } } : State).ok

/-- A write of `EVT_ROUTE[n]` by master `m` (R27): only the shepherd core changes `SHP`. -/
def doEvtRoute (s : State) (m n : Nat) (v : Word) : State :=
  if s.locked (Adr.EVT_ROUTE n) then s.ok
  else
    let x := v.toNat
    let s1 := ((s.setF (Fld.EVT_ROUTE_LGR n) (bitsOf x 24 24)).setF (Fld.EVT_ROUTE_PRIO n) (bitsOf x 18 16)).setF
      (Fld.EVT_ROUTE_CORE n) (bitsOf x 3 0)
    (if m = 4 then s1.setF (Fld.EVT_ROUTE_SHP n) (bitsOf x 8 8) else s1).ok

/-- A write of `xxx_EVENT_SET` on page `p` (R499). -/
def doEventSet (s : State) (p : Nat) (v : Word) : State := (s.raiseBits (blockPage p) v.toNat).ok

/-- A write of `xxx_EVENT` on page `p`: 1 clears a bit (R9, R497). -/
def doEventClear (s : State) (p : Nat) (v : Word) : State :=
  (s.setReg (hdr p 4) (s.reg (hdr p 4) &&& ~~~v)).ok

/-- A write of `xxx_EVENT_EN` on page `p`: a line that rises with it is an assertion (R24, R28, R497). -/
def doEventEn (s : State) (p : Nat) (v : Word) : State :=
  let o := s.lines p
  (linesFrom 4 (s.setReg (hdr p 5) v) (blockPage p) o).ok

/-- A write of `xxx_LOCK` on page `p`: 1 locks an area (R497). -/
def doPageLock (s : State) (p : Nat) (v : Word) : State :=
  (s.setReg (hdr p 7) (s.reg (hdr p 7) ||| (v &&& 7))).ok

/-- Pages whose `ENABLE` reads 1 and whose `RESET` is ignored (R497): SYS, PWR, EVT, FWL, LCS, TMX, TIM, MEM, DRC, LGR,
PAR, SAF. -/
def fixedPage (p : Nat) : Bool :=
  decide (p < 7) || (p == 144 || (p == 146 || (p == 148 || (p == 149 || p == 152))))

/-- A write of `xxx_CTRL.QUIESCE` (R32). -/
def doQuiesce (s : State) (p : Nat) (on : Bool) : State := (s.setF ⟨hdr p 2, 1, 1⟩ (b2n on)).ok

/-- A write of `xxx_CTRL.ENABLE` (R497). -/
def doEnable (s : State) (p : Nat) (on : Bool) : State :=
  (if fixedPage p then s else s.setF ⟨hdr p 2, 2, 2⟩ (b2n on)).ok

/-- `EVT_CLAIM`. -/
def execEvtClaim (t : Nat) (s : State) : Out := liveIf (decide (t < 5)) s (doEvtClaim s t)

/-- `EVT_DONE`. -/
def execEvtDone (t n : Nat) (s : State) : Out := liveIf (decide (t < 5)) s (doEvtDone s t n)

/-- `EVT_ROUTE_WRITE`. -/
def execEvtRouteWrite (m n : Nat) (v : Word) (s : State) : Out := liveIf (decide (n < 512)) s (doEvtRoute s m n v)

/-- `EVENT_SET`. -/
def execEventSet (p : Nat) (v : Word) (s : State) : Out := liveIf (s.pageOk p) s (doEventSet s p v)

/-- `PAGE_LOCK`. -/
def execPageLock (p : Nat) (v : Word) (s : State) : Out := liveIf (s.pageOk p) s (doPageLock s p v)

/-- `BLOCK_QUIESCE`. -/
def execBlockQuiesce (p : Nat) (on : Bool) (s : State) : Out := liveIf (s.pageOk p) s (doQuiesce s p on)

end Sys2Proof.Machine
end

