-- ==== Sys2Proof/Machine/Grid.lean ====
section
/-! DEFINITION. The grid feature engine (R96–R109): weight loads, grid passes and the quay-relative pose. -/

namespace Sys2Proof.Machine

/-- The memory of the engine holds undefined contents after a load or a pass (the spec gives no layout). -/
def State.gfeScratch (s : State) : State := s.scramble 0x3000_0000 0x40_0000

/-- The checks of a weight blob (R102, R104). -/
def blobOk (b : List Byte) : Bool :=
  let l := leAt b 6 1
  let layer := fun i => b.drop (64 + 9472 * i)
  b.take 4 == ascii "DQGW" && (leAt b 4 2 == 1 && (decide (1 ≤ l) && (decide (l ≤ 8) && (decide (1 ≤ leAt b 7 1) &&
    (decide (leAt b 7 1 ≤ 8) && (leAt b 8 4 == 64 + 9472 * l && (b.length == 64 + 9472 * l &&
      (leAt b 12 4 == crc32c (b.take 12 ++ b.drop 16) && ((b.drop 16).take 48 == zeros 48 &&
        (List.range l).all fun i => (((layer i).drop 9408).take 32).all fun x => decide (x.toNat ≤ 47))))))))))

/-- Load and check the weight blob (R104). -/
def State.loadWeights (s : State) : State :=
  let a := dramAddr (s.f Fld.GFE_WADDR_ADDR)
  let h := s.mRead 6 a 64
  let n := min 75840 (leAt h.data 8 4)
  let r := h.st.mRead 6 a (max 64 n)
  if h.rsp = .okay ∧ r.rsp = .okay ∧ blobOk r.data = true then
    let t : State := { r.st.gfeScratch with gfe := { r.st.gfe with blob := r.data } }
    t.setReg Adr.GFE_WSTAT (BitVec.ofNat 32 (2 ^ 31 + leAt r.data 7 1 * 16 + leAt r.data 6 1))
  else
    (({ r.st with gfe := { r.st.gfe with blob := [] } } : State).setReg Adr.GFE_WSTAT 0x40000000).raise Ev.GFE_WEIGHTS_BAD

/-- `GFE_CTRL.ENABLE` written: a change from 0 to 1 loads the weights (R104, R497). -/
def State.gfeEnable (s : State) (on : Bool) : State :=
  let t := s.setF ⟨hdr 41 2, 2, 2⟩ (b2n on)
  if on && !s.enabled 41 then t.loadWeights else t

/-- The checks of a berth map's header (R105); `c` is the blob's channel count. -/
def mapOk (b : List Byte) (c : Nat) : Bool :=
  b.take 4 == ascii "DQBM" && (leAt b 4 2 == 1 && (leAt b 6 1 == c && (leAt b 7 1 == 0 &&
    (leAt b 16 4 == crc32c (b.take 16 ++ b.drop 20) && (b.drop 20).take 44 == zeros 44))))

/-- A pass starts or does not at a B0 edge (R100); earlier passes age. -/
def State.gfeEdge (s : State) : State :=
  let new := ((List.range 32).map fun p =>
    if s.ptype p = 6 then (s.fusOf p).latched.map fun l => (⟨p, l.tov, l.smp.pts⟩ : GridScan) else []).flatten
  let all := s.gfe.since ++ new
  let s1 : State := { s with gfe := { s.gfe with since := all, pass := s.gfe.pass.map fun x => { x with edges := x.edges + 1 } } }
  let d := s.f Fld.GFE_PASS_DIV
  let go := d != 0 && (s.frame % (max 2 d) == 0 && (s.works 41 && (s.fb Fld.GFE_WSTAT_LOADED &&
    (s.fb Fld.PWR_STAT_LANES_ON && s.gfe.pass.isNone))))
  if go then
    let drop := all.length - 32
    let s2 := s1.stickN Fld.GFE_POSE_STAT_SCAN_DROP drop
    let p : Option GridPass := if all = [] then none
      else some { scans := all.drop drop, sel := s.reg Adr.GFE_MAP_SEL, est := s.asm.est }
    { s2 with gfe := { s2.gfe with since := [], pass := p } }
  else s1

/-- 0.2 m in binary32. -/
def cellF : Nat := 0x3E4CCCCD

/-- The estimate's heading at an instant: ψ_e + r_e·(t − t_e) (R98). -/
def psiAt (est : List Byte) (t : Nat) : Nat := fAdd (leAt est 32 4) (fMul (leAt est 44 4) (secondsF t (leAt est 8 8)))

/-- The cell of one point (R97, R98): row, column and intensity; none where the point is dropped. -/
def State.gridCell (s : State) (est : List Byte) (tr : Nat) (g : GridScan) (i : Nat) : Option (Nat × Nat × Nat) :=
  let q := (g.pts.drop (8 * i)).take 8
  let rg := leAt q 0 2
  if rg = 0 ∨ bitOf (leAt q 5 1) 0 = true ∨ rg < s.f Fld.GFE_GRID_MIN_RANGE then none
  else
    let w := fun k => (s.reg (Adr.FUS_MOUNT g.port k)).toNat
    let x := fSub (w 0) (s.reg Adr.GFE_VPT_X).toNat
    let y := fSub (w 1) (s.reg Adr.GFE_VPT_Y).toNat
    let range := fRatio (Int.ofNat (2 * rg)) 1000
    let ang := fAdd (fScale (fMul (fOfInt (Int.ofNat (leAt q 2 2))) twoPi) (-16)) (w 3)
    let xv := fAdd x (fMul range (fCos ang))
    let yv := fAdd y (fMul range (fSin ang))
    let t := g.tov + 1000 * leAt q 6 2
    let psi := psiAt est t
    let dt := secondsF t tr
    let n := fAdd (fSub (fMul (fCos psi) xv) (fMul (fSin psi) yv)) (fMul (leAt est 48 4) dt)
    let e := fAdd (fAdd (fMul (fSin psi) xv) (fMul (fCos psi) yv)) (fMul (leAt est 52 4) dt)
    let row := fSub (fOfInt 128) (fDiv n cellF)
    let col := fAdd (fOfInt 128) (fDiv e cellF)
    if !fFin row || !fFin col then none
    else
      let r := fFloor row
      let c := fFloor col
      if 0 ≤ r ∧ r < 256 ∧ 0 ≤ c ∧ c < 256 then some (r.toNat, c.toNat, leAt q 4 1) else none

/-- The grid of a pass (R99): 65,536 cells of 32 channels, row by row. -/
def State.gridOf (s : State) (p : GridPass) (tr : Nat) : Array Int :=
  let cells := (p.scans.map fun g => (List.range (g.pts.length / 8)).filterMap (s.gridCell p.est tr g)).flatten
  cells.foldl (fun (a : Array Int) c =>
    let o := (c.1 * 256 + c.2.1) * 32
    (a.setIfInBounds o (min 127 (a.getD o 0 + 1))).setIfInBounds (o + 1) (max (a.getD (o + 1) 0) (Int.ofNat (c.2.2 / 2))))
    (Array.replicate (65536 * 32) 0)

/-- One output of a layer (R103): layer record `w`, input map `m`. -/
def layerOut (w : Array Byte) (m : Array Int) (row col o : Nat) : Int :=
  let wt := fun ky kx i => (w.getD (((o * 3 + ky) * 3 + kx) * 32 + i) 0).toInt
  let cell := fun ky kx i =>
    if row + ky = 0 ∨ 256 < row + ky ∨ col + kx = 0 ∨ 256 < col + kx then 0
    else m.getD (((row + ky - 1) * 256 + (col + kx - 1)) * 32 + i) 0
  let acc := (List.range 9).foldl (fun a k => (List.range 32).foldl (fun a i => a + wt (k / 3) (k % 3) i * cell (k / 3) (k % 3) i) a) 0
  let by4 := fun a n => ofLe ((List.range n).map fun j => w.getD (a + j) 0)
  let t := satI 32 (acc + sgn 32 (by4 (9216 + 4 * o) 4)) * Int.ofNat (by4 (9344 + 2 * o) 2)
  let sh := by4 (9408 + o) 1
  let lo : Int := if by4 (9440 + o) 1 % 2 = 1 then 0 else -128
  clampI lo 127 (fdiv (t + (if 0 < sh then 2 ^ (sh - 1) else 0)) (2 ^ sh))

/-- The feature map: all layers of the blob over the grid (R103). -/
def features (blob : List Byte) (grid : Array Int) : Array Int :=
  (List.range (leAt blob 6 1)).foldl (fun m l =>
    let w := ((blob.drop (64 + 9472 * l)).take 9472).toArray
    ((List.range (65536 * 32)).map fun j => layerOut w m (j / 32 / 256) (j / 32 % 256) (j % 32)).toArray) grid

/-- Σ|F| of a cell over the first `c` channels (R106). -/
def cellSum (f : Array Int) (c cell : Nat) : Nat := (List.range c).foldl (fun a ch => a + (f.getD (cell * 32 + ch) 0).natAbs) 0

/-- The key cells (R106): largest sums first, ties to the lower row and column; cells whose sum is 0 are never keys. -/
def keyCells (f : Array Int) (c k : Nat) : List Nat :=
  let sums := ((List.range 65536).map (cellSum f c)).toArray
  (((List.range 1024).map fun v => (List.range 65536).filter fun i => sums.getD i 0 == 1024 - v).flatten).take k

/-- The score of an offset (R107). -/
def scoreOf (f : Array Int) (map : Array Byte) (c : Nat) (keys : List Nat) (rc cc dr dc : Int) : Int :=
  keys.foldl (fun a key => (List.range c).foldl (fun a ch =>
    let i := Int.ofNat (key / 256) + rc - 128 + dr
    let j := Int.ofNat (key % 256) + cc - 128 + dc
    let m := if 0 ≤ i ∧ i < 512 ∧ 0 ≤ j ∧ j < 512 then (map.getD (64 + (i.toNat * 512 + j.toNat) * c + ch) 0).toInt else 0
    a + f.getD (key * 32 + ch) 0 * m) a) 0

/-- One scored offset. -/
structure Score where
  dr : Int
  dc : Int
  v : Int
deriving DecidableEq, Repr

/-- Whether `a` is the better peak: the larger score, then the smaller distance, then the smaller dr and dc (R108). -/
def Score.better (a b : Score) : Bool :=
  let da := a.dr * a.dr + a.dc * a.dc
  let db := b.dr * b.dr + b.dc * b.dc
  decide (b.v < a.v) || (a.v == b.v && (decide (da < db) || (da == db && (decide (a.dr < b.dr) ||
    (a.dr == b.dr && decide (a.dc < b.dc))))))

/-- The offset and deviation along one axis (R109): δ and σ. -/
def axisFit (q : Nat) (s0 sm sp : Int) : Nat × Nat :=
  let cv := 2 * s0 - sm - sp
  (fDiv (fOfInt (sm - sp)) (fOfInt (2 * cv)),
   fMax 0x3CA3D70A (fMul (fMul cellF (fRatio (Int.ofNat q) 256)) (fSqrt (fDiv (fOfInt s0) (fOfInt cv)))))

/-- What a pass yields: a pose, or a reason (R105–R109). -/
def State.passResult (s : State) (p : GridPass) (map : Option (List Byte)) : List Byte ⊕ Nat :=
  match map with
  | none => .inr 5
  | some mb =>
    if !(p.est.length == 128 && bitOf (leAt p.est 16 1) 0) then .inr 3
    else
      let tr := p.scans.foldl (fun t g => min t g.tov) ((p.scans.head?.map fun g => g.tov).getD 0)
      let c := leAt s.gfe.blob 7 1
      let f := features s.gfe.blob (s.gridOf p tr)
      let keys := keyCells f c (min 1024 (max 64 (s.f Fld.GFE_CORR_KEYS)))
      if keys.length < 16 then .inr 4
      else
        let psi := psiAt p.est tr
        let dt := secondsF tr (leAt p.est 8 8)
        let lev := lessLever [fAdd (leAt p.est 24 4) (fMul (leAt p.est 48 4) dt), fAdd (leAt p.est 28 4) (fMul (leAt p.est 52 4) dt)]
          psi (fNegate (s.reg Adr.GFE_VPT_X).toNat) (fNegate (s.reg Adr.GFE_VPT_Y).toNat)
        let n0 := leAt mb 8 4
        let e0 := leAt mb 12 4
        let rcF := fDiv (fSub n0 (lev.getD 0 0)) cellF
        let ccF := fDiv (fSub (lev.getD 1 0) e0) cellF
        let rc := if fFin rcF then fRne rcF else 0
        let cc := if fFin ccF then fRne ccF else 0
        let w := max 1 (s.f Fld.GFE_CORR_W)
        let off := (List.range (2 * w + 1)).map fun i => Int.ofNat i - Int.ofNat w
        let ma := mb.toArray
        let sc := (off.map fun dr => off.map fun dc => (⟨dr, dc, scoreOf f ma c keys rc cc dr dc⟩ : Score)).flatten
        match sc with
        | [] => .inr 1
        | x :: rest =>
          let pk := rest.foldl (fun b a => if a.better b then a else b) x
          let at_ := fun dr dc => ((sc.find? fun a => a.dr == dr && a.dc == dc).map fun a => a.v).getD 0
          let s2 := (sc.filter fun a => decide (2 < (a.dr - pk.dr).natAbs) || decide (2 < (a.dc - pk.dc).natAbs)).foldl
            (fun (m : Option Int) a => some (match m with
              | none => a.v
              | some v => max v a.v)) none
          let cr := 2 * pk.v - at_ (pk.dr - 1) pk.dc - at_ (pk.dr + 1) pk.dc
          let ccv := 2 * pk.v - at_ pk.dr (pk.dc - 1) - at_ pk.dr (pk.dc + 1)
          if pk.dr.natAbs = w ∨ pk.dc.natAbs = w then .inr 2
          else if pk.v ≤ 0 ∨ 16 * pk.v ≤ Int.ofNat (s.f Fld.GFE_CORR_RATIO) * s2.getD 0 ∨ cr = 0 ∨ ccv = 0 then .inr 1
          else
            let q := s.f Fld.GFE_CORR_Q
            let fr := axisFit q pk.v (at_ (pk.dr - 1) pk.dc) (at_ (pk.dr + 1) pk.dc)
            let fc := axisFit q pk.v (at_ pk.dr (pk.dc - 1)) (at_ pk.dr (pk.dc + 1))
            .inl (mkSample tr 7
              [fSub n0 (fMul cellF (fAdd (fOfInt (rc + pk.dr)) fr.1)), fAdd e0 (fMul cellF (fAdd (fOfInt (cc + pk.dc)) fc.1)), psi, 0]
              [fr.2, fc.2])

/-- Copy map `m` in from DRAM and check its header (R105). -/
def State.copyMap (s : State) (m : Nat) : State × Option (List Byte) :=
  let c := leAt s.gfe.blob 7 1
  let r := s.mRead 6 (dramAddr (s.f (Fld.GFE_MAP_ADDR_ADDR m))) (64 + 262144 * c)
  if r.rsp = .okay ∧ mapOk r.data c = true then
    ({ r.st with gfe := { r.st.gfe with map := some (m, r.data) } }, some r.data)
  else (r.st.raise Ev.GFE_MAP_BAD, none)

/-- The map a pass correlates with (R105): the resident one, or a newly copied and checked one. -/
def State.passMap (s : State) (p : GridPass) : State × Option (List Byte) :=
  let m := bitsOf p.sel.toNat 3 0
  if bitOf p.sel.toNat 31 = false then (s, none)
  else
    match s.gfe.map with
    | some (k, b) => if k = m then (s, some b) else s.copyMap m
    | none => s.copyMap m

/-- A pass completes (R81, R105–R109). -/
def State.passDone (s : State) (p : GridPass) : State :=
  let (s1, map) := s.passMap p
  let s2 : State := { s1.gfeScratch with gfe := { s1.gfe with pass := none } }
  let fail := fun (r : Nat) (t : State) =>
    ((t.setF Fld.GFE_POSE_STAT_VALID 0).setF Fld.GFE_POSE_STAT_REASON r).raise Ev.GFE_POSE_INVALID
  let port := s.f Fld.GFE_PASS_POSE_PORT
  let s3 := match s1.passResult p map with
    | .inr r => fail r s2
    | .inl b =>
      if s.ptype port ≠ 7 then fail 6 s2
      else
        ({ s2 with fus := { s2.fus with pose := some ⟨port, b, decide (1 ≤ p.edges)⟩ } } : State).setF Fld.GFE_POSE_STAT_VALID 1
          |>.setF Fld.GFE_POSE_STAT_REASON 0
  (s3.wrap Fld.GFE_POSE_STAT_PASSES 1).raise Ev.GFE_PASS_DONE

/-! ### The commands -/

/-- `GRID_PASS_DONE`. -/
def execGridPassDone (s : State) : Out :=
  match s.gfe.pass with
  | none => live s s
  | some p => live s (s.passDone p)

/-- A write of 1 to `GFE_POSE_CLR.SCAN_CLR` (R100). -/
def doScanClr (s : State) : State := (s.setF Fld.GFE_POSE_STAT_SCAN_DROP 0).ok

/-- `GFE_WEIGHT_LOAD`: `GFE_CTRL.ENABLE` changes from 0 to 1. -/
def execGfeWeightLoad (s : State) : Out := live s (s.gfeEnable true).ok

/-- `SCAN_CLR`: a write of 1 (R100). -/
def execScanClr (s : State) : Out := live s (doScanClr s)

/-- `BLOCK_ENABLE`: a write of `ENABLE` on page `p` (R497; R104 for the feature engine). -/
def execBlockEnable (p : Nat) (on : Bool) (s : State) : Out :=
  liveIf (s.pageOk p) s (if p = 41 then (s.gfeEnable on).ok else doEnable s p on)

end Sys2Proof.Machine
end

