-- ==== Sys2Proof/Machine/Flash.lean ====
section
/-! DEFINITION. The flash manager (R392–R415): mounting, software requests, housekeeping, boot selection, format, and the
objects and images it keeps. -/

namespace Sys2Proof.Machine

/-! ### Objects (R406, R472) -/

/-- The quota of partition `p` in bytes (R405). -/
def partQuota (p : Nat) : Nat := if p ≤ 2 then 0x800_0000 else if p = 3 then 0x200_0000 else 0x1000_0000

/-- The header of an object agrees with its partition, index and length (R406, R407). -/
def objHeadOk (p i : Nat) (o : List Byte) : Bool :=
  let k := leAt o 6 1
  let kind := if p ≤ 2 then k == 1 else if p = 3 then k == 2 else k == 3 || k == 4
  let idx := decide (i < if p ≤ 2 then 1 else if p = 3 then 4 else 32)
  o.take 4 == ascii "DQOB" && (leAt o 4 2 == 1 && (kind && (idx && (leAt o 7 1 == i && (leAt o 8 4 + 224 == o.length &&
    decide (o.length ≤ partQuota p))))))

/-- The payload of an object, and its hash check. -/
def objPayload (o : List Byte) : List Byte := (o.drop 128).take (leAt o 8 4)
def objHashOk (o : List Byte) : Bool := sha384 (objPayload o) == (o.drop 16).take 48

/-- The signature of an object's trailer (R406, R472): by the maker key in `MAKER` and `RETURNED`, not checked in `INTEGRATE`
before the configuration key is programmed, by the configuration key otherwise. -/
def State.objSigOk (s : State) (o : List Byte) : Bool :=
  let m := o.take (o.length - 96)
  let g := o.drop (o.length - 96)
  let st := s.lcs.state
  if st = 1 ∨ st = 4 then ecdsaVerify Config.makerKey m g
  else
    match s.lcs.cfgHash with
    | none => st == 2
    | some h => (st == 2 || st == 3) && ecdsaByHash h m g

/-- The object of partition `p` and index `i`. -/
def State.objAt (s : State) (p i : Nat) : Option NObj := s.nfc.objs.find? fun o => o.part == p && o.index == i

/-! ### Strongbox images (R324, R408) -/

/-- The digest of the configuration image in use (R314, R324): 0 before one is loaded. -/
def State.cfgDigest (s : State) : Nat := if s.nfc.config = [] then 0 else (Config.cfgDigest s.nfc.config).toNat

/-- The CRC of an image (R324): the header with its CRC field taken as 0, then the banks, of which each takes 0x4_0000 bytes from
8,192 × (number of banks) on. -/
def imageCrc (b : List Byte) : Nat :=
  crc32c (putAt (b.take 256) 52 4 0 ++ (b.drop (8192 * leAt b 6 1)).take (0x4_0000 * leAt b 6 1))

/-- The checks of R342 on an image: magic, layout version, CRC, configuration digest. -/
def State.imageOk (s : State) (b : List Byte) : Bool :=
  b.take 4 == ascii "DQSB" && (leAt b 4 2 == 1 && (leAt b 52 4 == imageCrc b && leAt b 28 8 == s.cfgDigest))

/-- The newest strongbox image that passes its checks (R342, R408). -/
def State.bestImage (s : State) : Option (List Byte) :=
  if s.nfcReads then (((s.objsOf 5).reverse.filter NObj.whole).map fun o => o.data).find? s.imageOk else none

/-- Write an image (R408): while fewer than 4 blocks of the quota would remain free, the oldest is freed. -/
def State.putImage (s : State) (d : List Byte) : State :=
  let t := s.putContent 5 0 d
  if partQuota 5 / t.blkBytes < t.partBlks 5 + 4 then
    match (t.objsOf 5).head? with
    | none => t
    | some o => t.dropContent fun x => x.part == 5 && x.wseq == o.wseq
  else t

/-! ### Mounting (R404) -/

/-- The manager finishes mounting; `ok0`, `ok1`: the channel answers READ ID and its header reads (R404, R413). -/
def State.mount (s : State) (ok0 ok1 : Bool) : State :=
  if s.f Fld.NFC_STAT_STATE ≠ 1 ∨ s.fb Fld.NFC_CFG_EN = false then s
  else if s.nfc.supported = false then s.setF Fld.NFC_STAT_STATE 5
  else
    match s.nfc.head with
    | none => if ok0 || ok1 then s.setF Fld.NFC_STAT_STATE 4 else (s.setF Fld.NFC_STAT_STATE 6).raise Ev.NFC_READ_ONLY
    | some h =>
      if !(ok0 && ok1) then (s.setF Fld.NFC_STAT_STATE 6).raise Ev.NFC_READ_ONLY
      else
        let half := s.f Fld.NFC_READ_LIMIT_LIMIT / 2
        let bl := s.nfc.blocks.map fun e => (e.1, if e.2.use = 1 then { e.2 with reads := half } else e.2)
        let s1 : State := { s with nfc := { s.nfc with blocks := bl, chanOk := [ok0, ok1] } }
        (((s1.setF Fld.NFC_STAT_BOOT_SLOT h.slot).setF Fld.NFC_STAT_STATE 2).nfcShow).raise Ev.NFC_MOUNTED

/-- Any reset of R404: a request in progress is lost, its content without a mark does not exist. -/
def State.nfcRestart (s : State) : State :=
  let s1 : State := { s with nfc := { s.nfc with req := none, worn := false } }
  s1.setF Fld.NFC_STAT_STATE (if s.fb Fld.NFC_CFG_EN then 1 else 0)

/-! ### Software requests (R407) -/

/-- A request ends with a code (R415). -/
def State.reqEnd (s : State) (code : Nat) : State :=
  let t : State := { s with nfc := { s.nfc with req := none } }
  ((((t.setF Fld.NFC_REQ_RES_BUSY 0).setF Fld.NFC_REQ_RES_DONE 1).setF Fld.NFC_REQ_RES_CODE code)).raise Ev.NFC_REQ_DONE

/-- The partition serves the operation for software (R405). -/
def opServed (op p : Nat) : Bool :=
  if op = 4 then p == 5 || p == 0 else decide (1 ≤ op) && (decide (op ≤ 3) && (decide (1 ≤ p) && decide (p ≤ 4)))

/-- A write of `v` with `GO` to `NFC_REQ_CTRL` by master `m` (R407, R411): the NAND target's table is checked for the partition
(R441). -/
def doNfcReq (s : State) (m : Nat) (v : Word) : State :=
  let x := v.toNat
  let op := bitsOf x 30 28
  let p := bitsOf x 26 24
  let s0 := ((s.setF Fld.NFC_REQ_CTRL_OP op).setF Fld.NFC_REQ_CTRL_PART p).setF Fld.NFC_REQ_CTRL_INDEX (bitsOf x 20 16)
  if bitOf x 31 = false then s0.ok
  else if s.nfc.req.isSome then (s0.setF Fld.NFC_REQ_RES_CODE 2).ok
  else
    let k : Acc := if op = 1 ∨ op = 3 then .write else .read
    let q := if op = 4 then 5 else p
    let allowed := s.f Fld.FWL_STAT_ENFORCE == 0 || s.listCovers m k 203 q
    if !opServed op p || !allowed then (s0.reqEnd 3).ok
    else if op = 1 ∧ p = 1 + s.f Fld.NFC_STAT_RUN_SLOT then (s0.reqEnd 10).ok
    else
      let s1 : State := { s0 with nfc := { s0.nfc with req := some ⟨op, q, bitsOf x 20 16⟩ } }
      ((s1.setF Fld.NFC_REQ_RES_BUSY 1).setF Fld.NFC_REQ_RES_CODE 0).ok

/-- The DRAM address of a request. -/
def State.reqAddr (s : State) : Nat := dramAddr (s.f Fld.NFC_REQ_DRAM_ADDR)

/-- Put bytes read from flash into DRAM; `NFC_REQ_LEN` gives their number (R407, R415). -/
def State.reqCopy (s : State) (d : List Byte) : State :=
  let r := s.mWrite 21 s.reqAddr d
  (r.st.setReg Adr.NFC_REQ_LEN (BitVec.ofNat 32 d.length)).reqEnd (if r.rsp = .okay then 1 else 8)

/-- A write request (R407). -/
def State.reqWrite (s : State) (q : NReq) : State :=
  let n := s.f Fld.NFC_REQ_LEN_BYTES
  if !s.nfcReady then s.reqEnd 9
  else if n < 224 ∨ partQuota q.part < n then s.reqEnd 4
  else
    let r := s.mRead 21 s.reqAddr n
    if r.rsp ≠ .okay then r.st.reqEnd 8
    else if objHeadOk q.part q.index r.data = false then r.st.reqEnd 4
    else if objHashOk r.data = false then r.st.reqEnd 6
    else (r.st.putContent q.part q.index r.data).reqEnd 1

/-- Note the configuration image last loaded (R314, R324). -/
def State.setConfig (s : State) (d : List Byte) : State := { s with nfc := { s.nfc with config := d } }

/-- A load request (R407): the check of kinds 2–4; a load that fails leaves the DRAM content undefined. -/
def State.reqLoad (s : State) (q : NReq) (uncorr : Bool) : State :=
  if !s.nfcReads then s.reqEnd (if s.f Fld.NFC_STAT_STATE = 6 then 8 else 5)
  else
    match s.objAt q.part q.index with
    | none => s.reqEnd 5
    | some o =>
      let bad := (inDram s.reqAddr && inDram (s.reqAddr + o.data.length - 1)) && decide (0 < o.data.length)
      let fail := fun (c : Nat) => (if bad then s.scramble s.reqAddr o.data.length else s).reqEnd c
      if uncorr || !o.whole then fail 8
      else if 2 ≤ leAt o.data 6 1 ∧ objHashOk o.data = false then fail 6
      else if 2 ≤ leAt o.data 6 1 ∧ s.objSigOk o.data = false then fail 7
      else if q.part = 3 then
        (s.reqCopy o.data).setConfig (objPayload o.data)
      else s.reqCopy o.data

/-- An erase request (R407). -/
def State.reqErase (s : State) (q : NReq) : State :=
  if !s.nfcReady then s.reqEnd 9
  else if (s.objAt q.part q.index).isNone then s.reqEnd 5
  else (s.dropContent fun o => o.part == q.part && o.index == q.index).reqEnd 1

/-- An image request (R407). -/
def State.reqImage (s : State) (uncorr : Bool) : State :=
  match s.bestImage with
  | none => s.reqEnd 5
  | some d => if uncorr then s.reqEnd 8 else s.reqCopy d

/-! ### The commands -/

/-- The request `v` with operation `op`. -/
def withOp (op : Nat) (v : Word) : Word := (v &&& 0x0FFFFFFF) ||| BitVec.ofNat 32 (0x80000000 + op * 0x10000000)

/-- `NFC_WRITE`: master `m` writes `NFC_REQ_CTRL` with `GO` and `OP` 1. -/
def execNfcWrite (m : Nat) (v : Word) (s : State) : Out := live s (doNfcReq s m (withOp 1 v))

/-- `NFC_LOAD`. -/
def execNfcLoad (m : Nat) (v : Word) (s : State) : Out := live s (doNfcReq s m (withOp 2 v))

/-- `NFC_ERASE`. -/
def execNfcErase (m : Nat) (v : Word) (s : State) : Out := live s (doNfcReq s m (withOp 3 v))

/-- `NFC_IMAGE`. -/
def execNfcImage (m : Nat) (v : Word) (s : State) : Out := live s (doNfcReq s m (withOp 4 v))

/-- `REQ_DONE`: the running request is served; `uncorr`: a quarter it reads is uncorrectable (R396). Requests wait during the
mount. -/
def execReqDone (uncorr : Bool) (s : State) : Out :=
  live s (match s.nfc.req with
  | none => s
  | some q =>
    if s.f Fld.NFC_STAT_STATE ≤ 1 then s
    else if q.op = 1 then s.reqWrite q
    else if q.op = 2 then s.reqLoad q uncorr
    else if q.op = 3 then s.reqErase q
    else s.reqImage uncorr)

/-- `NAND_OPERATION_DONE`: a quarter read (`op` 0), a program (1) or an erase (2) on block `b` ends. `res` is the largest count of
corrected bits, or none where it is uncorrectable or failed (R396, R398). -/
def execNandOperationDone (op b q : Nat) (res : Option Nat) (s : State) : Out :=
  liveIf (decide (b < s.nfc.nBlocks) && ((s.nblk b).bad == 0 && (!s.headBlk b && if op = 0 then s.nfcReads else s.nfcReady))) s
    (if op = 0 then (let t := s.readBlk b res
                     if res.isNone then t.loseQuarter b (q % (4 * s.nfc.pages)) else t)
    else if op = 1 then (if res.isNone then s.progFail b else s)
    else s.eraseBlk b res.isSome)

/-- `RELOCATION_DONE` of block `b`: scheduled, or a static move (R399, R402). -/
def execRelocationDone (b : Nat) (s : State) : Out :=
  liveIf (s.nfcReady && ((s.nblk b).use == 1 && ((s.nblk b).bad == 0 && ((s.nblk b).move != 0 || s.staticMove b)))) s (s.relocate b)

/-- `PATROL`: the patrol reads block `b` with at most `res` corrected bits in a sector (R401). -/
def execPatrol (b : Nat) (res : Option Nat) (s : State) : Out :=
  let t := s.readBlk b res
  let old := decide (max 1 (s.f Fld.NFC_SCRUB_AGE_DAYS) ≤ (s.day + 65536 - (s.nblk b).day) % 65536)
  liveIf (s.nfcReads && ((s.nblk b).use == 1 && (s.nblk b).bad == 0)) s (if old then t.schedule b false else t)

/-- A write of `NFC_BOOT_SEL` (R410). -/
def doBootSel (s : State) (v : Word) : State :=
  let slot := v.toNat % 2
  (if bitsOf v.toNat 31 16 ≠ 0xB007 then s
    else if !s.nfcReady then ((s.setF Fld.NFC_REQ_RES_DONE 1).setF Fld.NFC_REQ_RES_CODE 9).raise Ev.NFC_REQ_DONE
    else if (s.objAt (1 + slot) 0).isNone then ((s.setF Fld.NFC_REQ_RES_DONE 1).setF Fld.NFC_REQ_RES_CODE 5).raise Ev.NFC_REQ_DONE
    else ({ s with nfc := { s.nfc with head := some { day := s.day, slot := slot } } } : State).setF Fld.NFC_STAT_BOOT_SLOT slot).ok

/-- `NFC_BOOT_SEL`. -/
def execNfcBootSel (v : Word) (s : State) : Out := live s (doBootSel s v)

/-- Every block of which `p` holds is erased. -/
def State.eraseAll (s : State) (p : NBlock → Bool) : State :=
  let l := s.nfc.blocks.map fun e =>
    (e.1, if p e.2 then { e.2 with ec := e.2.ec + 1, use := 0, reads := 0, erased := s.day, day := 0, move := 0 } else e.2)
  { s with nfc := { s.nfc with blocks := l.filter fun e => e.2 != { ec := s.nfc.base } } }

/-- The medium is formatted (R414): every good block but the header blocks is erased; `bad` are the factory-bad blocks found on a
blank medium (R397). -/
def State.format (s : State) (bad : List Nat) : State :=
  let n := s.nfc.base + 1
  let old := match s.nfc.head with
    | none => (bad.filter fun b => decide (b < s.nfc.nBlocks)).foldl (fun m b => spSet (fun _ => ({} : NBlock)) m b { bad := 1 }) s.nfc.blocks
    | some _ => s.nfc.blocks
  let l := old.map fun e =>
    (e.1, if e.2.bad = 0 then { ec := e.2.ec + 1, erased := s.day } else e.2)
  let s1 : State := { s with
    nfc := { s.nfc with base := n, blocks := l.filter fun e => e.2 != { ec := n }, objs := [], log := [], vault := [], head := some { day := s.day, slot := 0 } }
    lgr := { s.lgr with till := [], vState := 0, vFirst := 0, vLast := 0, vault := [], vPost := none } }
  ((s1.setF Fld.NFC_STAT_BOOT_SLOT 0).setF Fld.NFC_STAT_STATE 2).nfcShow

/-- A write of `NFC_FORMAT` (R414); `bad` as in `State.format`. -/
def doFormat (s : State) (v : Word) (bad : List Nat) : State :=
  let st := s.f Fld.NFC_STAT_STATE
  (if v.toNat % 65536 ≠ 0xF0A7 ∨ s.lcs.state = 3 ∨ s.lgr.vState = 2 ∨ s.lgr.vState = 3 ∨ s.fb Fld.NFC_CFG_EN = false
      ∨ (st ≠ 2 ∧ st ≠ 4) then s else s.format bad).ok

/-- `NFC_FORMAT`. -/
def execNfcFormat (v : Word) (bad : List Nat) (s : State) : Out := live s (doFormat s v bad)

/-- The erase at the first start in `RETURNED` (R455): every block with content of `CONFIG`, `MAPS`, `STRONGBOX` and `LEDGER`. -/
def State.nfcReturned (s : State) : State :=
  let gone := ((s.nfc.objs.filter fun o => decide (3 ≤ o.part)).flatMap fun o => o.blocks) ++ (s.nfc.log.map fun l => l.block) ++ s.nfc.vault
  let s1 := gone.foldl (fun t b =>
    let x := t.nblk b
    t.setBlk b { x with ec := x.ec + 1, use := 0, reads := 0, erased := t.day, day := 0, move := 0 }) s
  ({ s1 with
    nfc := { s1.nfc with objs := s1.nfc.objs.filter fun o => decide (o.part < 3), log := [], vault := [] }
    lgr := { s1.lgr with till := [], vState := 0, vFirst := 0, vLast := 0, vault := [], vPost := none } } : State).nfcShow

end Sys2Proof.Machine
end

