-- ==== Sys2Proof/Machine/Shepherd.lean ====
section
/-! DEFINITION. The safety functions of the shepherd core (R285–R301): demands, phases, the envelope, torque-off lines,
diagnostics, start-up test and release. One sub-beat is one command; its work takes no time. -/

namespace Sys2Proof.Machine

/-- The shepherd core runs its firmware (R475). -/
def State.shpRuns (s : State) : Bool := s.pwr.on && !s.pwr.shpWaiting

/-- The safety functions operate (R287). -/
def State.safOn (s : State) : Bool := s.fb Fld.SAF_CFG_EN && (s.safOwned && s.shpRuns)

/-- `SAF_STATE.PHASE` as it reads (R287). -/
def State.safPhase (s : State) : Nat := if s.safOn then s.f Fld.SAF_STATE_PHASE else 0

/-- Set the phase the safety functions hold (R291). -/
def State.setPhase (s : State) (p : Nat) : State := s.setF Fld.SAF_STATE_PHASE p

/-- Step 3 of start-up ends when the phase has left `STARTUP` or `EN` is 0, or at once when the shepherd core was not restarted;
step 4 when beats run (R476, R477). -/
def State.stepOn (s : State) : State :=
  let warm := s.f Fld.SYS_RST_CAUSE_CODE == 2 || s.f Fld.SYS_RST_CAUSE_CODE == 3
  let done := s.f Fld.SYS_START_STEP == 3 && (warm || (s.shpRuns && (s.f Fld.SAF_CFG_EN == 0 || s.safPhase != 0)))
  let t : State := if done then { s.setF Fld.SYS_START_STEP 4 with frm := { s.frm with startTmo := true } } else s
  if t.f Fld.SYS_START_STEP = 4 ∧ t.running = true then t.setF Fld.SYS_START_STEP 5 else t

/-! ### Lines (R294–R296) -/

/-- The lines in force reach the field side (R270, R303). -/
def State.lineOut (s : State) : State :=
  if s.safOwned && !s.fio.lost then
    let c := s.doCmds &&& 0xF000
    let old := s.f Fld.FIO_DO_CMD_DO
    let tr := s.fio.tripped &&& (c ||| 0xFFF)
    let x := { s.fio with tripped := tr, mism := s.fio.mism &&& (65535 - ((old ^^^ c) &&& 0xF000)),
                          out := (s.fio.out &&& 0xFFF) ||| (c &&& (65535 - tr)) }
    (({ s with fio := x } : State).setF Fld.FIO_DO_CMD_DO ((old &&& 0xFFF) ||| c)).fioFault
  else s

/-- Axis `a`: enabled, and its line and thruster (R293, R294). -/
def State.axisOn (s : State) (a : Nat) : Bool := s.fb (Fld.SAF_AXIS_CFG_EN a)
def State.axisLine (s : State) (a : Nat) : Nat := s.f (Fld.SAF_AXIS_CFG_LINE a)

/-- Command the lines `l`. A line that goes off notes the time; the thrusters of its axes get `STOP.STO`, and every thruster
when all lines are off (R295). -/
def State.setLines (s : State) (l : Nat) : State :=
  let old := s.f Fld.SAF_STATE_LINES
  let off := fun (k : Nat) => bitOf old k && !bitOf l k
  let thr := (List.range 8).foldl (fun m a =>
    if s.axisOn a && off (s.axisLine a) then m ||| 2 ^ s.f (Fld.SAF_AXIS_CFG_THR a) else m) s.saf.sto
  let x := { s.saf with
    sto := if l = 0 ∧ old ≠ 0 then 0xFFFFFF else thr &&& 0xFFFFFF
    offAt := s.saf.offAt.mapIdx fun k r => if off k then s.tim.raw else r
    badOn := s.saf.badOn.mapIdx fun k c => if off k then 0 else c
    badOff := s.saf.badOff.mapIdx fun k c => if off k then 0 else c }
  (({ s with saf := x } : State).setF Fld.SAF_STATE_LINES l).lineOut

/-! ### Demands (R291, R292) -/

/-- Measured speed of axis `a`, and whether it is lost (R293). -/
def State.axisSpeed (s : State) (a : Nat) : Nat × Bool :=
  if s.fb (Fld.SAF_AXIS_CFG_SRC a) then
    let f := sgn 32 (s.reg (Adr.FIO_DI_FREQ (s.f (Fld.SAF_AXIS_CFG_PULSE a)))).toNat
    ((fdiv (2 * Int.ofNat (f.natAbs * s.f (Fld.SAF_AXIS_LIM_PSCALE a)) + 2 ^ 31) (2 ^ 32)).toNat, false)
  else
    let t := s.f (Fld.SAF_AXIS_CFG_THR a)
    if 24 ≤ t then (0, true)
    else ((sgn 16 (bitsOf (s.reg (Adr.CAN_FB t 2)).toNat 15 0)).natAbs,
      s.f (Fld.CAN_FB_STAT_VALID t) == 0 || s.fb (Fld.CAN_FB_STAT_STALE t))

/-- Demand `SAFE_STOP` of the control engine, or release it (R230, R292, R298). -/
def State.askStop (s : State) (m : Nat) : State := { s with cle := { s.cle with stopReq := some m } }

/-- Enter `STO`: every line is de-energised (R291, R294). -/
def State.enterSto (s : State) : State :=
  let t := s.setLines 0
  if s.f Fld.SAF_STATE_PHASE = 4 then t else ((t.setPhase 4).raise Ev.SAF_STO).askStop 3

/-- Enter `SS1`: the speeds of the enabled axes are recorded (R293). -/
def State.enterSs1 (s : State) : State :=
  let t := forUp 8 (fun a u => if u.axisOn a then u.setF (Fld.SAF_AXIS_STAT_V0 a) (u.axisSpeed a).1 else u) s
  (({ t with saf := { t.saf with demandAt := t.tim.raw, dwell := List.replicate 8 0 } } : State).setPhase 3).askStop 3

/-- A demand of source bit `src` (0 input, 1 `SAF_REQ`, 2 partner, 3 diagnostic), for STO or SS1 (R291). A further SS1 demand in
`SS1` or `STO` sets only its bit. A waiting release is dropped. -/
def State.demand (s : State) (src : Nat) (sto : Bool) : State :=
  let p := s.f Fld.SAF_STATE_PHASE
  let s0 : State := { s.setF Fld.SAF_STATE_DEMAND (s.f Fld.SAF_STATE_DEMAND ||| 2 ^ src) with saf := { s.saf with release := false } }
  if sto = false ∧ 3 ≤ p then s0
  else
    let s1 := (s0.stick Fld.SAF_DEMAND_CNT_COUNT Fld.SAF_DEMAND_CNT_SAT 1).raise Ev.SAF_DEMAND
    if sto then s1.enterSto else if p = 2 then s1.enterSs1 else s1

/-! ### Diagnostic failures (R297) -/

/-- `SAF_DIAG.INPUT` and `LINE` follow their causes. -/
def State.diagShow (s : State) : State :=
  let pr := (if bitOf s.saf.discBad 0 then 3 else 0) + (if bitOf s.saf.discBad 1 then 12 else 0)
  (s.setF Fld.SAF_DIAG_INPUT (s.saf.tpBad ||| pr)).setF Fld.SAF_DIAG_LINE (s.saf.onBad ||| s.saf.offBad)

/-- An input that shows a failure during the start-up test must pass it again from the start (R290). -/
def State.retest (s : State) (ins : Nat) : State :=
  if s.saf.tested then s
  else (s.setF Fld.SAF_STATE_OPEN_SEEN (s.f Fld.SAF_STATE_OPEN_SEEN &&& (15 - ins))).setF Fld.SAF_STATE_TEST_DONE
    (s.f Fld.SAF_STATE_TEST_DONE &&& (15 - ins))

/-- The failure of bit `b` of `SAF_DIAG` (R297). -/
def State.diagFail (s : State) (b : Nat) : State :=
  let t := (s.setReg Adr.SAF_DIAG (s.reg Adr.SAF_DIAG ||| BitVec.ofNat 32 (2 ^ b))).diagShow.raise Ev.SAF_DIAG_FAIL
  (t.setLines 0).demand 3 true

/-- The failures with a cause kept beside `SAF_DIAG`. -/
def State.tpFail (s : State) (i : Nat) : State :=
  (({ s with saf := { s.saf with tpBad := s.saf.tpBad ||| 2 ^ i } } : State).retest (2 ^ i)).diagFail 3
def State.discFail (s : State) (p : Nat) : State :=
  (({ s with saf := { s.saf with discBad := s.saf.discBad ||| 2 ^ p } } : State).retest (3 * 4 ^ p)).diagFail 2
def State.onFail (s : State) (k : Nat) : State :=
  ({ s with saf := { s.saf with onBad := s.saf.onBad ||| 2 ^ k } } : State).diagFail 1
def State.offFail (s : State) (k : Nat) : State :=
  ({ s with saf := { s.saf with offBad := s.saf.offBad ||| 2 ^ k } } : State).diagFail 0

/-- Two inputs of pair `p` agree (R288). -/
def State.pairAgrees (s : State) (p : Nat) : Bool := bitOf (s.f Fld.SAF_STATE_DI) (2 * p) == bitOf (s.f Fld.SAF_STATE_DI) (2 * p + 1)

/-- Line `k` has read correctly for 1 s (R297). -/
def State.lineGood (s : State) (k : Nat) : Bool :=
  match s.saf.okSince.getD k none with
  | none => false
  | some r => decide (r + 1000000000 ≤ s.tim.raw)

/-- A write of `v` to `SAF_DIAG` (R297). -/
def doDiagClear (s : State) (v : Nat) : State :=
  let all := fun (n m : Nat) (ok : Nat → Bool) => (List.range n).all fun i => !bitOf m i || ok i
  let c := fun (b : Nat) (ok : Bool) => bitOf v b && (bitOf (s.reg Adr.SAF_DIAG).toNat b && ok)
  let c3 := c 3 (all 4 s.saf.tpBad fun i => decide (10 ≤ s.saf.tpPass.getD i 0))
  let c2 := c 2 (all 2 s.saf.discBad s.pairAgrees)
  let c1 := c 1 (all 4 s.saf.onBad s.lineGood)
  let c0 := c 0 (all 4 s.saf.offBad s.lineGood)
  let x := { s.saf with tpBad := if c3 then 0 else s.saf.tpBad, discBad := if c2 then 0 else s.saf.discBad,
                        onBad := if c1 then 0 else s.saf.onBad, offBad := if c0 then 0 else s.saf.offBad }
  let m := 8 * b2n c3 + 4 * b2n c2 + 2 * b2n c1 + b2n c0
  (({ s with saf := x } : State).setReg Adr.SAF_DIAG (s.reg Adr.SAF_DIAG &&& ~~~(BitVec.ofNat 32 m))).diagShow

/-! ### Inputs and the start-up test (R288–R290) -/

/-- Mask of the enabled inputs. -/
def State.safInputs (s : State) : Nat := (List.range 4).foldl (fun m i => if s.fb (Fld.SAF_DI_CFG_EN i) then m + 2 ^ i else m) 0

/-- The start-up test passes when every enabled input has passed it (R290). -/
def State.testCheck (s : State) : State :=
  if s.safOn && (!s.saf.tested && (s.f Fld.SAF_STATE_TEST_DONE &&& s.safInputs) == s.safInputs) then
    ((({ s with saf := { s.saf with tested := true } } : State).setPhase 1).raise Ev.SAF_STARTUP_DONE).stepOn
  else s

/-- The filtered state of input `i` becomes closed or open (R288, R290, R291). -/
def State.inputTo (s : State) (i : Nat) (closed : Bool) : State :=
  let was := bitOf (s.f Fld.SAF_STATE_DI) i
  let known := bitOf s.saf.known i
  let s1 : State := { (s.setF ⟨Adr.SAF_STATE, 20 + i, 20 + i⟩ (b2n closed)).setF ⟨Adr.FIO_DI_STATE, 12 + i, 12 + i⟩ (b2n closed) with
    saf := { s.saf with known := s.saf.known ||| 2 ^ i } }
  if closed then
    if bitOf (s.f Fld.SAF_STATE_OPEN_SEEN) i && !s.saf.tested then (s1.setF ⟨Adr.SAF_STATE, 12 + i, 12 + i⟩ 1).testCheck else s1
  else
    let s2 := if s.saf.tested then s1 else s1.setF ⟨Adr.SAF_STATE, 16 + i, 16 + i⟩ 1
    if known && was then
      let k0 := s.f (Fld.SAF_DI_CFG_KIND i) == 0
      { s2 with saf := { s2.saf with pendIn := true, pendSto := s2.saf.pendSto || k0 } }
    else s2

/-! ### Release (R298, R301) -/

/-- The conditions of R298. -/
def State.relOk (s : State) : Bool :=
  let p := s.f Fld.SAF_STATE_PHASE
  s.safOn && ((p == 1 || p == 4) && ((s.f Fld.SAF_STATE_DI &&& s.safInputs) == s.safInputs && (s.reg Adr.SAF_DIAG == 0 && s.saf.tested)))

/-- The unit is in a pair that is not `ALONE`, and the partner has not been silent for more than 20 beats (R301). -/
def State.relPaired (s : State) : Bool :=
  s.fb Fld.PAR_CFG_PAIR_EN && (s.f Fld.PAR_STAT_ROLE != 3 && (match s.par.hbAt with
    | none => false
    | some r => decide (s.tim.raw ≤ r + 5000000)))

/-- A release is attempted, by this unit or `passed` by the partner (R298, R301). -/
def State.tryRelease (s : State) (passed : Bool) : State :=
  if !s.relOk || s.saf.release then s
  else if s.relPaired && (!passed && !s.saf.pOk) then (s.setF Fld.SAF_STATE_PARTNER_HELD 1).raise Ev.SAF_PARTNER_HELD
  else
    { (s.setF Fld.SAF_STATE_PARTNER_HELD 0).setF Fld.SAF_STATE_DEMAND 0 with
      saf := { s.saf with release := true, relPass := s.relPaired && !passed } }

/-- Set the mask of thrusters whose helm frames carry `STOP.STO` (R295). -/
def State.setSto (s : State) (m : Nat) : State := { s with saf := { s.saf with sto := m } }

/-- The end of the sub-beat that performs a release (R298). -/
def State.doRelease (s : State) : State :=
  let t := ({ s with saf := { s.saf with release := false } } : State).setLines 15
  let t1 := (((t.setSto 0).setPhase 2).setF Fld.SAF_STATE_AXIS_STO 0).setReg Adr.SAF_AXIS_FLAGS 0
  (t1.raise Ev.SAF_RELEASED).askStop 0

/-! ### SS1 (R293, R294) -/

/-- What one sub-beat of `SS1` finds of the axes: newly exceeded, newly lost, newly at standstill (masks), and dwell counts. -/
structure AxisScan where
  env : Nat := 0
  lost : Nat := 0
  still : Nat := 0
  dwell : List Nat := []

/-- Axis `a` in one sub-beat of `SS1` (R293). -/
def State.scanAxis (s : State) (r : AxisScan) (a : Nat) : AxisScan :=
  if !s.axisOn a || bitOf (s.f Fld.SAF_STATE_AXIS_STO) a then r
  else
    let v := s.axisSpeed a
    let drop := s.f (Fld.SAF_AXIS_ENV_DECEL a) * (s.tim.raw - s.saf.demandAt) / 1000000000
    let env := Int.ofNat (s.f (Fld.SAF_AXIS_STAT_V0 a) + s.f (Fld.SAF_AXIS_ENV_MARGIN a)) - Int.ofNat drop
    let d := if v.1 ≤ s.f (Fld.SAF_AXIS_LIM_STANDSTILL a) then r.dwell.getD a 0 + 1 else 0
    let r1 := { r with dwell := setNth r.dwell a d }
    let r2 := if env < Int.ofNat v.1 then { r1 with env := r1.env ||| 2 ^ a } else r1
    let r3 := if v.2 then { r2 with lost := r2.lost ||| 2 ^ a } else r2
    if max 1 (s.f Fld.SAF_TIMING_DWELL) ≤ d then { r3 with still := r3.still ||| 2 ^ a } else r3

/-- Mask of the enabled axes, of line `k` or of all lines. -/
def State.axesOf (s : State) (k : Option Nat) : Nat :=
  (List.range 8).foldl (fun m a => if s.axisOn a && (match k with
    | none => true
    | some i => s.axisLine a == i) then m + 2 ^ a else m) 0

/-- The lines after the axis conditions (R294): `trip` names axes that met the envelope or lost-speed condition. -/
def State.ss1Lines (s : State) (trip : Nat) (tmax : Bool) : State :=
  let sto := s.f Fld.SAF_STATE_AXIS_STO
  let keep := fun (k : Nat) =>
    let ax := s.axesOf (some k)
    bitOf (s.f Fld.SAF_STATE_LINES) k && (!tmax && (ax == 0 || ((trip &&& ax) == 0 && (sto &&& ax) != ax)))
  let l := (List.range 4).foldl (fun m k => if keep k then m + 2 ^ k else m) 0
  let held := (List.range 4).any fun k => bitOf l k && s.axesOf (some k) != 0
  let t := s.setLines (if held then l else 0)
  if held then t else t.enterSto

/-- `TMAX` has passed since the demand (R293). -/
def State.ss1Tmax (s : State) : State :=
  (s.setF Fld.SAF_STATE_AXIS_STO (s.f Fld.SAF_STATE_AXIS_STO ||| s.axesOf none)).ss1Lines 0 true

/-- One sub-beat of `SS1` after that of the demand (R293, R294). -/
def State.ss1Step (s : State) : State :=
  if s.saf.demandAt + 1000000 * max 1 (s.f Fld.SAF_TIMING_TMAX) ≤ s.tim.raw then s.ss1Tmax
  else
    let r := (List.range 8).foldl s.scanAxis { dwell := s.saf.dwell }
    let s1 : State := { s with saf := { s.saf with dwell := r.dwell } }
    let s2 := ((s1.setF Fld.SAF_AXIS_FLAGS_ENV (s.f Fld.SAF_AXIS_FLAGS_ENV ||| r.env)).setF Fld.SAF_AXIS_FLAGS_NOSPEED
      (s.f Fld.SAF_AXIS_FLAGS_NOSPEED ||| r.lost)).setF Fld.SAF_STATE_AXIS_STO (s.f Fld.SAF_STATE_AXIS_STO ||| (r.env ||| (r.lost ||| r.still)))
    (if r.env = 0 then s2 else s2.raise Ev.SAF_ENVELOPE).ss1Lines (r.env ||| r.lost) false

/-! ### Readback and off-tests (R296) -/

/-- The readback of line `k` in a sub-beat: `low` below L+ − 3 V, `high` above 5 V. A line in its off-test is not judged. -/
def State.readback (low high : Nat) (k : Nat) (s : State) : State :=
  let x := s.saf
  let test := match x.otAt.getD k none with
    | none => false
    | some r => decide (s.tim.raw < r + 425000)
  if test then { s with saf := { x with badOn := setNth x.badOn k 0, badOff := setNth x.badOff k 0 } }
  else
    let on := bitOf (s.f Fld.SAF_STATE_LINES) k
    let bad := if on then bitOf low k else bitOf high k
    let c := if bad then min 2 ((if on then x.badOn else x.badOff).getD k 0 + 1) else 0
    let judged := on || decide (x.offAt.getD k 0 + 275000 < s.tim.raw)
    let ok := if bad then none else some ((x.okSince.getD k none).getD s.tim.raw)
    let y := { x with badOn := if on then setNth x.badOn k c else x.badOn
                      badOff := if on then x.badOff else setNth x.badOff k (if judged then c else 0)
                      okSince := setNth x.okSince k ok }
    let t : State := { s with saf := y }
    if c = 2 ∧ judged = true ∧ bitOf (if on then x.onBad else x.offBad) k = false then (if on then t.onFail k else t.offFail k) else t

/-- The set point of line `k`'s off-test in a second of disciplined time, ns (R296). -/
def State.otPoint (s : State) (k : Nat) : Nat :=
  (250000000 * k + if s.dev.unit = 1 ∧ s.fb Fld.PAR_CFG_PAIR_EN = true then 500000000 else 0) % 1000000000

/-- Off-tests that a sub-beat finds due: a set point has passed since the last sub-beat (R296). -/
def State.otStep (s : State) : State :=
  let due := (List.range 4).foldl (fun m k =>
    let q := fun (t : Nat) => (t + 1000000000 - s.otPoint k) / 1000000000
    if q s.saf.lastSub < q s.now then m + 2 ^ k else m) 0
  let on := s.fb Fld.SAF_CFG_OT_EN && (s.running && decide (0 < s.saf.lastSub))
  { s with saf := { s.saf with otDue := (if on then s.saf.otDue ||| due else 0) &&& s.f Fld.SAF_STATE_LINES, lastSub := s.now } }

/-! ### The sub-beat -/

/-- The demands that wait for a sub-beat (R288, R291). -/
def State.takeDemands (s : State) : State :=
  let x := s.saf
  let s0 : State := { s with saf := { x with pendIn := false, pendSto := false, pendReq := false } }
  let s1 := if x.pendIn then s0.demand 0 x.pendSto else s0
  if x.pendReq then s1.demand 1 false else s1

/-- A full pass over the shepherd code (R297). -/
def State.crcPass (s : State) (crc : Option Bool) : State :=
  match crc with
  | none => s
  | some good =>
    let t := s.wrap Fld.SAF_CRC_PASS_COUNT 1
    if good = true ∨ t.safOn = false then t else t.diagFail 6

/-- One sub-beat (R286–R298). -/
def doSubBeat (s : State) (low high : Nat) (crc : Option Bool) (ue : Bool) : State :=
  let s0 := s.crcPass crc
  if !s0.safOn then s0
  else
    let s1 := forUp 8 (fun a t => if t.axisOn a then t.setF (Fld.SAF_AXIS_STAT_SPEED a) (t.axisSpeed a).1 else t) s0
    let wasSs1 := s1.f Fld.SAF_STATE_PHASE == 3
    let rel := s1.saf.release
    let s2 := if ue then s1.otStep.diagFail 5 else s1.otStep
    let s3 := forUp 4 (State.readback low high) s2.takeDemands
    let s4 := if wasSs1 && s3.f Fld.SAF_STATE_PHASE == 3 then s3.ss1Step
      else if s3.f Fld.SAF_STATE_PHASE = 3 ∧ s3.axesOf none = 0 then s3.ss1Lines 0 false else s3
    let s5 := if rel && s4.saf.release then s4.doRelease else s4
    s5.testCheck.stepOn

/-- `STOP` of a helm frame of thruster `t` (R292, R295): bit 0 `SS1`, bit 1 `STO`. -/
def State.stopByte (s : State) (t : Nat) : Nat :=
  if s.safOn then b2n (s.f Fld.SAF_STATE_PHASE != 2) + 2 * b2n (bitOf s.saf.sto t) else 0

/-! ### The pair and the strongbox (R299–R301) -/

/-- What a valid heartbeat brings: the partner's latched demands, `REL_OK` and a release passed on (R299, R301). The kind of a
demand is not carried: a diagnostic demand is taken as STO, any other as SS1. -/
def State.safPartner (s : State) (dem : Nat) (ok pass : Bool) : State :=
  let new := dem &&& (15 - s.saf.pDemand % 16)
  let s0 : State := { s with saf := { s.saf with pDemand := dem, pOk := ok } }
  if !s.safOn then s0
  else
    let s1 := if new = 0 then s0 else s0.demand 2 (bitOf new 3)
    if pass then s1.tryRelease true else s1

/-- The safety section of the device bank (R300, R322): phase, demands, v0 of each axis, demand time. -/
def State.safSection (s : State) : List Byte :=
  leBytes 1 (s.f Fld.SAF_STATE_PHASE) ++ leBytes 1 (s.f Fld.SAF_STATE_DEMAND) ++ zeros 6 ++
    leBytes 8 (uns 64 (Int.ofNat s.now - Int.ofNat (s.tim.raw - s.saf.demandAt))) ++
    ((List.range 8).map fun a => leBytes 2 (s.f (Fld.SAF_AXIS_STAT_V0 a))).flatten ++ zeros 480

/-- The mirrored safety section comes into force (R300): it never energises a line and never clears a stop bit. -/
def State.safRestore (s : State) (b : List Byte) : State :=
  let p := s.f Fld.SAF_STATE_PHASE
  let s0 := s.setF Fld.SAF_STATE_DEMAND (s.f Fld.SAF_STATE_DEMAND ||| (leAt b 1 1 % 16))
  if !s.safOn then s
  else if leAt b 0 1 = 4 ∧ p ≠ 0 then s0.enterSto
  else if leAt b 0 1 = 3 ∧ p = 2 then
    let t := forUp 8 (fun a u => u.setF (Fld.SAF_AXIS_STAT_V0 a) (leAt b (16 + 2 * a) 2)) s0.enterSs1
    { t with saf := { t.saf with demandAt := t.tim.raw - (Int.ofNat t.now - Int.ofNat (leAt b 8 8)).toNat } }
  else s0

/-! ### The commands -/

/-- `SUB_BEAT`: lines reading below L+ − 3 V, lines reading above 5 V, the result of a code pass that ends here, and whether an
uncorrectable error of the shepherd SRAM was found. -/
def execSubBeat (low high : Nat) (crc : Option Bool) (ue : Bool) (s : State) : Out := liveIf s.shpRuns s (doSubBeat s low high crc ue)

/-- `BEAT_LOST` (R286). -/
def execBeatLost (s : State) : Out := liveIf s.shpRuns s (s.raise Ev.SAF_BEAT_LOST)

/-- `SUBBEAT_OVR` (R286, R297). -/
def execSubbeatOvr (s : State) : Out := liveIf s.safOn s ((s.diagFail 4).stepOn)

/-- `SAFETY_INPUT_CHANGE`: the filtered state of DI(12 + `i`) becomes closed or open. -/
def execSafetyInputChange (i : Nat) (closed : Bool) (s : State) : Out :=
  liveIf (decide (i < 4) && (s.fb (Fld.SAF_DI_CFG_EN i) && s.safOn)) s (s.inputTo i closed)

/-- `DISCREP`: the inputs of pair `p` have disagreed for longer than `DISC_MS` (R288). -/
def execDiscrep (p : Nat) (s : State) : Out :=
  let on := fun (i : Nat) => s.fb (Fld.SAF_DI_CFG_EN i) && s.fb (Fld.SAF_DI_CFG_PAIR i)
  liveIf (decide (p < 2) && (s.safOn && (on (2 * p) && (on (2 * p + 1) && !s.pairAgrees p)))) s (s.discFail p).stepOn

/-- `TEST_PULSE`: test output `tp` ends a pulse; `high` names the inputs that stayed high (R289). -/
def execTestPulse (tp high : Nat) (s : State) : Out :=
  liveIf (s.safOn && decide (tp < 2)) s (forUp 4 (fun i (t : State) =>
    if s.fb (Fld.SAF_DI_CFG_EN i) && s.f (Fld.SAF_DI_CFG_TP i) == tp then
      let good := !bitOf high i
      let u : State := { t with saf := { t.saf with tpPass := setNth t.saf.tpPass i (if good then min 10 (t.saf.tpPass.getD i 0 + 1) else 0) } }
      if good || bitOf t.saf.tpBad i then u else u.tpFail i
    else t) s).stepOn

/-- A write of 1 to `SAF_REQ.SS1` (R291). -/
def doSs1Req (s : State) : State := (if s.safOn then ({ s with saf := { s.saf with pendReq := true } } : State) else s).ok

/-- `SS1_REQUEST`. -/
def execSs1Request (s : State) : Out := live s (doSs1Req s)

/-- `SS1_TMAX`: `TMAX` ms have passed since the demand. -/
def execSs1Tmax (s : State) : Out := liveIf (s.safOn && s.f Fld.SAF_STATE_PHASE == 3) s s.ss1Tmax

/-- `OFF_TEST` of line `k`: whether it fell below 5 V within 275 µs (R296). -/
def execOffTest (k : Nat) (fell : Bool) (s : State) : Out :=
  let t : State := { s with saf := { s.saf with otDue := s.saf.otDue &&& (15 - 2 ^ k), otAt := setNth s.saf.otAt k (some s.tim.raw) } }
  liveIf (decide (k < 4) && (s.safOn && bitOf s.saf.otDue k)) s (if fell then t else t.offFail k)

/-- `DIAG_CLEAR`: a write of `v` to `SAF_DIAG`. -/
def execDiagClear (v : Word) (s : State) : Out := live s (doDiagClear s v.toNat).ok

/-- A write of `SAF_RELEASE` (R298). -/
def doSafRelease (s : State) (v : Word) : State :=
  (if v.toNat = 0x5AFE ∧ s.fb Fld.SAF_CFG_RST_SRC = false then s.tryRelease false else s).ok

/-- `SAF_RELEASE`. -/
def execSafRelease (v : Word) (s : State) : Out := live s (doSafRelease s v)

/-- The reset input's press (R298): a rise and a fall 0.1 s to 2 s apart. -/
def State.resetInput (s : State) (level : Bool) : State :=
  if level then { s with saf := { s.saf with rise := some s.tim.raw } }
  else
    let t : State := { s with saf := { s.saf with rise := none } }
    match s.saf.rise with
    | none => t
    | some r =>
      if s.fb Fld.SAF_CFG_RST_SRC = true ∧ r + 100000000 ≤ s.tim.raw ∧ s.tim.raw ≤ r + 2000000000 then t.tryRelease false else t

/-- `DI_FILTER_CHANGE`: the filtered state of field input `i` becomes `level` (R274); DI12–DI15 while the field island owns
them. -/
def execDiFilterChange (i : Nat) (level : Bool) (s : State) : Out :=
  let rd := s.f Fld.SAF_CFG_RST_DI
  let t := s.setF ⟨Adr.FIO_DI_STATE, i, i⟩ (b2n level)
  liveIf (decide (i < 16) && (!(decide (12 ≤ i) && s.safOwned) && !s.fio.lost)) s
    (if bitOf (s.f Fld.FIO_DI_STATE_DI) i ≠ level ∧ i = (if rd < 12 then rd else 0) then t.resetInput level else t)

end Sys2Proof.Machine
end

