-- ==== Sys2Proof/Machine/Strongbox.lean ====
section
/-! DEFINITION. The strongbox (R320–R329, R342): the device sections, images, deltas and resyncs of a commanding unit, the mirror
of a standby, and the restoring of sections at takeover and cold start. Where R322 gives a section no inner layout, the
layout is the model's. -/

namespace Sys2Proof.Machine

/-! ### Tallies (R317, R318) -/

/-- A value refused by R317 or a message refused by R309 is counted. -/
def State.parBad (s : State) : State := s.stick Fld.PAR_CNT_A_BAD Fld.PAR_FLAGS_BAD_SAT 1

/-- The highest tally that may be raised to or seen (R318). -/
def tallyTop : Nat := 0xFFFF_FF00

/-- A tally is seen (R317–R319): an armed unit ignores it (R344). -/
def State.seeTally (s : State) (v : Nat) : State :=
  if s.fb Fld.PAR_STAT_EPOCH then s
  else if tallyTop < v then s.raise Ev.PAR_TALLY_LIMIT
  else
    let h := s.f Fld.PAR_SEEN_SEEN
    let w := s.f Fld.PAR_TALLY_WARN_LEVEL
    let p := if v % 2 ≠ s.dev.unit then max s.par.pTally v else s.par.pTally
    let t := ({ s with par := { s.par with pTally := p } } : State).setF Fld.PAR_SEEN_SEEN (max h v)
    if h < w ∧ w ≤ v then t.raise Ev.PAR_TALLY_WARN else t

/-- The value a raise gives (R317). -/
def raiseTo (tally seen unit : Nat) : Nat :=
  let t := max tally seen + 1
  if t % 2 = unit % 2 then t else t + 1

/-- Raise the tally (R317, R318); false where it is refused. -/
def State.raiseTally (s : State) : State × Bool :=
  let t := raiseTo (s.f Fld.PAR_TALLY_TALLY) (s.f Fld.PAR_SEEN_SEEN) s.dev.unit
  if tallyTop < t then (s.raise Ev.PAR_TALLY_LIMIT, false) else (s.setF Fld.PAR_TALLY_TALLY t, true)

/-! ### Tracked banks (R320) -/

/-- The enabled entries of `PAR_TRACK` in order: bank, owner, `COLD`. -/
def State.trackEntries (s : State) : List (Nat × Nat × Bool) :=
  (s.tracked.drop 1).filterMap fun b =>
    ((List.range 7).find? fun i => s.f (Fld.PAR_TRACK_EN i) == 1 && s.f (Fld.PAR_TRACK_BANK i) == b).map fun i =>
      (b, s.f (Fld.PAR_TRACK_OWNER i), s.fb (Fld.PAR_TRACK_COLD i))

/-- Identity 20 takes the deeds of all tracked banks (R320). -/
def State.takeDeeds (s : State) : State :=
  s.tracked.foldl (fun t b => if t.holder b = 20 then t else t.passDeed b 20) s

/-- Restoring passes each tracked bank's deed to its owner (R323). -/
def State.giveDeeds (s : State) : State :=
  s.trackEntries.foldl (fun t e => if t.holder e.1 = e.2.1 then t else t.passDeed e.1 (e.2.1 % 32)) s

/-! ### Device sections (R322) -/

/-- The device bank. -/
def State.devAddr (s : State) (o : Nat) : Nat := bankAddr (s.f Fld.PAR_SBX_DEV_BANK) o

/-- The strongbox layout version of the running firmware (R471, R478): 1 where none has been started. -/
def State.layout (s : State) : Nat := max 1 (s.f Fld.SYS_BOOT_LAYOUT)

/-- The image header (R324), its CRC field 0. -/
def State.imageHeader (s : State) (seq : Nat) : List Byte :=
  let l := s.tracked
  ascii "DQSB" ++ leBytes 2 s.layout ++ leBytes 1 l.length ++ leBytes 1 s.dev.unit ++ leBytes 8 s.frame ++ leBytes 4 seq ++
    leBytes 4 (s.f Fld.PAR_TALLY_TALLY) ++ leBytes 4 (s.f Fld.PAR_SEEN_SEEN) ++ leBytes 8 s.cfgDigest ++
    ((l ++ List.replicate (8 - l.length) 255).map fun b => leBytes 1 b).flatten ++ leBytes 8 s.now ++ zeros 204

/-- The pair section. -/
def State.pairSection (s : State) : List Byte :=
  leBytes 4 (s.f Fld.PAR_TALLY_TALLY) ++ leBytes 4 (s.f Fld.PAR_SEEN_SEEN) ++ leBytes 1 (s.f Fld.PAR_STAT_ROLE) ++
    leBytes 1 (s.f Fld.PAR_STAT_EPOCH) ++ zeros 246

/-- The beat state of slot `n`: I64, sp_eff, y, s (R311). -/
def State.slotEntry (s : State) (n : Nat) : List Byte :=
  leBytes 8 (uns 64 (s.slotI n)) ++ leBytes 4 (s.reg (Adr.CLE_SLOT_SP n)).toNat ++ leBytes 4 (s.reg (Adr.CLE_SLOT_OUT n)).toNat ++
    leBytes 1 (let r := s.f (Fld.CLE_SLOT_STAT_RELAY n)
               if r = 1 then 1 else if r = 3 then 255 else 0) ++ zeros 7

/-- The slot entries of R311. -/
def State.slotEntries (s : State) : List Byte := ((List.range 64).map s.slotEntry).flatten

/-- The control-engine section: mode, fence state, trajectory valid, dwell and counts, h of the trajectory, slots. -/
def State.cleSection (s : State) : List Byte :=
  leBytes 1 s.mode ++ leBytes 1 (s.f Fld.CLE_MODE_GRAZING) ++ leBytes 2 (s.f Fld.CLE_FENCE_STAT_DWELL_CNT) ++
    ((List.range 3).map fun a => leBytes 4 (s.reg (Adr.CLE_FENCE_ERR a)).toNat).flatten ++
    leBytes 8 s.cle.h ++ leBytes 1 (s.f Fld.CLE_TRAJ_STAT_VALID) ++ zeros 39 ++ s.slotEntries ++ zeros 1472

/-- The trajectory section. -/
def State.trajSection (s : State) : List Byte :=
  ((List.range 480).map fun i => leBytes 4 (s.reg (Adr.CLE_TRAJ (i / 24) (i % 24))).toNat).flatten ++
    leBytes 8 (s.pair Adr.CLE_TRAJ_T0_LO Adr.CLE_TRAJ_T0_HI) ++ zeros 120

/-- The shadowed registers the frame path reads (R45), in ascending order of address. -/
def frameWords : List Nat :=
  [Adr.CLE_MODE_REQ, Adr.CLE_FENCE_DWELL, Adr.CLE_FENCE_CFG] ++ (List.range 8).map Adr.FUS_PICK ++
    (List.range 32).flatMap (fun i => [Adr.FUS_CLK_OFS_LO i, Adr.FUS_CLK_OFS_HI i, Adr.FUS_CLK_RATE i, Adr.FUS_CLK_EPOCH_LO i, Adr.FUS_CLK_EPOCH_HI i]) ++
    (List.range 256).map (fun i => Adr.FUS_MOUNT (i / 8) (i % 8)) ++
    [Adr.GFE_MAP_SEL, Adr.ASM_TBL_SEL, Adr.ASM_PAST_SEL, Adr.ASM_THR_AVAIL, Adr.ASM_BUS_AVAIL] ++
    (List.range 8).flatMap (fun b => [Adr.ASM_PURSE_DIS b, Adr.ASM_PURSE_CHG b, Adr.ASM_PURSE_GEN b, Adr.ASM_PURSE_RES b, Adr.ASM_PURSE_SEQ b]) ++
    [Adr.LSC_BUDGET, Adr.LSC_RHO, Adr.LSC_NUM, Adr.LSC_EPS, Adr.LSC_EPS_INF, Adr.LSC_ACC_RP, Adr.LSC_ACC_RD, Adr.LSC_POOL,
     Adr.LSC_LANE_OUT 0, Adr.LSC_LANE_OUT 1, Adr.LSC_LANE_OUT 2, Adr.LSC_LSQ, Adr.LSC_VSLACK_NE, Adr.LSC_VSLACK_H, Adr.LSC_VERDICT]

/-- The section of committed values, 3,072 bytes (R45, R56). -/
def State.committed (s : State) : List Byte := padTo 3072 ((frameWords.map fun a => leBytes 4 (s.reg a).toNat).flatten)

/-- The fusion section: 40 bytes per port, then 128 per group. -/
def State.fusSection (s : State) : List Byte :=
  let port := fun (i : Nat) =>
    leBytes 4 (s.reg (Adr.FUS_PORT_STAT i)).toNat ++ leBytes 4 (s.reg (Adr.FUS_CLK_DISC i)).toNat ++ zeros 8 ++
      ((List.range 6).map fun w => leBytes 4 (s.reg (Adr.FUS_MOUNT i w)).toNat).flatten
  let group := fun (g : Nat) =>
    match s.fus.agree.getD g none with
    | none => zeros 128
    | some r => leBytes 8 1 ++ padTo 120 (r.take 120)
  padTo 4096 (((List.range 32).map port).flatten ++ ((List.range 8).map group).flatten)

/-- The assembler section: last accepted estimate block, purse `SEQ`, purse ages. -/
def State.asmSection (s : State) : List Byte :=
  padTo 512 (padTo 128 (s.asm.est.take 128) ++ leBytes 8 (b2n !s.asm.est.isEmpty) ++
    ((List.range 8).map fun b => leBytes 4 (s.asm.seqs.getD b 0)).flatten ++
    ((List.range 8).map fun b => leBytes 2 (s.f (Fld.ASM_PURSE_AGE_AGE b))).flatten)

/-- The device sections of the bank, from offset 0 (R322). -/
def State.devSections (s : State) (seq : Nat) : List Byte :=
  s.imageHeader seq ++ s.pairSection ++ s.safSection ++ s.cleSection ++ s.trajSection ++ s.committed ++ s.fusSection ++
    s.asmSection ++ padTo 64 (leBytes 4 (s.reg Adr.LSC_RHO_CUR).toNat)

/-- The image instant writes the device sections (R321): an internal path of the pair block, whose writes set dirty bits. -/
def State.writeSections (s : State) : State := s.store (s.devAddr 0) (s.devSections (s.f Fld.PAR_SBX_SEQ_SEQ))

/-! ### Images (R324, R329) -/

/-- The image of R324: the header with its CRC and zeros to 8,192 bytes per bank, then the banks in header order. -/
def State.image (s : State) : List Byte :=
  let l := s.tracked
  let h := s.rdN (s.devAddr 0) 256
  let banks := (l.map fun b => s.rdN (bankAddr b 0) 0x4_0000).flatten
  let img := fun (h : List Byte) => padTo (8192 * l.length) h ++ banks
  img (putAt h 52 4 (imageCrc (img h)))

/-- The copy of the strongbox to the DRAM area (R329). -/
def State.flashCopy (s : State) : State :=
  let r := s.mWrite 20 (dramAddr (s.f Fld.PAR_FLASH_DRAM_ADDR)) s.image
  { r.st with par := { r.st.par with flashDue := false, flashBusy := true } }

/-- A period expires or a copy is asked for (R329): skipped and counted while the previous copy is being written. -/
def State.flashWant (s : State) : State :=
  if s.f Fld.PAR_STAT_ROLE < 2 then s
  else if s.par.flashBusy || s.par.flashDue then s.stickN Fld.PAR_FLASH_SKIP 1
  else { s with par := { s.par with flashDue := true } }

/-! ### Deltas and resyncs of the commanding unit (R325, R326, R328) -/

/-- A field of the partner's last heartbeat. -/
def State.hbAt (s : State) (o n : Nat) : Nat := leAt s.par.hb o n

/-- The partner's role, of its last valid heartbeat (R310); 4 where none has come. -/
def State.pRole (s : State) : Nat := if s.par.hb.isEmpty then 4 else s.hbAt 2 1

/-- A flag of the partner's last heartbeat (R310). -/
def State.pFlag (s : State) (b : Nat) : Bool := !s.par.hb.isEmpty && bitOf (s.hbAt 3 1) b

/-- This unit sends deltas (R309, R326). -/
def State.sendsDelta (s : State) : Bool := s.f Fld.PAR_STAT_ROLE == 2 || (s.f Fld.PAR_STAT_ROLE == 3 && s.pRole == 1)

/-- a − b modulo 2³². -/
def sub32 (a b : Nat) : Nat := (a + 2 ^ 32 - b % 2 ^ 32) % 2 ^ 32

/-- The dirty bits of the tracked banks go into the pending map and are cleared (R326). -/
def State.takeDirty (s : State) (seq : Nat) : State :=
  let t := s.tracked
  let mine := s.mm.dirty.filter fun e => t.contains (e.1 / 1024)
  { s with par := { s.par with map := mine.foldl (fun m e => spInsert m e.1 seq) s.par.map }
           mm := { s.mm with dirty := [] } }

/-- Bytes the link carries by the B39 edge of this frame (R309): 2.2 GB/s on two lanes, 1.1 GB/s on one. -/
def State.linkRoom (s : State) : Nat :=
  let e := (s.frm.lastB0.getD s.now) + 9750000
  (e - s.now) * (11 * s.f Fld.PAR_STAT_LINK) / 10

/-- Send a message over Icvo: nothing leaves without a lane, or after a clock fault (R23, R308). -/
def State.icvo (s : State) (b : List Byte) : State :=
  if s.f Fld.PAR_STAT_LINK = 0 ∨ s.pwr.silent = true then s else s.send .icvo 0 b

/-- A frame in which no delta is sent, or it is cut (R326). -/
def State.sbxSkip (s : State) : State := s.stick Fld.PAR_CNT_B_SBX_SKIP Fld.PAR_FLAGS_SKIP_SAT 1

/-- The map of a delta for the pending blocks (R325). -/
def State.deltaMap (s : State) : List Byte :=
  padTo 1024 ((s.tracked.map fun b => (List.range 128).map fun i =>
    BitVec.ofNat 8 ((List.range 8).foldl (fun m j => if s.par.map.any (fun e => e.1 == b * 1024 + 8 * i + j) then m + 2 ^ j else m) 0)).flatten)

/-- The delta with new sequence `seq` (R326). -/
def State.delta (s : State) (seq : Nat) : List Byte :=
  let blocks := s.tracked.flatMap fun b => (s.par.map.filter fun e => e.1 / 1024 == b).map fun e => e.1
  let h := leBytes 4 3 ++ leBytes 4 s.par.base ++ leBytes 4 seq ++ zeros 4 ++ leBytes 8 s.frame ++ leBytes 2 blocks.length ++ zeros 38
  let m := h ++ s.deltaMap ++ (blocks.map fun k => s.rdN (bankAddr (k / 1024) (k % 1024 * 256)) 256).flatten
  m ++ leBytes 4 (crc32c m)

/-- A resync message for bank `b`, the `i`th of `n` (R328); bytes 60–63 hold its CRC. -/
def State.bankMsg (s : State) (seq i n b : Nat) : List Byte :=
  let h := leBytes 1 4 ++ leBytes 1 b ++ leBytes 1 i ++ leBytes 1 n ++ zeros 4 ++ leBytes 4 seq ++ zeros 4 ++ leBytes 8 s.frame ++ zeros 36
  let d := s.rdN (bankAddr b 0) 0x4_0000
  h ++ leBytes 4 (crc32c (h ++ d)) ++ d

/-- The banks of a resync that fit this window are sent (R328). -/
def State.sendBanks (s : State) : State :=
  let all := s.tracked
  let seq := s.f Fld.PAR_SBX_SEQ_SEQ
  let k := min s.par.banks.length (s.linkRoom / 262208)
  let done := all.length - s.par.banks.length
  let t := (List.range k).foldl (fun t i => t.icvo (s.bankMsg seq (done + i) all.length (s.par.banks.getD i 0))) s
  { t with par := { t.par with banks := s.par.banks.drop k, base := if k = s.par.banks.length then seq else t.par.base } }

/-- The image instant of a unit that sends deltas (R326, R328). `late`: the frame record was not complete by the B39 edge. -/
def State.sbxSend (s : State) : State :=
  if !s.sendsDelta then s
  else if s.par.banks ≠ [] then (s.takeDirty (s.f Fld.PAR_SBX_SEQ_SEQ + 1)).sendBanks
  else if s.par.resync then
    let t : State := { s with par := { s.par with map := [], resync := false, banks := s.tracked }, mm := { s.mm with dirty := [] } }
    t.sendBanks
  else
    let seq := (s.f Fld.PAR_SBX_SEQ_SEQ + 1) % 2 ^ 32
    let t := s.takeDirty seq
    if 1019 < t.par.map.length then ({ t with par := { t.par with resync := true } } : State).sbxSkip
    else
      let m := t.delta seq
      if t.linkRoom < m.length ∨ s.pwr.silent = true then t.sbxSkip else (t.icvo m).setF Fld.PAR_SBX_SEQ_SEQ seq

/-- The partner's heartbeat acknowledges sequence `a` (R326, R328). -/
def State.ackDelta (s : State) (a : Nat) : State :=
  let seq := s.f Fld.PAR_SBX_SEQ_SEQ
  if s.par.resync ∨ s.par.banks ≠ [] then s
  else if sub32 a s.par.base ≤ sub32 seq s.par.base then
    { s with par := { s.par with base := a, map := s.par.map.filter fun e => decide (sub32 a s.par.base < sub32 e.2 s.par.base) } }
  else if s.hbAt 12 1 < 36 then { s with par := { s.par with resync := true } } else s

/-! ### The mirror of the standby (R314, R327, R328) -/

/-- The partner's header as mirrored: configuration and layout (R314). -/
def State.headCheck (s : State) : State :=
  let h := s.rdN (s.devAddr 0) 256
  (s.setF Fld.PAR_STAT_CFG_MISMATCH (b2n (leAt h 28 8 != s.cfgDigest))).setF Fld.PAR_STAT_LAYOUT_MISMATCH (b2n (leAt h 4 2 != s.layout))

/-- A resync bank message (R328). -/
def State.rxBank (s : State) (b : List Byte) : State :=
  if b.length ≠ 262208 ∨ leAt b 0 1 ≠ 4 ∨ leAt b 60 4 ≠ crc32c (b.take 60 ++ b.drop 64) then s.parBad
  else if s.f Fld.PAR_STAT_ROLE ≠ 1 then s
  else
    let i := leAt b 2 1
    let s1 : State := { s.setF Fld.PAR_STAT_MIRROR_VALID 0 with par := { s.par with copy := none } }
    if i ≠ 0 ∧ i ≠ s.par.rxNext then { s1 with par := { s1.par with mirSeq := none, rxNext := 0 } }
    else
      let r := s1.mWrite 20 (bankAddr (leAt b 1 1 % 64) 0) (b.drop 64)
      let ok := r.rsp == .okay && s.tracked.contains (leAt b 1 1)
      let last := ok && i + 1 == leAt b 3 1
      let t : State := { r.st with par := { r.st.par with rxNext := if ok then i + 1 else 0, mirSeq := if last then some (leAt b 8 4) else none } }
      let t1 := if last then t.setF Fld.PAR_SBX_SEQ_SEQ (leAt b 8 4) else t
      if ok && leAt b 1 1 == s.f Fld.PAR_SBX_DEV_BANK then t1.headCheck else t1

/-- The blocks a delta carries: bank × 1,024 + block, in order (R326). -/
def State.deltaBlocks (s : State) (b : List Byte) : List Nat :=
  (s.tracked.mapIdx fun i k => ((List.range 1024).filter fun j => bitOf (leAt b (64 + 128 * i + j / 8) 1) (j % 8)).map fun j => k * 1024 + j).flatten

/-- Frame number and digest in the frame record of a delta (R232, R333); none where the delta does not carry that block. -/
def State.deltaDigest (s : State) (b : List Byte) : Option (Nat × Nat) :=
  let blk := (s.resAddr 0x7_0000 - sramBase) / 256
  (s.deltaBlocks b).zipIdx.findSome? fun e =>
    if e.1 = blk then some (leAt b (1088 + 256 * e.2) 8, leAt b (1088 + 256 * e.2 + 16) 8) else none

/-- A delta arrives in the staging bank and is checked (R327). -/
def State.rxDelta (s : State) (b : List Byte) : State :=
  let n := b.length
  if n < 1092 ∨ 261956 < n ∨ leAt b 0 1 ≠ 3 ∨ n ≠ 1092 + 256 * leAt b 24 2 ∨ leAt b (n - 4) 4 ≠ crc32c (b.take (n - 4)) then s.parBad
  else if s.f Fld.PAR_STAT_ROLE ≠ 1 then s
  else
    let r := s.mWrite 20 (bankAddr (s.f Fld.PAR_SBX_STAGE_BANK) 0) b
    match s.par.mirSeq with
    | none => r.st
    | some q =>
      let base := leAt b 4 4
      if r.rsp = .okay ∧ sub32 q base < sub32 (leAt b 8 4) base then
        { r.st with par := { r.st.par with copy := some b, recDig := s.deltaDigest b } }
      else r.st

/-- The copy of a delta into the tracked banks completes (R327). A refused write leaves the mirror invalid. -/
def State.copyDelta (s : State) (b : List Byte) : State :=
  let r := (s.deltaBlocks b).zipIdx.foldl (fun (r : State × Bool) e =>
    let w := r.1.mWrite 20 (bankAddr (e.1 / 1024) (e.1 % 1024 * 256)) ((b.drop (1088 + 256 * e.2)).take 256)
    (w.st, r.2 && w.rsp == .okay)) (s, true)
  let t : State := { r.1 with par := { r.1.par with copy := none, mirSeq := if r.2 then some (leAt b 8 4) else none } }
  if r.2 then
    (((t.setF Fld.PAR_SBX_SEQ_SEQ (leAt b 8 4)).setF Fld.PAR_STAT_MIRROR_VALID 1).setF Fld.PAR_STAT_MIRROR_AGE 0).headCheck
  else t.setF Fld.PAR_STAT_MIRROR_VALID 0

/-! ### Restoring (R322, R323, R335, R342) -/

/-- Slot state from entries of R311. -/
def State.loadSlots (s : State) (b : List Byte) : State :=
  forUp 64 (fun n t =>
    let o := 24 * n
    let r := leAt b (o + 16) 1
    (((t.setSlotI n (sgn 64 (leAt b o 8))).setReg (Adr.CLE_SLOT_SP n) (BitVec.ofNat 32 (leAt b (o + 8) 4))).setReg (Adr.CLE_SLOT_OUT n)
      (BitVec.ofNat 32 (leAt b (o + 12) 4))).setF (Fld.CLE_SLOT_STAT_RELAY n) (if r = 1 then 1 else if r = 255 then 3 else 0)) s

/-- Mode, fence state and dwell as loaded from the partner: `SAFE_STOP` is kept (R230, R300, R315). -/
def State.loadMode (s : State) (m graze dwell : Nat) : State :=
  let t := (s.setF Fld.CLE_MODE_GRAZING graze).setF Fld.CLE_FENCE_STAT_DWELL_CNT dwell
  if s.mode = 3 then t else t.setMode (m % 4)

/-- Slot state, mode, fence state and dwell from a beat record (R315, R335). -/
def State.loadRecord (s : State) (b : List Byte) : State :=
  (s.loadMode (leAt b 13 1) (leAt b 14 1 % 2) (leAt b 16 2)).loadSlots (b.drop 64)

/-- The same from the device bank, with the counts (R335). -/
def State.loadCle (s : State) (b : List Byte) : State :=
  let t := (s.loadMode (leAt b 0 1) (leAt b 1 1 % 2) (leAt b 2 2)).loadSlots (b.drop 64)
  forUp 3 (fun a u => u.setReg (Adr.CLE_FENCE_ERR a) (BitVec.ofNat 32 (leAt b (4 + 4 * a) 4))) t

/-- The trajectory store and T0 (R335): `c` is the control-engine section, `b` the trajectory section. -/
def State.loadTraj (s : State) (c b : List Byte) : State :=
  let s1 := forUp 480 (fun i t => t.setReg (Adr.CLE_TRAJ (i / 24) (i % 24)) (BitVec.ofNat 32 (leAt b (4 * i) 4))) s
  let s2 := (s1.setPair Adr.CLE_TRAJ_T0_LO Adr.CLE_TRAJ_T0_HI (leAt b 1920 8)).setReg Adr.CLE_TRAJ_STAT
    (BitVec.ofNat 32 (2 ^ 31 * (leAt c 24 1 % 2)))
  { s2 with cle := { s2.cle with h := leAt c 16 8, endRaised := false, lastAz := (List.range 24).map fun j => some (leAt b (4 * j) 2) } }

/-- The committed values (R335): into the registers and their shadows. -/
def State.loadCommitted (s : State) (b : List Byte) : State :=
  frameWords.zipIdx.foldl (fun t e =>
    let m := BitVec.ofNat 32 (rwsMask e.1)
    let v := BitVec.ofNat 32 (leAt b (4 * e.2) 4)
    (t.setReg e.1 ((t.reg e.1 &&& ~~~m) ||| (v &&& m))).setSh e.1 ((t.sh e.1 &&& ~~~m) ||| (v &&& m))) s

/-- The fusion section (R95). -/
def State.loadFus (s : State) (b : List Byte) : State :=
  let s1 := forUp 32 (fun i t =>
    let o := 40 * i
    forUp 6 (fun w u =>
      let v := BitVec.ofNat 32 (leAt b (o + 16 + 4 * w) 4)
      (u.setReg (Adr.FUS_MOUNT i w) v).setSh (Adr.FUS_MOUNT i w) v)
      ((t.setReg (Adr.FUS_PORT_STAT i) ((t.reg (Adr.FUS_PORT_STAT i) &&& 0x00000FFF) ||| (BitVec.ofNat 32 (leAt b o 4) &&& 0xFFFFF000))).setReg
        (Adr.FUS_CLK_DISC i) (BitVec.ofNat 32 (leAt b (o + 4) 4)))) s
  let agree := (List.range 8).map fun g =>
    let o := 1280 + 128 * g
    if leAt b o 1 = 1 then some ((b.drop (o + 8)).take 64) else none
  { s1 with fus := { s1.fus with agree := agree } }

/-- The assembler section (R181), and the thrust last committed as the mirrored results give it (R163). -/
def State.loadAsm (s : State) (b : List Byte) : State :=
  let s1 := forUp 8 (fun i t => t.setF (Fld.ASM_PURSE_AGE_AGE i) (leAt b (168 + 2 * i) 2)) s
  let fin := match s1.tset with
    | none => s1.asm.fin
    | some t => s1.resVals (if s1.rdLe (s1.resAddr 0x7_0018) 1 = 0 then 0x6000 else 0xB000) t.nf
  { s1 with asm := { s1.asm with
    est := if leAt b 128 1 = 1 then b.take 128 else []
    seqs := (List.range 8).map fun i => leAt b (136 + 4 * i) 4
    fin := fin } }

/-- The mirrored tallies are seen. -/
def State.loadPair (s : State) (b : List Byte) : State := (s.seeTally (leAt b 0 4)).seeTally (leAt b 4 4)

/-- Every section that comes into force at takeover (R322, R335): `fresh` names a beat record that is recent enough. -/
def State.restoreTakeover (s : State) (fresh : Option (List Byte)) : State :=
  let b := fun (o n : Nat) => s.rdN (s.devAddr o) n
  let c := b 0x400 3072
  let s1 := (((s.loadPair (b 0x100 256)).safRestore (b 0x200 512)).loadTraj c (b 0x1000 2048)).loadCommitted (b 0x1800 3072)
  let s2 := ((s1.loadFus (b 0x2400 4096)).loadAsm (b 0x3400 512)).setReg Adr.LSC_RHO_CUR (BitVec.ofNat 32 (leAt (b 0x3600 64) 0 4))
  (match fresh with
  | some r => s2.loadRecord r
  | none => s2.loadCle c).setF Fld.CMD_SEL_PLAYING 1

/-- Sections that do not come into force at a cold start are cleared (R323): no estimate block is accepted, every purse is stale, the
trajectory store is invalid and the mode is `MANUAL`; a held `SAFE_STOP` stays (R230). -/
def State.coldClear (s : State) : State :=
  let s1 : State := { s with asm := { s.asm with est := [] } }
  let s2 := (forUp 8 (fun b t => t.setF (Fld.ASM_PURSE_AGE_AGE b) 65535) s1).setReg Adr.CLE_TRAJ_STAT 0
  if s2.mode = 3 then s2 else s2.setMode 0

/-- A cold start from image `b`, or from none (R323, R342): tallies and H are seen, the sections of the column come into force, a
tracked bank with `COLD` is restored and every other is cleared. -/
def State.coldStart (s0 : State) (img : Option (List Byte)) : State :=
  let s := s0.coldClear
  let clear := fun (t : State) (k : Nat) => State.touch (t.clearMem (bankAddr k 0) (bankAddr k 0x4_0000)) (bankAddr k 0) 0x4_0000
  match img with
  | none => s.tracked.foldl clear s
  | some b =>
    let n := leAt b 6 1
    let pos := fun (k : Nat) => (List.range n).find? fun i => leAt b (36 + i) 1 == k
    let bank := fun (i : Nat) => (b.drop (8192 * n + 0x4_0000 * i)).take 0x4_0000
    let dev := bank 0
    let s1 := (s.loadFus ((dev.drop 0x2400).take 4096)).setReg Adr.LSC_RHO_CUR (BitVec.ofNat 32 (leAt dev 0x3600 4))
    let s2 := clear s1 (s.f Fld.PAR_SBX_DEV_BANK)
    s.trackEntries.foldl (fun t e =>
      match e.2.2, pos e.1 with
      | true, some i => t.store (bankAddr e.1 0) (bank i)
      | _, _ => clear t e.1) s2

end Sys2Proof.Machine
end

