-- ==== Sys2Proof/Machine/Pair.lean ====
section
/-! DEFINITION. Pair operation (R306–R319, R330–R344): roles, the heartbeat and the other Icvo messages, the watch on the partner,
takeover, handover and re-epoch. -/

namespace Sys2Proof.Machine

/-! ### Roles (R312–R316) -/

/-- The role (R312). -/
def State.role (s : State) : Nat := s.f Fld.PAR_STAT_ROLE

/-- The running number of the current beat: frame × 40 + beat. -/
def State.beatNo (s : State) : Nat := s.frame * 40 + s.beat

/-- The unit is eligible for takeover (R316). -/
def State.eligible (s : State) : Bool :=
  s.role == 1 && (s.fb Fld.PAR_STAT_MIRROR_VALID && (decide (s.f Fld.PAR_STAT_MIRROR_AGE ≤ max 1 (s.f Fld.PAR_CFG2_MIRROR_AGE)) &&
    (!s.fb Fld.PAR_STAT_FAULTY && (!s.fb Fld.PAR_STAT_CFG_MISMATCH && (!s.fb Fld.PAR_STAT_LAYOUT_MISMATCH &&
      (!s.fb Fld.PAR_STAT_TIME_MISMATCH && !s.fb Fld.PAR_STAT_EPOCH))))))

/-- A ledger record of the pair block (R375, source 515). -/
def State.pairRec (s : State) (ty old new cause : Nat) : State :=
  s.offer (mkRec 515 ty s.now (leBytes 1 old ++ leBytes 1 new ++ leBytes 1 cause ++ zeros 1 ++ leBytes 4 (s.f Fld.PAR_TALLY_TALLY) ++
    leBytes 4 (s.f Fld.PAR_SEEN_SEEN) ++ leBytes 8 s.frame))

/-- Pending helm entries are withdrawn and staged frames dropped; a frame in transmission completes (R340). -/
def State.helmPull (s : State) : State :=
  let s1 := forUp 8 (fun k t => (t.reserved k).foldl (fun u e =>
    if ((u.canOf k).pend.any fun x => x.handle == e.2) && (u.canOf k).busy != some e.2 then u.canEnd k e.2 3 else u) t) s
  { s1 with staged := List.replicate 24 none }

/-- The lanes and the feature engine stop with the frame in progress: nothing of it is published (R315, R340). -/
def State.stopFrame (s : State) : State :=
  let s1 := forUp 96 (fun l t => if (t.laneOf l).phase = 0 then t else (t.laneEnd l).setLane l {}) s
  { s1 with frm := { s1.frm with runs := false }, cle := { s1.cle with cand := none } }

/-- What a unit that comes to `STANDBY` or `SEEKING` forgets (R313, R327, R329, R339); `seek`: it listens anew. -/
def State.leaveCommand (s : State) (left : Option Nat) (seek : Bool) : State :=
  { s with par := { s.par with
    deedDue := true, leftAt := left, restart := none, noHelm := false, ho := none, hoIn := none, copy := none, decided := none
    mirSeq := none, rxNext := 0, recDig := none, pHelm := none, flashDue := false, banks := [], resync := false
    listened := if seek then false else s.par.listened } }

/-- The pending map of a unit that comes to command is empty (R325). -/
def State.emptyMap (s : State) : State := { s with par := { s.par with map := [], base := s.f Fld.PAR_SBX_SEQ_SEQ } }

/-- No handover is announced by this unit (R339). -/
def State.noHandover (s : State) : State := { s with par := { s.par with ho := none } }

/-- A change of role (R313), with what the roles bring (R312, R315, R320, R325). -/
def State.setRole (s : State) (new cause : Nat) : State :=
  let old := s.role
  if old = new then s
  else
    let t := ((s.setF Fld.PAR_STAT_ROLE new).setReg Adr.PAR_LAST_TO
      (BitVec.ofNat 32 (s.frame % 65536 * 65536 + s.beat * 256 + cause))).raise Ev.PAR_ROLE_CHANGED
    let t1 := t.pairRec 1 old new cause
    if new < 2 then
      let t2 := if 2 ≤ old then t1.helmPull.stopFrame else t1
      let t3 := (t2.setF Fld.PAR_STAT_MIRROR_VALID 0).setF Fld.PAR_STAT_TO_PHASE 0
      let left := if 2 ≤ old then some s.tim.raw else s.par.leftAt
      (((t3.leaveCommand left (new == 0)).setF Fld.PAR_STAT_CORES_UP 0).setF Fld.PAR_STAT_LANES_UP 0).canCutAll
    else
      ((if old < 2 then t1.emptyMap else t1).noHandover).canKickAll

/-- A unit that leaves `SEEKING` to command (R313, R317, R323, R342): the tally of the flash image is seen, the tally is raised,
and the image comes into force. A refused raise leaves the unit `SEEKING` (R318). -/
def State.goCommand (s : State) (new : Nat) : State :=
  let img := s.bestImage
  let s1 := match img with
    | some b => (s.seeTally (leAt b 20 4)).seeTally (leAt b 24 4)
    | none => s
  let (s2, ok) := s1.raiseTally
  if ok then
    let s3 := (s2.coldStart img).setRole new 0
    { s3 with par := { s3.par with restart := some s3.tim.raw, cold := true } }
  else s2

/-- The unit's frame number equals its partner's and the partner's toggles lie within 10 µs of its own edges (R314). -/
def State.timeAgrees (s : State) (own : Nat) : Bool :=
  s.running && (s.par.togNear && s.hbAt 4 8 == own)

/-- This unit wins the seek (R314). -/
def State.winsSeek (s : State) : Bool :=
  let img := s.bestImage
  let mine := (img.map fun b => leAt b 8 8).getD 0
  let tal := (img.map fun b => leAt b 20 4).getD s.dev.unit
  let his := s.hbAt 52 8
  if mine ≠ his then decide (his < mine) else if tal ≠ s.hbAt 16 4 then decide (s.hbAt 16 4 < tal) else s.dev.unit == 0

/-- A heartbeat of the partner has come within the last 10 beats. -/
def State.hbFresh (s : State) : Bool :=
  match s.par.hbAt with
  | none => false
  | some r => decide (s.tim.raw ≤ r + 2500000)

/-- What `SEEKING` leads to (R313, R314); `own` is the frame number against which the partner's is held. -/
def State.seek (s : State) (own : Nat) : State :=
  if s.role ≠ 0 ∨ s.fb Fld.PAR_STAT_EPOCH = true then s
  else if !s.fb Fld.PAR_CFG_PAIR_EN then (if s.par.listened then s.goCommand 3 else s)
  else if !s.hbFresh then s
  else if s.pRole = 2 ∨ s.pRole = 3 then
    if s.fb Fld.PAR_STAT_CFG_MISMATCH ∨ s.fb Fld.PAR_STAT_LAYOUT_MISMATCH then s
    else if s.timeAgrees own then (s.setF Fld.PAR_STAT_TIME_MISMATCH 0).setRole 1 0 else s.setF Fld.PAR_STAT_TIME_MISMATCH 1
  else if s.pRole = 0 ∧ s.par.listened = true ∧ s.pFlag 4 = false ∧ s.winsSeek = true then s.goCommand 2 else s

/-! ### Takeover (R335, R341) and handover (R339, R340) -/

/-- A takeover decision with cause `cause`; `ho` says that it is a handover at its edge. -/
def State.takeover (s : State) (cause : Nat) (ho : Bool) : State :=
  if s.role ≠ 1 then s
  else if s.par.copy.isSome then { s with par := { s.par with decided := some cause } }
  else
    let el := s.eligible
    if !el && (s.fb Fld.PAR_STAT_CFG_MISMATCH || (s.fb Fld.PAR_STAT_LAYOUT_MISMATCH || s.fb Fld.PAR_STAT_EPOCH)) then s
    else
      let r := s.par.rcd
      let fresh := if r.isEmpty ∨ leAt r 4 8 * 40 + leAt r 12 1 + 3 < s.beatNo then none else some r
      let s0 := if el then s.loadPair (s.rdN (s.devAddr 0x100) 256) else s
      let (s1, ok) := s0.raiseTally
      let s2 := if el then s1.restoreTakeover fresh
        else ((match fresh with
          | some r => s1.loadRecord r
          | none => s1).setReg Adr.CLE_TRAJ_STAT 0).setF Fld.CMD_SEL_PLAYING 1
      let s3 : State := { s2 with par := { s2.par with
        noHelm := !ok, toAt := s.tim.raw, restart := some (s.tim.raw + 300000), hoIn := none, decided := none } }
      let s4 := ((s3.setF Fld.PAR_STAT_TO_PHASE (if ho then 2 else 1)).setF Fld.PAR_STAT_CORES_UP 0).setF Fld.PAR_STAT_LANES_UP 0
      let new := if ho && ok then 2 else 3
      let s5 := (s4.setRole new cause).raise Ev.PAR_TAKEOVER
      (s5.pairRec 3 1 new cause).stick Fld.PAR_CNT_B_TAKEOVERS Fld.PAR_FLAGS_TO_SAT 1

/-- The partner is found detectably wrong (R333). -/
def State.partnerWrong (s : State) : State :=
  if s.role = 1 then (s.raise Ev.PAR_PARTNER_WRONG).takeover 2 false else s

/-- Announce a handover with cause 3 (a write of `HANDOVER`) or 4 (a self-detected fault), or refuse it (R339). -/
def State.announce (s : State) (cause : Nat) : State :=
  if s.role ≠ 2 ∨ s.pFlag 2 = false ∨ tallyTop < raiseTo (max (s.hbAt 16 4) (s.f Fld.PAR_TALLY_TALLY)) (s.hbAt 20 4) (1 - s.dev.unit) then
    s.raise Ev.PAR_HO_REFUSED
  else
    let first := s.beatNo + 2
    let n := if cause = 4 then first else first + (78 - first % 40) % 40
    { s with par := { s.par with ho := some (n, cause) } }

/-- A self-detected fault (R334). -/
def State.selfFault (s : State) : State :=
  let t := (s.setF Fld.PAR_STAT_FAULTY 1).raise Ev.PAR_SELF_FAULT
  if t.role = 2 ∧ t.pFlag 2 = true then t.announce 4 else t

/-- A cause of a self-detected fault persists (R334): the overrun run, or the error runs of lanes 0 and 1. -/
def State.faultPersists (s : State) : Bool :=
  decide (2 ≤ s.role) && (decide (max 1 (s.f Fld.TIM_OVR_RUN_PERSIST) ≤ s.f Fld.TIM_OVR_RUN_RUN) ||
    [0, 1].any fun l => decide (max 1 (s.f Fld.LSC_VERDICT_UE_RUN) ≤ s.f (Fld.LAN_UE_RUN_RUN l)))

/-- The outgoing unit at the handover edge (R340), or a step-down (R319). -/
def State.stepDown (s : State) (cause : Nat) : State := s.setRole 1 cause

/-! ### The heartbeat (R310) -/

/-- The heartbeat of this unit. -/
def State.heartbeat (s : State) : List Byte :=
  let flags := b2n s.par.ho.isSome + 2 * s.f Fld.PAR_STAT_FAULTY + 4 * b2n s.eligible + 8 * s.f Fld.PAR_STAT_MIRROR_VALID +
    16 * s.f Fld.PAR_STAT_EPOCH + 32 * b2n s.relOk + 64 * b2n s.saf.relPass
  let d := s.f Fld.SAF_STATE_DEMAND
  let (hoF, hoB, hoC) := match s.par.ho with
    | some (n, c) => (n / 40 % 65536, n % 40, c)
    | none => (0, 0, 0)
  let b := leBytes 1 1 ++ leBytes 1 s.dev.unit ++ leBytes 1 s.role ++ leBytes 1 flags ++
    leBytes 8 (if s.running then s.frame else 0) ++ leBytes 1 (if s.running then s.beat else 0) ++ leBytes 1 s.safPhase ++
    leBytes 1 (s.f Fld.SAF_STATE_LINES + 16 * (d &&& 11)) ++ leBytes 1 (s.f Fld.PAR_STAT_TO_PHASE) ++
    leBytes 4 (s.f Fld.PAR_TALLY_TALLY) ++ leBytes 4 (s.f Fld.PAR_SEEN_SEEN) ++
    leBytes 4 (if s.sendsDelta then s.f Fld.PAR_SBX_SEQ_SEQ else 0) ++ leBytes 4 (if s.role = 1 then s.par.mirSeq.getD 0 else 0) ++
    leBytes 8 s.frm.pubDigest ++ leBytes 2 hoF ++ leBytes 1 hoB ++ leBytes 1 hoC ++ leBytes 8 s.tim.lastTp ++
    leBytes 8 ((s.bestImage.map fun b => leAt b 8 8).getD 0)
  b ++ leBytes 4 (crc32c b)

/-- Send the heartbeat; a release passed on goes with it once (R301). Nothing is sent while the island is stopped (R461, R468) or the
boot ROM waits for a source (R473). -/
def State.sendHeartbeat (s : State) : State :=
  let t := s.icvo s.heartbeat
  if !s.works 149 || s.pwr.bootMute then s
  else if t.saf.relPass then { t with saf := { t.saf with relPass := false } } else t

/-- PAIR_BEAT changes level and the heartbeat is sent (R39); both stop with a clock fault (R23). -/
def State.beatOut (s : State) : State :=
  if s.pwr.silent then s
  else
    let l := !s.par.level
    (State.send { s with par := { s.par with level := l } } .pairBeat 0 (leBytes 1 (b2n l))).sendHeartbeat

/-- The beat record (R311). -/
def State.beatRecord (s : State) : List Byte :=
  let h := leBytes 1 2 ++ zeros 3 ++ leBytes 8 s.frame ++ leBytes 1 s.beat ++ leBytes 1 s.mode ++
    leBytes 1 (s.f Fld.CLE_MODE_GRAZING + 2 * s.f Fld.CLE_TRAJ_STAT_VALID) ++ zeros 1 ++
    leBytes 2 (s.f Fld.CLE_FENCE_STAT_DWELL_CNT) ++ zeros 42
  let e := s.slotEntries
  h ++ leBytes 4 (crc32c (h ++ e)) ++ e

/-- A commanding unit sends the beat record after slot evaluation (R309). -/
def State.sendRecord (s : State) : State := if s.role < 2 then s else s.icvo s.beatRecord

/-- The number of the handover edge a heartbeat announces (R36, R339). -/
def State.hoEdge (s : State) : Nat :=
  let f := s.frame / 65536 * 65536 + s.hbAt 40 2
  let n := f * 40 + s.hbAt 42 1
  if n + 32768 * 40 < s.beatNo then n + 65536 * 40 else n

/-- The roles' response to a heartbeat (R313, R326, R328); `was` is the role the partner showed before. -/
def State.hbRoles (s : State) (was : Nat) : State :=
  if s.role < 2 then s
  else
    let t : State := if s.pRole = 1 ∧ was ≠ 1 then { s with par := { s.par with resync := true, banks := [] } }
      else if s.pRole = 1 ∧ s.sendsDelta = true then s.ackDelta (s.hbAt 28 4) else s
    if t.role = 2 ∧ t.pRole = 0 ∧ was = 1 then t.setRole 3 0
    else if t.role = 3 ∧ t.pRole = 1 ∧ t.pFlag 3 = true then t.setRole 2 0 else t

/-- Whether a heartbeat shows the partner detectably wrong (R333). -/
def State.hbWrong (s : State) : Bool :=
  let f := if 37 ≤ s.hbAt 12 1 then s.hbAt 4 8 else s.hbAt 4 8 - 1
  (match s.par.recDig with
    | some (g, d) => g == f && d != s.hbAt 32 8
    | none => false) ||
  ((match s.par.pHelm with
    | some (g, b, t) => g == s.hbAt 4 2 && (b == s.hbAt 12 1 && t != s.hbAt 16 4)
    | none => false) ||
    (s.pRole == 2 && s.hbAt 16 4 % 2 == s.dev.unit))

/-- A heartbeat arrives `ofs` ns from the unit's nearest own edge (R310, R331). -/
def doHeartbeat (s : State) (b : List Byte) (ofs : Int) : State :=
  if b.length ≠ 64 ∨ leAt b 0 1 ≠ 1 ∨ leAt b 60 4 ≠ crc32c (b.take 60) then s.parBad
  else
    let was := s.pRole
    let near := decide (-20000 ≤ ofs ∧ ofs ≤ 20000)
    let no := leAt b 4 8 * 40 + leAt b 12 1
    let own := if ofs < 0 then s.beatNo + 1 else s.beatNo
    let hit := near && (s.running && no == own)
    let s1 := State.setF { s with par := { s.par with
      hb := b, hbAt := some s.tim.raw, signAge := 0
      hbNow := s.par.hbNow || (hit && decide (0 ≤ ofs)), hbNext := s.par.hbNext || (hit && decide (ofs < 0)) } } Fld.PAR_STAT_PARTNER_ON_CAN 0
    let s2 : State := { s1 with tim := { s1.tim with hbPps := some (leAt b 44 8, s.now) } }
    let t := leAt b 16 4
    let s3 := (if t % 2 = s.dev.unit then s2.parBad else s2.seeTally t).seeTally (leAt b 20 4)
    let s4 := s3.safPartner (leAt b 14 1 / 16) (bitOf (leAt b 3 1) 5) (bitOf (leAt b 3 1) 6)
    let s5 := s4.hbRoles was
    let s6 := if s5.role = 1 then
        State.setF { s5 with par := { s5.par with hoIn := if s5.pFlag 0 then some (s5.hoEdge, s5.hbAt 43 1) else none } }
          Fld.PAR_STAT_TIME_MISMATCH (b2n (!s5.timeAgrees (own / 40)))
      else s5
    let s7 := if s6.role = 1 ∧ s6.hbWrong = true then s6.partnerWrong else s6
    s7.seek (own / 40)

/-! ### The watch (R331, R332) -/

/-- The thrusters watched (R331): `PAR_WATCH` and mapped. -/
def State.watchedThr (s : State) : List Nat :=
  (List.range 24).filter fun t => bitOf (s.f Fld.PAR_WATCH_MASK) t && s.fb (Fld.CAN_HELM_MAP_EN t)

/-- The helm watch applies (R331). -/
def State.helmWatch (s : State) : Bool :=
  s.role == 1 && ((s.pRole == 2 || s.pRole == 3) && (match s.par.leftAt with
    | none => true
    | some r => decide (r + 1000000000 * s.f Fld.PAR_CFG2_HOLDOFF ≤ s.tim.raw)))

/-- The current beat is missed (R331); `helm` says that the helm window has passed. -/
def State.beatMissed (s : State) (helm : Bool) : Bool :=
  (s.role == 1 || (s.role == 2 && s.pRole == 1)) &&
    (!s.par.togNow || ((s.fb Fld.PAR_STAT_LINK && !s.par.hbNow) ||
      (helm && (s.helmWatch && s.watchedThr.any fun t => !bitOf s.par.helmSeen t))))

/-- Consecutive missed beats that lose the partner (R332, R345). -/
def State.missLimit (s : State) : Nat :=
  let v := s.f Fld.PAR_CFG_MISS
  if v = 0 then 1 else if v = 3 then 2 else v

/-- A beat is established as missed (R331, R332). -/
def doMissed (s : State) (helm : Bool) : State :=
  if !s.running || (s.par.missed || !s.beatMissed helm) then s
  else
    let s1 := ((State.stick { s with par := { s.par with missed := true } } Fld.PAR_CNT_A_HB_MISS Fld.PAR_FLAGS_HB_SAT 1)).stickN Fld.PAR_DET_MISS_RUN 1
    if s1.f Fld.PAR_DET_MISS_RUN < s.missLimit then s1
    else if s1.role = 1 then s1.takeover 1 false
    else (s1.setRole 3 1).raise Ev.PAR_PARTNER_LOST

/-! ### Every beat edge -/

/-- A higher tally of the partner's parity has been seen by a commanding unit (R319). -/
def State.splitBrain (s : State) : State :=
  if s.role < 2 ∨ s.par.pTally ≤ s.f Fld.PAR_TALLY_TALLY then s
  else if s.par.signAge ≤ 10 then
    ((s.pairRec 2 s.role 1 5).raise Ev.PAR_SPLIT_BRAIN).stepDown 5
  else s.raiseTally.1

/-- The watch's windows move on to the beat that begins. -/
def State.parWindows (s : State) : State :=
  let s0 := if s.par.missed then s else s.setF Fld.PAR_DET_MISS_RUN 0
  { s0 with par := { s0.par with
    missed := false, togNow := s0.par.togNext, hbNow := s0.par.hbNext, togNext := false, hbNext := false, helmSeen := 0
    signAge := min 255 (s0.par.signAge + 1) } }

/-- The mirror ages by a frame (R316, R327). -/
def State.mirrorAge (s : State) : State :=
  let t := s.stickN Fld.PAR_STAT_MIRROR_AGE 1
  let lim := max 1 (s.f Fld.PAR_CFG2_MIRROR_AGE)
  if s.role = 1 ∧ s.f Fld.PAR_STAT_MIRROR_AGE ≤ lim ∧ lim < t.f Fld.PAR_STAT_MIRROR_AGE then t.raise Ev.PAR_MIRROR_STALE else t

/-- The outgoing unit reaches the handover edge it announced (R340). -/
def State.hoOut (s : State) : State :=
  match s.par.ho with
  | some (n, c) => if n ≤ s.beatNo ∧ 2 ≤ s.role then s.stepDown c else s
  | none => s

/-- The standby reaches the handover edge its partner announced (R339). -/
def State.hoTake (s : State) : State :=
  match s.par.hoIn with
  | some (n, c) => if n = s.beatNo then s.takeover c true else s
  | none => s

/-- Playout begins at the first edge at least 5 µs after the decision (R336). -/
def State.playoutStart (s : State) : State :=
  if s.f Fld.PAR_STAT_TO_PHASE = 1 ∧ s.par.toAt + 5000 ≤ s.tim.raw then s.setF Fld.PAR_STAT_TO_PHASE 2 else s

/-- The pair block in the edge cycle, before slot evaluation; the beat index has advanced. -/
def State.parEdge (s : State) : State :=
  let s1 := s.parWindows
  let s2 := if s.beat = 0 then s1.mirrorAge else s1
  s2.splitBrain.hoOut.hoTake.playoutStart.seek s.frame

/-- The pair block at a B0 edge: deeds taken by a unit that stands by (R320), or the restart of the frame path (R323, R337). -/
def State.parB0 (s : State) : State :=
  if s.role < 2 then
    if s.par.deedDue then ({ s with par := { s.par with deedDue := false } } : State).takeDeeds else s
  else
    match s.par.restart with
    | none => s
    | some r =>
      if s.tim.raw < r then s
      else
        let t := ({ s with par := { s.par with restart := none, cold := false } } : State).giveDeeds
        if t.f Fld.PAR_STAT_TO_PHASE = 0 then t else t.setF Fld.PAR_STAT_TO_PHASE 3

/-- The first own commit ends the takeover (R337). -/
def State.parB36 (s : State) : State :=
  if s.f Fld.PAR_STAT_TO_PHASE = 3 ∧ s.frm.runs = true then s.setF Fld.PAR_STAT_TO_PHASE 0 else s

/-- In `STANDBY`, the partner's beat record of the previous beat is loaded before slot evaluation (R315). -/
def State.standbyLoad (s : State) : State :=
  let r := s.par.rcd
  if s.role = 1 ∧ r ≠ [] ∧ leAt r 4 8 * 40 + leAt r 12 1 + 1 = s.beatNo then s.loadRecord r else s

/-! ### The link (R308) -/

/-- Icvo lane `n` goes down or comes up. -/
def State.icvoLane (s : State) (n : Nat) (up : Bool) : State :=
  let l := setNth s.par.lanes n up
  let k := (l.filter id).length
  let t := State.setF { s with par := { s.par with lanes := l } } Fld.PAR_STAT_LINK k
  if k < s.f Fld.PAR_STAT_LINK then t.raise Ev.PAR_LINK_DEGRADED else t

/-! ### Re-epoch (R344) -/

/-- A write of `0xE9C0`. -/
def doEpochArm (s : State) : State :=
  if s.safPhase = 1 ∨ s.safPhase = 4 then (s.setF Fld.PAR_STAT_EPOCH 1).setRole 0 0 else s

/-- A write of `0xE9C1`. -/
def doEpochComplete (s : State) : State :=
  if s.fb Fld.PAR_STAT_EPOCH ∧ s.pFlag 4 = true then
    let u := s.dev.unit
    let t := ((s.setF Fld.PAR_TALLY_TALLY u).setF Fld.PAR_SEEN_SEEN u).setF Fld.PAR_STAT_EPOCH 0
    let t1 := ({ t with par := { t.par with pTally := 0 } } : State).pairRec 4 t.role t.role 0
    t1.writeSections.flashCopy
  else s

/-- A write of `PAR_EPOCH.KEY` (R344). -/
def doEpochKey (s : State) (v : Nat) : State :=
  if v % 65536 = 0xE9C0 then doEpochArm s else if v % 65536 = 0xE9C1 then doEpochComplete s else s

/-- `CLR_FAULTY` (R334). -/
def State.clrFaulty (s : State) : State := if s.faultPersists then s else s.setF Fld.PAR_STAT_FAULTY 0

/-- `PAR_REQ.RESYNC` (R328). -/
def State.askResync (s : State) : State := if s.role < 2 then s else { s with par := { s.par with resync := true, banks := [] } }

/-- A write of `PAR_REQ` (R345). -/
def doParReq (s : State) (v : Nat) : State :=
  let s1 := if bitOf v 30 then s.selfFault else s
  let s2 := if bitOf v 29 then s1.clrFaulty else s1
  let s3 := if bitOf v 28 then s2.askResync else s2
  let s4 := if bitOf v 27 then s3.flashWant else s3
  if bitOf v 31 then s4.announce 3 else s4

/-! ### The commands -/

/-- `ICVO_LANE_DOWN` of lane `n`. -/
def execIcvoLaneDown (n : Nat) (s : State) : Out := liveIf (decide (n < 2)) s (s.icvoLane n false)

/-- `ICVO_LANE_UP` of lane `n`. -/
def execIcvoLaneUp (n : Nat) (s : State) : Out := liveIf (decide (n < 2)) s (s.icvoLane n true)

/-- `HEARTBEAT_FREE_SEND`: before beats start. -/
def execHeartbeatFreeSend (s : State) : Out := liveIf (!s.running) s s.sendHeartbeat

/-- `HEARTBEAT_RX`: message `b`, `ofs` ns from the unit's nearest own edge. -/
def execHeartbeatRx (b : List Byte) (ofs : Int) (s : State) : Out := live s (doHeartbeat s b ofs)

/-- `BEAT_RECORD_RX`: message `b`. -/
def execBeatRecordRx (b : List Byte) (s : State) : Out :=
  live s (if b.length ≠ 1600 ∨ leAt b 0 1 ≠ 2 ∨ leAt b 60 4 ≠ crc32c (b.take 60 ++ b.drop 64) then s.parBad
    else { s with par := { s.par with rcd := b } })

/-- `DELTA_RX`: message `b`. -/
def execDeltaRx (b : List Byte) (s : State) : Out :=
  live s (let t := s.rxDelta b
    if t.role = 1 ∧ t.par.copy.isSome = true ∧ t.par.hb ≠ [] ∧ t.hbWrong = true then t.partnerWrong else t)

/-- `DELTA_COPY_DONE`: the copy in progress completes, and a takeover decided meanwhile takes effect (R327). -/
def execDeltaCopyDone (s : State) : Out :=
  live s (match s.par.copy with
    | none => s
    | some b =>
      let t := s.copyDelta b
      match t.par.decided with
      | none => t
      | some c => t.takeover c (c == 3 || c == 4))

/-- `RESYNC_BANK_RX`: message `b`. -/
def execResyncBankRx (b : List Byte) (s : State) : Out := live s (s.rxBank b)

/-- `RESYNC`: a write of `PAR_REQ.RESYNC`. -/
def execResync (s : State) : Out := live s s.askResync.ok

/-- `SEEK_TIMEOUT`: `SEEK_TMO` seconds without any sign of the partner. -/
def execSeekTimeout (s : State) : Out :=
  liveIf (s.role == 0 && (!s.fb Fld.PAR_STAT_EPOCH && (s.fb Fld.PAR_CFG_ALLOW_ALONE && (s.par.listened && !s.hbFresh)))) s
    ((s.setF Fld.PAR_STAT_PARTNER_ON_CAN 0).goCommand 3)

/-- `LISTEN_MIN_END`. -/
def execListenMinEnd (s : State) : Out :=
  liveIf (s.role == 0) s (State.seek { s with par := { s.par with listened := true } } s.frame)

/-- `MISSED_BEAT`: the 20 µs after an edge have passed, or, where `helm`, the helm window. -/
def execMissedBeat (helm : Bool) (s : State) : Out := live s (doMissed s helm)

/-- `FAULT`: a write of `PAR_REQ.FAULT`. -/
def execFault (s : State) : Out := live s s.selfFault.ok

/-- `CLR_FAULTY`: a write of `PAR_REQ.CLR_FAULTY`. -/
def execClrFaulty (s : State) : Out := live s s.clrFaulty.ok

/-- `HANDOVER`: a write of `PAR_REQ.HANDOVER`. -/
def execHandover (s : State) : Out := live s (s.announce 3).ok

/-- `CORES_UP`: the cores run at 1.6 GHz after a takeover. -/
def execCoresUp (s : State) : Out := liveIf (decide (2 ≤ s.role)) s (s.setF Fld.PAR_STAT_CORES_UP 1)

/-- `FLASH_PERIOD` expires. -/
def execFlashPeriod (s : State) : Out := live s s.flashWant

/-- `FLASH_NOW`: a write of `PAR_REQ.FLASH_NOW`. -/
def execFlashNow (s : State) : Out := live s s.flashWant.ok

/-- `FLASH_COPY`: the write of the strongbox image in the DRAM area completes (R329, R408). -/
def execFlashCopy (s : State) : Out :=
  liveIf s.par.flashBusy s
    (let n := s.tracked.length
     let d := s.rdN (dramAddr (s.f Fld.PAR_FLASH_DRAM_ADDR)) (n * (8192 + 0x4_0000))
     let t : State := { s with par := { s.par with flashBusy := false } }
     if t.nfcReady then
       (({ t with par := { t.par with flashAt := some t.tim.raw } } : State).putImage d).raise Ev.PAR_FLASH_COPY
     else t)

/-- `EPOCH_ARM`: a write of `0xE9C0` to `PAR_EPOCH.KEY`. -/
def execEpochArm (s : State) : Out := live s (doEpochArm s).ok

/-- `EPOCH_COMPLETE`: a write of `0xE9C1` to `PAR_EPOCH.KEY`. -/
def execEpochComplete (s : State) : Out := live s (doEpochComplete s).ok

/-- `PAIR_BEAT_I_TOGGLE`: a toggle `ofs` ns from the unit's nearest own edge. -/
def execPairBeatIToggle (ofs : Int) (s : State) : Out :=
  live s (let near := decide (-20000 ≤ ofs ∧ ofs ≤ 20000)
    { s with par := { s.par with
      togNear := decide (-10000 ≤ ofs ∧ ofs ≤ 10000)
      togNow := s.par.togNow || (near && decide (0 ≤ ofs)), togNext := s.par.togNext || (near && decide (ofs < 0)) } })

end Sys2Proof.Machine
end

