-- ==== Sys2Proof/Machine/Helm.lean ====
section
/-! DEFINITION. The helm engine (R258–R263): the helm frames of a beat, and what the frames received on a CAN bus bring to the
feedback store, the tallies and the watch on the partner. -/

namespace Sys2Proof.Machine

/-! ### Helm frames (R259, R261) -/

/-- The helm engine treats the entries left pending by the last beat, and ages the feedback (R261, R263). -/
def State.helmEdge (s : State) : State :=
  if !s.works 19 then s
  else
    let s1 := forUp 24 (fun t u => u.fbAge t) s
    forUp 8 (fun k t => ((t.reserved k).foldl (fun u e => u.helmWithdraw k e.1 e.2) t).canKick k) s1

/-- The payload of thruster `t`'s helm frame with sequence `seq` (R259). -/
def State.helmBytes (s : State) (t seq : Nat) : List Byte :=
  let ps := if s.fb (Fld.CAN_HELM_MAP_PR_EN t) then some (s.f (Fld.CAN_HELM_MAP_PR_SLOT t)) else none
  let (az, thr, pr, azr) := s.helmFields t ps
  let b := leBytes 4 (s.f Fld.PAR_TALLY_TALLY) ++ leBytes 2 s.frame ++ leBytes 1 s.beat ++
    leBytes 1 (s.asGraze s.mode + 4 * s.f Fld.CLE_MODE_GRAZING + 8 * s.f Fld.CMD_SEL_PLAYING) ++ leBytes 2 az ++ leBytes 2 (uns 16 thr) ++
    leBytes 2 (uns 16 pr) ++ leBytes 2 (uns 16 azr) ++ leBytes 2 (s.f (Fld.CAN_HELM_LIM_THR_RAMP t)) ++
    leBytes 2 (s.f (Fld.CAN_HELM_LIM_AZR_LIM t)) ++ leBytes 1 (s.stopByte t) ++ leBytes 1 seq ++ zeros 6
  b ++ leBytes 4 (crc32c b)

/-- Build and place the helm frame of thruster `t` on controller `k`, handle `h` (R259, R261). -/
def State.helmBuildOne (s : State) (k t h : Nat) : State :=
  let seq := (s.f (Fld.CAN_HELM_STAT_SEQ t) + 1) % 256
  let f : CanFrame := { id := helmId (s.f Fld.CAN_HELM_CFG_INST) s.dev.unit t, ide := true, rtr := false, fdf := true, brs := true,
                        esi := false, dlc := 13, data := s.helmBytes t seq }
  (s.setF (Fld.CAN_HELM_STAT_SEQ t) seq).helmPlace k t h f

/-- Helm frames are built: a commanding unit whose raise was not refused, not between a takeover decision and the first edge
5 µs later (R312, R336, R341). -/
def State.helmBuilds (s : State) : Bool :=
  s.works 19 && (s.fb Fld.CAN_HELM_CFG_EN && (decide (2 ≤ s.role) && (!s.par.noHelm && (s.f Fld.PAR_STAT_TO_PHASE != 1 && !s.pwr.silent))))

/-- The helm frames of the beat (R259). -/
def State.helmBuild (s : State) : State :=
  if !s.helmBuilds then s
  else forUp 8 (fun k t =>
    if t.works (11 + k) && t.canMode k == 1 then ((t.reserved k).foldl (fun u e => u.helmBuildOne k e.1 e.2) t).canKick k else t) s

/-! ### Reception (R252, R263, R317, R331, R333) -/

/-- The tally of a feedback frame of thruster `t` (R317). -/
def State.fbTally (s : State) (t : Nat) (b : List Byte) : State :=
  let v := leAt b 0 4
  if s.fb Fld.PAR_STAT_EPOCH then s
  else if v % 2 ≠ leAt b 21 1 % 2 then s.parBad
  else if s.f Fld.PAR_SEEN_SEEN + 65536 < v then
    ((s.setF Fld.PAR_FLAGS_FEEDBACK_FAR 1).setF Fld.PAR_FLAGS_FAR_THR t).parBad
  else s.seeTally v

/-- A helm frame of the partner for thruster `t` whose CRC is correct. -/
def State.partnerHelm (s : State) (t : Nat) (b : List Byte) : State :=
  let v := leAt b 0 4
  if v % 2 = s.dev.unit % 2 then s.parBad
  else
    let now := s.running && (leAt b 4 2 == s.frame % 65536 && leAt b 6 1 == s.beat)
    let seen := if now && !bitOf s.par.helmSeen t then s.par.helmSeen + 2 ^ t else s.par.helmSeen
    let s1 : State := { s.seeTally v with par := { (s.seeTally v).par with
      helmSeen := seen, signAge := 0, pHelm := some (leAt b 4 2, leAt b 6 1, v) } }
    let s2 := if s1.role = 0 ∧ s1.hbFresh = false then s1.setF Fld.PAR_STAT_PARTNER_ON_CAN 1 else s1
    if s2.role = 1 ∧ s2.par.hb ≠ [] ∧ s2.hbAt 4 2 = leAt b 4 2 ∧ s2.hbAt 12 1 = leAt b 6 1 ∧ s2.hbAt 16 4 ≠ v then s2.partnerWrong else s2

/-- What the helm engine and the pair block take from a frame received on controller `k`. -/
def State.helmTake (s : State) (k : Nat) (f : CanFrame) : State :=
  let t := bitsOf f.id 4 0
  match helmPayload f with
  | none => s
  | some b =>
    if s.works 19 = false ∨ bitsOf f.id 17 6 ≠ s.f Fld.CAN_HELM_CFG_INST ∨ 24 ≤ t ∨ s.fb (Fld.CAN_HELM_MAP_EN t) = false ∨
        s.f (Fld.CAN_HELM_MAP_CTRL t) ≠ k then s
    else if bitsOf f.id 28 18 = 0x148 ∧ bitsOf f.id 5 5 ≠ s.dev.unit % 2 then
      if helmCrcOk b then s.partnerHelm t b else s
    else if bitsOf f.id 28 18 = 0x249 ∧ bitsOf f.id 5 5 = 0 then
      (if helmCrcOk b then s.fbTally t b else s).fbCapture t b
    else s

/-- A frame arrives on controller `k`; its SOF lay `back` ns ago. -/
def doCanFrame (s : State) (k : Nat) (f : CanFrame) (back : Nat) : State :=
  let m := s.canMode k
  if s.works (11 + k) = false ∨ m = 0 ∨ m = 3 ∨ s.f (Fld.CAN_ECNT_STATE k) = 2 ∨ s.pwr.silent = true then s
  else if f.fdf && !s.fb (Fld.CAN_MODE_FD_EN k) then doCanError s k 2 false false false
  else (s.canTake k (CanFrame.norm f) back).helmTake k f

/-- `CAN_FRAME_RX`: frame `f` is received on controller `k`; its SOF lay `back` ns ago. -/
def execCanFrameRx (k : Nat) (f : CanFrame) (back : Nat) (s : State) : Out := liveIf (decide (k < 8)) s (doCanFrame s k f back)

end Sys2Proof.Machine
end

