-- ==== Sys2Proof/Machine/Frame.lean ====
section
/-! DEFINITION. What the image instant publishes of a frame (R48–R50, R232, R321, R378), and the sending side of the replay port
(R54–R57). -/

namespace Sys2Proof.Machine

/-! ### Status word and frame record (R48, R232) -/

/-- Bits [12:2] of the status word, taken down to bit 0. -/
def State.statMid (s : State) : Nat :=
  let f := s.frm
  b2n (f.lateCnt != 0) + 2 * b2n f.deadline + 4 * b2n f.stale + 8 * b2n f.eccUe + 16 * b2n f.suspect + 32 * b2n f.liveRead +
    64 * b2n f.ovrFus + 128 * b2n f.estLate + 256 * b2n f.ovrAsm + 512 * b2n f.ovrCmd + 1024 * b2n f.prevOvrPub

/-- The frame status word (R48). -/
def State.statusWord (s : State) : Nat :=
  let f := s.frm
  let m := s.statMid
  b2n (m != 0) + 4 * m + 2 ^ 13 * b2n f.selBackstop + 2 ^ 14 * b2n f.freeRun + 2 ^ 15 * b2n f.replay + 2 ^ 16 * (f.mode36 % 4) +
    2 ^ 24 * (f.lateCnt % 256) + 2 ^ 32 * (f.scenDone % 256) + 2 ^ 40 * (f.lanesDl % 256) + 2 ^ 48 * (s.frame % 65536)

/-- The configured thrusters. -/
def State.thrCount (s : State) : Nat := (s.tset.map fun t => t.t).getD 0

/-- Step `k`, thruster `j` of the trajectory in force; 0 without a valid one (R232). -/
def State.inForce (s : State) (k j : Nat) : Nat :=
  if s.fb Fld.CLE_TRAJ_STAT_VALID && decide (j < s.thrCount) then (s.reg (Adr.CLE_TRAJ k j)).toNat else 0

/-- Byte 24: the selection, 1 where nothing commits. -/
def State.selByte (s : State) : Nat := if s.fb Fld.CMD_SEL_COMMITTED then b2n s.frm.selBackstop else 1

/-- The command set of R50. -/
def State.commandSet (s : State) : List Byte :=
  let row := fun (k : Nat) => ((List.range s.thrCount).map fun j => leBytes 4 (s.inForce k j)).flatten
  leBytes 1 s.selByte ++ row 0 ++ ((List.range 20).map row).flatten

/-- The frame record (R232). -/
def State.frameRecord (s : State) (stat dig : Nat) : List Byte :=
  let row := fun (k : Nat) => ((List.range 24).map fun j => leBytes 4 (s.inForce k j)).flatten
  padTo 64 (leBytes 8 s.frame ++ leBytes 8 stat ++ leBytes 8 dig ++ leBytes 1 s.selByte ++ leBytes 1 s.thrCount ++
    leBytes 1 s.frm.mode36) ++ row 0 ++ ((List.range 20).map row).flatten

/-! ### The digest (R49, R50) -/

/-- The solution vector of a completion record (R50, R211). -/
def State.solution (s : State) (r : List Byte) : List Byte :=
  let l := leAt r 9 1
  let len := leAt r 60 4
  let kind := leAt r 8 1
  if len = 0 then []
  else if kind = 0 then s.rdN (s.resAddr (secOfs l)) (4 * s.rdLe (s.resAddr 16) 2)
  else if kind = 1 then s.rdN (s.resAddr (secOfs l)) len
  else if kind = 2 then s.rdN (s.resAddr (secOfs l)) (len - 24 * (s.tset.map fun t => t.n).getD 0)
  else []

/-- What lane `l` contributes to the digest. -/
def State.laneDigest (s : State) (l : Nat) : List Byte :=
  match s.lsc.recs.find? fun e => leAt e.2 9 1 == l with
  | none => []
  | some (_, r) => if rStatus r = 5 then [] else putAt (r.take 96) 12 2 (rFlags r &&& 0xFFBF) ++ s.solution r

/-- The frame digest. -/
def State.digest (s : State) : Nat :=
  crc64 (leBytes 8 s.frame ++ s.fus.recs ++ ((List.range 96).map s.laneDigest).flatten ++ s.commandSet)

/-! ### Ledger records of the frame (R378) -/

/-- Disciplined time of the frame's B36 edge. -/
def State.b36Time (s : State) : Nat := s.tCommand

/-- The summary record's payload. -/
def State.summary (s : State) : List Byte :=
  leBytes 8 s.frame ++ leBytes 8 s.frm.pubStat ++ leBytes 8 s.frm.pubDigest ++ leBytes 1 s.selByte ++ leBytes 1 s.frm.mode36 ++
    leBytes 1 (s.f Fld.CLE_MODE_GRAZING) ++ leBytes 1 s.role ++ leBytes 4 (s.f Fld.PAR_TALLY_TALLY) ++
    leBytes 2 (s.f Fld.LSC_VSUM_FAILS) ++ leBytes 2 (s.f Fld.LSC_VAGE_MAX_AGE)

/-- Command record `i`'s payload. -/
def State.commandPayload (s : State) (i : Nat) : List Byte :=
  let n := min 8 (s.thrCount - 8 * i)
  leBytes 2 s.frame ++ leBytes 1 (8 * i) ++ leBytes 1 n ++ ((List.range n).map fun j => leBytes 4 (s.inForce 0 (8 * i + j))).flatten

/-- The frame records are offered, where the frame owes them. -/
def State.offerFrame (s : State) : State :=
  match s.lgr.frameDue with
  | none => s
  | some _ =>
    let t := State.offer { s with lgr := { s.lgr with frameDue := none } } (mkRec 513 1 s.b36Time s.summary)
    (List.range ((s.thrCount + 7) / 8)).foldl (fun u i => u.offer (mkRec 513 2 s.b36Time (s.commandPayload i))) t

/-- At the next B0 edge, frame records not offered are abandoned: one record says so (R46, R378). -/
def State.skipFrame (s : State) : State :=
  match s.lgr.frameDue with
  | none => s
  | some n => (State.offer { s with lgr := { s.lgr with frameDue := none } } (mkRec 513 3 s.b36Time (leBytes 8 n))).stick
      Fld.LGR_CNT_A_FRAME_SKIP Fld.LGR_FLAGS_SKIP_SAT 1

/-! ### The replay port, sending (R54–R57) -/

/-- One's-complement checksum of a byte string, as a header or UDP checksum field takes it. -/
def inetSum (b : List Byte) : Nat := 0xFFFF - fold16 (words16 b)

/-- A UDP datagram in an Ethernet frame with the addresses of R57. -/
def State.replayFrame (s : State) (d : List Byte) : List Byte :=
  let k := s.f Fld.CMD_RPL_CTRL_PORT
  let port := beBytes 2 (s.f Fld.CMD_RPL_CTRL_UDP_PORT)
  let src := beBytes 4 (s.f Fld.CMD_RPL_SRC_IPV4)
  let dst := beBytes 4 (s.f Fld.CMD_RPL_DEST_IPV4)
  let len := beBytes 2 (8 + d.length)
  let ip := fun (c : Nat) => [0x45, 0] ++ beBytes 2 (28 + d.length) ++ [0, 0, 0x40, 0, 64, 17] ++ beBytes 2 c ++ src ++ dst
  let sum := inetSum (src ++ dst ++ [0, 17] ++ len ++ port ++ port ++ len ++ [0, 0] ++ d)
  leBytes 4 (s.f Fld.CMD_RPL_MAC_LO_MAC) ++ leBytes 2 (s.reg Adr.CMD_RPL_MAC_HI).toNat ++ leBytes 6 (s.stationMac k) ++ [8, 0] ++
    ip (inetSum (ip 0)) ++ port ++ port ++ len ++ beBytes 2 (if sum = 0 then 0xFFFF else sum) ++ d

/-- Cut a payload of kind `kind` into datagrams (R54, R56). -/
def State.replayCut (s : State) (kind : Nat) (b : List Byte) : List (List Byte) :=
  let n := max 1 ((b.length + 1375) / 1376)
  (List.range n).map fun i =>
    let h := ascii "DQRP" ++ leBytes 2 1 ++ leBytes 2 kind ++ leBytes 8 s.frame ++ leBytes 2 i ++ leBytes 2 n
    let p := (b.drop (1376 * i)).take 1376
    s.replayFrame (h ++ leBytes 4 (crc32c (h ++ p)) ++ p)

/-- A section of the snapshot payload (R56). -/
def section_ (ty idx : Nat) (b : List Byte) : List Byte :=
  leBytes 2 ty ++ leBytes 2 idx ++ leBytes 4 b.length ++ zeros 8 ++ padTo ((b.length + 15) / 16 * 16) b

/-- The samples of port `p` in the form of section 2. -/
def State.portSection (s : State) (p : Nat) : List Byte :=
  if [1, 2, 3, 6].contains (s.ptype p) && !(s.fusOf p).latched.isEmpty then
    section_ 2 p ((s.fusOf p).latched.map fun l => l.smp.bytes.take 64 ++ leBytes 8 l.smp.arr ++ leBytes 8 (b2n l.late)).flatten
  else []

/-- The point blocks of port `p`'s scans in the form of section 3. -/
def State.scanSection (s : State) (p : Nat) : List Byte :=
  if s.ptype p = 6 ∧ (s.fusOf p).latched ≠ [] then section_ 3 p ((s.fusOf p).latched.map fun l => l.smp.pts).flatten else []

/-- The GNSS, filter-chain and field-island blocks of the snapshot (R124, R144, R277). -/
def State.gnsSnap (s : State) : List Byte := s.words (Adr.GNS_MEAS_BUF 0) 1040
def State.fltSnap (s : State) : List Byte := zeros (128 * (40 - s.flt.hist.length)) ++ s.flt.hist.flatten
def State.fioSnap (s : State) : List Byte := zeros (128 * (40 - s.fio.hist.length)) ++ s.fio.hist.flatten

/-- The snapshot payload of this frame (R56). -/
def State.snapshotPayload (s : State) : List Byte :=
  section_ 1 0 s.committed ++ ((List.range 32).map s.portSection).flatten ++ ((List.range 32).map s.scanSection).flatten ++
    (if s.fb Fld.GNS_MEAS_CFG_EN && s.dev.gnss then section_ 4 0 s.gnsSnap else []) ++
    (if s.fb Fld.FLT_SNAP_CFG_EN then section_ 5 0 s.fltSnap else []) ++
    (if s.fb Fld.FIO_SNAP_CFG_EN then section_ 6 0 s.fioSnap else []) ++ section_ 15 0 []

/-- The replay port sends (R54). -/
def State.replaySends (s : State) : Bool := s.f Fld.CMD_RPL_CTRL_MODE == 1 && s.works 150

/-- After the B0 latch the frame's snapshot is queued, or the frame is dropped whole (R54, R55). -/
def State.queueSnapshot (s : State) : State :=
  let s0 : State := { s with rpl := { s.rpl with queued := false } }
  if !s.replaySends || !s.frm.runs then s0
  else if 8 ≤ s.rpl.tx.length then
    (State.stick { s0 with rpl := { s0.rpl with fullDue := true } } Fld.CMD_RPL_STAT_DROPPED Fld.CMD_RPL_STAT_DROP_SAT 1).raise Ev.CMD_RPL_DROP
  else { s0 with rpl := { s0.rpl with queued := true, tx := s0.rpl.tx ++ [s0.replayCut 0 s0.snapshotPayload] } }

/-- The trailer of a queued frame goes behind its snapshot (R54, R56). -/
def State.queueTrailer (s : State) : State :=
  if !s.replaySends || !s.rpl.queued then s
  else
    let d := s.replayCut 1 (leBytes 8 s.frm.pubStat ++ leBytes 8 s.frm.pubDigest ++ leBytes 8 s.cfgDigest)
    let tx := match s.rpl.tx.getLast? with
      | none => [d]
      | some e => s.rpl.tx.dropLast ++ [e ++ d]
    { s with rpl := { s.rpl with queued := false, tx := tx } }

/-- A full image owed is queued with this frame's image once the buffer of 8 has room (R55). -/
def State.queueImage (s : State) : State :=
  if !s.replaySends || (!s.rpl.fullDue || decide (8 ≤ s.rpl.tx.length)) then s
  else
    let t : State := { s with rpl := { s.rpl with fullDue := false, tx := s.rpl.tx ++ [s.replayCut 2 s.image] } }
    t.setF Fld.CMD_RPL_CTRL_FULL_REQ 0

/-- A write of `FULL_REQ` (R55). -/
def State.askFull (s : State) : State :=
  State.setF { s with rpl := { s.rpl with fullDue := true } } Fld.CMD_RPL_CTRL_FULL_REQ 1

/-! ### The image instant (R48, R321) -/

/-- Publish the frame: status word, digest and frame record. -/
def State.publish (s : State) : State :=
  let stat := s.statusWord
  let dig := s.digest
  let t := (s.mWrite 25 (s.resAddr 0x7_0000) (s.frameRecord stat dig)).st
  let t1 : State := { t with frm := { t.frm with pubFrame := s.frame, pubStat := stat, pubDigest := dig, recDone := true, pubDone := true } }
  if stat % 2 = 1 then t1.raise Ev.CMD_TD else t1

/-- The image instant; after the B39 edge the delta is not sent any more (R326). -/
def doImageInstant (s : State) : State :=
  let t := s.publish.writeSections
  let t1 := if s.beat = 39 then t else t.sbxSend
  let t2 := if t1.par.flashDue && t1.mayMaster 149 then t1.flashCopy else t1
  t2.offerFrame.queueImage.queueTrailer

/-- `IMAGE_INSTANT`: command formation completes the frame record of a frame that runs. -/
def execImageInstant (s : State) : Out :=
  liveIf (s.running && (decide (36 ≤ s.beat) && (s.frm.runs && (!s.frm.pubDone && s.works 150)))) s (doImageInstant s)

/-- `FRM_NUM_READ` (R60): a read of `CMD_FRM_NUM_LO`. -/
def execFrmNumRead (s : State) : Out :=
  live s (State.ansW { s with frm := { s.frm with latched := some (s.frm.pubFrame, s.frm.pubStat, s.frm.pubDigest) } }
    (BitVec.ofNat 32 s.frm.pubFrame))

/-- `REPLAY_SNAPSHOT_SEND`: the oldest queued frame's datagrams leave on `PORT` (R54, R349). -/
def execReplaySnapshotSend (s : State) : Out :=
  let k := s.f Fld.CMD_RPL_CTRL_PORT
  liveIf (s.rplReady k && s.ethTxOn k) s
    (match s.rpl.tx with
      | [] => s
      | l :: r => l.foldl (fun t d => (t.send .eth k d).wrap (Fld.ETH_CNT_B_TX_OK k) 1) { s with rpl := { s.rpl with tx := r } })

/-- `REPLAY_FULL_REQUEST`: a write of 1 to `FULL_REQ`. -/
def execReplayFullRequest (s : State) : Out := live s s.askFull.ok

end Sys2Proof.Machine
end

