-- ==== Sys2Proof/Machine/TimeBlock.lean ====
section
/-! DEFINITION. The time counter, its correction and its sources (R356–R367), and the alignment of the beat generator
(R37, R38). -/

namespace Sys2Proof.Machine

/-- The error of an edge against its nearest target, taken modulo 10 ms; an edge exactly 5 ms from two takes the later (R38). -/
def edgeError (e : Int) : Int :=
  let m := e % 10000000
  if m < 5000000 then m else m - 10000000

/-- The beat generator compares its edges, now `e` ns after their targets, with the targets (R38): above 125 µs it realigns,
otherwise the error is moved out slowly. -/
def State.compareEdges (s : State) (e : Int) : State :=
  let d := edgeError e
  if 125000 < d.natAbs then
    let s0 : State := { s with frm := { s.frm with realignErr := d, driftErr := 0 } }
    let s1 := s0.setF Fld.TIM_BEAT_STAT_REALIGN 1
    (s1.stick Fld.TIM_SLIP_CNT_COUNT Fld.TIM_SLIP_CNT_SAT 1).raise Ev.TIM_REALIGN
  else { s with frm := { s.frm with realignErr := 0, driftErr := 4 * d } }

/-- The present error of the edges, ns. -/
def State.edgeNow (s : State) : Int := s.frm.realignErr + s.frm.driftErr / 4

/-- Advance disciplined time by `v` ns. -/
def State.addOfs (s : State) (v : Int) : State :=
  { s with tim := { s.tim with ofs := uns 64 (Int.ofNat s.tim.ofs + v) } }

/-- Advance disciplined time by `v` with the edges left where they stand, and compare them with their targets (R358). -/
def State.stepEdges (s : State) (v : Int) : State :=
  (s.addOfs v).compareEdges (s.edgeNow + v)

/-- The width code of this unit's TPULSE (R364). -/
def State.tpCode (s : State) : Nat :=
  if s.f Fld.TIM_STAT_ACQUIRED = 0 then 3
  else if s.fb Fld.TIM_STAT_HOLDOVER then 2 else if s.f Fld.TIM_STAT_SRC = 3 then 1 else 0

/-- The highest available source in the order of R365. -/
def State.bestTime (s : State) : Nat :=
  let ptp := s.fb Fld.TIM_STAT_PTP_AVAIL
  let pps := s.fb Fld.TIM_STAT_PPS_AVAIL
  if s.fb Fld.TIM_CFG_PRIO then
    if s.tim.gnssAvail then 2 else if ptp then 1 else if pps then 3 else 0
  else if ptp then 1 else if s.tim.gnssAvail then 2 else if pps then 3 else 0

/-- The sigma of the last observation accepted from source `n` (R366). -/
def State.sigmaOf (s : State) (n : Nat) : Nat := if n = 1 then s.tim.sigPtp else if n = 2 then s.tim.sigGnss else 0

/-- A first source acquires disciplined time (R37, R365): `FREE_RUN` clears and the edges are compared with their targets. -/
def State.acquire (s : State) : State :=
  let s1 := (s.setF Fld.TIM_STAT_ACQUIRED 1).raise Ev.TIM_ACQUIRED
  if s1.fb Fld.TIM_BEAT_STAT_FREE_RUN then
    let s2 := s1.setF Fld.TIM_BEAT_STAT_FREE_RUN 0
    if s2.fb Fld.TIM_BEAT_STAT_REALIGN then s2 else s2.compareEdges s2.edgeNow
  else s1

/-- Re-evaluate the selected source, acquisition and holdover (R365, R366). -/
def State.selectTime (s : State) : State :=
  let n := s.bestTime
  let s1 := if n = s.f Fld.TIM_STAT_SRC then s else (s.setF Fld.TIM_STAT_SRC n).raise Ev.TIM_SRC_CHANGED
  let s2 := if n ≠ 0 ∧ s1.f Fld.TIM_STAT_ACQUIRED = 0 then s1.acquire else s1
  let ho := s2.fb Fld.TIM_STAT_ACQUIRED && n == 0
  let s3 := if ho && !s2.fb Fld.TIM_STAT_HOLDOVER then (s2.setF Fld.TIM_STAT_HOLDOVER 1).raise Ev.TIM_HOLDOVER
    else s2.setF Fld.TIM_STAT_HOLDOVER (b2n ho)
  if n = 0 then s3 else { s3 with tim := { s3.tim with uncBase := s3.sigmaOf n } }

/-- `TIM_UNC` (R366). -/
def State.uncertainty (s : State) : Nat :=
  if s.f Fld.TIM_STAT_ACQUIRED = 0 then 0xFFFFFFFF
  else if s.fb Fld.TIM_STAT_HOLDOVER then
    min 0xFFFFFFFF (s.tim.uncBase + s.f Fld.TIM_HOLD_GROW * (s.tim.raw - s.tim.lastObs) / 1000000000)
  else s.sigmaOf (s.f Fld.TIM_STAT_SRC)

/-- `FORCE` is set and honoured for master `m` (R361). -/
def State.forced (s : State) (m : Nat) : Bool :=
  s.fb Fld.TIM_STEP_CTRL_FORCE && bitOf (s.f Fld.TIM_FORCE_IDS_IDS) m

/-- A refused step or rate write (R358). -/
def State.timeRefused (s : State) : State :=
  (s.stick Fld.TIM_STEP_CTRL_REF_CNT Fld.TIM_STEP_CTRL_REF_SAT 1).raise Ev.TIM_STEP_REFUSED

/-- A write of `TIM_RATE_HI` by master `m` (R357). -/
def doRate (s : State) (m : Nat) (v : Word) : State :=
  let r := sgn 64 ((s.reg Adr.TIM_RATE_LO).toNat + v.toNat * 2 ^ 32)
  let s1 := if 56294995342 < r.natAbs ∨ (s.fb Fld.TIM_STAT_HOLDOVER ∧ s.forced m = false) then s.timeRefused
    else
      let o := uns 64 (Int.ofNat s.tim.ofs + fdiv (s.tim.rate * (Int.ofNat s.tim.raw - Int.ofNat s.tim.epoch)) (2 ^ 48))
      ({ s with tim := { s.tim with ofs := o, epoch := s.tim.raw, rate := r } } : State).setReg Adr.TIM_RATE_HI v
  (s1.setF Fld.TIM_STEP_CTRL_FORCE 0).ok

/-- How a step request `v` of master `m` is handled (R358). -/
def State.timeStep (s : State) (m : Nat) (v : Int) : State :=
  if s.running = false then s.addOfs v
  else if s.fb Fld.TIM_BEAT_STAT_FREE_RUN ∨ s.forced m = true then s.stepEdges v
  else if s.fb Fld.TIM_STAT_HOLDOVER then s.timeRefused
  else if v.natAbs ≤ max 1 (s.f Fld.TIM_STEP_LIMIT_NS) then { s with tim := { s.tim with slew := v } }
  else s.timeRefused

/-- A write of `TIM_STEP_HI` by master `m` (R358, R361). -/
def doStep (s : State) (m : Nat) (v : Word) : State :=
  let x := sgn 64 ((s.reg Adr.TIM_STEP_LO).toNat + v.toNat * 2 ^ 32)
  ((s.timeStep m x).setF Fld.TIM_STEP_CTRL_FORCE 0).ok

/-- A read of `TIM_NOW_LO` (R360). -/
def doTimeNow (s : State) : State :=
  let t := s.now
  let s1 := (s.setReg Adr.TIM_NOW_HI (BitVec.ofNat 32 (t / 2 ^ 32))).setPair Adr.TIM_RAW_LO Adr.TIM_RAW_HI s.tim.raw
  (s1.setReg Adr.TIM_UNC (BitVec.ofNat 32 s.uncertainty)).ansW (BitVec.ofNat 32 t)

/-- The present frame number for a time observation (R129). -/
def State.frameNow (s : State) : Nat := if s.running then s.frame else s.now / 10000000

/-- Frames between the present one and the observation's frame F (R129). -/
def State.obsAge (s : State) (f16 : Nat) : Nat := (s.frameNow + 65536 - f16 % 65536) % 65536

/-- An observation of frame `f16` is accepted (R129): F lies within the last 100 frames. -/
def State.obsAccepted (s : State) (f16 : Nat) : Bool :=
  decide (s.obsAge f16 ≤ 99) && decide (s.obsAge f16 ≤ s.frameNow)

/-- A write of `TIM_PTP_CTRL` with `VALID` (R362). -/
def doPtpObs (s : State) (v : Word) : State :=
  let f16 := bitsOf v.toNat 15 0
  let sg := bitsOf v.toNat 23 16
  let s0 := (s.setF Fld.TIM_PTP_CTRL_SIGMA sg).setF Fld.TIM_PTP_CTRL_FRAME16 f16
  if s.obsAccepted f16 then
    let n := min 3 (s.tim.ptpRun + 1)
    let s1 : State := { s0 with tim := { s0.tim with ptpRun := n, sigPtp := sg, lastObs := s.tim.raw } }
    (s1.setF Fld.TIM_STAT_PTP_AVAIL (b2n (s1.fb Fld.TIM_STAT_PTP_AVAIL || n == 3))).selectTime.ok
  else ({ s0 with tim := { s0.tim with ptpRun := 0 } } : State).setF Fld.TIM_PTP_CTRL_REFUSED 1 |>.ok

/-- A write of `GNS_TIME_CTRL` with `VALID` (R129). -/
def doGnssObs (s : State) (v : Word) : State :=
  let f16 := bitsOf v.toNat 15 0
  let sg := bitsOf v.toNat 23 16
  let s0 := (s.setF Fld.GNS_TIME_CTRL_SIGMA sg).setF Fld.GNS_TIME_CTRL_FRAME16 f16
  if s.obsAccepted f16 then
    let n := min 3 (s.tim.gnssRun + 1)
    let t := { s0.tim with gnssRun := n, sigGnss := sg, lastObs := s.tim.raw, gnssAvail := s.tim.gnssAvail || n == 3 }
    ({ s0 with tim := t } : State).selectTime.ok
  else ({ s0 with tim := { s0.tim with gnssRun := 0 } } : State).setF Fld.GNS_TIME_CTRL_REFUSED 1 |>.ok

/-- The width class of a received pulse (R364). -/
def ppsClass (w : Nat) : Option Nat :=
  if 80000000 ≤ w ∧ w ≤ 120000000 then some 0
  else if 180000000 ≤ w ∧ w ≤ 220000000 then some 1
  else if 280000000 ≤ w ∧ w ≤ 320000000 then some 2
  else if 450000000 ≤ w ∧ w ≤ 550000000 then some 3 else none

/-- Whether this unit accepts a pulse of class `c` (R364). -/
def State.ppsAccepts (s : State) (c : Nat) : Bool :=
  c == 0 || (decide (2 ≤ c) && (s.dev.unit == 1 && (!s.fb Fld.TIM_STAT_PTP_AVAIL && !s.tim.gnssAvail)))

/-- The reference instant p of a pulse stamped `l` (R363): the partner's `PPS_TIME` from a valid heartbeat received within
1 ms after it, or the nearest whole second. -/
def State.ppsRef (s : State) (l : Nat) : Int :=
  let near := (Int.ofNat l - Int.ofNat (s.f Fld.TIM_PPS_CFG_DELAY) + 500000000) / 1000000000 * 1000000000
  match s.tim.hbPps with
  | none => near
  | some (p, t) => if l ≤ t ∧ t ≤ l + 1000000 then Int.ofNat p else near

/-- The falling PPS edge (R363, R364). -/
def State.ppsFall (s : State) : State :=
  match s.tim.ppsRise with
  | none => s
  | some (l, r) =>
    let s0 : State := { s with tim := { s.tim with ppsRise := none } }
    let o := s.ppsRef l + Int.ofNat (s.f Fld.TIM_PPS_CFG_DELAY) - Int.ofNat l
    let s1 := s0.setPair Adr.TIM_PPS_OBS_LO Adr.TIM_PPS_OBS_HI (uns 64 o)
    match ppsClass (s.tim.raw - r) with
    | none =>
      (({ s1 with tim := { s1.tim with ppsRun := 0 } } : State).setF Fld.TIM_PPS_STAT_ACCEPT 0).raise Ev.TIM_PPS_BAD
    | some c =>
      let s2 := s1.setF Fld.TIM_PPS_STAT_CODE c
      if s.ppsAccepts c then
        let n := min 3 (s.tim.ppsRun + 1)
        let s3 : State := { s2 with tim := { s2.tim with ppsRun := n, lastObs := s.tim.raw } }
        let s4 := (s3.setF Fld.TIM_PPS_STAT_ACCEPT 1).wrap Fld.TIM_PPS_STAT_PULSES 1
        (s4.setF Fld.TIM_STAT_PPS_AVAIL (b2n (s4.fb Fld.TIM_STAT_PPS_AVAIL || n == 3))).selectTime
      else ({ s2 with tim := { s2.tim with ppsRun := 0 } } : State).setF Fld.TIM_PPS_STAT_ACCEPT 0

/-- The width of TPULSE in ms by code (R364). -/
def tpWidth (c : Nat) : Nat := if c = 0 then 100 else if c = 1 then 200 else if c = 2 then 300 else 500

/-- `RATE_WRITE`. -/
def execRateWrite (m : Nat) (v : Word) (s : State) : Out := live s (doRate s m v)

/-- `STEP_WRITE`. -/
def execStepWrite (m : Nat) (v : Word) (s : State) : Out := live s (doStep s m v)

/-- `STEP_FORCE`: a write of 1 to `FORCE` (R361). -/
def execStepForce (s : State) : Out := live s (s.setF Fld.TIM_STEP_CTRL_FORCE 1).ok

/-- `SLEW_INCREMENT` (R359): the offset moves 1 ns towards the request. -/
def execSlewIncrement (s : State) : Out :=
  let d : Int := if s.tim.slew = 0 then 0 else if 0 < s.tim.slew then 1 else -1
  let t := s.addOfs d
  live s { t with tim := { t.tim with slew := s.tim.slew - d } }

/-- `TIME_NOW_READ`. -/
def execTimeNowRead (s : State) : Out := live s (doTimeNow s)

/-- `PTP_OBS_SUBMIT`. -/
def execPtpObsSubmit (v : Word) (s : State) : Out := live s (doPtpObs s v)

/-- `PTP_SOURCE_LOST` (R362). -/
def execPtpSourceLost (s : State) : Out :=
  live s (({ s with tim := { s.tim with ptpRun := 0 } } : State).setF Fld.TIM_STAT_PTP_AVAIL 0).selectTime

/-- `GNSS_TIME_OBS`. -/
def execGnssTimeObs (v : Word) (s : State) : Out := liveIf (s.pageOk 33) s (doGnssObs s v)

/-- `TIME_LOST` (R129). -/
def execTimeLost (s : State) : Out :=
  let t : State := { s with tim := { s.tim with gnssRun := 0, gnssAvail := false } }
  liveIf (s.pageOk 33) s (t.raise Ev.GNS_TIME_LOST).selectTime

/-- `PPS_RISE` (R363). -/
def execPpsRise (s : State) : Out :=
  liveIf (s.fb Fld.TIM_CFG_PPS_EN) s
    (({ s with tim := { s.tim with ppsRise := some (s.now, s.tim.raw) } } : State).setPair Adr.TIM_PPS_STAMP_LO
      Adr.TIM_PPS_STAMP_HI s.now)

/-- `PPS_FALL`. -/
def execPpsFall (s : State) : Out := liveIf (s.fb Fld.TIM_CFG_PPS_EN) s s.ppsFall

/-- `PPS_SOURCE_LOST` (R364). -/
def execPpsSourceLost (s : State) : Out :=
  let t := (({ s with tim := { s.tim with ppsRun := 0 } } : State).setF Fld.TIM_STAT_PPS_AVAIL 0)
  liveIf (s.fb Fld.TIM_STAT_PPS_AVAIL) s (t.raise Ev.TIM_SRC_CHANGED).selectTime

/-- `TPULSE` (R364): a pulse whose width codes the state of this unit's time leaves the TPULSE ball. -/
def execTpulse (s : State) : Out :=
  liveIf (s.fb Fld.TIM_CFG_TPULSE_EN) s (State.send { s with tim := { s.tim with lastTp := s.now } } .tpulse 0 (leBytes 2 (tpWidth s.tpCode)))

/-- `EXT_LOST` (R367): PLL_TIME relocks to REFCLK and returns to EXT10M only on a new write of `REF_EXT`. -/
def execExtLost (s : State) : Out :=
  liveIf (s.fb Fld.TIM_STAT_EXT_OK) s ((s.setF Fld.TIM_STAT_EXT_OK 0).raise Ev.TIM_EXT_LOST)

/-- A write of `TIM_CFG`: a new write of `REF_EXT` takes EXT10M as reference (R367), and `PRIO` may change the source (R365). -/
def doTimCfg (s : State) (v : Word) : State :=
  if s.locked Adr.TIM_CFG then s.ok
  else
    let s1 := (s.setReg Adr.TIM_CFG (v &&& 0xF0000000)).setF Fld.TIM_STAT_EXT_OK (bitsOf v.toNat 31 31)
    s1.selectTime.ok

end Sys2Proof.Machine
end

