-- ==== Sys2Proof/Machine/Gnss.lean ====
section
/-! DEFINITION. The satellite navigation baseband (R111–R130). What the signals are is the outside world's: searches, loops and
correlators bring their outcomes and measurements as operands; what the baseband does with them is here. -/

namespace Sys2Proof.Machine

/-- Channel `c`. -/
def State.gnsOf (s : State) (c : Nat) : GnsCh := s.gns.ch.getD c {}

/-- Replace channel `c`. -/
def State.setGns (s : State) (c : Nat) (x : GnsCh) : State := { s with gns := { s.gns with ch := setNth s.gns.ch c x } }

/-- L1 state and L5 state of channel `c` (R125). -/
def State.gst (s : State) (c : Nat) : Nat := s.f (Fld.GNS_CH_STAT_STATE c)
/-- See `State.gst`. -/
def State.gst5 (s : State) (c : Nat) : Nat := s.f (Fld.GNS_CH_STAT_STATE5 c)

/-- Channel `c` tracks L5 too (R121). -/
def State.dual (s : State) (c : Nat) : Bool := decide (48 ≤ c) && s.fb (Fld.GNS_CH_CFG_L5 c)

/-- Set the L1 state; leaving `TRACK` switches the L5 part off and clears lock and bit synchronisation (R121). -/
def State.setGst (s : State) (c st : Nat) : State :=
  let s1 := s.setF (Fld.GNS_CH_STAT_STATE c) st
  if st = 3 then s1
  else ((s1.setF (Fld.GNS_CH_STAT_STATE5 c) 0).setF (Fld.GNS_CH_STAT_LOCK c) 0).setF (Fld.GNS_CH_STAT_BITSYNC c) 0

/-- Put channel `c` at the tail of the acquisition queue (R116–R118). -/
def State.gnsQueue (s : State) (c : Nat) : State :=
  let t := s.setGst c 1
  { t with gns := { t.gns with queue := (t.gns.queue.filter (· ≠ c)) ++ [c] } }

/-- Take channel `c` out of the queue. -/
def State.gnsUnqueue (s : State) (c : Nat) : State := { s with gns := { s.gns with queue := s.gns.queue.filter (· ≠ c) } }

/-- A write of `GNS_CH_CFG[c]` (R116, R119): a PRN of 0 leaves the channel `OFF`. -/
def doGnsCfg (s : State) (c : Nat) (v : Word) : State :=
  let s1 := s.setReg (Adr.GNS_CH_CFG c) (v &&& 0xFFFCFFFF)
  (if bitOf v.toNat 31 = false then
      ((s1.gnsUnqueue c).setGst c 0).setGns c { s.gnsOf c with direct := false }
    else if s.gst c ≠ 0 ∨ bitsOf v.toNat 28 23 = 0 then s1
    else
      let s2 := s1.setF (Fld.GNS_CH_STAT_ACQ_TRIES c) 0
      if bitOf v.toNat 30 then s2.setGns c { s.gnsOf c with direct := true }
      else (s2.setGns c { s.gnsOf c with direct := false, dopp := 1000 * s2.fi (Fld.GNS_CH_CFG_DOPP c) }).gnsQueue c).ok

/-- The centre Doppler bin and half-width of channel `c` (R117). -/
def State.acqBins (s : State) (c : Nat) : Int × Int :=
  let m := rneDivI (s.fi (Fld.GNS_CH_CFG_DOPP c)) 500
  let h := Int.ofNat (min 20 (s.f (Fld.GNS_CH_CFG_HALF c)))
  (max (-20) (m - h), min 20 (m + h))

/-- The search of the channel at the head of the queue ends with best ratio `r` at code bin `code` and Doppler bin `b`
(R117, R118). -/
def doAcqDone (s : State) (r code : Nat) (b : Int) : State :=
  match s.gns.queue with
  | [] => s
  | c :: _ =>
    let (lo, hi) := s.acqBins c
    if b < lo ∨ hi < b ∨ 2046 ≤ code then s
    else
      let s1 := (s.setF (Fld.GNS_CH_ACQ_ACQ_RATIO c) (min 65535 r)).stickN (Fld.GNS_CH_STAT_ACQ_TRIES c) 1
      let s2 := if s.f Fld.GNS_ACQ_CFG_THRESH ≤ r then
        ((s1.gnsUnqueue c).setGst c 2).setGns c { s.gnsOf c with code0 := code * 2 ^ 32 / 2046, dopp0 := b * 500, dopp := b * 500000 }
        else s1.gnsQueue c
      s2.raise Ev.GNS_ACQ_DONE

/-- The L5 part of a dual channel starts (R121). -/
def State.startL5 (s : State) (c : Nat) : State := if s.dual c then s.setF (Fld.GNS_CH_STAT_STATE5 c) 2 else s

/-- Pull-in succeeds (R118, R120). -/
def doPullInLock (s : State) (c : Nat) : State :=
  (((s.setGst c 3).setF (Fld.GNS_CH_STAT_LOCK c) 1).setGns c { s.gnsOf c with frames := 0, frames5 := 0 }).startL5 c

/-- Tracking is lost (R118): the last Doppler becomes `DOPP` when the channel is requeued at the next B0 edge. -/
def doTrackLoss (s : State) (c : Nat) : State := (s.setGst c 4).raise Ev.GNS_LOSS

/-- Input `i` is down (R113): a capture from it ends with error 4, its bank's contents undefined (R128). -/
def State.snapEnd (s : State) (err : Nat) : State :=
  match s.gns.snap with
  | none => s
  | some x =>
    let s1 := if x.start.isSome then s.scramble (bankAddr x.bank 0) 0x4_0000 else s
    let s2 : State := { s1 with gns := { s1.gns with snap := none } }
    (((s2.setF Fld.GNS_SNAP_STAT_BUSY 0).setF Fld.GNS_SNAP_STAT_ERR err).setF Fld.GNS_SNAP_STAT_DONE 1).raise
      Ev.GNS_SNAP_DONE

/-- See `State.snapEnd`. -/
def State.snapEndOn (s : State) (i err : Nat) : State :=
  match s.gns.snap with
  | some x => if x.input = i then s.snapEnd err else s
  | none => s

/-- Input `i` is down (R113). -/
def doIfDown (s : State) (i : Nat) : State :=
  let s1 := (s.setF (Fld.GNS_AGC_CLK_OK i) 0).raise Ev.GNS_IF_DOWN
  let s2 := if i = 0 then forUp 56 (fun c t => if t.gst c = 0 then t else (t.gnsUnqueue c).setGst c 4) s1
    else forUp 56 (fun c t => if t.gst5 c = 0 then t else t.setF (Fld.GNS_CH_STAT_STATE5 c) 4) s1
  s2.snapEndOn i 4

/-- A write of 1 to `GNS_JAM_CFG.CAL` (R115). -/
def doJamCal (s : State) : State :=
  (forUp 2 (fun i t => (t.setF (Fld.GNS_AGC_GAIN_REF i) (s.f (Fld.GNS_AGC_GAIN i))).setF (Fld.GNS_JAM_NF_REF i)
    (s.gns.nf.getD i 0)) s).ok

/-- Samples per second of input `i` with rate code `r` (R111). -/
def ifRate (i r : Nat) : Nat :=
  if i = 0 ∧ r = 0 then 16368000 else if r ≤ 1 then 20460000 else if r = 2 then 40920000 else 81840000

/-- The number of output samples of a capture (R128). -/
def snapCount (x : SnapSt) : Nat := x.len * ifRate x.input x.rate / (1000 * x.d)

/-- A write of `GNS_SNAP_CTRL` with `GO` (R127, R128). -/
def doSnapGo (s : State) (v : Word) : State :=
  let n := v.toNat
  let s1 := s.setReg Adr.GNS_SNAP_CTRL (v &&& 0x7F3F3F1F)
  let i := bitsOf n 30 30
  let x : SnapSt :=
    { input := i, bank := bitsOf n 29 24, beat := min 39 (bitsOf n 21 16), d := max 1 (bitsOf n 13 8), len := bitsOf n 4 0 + 1,
      rate := s.f (Fld.GNS_IF_CFG_RATE i), freq := (s.reg (Adr.GNS_IF_FREQ i)).toNat, start := none }
  (if s.fb Fld.GNS_SNAP_STAT_BUSY then s1
    else
      let e := if 262080 < (snapCount x + 1) / 2 then 1 else if s.f (Fld.GNS_IF_CFG_EN i) = 0 then 3
        else if s.f (Fld.GNS_AGC_CLK_OK i) = 0 then 4 else 0
      if e ≠ 0 then ((s1.setF Fld.GNS_SNAP_STAT_ERR e).setF Fld.GNS_SNAP_STAT_DONE 1).raise Ev.GNS_SNAP_DONE
      else (({ s1 with gns := { s1.gns with snap := some x } } : State).setF Fld.GNS_SNAP_STAT_BUSY 1).setF
        Fld.GNS_SNAP_STAT_ERR 0).ok

/-- The header of a capture whose first sample lay at `t0` (R128). -/
def snapHeader (x : SnapSt) (t0 : Nat) (d : List Byte) : List Byte :=
  let h := [0x44, 0x51, 0x53, 0x4E] ++ leBytes 2 1 ++ leBytes 1 x.input ++ leBytes 1 x.d ++ leBytes 1 x.rate ++
    leBytes 1 x.len ++ zeros 2 ++ leBytes 4 (snapCount x) ++ leBytes 8 t0 ++ leBytes 4 x.freq
  h ++ leBytes 4 (crc32c (h ++ d)) ++ zeros 32

/-- A running capture completes with the packed samples `d`, the first at `t0`; a write that is denied ends it with error 2
(R128). -/
def doSnapDone (s : State) (t0 : Nat) (d : List Byte) : State :=
  match s.gns.snap with
  | none => s
  | some x =>
    if x.start = none then s
    else
      let b := padTo ((snapCount x + 1) / 2) (d.take ((snapCount x + 1) / 2))
      let r := s.mWrite 7 (bankAddr x.bank 64) b
      if r.rsp ≠ .okay then r.st.snapEnd 2
      else
        let q := r.st.mWrite 7 (bankAddr x.bank 0) (snapHeader x t0 b)
        let s2 : State := { q.st with gns := { q.st.gns with snap := none } }
        ((s2.setF Fld.GNS_SNAP_STAT_BUSY 0).setF Fld.GNS_SNAP_STAT_DONE 1).raise Ev.GNS_SNAP_DONE

/-! ### What a beat edge brings (R112–R115, R118, R119, R123–R127) -/

/-- Automatic gain at the end of a beat (R112). -/
def State.agcStep (s : State) (e : EdgeIn) (i : Nat) : State :=
  match e.dens[i]? with
  | none => s
  | some d =>
    let g := s.f (Fld.GNS_AGC_GAIN i)
    let t := 10 * s.f (Fld.GNS_AGC_TARGET i)
    if s.f (Fld.GNS_AGC_AUTO i) = 0 ∨ s.f (Fld.GNS_AGC_CLK_OK i) = 0 then s
    else if t + 20 < d then s.setF (Fld.GNS_AGC_GAIN i) (g - 1)
    else if d + 20 < t then s.setF (Fld.GNS_AGC_GAIN i) (min 255 (g + 1)) else s

/-- The jamming indicator of input `i` (R115). -/
def State.jamStep (s : State) (e : EdgeIn) (i : Nat) : State :=
  let nf := e.nf.getD i (s.gns.nf.getD i 0)
  let s0 : State := { s with gns := { s.gns with nf := setNth s.gns.nf i nf } }
  if s.f (Fld.GNS_AGC_CLK_OK i) = 0 then s0.setF (Fld.GNS_JAM_JI i) 0
  else
    let g := (Int.ofNat (s.f (Fld.GNS_AGC_GAIN_REF i)) - Int.ofNat (s.f (Fld.GNS_AGC_GAIN i))) *
      Int.ofNat (s.f Fld.GNS_JAM_CFG_GSTEP)
    let ji := Int.tdiv g 16 + (Int.ofNat nf - Int.ofNat (s.f (Fld.GNS_JAM_NF_REF i)))
    let th := Int.ofNat (s.f Fld.GNS_JAM_CFG_THRESH)
    let s1 := s0.setF (Fld.GNS_JAM_JI i) (uns 16 ji)
    if th ≤ ji then
      let s2 := s1.setF (Fld.GNS_JAM_JAM i) 1
      if s.fb (Fld.GNS_JAM_JAM i) then s2 else s2.raise Ev.GNS_JAM
    else if ji < th - 8 then s1.setF (Fld.GNS_JAM_JAM i) 0 else s1

/-- Half the width of a notch in 8 Hz units (R114). -/
def State.notchHalf (s : State) (i k : Nat) : Int :=
  [6250, 12500, 31250, 62500].getD (s.f (Fld.GNS_NOTCH_WIDTH i k)) 12500

/-- Notch `k` of input `i`. -/
def State.notchOf (s : State) (i k : Nat) : NotchSt := s.gns.notch.getD (4 * i + k) {}

/-- Engage or release a notch (R114). -/
def State.setNotch (s : State) (i k : Nat) (on : Bool) (x : NotchSt) : State :=
  let t : State := { s with gns := { s.gns with notch := setNth s.gns.notch (4 * i + k) x } }
  let t1 := t.setF (Fld.GNS_NOTCH_ACTIVE i k) (b2n on)
  if on == s.fb (Fld.GNS_NOTCH_ACTIVE i k) then t1 else t1.raise Ev.GNS_NOTCH

/-- Centres of the notches engaged on input `i`. -/
def State.centres (s : State) (i : Nat) : List Int :=
  ((List.range 4).filter fun k => s.fb (Fld.GNS_NOTCH_ACTIVE i k)).map fun k => (s.notchOf i k).centre

/-- Notch `k` of input `i` at a B0 edge (R114). -/
def State.notchStep (s : State) (e : EdgeIn) (i k : Nat) : State :=
  let x := s.notchOf i k
  let act := s.fb (Fld.GNS_NOTCH_ACTIVE i k)
  if s.f (Fld.GNS_NOTCH_EN i k) = 0 then s.setNotch i k false {}
  else if s.f (Fld.GNS_NOTCH_ADAPT i k) = 0 then
    s.setNotch i k true { centre := s.fi (Fld.GNS_NOTCH_FREQ i k), low := 0 }
  else
    let h := s.notchHalf i k
    let cs := (e.cands.filter fun c => c.1 == i).map fun c => c.2
    if act then
      let n := if e.low.contains (i, k) then x.low + 1 else 0
      if 10 ≤ n then s.setNotch i k false {}
      else
        let c := match cs.find? fun c => decide ((c - x.centre).natAbs ≤ h.natAbs) with
          | some c => clampI (x.centre - 125) (x.centre + 125) c
          | none => x.centre
        s.setNotch i k true { centre := c, low := n }
    else
      match cs.find? fun c => (s.centres i).all fun z => decide (h.natAbs < (c - z).natAbs) with
      | some c => s.setNotch i k true { centre := c, low := 0 }
      | none => s

/-- What was measured of a part of a channel. -/
def edgeMeas (e : EdgeIn) (c : Nat) (l5 : Bool) : GnsMeas :=
  match e.gns.find? fun m => m.ch == c && m.l5 == l5 with
  | some m => m
  | none => { ch := c, l5 := l5, lock := false, slip := false, cn0 := 0, code := 0, epochs := 0, carrier := 0, doppler := 0,
              disc := 0 }

/-- The ionosphere-free code phase (R122). -/
def ionoFree (t1 t5 : Nat) : Option Nat :=
  let d := sgn 32 (uns 32 (Int.ofNat t1 - Int.ofNat t5))
  if 2 ^ 24 < d.natAbs then none else some (uns 32 (Int.ofNat t1 + rneDivI (d * 13225) 10491))

/-- One 64-byte record of the measurement block (R125). -/
def State.gnsRecord (s : State) (e : EdgeIn) (c : Nat) (l5 : Bool) : List Byte :=
  let st := if l5 then s.gst5 c else s.gst c
  let i := b2n l5
  let m := edgeMeas e c l5
  let tr := st == 3
  let iff := if l5 && (tr && s.gst c == 3) then ionoFree (edgeMeas e c false).code m.code else none
  let fl := b2n (tr && m.lock) + 2 * b2n (s.fb (Fld.GNS_CH_STAT_BITSYNC c)) + 4 * b2n (tr && m.slip) +
    8 * s.f (Fld.GNS_JAM_JAM i) + 16 * b2n ((List.range 4).any fun k => s.fb (Fld.GNS_NOTCH_ACTIVE i k)) + 32 * b2n iff.isSome
  let x := s.gnsOf c
  let v := fun (n : Nat) (y : Nat) => leBytes n (if tr then y else 0)
  leBytes 1 st ++ leBytes 1 (s.f (Fld.GNS_CH_CFG_PRN c)) ++ leBytes 2 fl ++ leBytes 2 m.cn0 ++
    leBytes 2 (if l5 then x.frames5 else x.frames) ++ v 4 m.code ++ v 4 m.epochs ++ v 8 m.carrier ++
    v 4 (uns 32 m.doppler) ++ v 4 (uns 32 m.disc) ++ leBytes 4 (iff.getD 0) ++ zeros 28

/-- The measurement block captured at a B0 edge: header and 64 records (R124, R125). -/
def State.gnsBlock (s : State) (e : EdgeIn) : List Byte :=
  let tr := (List.range 56).foldl (fun m c => if s.gst c = 3 then m + 2 ^ c else m) 0
  let nt := (List.range 8).foldl (fun m n => if s.fb (Fld.GNS_NOTCH_ACTIVE (n / 4) (n % 4)) then m + 2 ^ n else m) 0
  leBytes 8 s.frame ++ leBytes 8 s.now ++ leBytes 2 (s.f (Fld.GNS_JAM_JI 0)) ++ leBytes 2 (s.f (Fld.GNS_JAM_JI 1)) ++
    leBytes 1 (s.f (Fld.GNS_AGC_GAIN 0)) ++ leBytes 1 (s.f (Fld.GNS_AGC_GAIN 1)) ++ leBytes 1 nt ++ zeros 1 ++ leBytes 8 tr ++
    zeros 32 ++ ((List.range 56).map fun c => s.gnsRecord e c false).flatten ++
    ((List.range 8).map fun k => s.gnsRecord e (48 + k) true).flatten

/-- The registers that follow a channel's measurement, and its frames in `TRACK` (R120, R125). -/
def State.gnsNote (s : State) (e : EdgeIn) (c : Nat) : State :=
  let x := s.gnsOf c
  let m := edgeMeas e c false
  if s.gst c = 3 then
    ((s.setF (Fld.GNS_CH_STAT_CN0 c) m.cn0).setF (Fld.GNS_CH_STAT_LOCK c) (b2n m.lock)).setGns c
      { x with frames := min 65535 (x.frames + 1), dopp := m.doppler
               frames5 := if s.gst5 c = 3 then min 65535 (x.frames5 + 1) else 0 }
  else s

/-- A channel's start or requeueing at a B0 edge (R118, R119). -/
def State.gnsStart (s : State) (c : Nat) : State :=
  let x := s.gnsOf c
  if x.direct then
    (s.setGst c 2).setGns c { x with direct := false, code0 := (s.reg (Adr.GNS_CH_CODE c)).toNat,
                                     dopp0 := s.fi (Fld.GNS_CH_CFG_DOPP c), dopp := 1000 * s.fi (Fld.GNS_CH_CFG_DOPP c) }
  else if s.gst c = 4 ∧ s.fb (Fld.GNS_AGC_CLK_OK 0) = true then
    (s.setF (Fld.GNS_CH_CFG_DOPP c) (uns 16 (rneDivI x.dopp 1000))).gnsQueue c
  else s

/-- A waiting capture starts at the edge of its beat (R127). -/
def State.snapStart (s : State) : State :=
  match s.gns.snap with
  | some x => if x.start = none ∧ x.beat = s.beat then
      { s with gns := { s.gns with snap := some { x with start := some s.now } } } else s
  | none => s

/-- The baseband at a beat edge; `b0` at a B0 edge. -/
def State.gnsEdge (s : State) (e : EdgeIn) (b0 : Bool) : State :=
  if s.dev.gnss = false ∨ s.inReset 33 = true then s
  else
    let s1 := forUp 2 (fun i t => t.agcStep e i) s
    let s2 := if b0 then
        let u := forUp 2 (fun i t => if e.clk.getD i false then t.setF (Fld.GNS_AGC_CLK_OK i) 1 else t) s1
        let u1 := forUp 2 (fun i t => forUp 4 (fun k v => v.notchStep e i k) t) u
        let u2 := forUp 2 (fun i t => t.jamStep e i) u1
        let u3 := forUp 56 (fun c t => t.gnsNote e c) u2
        let blk := u3.gnsBlock e
        let u4 := forUp 1040 (fun i t => t.setReg (Adr.GNS_MEAS_BUF i) (BitVec.ofNat 32 (leAt blk (4 * i) 4))) u3
        forUp 56 (fun c t => t.gnsStart c) u4
      else s1
    s2.snapStart

/-! ### The commands -/

/-- `IF_DOWN`. -/
def execIfDown (i : Nat) (s : State) : Out :=
  liveIf (decide (i < 2) && (s.dev.gnss && s.fb (Fld.GNS_AGC_CLK_OK i))) s (doIfDown s i)

/-- `JAM_CAL`. -/
def execJamCal (s : State) : Out := liveIf s.dev.gnss s (doJamCal s)

/-- `CHANNEL_START`: a write of `v` to `GNS_CH_CFG[c]` with `RUN` at 1 and `MODE` at 0. -/
def execChannelStart (c : Nat) (v : Word) (s : State) : Out :=
  liveIf (decide (c < 56) && s.dev.gnss) s (doGnsCfg s c ((v ||| 0x80000000) &&& 0xBFFFFFFF))

/-- `CHANNEL_STOP`: a write of `v` with `RUN` at 0. -/
def execChannelStop (c : Nat) (v : Word) (s : State) : Out :=
  liveIf (decide (c < 56) && s.dev.gnss) s (doGnsCfg s c (v &&& 0x7FFFFFFF))

/-- `CHANNEL_DIRECT_START`: a write of `v` with `RUN` and `MODE` at 1. -/
def execChannelDirectStart (c : Nat) (v : Word) (s : State) : Out :=
  liveIf (decide (c < 56) && s.dev.gnss) s (doGnsCfg s c (v ||| 0xC0000000))

/-- `ACQ_DONE`. -/
def execAcqDone (r code : Nat) (b : Int) (s : State) : Out := liveIf s.dev.gnss s (doAcqDone s r code b)

/-- `PULL_IN_LOCK`. -/
def execPullInLock (c : Nat) (s : State) : Out :=
  liveIf (decide (c < 56) && (s.dev.gnss && s.gst c == 2)) s (doPullInLock s c)

/-- `PULL_IN_TIMEOUT` (R118). -/
def execPullInTimeout (c : Nat) (s : State) : Out :=
  liveIf (decide (c < 56) && (s.dev.gnss && s.gst c == 2)) s (s.gnsQueue c)

/-- `TRACK_LOSS`. -/
def execTrackLoss (c : Nat) (s : State) : Out :=
  liveIf (decide (c < 56) && (s.dev.gnss && s.gst c == 3)) s (doTrackLoss s c)

/-- `L5_PULL_IN_END`: `track` within 40 ms, or not (R121). -/
def execL5PullInEnd (c : Nat) (track : Bool) (s : State) : Out :=
  liveIf (decide (c < 56) && (s.dev.gnss && s.gst5 c == 2)) s
    ((s.setF (Fld.GNS_CH_STAT_STATE5 c) (if track then 3 else 4)).setGns c { s.gnsOf c with frames5 := 0 })

/-- `L5_RETRY` (R121). -/
def execL5Retry (c : Nat) (s : State) : Out :=
  liveIf (decide (c < 56) && (s.dev.gnss && (s.gst5 c == 4 && s.gst c == 3))) s (s.startL5 c)

/-- `SNAP_GO`: a write of `v` to `GNS_SNAP_CTRL` with `GO` at 1. -/
def execSnapGo (v : Word) (s : State) : Out := liveIf s.dev.gnss s (doSnapGo s v)

/-- `SNAP_DONE`. -/
def execSnapDone (t0 : Nat) (d : List Byte) (s : State) : Out := liveIf s.dev.gnss s (doSnapDone s t0 d)

/-- `BIT_SYNCHRONISATION` (R120). -/
def execBitSynchronisation (c : Nat) (s : State) : Out :=
  liveIf (decide (c < 56) && (s.dev.gnss && s.gst c == 3)) s
    ((s.setF (Fld.GNS_CH_STAT_BITSYNC c) 1).setReg (Adr.GNS_CH_BITCNT c) 0)

/-- `DATA_BIT` (R120): `neg` when the prompt sum is negative. -/
def execDataBit (c : Nat) (neg : Bool) (s : State) : Out :=
  liveIf (decide (c < 56) && (s.dev.gnss && (s.gst c == 3 && s.fb (Fld.GNS_CH_STAT_BITSYNC c)))) s
    ((s.setReg (Adr.GNS_CH_BITS c) (BitVec.ofNat 32 (2 * (s.reg (Adr.GNS_CH_BITS c)).toNat + b2n neg))).wrap
      (Fld.GNS_CH_BITCNT_COUNT c) 1)

end Sys2Proof.Machine
end

