-- ==== Sys2Proof/Machine/Power.lean ====
section
/-! DEFINITION. Power states (R461–R466), AVSBus (R480), the thermometer (R493) and the watchdog's count (R469). -/

namespace Sys2Proof.Machine

/-! ### Selection (R461–R463) -/

/-- Exit latency of state `n` in µs, for the cores (class 0) and the lanes (class 1) (R461). -/
def exitLatency (cls n : Nat) : Nat :=
  if n = 3 then 5000 else if n = 2 then (if cls = 0 then 50 else 2500) else if n = 1 ∧ cls = 1 then 1 else 0

/-- State `n` meets every enabled entry of `PWR_LAT_TOL` (R462). -/
def State.tolerates (s : State) (n : Nat) : Bool :=
  (List.range 8).all fun i =>
    !s.fb (Fld.PWR_LAT_TOL_EN i) || decide (exitLatency (s.f (Fld.PWR_LAT_TOL_CLASS i)) n ≤ s.f (Fld.PWR_LAT_TOL_US i))

/-- Every released application core waits and no DMA channel is busy (R462). -/
def State.mayDoze (s : State) : Bool :=
  (List.range 4).all (fun c => !bitOf s.pwr.cores c || bitOf s.pwr.waiting c) &&
    (List.range 32).all fun c => !s.fb (Fld.DMA_STAT_BUSY c)

/-- The override in force (R463). -/
def State.powerWhy (s : State) : Nat :=
  if s.f Fld.SYS_START_STEP < 4 then 1 else if s.f Fld.PAR_STAT_TO_PHASE ≠ 0 then 2 else if s.role = 1 then 3 else 0

/-- The selection of R462; `doze` allows `DOZE`. -/
def State.powerPick (s : State) (doze : Bool) : Nat :=
  if s.tolerates 3 && (s.mayDoze && doze) then 3 else if s.tolerates 2 then 2 else if s.tolerates 1 then 1 else 0

/-- The state called for (R463). -/
def State.powerWant (s : State) (doze : Bool) : Nat :=
  if s.powerWhy = 0 then s.powerPick doze else if s.powerWhy = 3 then 2 else 0

/-! ### Changes (R464, R465) -/

/-- The lanes and the feature engine lose power: a pass in progress is lost, and no lane holds a job (R464). -/
def State.lanesDown (s : State) : State :=
  if s.fb Fld.PWR_STAT_LANES_ON then
    ({ s with gfe := { s.gfe with pass := none, map := none }
              lsc := { s.lsc with lane := List.replicate 96 {} } } : State).setF Fld.PWR_STAT_LANES_ON 0
  else s

/-- MAC `k` stops its link (R465, R349). -/
def State.ethDown (s : State) (k : Nat) : State :=
  if s.fb (Fld.ETH_LINK_UP k) then
    ((s.setF (Fld.ETH_LINK_UP k) 0).setF (Fld.ETH_LINK_AN_DONE k) 0).raise (Ev.ETH_ERR k)
  else s

/-- What entry to `DOZE` does (R465); DRAM goes into self-refresh (R430). -/
def State.dozeIn (s : State) : State :=
  let t := (forUp 4 (fun k t => t.ethDown k) ((s.wrap Fld.PWR_DOZE_CNT_COUNT 1).setF Fld.DRC_STAT_SELF_REF 1)).canCutAll
  if t.dev.gnss then
    forUp 2 (fun i t => if t.fb (Fld.GNS_AGC_CLK_OK i) then doIfDown t i else t) t
  else t

/-- The state in force becomes `n` (R464, R465, R478). -/
def State.applyPower (s : State) (n : Nat) : State :=
  let s0 : State := { s with pwr := { s.pwr with pendingDown := none } }
  if s.f Fld.PWR_STAT_STATE = n then s0
  else
    let t := ((s0.setF Fld.PWR_STAT_STATE n).setF Fld.PWR_STAT_CORES_FULL (b2n (decide (n ≤ 1)))).raise Ev.PWR_STATE_CHANGED
    let t1 := if 2 ≤ n then t.lanesDown else t
    if n = 3 then t1.dozeIn else t1

/-- The selected state is re-evaluated (R462–R464): a change that stops the lanes waits for the next B0 edge while beats run, and
a decision to stay up cancels it. Leaving `DOZE` is `DOZE_EXIT`. -/
def State.powerStep (s : State) : State :=
  let old := s.f Fld.PWR_STAT_STATE
  let want := s.powerWant true
  if old = 3 then s
  else if old < 2 ∧ 2 ≤ want ∧ s.running = true then { s with pwr := { s.pwr with pendingDown := some want } }
  else s.applyPower want

/-- A waiting change takes effect at the B0 edge (R464). -/
def State.powerB0 (s : State) : State :=
  match s.pwr.pendingDown with
  | none => s
  | some _ => s.applyPower (s.powerWant true)

/-- An application core's interrupt input is asserted (R24, R465). -/
def State.coreInterrupt (s : State) : Bool := (List.range 4).any s.interrupt

/-- The cores in their wait state are `w` from now on (R462). -/
def State.setWaiting (s : State) (w : Nat) : State := { s with pwr := { s.pwr with waiting := w } }

/-- The exit from `DOZE` (R465); each CAN controller resumes with its queue. -/
def State.dozeExit (s : State) (w : Nat) : State :=
  let t := s.setWaiting w
  if t.coreInterrupt ∨ t.powerWant true ≠ 3 then
    ((t.applyPower (t.powerWant false)).setF Fld.DRC_STAT_SELF_REF 0).canKickAll.raise Ev.PWR_WAKE
  else t

/-- Every lane and the feature engine are powered again, with cleared memories (R425, R464, R335). -/
def State.lanesUp (s : State) : State :=
  let t := if s.fb Fld.PWR_STAT_LANES_ON then s
    else ((s.clearMem 0x2000_0000 0x2180_0000).clearMem 0x3000_0000 0x3040_0000).setF Fld.PWR_STAT_LANES_ON 1
  if 2 ≤ t.role then t.setF Fld.PAR_STAT_LANES_UP 1 else t

/-! ### `OFF` (R466) -/

/-- The flash manager completes the units it has been handed. -/
def State.drainUnits : Nat → State → State
  | 0, s => s
  | n + 1, s => State.drainUnits n (if s.lgr.units.isEmpty then s else s.unitWritten true)

/-- The device has power or not. -/
def State.lights (s : State) (on : Bool) : State := { s with pwr := { s.pwr with on := on } }

/-- Everything but the power sequencer loses power, and every torque-off line de-energises (R466, R482). -/
def State.powerOff (s : State) : State :=
  (s.setLines 0).lights false

/-- A write of `PWR_OFF` (R466). -/
def doPowerOff (s : State) (v : Word) : State :=
  if v.toNat % 65536 ≠ 0x0FF0 then s.ok
  else if s.safPhase ≠ 0 ∧ s.safPhase ≠ 1 ∧ s.safPhase ≠ 4 then (s.setF Fld.PWR_STAT_OFF_REF 1).ok
  else
    let t := s.flushCurrent
    (State.drainUnits t.lgr.units.length t).ok.powerOff

/-! ### AVSBus (R480) -/

/-- The voltage command of the frame: at most one change of at most 10 mV; the device chooses the value, which is free here. -/
def State.avsStep (s : State) : State :=
  if s.fb Fld.PWR_AVS_FIXED then s
  else
    let old := s.f Fld.PWR_AVS_CMD_MV
    let v := (clampI 720 900 (Int.ofNat old + (Int.ofNat (s.free % 21) - 10))).toNat
    let t := s.draw
    if v = old then t else (t.setF Fld.PWR_AVS_CMD_MV v).send .avs 0 (leBytes 2 v)

/-- A transaction ends: `ok` with the voltage read back, or failed (R480). -/
def State.avsEnd (s : State) (ok : Bool) (mv : Nat) : State :=
  if ok then ({ s with pwr := { s.pwr with avsFails := 0 } } : State).setF Fld.PWR_AVS_READ_MV mv
  else
    let n := s.pwr.avsFails + 1
    let t : State := { s with pwr := { s.pwr with avsFails := n } }
    if 3 ≤ n ∧ s.fb Fld.PWR_AVS_FIXED = false then
      (((t.setF Fld.PWR_AVS_FIXED 1).setF Fld.PWR_AVS_CMD_MV 900).send .avs 0 (leBytes 2 900)).raise Ev.PWR_AVS_FAIL
    else t

/-! ### Temperature (R493) -/

/-- `PWR_THERM` of this frame: `tj` in 1/16 °C. -/
def State.therm (s : State) (tj : Int) : State :=
  let lim := Int.ofNat (min 105 (max 60 (s.f Fld.PWR_THERM_LIMIT)))
  let t := s.setF Fld.PWR_THERM_TJ (uns 16 tj)
  let was := s.fb Fld.PWR_THERM_WARN
  let warn := decide (16 * lim ≤ tj) || (was && decide (16 * (lim - 5) ≤ tj))
  let t1 := t.setF Fld.PWR_THERM_WARN (b2n warn)
  if warn && !was then t1.raise Ev.PWR_THERM_WARN else t1

/-! ### Watchdog (R469) -/

/-- A write of `SYS_WDT_KICK`. -/
def doKick (s : State) (v : Word) : State :=
  (if v.toNat % 65536 = 0xC0DE then ({ s with pwr := { s.pwr with wdtHalf := false } } : State) else s).ok

/-- The watchdog counts: enabled, and not in `DOZE`. -/
def State.wdtCounts (s : State) : Bool := s.fb Fld.SYS_WDT_CFG_EN && s.f Fld.PWR_STAT_STATE != 3

/-! ### The commands -/

/-- `POWER_STATE_CHANGE`: `waiting`, the application cores in their wait state, bit c core c. -/
def execPowerStateChange (waiting : Nat) (s : State) : Out := live s (s.setWaiting waiting).powerStep

/-- `LANES_ON`. -/
def execLanesOn (s : State) : Out := liveIf (decide (s.f Fld.PWR_STAT_STATE ≤ 1)) s s.lanesUp

/-- `DOZE_EXIT`: `waiting` as in `POWER_STATE_CHANGE`. -/
def execDozeExit (waiting : Nat) (s : State) : Out := liveIf (s.f Fld.PWR_STAT_STATE == 3) s (s.dozeExit waiting)

/-- `POWER_OFF`: a write of `v` to `PWR_OFF`. -/
def execPowerOff (v : Word) (s : State) : Out := live s (doPowerOff s v)

/-- `AVS_TRANSACTION_END`. -/
def execAvsTransactionEnd (ok : Bool) (mv : Nat) (s : State) : Out := live s (s.avsEnd ok mv)

/-- `WATCHDOG_KICK`: a write of `v` to `SYS_WDT_KICK`. -/
def execWatchdogKick (v : Word) (s : State) : Out := live s (doKick s v)

/-- `WDT_WARN`: half of `MS` has passed without a restart. -/
def execWdtWarn (s : State) : Out :=
  liveIf (s.wdtCounts && !s.pwr.wdtHalf) s (({ s with pwr := { s.pwr with wdtHalf := true } } : State).raise Ev.SYS_WDT_WARN)

/-- VAON is out of range (R482). -/
def State.vaonOut (s : State) : State := { s with pwr := { s.pwr with vaon := false } }

/-- `VAON_LOSS` (R482, R301). -/
def execVaonLoss (s : State) : Out :=
  .next (if s.pwr.on then s.powerOff else s).vaonOut

end Sys2Proof.Machine
end

