-- ==== Sys2Proof/Machine/Uart.lean ====
section
/-! DEFINITION. The UARTs (R368–R370): receive FIFO, stamps and transmission. -/

namespace Sys2Proof.Machine

/-- UART `u`. -/
def State.uartOf (s : State) (u : Nat) : UartSt := s.uart.getD u {}

/-- Replace UART `u`, keeping the fill levels of `UAT_STAT` true. -/
def State.setUart (s : State) (u : Nat) (x : UartSt) : State :=
  ((({ s with uart := setNth s.uart u x } : State).setF (Fld.UAT_STAT_RX_FILL u) x.rx.length).setF
    (Fld.UAT_STAT_ST_FILL u) x.stamps.length).setF (Fld.UAT_STAT_TX_FREE u) (255 - x.tx.length)

/-- UART `u` is enabled. -/
def State.uartOn (s : State) (u : Nat) : Bool := s.works (20 + u) && s.fb (Fld.UAT_CFG_EN u)

/-- A counted loss (R370). -/
def State.uartLost (s : State) (u : Nat) : State :=
  (s.stick (Fld.UAT_CNT_LOST u) (Fld.UAT_FLAGS_LOST_SAT u) 1).raise (Ev.UAT_ERR u)

/-- The word of a received character in `UAT_RX` format, without `VALID` (R369, R370). -/
def State.uartWord (s : State) (u c : Nat) (framing parity brk : Bool) : Nat :=
  let d := if s.fb (Fld.UAT_CFG_DATA7 u) then c % 128 else c % 256
  let sos := d == s.f (Fld.UAT_CFG_SOS1 u) || d == s.f (Fld.UAT_CFG_SOS2 u)
  d + 2 ^ 8 * b2n parity + 2 ^ 9 * b2n framing + 2 ^ 10 * b2n brk + 2 ^ 11 * b2n (sos && !brk)

/-- A character `c` arrives; its start bit fell `back` ns ago (R369, R370). -/
def doUartRx (s : State) (u c : Nat) (framing parity brk : Bool) (back : Nat) : State :=
  let x := s.uartOf u
  if 1024 ≤ x.rx.length then s.uartLost u
  else
    let w := s.uartWord u c framing parity brk
    let sos := bitOf w 11
    let idx := s.f (Fld.UAT_RXCHARS_COUNT u)
    let room := decide (x.stamps.length < 32)
    let st := if sos && room then x.stamps ++ [(uns 64 (Int.ofNat s.now - Int.ofNat back), idx)] else x.stamps
    let s1 := (s.setUart u { x with rx := x.rx ++ [w], stamps := st }).wrap (Fld.UAT_RXCHARS_COUNT u) 1
    let s2 := if sos && !room then s1.uartLost u else s1
    let s3 := if framing || (parity || brk) then
      (s2.stick (Fld.UAT_CNT_ERR u) (Fld.UAT_FLAGS_ERR_SAT u) 1).raise (Ev.UAT_ERR u) else s2
    if sos || decide (x.rx.length + 1 = 512) then s3.raise (Ev.UAT_RX u) else s3

/-- A read of `UAT_RX`: the oldest character, removed, with `VALID`; of an empty FIFO the data bits are free (R369). -/
def State.uartPop (s : State) (u : Nat) : State × Word :=
  let x := s.uartOf u
  match x.rx with
  | [] => (s.draw, BitVec.ofNat 32 (s.free % 2 ^ 12))
  | w :: ws => (s.setUart u { x with rx := ws }, BitVec.ofNat 32 (2 ^ 31 + w))

/-- `UAT_RX` is a receive-data register of R63. -/
def doUartPop (s : State) (m u : Nat) : State :=
  let (t, w) := (s.noteSrc m 1 u).uartPop u
  t.ansW w

/-- A read of `UAT_STAMP_LO` (R369): of an empty FIFO the value is free. -/
def doUartStamp (s : State) (m u : Nat) : State :=
  let s0 := s.noteSrc m 1 u
  let x := s0.uartOf u
  match x.stamps with
  | [] => s0.draw.ansW (BitVec.ofNat 32 s0.free)
  | (t, i) :: r =>
    (((s0.setUart u { x with stamps := r }).setPair (Adr.UAT_STAMP_LO u) (Adr.UAT_STAMP_HI u) t).setReg
      (Adr.UAT_STAMP_IDX u) (BitVec.ofNat 32 i)).ansW (BitVec.ofNat 32 t)

/-- A write of `UAT_TX`: ignored when no place is free (R368). -/
def doUartTx (s : State) (u : Nat) (v : Word) : State :=
  let x := s.uartOf u
  (if x.tx.length < 255 then s.setUart u { x with tx := x.tx ++ [BitVec.ofNat 8 v.toNat] } else s).ok

/-- A write of `UAT_DIV` (R368). -/
def doUartDiv (s : State) (u : Nat) (v : Word) : State :=
  let d := v.toNat % 2 ^ 18
  (if s.locked (Adr.UAT_DIV u) then s
    else if 868 ≤ d ∧ d ≤ 166667 then s.setF (Fld.UAT_DIV_DIV u) d else s.setF (Fld.UAT_FLAGS_DIV_REF u) 1).ok

/-- A character leaves `UART_TX` (R368). -/
def doUartSent (s : State) (u : Nat) : State :=
  let x := s.uartOf u
  match x.tx with
  | [] => s
  | c :: cs =>
    (s.setUart u { x with tx := cs }).send .uart u
      [if s.fb (Fld.UAT_CFG_DATA7 u) then BitVec.ofNat 8 (c.toNat % 128) else c]

/-- `UART_RX_POP`. -/
def execUartRxPop (m u : Nat) (s : State) : Out := liveIf (decide (u < 8)) s (doUartPop s m u)

/-- `UART_STAMP_POP`. -/
def execUartStampPop (m u : Nat) (s : State) : Out := liveIf (decide (u < 8)) s (doUartStamp s m u)

/-- `UART_TX_WRITE`. -/
def execUartTxWrite (u : Nat) (v : Word) (s : State) : Out := liveIf (decide (u < 8)) s (doUartTx s u v)

/-- `UART_DIV_WRITE`. -/
def execUartDivWrite (u : Nat) (v : Word) (s : State) : Out := liveIf (decide (u < 8)) s (doUartDiv s u v)

/-- `UART_CHAR_SENT`. -/
def execUartCharSent (u : Nat) (s : State) : Out := liveIf (decide (u < 8) && s.uartOn u) s (doUartSent s u)

end Sys2Proof.Machine
end

