-- ==== Sys2Proof/Machine/Views.lean ====
section
/-! DEFINITION. What a read of a register page returns (R7, R9, R495–R502): stored registers, and the registers that show the
device's state. A read never fails here; the checks before it are in Machine/Fabric.lean. -/

namespace Sys2Proof.Machine

/-! ### Header words (R497, R498) -/

/-- `xxx_IDENT` of page `p`. -/
def identWord (p : Nat) : Nat :=
  let t := pageTarget p
  let ty := if p = 151 then 26 else if p = 152 then 27 else t.1
  ty * 2 ^ 24 + 2 ^ 16 + t.2 * 256 + p

/-- Work is in progress in the block of page `p`. -/
def State.pageBusy (s : State) (p : Nat) : Bool :=
  let q := blockPage p
  if s.inReset p then true
  else if q = 143 then (List.range 32).any fun c => s.fb (Fld.DMA_STAT_BUSY c)
  else if q = 145 then !s.mm.march.isEmpty
  else if q = 147 then s.nfc.req.isSome || s.f Fld.NFC_STAT_STATE == 1
  else if q = 148 then s.lgr.xtr
  else if q = 41 then s.gfe.pass.isSome
  else if q = 42 then s.asm.chk.isSome
  else if q = 44 then (List.range 96).any fun l => s.lanePhase l != 0
  else if 47 ≤ q ∧ q < 143 then s.lanePhase (q - 47) != 0
  else false

/-- `xxx_STATUS` of page `p`: the block fields (FIO), `QUIET` and `BUSY`. -/
def State.statusOf (s : State) (p : Nat) : Nat :=
  let quiet := p != 143 || (s.quiesced p || !s.pageBusy p)
  (s.reg (hdr p 3) &&& 0xE0000000).toNat + 2 * b2n quiet + b2n (s.pageBusy p)

/-- The header word `o` of page `p`. -/
def State.headWord (s : State) (p o : Nat) : Word :=
  if o = 0 then BitVec.ofNat 32 (identWord p)
  else if o = 1 then BitVec.ofNat 32 (2 ^ 28 + (if p = 0 then b2n s.dev.gnss else 0))
  else if o = 2 then s.reg (hdr p 2) ||| (if fixedPage p then 4 else if s.inReset p then 1 else 0)
  else if o = 3 then BitVec.ofNat 32 (s.statusOf p)
  else if o = 6 then 0
  else s.reg (hdr p o)

/-! ### Registers that show state -/

/-- Whether a field's bits read as written (R9): `WO` reads 0. -/
def readMask (a : Nat) : Nat :=
  (fieldsOf a).foldl (fun m r => if r.ty = .wo then m else putBits m r.hi r.lo (2 ^ (r.hi + 1 - r.lo) - 1)) 0

/-- A register as R9 reads it: shadow bits of RWS fields, current bits of the others. -/
def State.plainRead (s : State) (a : Nat) : Word :=
  let k := BitVec.ofNat 32 (rwsMask a)
  ((s.reg a &&& ~~~k) ||| (s.sh a &&& k)) &&& BitVec.ofNat 32 (readMask a)

/-- Low and high word of a 64-bit value. -/
def halfWord (x i : Nat) : Word := BitVec.ofNat 32 (x / 2 ^ (32 * i))

/-- A field put into a word. -/
def withField (w : Word) (r : RF) (v : Nat) : Word := BitVec.ofNat 32 (putBits w.toNat r.hi r.lo v)

/-- PWR, EVT, FWL. -/
def State.viewSys (s : State) (a : Nat) (w : Word) : Word :=
  if a = Adr.PWR_STAT then withField w Fld.PWR_STAT_WHY s.powerWhy
  else if Adr.EVT_PEND 0 ≤ a ∧ a < Adr.EVT_PEND 16 then
    let k := a - Adr.EVT_PEND 0
    BitVec.ofNat 32 ((List.range 32).foldl (fun m j => if s.asserted (32 * k + j) then m + 2 ^ j else m) 0)
  else if a = Adr.FWL_STAT then
    withField (withField w Fld.FWL_STAT_CLAIMED (b2n s.claimed)) Fld.FWL_STAT_VALID_RULES s.validRules
  else w

/-- LCS (R452, R460). -/
def State.viewLcs (s : State) (a : Nat) (w : Word) : Word :=
  if a = Adr.LCS_STATE then
    (withField w Fld.LCS_STATE_STATE s.lcs.state) ||| BitVec.ofNat 32 (8 * b2n s.lcs.secret.isSome +
      4 * b2n s.lcs.lgrHash.isSome + 2 * b2n s.lcs.cfgHash.isSome + b2n s.lcs.custHash.isSome)
  else if a = Adr.LCS_UID_LO then halfWord s.lcs.uid.toNat 0
  else if a = Adr.LCS_UID_HI then halfWord s.lcs.uid.toNat 1
  else if Adr.LCS_SECRET 0 ≤ a ∧ a < Adr.LCS_SECRET 8 then
    if s.lcs.state = 2 ∨ s.lcs.state = 3 then BitVec.ofNat 32 (leAt (s.lcs.secret.getD []) (4 * (a - Adr.LCS_SECRET 0)) 4) else 0
  else w

/-- TIM (R356–R364). -/
def State.viewTim (s : State) (a : Nat) (w : Word) : Word :=
  if a = Adr.TIM_STAT then
    withField (withField w Fld.TIM_STAT_SLEWING (b2n (decide (s.tim.slew ≠ 0)))) Fld.TIM_STAT_TP_CODE s.tpCode
  else if a = Adr.TIM_EPOCH_LO then halfWord s.tim.epoch 0
  else if a = Adr.TIM_EPOCH_HI then halfWord s.tim.epoch 1
  else if a = Adr.TIM_OFS_LO then halfWord s.tim.ofs 0
  else if a = Adr.TIM_OFS_HI then halfWord s.tim.ofs 1
  else if a = Adr.TIM_SLEW then BitVec.ofNat 32 (uns 32 s.tim.slew)
  else w

/-- LAN (R219): within a job, phase and iteration are free (the model gives a job no inner time). -/
def State.viewLan (s : State) (l o : Nat) (w : Word) : Word :=
  if o = 8 then
    let ph := s.lanePhase l
    let work := decide (2 ≤ ph) && decide (ph ≤ 5)
    let kind := match (s.laneOf l).job with
      | some j => if ph = 0 then 7 else dKind (s.desc j)
      | none => 7
    BitVec.ofNat 32 ((if work then 2 + s.free % 4 else ph) * 2 ^ 29 + b2n (s.laneOut l) * 2 ^ 28 + kind % 8 * 2 ^ 25 +
      (if work then s.free / 4 % 2 ^ 16 else 0))
  else w

/-- LSC: the job list of R189. -/
def State.viewJobs (s : State) (a : Nat) (w : Word) : Word :=
  let o := a % 1024
  if o < 64 then w
  else
    let j := (o - 64) / 16 + (if a / 1024 = 46 then 60 else 0)
    if (a / 1024 = 45 ∧ 60 ≤ j) ∨ 98 ≤ j then w else BitVec.ofNat 32 (leAt (s.desc j) (4 * ((o - 64) % 16)) 4)

/-- CAN8, GNS, FLT, CLE. -/
def State.viewIo (s : State) (a : Nat) (w : Word) : Word :=
  if a = Adr.CAN_TS then BitVec.ofNat 32 (s.canTs 0)
  else
    match (List.range 8).find? fun i => a == Adr.GNS_NOTCH (i / 4) (i % 4) with
    | some i =>
      if s.fb (Fld.GNS_NOTCH_ACTIVE (i / 4) (i % 4)) then withField w (Fld.GNS_NOTCH_FREQ (i / 4) (i % 4)) (uns 24 (s.notchOf (i / 4) (i % 4)).centre)
      else w
    | none => w

/-- A CLE slot page: `HELD`, and the high half of I64 latched by the last read of the low half (R238, R239). -/
def State.viewSlot (s : State) (a : Nat) (w : Word) : Word :=
  let n := (a / 1024 - 29) * 32 + (a % 1024 - 64) / 24
  if a % 1024 < 64 ∨ 64 + 32 * 24 ≤ a % 1024 then w
  else if a = Adr.CLE_SLOT_STAT n then withField w (Fld.CLE_SLOT_STAT_HELD n) (s.f (Fld.CLE_SLOT_CTRL_WLOCK n))
  else if a = Adr.CLE_SLOT_IST_HI n then
    match (s.slotOf n).ist with
    | some x => BitVec.ofNat 32 x
    | none => w
  else w

/-- NFC, LGR. -/
def State.viewStore (s : State) (a : Nat) (w : Word) : Word :=
  if a = Adr.NFC_STAT then withField w Fld.NFC_STAT_DAY s.day
  else if a = Adr.LGR_OLD_LO then halfWord s.tillOld 0
  else if a = Adr.LGR_OLD_HI then halfWord s.tillOld 1
  else if a = Adr.LGR_RING_OLD_LO then halfWord s.ringOld 0
  else if a = Adr.LGR_RING_OLD_HI then halfWord s.ringOld 1
  else if a = Adr.LGR_VAULT_FIRST_LO then halfWord s.lgr.vFirst 0
  else if a = Adr.LGR_VAULT_FIRST_HI then halfWord s.lgr.vFirst 1
  else if a = Adr.LGR_VAULT_LAST_LO then halfWord s.lgr.vLast 0
  else if a = Adr.LGR_VAULT_LAST_HI then halfWord s.lgr.vLast 1
  else if a = Adr.LGR_VAULT_STAT then BitVec.ofNat 32 (s.lgr.vState * 2 ^ 30 + s.lgr.vault.length)
  else if a = Adr.LGR_STAGE then BitVec.ofNat 32 (b2n (!s.lgr.units.isEmpty) * 2 ^ 31 + min 16384 s.lgr.unflushed.length)
  else if a = Adr.LGR_XTR_CTRL then withField w Fld.LGR_XTR_CTRL_BUSY (b2n s.lgr.xtr)
  else w

/-- A strongbox image waits among the queued datagrams, or is being received (R55, R59): bytes 6–7 of a datagram's payload, at
offset 42 of its frame, give the kind. -/
def State.fullBusy (s : State) : Bool :=
  (s.rpl.tx.any fun f => f.any fun d => leAt d 48 2 == 2) || s.rpl.got.any fun m => m.kind == 2

/-- PAR (R345), CMD (R60, R61). -/
def State.viewPair (s : State) (a : Nat) (w : Word) : Word :=
  let pub := s.frm.latched.getD (s.frm.pubFrame, s.frm.pubStat, s.frm.pubDigest)
  if a = Adr.PAR_CFG then withField w Fld.PAR_CFG_UNIT s.dev.unit
  else if a = Adr.PAR_STAT then withField w Fld.PAR_STAT_ELIGIBLE (b2n s.eligible)
  else if a = Adr.PAR_FLASH then
    withField w Fld.PAR_FLASH_AGE (match s.par.flashAt with
      | some t => min 65535 ((s.tim.raw - t) / 1000000000)
      | none => 65535)
  else if a = Adr.CMD_FRM_STAT_LO then halfWord pub.2.1 0
  else if a = Adr.CMD_FRM_STAT_HI then halfWord pub.2.1 1
  else if a = Adr.CMD_FRM_NUM_LO then halfWord s.frm.pubFrame 0
  else if a = Adr.CMD_FRM_NUM_HI then halfWord pub.1 1
  else if a = Adr.CMD_DIGEST_LO then halfWord pub.2.2 0
  else if a = Adr.CMD_DIGEST_HI then halfWord pub.2.2 1
  else if a = Adr.CMD_RPL_CTRL then withField w Fld.CMD_RPL_CTRL_FULL_REQ (b2n s.rpl.fullDue)
  else if a = Adr.CMD_RPL_STAT then
    withField (withField w Fld.CMD_RPL_STAT_BACKLOG s.rpl.tx.length) Fld.CMD_RPL_STAT_FULL_BUSY (b2n s.fullBusy)
  else w

/-- `SAF_STATE.PHASE` as it reads (R287). -/
def State.viewSaf (s : State) (a : Nat) (w : Word) : Word :=
  if a = Adr.SAF_STATE then withField w Fld.SAF_STATE_PHASE s.safPhase else w

/-- What the register word at `a` reads as, without the effects of the read; an offset that no register occupies reads 0 (R495),
and on an FH9600-AN so does every GNS word (R2). -/
def State.view (s : State) (a : Nat) : Word :=
  let p := a / 1024
  if !s.pageOk p then 0
  else if a % 1024 < 8 then s.headWord p (a % 1024)
  else
    let w := s.plainRead a
    if p < 4 then s.viewSys a w
    else if p = 4 then s.viewLcs a w
    else if p = 6 then s.viewTim a w
    else if p = 29 ∨ p = 30 then s.viewSlot a w
    else if p = 19 ∨ p = 33 then s.viewIo a w
    else if p = 45 ∨ p = 46 then s.viewJobs a w
    else if 47 ≤ p ∧ p < 143 then s.viewLan (p - 47) (a % 1024) w
    else if p = 147 ∨ p = 148 then s.viewStore a w
    else if p = 149 ∨ p = 150 then s.viewPair a w
    else if p = 152 then s.viewSaf a w
    else w

/-- A read as a state whose answer is the word. -/
def State.readPlain (s : State) (a : Nat) : State := s.ansW (s.view a)

/-- The reads that have an effect: `EVT_CLAIM` (R25), the latching low words (R60, R239, R360), the nonces (R388, R453), the UART's
FIFOs (R369), the live sources (R53, R63, R126), and a free value that is read. The answer holds the word. -/
def State.pageRead (s : State) (m a : Nat) : State :=
  let p := a / 1024
  let o := a % 1024
  if p = 2 ∧ 576 ≤ o ∧ o < 586 ∧ o % 2 = 0 then doEvtClaim s ((o - 576) / 2)
  else if a = Adr.LCS_NONCE_LO then doLcNonce s
  else if a = Adr.TIM_NOW_LO then doTimeNow s
  else if a = Adr.LGR_NONCE_LO then doLgrNonce s
  else if a = Adr.CMD_FRM_NUM_LO then
    State.readPlain { s with frm := { s.frm with latched := some (s.frm.pubFrame, s.frm.pubStat, s.frm.pubDigest) } } a
  else if 20 ≤ p ∧ p < 28 ∧ o = 11 then doUartPop s m (p - 20)
  else if 20 ≤ p ∧ p < 28 ∧ o = 13 then doUartStamp s m (p - 20)
  else if (p = 29 ∨ p = 30) ∧ 64 ≤ o ∧ o < 832 ∧ (o - 64) % 24 = 20 then
    let n := (p - 29) * 32 + (o - 64) / 24
    (s.setSlot n { s.slotOf n with ist := some (s.reg (Adr.CLE_SLOT_IST_HI n)).toNat }).readPlain a
  else if 47 ≤ p ∧ p < 143 ∧ o = 8 then (s.readPlain a).draw
  else if (p = 35 ∨ p = 36) ∧ 64 ≤ o then (s.noteLive m).readPlain a
  else if p = 39 ∧ 64 ≤ o ∧ o < 576 then (s.noteLive m).readPlain a
  else if 11 ≤ p ∧ p < 19 ∧ ((64 ≤ o ∧ o < 244)) then (s.noteSrc m 2 (p - 11)).readPlain a
  else s.readPlain a

end Sys2Proof.Machine
end

