-- ==== Sys2Proof/Machine/Dma.lean ====
section
/-! DEFINITION. The DMA channels (R431–R437): starting, stopping, halting, bus errors, completion. The bytes themselves are moved in
Machine/Move.lean. -/

namespace Sys2Proof.Machine

/-- The master identity of channel `c` (R431). -/
def dmaMaster (c : Nat) : Nat := 8 + c / 4

/-- Source, destination and next address of channel `c`. -/
def State.dmaSrc (s : State) (c : Nat) : Nat := s.pair (Adr.DMA_SRC_LO c) (Adr.DMA_SRC_HI c)
def State.dmaDst (s : State) (c : Nat) : Nat := s.pair (Adr.DMA_DST_LO c) (Adr.DMA_DST_HI c)
def State.dmaNext (s : State) (c : Nat) : Nat := s.pair (Adr.DMA_NEXT_LO c) (Adr.DMA_NEXT_HI c)

/-- Channel `c` is busy. -/
def State.dmaBusy (s : State) (c : Nat) : Bool := s.fb (Fld.DMA_STAT_BUSY c)

/-- Set a 40-bit address pair. -/
def State.setAddr (s : State) (lo hi x : Nat) : State := s.setPair lo hi (x % 2 ^ 40)

/-- The UART that paces channel `c` (R433). -/
def State.dmaPace (s : State) (c : Nat) : Option Nat :=
  let p := s.f (Fld.DMA_CTRL_PACE c)
  if 1 ≤ p ∧ p ≤ 8 then some (p - 1) else none

/-- The words held of channel `c`'s running transfer. -/
def State.dmaHeld (s : State) (c : Nat) : List Byte := spGet (fun _ => []) s.dma.held c

/-- Hold words of channel `c`. -/
def State.setHeld (s : State) (c : Nat) (b : List Byte) : State :=
  { s with dma := { s.dma with held := spSet (fun _ => []) s.dma.held c b } }

/-- Channel `c` is no longer busy and reads `ERR` `e`. -/
def State.dmaEnd (s : State) (c e : Nat) : State :=
  let t : State := { s with dma := { stopping := s.dma.stopping.filter (· ≠ c), held := spErase s.dma.held c } }
  (t.setF (Fld.DMA_STAT_BUSY c) 0).setF (Fld.DMA_STAT_ERR c) e

/-- Every busy channel is stopped at once: its address and count registers are undefined (R436, R437). -/
def State.dmaStopAll (s : State) (e : Nat) : State :=
  forUp 32 (fun c t =>
    if t.dmaBusy c then
      let u := (t.dmaEnd c e).setAddr (Adr.DMA_SRC_LO c) (Adr.DMA_SRC_HI c) t.free
      let v := u.draw.setAddr (Adr.DMA_DST_LO c) (Adr.DMA_DST_HI c) u.draw.free
      v.draw.setF (Fld.DMA_COUNT_BYTES c) v.draw.free
    else t) s

/-- An error response to a channel group (R437). -/
def State.dmaBusErr (s : State) (a : Nat) (r : Rsp) : State :=
  let t := s.dmaStopAll 2
  let u := if s.fb Fld.DMA_GLOBAL_BUS_ERR then t
    else ((t.setF Fld.DMA_ERR_ADDR_LO_ADDR a).setF Fld.DMA_ERR_ADDR_HI_ADDR (a / 2 ^ 32)).setF Fld.DMA_ERR_ADDR_HI_CODE (rspCode r)
  (u.setF Fld.DMA_GLOBAL_BUS_ERR 1).raise Ev.DMA_BUS_ERR

/-- Two ranges of `n` bytes overlap in the memory they view (R434). -/
def overlaps (a b n : Nat) : Bool := decide (viewed a < viewed b + n) && decide (viewed b < viewed a + n)

/-- Why a start is refused (R434): 4 misalignment, 1 overlap, 0 not. -/
def State.dmaRefused (s : State) (c : Nat) : Nat :=
  let n := s.f (Fld.DMA_COUNT_BYTES c)
  if s.dmaSrc c % 4 ≠ 0 ∨ s.dmaDst c % 4 ≠ 0 ∨ n % 4 ≠ 0 then 4
  else if s.fb (Fld.DMA_CTRL_SRC_INC c) && (s.fb (Fld.DMA_CTRL_DST_INC c) && (!s.fb (Fld.DMA_CTRL_MOVE c) &&
    overlaps (s.dmaSrc c) (s.dmaDst c) n)) then 1
  else 0

/-- A transfer begins or is refused (R431, R434). -/
def State.dmaBegin (s : State) (c : Nat) : State :=
  let e := s.dmaRefused c
  if e ≠ 0 then (s.dmaEnd c e).raise Ev.DMA_ERR
  else (s.setF (Fld.DMA_STAT_BUSY c) 1).setF (Fld.DMA_STAT_ERR c) 0

/-- The registers of channel `c` take a descriptor (R432). -/
def State.dmaLoad (s : State) (c : Nat) (d : List Byte) : State :=
  let t := ((s.setAddr (Adr.DMA_SRC_LO c) (Adr.DMA_SRC_HI c) (leAt d 0 5)).setAddr (Adr.DMA_DST_LO c) (Adr.DMA_DST_HI c)
    (leAt d 8 5)).setAddr (Adr.DMA_NEXT_LO c) (Adr.DMA_NEXT_HI c) (leAt d 24 5)
  (t.setF (Fld.DMA_COUNT_BYTES c) (leAt d 16 3)).setReg (Adr.DMA_CTRL c) (BitVec.ofNat 32 (leAt d 20 4) &&& 0x3E1F0000)

/-- The next descriptor is read and begun (R432). -/
def State.dmaChain (s : State) (c : Nat) : State :=
  let r := s.mRead (dmaMaster c) (s.dmaNext c) 32
  if r.rsp = .okay then (r.st.dmaLoad c r.data).dmaBegin c else r.st.dmaBusErr (s.dmaNext c) r.rsp

/-- Descriptor completion (R432): `DONE`, `DESCS`, and the next descriptor with `LINK`. -/
def State.dmaComplete (s : State) (c : Nat) : State :=
  let t := ((s.dmaEnd c 0).setF (Fld.DMA_STAT_DONE c) 1).wrap (Fld.DMA_STAT_DESCS c) 1
  let u := if s.fb (Fld.DMA_CTRL_IRQ c) then t.raise Ev.DMA_DONE else t
  if s.fb (Fld.DMA_CTRL_LINK c) then u.dmaChain c else u

/-- A write of `START` (R431): ignored while the channel is busy, while `HALT` or `BUS_ERR` is 1, and while the block starts no work; a
transfer of 0 bytes completes at once. -/
def State.dmaStart (s : State) (c : Nat) : State :=
  if s.dmaBusy c ∨ s.fb Fld.DMA_GLOBAL_HALT ∨ s.fb Fld.DMA_GLOBAL_BUS_ERR ∨ s.works 143 = false then s
  else
    let t := s.dmaBegin c
    if t.dmaBusy c = true ∧ t.f (Fld.DMA_COUNT_BYTES c) = 0 then t.dmaComplete c else t

/-- A write of `STOP` (R435). -/
def State.dmaStop (s : State) (c : Nat) : State :=
  if s.dmaBusy c && !s.dma.stopping.contains c then
    { s with dma := { s.dma with stopping := s.dma.stopping ++ [c] } }
  else s

/-- A write of `v` to `DMA_CTRL[c]`. -/
def doDmaCtrl (s : State) (c : Nat) (v : Word) : State :=
  let t := if s.dmaBusy c then s else s.setReg (Adr.DMA_CTRL c) (v &&& 0x3E1F0000)
  let t1 := if bitOf v.toNat 30 then t.dmaStop c else t
  (if bitOf v.toNat 31 then t1.dmaStart c else t1).ok

/-- A write of `v` to `DMA_GLOBAL` (R436, R437). -/
def doDmaGlobal (s : State) (v : Word) : State :=
  let t := if bitOf v.toNat 30 then s.setF Fld.DMA_GLOBAL_BUS_ERR 0 else s
  let t1 := t.setF Fld.DMA_GLOBAL_HALT (bitsOf v.toNat 31 31)
  (if bitOf v.toNat 31 then t1.dmaStopAll 3 else t1).ok

/-- A write to an address, count or link register of channel `c`: ignored while it is busy (R431). -/
def doDmaReg (s : State) (c a : Nat) (v : Word) : State :=
  (if s.dmaBusy c then s else s.setReg a (v &&& BitVec.ofNat 32 (readMask a))).ok

/-- The reaction of master `m` to an error response at `a` (R19): the DMA stops, an Ethernet port's DMA stops, and the shepherd core
takes it as a diagnostic failure; the other masters' reactions are in their own chapters. -/
def State.masterErr (s : State) (m a : Nat) (r : Rsp) : State :=
  if 8 ≤ m ∧ m < 16 then s.dmaBusErr a r
  else if 16 ≤ m ∧ m < 20 then s.ethBusErr (m - 16)
  else if m = 4 ∧ s.safOn = true then s.diagFail 5
  else s

end Sys2Proof.Machine
end

