-- ==== Sys2Proof/Machine/Reset.lean ====
section
/-! DEFINITION. Block resets (R29–R31) and device resets (R467, R468): what each of them resets and what survives. -/

namespace Sys2Proof.Machine

/-! ### Block resets -/

/-- Registers and shadows for which `p` holds go back to their reset values (R8). -/
def State.eraseRegs (s : State) (p : Nat → Bool) : State :=
  { s with regs := s.regs.filter fun e => !p e.1, shadow := s.shadow.filter fun e => !p e.1 }

/-- The pages whose `RESET` takes effect (R497; R2: the GNS pages only where fitted). -/
def State.resettable (s : State) (p : Nat) : Bool := s.pageOk p && !fixedPage p

/-- What ends before the block's registers are reset: a snapshot capture (R128), a lane's job (R218), a march (R426), the lanes'
state in memory (R218). -/
def State.beforeReset (s : State) (p : Nat) : State :=
  if p = 33 then
    match s.gns.snap with
    | some _ => s.snapEnd 4
    | none => s
  else if p = 44 then s.noVerdicts.noWarmStart
  else if 47 ≤ p ∧ p < 143 then s.laneReset (p - 47)
  else if p = 145 then
    s.mm.march.foldl (fun t m =>
      let r := marchRange m.target m.index
      ({ t with mm := { t.mm with march := t.mm.march.erase m } } : State).scramble r.1 r.2) s
  else s

/-- What the block of page `p` holds beside its registers, after a reset of it. -/
def State.hiddenReset (s : State) (p : Nat) : State :=
  if 7 ≤ p ∧ p < 11 then s.setEth (p - 7) {}
  else if 11 ≤ p ∧ p < 19 then s.setCan (p - 11) {}
  else if p = 19 then { s with staged := List.replicate 24 none }
  else if 20 ≤ p ∧ p < 28 then { s with uart := setNth s.uart (p - 20) {} }
  else if p = 28 then { s with cle := { stopReq := s.cle.stopReq } }
  else if p = 32 then { s with flt := {} }
  else if p = 33 then { s with gns := {} }
  else if p = 37 then { s with fus := {} }
  else if p = 41 then { s with gfe := {} }
  else if p = 42 then { s with asm := {} }
  else if p = 44 then { s with lsc := {} }
  else if p = 143 then { s with dma := {} }
  else if p = 150 then
    { s with rpl := {}, frm := { s.frm with latched := none, pubFrame := 0, pubStat := 0, pubDigest := 0 },
             cle := { s.cle with cand := none } }
  else if p = 151 then { s with fio := { s.fio with edges := [], hist := [] } }
  else s

/-- What the reset leaves to be set again: a held `SAFE_STOP` (R230, R240), `LSC_RHO_CUR` at `INIT` (R218), the flash manager's new mount
(R404), free queue places (R267), the field side's state (R281). -/
def State.afterReset (s : State) (p : Nat) (mode : Nat) (link di : Word) : State :=
  if p = 28 then s.setF Fld.CLE_MODE_CUR (if mode = 3 then 3 else 0)
  else if p = 44 then s.rhoInit
  else if p = 147 then s.nfcRestart
  else if 11 ≤ p ∧ p < 19 then s.canKick (p - 11)
  else if p = 19 ∨ p = 150 then s.canKickAll
  else if p = 151 then (s.setReg Adr.FIO_STATUS (link &&& 0x40000000)).setReg Adr.FIO_DI_STATE di
  else s

/-- The block of page `p` is reset: every register at its reset value, and what stands behind them (R8, R31). -/
def State.blockClear (s : State) (p : Nat) : State :=
  let t := s.beforeReset p
  ((t.eraseRegs fun a => blockPage (a / 1024) == p).hiddenReset p).afterReset p s.mode (s.reg Adr.FIO_STATUS) (s.reg Adr.FIO_DI_STATE)

/-- A write of 1 to `xxx_CTRL.RESET` on page `p` (R29); each of `masters` has a request queued at the block, which is answered
`RETIRED`. -/
def doBlockReset (s : State) (p : Nat) (masters : List Nat) : State :=
  let q := blockPage p
  if !s.resettable p ∨ s.inReset p = true then s.ok
  else
    let t := s.blockClear q
    let r : ResetSt := { page := q, time := s.now, retired := masters.length }
    let u : State := { t with fab := { t.fab with inReset := t.fab.inReset ++ [r] } }
    (masters.foldl (fun v m => v.masterErr m (0x4000_0000 + p * 4096) .retired) u).ok

/-- The block of page `p` leaves reset (R30), with the one ledger record of the reset (R375). -/
def State.blockResetEnd (s : State) (p : Nat) : State :=
  let q := blockPage p
  match s.fab.inReset.find? fun r => r.page == q with
  | none => s
  | some r =>
    let t : State := { s with fab := { s.fab with inReset := s.fab.inReset.filter fun x => x.page != q } }
    t.offer { source := 512, type := 2, time := r.time, payload := leBytes 2 q ++ leBytes 4 (min r.retired (2 ^ 32 - 1)) }

/-! ### Device resets (R467) -/

/-- Word addresses that a reset of code 2 or 3 keeps: the always-on pages and the SYS registers marked so. -/
def alwaysOn (a : Nat) : Bool :=
  let p := a / 1024
  p == 1 || (p == 2 || (p == 4 || (p == 5 || (p == 6 || (p == 152 ||
    (a == Adr.SYS_RST_CAUSE || (a == Adr.SYS_RST_CNT || a == Adr.SYS_RETAIN)))))))

/-- The tallies of a unit just reset (R306, R345). -/
def State.tallyReset (s : State) : State :=
  (s.setF Fld.PAR_TALLY_TALLY s.dev.unit).setF Fld.PAR_SEEN_SEEN s.dev.unit

/-- `SYS_RST_CAUSE` (R467). -/
def State.cause (s : State) (code sub : Nat) : State :=
  (s.setF Fld.SYS_RST_CAUSE_CODE code).setF Fld.SYS_RST_CAUSE_SUB sub

/-- What flash holds of the ledger (R383, R385). -/
def LgrSt.onFlash (l : LgrSt) : LgrSt :=
  { till := l.till, vState := l.vState, vFirst := l.vFirst, vLast := l.vLast, vault := l.vault, vPost := l.vPost }

/-- What the flash medium holds, with a manager about to mount it (R404). -/
def NfcSt.unmounted (n : NfcSt) : NfcSt := { n with req := none, worn := false, config := [] }

/-- A device reset of code 0, 1 or 4: the fuses are read again (R451), `PAIR_ID` is sampled (R306), the raw counter is kept by
RESET_N only (R356). -/
def State.coldReset (s : State) (code : Nat) : State :=
  let l : LcsSt := { s.lcs with state := s.lcs.fuseState, nonce := none, halted := 0 }
  let t : State := { State.reset with
    pending := s.pending, answer := s.answer, sent := s.sent, draws := s.draws, drives := s.drives
    dev := { s.dev with unit := s.dev.pairId }, tim := { raw := if code = 1 then s.tim.raw else 0 }
    lgr := s.lgr.onFlash, lcs := l, nfc := s.nfc.unmounted
    tap := if code = 1 then s.tap else {} }
  (t.cause code 0).tallyReset.nfcRestart

/-- A device reset of code 2 or 3: the always-on island keeps its state, the memories their contents (R467). -/
def State.warmReset (s : State) (code sub : Nat) : State :=
  let own := s.safOwned
  let trained := s.fb Fld.DRC_STAT_TRAINED
  let link := s.reg Adr.FIO_STATUS
  let di := s.reg Adr.FIO_DI_STATE
  let t := s.eraseRegs fun a => !alwaysOn a
  let u : State := { t with
    fab := {}, lgr := s.lgr.onFlash, dma := {}, fwl := {}, rpl := {}, flt := {}, gns := {}, fus := {}, gfe := {}, asm := {}, lsc := {}, par := { level := s.par.level }
    mm := { s.mm with dirty := [], march := [], gfeFailed := false }
    eth := List.replicate 4 {}, uart := List.replicate 8 {}, can := List.replicate 8 {}, staged := List.replicate 24 none
    cle := { stopReq := s.cle.stopReq }, fio := { s.fio with edges := [], hist := [] }, saf := { s.saf with kept := own }
    nfc := s.nfc.unmounted
    frm := { realignErr := s.frm.realignErr, driftErr := s.frm.driftErr, freeRun := s.frm.freeRun, lastB0 := s.frm.lastB0,
             startTmo := s.frm.startTmo }
    pwr := { s.pwr with
      mainHeld := true, pendingDown := none, cores := 0, waiting := 0, shpSection := none, shpNew := [], bootWait := false,
      bootPartner := false, bootGot := [], bootMute := false, bootServe := none, bootEntry := 0, wdtHalf := false } }
  let v := (u.setF Fld.CLE_MODE_CUR (if s.mode = 3 then 3 else 0)).setF Fld.DRC_STAT_TRAINED (b2n trained)
  let w := (v.setReg Adr.FIO_STATUS (link &&& 0x40000000)).setReg Adr.FIO_DI_STATE di
  let x := if code = 2 then w.stickN Fld.SYS_RST_CNT_WDT 1 else w.stickN Fld.SYS_RST_CNT_SHP 1
  ((x.cause code sub).tallyReset.nfcRestart.applyPower 0).rhoInit

/-- A device reset (R467). -/
def State.devReset (s : State) (code sub : Nat) : State :=
  if code = 2 ∨ code = 3 then s.warmReset code sub else s.coldReset code

/-- CAN, Icvo and `PAIR_BEAT` are stopped (R23). -/
def State.silence (s : State) : State := { s with pwr := { s.pwr with silent := true } }

/-- A main rail is out of range (R482). -/
def State.railOut (s : State) : State := { s with pwr := { s.pwr with railBad := true } }

/-- CAN, Icvo and PAIR_BEAT stop, and the shepherd core resets the main island (R23). -/
def State.clockFault (s : State) : State :=
  ((s.silence.canCutAll).devReset 3 1).silence

/-- A write of `SYS_SWRESET` (R470). -/
def doSwReset (s : State) (v : Word) : State := if v.toNat % 65536 = 0x5E7A then s.ok.devReset 3 0 else s.ok

/-! ### The commands -/

/-- `BLOCK_RESET`: a write of 1 to `RESET` on page `p`; `masters` have a request queued at the block. -/
def execBlockReset (p : Nat) (masters : List Nat) (s : State) : Out := liveIf (s.pageOk p) s (doBlockReset s p masters)

/-- `BLOCK_RESET_END`: 64 FAB cycles after the reset of page `p`'s block. -/
def execBlockResetEnd (p : Nat) (s : State) : Out := live s (s.blockResetEnd p)

/-- `CLOCK_FAULT`. -/
def execClockFault (s : State) : Out := live s s.clockFault

/-- `RAIL_FAULT`. -/
def execRailFault (s : State) : Out :=
  live s s.clockFault.railOut

/-- `SYS_SWRESET`: a write of `v` to `SYS_SWRESET`. -/
def execSysSwreset (v : Word) (s : State) : Out := live s (doSwReset s v)

/-- `WATCHDOG_EXPIRY`: `MS` has passed without a restart. -/
def execWatchdogExpiry (s : State) : Out := liveIf (s.wdtCounts && s.pwr.wdtHalf) s (s.devReset 2 0)

/-- `POWER_ON_RESET`: VAON rises through its threshold. -/
def execPowerOnReset (s : State) : Out := .next (s.devReset 0 0)

/-- `RESET_N`: low for at least 10 µs; out of `OFF` it is a wake (R466). -/
def execResetN (s : State) : Out := .next (if s.pwr.vaon then s.devReset (if s.pwr.on then 1 else 4) 0 else s)

/-- `WAKE` (R466). -/
def execWake (s : State) : Out := .next (if s.pwr.vaon && !s.pwr.on then s.devReset 4 0 else s)

end Sys2Proof.Machine
end

