-- ==== Sys2Proof/Machine/Boot.lean ====
section
/-! DEFINITION. Start-up (R384, R404, R425, R428, R430, R468, R471–R477): the steps, the boot ROM's choice of firmware, the partner boot,
and the hand-over to the shepherd core. -/

namespace Sys2Proof.Machine

/-- The last device reset kept the always-on island (R467). -/
def State.warmStart (s : State) : Bool := s.f Fld.SYS_RST_CAUSE_CODE == 2 || s.f Fld.SYS_RST_CAUSE_CODE == 3

/-! ### Step 0 and the march test (R425–R430, R476) -/

/-- Every memory is tested, the feature engine first (R428): after codes 0, 1 and 4 the banks' deeds pass to the march engine and the
tests are destructive; after codes 2 and 3 the banks keep their contents. -/
def State.marchAll (s : State) : State :=
  let t := if s.warmStart then s else forUp 64 (fun b t => t.passDeed b 27) s
  let l := ({ target := 2, index := 0, preserve := false } : March) ::
    ((List.range 96).map fun l => { target := 1, index := l, preserve := false }) ++
    (List.range 64).map fun b => { target := 0, index := b, preserve := s.warmStart }
  ({ t with mm := { t.mm with march := l } } : State).setF Fld.MAR_STAT_BUSY 1

/-- Step 0 ends when flash is mounted, the ring scanned, and after codes 0, 1 and 4 the memories are cleared and DRAM is trained
(R476). -/
def State.bootOn (s : State) : State :=
  let mem := s.warmStart || (s.mm.cleared && s.fb Fld.DRC_STAT_TRAINED)
  if s.f Fld.SYS_START_STEP = 0 ∧ s.pwr.mainHeld = false ∧ s.f Fld.NFC_STAT_STATE ≠ 1 ∧ s.lgr.scanned = true ∧ mem = true then
    (s.setF Fld.SYS_START_STEP 1).marchAll
  else s

/-! ### A firmware object (R471, R472) -/

/-- Lengths of the application and the shepherd section of a firmware payload. -/
def fwApp (p : List Byte) : Nat := leAt p 16 4
def fwShp (p : List Byte) : Nat := leAt p 36 4

/-- The application section, and the shepherd section with its trailer. -/
def fwAppBytes (p : List Byte) : List Byte := (p.drop 256).take (fwApp p)
def fwShpBytes (p : List Byte) : List Byte := (p.drop (256 + fwApp p)).take (fwShp p)

/-- The firmware header is well formed (R471). -/
def fwHeadOk (p : List Byte) : Bool :=
  p.take 4 == ascii "DQFW" && (leAt p 4 2 == 1 && (decide (96 ≤ fwShp p) && (p.length == 256 + fwApp p + fwShp p &&
    (leAt p 25 3 == 0 && (leAt p 33 3 == 0 && (p.drop 136).take 120 == zeros 120)))))

/-- The maker's signature over a section (R471). -/
def sectionSigned (b : List Byte) : Bool := ecdsaVerify Config.makerKey (b.take (b.length - 96)) (b.drop (b.length - 96))

/-- The outcome of checking an object (R472), as `SYS_BOOT` codes it: 1 accepted, 4 hash mismatch, 5 signature failed, 6 bad
header. -/
def State.bootCheck (s : State) (part : Nat) (o : List Byte) : Nat :=
  let p := objPayload o
  if objHeadOk part 0 o = false ∨ fwHeadOk p = false then 6
  else if objHashOk o = false ∨ sha384 (fwAppBytes p) ≠ (p.drop 40).take 48 ∨ sha384 (fwShpBytes p) ≠ (p.drop 88).take 48 then 4
  else if s.objSigOk o = false ∨ sectionSigned (fwShpBytes p) = false then 5
  else 1

/-- The outcome of slot `k` (R473). -/
def State.slotCheck (s : State) (k : Nat) : Nat :=
  if s.nfcReads = false then 8
  else
    match s.objAt (1 + k) 0 with
    | none => 2
    | some o => if o.lost ≠ [] then 3 else s.bootCheck (1 + k) o.data

/-- The highest-numbered bank that has not failed (R475). -/
def State.topBank (s : State) : Option Nat := (List.range 64).reverse.find? fun b => !s.bankFailed b

/-- The shepherd section is handed over, or compared after codes 2 and 3 (R475). -/
def State.handOver (s : State) (p : List Byte) : State :=
  let h := (p.drop 88).take 48
  if s.warmStart then s.setF Fld.SYS_BOOT_SHP_STALE (b2n (decide (h ≠ s.pwr.shpHash)))
  else
    match s.topBank with
    | none => s
    | some b =>
      let t := (s.store (bankAddr b 0) (fwShpBytes p)).passDeed b 4
      { t with pwr := { t.pwr with shpSection := some (b, fwShp p), shpNew := h } }

/-- An accepted object runs (R471, R473, R475, R476): `src` 0 slot A, 1 slot B, 2 the partner. -/
def State.bootRun (s : State) (src : Nat) (o : List Byte) : State :=
  let p := objPayload o
  let pref := s.f Fld.NFC_STAT_BOOT_SLOT
  let t := (s.mWrite 0 (leAt p 20 5) (fwAppBytes p)).st
  let t1 := ((t.setF Fld.SYS_BOOT_SRC src).setF Fld.SYS_BOOT_LAYOUT (leAt p 6 2)).setF Fld.NFC_STAT_RUN_SLOT
    (if src = 2 then 1 - pref else src)
  let t2 := if src = pref then t1 else t1.raise Ev.SYS_BOOT_FALLBACK
  let t3 : State := { t2 with pwr := { t2.pwr with
    bootEntry := leAt p 28 5, bootMute := false, bootWait := false, bootPartner := false, bootGot := [] } }
  (t3.handOver p).setF Fld.SYS_START_STEP 2

/-- The first start in `RETURNED` erases four partitions before any firmware starts (R455). -/
def State.eraseReturned (s : State) : State :=
  if s.lcs.state = 4 ∧ s.lcs.erased = false then
    { s.nfcReturned with lcs := { s.lcs with erased := true } }
  else s

/-- The boot ROM tries its sources in order (R473); in `BLANK` and `SPENT` it starts nothing (R450, R456). -/
def State.bootTry (s0 : State) : State :=
  let s := s0.eraseReturned
  if s.lcs.state = 0 ∨ s.lcs.state = 5 then s
  else
    let a := s.f Fld.NFC_STAT_BOOT_SLOT
    let run := fun (t : State) (k : Nat) => match t.objAt (1 + k) 0 with
      | some o => t.bootRun k o.data
      | none => t
    let ca := s.slotCheck a
    let s1 := ((s.setF Fld.SYS_BOOT_TRY_PREF ca).setF Fld.SYS_BOOT_TRY_OTHER 0).setF Fld.SYS_BOOT_TRY_PARTNER 0
    if ca = 1 then run s1 a
    else
      let cb := s1.slotCheck (1 - a)
      let s2 := s1.setF Fld.SYS_BOOT_TRY_OTHER cb
      if cb = 1 then run s2 (1 - a)
      else { s2 with pwr := { s2.pwr with bootPartner := true, bootWait := false, bootGot := [] } }

/-- The partner boot ends without an object: every source has failed (R473, R474). -/
def State.bootFail (s : State) (code : Nat) : State :=
  let t : State := { s with pwr := { s.pwr with bootPartner := false, bootGot := [], bootWait := true, bootMute := true } }
  (t.setF Fld.SYS_BOOT_TRY_PARTNER code).setF Fld.SYS_BOOT_SRC 3

/-- A march test has ended; in step 1 the last of them lets the boot ROM choose its firmware (R428, R476). -/
def State.marchNext (s : State) : State :=
  if s.f Fld.SYS_START_STEP = 1 ∧ s.mm.march = [] ∧ s.pwr.bootWait = false ∧ s.pwr.bootPartner = false then s.bootTry else s

/-! ### Messages of the partner boot (R474) -/

/-- A 16-byte message: type, two words, CRC-32C at bytes 12–15. -/
def bootHead (ty x y : Nat) : List Byte :=
  let b := leBytes 4 ty ++ leBytes 4 x ++ leBytes 4 y
  b ++ leBytes 4 (crc32c b)

/-- A boot-data message of the data from offset `o`. -/
def bootData (d : List Byte) (o : Nat) : List Byte :=
  let x := (d.drop o).take 65536
  let b := leBytes 4 6 ++ leBytes 4 o ++ leBytes 4 x.length ++ zeros 4 ++ x
  b ++ leBytes 4 (crc32c b)

/-- The running object as boot messages, in order. -/
def bootMsgs (d : List Byte) : List (List Byte) :=
  (List.range ((d.length + 65535) / 65536)).map (fun i => bootData d (65536 * i)) ++ [bootHead 7 d.length (crc32c d)]

/-- A boot message's length and closing CRC-32C agree. -/
def bootMsgOk (b : List Byte) : Bool := decide (16 ≤ b.length) && leAt b (b.length - 4) 4 == crc32c (b.take (b.length - 4))

/-- A partner of role `ACTIVE`, `STANDBY` or `ALONE` answers a boot request with its running object. -/
def State.bootAnswer (s : State) : State :=
  let busy := match s.pwr.bootServe with
    | some t => decide (s.tim.raw < t + 2000000000)
    | none => false
  if s.role = 0 ∨ busy = true ∨ s.nfcReads = false then s
  else
    match s.objAt (1 + s.f Fld.NFC_STAT_RUN_SLOT) 0 with
    | none => s
    | some o =>
      if o.lost ≠ [] then s
      else (bootMsgs o.data).foldl State.icvo { s with pwr := { s.pwr with bootServe := some s.tim.raw } }

/-- A boot request arrives. -/
def doBootRequest (s : State) (b : List Byte) : State :=
  if b.length = 16 ∧ leAt b 0 1 = 5 ∧ bootMsgOk b = true then s.bootAnswer else s.parBad

/-- A boot-data message arrives: a CRC failure ends the attempt with code 7. -/
def doBootData (s : State) (b : List Byte) : State :=
  if bootMsgOk b = true ∧ leAt b 0 1 = 6 ∧ b.length = 20 + leAt b 8 4 ∧ leAt b 8 4 ≤ 65536 then
    { s with pwr := { s.pwr with bootGot := s.pwr.bootGot ++ [(leAt b 4 4, (b.drop 16).take (leAt b 8 4))] } }
  else s.parBad.bootFail 7

/-- The object assembled from the boot data, which arrives in order. -/
def bootObject (l : List (Nat × List Byte)) : List Byte := l.foldl (fun o e => if e.1 = o.length then o ++ e.2 else o) []

/-- A boot-end message arrives: the object is checked and runs, or every source has failed. -/
def doBootEnd (s : State) (b : List Byte) : State :=
  let o := bootObject s.pwr.bootGot
  if b.length = 16 ∧ bootMsgOk b = true ∧ leAt b 0 1 = 7 ∧ leAt b 4 4 = o.length ∧ leAt b 8 4 = crc32c o then
    let c := s.bootCheck 1 o
    if c = 1 then (s.setF Fld.SYS_BOOT_TRY_PARTNER 1).bootRun 2 o else s.bootFail c
  else s.parBad.bootFail 7

/-! ### Steps 2 and 3 (R475–R477) -/

/-- Byte offsets within the SAF page of the registers that step 3 copies and locks (R287). -/
def safOffsets : List Nat :=
  [0x20, 0x24, 0x28, 0x2C, 0x50, 0x54, 0x58, 0x5C] ++ (List.range 8).flatMap fun a => [0x100 + 16 * a, 0x104 + 16 * a, 0x108 + 16 * a]

/-- The SAF block of the configuration image, as `SYS_SAF_LOC` places it: an image of the SAF page's first 384 bytes. -/
def State.safBlock (s : State) : Nat := bankAddr (s.f Fld.SYS_SAF_LOC_BANK) (64 * s.f Fld.SYS_SAF_LOC_OFS)

/-- The word of the SAF block for the register at offset `o`. -/
def State.safWord (s : State) (o : Nat) : Word :=
  BitVec.ofNat 32 (s.rdLe (s.safBlock + o) 4) &&& BitVec.ofNat 32 (readMask (152 * 1024 + o / 4))

/-- Step 3: the shepherd core copies the SAF block and locks it (R287), or after codes 2 and 3 compares it (R477). -/
def State.safStep (s : State) : State :=
  if s.f Fld.SYS_START_STEP ≠ 3 ∨ s.shpRuns = false then s
  else if s.warmStart then
    if safOffsets.any fun o => decide (s.safWord o ≠ s.reg (152 * 1024 + o / 4)) then
      ((s.setF Fld.SYS_START_SAF_DIFF 1).raise Ev.SYS_SAF_DIFF).stepOn
    else s.stepOn
  else
    let t := safOffsets.foldl (fun t o => t.setReg (152 * 1024 + o / 4) (s.safWord o)) s
    (t.setReg (hdr 152 7) 7).stepOn

/-- The end of step 2 (R476). -/
def State.next (s : State) : State :=
  if s.f Fld.SYS_START_STEP = 2 ∧ s.fb Fld.FWL_STAT_ENFORCE = true then (s.setF Fld.SYS_START_STEP 3).safStep
  else (s.setF Fld.SYS_START_NEXT_REF 1).raise Ev.SYS_NEXT_REFUSED

/-- Application cores 1–3 named in `m` are released (R468). -/
def State.coreRel (s : State) (m : Nat) : State := { s with pwr := { s.pwr with cores := s.pwr.cores ||| (m &&& 14) } }

/-- A write of `SYS_START_CTRL`. -/
def doStartCtrl (s : State) (v : Word) : State :=
  let t := s.coreRel v.toNat
  (if bitOf v.toNat 31 then t.next else t).ok

/-- The shepherd core checks the section it was handed, and starts it or stays in the boot ROM (R475). -/
def State.shpStart (s : State) : State :=
  match s.pwr.shpSection with
  | none => s
  | some (b, n) =>
    let r := s.mRead 4 (bankAddr b 0) n
    let t : State := { r.st with pwr := { r.st.pwr with shpSection := none } }
    if r.rsp = .okay ∧ sha384 r.data = s.pwr.shpNew ∧ sectionSigned r.data = true then
      let u := (t.store 0x0100_0000 r.data).passDeed b 0
      State.safStep { u with pwr := { u.pwr with shpWaiting := false, shpHash := s.pwr.shpNew } }
    else t

/-- The main island leaves reset; core 0 runs the boot ROM (R468). -/
def State.mainUp (s : State) : State :=
  State.bootOn { s with pwr := { s.pwr with mainHeld := false, railBad := false, silent := false, cores := 1 } }

/-! ### The commands -/

/-- `MAIN_RESET_RELEASE`. -/
def execMainResetRelease (s : State) : Out := liveIf (s.pwr.mainHeld && !s.pwr.railBad) s s.mainUp

/-- `RAIL_RECOVERED`: the rail has been in range for 1 ms (R482). -/
def execRailRecovered (s : State) : Out := liveIf (s.pwr.mainHeld && s.pwr.railBad) s s.mainUp

/-- `MEMORY_CLEAR_DONE` (R425). -/
def execMemoryClearDone (s : State) : Out :=
  let t := (s.clearMem 0x1000_0000 0x1100_0000).clearMem 0x2000_0000 0x3040_0000
  liveIf (!s.mm.cleared) s (State.bootOn { t with mm := { t.mm with cleared := true } })

/-- `DRAM_TRAINED` (R430). -/
def execDramTrained (s : State) : Out :=
  liveIf (!s.fb Fld.DRC_STAT_TRAINED) s ((s.clearMem 0x08_0000_0000 0x0A_0000_0000).setF Fld.DRC_STAT_TRAINED 1).bootOn

/-- `MOUNTED`: whether each channel answers READ ID with a readable header (R404, R413). -/
def execMounted (ok0 ok1 : Bool) (s : State) : Out :=
  liveIf (!s.pwr.mainHeld && s.f Fld.NFC_STAT_STATE == 1) s (s.mount ok0 ok1).bootOn

/-- `LEDGER_START` (R384): once after every device reset, when flash is mounted and the banks can be read. -/
def execLedgerStart (s : State) : Out :=
  liveIf (!s.lgr.scanned && (!s.pwr.mainHeld && (s.f Fld.NFC_STAT_STATE != 1 && s.mm.cleared))) s s.ledgerStart.bootOn

/-- `MARCH_DONE` of a test: passed, or its first failing byte offset. -/
def execMarchDone (target i : Nat) (bad : Option Nat) (s : State) : Out := live s (s.marchDone target i bad).marchNext

/-- `BOOT_RETRY`: 10 s after every source has failed. -/
def execBootRetry (s : State) : Out :=
  liveIf s.pwr.bootWait s (State.bootTry { s with pwr := { s.pwr with bootWait := false } })

/-- `BOOT_REQUEST_SEND`. -/
def execBootRequestSend (s : State) : Out := liveIf (s.pwr.bootPartner && s.pwr.bootGot.isEmpty) s (s.icvo (bootHead 5 0 0))

/-- `BOOT_REQUEST_RX`: message `b`. -/
def execBootRequestRx (b : List Byte) (s : State) : Out := liveIf (s.works 149) s (doBootRequest s b)

/-- `BOOT_DATA_RX`: message `b`. -/
def execBootDataRx (b : List Byte) (s : State) : Out := liveIf s.pwr.bootPartner s (doBootData s b)

/-- `BOOT_END_RX`: message `b`. -/
def execBootEndRx (b : List Byte) (s : State) : Out := liveIf s.pwr.bootPartner s (doBootEnd s b)

/-- `BOOT_TIMEOUT`: the partner has been silent for 2 s. -/
def execBootTimeout (s : State) : Out := liveIf s.pwr.bootPartner s (s.bootFail 7)

/-- `SHEPHERD_SECTION_START`. -/
def execShepherdSectionStart (s : State) : Out := live s s.shpStart

/-- `CORE_REL`: a write of `v` to `SYS_START_CTRL` with `NEXT` at 0. -/
def execCoreRel (v : Word) (s : State) : Out := live s (s.coreRel v.toNat).ok

/-- `NEXT`. -/
def execNext (s : State) : Out := live s s.next.ok

end Sys2Proof.Machine
end

