-- ==== Sys2Proof/Machine/Fabric.lean ====
section
/-! DEFINITION. Requests to the peripheral pages (R7, R9, R18, R19, R29, R495–R501): writes by access type, the registers whose write does
more, reads, and the one dispatch of a fabric request. -/

namespace Sys2Proof.Machine

/-! ### Writes by access type (R9) -/

/-- One field of a written register: `x` is the register so far, `v` the written word, `lk` the page's lock over it (R9). -/
def fieldWrite (lk : Bool) (v x : Nat) (r : FRow) : Nat :=
  let w := bitsOf v r.hi r.lo
  let o := bitsOf x r.hi r.lo
  match r.ty with
  | .ro => x
  | .rws => x
  | .rw => putBits x r.hi r.lo w
  | .wo => putBits x r.hi r.lo w
  | .rwl => if lk then x else putBits x r.hi r.lo w
  | .w1c => putBits x r.hi r.lo (o - (o &&& w))
  | .w1s => putBits x r.hi r.lo (o ||| w)

/-- A write that takes effect by the access types alone; RWS fields go to the shadow. Reserved bits have no field (R7). -/
def State.plainWrite (s : State) (a : Nat) (v : Word) : State :=
  let fs := fieldsOf a
  let t := if fs = [] then s else s.setReg a (BitVec.ofNat 32 (fs.foldl (fieldWrite (s.locked a) v.toNat) (s.reg a).toNat))
  let m := rwsMask a
  if m = 0 then t else t.setSh a ((s.sh a &&& ~~~(BitVec.ofNat 32 m)) ||| (v &&& BitVec.ofNat 32 m))

/-- `v` with bit `b` cleared: a trigger bit that a write of its own performs. -/
def dropBit (v : Word) (b : Nat) : Word := v &&& ~~~(BitVec.ofNat 32 (2 ^ b))

/-- A write of `v` to a register whose bit `b`, written 1, triggers `act`. -/
def State.trigWrite (s : State) (a : Nat) (v : Word) (b : Nat) (act : State → State) : State :=
  let t := s.plainWrite a (dropBit v b)
  if bitOf v.toNat b then act t else t

/-! ### Header words (R29, R32, R497–R500) -/

/-- A write of `xxx_CTRL` of page `p`. -/
def State.ctrlWrite (s : State) (p : Nat) (v : Word) : State :=
  let x := v.toNat
  let t := if p = 41 then s.gfeEnable (bitOf x 2) else doEnable s p (bitOf x 2)
  let u := doQuiesce t p (bitOf x 1)
  if bitOf x 0 then doBlockReset u p [] else u

/-- A write of header word `o` of page `p`; EVT holds no event bits (R497, and the EVT page of *Architecture*). -/
def State.headWrite (s : State) (p o : Nat) (v : Word) : State :=
  if o = 2 then (if p = 148 then doLgrCtrl s v else s.ctrlWrite p v)
  else if p = 2 ∧ 4 ≤ o ∧ o ≤ 6 then s
  else if o = 4 then doEventClear s p v
  else if o = 5 then doEventEn s p v
  else if o = 6 then doEventSet s p v
  else if o = 7 then doPageLock s p v
  else s

/-! ### Registers whose write does more -/

/-- A write to `MEM_DEED_PASS[b]` by master `m` (R417): refused with `DENIED` unless it comes from the holder or the shepherd core and
names an identity that may hold. -/
def doDeedPass (s : State) (m b h : Nat) : State :=
  if s.passAllowed m b h then (s.passDeed b h).ok
  else ((s.raise Ev.MEM_DEED_DENIED).offerFabric m 2 true (0x4000_0000 + 144 * 4096 + 0x200 + 4 * b)).ans .denied []

/-- SYS, PWR, EVT, FWL, LCS, TMX, TIM (pages 0–6). -/
def State.writeSys (s : State) (m a : Nat) (v : Word) : State :=
  let o := a % 1024
  if a = Adr.SYS_SWRESET then doSwReset s v
  else if a = Adr.SYS_WDT_CFG then
    let t := s.plainWrite a v
    if t.fb Fld.SYS_WDT_CFG_EN && !s.fb Fld.SYS_WDT_CFG_EN then { t with pwr := { t.pwr with wdtHalf := false } } else t
  else if a = Adr.SYS_WDT_KICK then doKick s v
  else if a = Adr.SYS_START_CTRL then doStartCtrl s v
  else if a = Adr.PWR_OFF then doPowerOff s v
  else if a / 1024 = 2 ∧ 64 ≤ o ∧ o < 576 then doEvtRoute s m (o - 64) v
  else if a / 1024 = 2 ∧ 577 ≤ o ∧ o < 586 ∧ o % 2 = 1 then doEvtDone s ((o - 577) / 2) (v.toNat % 512)
  else if a = Adr.FWL_ARM then doFwlArm s (v.toNat % 65536)
  else if a = Adr.FWL_RULE_SEL then doRuleSelect s (v.toNat % 4096)
  else if a = Adr.FWL_RULE_COMMIT then doRuleCommit s
  else if a = Adr.LCS_REQ then
    (if bitOf v.toNat 31 then doLcReq s (bitsOf v.toNat 30 28) (v.toNat % 256) true else s.plainWrite a v)
  else if a / 1024 = 5 ∧ 64 ≤ o ∧ o < 72 then doTmxSel s (o - 64) v
  else if a = Adr.TIM_CFG then doTimCfg s v
  else if a = Adr.TIM_RATE_HI then doRate s m v
  else if a = Adr.TIM_STEP_HI then doStep s m v
  else if a = Adr.TIM_PTP_CTRL then s.trigWrite a v 31 fun t => doPtpObs t v
  else s.plainWrite a v

/-- ETH (pages 7–10). -/
def State.writeEth (s : State) (k a : Nat) (v : Word) : State :=
  let o := a % 1024
  if o = 16 then doEthTail s k false (v.toNat % 1024)
  else if o = 18 then doEthTail s k true (v.toNat % 1024)
  else if o = 22 then s.trigWrite a v 31 fun t => doEthCalGo t k
  else s.plainWrite a v

/-- CAN (pages 11–18). -/
def State.writeCan (s : State) (k a : Nat) (v : Word) : State :=
  let o := a % 1024
  if o = 8 then doCanMode s k v
  else if o = 9 then doBitTiming s k false v
  else if o = 10 then doBitTiming s k true v
  else if o = 11 ∧ s.f (Fld.CAN_MODE_MODE k) ≠ 0 then s
  else if o = 19 then (if bitOf v.toNat 31 then doTxAbortAll s k else doTxAbort s k (v.toNat % 32))
  else if o = 21 then doRxfPop s k
  else if o = 23 then doPbRel s k v
  else if o = 532 then doTxPush s k
  else s.plainWrite a v

/-- UAT (pages 20–27). -/
def State.writeUart (s : State) (u a : Nat) (v : Word) : State :=
  let o := a % 1024
  if o = 9 then doUartDiv s u v else if o = 12 then doUartTx s u v else s.plainWrite a v

/-- FLT and GNS0–GNS1 (pages 32–34). -/
def State.writeFront (s : State) (a : Nat) (v : Word) : State :=
  let o := a % 1024
  let p := a / 1024
  if a = Adr.FLT_MCLK then doFltMclk s v
  else if p = 32 ∧ 64 ≤ o ∧ o < 192 ∧ o % 8 = 0 then doFltCfg s ((o - 64) / 8) v
  else if p = 32 ∧ 64 ≤ o ∧ o < 192 ∧ o % 8 = 2 then (if bitOf v.toNat 0 then doFltRestart s ((o - 64) / 8) else s)
  else if p = 33 ∧ (o = 8 ∨ o = 9) then
    let t := s.plainWrite a v
    if s.fb (Fld.GNS_IF_CFG_EN (o - 8)) && !t.fb (Fld.GNS_IF_CFG_EN (o - 8)) then t.snapEndOn (o - 8) 3 else t
  else if p = 33 ∧ (o = 12 ∨ o = 13) then
    let g := s.f (Fld.GNS_AGC_GAIN (o - 12))
    let auto := s.fb (Fld.GNS_AGC_AUTO (o - 12))
    let t := s.plainWrite a v
    if auto then t.setF (Fld.GNS_AGC_GAIN (o - 12)) g else t
  else if a = Adr.GNS_JAM_CFG then s.trigWrite a v 31 doJamCal
  else if a = Adr.GNS_SNAP_CTRL then s.trigWrite a v 31 fun t => doSnapGo t v
  else if a = Adr.GNS_TIME_CTRL then s.trigWrite a v 31 fun t => doGnssObs t v
  else if p = 34 ∧ 64 ≤ o ∧ o < 512 ∧ o % 8 = 0 then doGnsCfg s ((o - 64) / 8) v
  else s.plainWrite a v

/-- FUS, GFE, ASM, LSC (pages 37–46). -/
def State.writeFrame (s : State) (m a : Nat) (v : Word) : State :=
  let o := a % 1024
  let p := a / 1024
  if p = 37 ∧ 16 ≤ o ∧ o < 24 then doGroupCfg s (o - 16) v
  else if p = 38 ∧ 64 ≤ o ∧ o < 576 ∧ o % 16 = 0 then doPortCfg s ((o - 64) / 16) v
  else if p = 39 ∧ 64 ≤ o ∧ o < 576 then doDepWrite s m ((o - 64) / 16) ((o - 64) % 16) v
  else if p = 39 ∧ 576 ≤ o ∧ o < 608 then doDepCommit s m (o - 576)
  else if p = 40 ∧ 64 ≤ o ∧ o < 320 ∧ o % 8 < 8 then
    let q := (o - 64) / 8
    let t := s.plainWrite a v
    t.setFus q { t.fusOf q with mountDirty := true }
  else if a = Adr.GFE_POSE_CLR then (if bitOf v.toNat 0 then doScanClr s else s)
  else if a = Adr.ASM_TBL_CHK then doTblCtl s v
  else if a = Adr.ASM_TBL_SEL then
    let t := s.plainWrite a v
    { t with asm := { t.asm with selNew := true } }
  else if a = Adr.LSC_RHO then
    let t := s.plainWrite a v
    { t with lsc := { t.lsc with rhoNew := true } }
  else s.plainWrite a v

/-- DMA, MEM, MAR (pages 143–145). -/
def State.writeMove (s : State) (m a : Nat) (v : Word) : State :=
  let o := a % 1024
  let p := a / 1024
  if a = Adr.DMA_GLOBAL then doDmaGlobal s v
  else if p = 143 ∧ 64 ≤ o ∧ o < 576 ∧ (o - 64) % 16 = 7 then doDmaCtrl s ((o - 64) / 16) v
  else if p = 143 ∧ 64 ≤ o ∧ o < 576 ∧ (o - 64) % 16 < 7 then doDmaReg s ((o - 64) / 16) a v
  else if p = 144 ∧ 128 ≤ o ∧ o < 192 then doDeedPass s m (o - 128) (v.toNat % 32)
  else if a = Adr.MAR_CTRL then (if bitOf v.toNat 31 then doMarch s v else s.plainWrite a v)
  else s.plainWrite a v

/-- NFC, LGR (pages 147–148); `LGR_CFG.RING_BANK` is copied to `SYS_RETAIN`. A format through this path finds no factory-bad blocks
beyond those known. A window of `LGR_SW` takes only its own core's writes (R379). -/
def State.writeStore (s : State) (m a : Nat) (v : Word) : State :=
  let o := a % 1024
  if a = Adr.NFC_CFG then
    let t := s.plainWrite a v
    if t.f Fld.NFC_CFG_EN = s.f Fld.NFC_CFG_EN then t else t.nfcRestart
  else if a = Adr.NFC_REQ_CTRL then doNfcReq s m v
  else if a = Adr.NFC_BOOT_SEL then doBootSel s v
  else if a = Adr.NFC_FORMAT then doFormat s v []
  else if a = Adr.LGR_CFG then
    let t := s.plainWrite a v
    t.setF Fld.SYS_RETAIN_RING_BANK (t.f Fld.LGR_CFG_RING_BANK)
  else if a = Adr.LGR_CTRL then doLgrCtrl s v
  else if a = Adr.LGR_REL_CTRL then (if bitOf v.toNat 31 then doRelease s else s)
  else if a / 1024 = 148 ∧ 128 ≤ o ∧ o < 192 ∧ o % 16 = 10 then doSwCommit s m ((o - 128) / 16)
  else if a / 1024 = 148 ∧ 128 ≤ o ∧ o < 192 ∧ o % 16 < 10 ∧ m ≠ (o - 128) / 16 then s
  else if a = Adr.LGR_XTR_CTRL then s.trigWrite a v 31 fun t => doXtrGo t v
  else s.plainWrite a v

/-- PAR, CMD, FIO, SAF (pages 149–152). Receive mode keeps a bench unit's frames off the bus (R58). -/
def State.writePair (s : State) (a : Nat) (v : Word) : State :=
  if a = Adr.PAR_REQ then doParReq s v.toNat
  else if a = Adr.PAR_EPOCH then doEpochKey s v.toNat
  else if a = Adr.CMD_RPL_CTRL then
    let t := s.trigWrite a v 27 State.askFull
    if t.f Fld.CMD_RPL_CTRL_MODE = 2 then State.canCutAll { t with rpl := { t.rpl with hold := true } } else t
  else if a = Adr.FIO_CFG then doFioCfg s v
  else if a = Adr.FIO_WD_CLR then doWdClr s v
  else if a = Adr.SAF_DIAG then doDiagClear s v.toNat
  else if a = Adr.SAF_REQ then (if bitOf v.toNat 0 then doSs1Req s else s)
  else if a = Adr.SAF_RELEASE then doSafRelease s v
  else s.plainWrite a v

/-- CAN8 (page 19): a change of what the helm engine sends may free a controller's queue (R257). -/
def State.writeHelm (s : State) (a : Nat) (v : Word) : State := (s.plainWrite a v).canKickAll

/-- A write of `v` by master `m` to the register word at `a`; the answer is the response. -/
def State.pageWrite (s : State) (m a : Nat) (v : Word) : State :=
  let p := a / 1024
  let s := s.ok
  if !s.pageOk p then s
  else if a % 1024 < 8 then s.headWrite p (a % 1024) v
  else if p < 7 then s.writeSys m a v
  else if p < 11 then s.writeEth (p - 7) a v
  else if p < 19 then s.writeCan (p - 11) a v
  else if p = 19 then s.writeHelm a v
  else if p < 28 then s.writeUart (p - 20) a v
  else if p < 32 then s.plainWrite a v
  else if p < 37 then s.writeFront a v
  else if p < 47 then s.writeFrame m a v
  else if p < 143 then s.plainWrite a v
  else if p < 146 then s.writeMove m a v
  else if p = 146 then s.plainWrite a v
  else if p < 149 then s.writeStore m a v
  else s.writePair a v

/-! ### The request (R19, R29, R496) -/

/-- The size and alignment of R496, every byte enabled. -/
def pageSizeOk (a n : Nat) (en : List Bool) : Bool :=
  ((n == 4 && a % 4 == 0) || (n == 8 && a % 8 == 0)) && en.all id

/-- Write the words of `d` upward from word address `a`; the response is the first that is no `OKAY`. -/
def State.writeWords (m a : Nat) (d : List Byte) : Nat → Rsp → State → State × Rsp
  | 0, r, s => (s, r)
  | n + 1, r, s =>
    let t := s.pageWrite m a (BitVec.ofNat 32 (leAt d 0 4))
    State.writeWords m (a + 1) (d.drop 4) n (if r = .okay then t.answer.rsp else r) t

/-- Read `n` words upward from word address `a`. -/
def State.readWords (m a : Nat) : Nat → List Byte → State → State × List Byte
  | 0, l, s => (s, l)
  | n + 1, l, s =>
    let t := s.pageRead m a
    State.readWords m (a + 1) n (l ++ t.answer.data) t

/-- The answer shown is that of `s`: the response of this request goes to its own master. -/
def State.answered (t s : State) : State := { t with answer := s.answer }

/-- A request that has passed the gate, to a peripheral page: under reset only `0x000`–`0x00C` answer a read (R29); a page whose block
has no clock does not answer (R19). -/
def State.pageReq (s : State) (m : Nat) (k : Acc) (a n : Nat) (d : List Byte) (en : List Bool) : Reply :=
  let w := (a - 0x4000_0000) / 4
  let p := w / 1024
  if s.inReset p && !(k != .write && decide (a % 4096 + n ≤ 16)) then { st := s.countRetired p 1, rsp := .retired }
  else if !s.clocked p || !pageSizeOk a n en then s.refuse m k a .tgtErr
  else if k = .write then
    let r := State.writeWords m w (padTo n d) (n / 4) .okay s
    { st := r.1.answered s, rsp := r.2 }
  else
    let r := State.readWords m w (n / 4) [] s
    { st := r.1.answered s, rsp := .okay, data := r.2 }

/-- A request to any target (R17–R19). Reads of a live bank by an application core are noted (R53). -/
def State.request (s : State) (m : Nat) (k : Acc) (a n : Nat) (d : List Byte) (en : List Bool) : Reply :=
  if regionOf a = .page then
    match s.gate m k a n with
    | some r => r
    | none => s.pageReq m k a n d en
  else
    let live := k != .write && (inSram a && ((banksOf a n).any fun b =>
      if b < 32 then bitOf (s.f Fld.CMD_LIVE_BANKS_LO_BANKS) b else bitOf (s.f Fld.CMD_LIVE_BANKS_HI_BANKS) (b - 32)))
    let r := s.memReq m k a n d en
    if live && r.rsp == .okay then { r with st := r.st.noteLive m } else r

/-- A request of master `m` with its reaction to an error response (R19), and the answer it receives. -/
def State.fabric (s : State) (m : Nat) (k : Acc) (a n : Nat) (d : List Byte) (en : List Bool) : State :=
  let r := s.request m k a n d en
  (if r.rsp = .okay then r.st else r.st.masterErr m a r.rsp).ans r.rsp r.data

end Sys2Proof.Machine
end

