-- ==== Sys2Proof/Machine/Move.lean ====
section
/-! DEFINITION. Commands that bring a request: fabric requests and register writes (R9, R19), deed passes (R417), the debug port (R457),
DMA transfers (R431–R437) and received UART characters, which a paced channel takes (R369, R433). -/

namespace Sys2Proof.Machine

/-! ### Moving bytes (R431) -/

/-- The result of one side of a transfer: the bytes read, and the first error with its address. -/
structure Moved where
  st : State
  data : List Byte := []
  err : Option (Nat × Rsp) := none

/-- Read `left` bytes as master `m` in pieces of at most `u`; `inc`: the address increments. -/
def dmaReadAll (m u : Nat) (inc : Bool) : Nat → Nat → Nat → List Byte → State → Moved
  | 0, _, _, d, s => { st := s, data := d }
  | k + 1, a, left, d, s =>
    if left = 0 then { st := s, data := d }
    else
      let n := min u left
      let r := s.request m .read a n [] []
      if r.rsp = .okay then dmaReadAll m u inc k (if inc then a + n else a) (left - n) (d ++ r.data) r.st
      else { st := r.st, data := d, err := some (a, r.rsp) }

/-- Write `d` as master `m` in pieces of at most `u`. -/
def dmaWriteAll (m u : Nat) (inc : Bool) : Nat → Nat → List Byte → State → Moved
  | 0, _, _, s => { st := s }
  | k + 1, a, d, s =>
    if d = [] then { st := s }
    else
      let x := d.take u
      let r := s.request m .write a x.length x []
      if r.rsp = .okay then dmaWriteAll m u inc k (if inc then a + x.length else a) (d.drop u) r.st
      else { st := r.st, err := some (a, r.rsp) }

/-- The port whose deposit window is the whole destination of `n` bytes at `a` (R70). -/
def State.depositPort (s : State) (a n : Nat) (inc : Bool) : Option Nat :=
  (List.range 32).find? fun p =>
    let w := 0x4000_0000 + 4 * Adr.FUS_DEP p 0
    s.fb (Fld.FUS_PORT_CFG_DMA p) && (decide (w ≤ a) && decide ((if inc then a + n else a + 4) ≤ w + 64))

/-- A completed transfer of `d` by channel `c` into a deposit window queues its samples (R70), from the port's owner (R69). -/
def State.dmaDeposit (s : State) (c : Nat) (d : List Byte) : State :=
  match s.depositPort (s.dmaDst c) d.length (s.fb (Fld.DMA_CTRL_DST_INC c)) with
  | some p => if s.f (Fld.FUS_PORT_CFG_OWNER p) = dmaMaster c then s.fusDma p d else s
  | none => s

/-- The bytes of an unpaced transfer are moved, as one (R431, R434). -/
def State.dmaMove (s : State) (c : Nat) : Moved :=
  let m := dmaMaster c
  let si := s.fb (Fld.DMA_CTRL_SRC_INC c)
  let di := s.fb (Fld.DMA_CTRL_DST_INC c)
  let n := s.f (Fld.DMA_COUNT_BYTES c)
  let u := if si && (di && (regionOf (s.dmaSrc c) != .page && regionOf (s.dmaDst c) != .page)) then 16 else 4
  let r := dmaReadAll m u si (n / 4) (s.dmaSrc c) n [] s
  match r.err with
  | some _ => r
  | none =>
    let w := dmaWriteAll m u di (n / 4) (s.dmaDst c) r.data r.st
    { w with data := r.data }

/-- A channel may act: busy, not stopping, and its block may issue requests (R32, R435). -/
def State.dmaActs (s : State) (c : Nat) : Bool := s.dmaBusy c && (!s.dma.stopping.contains c && s.mayMaster 143)

/-- Write the word `d` of a paced transfer to address `a`; `h` are the bytes brought so far. -/
def State.pacePut (s : State) (c : Nat) (h : List Byte) (a : Nat) (d : List Byte) : State :=
  let w := s.request (dmaMaster c) .write a 4 d []
  if w.rsp = .okay then w.st.setHeld c (h ++ d) else w.st.dmaBusErr a w.rsp

/-- A paced channel moves one held character, as a word (R369, R433). -/
def State.paceOne (s : State) (c u : Nat) : State :=
  let h := s.dmaHeld c
  if s.dmaActs c && (s.fb (Fld.UAT_CFG_RX_DMA u) && (!(s.uartOf u).rx.isEmpty && decide (h.length < s.f (Fld.DMA_COUNT_BYTES c)))) then
    let r := s.request (dmaMaster c) .read (s.dmaSrc c) 4 [] []
    if r.rsp = .okay then
      r.st.pacePut c h (if s.fb (Fld.DMA_CTRL_DST_INC c) then s.dmaDst c + h.length else s.dmaDst c) r.data
    else r.st.dmaBusErr (s.dmaSrc c) r.rsp
  else s

/-- Every paced channel takes what its UART holds; the answer shown stays that of the command. -/
def State.paceAll (s : State) : State :=
  (forUp 32 (fun c t =>
    match t.dmaPace c with
    | some u => forUp (t.uartOf u).rx.length (fun _ v => v.paceOne c u) t
    | none => t) s).answered s

/-- The last write response of channel `c` returns (R432): the descriptor completes, or the first error stops every channel (R437). A
paced transfer is done once its count of characters has been moved. -/
def State.dmaFinish (s : State) (c : Nat) : State :=
  if s.dmaActs c = false then s
  else
    match s.dmaPace c with
    | some _ =>
      if (s.dmaHeld c).length < s.f (Fld.DMA_COUNT_BYTES c) then s else ((s.dmaDeposit c (s.dmaHeld c)).dmaComplete c).paceAll
    | none =>
      let r := s.dmaMove c
      match r.err with
      | some e => r.st.dmaBusErr e.1 e.2
      | none => ((r.st.dmaDeposit c r.data).dmaComplete c).paceAll

/-- A stopped channel's outstanding responses return after `n` bytes have been moved (R435): `ERR` 5, and the registers give the
part not transferred; a descending copy keeps its addresses and loses its tail. -/
def State.dmaStopped (s : State) (c n : Nat) : State :=
  if s.dma.stopping.contains c = false then s
  else
    let all := s.f (Fld.DMA_COUNT_BYTES c)
    let k := match s.dmaPace c with
      | some _ => (s.dmaHeld c).length
      | none => min (n / 4 * 4) all
    let si := s.fb (Fld.DMA_CTRL_SRC_INC c) && (s.dmaPace c).isNone
    let di := s.fb (Fld.DMA_CTRL_DST_INC c)
    let down := s.fb (Fld.DMA_CTRL_MOVE c) && (si && (di && (overlaps (s.dmaSrc c) (s.dmaDst c) all &&
      decide (viewed (s.dmaSrc c) < viewed (s.dmaDst c)))))
    let src := s.dmaSrc c
    let dst := s.dmaDst c
    let m := dmaMaster c
    let r : Moved :=
      if (s.dmaPace c).isSome then { st := s }
      else
        let o := if down then all - k else 0
        let x := dmaReadAll m 4 si (k / 4) (src + o) k [] s
        match x.err with
        | some _ => x
        | none => dmaWriteAll m 4 di (k / 4) (dst + o) x.data x.st
    match r.err with
    | some e => r.st.dmaBusErr e.1 e.2
    | none =>
      let t := if si && !down then r.st.setAddr (Adr.DMA_SRC_LO c) (Adr.DMA_SRC_HI c) (src + k) else r.st
      let u := if di && !down then t.setAddr (Adr.DMA_DST_LO c) (Adr.DMA_DST_HI c) (dst + k) else t
      (u.setF (Fld.DMA_COUNT_BYTES c) (all - k)).dmaEnd c 5

/-! ### The commands -/

/-- `FABRIC_REQUEST`: identities 28–31 have no requester (R13). -/
def execFabricRequest (r : Req) (s : State) : Out :=
  liveIf (decide (r.master < 28)) s (s.fabric r.master r.kind r.addr r.size r.data r.en).paceAll

/-- The master `m` of a write to address `a` receives the response in the answer, and reacts to an error (R19). -/
def State.reacted (s : State) (m a : Nat) : State :=
  if s.answer.rsp = .okay then s else (s.masterErr m a s.answer.rsp).answered s

/-- `REGISTER_WRITE`: the write of `v` by master `m` to word `a` (page × 1,024 + offset / 4), past the fabric's checks. -/
def execRegisterWrite (m a : Nat) (v : Word) (s : State) : Out :=
  liveIf (decide (m < 28) && decide (a < 153 * 1024)) s
    ((if s.inReset (a / 1024) then (s.countRetired (a / 1024) 1).ans .retired []
      else s.pageWrite m a v).reacted m (0x4000_0000 + 4 * a)).paceAll

/-- `DEED_PASS`: master `m` writes identity `to` to `MEM_DEED_PASS[b]`. -/
def execDeedPass (m b h : Nat) (s : State) : Out := liveIf (decide (b < 64)) s ((doDeedPass s m b h).reacted m (0x4000_0000 + 4 * Adr.MEM_DEED_PASS b))

/-- `DMA_START`: a write of 1 to `DMA_CTRL[c].START`. -/
def execDmaStart (c : Nat) (s : State) : Out := liveIf (decide (c < 32)) s (s.dmaStart c).ok.paceAll

/-- `DMA_STOP`: a write of 1 to `DMA_CTRL[c].STOP`. -/
def execDmaStop (c : Nat) (s : State) : Out := liveIf (decide (c < 32)) s (s.dmaStop c).ok

/-- `DMA_STOPPED`: `n` bytes of the transfer have been moved. -/
def execDmaStopped (c n : Nat) (s : State) : Out := liveIf (decide (c < 32)) s (s.dmaStopped c n)

/-- `DMA_HALT`: a write of 1 to `DMA_GLOBAL.HALT`. -/
def execDmaHalt (s : State) : Out := live s ((s.setF Fld.DMA_GLOBAL_HALT 1).dmaStopAll 3).ok

/-- `DMA_TRANSFER_DONE`. -/
def execDmaTransferDone (c : Nat) (s : State) : Out := liveIf (decide (c < 32)) s (s.dmaFinish c)

/-- `UART_CHAR_RX`: operands as in `doUartRx`. -/
def execUartCharRx (u c : Nat) (framing parity brk : Bool) (back : Nat) (s : State) : Out :=
  liveIf (decide (u < 8) && s.uartOn u) s (doUartRx s u c framing parity brk back).paceAll

/-- The debug port holds the cores of `h` halted (R457): the shepherd core only when opened with the maker key, as a diagnostic
failure of safety. -/
def State.dbgHalt (s : State) (h : Nat) : State :=
  let x := if s.fb Fld.LCS_DBG_MAKER then h % 32 else h % 16 + (if bitOf s.lcs.halted 4 then 16 else 0)
  let t : State := { s with lcs := { s.lcs with halted := x } }
  if bitOf x 4 && !bitOf s.lcs.halted 4 then t.diagFail 4 else t

/-- `DBG_ACCESS`: a request of identity 22, or a halt; with the port closed it is `BYPASS` (R457). -/
def execDbgAccess (q : Option Req) (halt : Option Nat) (s : State) : Out :=
  live s (if s.fb Fld.LCS_DBG_OPEN then
      let t := s.setIr .dbgAccess
      let u := match halt with
        | some h => t.dbgHalt h
        | none => t
      match q with
      | some r => (u.fabric 22 r.kind r.addr r.size r.data r.en).paceAll
      | none => u
    else { s with tap := { s.tap with ir := .bypass, out := 0 } })

end Sys2Proof.Machine
end

