-- ==== Sys2Proof/Machine/Replay.lean ====
section
/-! DEFINITION. The receiving side of the replay port (R56–R59), and the reception of Ethernet frames (R347, R349). -/

namespace Sys2Proof.Machine

/-- The unit receives replay traffic on MAC `k` (R57, R58). -/
def State.replayRx (s : State) (k : Nat) : Bool :=
  s.f Fld.CMD_RPL_CTRL_MODE == 2 && (s.f Fld.CMD_RPL_CTRL_PORT == k && s.works 150)

/-- An Ethernet frame addressed to this unit's replay port (R57): IPv4 without options, whole, UDP, `CMD_RPL_SRC` and `UDP_PORT`. -/
def State.replayMine (s : State) (b : List Byte) : Bool :=
  beAt b 12 3 == 0x080045 && (beAt b 20 2 % 0x4000 == 0 && (beAt b 23 1 == 17 &&
    (beAt b 30 4 == s.f Fld.CMD_RPL_SRC_IPV4 && beAt b 36 2 == s.f Fld.CMD_RPL_CTRL_UDP_PORT)))

/-- The IPv4 header checksum and the UDP checksum are correct (R57). -/
def inetOk (b : List Byte) : Bool :=
  let n := beAt b 38 2
  let udp := (b.drop 34).take n
  fold16 (words16 ((b.drop 14).take 20)) == 0xFFFF &&
    (decide (32 ≤ n) && (udp.length == n && (beAt b 40 2 != 0 &&
      fold16 (words16 ((b.drop 26).take 8 ++ [0, 17] ++ beBytes 2 n ++ udp)) == 0xFFFF)))

/-- The replay datagram that a frame carries: the UDP payload. -/
def udpPayload (b : List Byte) : List Byte := (b.drop 42).take (beAt b 38 2 - 8)

/-- The header of R54 and its CRC-32C are right. -/
def replayOk (d : List Byte) : Bool :=
  decide (24 ≤ d.length) && (d.take 4 == ascii "DQRP" && (leAt d 4 2 == 1 && (decide (leAt d 16 2 < leAt d 18 2) &&
    leAt d 20 4 == crc32c (d.take 20 ++ d.drop 24))))

/-- A message with one more segment. -/
def RplMsg.add (m : RplMsg) (i : Nat) (p : List Byte) : RplMsg :=
  { m with segs := if m.segs.any fun e => e.1 == i then m.segs else spSet (fun _ => []) m.segs i p }

/-- A complete message's payload. -/
def RplMsg.payload (m : RplMsg) : List Byte := (m.segs.map fun e => e.2).flatten

/-- A snapshot is complete (R59): earlier ones still incomplete are skipped, and then nothing is computed until the next full image. -/
def State.snapDone (s : State) (frame : Nat) (b : List Byte) : State :=
  let gap := s.rpl.got.any fun m => m.kind == 0 && decide (m.frame < frame)
  let keep := s.rpl.got.filter fun m => !(m.kind == 0 && decide (m.frame < frame))
  let ready := if gap then [] else spSet (fun _ => []) s.rpl.ready frame b
  { s with rpl := { s.rpl with got := keep, ready := ready, loaded := if gap then none else s.rpl.loaded } }

/-- A trailer arrives (R59). -/
def State.trailer (s : State) (b : List Byte) : State :=
  match s.rpl.loaded with
  | none => s
  | some d =>
    if leAt b 16 8 = d then s
    else (State.setF { s with rpl := { s.rpl with stopped := true } } Fld.CMD_RPL_STAT_CFG_MISMATCH 1).raise Ev.CMD_RPL_MISMATCH

/-- A full image is complete: it waits for the next B0 edge, when its CRC is right (R59, R324). -/
def State.imageDone (s : State) (b : List Byte) : State :=
  if b.take 4 == ascii "DQSB" && leAt b 52 4 == imageCrc b then { s with rpl := { s.rpl with img := b } } else s

/-- A kept replay datagram (R54, R59). -/
def State.replayTake (s : State) (d : List Byte) : State :=
  let kind := leAt d 6 2
  let frame := leAt d 8 8
  let i := leAt d 16 2
  let n := leAt d 18 2
  let same := fun (m : RplMsg) => m.kind == kind && (m.frame == frame && m.count == n)
  let old := (s.rpl.got.find? same).getD ⟨kind, frame, n, []⟩
  let m := old.add i (d.drop 24)
  let rest := s.rpl.got.filter fun x => !same x
  if m.segs.length < n then { s with rpl := { s.rpl with got := rest ++ [m] } }
  else
    let t : State := { s with rpl := { s.rpl with got := rest } }
    if kind = 0 then t.snapDone frame m.payload
    else if kind = 1 then t.trailer m.payload
    else if kind = 2 then t.imageDone m.payload
    else t

/-- An Ethernet frame at the replay port: kept, or discarded without being counted (R57). -/
def State.replayFrameRx (s : State) (b : List Byte) : State :=
  if inetOk b && replayOk (udpPayload b) then s.replayTake (udpPayload b) else s

/-! ### Processing at a B0 edge (R59) -/

/-- The sections of a snapshot payload (R56): type, index, body. -/
def sectionsOf : Nat → List Byte → List (Nat × Nat × List Byte)
  | 0, _ => []
  | k + 1, b =>
    let ty := leAt b 0 2
    let n := leAt b 4 4
    if b.length < 16 ∨ ty = 15 then []
    else (ty, leAt b 2 2, (b.drop 16).take n) :: sectionsOf k (b.drop (16 + (n + 15) / 16 * 16))

/-- The body of a section; empty where there is none. -/
def sectionAt (l : List (Nat × Nat × List Byte)) (ty i : Nat) : List Byte :=
  ((l.find? fun e => e.1 == ty && e.2.1 == i).map fun e => e.2.2).getD []

/-- The samples of a port's sections 2 and 3, each with its `LATE` bit; `pts` holds the point blocks still to deal out. -/
def replaySamples : Nat → Bool → List Byte → List Byte → List (Smp × Bool)
  | 0, _, _, _ => []
  | k + 1, scan, b, pts =>
    let h := b.take 64
    let n := if scan then 8 * leAt h 14 2 else 0
    let q : Smp := { bytes := h, pts := pts.take n, arr := leAt b 64 8, cyc := leAt b 64 8, waited := true }
    (q, bitOf (leAt b 72 1) 0) :: replaySamples k scan (b.drop 80) (pts.drop n)

/-- The samples of every port of a replayed snapshot. -/
def State.replayed (s : State) (l : List (Nat × Nat × List Byte)) (p : Nat) : List (Smp × Bool) :=
  let b := sectionAt l 2 p
  replaySamples (b.length / 80) (s.ptype p == 6) b (sectionAt l 3 p)

/-- Load a full image (R59): each bank of its header into that bank, then every section in force as at a takeover (R322, R335). -/
def State.loadImage (s : State) (b : List Byte) : State :=
  let n := min 8 (leAt b 6 1)
  let s1 := forUp n (fun i t => t.store (bankAddr (leAt b (36 + i) 1 % 64) 0) (padTo 0x4_0000 ((b.drop (8192 * leAt b 6 1 + 0x4_0000 * i)).take 0x4_0000))) s
  let s2 := (s1.restoreTakeover none).setF Fld.CMD_SEL_PLAYING 0
  { s2 with rpl := { s2.rpl with img := [], loaded := some (leAt b 28 8), stopped := false } }

/-- A snapshot's blocks of the GNSS baseband, the filter chain and the field island lie in the snapshot bank (R124, R144, R277), and the
filter channels read the values of its last edge. -/
def State.replayBlocks (s : State) (l : List (Nat × Nat × List Byte)) : State :=
  let put := fun (t : State) (o : Nat) (b : List Byte) =>
    if b = [] then t else (t.mWrite 23 (bankAddr (t.f Fld.FUS_GLOBAL_SNAP_BANK) (64 * o)) b).st
  let g := put s (min 4031 (s.f Fld.GNS_MEAS_CFG_OFS)) (sectionAt l 4 0)
  let f := put g (min 4016 (s.f Fld.FLT_SNAP_CFG_OFS)) (sectionAt l 5 0)
  let i := put f (min 4016 (s.f Fld.FIO_SNAP_CFG_OFS)) (sectionAt l 6 0)
  let b := sectionAt l 5 0
  if b = [] then i else forUp 16 (fun c t => t.setReg (Adr.FLT_CH_OUT c) (BitVec.ofNat 32 (leAt b (39 * 128 + 8 * c) 4))) i

/-- Before the latch of a B0 edge in receive mode: a full image is loaded, and the lowest snapshot that is complete is taken, with its
frame number and its edge's time (R59). The sections of the snapshot are given. -/
def State.replayB0 (s : State) : State × Option (List (Nat × Nat × List Byte)) :=
  let t := if s.rpl.img = [] then s else s.loadImage s.rpl.img
  match t.rpl.loaded, t.rpl.ready with
  | some _, (n, b) :: rest =>
    if t.rpl.stopped then (t, none)
    else
      let l := sectionsOf b.length b
      let u : State := { t with
        rpl := { t.rpl with ready := rest }
        frm := { t.frm with replay := true, lastB0 := some (uns 64 (Int.ofNat (n * 10000000))) } }
      ((u.setPair Adr.TIM_FRAME_LO Adr.TIM_FRAME_HI n).loadCommitted (sectionAt l 1 0), some l)
  | none, _ :: _ => ({ t with rpl := { t.rpl with ready := [] } }, none)
  | _, [] => (t, none)

/-! ### The commands -/

/-- `REPLAY_DATAGRAM_RX`: the Ethernet frame `b` arrives on MAC `PORT` and is addressed to the replay port. -/
def execReplayDatagramRx (b : List Byte) (s : State) : Out :=
  let k := s.f Fld.CMD_RPL_CTRL_PORT
  liveIf (s.replayRx k && (s.ethRxOn k && s.replayMine b)) s (s.replayFrameRx b)

/-- `ETH_FRAME_RX`: the frame `b` arrives at MAC `k` with its FCS correct or not; its start-of-frame delimiter passed `back` ns ago.
Replay frames bypass the rings (R57). -/
def execEthFrameRx (k : Nat) (b : List Byte) (fcs : Bool) (back : Nat) (s : State) : Out :=
  let mine := fcs && (decide (60 ≤ b.length) && (decide (b.length ≤ 1518) && (s.replayRx k && (s.ethRxOn k && s.replayMine b))))
  liveIf (decide (k < 4)) s (if mine then s.replayFrameRx b else doEthRx s k b fcs back)

end Sys2Proof.Machine
end

