-- ==== Sys2Proof/Machine/Beat.lean ====
section
/-! DEFINITION. The beat edge (R33–R48): counting beats and frames, realignment, the commits, captures, latches, stage deadlines, slot
evaluation and outputs of each edge, and the start of beats. -/

namespace Sys2Proof.Machine

/-! ### Counting (R34, R35, R38) -/

/-- One edge's part of the realignment: at most 125 µs while it lasts, else 1 µs per second of beats, a quarter of a nanosecond per
edge (R37, R38). -/
def State.edgeShift (s : State) : State :=
  let r := s.frm.realignErr
  let d := s.frm.driftErr
  { s with frm := { s.frm with realignErr := r - clampI (-125000) 125000 r, driftErr := d - clampI (-1) 1 d } }

/-- What is kept per beat starts afresh (R28, R377, R439). -/
def State.newBeat (s : State) : State :=
  { s with
    evt := { s.evt with recorded := [] }
    fab := { s.fab with recorded := [] }
    mm := { s.mm with ceMem := false, ceDrc := false } }

/-- The beat index counts on (R34). -/
def State.beatCount (s : State) : State := (s.edgeShift.setF Fld.TIM_BEAT_STAT_BEAT ((s.beat + 1) % 40)).newBeat

/-- The frame number at a B0 edge (R35): one more, or T div 10,000,000 at the first B0 edge on its target of a realignment, which
ends there. -/
def State.frameCount (s : State) : State :=
  let done := s.fb Fld.TIM_BEAT_STAT_REALIGN && s.frm.realignErr == 0
  let t := if done then s.setF Fld.TIM_BEAT_STAT_REALIGN 0 else s
  (t.setPair Adr.TIM_FRAME_LO Adr.TIM_FRAME_HI (if done then s.now / 10000000 else s.frame + 1)).raise Ev.TIM_FRAME

/-! ### The frame that ends, and the one that begins (R46, R47) -/

/-- A stage of R46 overran in the frame that ends. -/
def State.frameOverran (s : State) : Bool :=
  let f := s.frm
  f.runs && (f.ovrFus || (f.estLate || (f.ovrAsm || (f.ovrCmd || (f.ovrPub || (f.deadline ||
    s.lsc.recs.any fun e => rStatus e.2 == 3 && leAt e.2 11 1 == 10))))))

/-- `PERSIST` consecutive frames have overrun (R47): a self-detected fault of a commanding unit (R334). -/
def State.ovrPersist (s : State) : State :=
  if max 1 (s.f Fld.TIM_OVR_RUN_PERSIST) ≤ s.f Fld.TIM_OVR_RUN_RUN then
    let t := s.raise Ev.TIM_OVR_PERSIST
    if 2 ≤ t.role then t.selfFault else t
  else s

/-- The overrun counts after a frame (R47). -/
def State.overrunCount (s : State) : State :=
  if s.frameOverran then
    let t := (s.stick Fld.TIM_OVR_CNT_COUNT Fld.TIM_OVR_CNT_SAT 1).stickN Fld.TIM_OVR_RUN_RUN 1
    (t.raise Ev.TIM_OVERRUN).ovrPersist
  else s.setF Fld.TIM_OVR_RUN_RUN 0

/-- The new frame's record of itself, empty. -/
def State.newFrame (s : State) : State :=
  { s with
    frm := { s.frm with
      runs := false, fusDone := false, asmDone := false, lanDone := false, cmdDone := false, recDone := false, pubDone := false,
      estOk := false, ovrFus := false, estLate := false, ovrAsm := false, ovrCmd := false, prevOvrPub := s.frm.ovrPub,
      ovrPub := false, lateCnt := 0, suspect := false, liveRead := false, eccUe := false, lanesDl := 0, deadline := false,
      freeRun := s.fb Fld.TIM_BEAT_STAT_FREE_RUN, stale := false, scenDone := 0, selBackstop := false, replay := false,
      lastB0 := some s.now }
    asm := { s.asm with listed := false }
    lsc := { s.lsc with placed := false } }

/-! ### The B0 edge -/

/-- The frame path runs in this frame: not suspended (R315), nor before its restart (R336, R337). -/
def State.frameRuns (s : State) : Bool :=
  decide (2 ≤ s.role) && (s.par.restart.isNone && (s.f Fld.PAR_STAT_TO_PHASE != 1 && s.f Fld.PAR_STAT_TO_PHASE != 2))

/-- The shadow registers of page `p` commit, unless its block is under reset (R31, R501). -/
def State.commitUp (s : State) (p : Nat) : State := if s.inReset p then s else s.commitPage p

/-- The commits at a B0 edge (R149, R156, R216, R228, R229, R501); `past`: `ASM_PAST_SEL` before them. -/
def State.b0Commits (s : State) (past : Word) : State :=
  let old := s.asm.sel
  let t := [37, 38, 40, 41].foldl State.commitUp s
  let t1 := if t.inReset 42 then t else
    let a := ((t.commitRegs 42 fun a => a != Adr.ASM_TBL_SEL).tblCommit (t.sh Adr.ASM_TBL_SEL)).commitGen 42
    (a.commitPage 43).purseStep (old.isNone && a.asm.sel.isSome)
  let t2 := if t1.inReset 44 then t1 else (t1.commitPage 44).lscB0 old
  if t2.inReset 28 then t2 else t2.cleB0 (t2.reg Adr.ASM_PAST_SEL != past)

/-- A block of the snapshot, written by the fusion block (R124, R144, R277). -/
def State.snapBlock (s : State) (en : Bool) (o : Nat) (b : List Byte) : State :=
  if en && s.frm.runs then (s.mWrite 23 (bankAddr (s.f Fld.FUS_GLOBAL_SNAP_BANK) (64 * o)) b).st else s

/-- The three blocks of the snapshot. -/
def State.snapBlocks (s : State) : State :=
  let g := s.snapBlock (s.dev.gnss && s.fb Fld.GNS_MEAS_CFG_EN) (min 4031 (s.f Fld.GNS_MEAS_CFG_OFS)) s.gnsSnap
  let f := g.snapBlock (s.fb Fld.FLT_SNAP_CFG_EN) (min 4016 (s.f Fld.FLT_SNAP_CFG_OFS)) s.fltSnap
  f.snapBlock (s.fb Fld.FIO_SNAP_CFG_EN) (min 4016 (s.f Fld.FIO_SNAP_CFG_OFS)) s.fioSnap

/-- No mounting register has been written since the last latch (R84). -/
def State.mountClean (s : State) : State := forUp 32 (fun p t => t.setFus p { t.fusOf p with mountDirty := false }) s

/-- The manual demand of the frame: the outputs of the three slots of `ASM_MAN` at the edge (R177). -/
def State.manualTake (s : State) : State :=
  let o := fun (n : Nat) => s.fi (Fld.CLE_SLOT_OUT_VALUE n)
  { s with asm := { s.asm with man := [o (s.f Fld.ASM_MAN_SLOT_X), o (s.f Fld.ASM_MAN_SLOT_Y), o (s.f Fld.ASM_MAN_SLOT_N)] } }

/-- The frame records that this frame owes the ledger (R378). -/
def State.frameOwes (s : State) : State :=
  let d := s.f Fld.LGR_CFG_FRAME_DIV
  if s.frm.runs && (d != 0 && s.frame % d == 0) then { s with lgr := { s.lgr with frameDue := some s.frame } } else s

/-- The frame path at a B0 edge (R39–R45): roles, replay, commits, captures, the latch, the grid pass and the replay port. -/
def State.edgeB0 (s : State) (e : EdgeIn) : State :=
  let past := s.reg Adr.ASM_PAST_SEL
  let s1 := s.parB0
  let rx := s1.f Fld.CMD_RPL_CTRL_MODE == 2 && s1.works 150
  let (s2, rep) := if rx then s1.replayB0 else (s1, none)
  let s3 : State := { s2 with frm := { s2.frm with runs := s1.frameRuns && (!rx || rep.isSome) } }
  let s4 := ((s3.b0Commits past).fltEdge.gnsEdge e true).fioEdge
  let s5 := match rep with
    | some l => (s4.replayBlocks l).fusLatch (some fun p => s4.replayed l p)
    | none => s4.snapBlocks.fusLatch none
  s5.mountClean.manualTake.gfeEdge.frameOwes.queueSnapshot

/-! ### Stage deadlines (R14, R40, R46) -/

/-- B4: fusion. -/
def State.edgeB4 (s : State) : State :=
  if s.frm.fusDone then s
  else
    let t : State := { s with frm := { s.frm with ovrFus := true } }
    if t.fus.latch then t.fusAbsent else t

/-- B7: the estimate, and the deeds to the assembler. -/
def State.edgeB7 (s : State) : State :=
  let t := s.asmB7.fencePass
  if t.works 37 then t.passBanks 23 24 else t

/-- B10: assembly, of which `k` jobs have been issued where it is not complete, and the deeds to the lane array. -/
def State.edgeB10 (s : State) (k : Nat) : State :=
  let t := if s.frm.asmDone then s
    else
      let u := if s.asm.listed && s.works 42 then s.assemble k else s
      { u with frm := { u.frm with ovrAsm := true } }
  (if t.works 42 then t.passBanks 24 5 else t).lscB10

/-- B36: modes, fences, the trajectory, the verdict summary and the end of a takeover. -/
def State.edgeB36 (s : State) : State :=
  let t := if s.inReset 28 then s else s.modeB36.fenceUpdate
  let u := if s.frm.runs then t.commitTraj else t
  let v : State := { u with frm := { u.frm with mode36 := u.asGraze u.mode } }
  let (w, fault) := if s.frm.runs then v.lscB36 else (v, false)
  (if fault && decide (2 ≤ w.role) then w.selfFault else w).parB36

/-- B39: publication, the deeds back to the fusion block, and the frame's supply-voltage command (R480). -/
def State.edgeB39 (s : State) : State :=
  let t := if s.frm.runs && !s.frm.pubDone then
      let u : State := { s with frm := { s.frm with ovrPub := true } }
      if u.sendsDelta then u.sbxSkip else u
    else s
  (if s.frm.runs && t.works 150 then t.passBanks 25 23 else t).avsStep

/-- The deadline of this edge. -/
def State.edgeStage (s : State) (e : EdgeIn) : State :=
  let b := s.beat
  if b = 36 then s.edgeB36
  else if b = 39 then s.edgeB39
  else if s.frm.runs = false then s
  else if b = 4 then s.edgeB4
  else if b = 7 then s.edgeB7
  else if b = 10 then s.edgeB10 e.asm
  else if b = 34 then s.lscB34 e.cuts
  else s

/-! ### The edge -/

/-- The main island runs: neither held in reset (R468) nor in `DOZE` (R461). -/
def State.mainOn (s : State) : Bool := !s.pwr.mainHeld && s.f Fld.PWR_STAT_STATE != 3

/-- The commits of every edge: `FIO_OUT`, and the slot pages by their commit registers (R236, R278). -/
def State.beatCommits (s : State) : State :=
  let t := s.commitUp 151
  if t.inReset 28 then t else (t.commitSlots 29 t.beat).commitSlots 30 t.beat

/-- The captures of an edge that is no B0 edge. -/
def State.captures (s : State) (e : EdgeIn) : State := (s.fltEdge.gnsEdge e false).fioEdge

/-- Slots and helm frames of the beat (R222, R238, R259, R261, R315). -/
def State.edgeSlots (s : State) : State :=
  (forUp 64 (fun n t => t.lockStep n) s).standbyLoad.helmEdge.evalSlots.helmBuild

/-- An edge's actions on the main island (R39). -/
def State.edgeMain (s : State) (e : EdgeIn) : State :=
  let t := s.stopStep.parEdge.beatCommits
  let u := if t.beat = 0 then t.edgeB0 e else t.captures e
  ((u.edgeStage e).edgeSlots.beatOut.sendRecord).fioRefresh

/-- An edge after it has been counted: at a B0 edge the waiting power change and the temperature come first (R464, R493). With the main
island stopped, only PAIR_BEAT changes (R465, R468). -/
def State.edgeActs (s : State) (e : EdgeIn) : State :=
  let t := if s.beat = 0 ∧ s.mainOn = true then s.powerB0 else s
  let u := if s.beat = 0 then t.therm e.tj else t
  if u.mainOn then u.edgeMain e else u.beatOut

/-- The end of the old frame and the start of the new one. -/
def State.frameTurn (s : State) : State := s.overrunCount.skipFrame.newFrame.frameCount

/-- A beat edge (R39). -/
def State.beatEdge (s : State) (e : EdgeIn) : State :=
  let t := s.beatCount
  (if t.beat = 0 then t.frameTurn else t).edgeActs e

/-- Beats start at a B0 edge (R35, R37). -/
def State.startBeats (s : State) (free : Bool) (e : EdgeIn) : State :=
  let t := ((s.setF Fld.TIM_BEAT_STAT_RUN 1).setF Fld.TIM_BEAT_STAT_FREE_RUN (b2n free)).setF Fld.TIM_BEAT_STAT_BEAT 0
  let u := (t.newBeat.newFrame.setPair Adr.TIM_FRAME_LO Adr.TIM_FRAME_HI (s.now / 10000000)).raise Ev.TIM_FRAME
  (u.edgeActs e).stepOn

/-! ### The commands -/

/-- `BEAT_EDGE`. -/
def execBeatEdge (e : EdgeIn) (s : State) : Out := liveIf s.running s (s.beatEdge e)

/-- `OVR_PERSIST`: what the B0 edge does after `PERSIST` consecutive overrun frames. -/
def execOvrPersist (s : State) : Out := liveIf s.running s s.ovrPersist

/-- `BEATS_START`: the first B0 edge after disciplined time is acquired. -/
def execBeatsStart (e : EdgeIn) (s : State) : Out :=
  liveIf (!s.running && s.fb Fld.TIM_STAT_ACQUIRED) s (s.startBeats false e)

/-- `FREE_RUN_START`: the first B0 edge after `START_TMO` s since the end of the safety start-up test. -/
def execFreeRunStart (e : EdgeIn) (s : State) : Out :=
  liveIf (!s.running && (!s.fb Fld.TIM_STAT_ACQUIRED && (s.frm.startTmo && s.fb Fld.TIM_BEAT_CTRL_ALLOW_FREE))) s (s.startBeats true e)

end Sys2Proof.Machine
end

