-- ==== Sys2Proof/Machine/Dispatch.lean ====
section
/-! DEFINITION. One arm per command; each arm is one direct call of the command's meaning. -/

namespace Sys2Proof.Machine

def exec (i : Instr) (s : State) : Host.Outcome State Fault Refusal :=
  match i with
  | .fabricRequest r => Sys2Proof.Machine.execFabricRequest r s
  | .registerWrite m a v => Sys2Proof.Machine.execRegisterWrite m a v s
  | .blockReset p masters => Sys2Proof.Machine.execBlockReset p masters s
  | .blockResetEnd p => Sys2Proof.Machine.execBlockResetEnd p s
  | .blockQuiesce p on => Sys2Proof.Machine.execBlockQuiesce p on s
  | .blockEnable p on => Sys2Proof.Machine.execBlockEnable p on s
  | .pageLock p v => Sys2Proof.Machine.execPageLock p v s
  | .eventSet p v => Sys2Proof.Machine.execEventSet p v s
  | .evtClaim t => Sys2Proof.Machine.execEvtClaim t s
  | .evtDone t n => Sys2Proof.Machine.execEvtDone t n s
  | .evtRouteWrite m n v => Sys2Proof.Machine.execEvtRouteWrite m n v s
  | .clockFault => Sys2Proof.Machine.execClockFault s
  | .railFault => Sys2Proof.Machine.execRailFault s
  | .railRecovered => Sys2Proof.Machine.execRailRecovered s
  | .beatEdge e => Sys2Proof.Machine.execBeatEdge e s
  | .ovrPersist => Sys2Proof.Machine.execOvrPersist s
  | .fenceGraze => Sys2Proof.Machine.execFenceGraze s
  | .beatsStart e => Sys2Proof.Machine.execBeatsStart e s
  | .freeRunStart e => Sys2Proof.Machine.execFreeRunStart e s
  | .fusionStageDone => Sys2Proof.Machine.execFusionStageDone s
  | .assemblyDone => Sys2Proof.Machine.execAssemblyDone s
  | .laneLoadDone l => Sys2Proof.Machine.execLaneLoadDone l s
  | .laneJobDone l => Sys2Proof.Machine.execLaneJobDone l s
  | .laneArrayDone => Sys2Proof.Machine.execLaneArrayDone s
  | .laneEccUe l => Sys2Proof.Machine.execLaneEccUe l s
  | .cmdFormationDone => Sys2Proof.Machine.execCmdFormationDone s
  | .imageInstant => Sys2Proof.Machine.execImageInstant s
  | .frmNumRead => Sys2Proof.Machine.execFrmNumRead s
  | .replaySnapshotSend => Sys2Proof.Machine.execReplaySnapshotSend s
  | .replayFullRequest => Sys2Proof.Machine.execReplayFullRequest s
  | .replayDatagramRx b => Sys2Proof.Machine.execReplayDatagramRx b s
  | .portCfgWrite p v => Sys2Proof.Machine.execPortCfgWrite p v s
  | .depositWindowWrite m p w v => Sys2Proof.Machine.execDepositWindowWrite m p w v s
  | .depositCommit m p => Sys2Proof.Machine.execDepositCommit m p s
  | .scanCopyDone p => Sys2Proof.Machine.execScanCopyDone p s
  | .gridPassDone => Sys2Proof.Machine.execGridPassDone s
  | .gfeWeightLoad => Sys2Proof.Machine.execGfeWeightLoad s
  | .scanClr => Sys2Proof.Machine.execScanClr s
  | .ifDown j => Sys2Proof.Machine.execIfDown j s
  | .jamCal => Sys2Proof.Machine.execJamCal s
  | .channelStart c v => Sys2Proof.Machine.execChannelStart c v s
  | .channelStop c v => Sys2Proof.Machine.execChannelStop c v s
  | .channelDirectStart c v => Sys2Proof.Machine.execChannelDirectStart c v s
  | .acqDone r code b => Sys2Proof.Machine.execAcqDone r code b s
  | .pullInLock c => Sys2Proof.Machine.execPullInLock c s
  | .pullInTimeout c => Sys2Proof.Machine.execPullInTimeout c s
  | .trackLoss c => Sys2Proof.Machine.execTrackLoss c s
  | .l5PullInEnd c track => Sys2Proof.Machine.execL5PullInEnd c track s
  | .l5Retry c => Sys2Proof.Machine.execL5Retry c s
  | .snapGo v => Sys2Proof.Machine.execSnapGo v s
  | .snapDone t0 d => Sys2Proof.Machine.execSnapDone t0 d s
  | .gnssTimeObs v => Sys2Proof.Machine.execGnssTimeObs v s
  | .timeLost => Sys2Proof.Machine.execTimeLost s
  | .fltCfgWrite n v => Sys2Proof.Machine.execFltCfgWrite n v s
  | .fltRestart c => Sys2Proof.Machine.execFltRestart c s
  | .stepDetected c => Sys2Proof.Machine.execStepDetected c s
  | .settledReturn c => Sys2Proof.Machine.execSettledReturn c s
  | .stuck c => Sys2Proof.Machine.execStuck c s
  | .stuckClear c => Sys2Proof.Machine.execStuckClear c s
  | .tableCheck v => Sys2Proof.Machine.execTableCheck v s
  | .chkDone => Sys2Proof.Machine.execChkDone s
  | .tableRelease v => Sys2Proof.Machine.execTableRelease v s
  | .slotILoad n => Sys2Proof.Machine.execSlotILoad n s
  | .slotWlock n on => Sys2Proof.Machine.execSlotWlock n on s
  | .lockHeld n => Sys2Proof.Machine.execLockHeld n s
  | .slotIstRead n => Sys2Proof.Machine.execSlotIstRead n s
  | .bitTimingWrite k data v => Sys2Proof.Machine.execBitTimingWrite k data v s
  | .canModeChange k v => Sys2Proof.Machine.execCanModeChange k v s
  | .txPush k => Sys2Proof.Machine.execTxPush k s
  | .txAbort k h => Sys2Proof.Machine.execTxAbort k h s
  | .txAbortAll k => Sys2Proof.Machine.execTxAbortAll k s
  | .txAttemptEnd k sent back => Sys2Proof.Machine.execTxAttemptEnd k sent back s
  | .canFrameRx k f back => Sys2Proof.Machine.execCanFrameRx k f back s
  | .pbRelease k v => Sys2Proof.Machine.execPbRelease k v s
  | .rxfPop k => Sys2Proof.Machine.execRxfPop k s
  | .canError k lec tx arb heavy => Sys2Proof.Machine.execCanError k lec tx arb heavy s
  | .busOffRecovery k => Sys2Proof.Machine.execBusOffRecovery k s
  | .dupWindowEnd k => Sys2Proof.Machine.execDupWindowEnd k s
  | .tsWrap => Sys2Proof.Machine.execTsWrap s
  | .fbStale t => Sys2Proof.Machine.execFbStale t s
  | .driveHelmFrame d f => Sys2Proof.Machine.execDriveHelmFrame d f s
  | .driveHoldTimeout d => Sys2Proof.Machine.execDriveHoldTimeout d s
  | .driveReset d => Sys2Proof.Machine.execDriveReset d s
  | .fioFreeRefresh => Sys2Proof.Machine.execFioFreeRefresh s
  | .wdTrip => Sys2Proof.Machine.execWdTrip s
  | .fioWdClr v => Sys2Proof.Machine.execFioWdClr v s
  | .fioEnableWrite v => Sys2Proof.Machine.execFioEnableWrite v s
  | .diFilterChange j level => Sys2Proof.Machine.execDiFilterChange j level s
  | .pulseEdge j => Sys2Proof.Machine.execPulseEdge j s
  | .outputTrip j => Sys2Proof.Machine.execOutputTrip j s
  | .islandOvercurrent => Sys2Proof.Machine.execIslandOvercurrent s
  | .lplusUndervoltage low => Sys2Proof.Machine.execLplusUndervoltage low s
  | .linkLost => Sys2Proof.Machine.execLinkLost s
  | .subBeat low high crc ue => Sys2Proof.Machine.execSubBeat low high crc ue s
  | .beatLost => Sys2Proof.Machine.execBeatLost s
  | .subbeatOvr => Sys2Proof.Machine.execSubbeatOvr s
  | .safetyInputChange j closed => Sys2Proof.Machine.execSafetyInputChange j closed s
  | .discrep p => Sys2Proof.Machine.execDiscrep p s
  | .testPulse tp high => Sys2Proof.Machine.execTestPulse tp high s
  | .ss1Request => Sys2Proof.Machine.execSs1Request s
  | .ss1Tmax => Sys2Proof.Machine.execSs1Tmax s
  | .offTest k fell => Sys2Proof.Machine.execOffTest k fell s
  | .diagClear v => Sys2Proof.Machine.execDiagClear v s
  | .safRelease v => Sys2Proof.Machine.execSafRelease v s
  | .icvoLaneDown n => Sys2Proof.Machine.execIcvoLaneDown n s
  | .icvoLaneUp n => Sys2Proof.Machine.execIcvoLaneUp n s
  | .heartbeatFreeSend => Sys2Proof.Machine.execHeartbeatFreeSend s
  | .heartbeatRx b ofs => Sys2Proof.Machine.execHeartbeatRx b ofs s
  | .beatRecordRx b => Sys2Proof.Machine.execBeatRecordRx b s
  | .deltaRx b => Sys2Proof.Machine.execDeltaRx b s
  | .deltaCopyDone => Sys2Proof.Machine.execDeltaCopyDone s
  | .resyncBankRx b => Sys2Proof.Machine.execResyncBankRx b s
  | .resync => Sys2Proof.Machine.execResync s
  | .seekTimeout => Sys2Proof.Machine.execSeekTimeout s
  | .listenMinEnd => Sys2Proof.Machine.execListenMinEnd s
  | .missedBeat helm => Sys2Proof.Machine.execMissedBeat helm s
  | .fault => Sys2Proof.Machine.execFault s
  | .clrFaulty => Sys2Proof.Machine.execClrFaulty s
  | .handover => Sys2Proof.Machine.execHandover s
  | .coresUp => Sys2Proof.Machine.execCoresUp s
  | .flashPeriod => Sys2Proof.Machine.execFlashPeriod s
  | .flashNow => Sys2Proof.Machine.execFlashNow s
  | .flashCopy => Sys2Proof.Machine.execFlashCopy s
  | .epochArm => Sys2Proof.Machine.execEpochArm s
  | .epochComplete => Sys2Proof.Machine.execEpochComplete s
  | .ethFrameRx k b fcs back => Sys2Proof.Machine.execEthFrameRx k b fcs back s
  | .ethTxDone k => Sys2Proof.Machine.execEthTxDone k s
  | .ethRingTail k tx j => Sys2Proof.Machine.execEthRingTail k tx j s
  | .ethLinkDown k => Sys2Proof.Machine.execEthLinkDown k s
  | .ethLinkUp k => Sys2Proof.Machine.execEthLinkUp k s
  | .ethCalGo k => Sys2Proof.Machine.execEthCalGo k s
  | .ethCalDone k n rtt => Sys2Proof.Machine.execEthCalDone k n rtt s
  | .rateWrite m v => Sys2Proof.Machine.execRateWrite m v s
  | .stepWrite m v => Sys2Proof.Machine.execStepWrite m v s
  | .stepForce => Sys2Proof.Machine.execStepForce s
  | .slewIncrement => Sys2Proof.Machine.execSlewIncrement s
  | .timeNowRead => Sys2Proof.Machine.execTimeNowRead s
  | .ptpObsSubmit v => Sys2Proof.Machine.execPtpObsSubmit v s
  | .ptpSourceLost => Sys2Proof.Machine.execPtpSourceLost s
  | .ppsRise => Sys2Proof.Machine.execPpsRise s
  | .ppsFall => Sys2Proof.Machine.execPpsFall s
  | .ppsSourceLost => Sys2Proof.Machine.execPpsSourceLost s
  | .tpulse => Sys2Proof.Machine.execTpulse s
  | .extLost => Sys2Proof.Machine.execExtLost s
  | .uartCharRx u c framing parity brk back => Sys2Proof.Machine.execUartCharRx u c framing parity brk back s
  | .uartRxPop m u => Sys2Proof.Machine.execUartRxPop m u s
  | .uartStampPop m u => Sys2Proof.Machine.execUartStampPop m u s
  | .uartTxWrite u v => Sys2Proof.Machine.execUartTxWrite u v s
  | .uartDivWrite u v => Sys2Proof.Machine.execUartDivWrite u v s
  | .ledgerStage => Sys2Proof.Machine.execLedgerStage s
  | .lgrSwCommit m c => Sys2Proof.Machine.execLgrSwCommit m c s
  | .flush => Sys2Proof.Machine.execFlush s
  | .flushMsExpiry => Sys2Proof.Machine.execFlushMsExpiry s
  | .ledgerUnitWritten good => Sys2Proof.Machine.execLedgerUnitWritten good s
  | .ledgerStart => Sys2Proof.Machine.execLedgerStart s
  | .arm => Sys2Proof.Machine.execArm s
  | .close => Sys2Proof.Machine.execClose s
  | .trigger => Sys2Proof.Machine.execTrigger s
  | .lgrNonceDraw => Sys2Proof.Machine.execLgrNonceDraw s
  | .vaultRelease => Sys2Proof.Machine.execVaultRelease s
  | .xtrGo v => Sys2Proof.Machine.execXtrGo v s
  | .xtrDone fail => Sys2Proof.Machine.execXtrDone fail s
  | .mounted ok0 ok1 => Sys2Proof.Machine.execMounted ok0 ok1 s
  | .nfcWrite m v => Sys2Proof.Machine.execNfcWrite m v s
  | .nfcLoad m v => Sys2Proof.Machine.execNfcLoad m v s
  | .nfcErase m v => Sys2Proof.Machine.execNfcErase m v s
  | .nfcImage m v => Sys2Proof.Machine.execNfcImage m v s
  | .reqDone uncorr => Sys2Proof.Machine.execReqDone uncorr s
  | .nandOperationDone op b q res => Sys2Proof.Machine.execNandOperationDone op b q res s
  | .relocationDone b => Sys2Proof.Machine.execRelocationDone b s
  | .patrol b res => Sys2Proof.Machine.execPatrol b res s
  | .nfcBootSel v => Sys2Proof.Machine.execNfcBootSel v s
  | .nfcFormat v bad => Sys2Proof.Machine.execNfcFormat v bad s
  | .deedPass m b h => Sys2Proof.Machine.execDeedPass m b h s
  | .arbitrationPromote => Sys2Proof.Machine.execArbitrationPromote s
  | .eccWriteback a => Sys2Proof.Machine.execEccWriteback a s
  | .scrubStep a upsets => Sys2Proof.Machine.execScrubStep a upsets s
  | .memoryClearDone => Sys2Proof.Machine.execMemoryClearDone s
  | .marchGo v => Sys2Proof.Machine.execMarchGo v s
  | .marchPreserveGo v => Sys2Proof.Machine.execMarchPreserveGo v s
  | .marchDone target j bad => Sys2Proof.Machine.execMarchDone target j bad s
  | .dramTrained => Sys2Proof.Machine.execDramTrained s
  | .dmaStart c => Sys2Proof.Machine.execDmaStart c s
  | .dmaStop c => Sys2Proof.Machine.execDmaStop c s
  | .dmaStopped c n => Sys2Proof.Machine.execDmaStopped c n s
  | .dmaHalt => Sys2Proof.Machine.execDmaHalt s
  | .dmaTransferDone c => Sys2Proof.Machine.execDmaTransferDone c s
  | .fwlArm key => Sys2Proof.Machine.execFwlArm key s
  | .ruleSelect j => Sys2Proof.Machine.execRuleSelect j s
  | .ruleCommit => Sys2Proof.Machine.execRuleCommit s
  | .lcNonceDraw => Sys2Proof.Machine.execLcNonceDraw s
  | .lcTransition arg good => Sys2Proof.Machine.execLcTransition arg good s
  | .lcOpenDebug arg => Sys2Proof.Machine.execLcOpenDebug arg s
  | .lcCloseDebug arg => Sys2Proof.Machine.execLcCloseDebug arg s
  | .lcProgramKey arg good => Sys2Proof.Machine.execLcProgramKey arg good s
  | .lcProgramSecret arg good => Sys2Proof.Machine.execLcProgramSecret arg good s
  | .tmxSelect k v => Sys2Proof.Machine.execTmxSelect k v s
  | .tapBypass => Sys2Proof.Machine.execTapBypass s
  | .tapIdcode => Sys2Proof.Machine.execTapIdcode s
  | .tapSamplePreload pins chain => Sys2Proof.Machine.execTapSamplePreload pins chain s
  | .tapExtest pins chain => Sys2Proof.Machine.execTapExtest pins chain s
  | .tapClamp => Sys2Proof.Machine.execTapClamp s
  | .tapHighz => Sys2Proof.Machine.execTapHighz s
  | .dbgAccess q halt => Sys2Proof.Machine.execDbgAccess q halt s
  | .powerStateChange waiting => Sys2Proof.Machine.execPowerStateChange waiting s
  | .lanesOn => Sys2Proof.Machine.execLanesOn s
  | .dozeExit waiting => Sys2Proof.Machine.execDozeExit waiting s
  | .powerOff v => Sys2Proof.Machine.execPowerOff v s
  | .wake => Sys2Proof.Machine.execWake s
  | .powerOnReset => Sys2Proof.Machine.execPowerOnReset s
  | .resetN => Sys2Proof.Machine.execResetN s
  | .watchdogExpiry => Sys2Proof.Machine.execWatchdogExpiry s
  | .wdtWarn => Sys2Proof.Machine.execWdtWarn s
  | .watchdogKick v => Sys2Proof.Machine.execWatchdogKick v s
  | .sysSwreset v => Sys2Proof.Machine.execSysSwreset v s
  | .mainResetRelease => Sys2Proof.Machine.execMainResetRelease s
  | .bootRetry => Sys2Proof.Machine.execBootRetry s
  | .bootRequestSend => Sys2Proof.Machine.execBootRequestSend s
  | .bootRequestRx b => Sys2Proof.Machine.execBootRequestRx b s
  | .bootDataRx b => Sys2Proof.Machine.execBootDataRx b s
  | .bootEndRx b => Sys2Proof.Machine.execBootEndRx b s
  | .bootTimeout => Sys2Proof.Machine.execBootTimeout s
  | .shepherdSectionStart => Sys2Proof.Machine.execShepherdSectionStart s
  | .coreRel v => Sys2Proof.Machine.execCoreRel v s
  | .next => Sys2Proof.Machine.execNext s
  | .avsTransactionEnd ok mv => Sys2Proof.Machine.execAvsTransactionEnd ok mv s
  | .vaonLoss => Sys2Proof.Machine.execVaonLoss s
  | .pairBeatIToggle ofs => Sys2Proof.Machine.execPairBeatIToggle ofs s
  | .bitSynchronisation c => Sys2Proof.Machine.execBitSynchronisation c s
  | .dataBit c neg => Sys2Proof.Machine.execDataBit c neg s
  | .fineOutput c bits => Sys2Proof.Machine.execFineOutput c bits s
  | .fieldLinkUp => Sys2Proof.Machine.execFieldLinkUp s
  | .outputMismatch j present => Sys2Proof.Machine.execOutputMismatch j present s
  | .uartCharSent u => Sys2Proof.Machine.execUartCharSent u s
  | .dramPatrol a upsets => Sys2Proof.Machine.execDramPatrol a upsets s
  | .tempHigh code above => Sys2Proof.Machine.execTempHigh code above s

end Sys2Proof.Machine
end

