-- ==== Sys2Proof/Machine/Step.lean ====
section
/-! DEFINITION. One step of the block: the command at the front of the queue, or one nanosecond. -/

namespace Sys2Proof.Machine

/-- One nanosecond passes with nothing commanded: the raw counter counts while the time block has power (R356). -/
def State.tick (s : State) : State :=
  if s.pwr.on then { s with tim := { s.tim with raw := (s.tim.raw + 1) % 2 ^ 64 } } else s

/-- A step: the command at the front of the queue is taken and run with the rest of the queue; on an empty queue one nanosecond
passes. -/
def step (s : State) : Host.Outcome State Fault Refusal :=
  match s.pending with
  | [] => .next s.tick
  | c :: rest => exec c { s with pending := rest }

/-- The state with the command that a word spells put at the front of the queue. -/
def State.withFetchWord (s : State) (nbits w : Nat) : State :=
  match Sys2Proof.decodeTableWord nbits w with
  | some c => { s with pending := c :: s.pending }
  | none => s

end Sys2Proof.Machine
end

