-- ==== Sys2Proof/Safety.lean ====
section
/-! DEFINITION. What a good state is, in the terms the statements use: the sparse files and memory stand in their canonical
form, and every queue and FIFO of the device holds no more than the spec gives it room for. -/

namespace Sys2Proof.Machine

/-- One CAN controller holds at most 64 frame records (R254). -/
def CanSt.bounded (c : CanSt) : Prop := c.fifo.length ≤ 64

/-- One UART holds at most 1,024 received characters, 32 stamps and 255 characters to send (R369, R370). -/
def UartSt.bounded (u : UartSt) : Prop := u.rx.length ≤ 1024 ∧ u.stamps.length ≤ 32 ∧ u.tx.length ≤ 255

/-- One Ethernet MAC holds at most 16 Delay_Req identities (R353) and 8 transit frames (R355). -/
def EthSt.bounded (e : EthSt) : Prop := e.delayReq.length ≤ 16 ∧ e.transit.length ≤ 8

/-- What every step keeps. -/
structure State.Inv (s : State) : Prop where
  /-- The register file and the shadows list addresses in rising order and no value that equals the reset value. -/
  regs : spWf regReset s.regs = true
  shadow : spWf regReset s.shadow = true
  /-- Memory lists addresses in rising order and no byte that equals what an unlisted address reads as. -/
  mem : s.memWf = true
  /-- The error marks of memory halves stand in the same form. -/
  ecc : spWf (fun _ => 0) s.mm.ecc = true
  /-- At most 256 records wait for the ledger writer (R376). -/
  queue : s.lgr.queue.length ≤ 256
  can : ∀ c ∈ s.can, c.bounded
  uart : ∀ u ∈ s.uart, u.bounded
  eth : ∀ e ∈ s.eth, e.bounded
  /-- At most 8 frames wait to be sent by the replay port (R55). -/
  replay : s.rpl.tx.length ≤ 8

/-! ### The words the statements use -/

/-- The register file lists addresses in rising order and no value that equals the reset value. -/
structure State.regsWf (s : State) : Prop where
  wf : spWf regReset s.regs = true

/-- Command `c` runs: it answers a next state, and that state is as `P` says. -/
def Runs (c : Instr) (s : State) (P : State → Prop) : Prop := ∃ t, exec c s = .next t ∧ P t

/-- Every register but those of the words `l` reads as before. -/
def RegsKept (l : List Nat) (s t : State) : Prop := ∀ a, canon a ∉ l → t.reg a = s.reg a

/-- Every byte of memory reads as before. -/
def MemKept (s t : State) : Prop := ∀ a, t.rd8 a = s.rd8 a

/-- Only registers of the words `l` change, and the answer on the fabric; nothing else of the state does. -/
def OnlyRegs (l : List Nat) (s t : State) : Prop :=
  RegsKept l s t ∧ t = { s with regs := t.regs, answer := t.answer }

/-- The words that raising an event of page `p` may change: the page's `EVENT`, the ledger's, and the ledger's counts (R28, R382,
R387). -/
def evWords (p : Nat) : List Nat := [hdr p 4, hdr 148 4, Adr.LGR_CNT_A, Adr.LGR_CNT_B, Adr.LGR_FLAGS]

/-- Only registers of the words `l` change, with what raising events of page `p` brings about: the words of `evWords`, the ledger's
queue and vault, and what the event controller keeps of the beat. -/
def OnlyRaised (p : Nat) (l : List Nat) (s t : State) : Prop :=
  RegsKept (evWords p ++ l) s t ∧ t = { s with regs := t.regs, answer := t.answer, lgr := t.lgr, evt := t.evt }

/-- Only registers of the words `l` change, with what raising events of the life-cycle controller brings about, and the life-cycle
controller's own state. -/
def OnlyLcs (l : List Nat) (s t : State) : Prop :=
  RegsKept (evWords 4 ++ l) s t ∧ t = { s with regs := t.regs, answer := t.answer, lgr := t.lgr, evt := t.evt, lcs := t.lcs }

/-- The event bit of `e` is set. -/
structure State.raised (s : State) (e : Ev) : Prop where
  bit : bitOf (s.reg (hdr e.page 4)).toNat e.bit = true

end Sys2Proof.Machine
end

