-- ==== Sys2Proof/Certificates/Slice0/Obligations.lean ====
section
/-! DEFINITION. The statements for the provers, family by family. Each says of every state with power (`pwr.on`) and a well-formed
register file (`regsWf`, one clause of the invariant) what a command does and what it leaves alone. -/

open Sys2Proof Sys2Proof.Machine

/-! ### Words of the statements -/

/-- The commands that act with the main supplies off: the drives, outside the device, and the supply, reset and wake pins. -/
def actsUnpowered : Instr → Bool
  | .driveHelmFrame _ _ | .driveHoldTimeout _ | .driveReset _ | .vaonLoss | .powerOnReset | .resetN | .wake => true
  | _ => false

/-- The result code a life-cycle request ends with, in the order of the checks: 3 not allowed, 4 no nonce, 5 slots, 6 key hash, 2
signature, 7 fuses (where fuses are blown, `blows`), 1 done. The order of the checks 4, 5, 6, 2 is the model's choice (log entry 12). -/
def lifeCycleCode (s : State) (op arg : Nat) (blows good : Bool) : Nat :=
  if s.lcAllowed op arg = false then 3
  else
    match s.lcs.nonce with
    | none => 4
    | some n =>
      let key := if s.lcMaker op arg then Config.makerKey else s.pubKey
      if s.lcSlots op arg = false then 5
      else if s.lcMaker op arg = false ∧ s.lcs.custHash ≠ some (sha384 key) then 6
      else if ecdsaVerify key (s.lcMsg op arg n) (s.words (Adr.LCS_TOKEN 0) 24) = false then 2
      else if blows = true ∧ good = false then 7 else 1

/-- What follows a request on the fabric: the master's reaction to an error response, the answer, and the paced DMA channels. -/
def afterRequest (r : Req) (u : State) (p : Rsp) (d : List Byte) : State :=
  ((if p = .okay then u else u.masterErr r.master r.addr p).ans p d).paceAll

/-! ### The machine as a whole -/

/-- With command `c` at the front of the queue, a step is `exec` of `c` on the state with the rest of the queue. -/
def Obligations.StepRunsFrontCommand : Prop :=
  ∀ (s : State) (c : Instr) (rest : List Instr), step { s with pending := c :: rest } = exec c { s with pending := rest }

/-- On an empty queue one nanosecond passes: the raw counter counts modulo 2⁶⁴ while the device has power, and nothing else changes
(the model's choice, log entry 2). -/
def Obligations.EmptyQueuePassesOneNanosecond : Prop :=
  ∀ s : State, s.pending = [] →
    (s.pwr.on = true → step s = .next { s with tim := { s.tim with raw := (s.tim.raw + 1) % 2 ^ 64 } }) ∧
    (s.pwr.on = false → step s = .next s)

/-- Every command answers a next state, whatever the state and the operands: no data ends a run. No command touches the commands that
wait behind it. -/
def Obligations.CommandsAnswerAndLeaveQueue : Prop :=
  (∀ (c : Instr) (s : State), ∃ t, exec c s = .next t) ∧
  (∀ (c : Instr) (s t : State), exec c s = .next t → t.pending = s.pending)

/-- The invariant of Safety.lean holds at reset. -/
def Obligations.ResetMeetsInvariant : Prop := State.reset.Inv

/-- Every step keeps the invariant: the register file, the shadows and memory stay in canonical form, and no queue or FIFO outgrows the
room the spec gives it. -/
def Obligations.StepKeepsInvariant : Prop := ∀ s t : State, s.Inv → step s = .next t → t.Inv

/-- Without power no command of the device acts (R466, R482): only the drives, which stand outside it, and the supply, reset and wake pins
(`actsUnpowered`) do. -/
def Obligations.UnpoweredDeviceHoldsStill : Prop :=
  ∀ (c : Instr) (s : State), s.pwr.on = false → actsUnpowered c = false → exec c s = .next s

/-! ### Header words and events (R24–R28, R32, R497–R499) -/

/-- A write of `xxx_EVENT_SET` sets exactly the written bits that are events of the block; nothing else changes but what their assertion
brings about in the ledger and the event controller. The ledger's own page is excepted from the first clause, since its queue may raise
further events of it. `LOCK` bits only set; `QUIESCE` and `ENABLE` take the written value, `ENABLE` not on the pages that always work. A
write of `EVT_ROUTE[n]` sets its routing; its `SHP` field changes only when the shepherd core (identity 4) writes it; a locked page
takes no write. -/
def Obligations.HeaderWordsAndRoutes : Prop :=
  (∀ (s : State) (p : Nat) (v : Word), s.pwr.on = true → s.regsWf → s.pageOk p = true →
     Runs (.eventSet p v) s fun t =>
       (p ≠ 148 → t.reg (hdr p 4) = (s.reg (hdr p 4) ||| BitVec.ofNat 32 (v.toNat &&& evMask (blockPage p)))) ∧
       (∀ b, b < 32 → bitOf v.toNat b = true → bitOf (evMask (blockPage p)) b = true →
         bitOf (t.reg (hdr p 4)).toNat b = true) ∧
       OnlyRaised (blockPage p) [] s t) ∧
  (∀ (s : State) (p : Nat), s.pwr.on = true → s.regsWf → s.pageOk p = true →
     (∀ v : Word, Runs (.pageLock p v) s fun t => t.reg (hdr p 7) = (s.reg (hdr p 7) ||| (v &&& 7)) ∧ OnlyRegs [hdr p 7] s t) ∧
     (∀ on : Bool, Runs (.blockQuiesce p on) s fun t => t.quiesced (blockPage p) = on ∧ t.enabled (blockPage p) = s.enabled (blockPage p) ∧
       OnlyRegs [canon (hdr p 2)] s t) ∧
     (∀ on : Bool, p ≠ 41 → Runs (.blockEnable p on) s fun t =>
       if fixedPage p then t = s.ok
       else t.enabled (blockPage p) = on ∧ t.quiesced (blockPage p) = s.quiesced (blockPage p) ∧ OnlyRegs [canon (hdr p 2)] s t)) ∧
  (∀ (s : State) (m n : Nat) (v : Word), s.pwr.on = true → s.regsWf → n < 512 →
     Runs (.evtRouteWrite m n v) s fun t =>
       if s.locked (Adr.EVT_ROUTE n) then t = s.ok
       else t.f (Fld.EVT_ROUTE_LGR n) = bitsOf v.toNat 24 24 ∧ t.f (Fld.EVT_ROUTE_PRIO n) = bitsOf v.toNat 18 16 ∧
         t.f (Fld.EVT_ROUTE_CORE n) = bitsOf v.toNat 3 0 ∧
         t.f (Fld.EVT_ROUTE_SHP n) = (if m = 4 then bitsOf v.toNat 8 8 else s.f (Fld.EVT_ROUTE_SHP n)) ∧
         OnlyRegs [Adr.EVT_ROUTE n] s t)

/-- A read of `EVT_CLAIM[t]` gives the claimable source of the highest priority, the lowest number between equals, and claims it for the
target; it gives 0 and claims nothing when no source is claimable. A write of source `n` to `EVT_DONE[t]` releases that claim of that
target and no other. -/
def Obligations.ClaimsAreExclusive : Prop :=
  (∀ (s : State) (k : Nat), s.pwr.on = true → k < 5 →
     ((∀ n, n < 512 → s.claimable k n = false) → Runs (.evtClaim k) s fun t => t = s.ansW 0) ∧
     (∀ n, n < 512 → s.claimable k n = true →
       (∀ m, m < 512 → s.claimable k m = true → s.f (Fld.EVT_ROUTE_PRIO m) < s.f (Fld.EVT_ROUTE_PRIO n) ∨
         (s.f (Fld.EVT_ROUTE_PRIO m) = s.f (Fld.EVT_ROUTE_PRIO n) ∧ n ≤ m)) →
       Runs (.evtClaim k) s fun t =>
         t.answer = ⟨.okay, leBytes 4 (2 ^ 31 + n)⟩ ∧ t.evt.claimed = (k, n) :: s.evt.claimed ∧ t.claimable k n = false ∧
         t = { s with evt := t.evt, answer := t.answer })) ∧
  (∀ (s : State) (k n : Nat), s.pwr.on = true → k < 5 →
     Runs (.evtDone k n) s fun t =>
       (∀ j m, (j, m) ∈ t.evt.claimed ↔ (j, m) ∈ s.evt.claimed ∧ (j, m) ≠ (k, n)) ∧
       t = { s with evt := { s.evt with claimed := t.evt.claimed }, answer := ⟨.okay, []⟩ })

/-! ### Access tables, life cycle, test multiplexer, boundary scan (R440–R460) -/

/-- The right key arms the tables when every list lies in the rule store: `ENFORCE` and every lock of the page are set. With a list that
does not, `ARM_ERR` is set and `ARM_REFUSED` raised. Any other key does nothing. A write of `RULE_SEL` selects a rule and shows its four
words in the window. A commit writes the window into the selected rule, `FIXED` and `LOCK` bits of word 3 included, unless the tables
are enforced and the rule is locked, or the commit would set bit 30 or 29 anew: then `REFUSED` is set and no rule changes. -/
def Obligations.AccessTablesAreWritten : Prop :=
  (∀ (s : State) (key : Nat), s.pwr.on = true → s.regsWf →
     (key % 65536 = 0x10C4 → s.listsOk = true → Runs (.fwlArm key) s fun t =>
       t.f Fld.FWL_STAT_ENFORCE = 1 ∧ t.reg (hdr 3 7) = 7 ∧ OnlyRegs [Adr.FWL_STAT, hdr 3 7] s t) ∧
     (key % 65536 = 0x10C4 → s.listsOk = false → Runs (.fwlArm key) s fun t =>
       t.f Fld.FWL_STAT_ARM_ERR = 1 ∧ t.f Fld.FWL_STAT_ENFORCE = s.f Fld.FWL_STAT_ENFORCE ∧ t.raised Ev.FWL_ARM_REFUSED ∧
         OnlyRaised 3 [Adr.FWL_STAT] s t) ∧
     (key % 65536 ≠ 0x10C4 → Runs (.fwlArm key) s fun t => t = s.ok)) ∧
  (∀ (s : State) (j : Nat), s.pwr.on = true → s.regsWf → j < 4096 →
     Runs (.ruleSelect j) s fun t =>
       t.f Fld.FWL_RULE_SEL_IDX = j ∧
       (∀ w, w < 4 → t.reg (Adr.FWL_RULE_W w) = BitVec.ofNat 32 (s.rule j w)) ∧
       OnlyRegs [Adr.FWL_RULE_SEL, Adr.FWL_RULE_W 0, Adr.FWL_RULE_W 1, Adr.FWL_RULE_W 2, Adr.FWL_RULE_W 3] s t) ∧
  (∀ s : State, s.pwr.on = true → s.regsWf → spWf (fun _ => (0 : Word)) s.fwl.rules = true →
     let j := s.f Fld.FWL_RULE_SEL_IDX
     let w3 := (s.reg (Adr.FWL_RULE_W 3)).toNat &&& 0xE0000007
     let stop := s.fb Fld.FWL_STAT_ENFORCE = true ∧ (bitOf (s.rule j 3) 30 = true ∨
       (bitOf w3 30 = true ∧ bitOf (s.rule j 3) 30 = false) ∨ (bitOf w3 29 = true ∧ bitOf (s.rule j 3) 29 = false))
     (stop → Runs .ruleCommit s fun t => t.f Fld.FWL_STAT_REFUSED = 1 ∧ OnlyRegs [Adr.FWL_STAT] s t) ∧
     (¬stop → Runs .ruleCommit s fun t =>
       (∀ w, w < 3 → t.rule j w = (s.reg (Adr.FWL_RULE_W w)).toNat) ∧ t.rule j 3 = w3 ∧
       (∀ k w, k ≠ j → w < 4 → t.rule k w = s.rule k w) ∧ t = { s with fwl := { s.fwl with rules := t.fwl.rules }, answer := ⟨.okay, []⟩ }))

/-- A read of `LCS_NONCE_LO` draws a new nonce, shows it whole, and voids every earlier one. Every request that is checked ends: `DONE`
and its code stand in `LCS_RESULT`, `LC_DONE` is raised, and the nonce is void whatever the result; one that does not end with code 1
leaves the fuses, the state and the debug port as they were. -/
def Obligations.LifeCycleNoncesAndGuards : Prop :=
  (∀ s : State, s.pwr.on = true → s.regsWf →
     Runs .lcNonceDraw s fun t =>
       t.lcs.nonce = some (Config.nonce s.draws) ∧ t.pair Adr.LCS_NONCE_LO Adr.LCS_NONCE_HI = (Config.nonce s.draws).toNat ∧
       RegsKept [Adr.LCS_NONCE_LO, Adr.LCS_NONCE_HI] s t ∧
       t = { s with regs := t.regs, answer := t.answer, draws := s.draws + 1, lcs := { s.lcs with nonce := t.lcs.nonce } }) ∧
  (∀ (s : State) (arg : Nat) (good : Bool), s.pwr.on = true → s.regsWf → arg < 256 →
     ∀ q : Instr × Nat × Bool, q ∈ [(.lcTransition arg good, 1, true), (.lcOpenDebug arg, 2, false), (.lcProgramKey arg good, 4, true),
         (.lcProgramSecret arg good, 5, true)] →
       Runs q.1 s fun t =>
         t.f Fld.LCS_RESULT_CODE = lifeCycleCode s q.2.1 arg q.2.2 good ∧ t.f Fld.LCS_RESULT_DONE = 1 ∧ t.raised Ev.LCS_LC_DONE ∧
         t.lcs.nonce = none ∧
         (lifeCycleCode s q.2.1 arg q.2.2 good ≠ 1 →
           RegsKept (evWords 4 ++ [Adr.LCS_REQ, Adr.LCS_RESULT]) s t ∧
           t = { s with regs := t.regs, answer := t.answer, lgr := t.lgr, evt := t.evt, lcs := { s.lcs with nonce := none } }))

/-- What a request that ends with code 1 does: a transition blows the fuses of its target and makes it pending, programming the customer
key on the way to `INTEGRATE` and blowing the secret to ones from `RETURNED` on; a key or the secret is programmed from `LCS_DATA`; the
debug port opens, with the maker key or not. Closing the debug port is allowed in every state, unsigned. The transitions the life cycle
has: `BLANK` 0, `MAKER` 1, `INTEGRATE` 2, `FIELD` 3, `RETURNED` 4, `SPENT` 5; none while one is pending. -/
def Obligations.LifeCyclePerforms : Prop :=
  (∀ (s : State) (arg : Nat), s.pwr.on = true → s.regsWf → arg < 256 →
     (lifeCycleCode s 1 arg true true = 1 → Runs (.lcTransition arg true) s fun t =>
       t.f Fld.LCS_STATE_PENDING = 1 ∧ t.f Fld.LCS_STATE_TARGET = arg ∧ t.lcs.fuses = setNth s.lcs.fuses (arg - 1) 3 ∧
       t.lcs.state = s.lcs.state ∧ (arg = 2 → t.lcs.custHash = some (s.words (Adr.LCS_DATA 0) 12)) ∧
       (4 ≤ arg → t.lcs.secret = some (List.replicate 32 0xFF)) ∧ OnlyLcs [Adr.LCS_REQ, Adr.LCS_RESULT, Adr.LCS_STATE] s t) ∧
     (lifeCycleCode s 2 arg false true = 1 → Runs (.lcOpenDebug arg) s fun t =>
       t.f Fld.LCS_DBG_OPEN = 1 ∧ t.f Fld.LCS_DBG_MAKER = b2n (decide (s.lcs.state ≠ 2)) ∧
       OnlyLcs [Adr.LCS_REQ, Adr.LCS_RESULT, Adr.LCS_DBG] s t) ∧
     (lifeCycleCode s 4 arg true true = 1 → Runs (.lcProgramKey arg true) s fun t =>
       (arg = 1 → t.lcs.cfgHash = some (s.words (Adr.LCS_DATA 0) 12) ∧ t.lcs.lgrHash = s.lcs.lgrHash) ∧
       (arg = 2 → t.lcs.lgrHash = some (s.words (Adr.LCS_DATA 0) 12) ∧ t.lcs.cfgHash = s.lcs.cfgHash) ∧
       OnlyLcs [Adr.LCS_REQ, Adr.LCS_RESULT] s t) ∧
     (lifeCycleCode s 5 arg true true = 1 → Runs (.lcProgramSecret arg true) s fun t =>
       t.lcs.secret = some ((s.words (Adr.LCS_DATA 0) 12).take 32) ∧ OnlyLcs [Adr.LCS_REQ, Adr.LCS_RESULT] s t)) ∧
  (∀ (s : State) (arg : Nat), s.pwr.on = true → s.regsWf →
     Runs (.lcCloseDebug arg) s fun t =>
       t.f Fld.LCS_DBG_OPEN = 0 ∧ t.f Fld.LCS_DBG_MAKER = 0 ∧ t.f Fld.LCS_RESULT_CODE = 1 ∧ t.f Fld.LCS_RESULT_DONE = 1 ∧
       t.raised Ev.LCS_LC_DONE ∧ t.lcs = { s.lcs with nonce := none } ∧ OnlyLcs [Adr.LCS_REQ, Adr.LCS_RESULT, Adr.LCS_DBG] s t) ∧
  (∀ (s : State) (arg : Nat), s.lcs.state ≤ 5 →
     (s.lcAllowed 1 arg = true ↔ s.f Fld.LCS_STATE_PENDING = 0 ∧
       ((s.lcs.state, arg) ∈ [(0, 1), (1, 2), (2, 3), (2, 4), (3, 4)] ∨ (s.lcs.state < 5 ∧ arg = 5))))

/-- A write of `TMX_SEL[k]` selects a signal; bit k of `REFUSED` tells one that the state does not open, which the pin does not show; in
`FIELD` and `SPENT` the write is ignored. The boundary-scan instructions load the TAP's instruction register and nothing else of the
device: `BYPASS`, `CLAMP` and `HIGHZ` capture 0, `IDCODE` the code 0x1960058B, `SAMPLE/PRELOAD` and `EXTEST` the pins, loading the
chain; `EXTEST`, `CLAMP` and `HIGHZ` take the functional outputs from the balls. With the debug port closed, `DBG_ACCESS` is `BYPASS`.
Open, it issues a request of identity 22, or holds cores halted: the shepherd core only where the maker key opened it. -/
def Obligations.DebugAndScanPorts : Prop :=
  (∀ (s : State) (k : Nat) (v : Word), s.pwr.on = true → s.regsWf → k < 8 →
     Runs (.tmxSelect k v) s fun t =>
       ((s.lcs.state = 3 ∨ s.lcs.state = 5) → t = s.ok ∧ t.obs k = none) ∧
       (s.lcs.state ≠ 3 → s.lcs.state ≠ 5 →
         t.f (Fld.TMX_SEL_EN k) = bitsOf v.toNat 31 31 ∧ t.f (Fld.TMX_SEL_SIG k) = bitsOf v.toNat 8 0 ∧
         t.f ⟨Adr.TMX_STAT, k, k⟩ = b2n (s.lcs.state = 2 && decide (64 ≤ bitsOf v.toNat 8 0)) ∧
         (t.obs k = if bitOf v.toNat 31 && !(s.lcs.state = 2 && decide (64 ≤ bitsOf v.toNat 8 0)) then some (bitsOf v.toNat 8 0) else none) ∧
         OnlyRegs [Adr.TMX_SEL k, Adr.TMX_STAT] s t)) ∧
  (∀ (s : State) (pins chain : List Bool), s.pwr.on = true →
     exec .tapBypass s = .next { s with tap := { s.tap with ir := .bypass, out := 0 } } ∧
     exec .tapIdcode s = .next { s with tap := { s.tap with ir := .idcode, out := 0x1960058B } } ∧
     exec (.tapSamplePreload pins chain) s = .next { s with tap := { s.tap with ir := .samplePreload, sampled := pins, chain := chain } } ∧
     exec (.tapExtest pins chain) s = .next { s with tap := { s.tap with ir := .extest, sampled := pins, chain := chain } } ∧
     exec .tapClamp s = .next { s with tap := { s.tap with ir := .clamp, out := 0 } } ∧
     exec .tapHighz s = .next { s with tap := { s.tap with ir := .highz, out := 0 } } ∧
     (∀ i, ({ s with tap := { s.tap with ir := i } } : State).muted = true ↔ i = .extest ∨ i = .clamp ∨ i = .highz)) ∧
  (∀ s : State, s.pwr.on = true → s.regsWf →
     (s.fb Fld.LCS_DBG_OPEN = false → ∀ q h, Runs (.dbgAccess q h) s fun t => t = { s with tap := { s.tap with ir := .bypass, out := 0 } }) ∧
     (s.fb Fld.LCS_DBG_OPEN = true →
       (Runs (.dbgAccess none none) s fun t => t = { s with tap := { s.tap with ir := .dbgAccess } }) ∧
       (∀ r, Runs (.dbgAccess (some r) none) s fun t =>
         t = (({ s with tap := { s.tap with ir := .dbgAccess } } : State).fabric 22 r.kind r.addr r.size r.data r.en).paceAll) ∧
       (∀ h, (s.fb Fld.LCS_DBG_MAKER = false ∨ bitOf h 4 = false ∨ bitOf s.lcs.halted 4 = true) → Runs (.dbgAccess none (some h)) s fun t =>
         t.lcs = { s.lcs with halted := if s.fb Fld.LCS_DBG_MAKER then h % 32 else h % 16 + (if bitOf s.lcs.halted 4 then 16 else 0) } ∧
         t = { s with tap := { s.tap with ir := .dbgAccess }, lcs := t.lcs }) ∧
       (∀ h, s.fb Fld.LCS_DBG_MAKER = true → bitOf h 4 = true → bitOf s.lcs.halted 4 = false → Runs (.dbgAccess none (some h)) s fun t =>
         t = ({ s with tap := { s.tap with ir := .dbgAccess }, lcs := { s.lcs with halted := h % 32 } } : State).diagFail 4 ∧
         t.raised Ev.SAF_DIAG_FAIL)))

/-! ### Fabric requests (R15–R19, R417, R422, R423, R443, R449) -/

/-- A request outside every decoded range, of no bytes, across two regions, or to the shepherd core's memory from another master is
answered `DECERR`, and the fabric records it for the ledger. While the tables are enforced, a request that touches a word no rule covers
is answered `DENIED`; the violation is counted and described, and `VIOLATION` raised. Identity 4 always reaches the event controller and
the safety block. -/
def Obligations.FabricChecksRequests : Prop :=
  (∀ (s : State) (r : Req), s.pwr.on = true → r.master < 28 →
     (r.size = 0 ∨ regionOf r.addr = .none ∨ regionOf (r.addr + r.size - 1) ≠ regionOf r.addr ∨ 2 ^ 40 < r.addr + r.size ∨
       (regionOf r.addr = .shp ∧ r.master ≠ 4)) →
     Runs (.fabricRequest r) s fun t =>
       t = afterRequest r (s.offerFabric r.master 1 (r.kind == .write) r.addr) .decErr [] ∧ t.answer = ⟨.decErr, []⟩) ∧
  ((∀ (s : State) (r : Req) (k o : Nat), s.pwr.on = true → r.master < 28 → r.size ≠ 0 → regionOf r.addr ≠ .none →
     regionOf (r.addr + r.size - 1) = regionOf r.addr → r.addr + r.size ≤ 2 ^ 40 → (regionOf r.addr = .shp → r.master = 4) →
     s.uncovered r.master r.kind r.addr r.size = some (k, o) →
     Runs (.fabricRequest r) s fun t =>
       t = afterRequest r ((s.violation r.master r.kind k o).offerFabric r.master 2 (r.kind == .write) r.addr) .denied [] ∧
       t.answer = ⟨.denied, []⟩) ∧
   (∀ (s : State) (m k o : Nat) (a : Acc), s.regsWf →
     let t := s.violation m a k o
     t.raised Ev.FWL_VIOLATION ∧ t.fb Fld.FWL_VIOL_LAST_A_VALID = true ∧
     (s.fb Fld.FWL_VIOL_LAST_A_VALID = false → k < 256 → m < 32 → o < 2 ^ 32 →
       t.f Fld.FWL_VIOL_LAST_A_MASTER = m ∧ t.f Fld.FWL_VIOL_LAST_A_TARGET = k ∧ t.f Fld.FWL_VIOL_LAST_A_ACCESS = accCode a ∧
       t.f Fld.FWL_VIOL_LAST_B_OFS = o) ∧
     OnlyRaised 3 [Adr.FWL_VIOL_CNT, Adr.FWL_VIOL_LAST_A, Adr.FWL_VIOL_LAST_B] s t) ∧
   (∀ (s : State) (k o : Nat) (a : Acc), (k = 2 ∨ k = 206) → s.wordPermitted 4 a k o = true))

/-- A write of the deed holder to cleared, sound shared SRAM is performed: `OKAY`, the bytes stand in memory, and every other byte reads
as before. A read of cleared, sound shared SRAM returns its bytes and changes nothing of the memory. A write to a bank whose deed
another master holds is refused: `DENIED`, `DEED_DENIED` raised, the fabric records it, and the FWL block counts nothing. -/
def Obligations.SharedSramAccesses : Prop :=
  (∀ (s : State) (r : Req), s.pwr.on = true → s.memWf = true → r.master < 28 → r.kind = .write → r.en = [] → 0 < r.size →
     r.data.length = r.size → sramBase ≤ r.addr → r.addr + r.size ≤ sramBase + 0x100_0000 →
     s.f Fld.FWL_STAT_ENFORCE = 0 → s.deedOk r.master .write r.addr r.size = true → s.available r.addr r.size = true → s.mm.ecc = [] →
     Runs (.fabricRequest r) s fun t => t.answer = ⟨.okay, []⟩ ∧ ∃ u : State, t = (u.ans .okay []).paceAll ∧
       u.rdN r.addr r.size = r.data ∧ (∀ a, a < r.addr ∨ r.addr + r.size ≤ a → u.rd8 a = s.rd8 a) ∧
       u = { s with mem := u.mem, mm := u.mm }) ∧
  (∀ (s : State) (r : Req), s.pwr.on = true → r.master < 28 → r.kind ≠ .write → 0 < r.size →
     sramBase ≤ r.addr → r.addr + r.size ≤ sramBase + 0x100_0000 →
     s.f Fld.FWL_STAT_ENFORCE = 0 → s.available r.addr r.size = true → s.mm.ecc = [] →
     Runs (.fabricRequest r) s fun t => t.answer = ⟨.okay, s.rdN r.addr r.size⟩ ∧ ∃ u : State, t = (u.ans .okay (s.rdN r.addr r.size)).paceAll ∧
       u = { s with frm := u.frm }) ∧
  (∀ (s : State) (r : Req), s.pwr.on = true → s.regsWf → r.master < 28 → r.kind = .write → 0 < r.size →
     sramBase ≤ r.addr → r.addr + r.size ≤ sramBase + 0x100_0000 → s.f Fld.FWL_STAT_ENFORCE = 0 →
     s.deedOk r.master .write r.addr r.size = false →
     Runs (.fabricRequest r) s fun t =>
       t = afterRequest r ((s.raise Ev.MEM_DEED_DENIED).offerFabric r.master 2 true r.addr) .denied [] ∧ t.answer = ⟨.denied, []⟩ ∧
       ((s.raise Ev.MEM_DEED_DENIED).offerFabric r.master 2 true r.addr).f Fld.FWL_VIOL_CNT_COUNT = s.f Fld.FWL_VIOL_CNT_COUNT)

/-- A pass from the holder or the shepherd core to an identity that may hold changes the holder and counts; any other is `DENIED` with
`DEED_DENIED`, and the deed stays. While a destructive march runs on the bank, identity 27 may not be named, and a pass to another is
carried out. -/
def Obligations.DeedPassesAndRefusals : Prop :=
  ∀ (s : State) (m b h : Nat), s.pwr.on = true → s.regsWf → b < 64 →
    ((m = s.holder b ∨ m = 4) → h < 28 → s.mm.march.contains ⟨0, b, false⟩ = false → Runs (.deedPass m b h) s fun t =>
      t.holder b = h ∧ t.f (Fld.MEM_DEED_PASSES b) = (s.f (Fld.MEM_DEED_PASSES b) + 1) % 65536 ∧
      (∀ c, c < 64 → c ≠ b → t.holder c = s.holder c) ∧ t.answer = ⟨.okay, []⟩ ∧ RegsKept [Adr.MEM_DEED b] s t ∧
      t = { s with regs := t.regs, answer := t.answer, asm := t.asm }) ∧
    ((m = s.holder b ∨ m = 4) → h < 27 → s.mm.march.contains ⟨0, b, false⟩ = true → Runs (.deedPass m b h) s fun t =>
      t.holder b = h ∧ t.f (Fld.MEM_DEED_PASSES b) = (s.f (Fld.MEM_DEED_PASSES b) + 1) % 65536 ∧ t.answer = ⟨.okay, []⟩) ∧
    (((m ≠ s.holder b ∧ m ≠ 4) ∨ 28 ≤ h ∨ (h = 27 ∧ s.mm.march.contains ⟨0, b, false⟩ = true)) → Runs (.deedPass m b h) s fun t =>
      t.answer = ⟨.denied, []⟩ ∧ ∃ u : State,
        t = (((u.ans .denied []).masterErr m (0x4000_0000 + 4 * Adr.MEM_DEED_PASS b) .denied).ans .denied []) ∧
        u.holder b = s.holder b ∧ u.raised Ev.MEM_DEED_DENIED ∧ MemKept s u ∧
        u = (s.raise Ev.MEM_DEED_DENIED).offerFabric m 2 true (0x4000_0000 + 4 * Adr.MEM_DEED_PASS b))

/-- A write to a register that no other command describes takes effect by the access types of its fields: RW takes the written bits, RO
keeps its own, W1C clears and W1S sets where a 1 is written, RWS goes to the shadow, RWL takes it unless the page's lock covers it. -/
def Obligations.RegisterWriteByAccessType : Prop :=
  (∀ (lk : Bool) (v x : Nat) (r : FRow), r.lo ≤ r.hi → r.hi < 32 → x < 2 ^ 32 →
    bitsOf (fieldWrite lk v x r) r.hi r.lo = (match r.ty with
      | .ro | .rws => bitsOf x r.hi r.lo
      | .rw | .wo => bitsOf v r.hi r.lo
      | .rwl => if lk then bitsOf x r.hi r.lo else bitsOf v r.hi r.lo
      | .w1c => bitsOf x r.hi r.lo - (bitsOf x r.hi r.lo &&& bitsOf v r.hi r.lo)
      | .w1s => bitsOf x r.hi r.lo ||| bitsOf v r.hi r.lo)) ∧
  (∀ (s : State) (m a : Nat) (v : Word), s.pwr.on = true → m < 28 → s.inReset (a / 1024) = false →
    ((28 * 1024 ≤ a ∧ a < 32 * 1024) ∨ (47 * 1024 ≤ a ∧ a < 143 * 1024) ∨ a / 1024 = 146) → 8 ≤ a % 1024 →
    Runs (.registerWrite m a v) s fun t => t = (s.ok.plainWrite a v).paceAll ∧ t.answer = ⟨.okay, []⟩) ∧
  (∀ (s : State) (m a : Nat) (v : Word), s.pwr.on = true → m < 28 → a < 153 * 1024 → s.inReset (a / 1024) = true →
    Runs (.registerWrite m a v) s fun t => t.answer = ⟨.retired, []⟩)

/-- `BLOCK_RESET` puts a block that may be reset into reset, its registers at their reset values, its retired requests counted;
`BLOCK_RESET_END` takes it out again and offers the ledger one record of the reset. -/
def Obligations.BlockResetAndItsEnd : Prop :=
  (∀ (s : State) (p : Nat), s.pwr.on = true → s.pageOk p = true → fixedPage p = false → s.inReset p = false →
    Runs (.blockReset p []) s fun t =>
      t.inReset p = true ∧ t.answer = ⟨.okay, []⟩ ∧
      ∃ u, u = s.blockClear (blockPage p) ∧
        t = ({ u with fab := { u.fab with inReset := u.fab.inReset ++ [{ page := blockPage p, time := s.now, retired := 0 }] } } : State).ok) ∧
  (∀ (s : State) (p : Nat), s.pwr.on = true → s.pageOk p = true → fixedPage p = true → Runs (.blockReset p []) s fun t => t = s.ok) ∧
  (∀ (s : State) (p : Nat), s.pwr.on = true → s.inReset p = true →
    Runs (.blockResetEnd p) s fun t => t.inReset p = false ∧ MemKept s t ∧
      (s.f Fld.LGR_CFG_EN = 1 → s.lgr.queue.length < 256 → ∃ r : LRec, t.lgr.queue = s.lgr.queue ++ [r] ∧ r.source = 512 ∧ r.type = 2))

/-! ### Memories: arbitration, ECC, scrubbing, march tests, DRAM (R421–R430) -/

/-- A promotion is counted; at its maximum the count stays and sets its flag. A corrected half is written back: its error mark goes and
its block becomes dirty; while the write window of a tracked bank is closed (B36 to B39) nothing happens. The scrubber and the DRAM
patrol find what the outside world has put into a half: a single-bit error is counted and raised, a multi-bit error counted, recorded
and raised; a sound half changes nothing. -/
def Obligations.MemoryErrorsAreHandled : Prop :=
  (∀ s : State, s.pwr.on = true → s.regsWf →
     Runs .arbitrationPromote s fun t =>
       t.f Fld.MEM_PROMOTE_COUNT = min (s.f Fld.MEM_PROMOTE_COUNT + 1) (2 ^ 31 - 1) ∧
       (2 ^ 31 - 1 ≤ s.f Fld.MEM_PROMOTE_COUNT + 1 → t.f Fld.MEM_PROMOTE_SAT = 1) ∧ OnlyRegs [Adr.MEM_PROMOTE] s t) ∧
  (∀ (s : State) (a : Nat), s.pwr.on = true → spWf (fun _ => 0) s.mm.ecc = true → s.eccAt a = 1 →
     (s.windowClosed a = false → Runs (.eccWriteback a) s fun t => t.eccAt a = 0 ∧ (∀ b, b / 8 ≠ a / 8 → t.eccAt b = s.eccAt b) ∧
       MemKept s t ∧ t = { s with mm := t.mm }) ∧
     (s.windowClosed a = true → Runs (.eccWriteback a) s fun t => t = s)) ∧
  (∀ (s : State) (a : Nat), s.pwr.on = true → s.regsWf → a % 8 = 0 → s.mm.ecc = [] → s.running = false →
     (s.fb Fld.MEM_CFG_SCRUB_EN = true → inSram a = true →
       Runs (.scrubStep a []) s (fun t => t = s) ∧
       Runs (.scrubStep a [⟨a, false⟩]) s (fun t => t.raised Ev.MEM_ECC_CE ∧ t.eccAt a = 1 ∧ MemKept s t ∧
         t.f (Fld.MEM_ECC_CE (bankOf a)) = min (s.f (Fld.MEM_ECC_CE (bankOf a)) + 1) (2 ^ 15 - 1)) ∧
       Runs (.scrubStep a [⟨a, true⟩]) s (fun t => t.raised Ev.MEM_ECC_UE ∧ t.eccAt a = 2 ∧ MemKept s t ∧
         t.f Fld.MEM_UE_LAST_BANK = bankOf a ∧ t.f Fld.MEM_UE_LAST_MASTER = 31 ∧ t.fb Fld.MEM_UE_LAST_VALID = true)) ∧
     (s.fb Fld.DRC_SCRUB_EN = true → inDram a = true →
       Runs (.dramPatrol a []) s (fun t => t = s) ∧
       Runs (.dramPatrol a [⟨a, false⟩]) s (fun t => t.raised Ev.DRC_ECC_CE ∧ t.eccAt a = 1 ∧ MemKept s t) ∧
       Runs (.dramPatrol a [⟨a, true⟩]) s (fun t => t.raised Ev.DRC_ECC_UE ∧ t.eccAt a = 2 ∧ MemKept s t ∧
         t.fb Fld.DRC_UE_ADDR_HI_VALID = true)))

/-- A `GO` with nothing against it starts the test of its target; one that names a target that does not exist ends with 4, one while
another test runs with 2, one on a shared bank whose deed the engine does not hold with 1. A destructive test of a shared bank, outside
step 1 of start-up, that ends without a miscompare leaves the bank zero and sound; with one it marks the bank failed, tells the place
and raises `MARCH_FAIL`. `DONE` and `MARCH_DONE` follow either way. The memories are cleared once after power-on, DRAM trained once; the
start-up goes on from there (`bootOn`). The temperature report stands in `DRC_STAT`, `TEMP_HIGH` raised above the normal range. -/
def Obligations.MarchTestsAndBringUp : Prop :=
  (∀ (s : State) (i : Nat), s.pwr.on = true → s.regsWf → i < 64 →
     let go (preserve : Bool) : Word := BitVec.ofNat 32 (2 ^ 31 + (if preserve then 2 ^ 30 else 0) + i)
     (s.mm.march = [] → s.holder i = 27 → Runs (.marchGo (go false)) s fun t =>
       t.mm = { s.mm with march := [⟨0, i, false⟩] } ∧ t.f Fld.MAR_STAT_BUSY = 1 ∧ t.f Fld.MAR_STAT_ERR = 0 ∧
       RegsKept [Adr.MAR_CTRL, Adr.MAR_STAT] s t) ∧
     (s.mm.march = [] → Runs (.marchPreserveGo (go true)) s fun t =>
       t.mm = { s.mm with march := [⟨0, i, true⟩] } ∧ t.f Fld.MAR_STAT_BUSY = 1 ∧ t.f Fld.MAR_STAT_ERR = 0 ∧
       RegsKept [Adr.MAR_CTRL, Adr.MAR_STAT] s t) ∧
     (s.mm.march = [] → s.holder i ≠ 27 → Runs (.marchGo (go false)) s fun t =>
       t.f Fld.MAR_STAT_ERR = 1 ∧ OnlyRegs [Adr.MAR_CTRL, Adr.MAR_STAT] s t) ∧
     (s.mm.march ≠ [] → Runs (.marchPreserveGo (go true)) s fun t =>
       t.f Fld.MAR_STAT_ERR = 2 ∧ OnlyRegs [Adr.MAR_CTRL, Adr.MAR_STAT] s t)) ∧
  (∀ (s : State) (i o : Nat), s.pwr.on = true → s.regsWf → i < 64 → o < 0x4_0000 → s.mm.march = [⟨0, i, false⟩] → s.f Fld.SYS_START_STEP ≠ 1 →
     (Runs (.marchDone 0 i none) s fun t =>
       t.bankFailed i = false ∧ t.mm.march = [] ∧ t.f Fld.MAR_STAT_BUSY = 0 ∧ t.f Fld.MAR_STAT_DONE = 1 ∧ t.raised Ev.MAR_MARCH_DONE ∧
       (∀ a, a < 0x4_0000 → t.rd8 (bankAddr i a) = 0)) ∧
     (Runs (.marchDone 0 i (some o)) s fun t =>
       t.bankFailed i = true ∧ t.mm.march = [] ∧ t.f Fld.MAR_STAT_FAIL = 1 ∧ t.f Fld.MAR_STAT_ROW = o / 1024 ∧
       t.f Fld.MAR_FAIL_ADDR_OFS = o ∧ t.raised Ev.MAR_MARCH_FAIL ∧ t.raised Ev.MAR_MARCH_DONE)) ∧
  (∀ s : State, s.pwr.on = true → s.regsWf → s.memWf = true →
     (s.mm.cleared = false → Runs .memoryClearDone s fun t => ∃ u : State, t = u.bootOn ∧ u.mm.cleared = true ∧
       (∀ a, (0x1000_0000 ≤ a ∧ a < 0x1100_0000) ∨ (0x2000_0000 ≤ a ∧ a < 0x3040_0000) → u.rd8 a = 0) ∧
       (∀ a, ¬((0x1000_0000 ≤ a ∧ a < 0x1100_0000) ∨ (0x2000_0000 ≤ a ∧ a < 0x3040_0000)) → u.rd8 a = s.rd8 a) ∧
       u = { s with mem := u.mem, mm := u.mm }) ∧
     (s.fb Fld.DRC_STAT_TRAINED = false → Runs .dramTrained s fun t => ∃ u : State, t = u.bootOn ∧ u.fb Fld.DRC_STAT_TRAINED = true ∧
       (∀ a, 0x08_0000_0000 ≤ a → a < 0x0A_0000_0000 → u.rd8 a = 0)) ∧
     (∀ code, code < 8 → Runs (.tempHigh code false) s fun t => t.f Fld.DRC_STAT_TEMP = code ∧ OnlyRegs [Adr.DRC_STAT] s t) ∧
     (∀ code, code < 8 → Runs (.tempHigh code true) s fun t =>
       t.f Fld.DRC_STAT_TEMP = code ∧ t.raised Ev.DRC_TEMP_HIGH ∧ OnlyRaised 146 [Adr.DRC_STAT] s t))

/-! ### DMA (R431–R437) -/

/-- `START` makes an idle channel busy when its addresses and count are aligned and its ranges do not overlap; else it ends with its
code and raises `DMA_ERR`. A channel already busy, a halted or failed engine ignores it. `STOP` marks a busy channel as stopping; when
its outstanding responses return it is idle with `ERR` 5 and `COUNT` the bytes not moved (here none was). -/
def Obligations.DmaStartsAndStops : Prop :=
  (∀ (s : State) (c : Nat), s.pwr.on = true → s.regsWf → c < 32 →
     ((s.dmaBusy c = true ∨ s.fb Fld.DMA_GLOBAL_HALT = true ∨ s.fb Fld.DMA_GLOBAL_BUS_ERR = true ∨ s.works 143 = false) →
       Runs (.dmaStart c) s fun t => t = s.ok.paceAll) ∧
     (s.dmaBusy c = false → s.fb Fld.DMA_GLOBAL_HALT = false → s.fb Fld.DMA_GLOBAL_BUS_ERR = false → s.works 143 = true →
       (s.dmaRefused c = 0 → s.f (Fld.DMA_COUNT_BYTES c) ≠ 0 → Runs (.dmaStart c) s fun t => ∃ u : State, t = u.ok.paceAll ∧
         u.dmaBusy c = true ∧ u.f (Fld.DMA_STAT_ERR c) = 0 ∧ OnlyRegs [Adr.DMA_STAT c] s u) ∧
       (s.dmaRefused c ≠ 0 → Runs (.dmaStart c) s fun t => ∃ u : State, t = u.ok.paceAll ∧
         u.dmaBusy c = false ∧ u.f (Fld.DMA_STAT_ERR c) = s.dmaRefused c ∧ u.raised Ev.DMA_ERR))) ∧
  (∀ (s : State) (c : Nat), s.pwr.on = true → s.regsWf → c < 32 → s.dmaBusy c = true →
     (s.dma.stopping.contains c = false → Runs (.dmaStop c) s fun t =>
       t.dma = { s.dma with stopping := s.dma.stopping ++ [c] } ∧ t = { s with dma := t.dma, answer := ⟨.okay, []⟩ }) ∧
     (s.dma.stopping.contains c = true → s.dmaPace c = none → Runs (.dmaStopped c 0) s fun t =>
       t.dmaBusy c = false ∧ t.f (Fld.DMA_STAT_ERR c) = 5 ∧ t.f (Fld.DMA_COUNT_BYTES c) = s.f (Fld.DMA_COUNT_BYTES c) ∧
       t.dma.stopping.contains c = false ∧ MemKept s t))

/-- `HALT` stops every busy channel at once with `ERR` 3, whatever was in progress, and stands. An unpaced transfer without an error
completes: its bytes have been moved and deposited, and the descriptor is completed, which sets `DONE`, counts it and, without `LINK`
and `IRQ`, changes nothing else. An error response stops every channel instead. -/
def Obligations.DmaHaltsAndCompletes : Prop :=
  (∀ s : State, s.pwr.on = true → s.regsWf →
     Runs .dmaHalt s fun t =>
       t.fb Fld.DMA_GLOBAL_HALT = true ∧
       (∀ c, c < 32 → t.dmaBusy c = false ∧ (s.dmaBusy c = true → t.f (Fld.DMA_STAT_ERR c) = 3) ∧
         (s.dmaBusy c = false → t.f (Fld.DMA_STAT_ERR c) = s.f (Fld.DMA_STAT_ERR c))) ∧ MemKept s t) ∧
  ((∀ (s : State) (c : Nat), s.pwr.on = true → c < 32 → s.dmaActs c = true → s.dmaPace c = none →
     Runs (.dmaTransferDone c) s fun t =>
       match (s.dmaMove c).err with
       | none => t = (((s.dmaMove c).st.dmaDeposit c (s.dmaMove c).data).dmaComplete c).paceAll
       | some e => t = (s.dmaMove c).st.dmaBusErr e.1 e.2) ∧
   (∀ (s : State) (c : Nat), s.regsWf → c < 32 → s.fb (Fld.DMA_CTRL_LINK c) = false → s.fb (Fld.DMA_CTRL_IRQ c) = false →
     let t := s.dmaComplete c
     t.dmaBusy c = false ∧ t.f (Fld.DMA_STAT_ERR c) = 0 ∧ t.f (Fld.DMA_STAT_DONE c) = 1 ∧
     RegsKept [Adr.DMA_STAT c] s t ∧ MemKept s t))

/-! ### Power states, supplies, watchdog (R461–R470, R480, R482) -/

/-- The power state is re-evaluated with the cores' wait states: a change that stops the lanes waits for the next B0 edge while beats
run, `DOZE` is left only by its exit, and any other change takes effect at once (`applyPower`). `DOZE` ends on a core's interrupt or
when another state is called for, with DRAM shown out of self-refresh and `WAKE` raised; else only the wait states are noted. -/
def Obligations.PowerStatesFollowWaiting : Prop :=
  (∀ (s : State) (w : Nat), s.pwr.on = true →
     let u := s.setWaiting w
     let want := u.powerWant true
     (s.f Fld.PWR_STAT_STATE = 3 → Runs (.powerStateChange w) s fun t => t = u) ∧
     (s.f Fld.PWR_STAT_STATE < 2 → 2 ≤ want → s.running = true → Runs (.powerStateChange w) s fun t =>
       t = { u with pwr := { u.pwr with pendingDown := some want } }) ∧
     (s.f Fld.PWR_STAT_STATE ≠ 3 → (2 ≤ s.f Fld.PWR_STAT_STATE ∨ want < 2 ∨ s.running = false) →
       Runs (.powerStateChange w) s fun t => t = u.applyPower want)) ∧
  (∀ (s : State) (w : Nat), s.pwr.on = true → s.f Fld.PWR_STAT_STATE = 3 →
     let u := s.setWaiting w
     ((u.coreInterrupt = true ∨ u.powerWant true ≠ 3) →
       Runs (.dozeExit w) s fun t => t = ((u.applyPower (u.powerWant false)).setF Fld.DRC_STAT_SELF_REF 0).canKickAll.raise Ev.PWR_WAKE) ∧
     (u.coreInterrupt = false → u.powerWant true = 3 → Runs (.dozeExit w) s fun t => t = u))

/-- A change to a state with lanes on, or to the first one with lanes off: `PWR_STAT` tells the state and the cores' clock,
`STATE_CHANGED` is raised, and nothing is waited for any more; state 2 takes the lanes' power and with it every job and grid pass.
`LANES_ON` powers the lanes with cleared memories; a commanding unit then has them up. -/
def Obligations.PowerChangesTakeEffect : Prop :=
  (∀ (s : State) (n : Nat), s.regsWf → n ≤ 2 → s.f Fld.PWR_STAT_STATE ≠ n →
     let t := s.applyPower n
     t.f Fld.PWR_STAT_STATE = n ∧ t.f Fld.PWR_STAT_CORES_FULL = b2n (decide (n ≤ 1)) ∧ t.raised Ev.PWR_STATE_CHANGED ∧
     t.pwr = { s.pwr with pendingDown := none } ∧ RegsKept (evWords 1 ++ [Adr.PWR_STAT]) s t ∧ MemKept s t ∧
     (n = 2 → s.fb Fld.PWR_STAT_LANES_ON = true → t.f Fld.PWR_STAT_LANES_ON = 0 ∧ t.gfe.pass = none ∧
       t.lsc.lane = List.replicate 96 {})) ∧
  (∀ s : State, s.pwr.on = true → s.regsWf → s.memWf = true → s.f Fld.PWR_STAT_STATE ≤ 1 → s.fb Fld.PWR_STAT_LANES_ON = false →
     Runs .lanesOn s fun t =>
       t.fb Fld.PWR_STAT_LANES_ON = true ∧ (2 ≤ s.role → t.f Fld.PAR_STAT_LANES_UP = 1) ∧
       (∀ a, (0x2000_0000 ≤ a ∧ a < 0x2180_0000) ∨ (0x3000_0000 ≤ a ∧ a < 0x3040_0000) → t.rd8 a = 0) ∧
       (∀ a, a < 0x2000_0000 → t.rd8 a = s.rd8 a) ∧ RegsKept [Adr.PWR_STAT, Adr.PAR_STAT] s t)

/-- `PWR_OFF` with its key switches the device off in `STARTUP`, `READY` or `STO` (phases 0, 1 and 4), with every torque-off line
de-energised; in another phase it is refused; with another key nothing happens. A good AVSBus transaction tells the voltage read back;
the third bad one in a row fixes the command at 900 mV. -/
def Obligations.SuppliesAreGuarded : Prop :=
  (∀ (s : State) (v : Word), s.pwr.on = true → s.regsWf →
     (v.toNat % 65536 = 0x0FF0 → (s.safPhase = 0 ∨ s.safPhase = 1 ∨ s.safPhase = 4) → Runs (.powerOff v) s fun t =>
       t.pwr.on = false ∧ ∃ u : State, t = u.powerOff ∧ u.answer = ⟨.okay, []⟩) ∧
     (v.toNat % 65536 = 0x0FF0 → s.safPhase ≠ 0 → s.safPhase ≠ 1 → s.safPhase ≠ 4 → Runs (.powerOff v) s fun t =>
       t.f Fld.PWR_STAT_OFF_REF = 1 ∧ t.pwr.on = true ∧ OnlyRegs [Adr.PWR_STAT] s t) ∧
     (v.toNat % 65536 ≠ 0x0FF0 → Runs (.powerOff v) s fun t => t = s.ok)) ∧
  (∀ (s : State) (mv : Nat), s.pwr.on = true → s.regsWf →
     (mv < 1024 → Runs (.avsTransactionEnd true mv) s fun t =>
       t.f Fld.PWR_AVS_READ_MV = mv ∧ t.pwr = { s.pwr with avsFails := 0 } ∧ RegsKept [Adr.PWR_AVS] s t ∧ MemKept s t) ∧
     (s.pwr.avsFails < 2 → Runs (.avsTransactionEnd false mv) s fun t => t = { s with pwr := { s.pwr with avsFails := s.pwr.avsFails + 1 } }) ∧
     (2 ≤ s.pwr.avsFails → s.fb Fld.PWR_AVS_FIXED = false → Runs (.avsTransactionEnd false mv) s fun t =>
       t.fb Fld.PWR_AVS_FIXED = true ∧ t.f Fld.PWR_AVS_CMD_MV = 900 ∧ t.raised Ev.PWR_AVS_FAIL ∧
       (s.muted = false → t.sent = s.sent ++ [⟨.avs, 0, leBytes 2 900⟩]) ∧ RegsKept (evWords 1 ++ [Adr.PWR_AVS]) s t ∧ MemKept s t))

/-- The watchdog warns at half its time, once; a kick with its key starts it afresh, another write does nothing; at its end the device
is reset with code 2. A software reset needs its key and keeps the contents of memory and the always-on registers; the main island is
then held in reset. -/
def Obligations.WatchdogAndSoftwareReset : Prop :=
  (∀ (s : State) (v : Word), s.pwr.on = true → s.regsWf →
     (s.wdtCounts = true → s.pwr.wdtHalf = false → Runs .wdtWarn s fun t =>
       t.pwr = { s.pwr with wdtHalf := true } ∧ t.raised Ev.SYS_WDT_WARN ∧ RegsKept (evWords 0) s t ∧ MemKept s t) ∧
     (v.toNat % 65536 = 0xC0DE → Runs (.watchdogKick v) s fun t => t = ({ s with pwr := { s.pwr with wdtHalf := false } } : State).ok) ∧
     (v.toNat % 65536 ≠ 0xC0DE → Runs (.watchdogKick v) s fun t => t = s.ok) ∧
     (s.wdtCounts = true → s.pwr.wdtHalf = true → Runs .watchdogExpiry s fun t =>
       t = s.warmReset 2 0 ∧ t.f Fld.SYS_RST_CAUSE_CODE = 2 ∧ t.f Fld.SYS_RST_CNT_WDT = min (s.f Fld.SYS_RST_CNT_WDT + 1) 65535)) ∧
  (∀ (s : State) (v : Word), s.pwr.on = true → s.regsWf →
     (v.toNat % 65536 = 0x5E7A → Runs (.sysSwreset v) s fun t =>
       t = s.ok.warmReset 3 0 ∧ t.mem = s.mem ∧ t.pwr.mainHeld = true ∧ t.f Fld.SYS_RST_CAUSE_CODE = 3 ∧ t.f Fld.SYS_RST_CAUSE_SUB = 0 ∧
       t.tim = s.tim ∧ t.lcs = s.lcs ∧ t.reg Adr.SYS_RETAIN = s.reg Adr.SYS_RETAIN) ∧
     (v.toNat % 65536 ≠ 0x5E7A → Runs (.sysSwreset v) s fun t => t = s.ok))

/-! ### Device resets (R23, R356, R467, R468, R470, R482) -/

/-- A cold reset: power-on, RESET_N and wake leave memory without contents, the registers at their reset values but for the cause, the
tallies and the flash state; RESET_N alone keeps the raw counter; out of `OFF`, RESET_N is a wake. A clock fault silences CAN, Icvo and
PAIR_BEAT and resets the main island with code 3, sub-code 1; a rail fault does the same and holds the rail bad. The main island leaves
reset when the shepherd core releases it, or 1 ms after a bad rail has come back. -/
def Obligations.ColdResetsAndFaults : Prop :=
  (∀ s : State,
     (Runs .powerOnReset s fun t => t = s.coldReset 0 ∧ t.f Fld.SYS_RST_CAUSE_CODE = 0 ∧ t.tim.raw = 0) ∧
     (s.pwr.vaon = true → s.pwr.on = true → Runs .resetN s fun t => t = s.coldReset 1 ∧ t.f Fld.SYS_RST_CAUSE_CODE = 1 ∧ t.tim.raw = s.tim.raw) ∧
     (s.pwr.vaon = true → s.pwr.on = false → Runs .resetN s fun t => t = s.coldReset 4) ∧
     (s.pwr.vaon = true → s.pwr.on = false → Runs .wake s fun t => t = s.coldReset 4 ∧ t.f Fld.SYS_RST_CAUSE_CODE = 4) ∧
     (∀ code, let t := s.coldReset code
       t.mem = [] ∧ t.pwr.on = true ∧ t.lcs.state = s.lcs.fuseState ∧ t.lcs.nonce = none ∧ t.dev.unit = s.dev.pairId ∧
       (∀ a, canon a ∉ [Adr.SYS_RST_CAUSE, Adr.PAR_TALLY, Adr.PAR_SEEN, Adr.NFC_STAT] → t.reg a = regReset (canon a)))) ∧
  (∀ s : State, s.pwr.on = true →
     (Runs .clockFault s fun t => t = (s.silence.canCutAll.warmReset 3 1).silence ∧ t.pwr.silent = true) ∧
     (Runs .railFault s fun t => t = (s.silence.canCutAll.warmReset 3 1).silence.railOut ∧ t.pwr.silent = true ∧ t.pwr.railBad = true) ∧
     (s.pwr.mainHeld = true → s.pwr.railBad = false → Runs .mainResetRelease s fun t => ∃ u : State, t = u.bootOn ∧
       u = { s with pwr := { s.pwr with mainHeld := false, railBad := false, silent := false, cores := 1 } }) ∧
     (s.pwr.mainHeld = true → s.pwr.railBad = true → Runs .railRecovered s fun t => ∃ u : State, t = u.bootOn ∧
       u = { s with pwr := { s.pwr with mainHeld := false, railBad := false, silent := false, cores := 1 } }) ∧
     (Runs .vaonLoss s fun t => t.pwr.on = false ∧ t.pwr.vaon = false ∧ t = s.powerOff.vaonOut))

/-! ### Start-up (R468, R471–R477) -/

/-- Step 0 of start-up ends when flash is mounted, the ring scanned and the memories are ready: step 1 begins with every memory under
its march test. Before, or after step 0, nothing happens. The cores named in `CORE_REL` are released; core 0 and bits above 3 are not
its business. `NEXT` ends step 2 when the tables are enforced: step 3 begins; otherwise it is refused, with `NEXT_REFUSED` raised. The
shepherd core starts a section that reads back whole and carries its hash and the maker's signature: it waits no more. Any other section
is dropped, and without one in hand nothing happens. -/
def Obligations.StartUpStepsInOrder : Prop :=
  (∀ s : State, s.regsWf →
     let ready := s.f Fld.SYS_START_STEP = 0 ∧ s.pwr.mainHeld = false ∧ s.f Fld.NFC_STAT_STATE ≠ 1 ∧ s.lgr.scanned = true ∧
       (s.warmStart || (s.mm.cleared && s.fb Fld.DRC_STAT_TRAINED)) = true
     (ready → s.bootOn.mm.march.length = 161 ∧ s.bootOn.fb Fld.MAR_STAT_BUSY = true ∧ s.bootOn.f Fld.SYS_START_STEP = 1) ∧ (¬ready → s.bootOn = s)) ∧
  (∀ (s : State) (v : Word), s.pwr.on = true →
     Runs (.coreRel v) s fun t => t.pwr.cores = (s.pwr.cores ||| (v.toNat &&& 14)) ∧
       t = { s with pwr := { s.pwr with cores := t.pwr.cores }, answer := ⟨.okay, []⟩ }) ∧
  (∀ s : State, s.pwr.on = true → s.regsWf →
     (s.f Fld.SYS_START_STEP = 2 → s.fb Fld.FWL_STAT_ENFORCE = true → Runs .next s fun t => t = (s.setF Fld.SYS_START_STEP 3).safStep.ok ∧
       (s.shpRuns = false → t.f Fld.SYS_START_STEP = 3)) ∧
     ((s.f Fld.SYS_START_STEP ≠ 2 ∨ s.fb Fld.FWL_STAT_ENFORCE = false) → Runs .next s fun t =>
       t.f Fld.SYS_START_NEXT_REF = 1 ∧ t.raised Ev.SYS_NEXT_REFUSED ∧ t.f Fld.SYS_START_STEP = s.f Fld.SYS_START_STEP ∧
       OnlyRaised 0 [Adr.SYS_START] s t)) ∧
  (∀ s : State, s.pwr.on = true →
     (s.pwr.shpSection = none → Runs .shepherdSectionStart s fun t => t = s) ∧
     (∀ b n, s.pwr.shpSection = some (b, n) →
       let r := s.mRead 4 (bankAddr b 0) n
       let v : State := { r.st with pwr := { r.st.pwr with shpSection := none } }
       (r.rsp ≠ .okay → Runs .shepherdSectionStart s fun t => t = v) ∧
       (r.rsp = .okay → Runs .shepherdSectionStart s fun t =>
         if sha384 r.data = s.pwr.shpNew ∧ sectionSigned r.data = true then
           ∃ u : State, t = State.safStep { u with pwr := { u.pwr with shpWaiting := false, shpHash := s.pwr.shpNew } } ∧
             u = (v.store 0x0100_0000 r.data).passDeed b 0
         else t = v)))

/-- The boot ROM's sources: its retry tries them again in order; a partner boot asks the partner, takes its data in order, runs an
object that passes every check, and ends in failure 7 when a message is bad or the partner stays silent. A boot request of the partner
is answered with the running object, unless the unit is seeking, has answered within 2 s, or cannot read it; a request that is not well
formed is counted. -/
def Obligations.BootSourcesAndRequests : Prop :=
  (∀ s : State, s.pwr.on = true → s.regsWf →
     (s.pwr.bootWait = true → Runs .bootRetry s fun t => t = ({ s with pwr := { s.pwr with bootWait := false } } : State).bootTry) ∧
     (s.pwr.bootPartner = true → s.pwr.bootGot = [] → Runs .bootRequestSend s fun t => t = s.icvo (bootHead 5 0 0)) ∧
     (s.pwr.bootPartner = true → ∀ d : List Byte, d.length ≤ 65536 → Runs (.bootDataRx (bootData d 0)) s fun t =>
       t = { s with pwr := { s.pwr with bootGot := s.pwr.bootGot ++ [(0, d)] } }) ∧
     (s.pwr.bootPartner = true → ∀ b, bootMsgOk b = false → Runs (.bootDataRx b) s (fun t => t = s.parBad.bootFail 7) ∧
       Runs (.bootEndRx b) s (fun t => t = s.parBad.bootFail 7)) ∧
     (s.pwr.bootPartner = true → (bootObject s.pwr.bootGot).length < 2 ^ 32 →
       let o := bootObject s.pwr.bootGot
       let c := s.bootCheck 1 o
       Runs (.bootEndRx (bootHead 7 o.length (crc32c o))) s fun t =>
         t = if c = 1 then (s.setF Fld.SYS_BOOT_TRY_PARTNER 1).bootRun 2 o else s.bootFail c) ∧
     (s.pwr.bootPartner = true → Runs .bootTimeout s fun t =>
       t.f Fld.SYS_BOOT_TRY_PARTNER = 7 ∧ t.f Fld.SYS_BOOT_SRC = 3 ∧ t.pwr.bootWait = true ∧ t.pwr.bootPartner = false ∧
       t.pwr.bootMute = true ∧ RegsKept [Adr.SYS_BOOT] s t ∧ MemKept s t)) ∧
  (∀ s : State, s.pwr.on = true → s.works 149 = true →
     Runs (.bootRequestRx (bootHead 5 0 0)) s (fun t => t = s.bootAnswer) ∧
     (∀ b, bootMsgOk b = false → Runs (.bootRequestRx b) s fun t => t = s.parBad) ∧
     (∀ o, s.role ≠ 0 → s.pwr.bootServe = none → s.nfcReads = true → s.objAt (1 + s.f Fld.NFC_STAT_RUN_SLOT) 0 = some o → o.lost = [] →
       s.bootAnswer = (bootMsgs o.data).foldl State.icvo { s with pwr := { s.pwr with bootServe := some s.tim.raw } }))

/-! ### Beats and frames (R33–R48, R54–R60, R227) -/

/-- A beat edge counts the beat modulo 40, and at a B0 edge ends the old frame and begins the next; its actions (`edgeActs`) act on that
state. A new frame's number is one more, or, where a realignment ends there, disciplined time in units of 10 ms. Beats start, on
acquired time or freely, at a B0 edge of the frame that disciplined time names; the edge's actions act on that state. Nothing starts
twice. -/
def Obligations.BeatsCountAndStart : Prop :=
  (∀ (s : State) (e : EdgeIn), s.pwr.on = true → s.regsWf →
     (s.running = true → Runs (.beatEdge e) s fun t =>
       t = (if s.beat % 40 = 39 then s.beatCount.frameTurn else s.beatCount).edgeActs e) ∧
     (s.beatCount.beat = (s.beat + 1) % 40 ∧ RegsKept [Adr.TIM_BEAT_STAT] s s.beatCount ∧ MemKept s s.beatCount) ∧
     (s.f Fld.TIM_BEAT_STAT_REALIGN = 0 → s.frameCount.frame = (s.frame + 1) % 2 ^ 64 ∧ s.frameCount.raised Ev.TIM_FRAME) ∧
     (s.f Fld.TIM_BEAT_STAT_REALIGN = 1 → s.frm.realignErr = 0 →
       s.frameCount.frame = s.now / 10000000 ∧ s.frameCount.f Fld.TIM_BEAT_STAT_REALIGN = 0 ∧ s.frameCount.raised Ev.TIM_FRAME)) ∧
  (∀ (s : State) (e : EdgeIn), s.pwr.on = true → s.regsWf →
     (s.running = true → Runs (.beatsStart e) s (fun t => t = s) ∧ Runs (.freeRunStart e) s (fun t => t = s)) ∧
     (∀ q : Instr × Bool, ((q = (.beatsStart e, false) ∧ s.fb Fld.TIM_STAT_ACQUIRED = true) ∨
         (q = (.freeRunStart e, true) ∧ s.fb Fld.TIM_STAT_ACQUIRED = false ∧ s.frm.startTmo = true ∧
           s.fb Fld.TIM_BEAT_CTRL_ALLOW_FREE = true)) →
       s.running = false → Runs q.1 s fun t => ∃ u : State, t = (u.edgeActs e).stepOn ∧ u.running = true ∧ u.beat = 0 ∧
         u.frame = s.now / 10000000 ∧ u.fb Fld.TIM_BEAT_STAT_FREE_RUN = q.2 ∧ u.raised Ev.TIM_FRAME ∧
         RegsKept (evWords 6 ++ [Adr.TIM_BEAT_STAT, Adr.TIM_FRAME_LO, Adr.TIM_FRAME_HI]) s u ∧ MemKept s u))

/-- `PERSIST` overrun frames in a row raise `OVR_PERSIST`, a self-detected fault of a commanding unit; a frame without an overrun sets
the run back. The dwell count at `FRAMES` puts `AUTO` into `GRAZE`. -/
def Obligations.PersistenceThresholdsAct : Prop :=
  ∀ s : State, s.pwr.on = true → s.regsWf →
    let high := max 1 (s.f Fld.TIM_OVR_RUN_PERSIST) ≤ s.f Fld.TIM_OVR_RUN_RUN
    (s.running = true → high → s.role < 2 → Runs .ovrPersist s fun t => t.raised Ev.TIM_OVR_PERSIST ∧ OnlyRaised 6 [] s t) ∧
    (s.running = true → high → 2 ≤ s.role → Runs .ovrPersist s fun t => t = (s.raise Ev.TIM_OVR_PERSIST).selfFault) ∧
    (¬high → Runs .ovrPersist s fun t => t = s) ∧
    (s.frameOverran = false → s.overrunCount.f Fld.TIM_OVR_RUN_RUN = 0 ∧ OnlyRegs [Adr.TIM_OVR_RUN] s s.overrunCount) ∧
    (let full := s.mode = 1 ∧ s.fb Fld.CLE_MODE_GRAZING = false ∧ max 1 (s.f Fld.CLE_FENCE_DWELL_FRAMES) ≤ s.f Fld.CLE_FENCE_STAT_DWELL_CNT
     (full → Runs .fenceGraze s fun t => t.mode = 2 ∧ t.fb Fld.CLE_MODE_GRAZING = true ∧ t.f Fld.CLE_FENCE_STAT_DWELL_CNT = 0 ∧
       t.raised Ev.CLE_FENCE_GRAZE ∧ OnlyRaised 28 [Adr.CLE_MODE, Adr.CLE_FENCE_STAT] s t) ∧
     (¬full → Runs .fenceGraze s fun t => t = s))

/-- Each stage of a frame completes with its work done: fusion, assembly, the lanes' loads, jobs and stores, command formation and the
image instant, which publishes the frame's number, status word and digest. A read of the low word of the published frame number answers
it and holds number, status and digest together for the reads that follow. -/
def Obligations.FrameStagesAndPublication : Prop :=
  (∀ s : State, s.pwr.on = true →
     (s.fus.latch = true → s.frm.fusDone = false → s.works 37 = true → Runs .fusionStageDone s fun t => t = s.fuse ∧ t.frm.fusDone = true) ∧
     (s.asm.listed = true → s.frm.asmDone = false → s.works 42 = true → Runs .assemblyDone s fun t => t = s.asmDone ∧ t.frm.asmDone = true) ∧
     (∀ l j, (s.laneOf l).job = some j →
       (s.loadsNext l = true → Runs (.laneLoadDone l) s fun t => t = s.laneLoad l j ∧ ((t.laneOf l).phase = 2 ∨ (t.laneOf l).phase = 6)) ∧
       ((s.laneOf l).phase = 2 → Runs (.laneJobDone l) s fun t => t = s.laneDone l j 0 ∧ (t.laneOf l).phase = 6) ∧
       ((s.laneOf l).phase = 1 ∨ (s.laneOf l).phase = 2 → Runs (.laneEccUe l) s fun t => t = s.laneUe l j ∧ (t.laneOf l).phase = 6)) ∧
     (s.lanesWait = true → s.inReset 44 = false → Runs .laneArrayDone s fun t =>
       t = s.storeWaiting ∧ t.lsc.passed = true ∧ t.frm.lanDone = true) ∧
     (s.running = true → (s.beat = 34 ∨ s.beat = 35) → s.frm.runs = true → s.lsc.passed = true → s.frm.cmdDone = false →
       s.works 150 = true → Runs .cmdFormationDone s fun t => t = s.formCommand ∧ t.frm.cmdDone = true) ∧
     (s.running = true → 36 ≤ s.beat → s.frm.runs = true → s.frm.pubDone = false → s.works 150 = true → Runs .imageInstant s fun t =>
       t = doImageInstant s ∧ s.publish.frm.pubFrame = s.frame ∧ s.publish.frm.pubStat = s.statusWord ∧
       s.publish.frm.pubDigest = s.digest ∧ s.publish.frm.pubDone = true)) ∧
  (∀ s : State, s.pwr.on = true →
     Runs .frmNumRead s fun t =>
       t = { s with answer := ⟨.okay, leBytes 4 (BitVec.ofNat 32 s.frm.pubFrame).toNat⟩,
                    frm := { s.frm with latched := some (s.frm.pubFrame, s.frm.pubStat, s.frm.pubDigest) } })

/-- The replay port: the oldest queued frame's datagrams leave in order and are counted; a full image asked for is owed; a datagram
received is taken when its checksums and header are right and discarded otherwise. -/
def Obligations.ReplayPortMovesDatagrams : Prop :=
  ∀ s : State, s.pwr.on = true → s.regsWf →
    let k := s.f Fld.CMD_RPL_CTRL_PORT
    (s.rplReady k = true → s.ethTxOn k = true →
      ∀ l r, s.rpl.tx = l :: r → s.muted = false → Runs .replaySnapshotSend s fun t =>
        t.sent = s.sent ++ l.map (fun d => ⟨.eth, k, d⟩) ∧ t.rpl = { s.rpl with tx := r } ∧
        t.f (Fld.ETH_CNT_B_TX_OK k) = (s.f (Fld.ETH_CNT_B_TX_OK k) + l.length) % 65536 ∧
        RegsKept [Adr.ETH_CNT_B k] s t ∧ t = { s with regs := t.regs, sent := t.sent, rpl := t.rpl }) ∧
    (Runs .replayFullRequest s fun t => t.rpl = { s.rpl with fullDue := true } ∧ t.f Fld.CMD_RPL_CTRL_FULL_REQ = 1 ∧
      RegsKept [Adr.CMD_RPL_CTRL] s t ∧ t = { s with regs := t.regs, rpl := t.rpl, answer := ⟨.okay, []⟩ }) ∧
    (∀ b, s.replayRx k = true → s.ethRxOn k = true → s.replayMine b = true → Runs (.replayDatagramRx b) s fun t =>
      t = if inetOk b = true ∧ replayOk (udpPayload b) = true then s.replayTake (udpPayload b) else s)

/-! ### Position references and the grid engine (R62–R73, R96–R110) -/

/-- The deposit window takes its owner's words and no other master's; a committed record is checked, and then queued with its arrival,
set to copy its scan, dropped where the queue is full, or counted as bad with its code. A write of a port's configuration takes every
field, but not a `TYPE` that is refused, of which `CFG_REFUSED` tells; a locked page takes none. -/
def Obligations.SamplesAndPortsAreGuarded : Prop :=
  (∀ (s : State) (m p : Nat), s.pwr.on = true → s.regsWf → p < 32 →
     let own := s.f (Fld.FUS_PORT_CFG_OWNER p)
     let b := s.fusWindow p
     let c := s.fusCheck p b
     let a := s.fusAge p b
     let x := s.fusOf p
     (∀ w (v : Word), w < 16 → m = own → Runs (.depositWindowWrite m p w v) s fun t =>
       t.reg (Adr.FUS_DEP p w) = v ∧ OnlyRegs [Adr.FUS_DEP p w] s t) ∧
     (m ≠ own → ∀ q : Instr, ((∃ w v, w < 16 ∧ q = .depositWindowWrite m p w v) ∨ q = .depositCommit m p) → Runs q s fun t =>
       t.f (Fld.FUS_PORT_STAT_FOREIGN p) = 1 ∧ OnlyRegs [Adr.FUS_PORT_STAT p] s t) ∧
     (m = own → (c ≠ 0 ∨ (s.ptype p ≠ 6 ∧ a ≠ 0)) → Runs (.depositCommit m p) s fun t =>
       t.f (Fld.FUS_PORT_STAT_LAST_BAD p) = (if c = 0 then a else c) ∧
       t.f (Fld.FUS_PORT_CNT_B_BAD p) = min (s.f (Fld.FUS_PORT_CNT_B_BAD p) + 1) 65535 ∧ t.raised Ev.FUS_BAD ∧
       OnlyRaised 37 [Adr.FUS_PORT_STAT p, Adr.FUS_PORT_CNT_B p] s t) ∧
     (m = own → c = 0 → s.ptype p = 6 → Runs (.depositCommit m p) s fun t =>
       t.fus = { s.fus with port := setNth s.fus.port p { x with copies := x.copies ++ [b] } } ∧
       t.f (Fld.FUS_PORT_STAT_COPY_BUSY p) = 1 ∧ RegsKept [Adr.FUS_PORT_STAT p] s t ∧
       t = { s with regs := t.regs, fus := t.fus, answer := t.answer }) ∧
     (m = own → c = 0 → s.ptype p ≠ 6 → a = 0 → x.queue.length < 16 → Runs (.depositCommit m p) s fun t =>
       t.fus.port = setNth s.fus.port p { x with queue := x.queue ++ [⟨b, [], 0, s.now, s.tim.raw, s.frm.lastB0, false, false⟩] } ∧
       t.fus = { s.fus with port := t.fus.port } ∧
       t.f (Fld.FUS_PORT_QUEUE_DEPTH p) = x.queue.length + 1 ∧ RegsKept [Adr.FUS_PORT_QUEUE p] s t ∧
       t = { s with regs := t.regs, fus := t.fus, answer := t.answer }) ∧
     (m = own → c = 0 → s.ptype p ≠ 6 → a = 0 → 16 ≤ x.queue.length → Runs (.depositCommit m p) s fun t =>
       t.f (Fld.FUS_PORT_CNT_A_DROP p) = min (s.f (Fld.FUS_PORT_CNT_A_DROP p) + 1) 65535 ∧ t.raised Ev.FUS_DROP ∧
       OnlyRaised 37 [Adr.FUS_PORT_STAT p, Adr.FUS_PORT_CNT_A p] s t) ∧
     (∀ h rest, x.copies = h :: rest → Runs (.scanCopyDone p) s fun t => t = doScanCopied s p ∧ (t.fusOf p).copies = rest) ∧
     (x.copies = [] → Runs (.scanCopyDone p) s fun t => t = s)) ∧
  (∀ (s : State) (p : Nat) (v : Word), s.pwr.on = true → s.regsWf → p < 32 →
     let old := (s.reg (Adr.FUS_PORT_CFG p)).toNat
     (s.locked (Adr.FUS_PORT_CFG p) = true → Runs (.portCfgWrite p v) s fun t => t = s.ok) ∧
     (s.locked (Adr.FUS_PORT_CFG p) = false → bitOf v.toNat 2 = bitOf old 2 → Runs (.portCfgWrite p v) s fun t =>
       t.ptype p = (if s.typeRefused p v then s.ptype p else bitsOf v.toNat 31 28) ∧
       bitsOf (t.reg (Adr.FUS_PORT_CFG p)).toNat 27 1 = bitsOf v.toNat 27 1 ∧ (s.typeRefused p v = true → t.raised Ev.FUS_CFG_REFUSED) ∧
       RegsKept (evWords 37 ++ [Adr.FUS_PORT_CFG p, Adr.FUS_PORT_STAT p, Adr.FUS_PORT_CNT_A p, Adr.FUS_PORT_QUEUE p]) s t ∧ MemKept s t) ∧
     (s.locked (Adr.FUS_PORT_CFG p) = false → bitOf v.toNat 2 ≠ bitOf old 2 → Runs (.portCfgWrite p v) s fun t =>
       t = doPortCfg s p v ∧ ∀ q, (t.fusOf q).pairs = if q < 32 then [] else (s.fusOf q).pairs))

/-- The feature engine loads its weights when `ENABLE` changes from 0 to 1, and holds a blob that passes every check, or none; a grid
pass that completes is no longer in progress; `SCAN_CLR` clears the count of dropped scans. -/
def Obligations.GridEngineLoadsAndPasses : Prop :=
  ∀ s : State, s.pwr.on = true → s.regsWf →
    let u := s.setF ⟨hdr 41 2, 2, 2⟩ 1
    let at_ := dramAddr (s.f Fld.GFE_WADDR_ADDR)
    let h := u.mRead 6 at_ 64
    let r := h.st.mRead 6 at_ (max 64 (min 75840 (leAt h.data 8 4)))
    (s.enabled 41 = false → ∀ q, q = Instr.gfeWeightLoad ∨ q = Instr.blockEnable 41 true → Runs q s fun t => t = u.loadWeights.ok ∧
      t.gfe.blob = (if h.rsp = .okay ∧ r.rsp = .okay ∧ blobOk r.data = true then r.data else [])) ∧
    (s.enabled 41 = true → ∀ q, q = Instr.gfeWeightLoad ∨ q = Instr.blockEnable 41 true → Runs q s fun t => OnlyRegs [] s t) ∧
    (Runs (.blockEnable 41 false) s fun t => t.enabled 41 = false ∧ OnlyRegs [hdr 41 2] s t) ∧
    (∀ g, s.gfe.pass = some g → Runs .gridPassDone s fun t => t = s.passDone g ∧ t.gfe.pass = none) ∧
    (s.gfe.pass = none → Runs .gridPassDone s fun t => t = s) ∧
    (Runs .scanClr s fun t => t.f Fld.GFE_POSE_STAT_SCAN_DROP = 0 ∧ OnlyRegs [Adr.GFE_POSE_STAT] s t)

/-! ### Satellite navigation (R111–R130) -/

/-- A channel is started, started directly, or stopped by its configuration: a start from `OFF` with a PRN clears the tries and queues
the channel, a direct one waits for the edge, a stop leaves it `OFF` and out of the queue. A channel's way: the search at the head of
the queue ends in pull-in or at the tail of the queue; pull-in ends in tracking or at the tail of the queue; tracking ends in loss; the
L5 part of a dual channel follows; a channel in tracking gains bit synchronisation and shifts in data bits. -/
def Obligations.GnssChannelsStartAndTrack : Prop :=
  (∀ (s : State) (c : Nat) (v : Word), s.pwr.on = true → s.regsWf → s.dev.gnss = true → c < 56 →
     (Runs (.channelStop c v) s fun t =>
       t.gst c = 0 ∧ t.gst5 c = 0 ∧ t.f (Fld.GNS_CH_CFG_RUN c) = 0 ∧ t.gns.queue = s.gns.queue.filter (· ≠ c) ∧
       RegsKept [Adr.GNS_CH_CFG c, Adr.GNS_CH_STAT c] s t ∧ t = { s with regs := t.regs, gns := t.gns, answer := t.answer }) ∧
     (s.gst c = 0 → bitsOf v.toNat 28 23 ≠ 0 → Runs (.channelStart c v) s fun t =>
       t.gst c = 1 ∧ t.f (Fld.GNS_CH_STAT_ACQ_TRIES c) = 0 ∧ t.gns = { s.gns with queue := (s.gns.queue.filter (· ≠ c)) ++ [c] } ∧
       RegsKept [Adr.GNS_CH_CFG c, Adr.GNS_CH_STAT c] s t ∧ t = { s with regs := t.regs, gns := t.gns, answer := t.answer }) ∧
     (s.gst c = 0 → bitsOf v.toNat 28 23 ≠ 0 → Runs (.channelDirectStart c v) s fun t =>
       t.gst c = 0 ∧ t.gns = { s.gns with ch := setNth s.gns.ch c { s.gnsOf c with direct := true } } ∧
       RegsKept [Adr.GNS_CH_CFG c, Adr.GNS_CH_STAT c] s t ∧ t = { s with regs := t.regs, gns := t.gns, answer := t.answer }) ∧
     (s.gst c ≠ 0 ∨ bitsOf v.toNat 28 23 = 0 → ∀ q, q = Instr.channelStart c v ∨ q = Instr.channelDirectStart c v →
       Runs q s fun t => OnlyRegs [Adr.GNS_CH_CFG c] s t)) ∧
  (∀ (s : State) (c : Nat), s.pwr.on = true → s.regsWf → s.dev.gnss = true → c < 56 →
     (∀ r code b rest, s.gns.queue = c :: rest → (s.acqBins c).1 ≤ b → b ≤ (s.acqBins c).2 → code < 2046 → Runs (.acqDone r code b) s fun t =>
       t.f (Fld.GNS_CH_ACQ_ACQ_RATIO c) = min 65535 r ∧
       t.f (Fld.GNS_CH_STAT_ACQ_TRIES c) = min (s.f (Fld.GNS_CH_STAT_ACQ_TRIES c) + 1) 255 ∧ t.raised Ev.GNS_ACQ_DONE ∧
       (s.f Fld.GNS_ACQ_CFG_THRESH ≤ r → t.gst c = 2 ∧ t.gns.queue = rest.filter (· ≠ c)) ∧
       (r < s.f Fld.GNS_ACQ_CFG_THRESH → t.gst c = 1 ∧ t.gns.queue = rest.filter (· ≠ c) ++ [c]) ∧
       RegsKept (evWords 33 ++ [Adr.GNS_CH_STAT c, Adr.GNS_CH_ACQ c]) s t ∧ MemKept s t) ∧
     (s.gst c = 2 → Runs (.pullInLock c) s fun t => t.gst c = 3 ∧ t.f (Fld.GNS_CH_STAT_LOCK c) = 1 ∧
       t.gst5 c = (if s.dual c then 2 else s.gst5 c) ∧ RegsKept [Adr.GNS_CH_STAT c] s t ∧ t = { s with regs := t.regs, gns := t.gns }) ∧
     (s.gst c = 2 → Runs (.pullInTimeout c) s fun t => t.gst c = 1 ∧ t.gns.queue = s.gns.queue.filter (· ≠ c) ++ [c] ∧
       RegsKept [Adr.GNS_CH_STAT c] s t ∧ t = { s with regs := t.regs, gns := t.gns }) ∧
     (s.gst c = 3 → Runs (.trackLoss c) s fun t => t.gst c = 4 ∧ t.gst5 c = 0 ∧ t.f (Fld.GNS_CH_STAT_LOCK c) = 0 ∧
       t.f (Fld.GNS_CH_STAT_BITSYNC c) = 0 ∧ t.raised Ev.GNS_LOSS ∧ OnlyRaised 33 [Adr.GNS_CH_STAT c] s t) ∧
     (∀ ok, s.gst5 c = 2 → Runs (.l5PullInEnd c ok) s fun t => t.gst5 c = (if ok then 3 else 4) ∧ t.gst c = s.gst c ∧
       RegsKept [Adr.GNS_CH_STAT c] s t ∧ t = { s with regs := t.regs, gns := t.gns }) ∧
     (s.gst5 c = 4 → s.gst c = 3 → s.dual c = true → Runs (.l5Retry c) s fun t => t.gst5 c = 2 ∧ RegsKept [Adr.GNS_CH_STAT c] s t ∧
       t = { s with regs := t.regs }) ∧
     (s.gst c = 3 → Runs (.bitSynchronisation c) s fun t => t.f (Fld.GNS_CH_STAT_BITSYNC c) = 1 ∧ t.reg (Adr.GNS_CH_BITCNT c) = 0 ∧
       RegsKept [Adr.GNS_CH_STAT c, Adr.GNS_CH_BITCNT c] s t ∧ t = { s with regs := t.regs }) ∧
     (∀ neg, s.gst c = 3 → s.fb (Fld.GNS_CH_STAT_BITSYNC c) = true → Runs (.dataBit c neg) s fun t =>
       (t.reg (Adr.GNS_CH_BITS c)).toNat = (2 * (s.reg (Adr.GNS_CH_BITS c)).toNat + (if neg then 1 else 0)) % 2 ^ 32 ∧
       t.reg (Adr.GNS_CH_BITCNT c) = s.reg (Adr.GNS_CH_BITCNT c) + 1 ∧
       RegsKept [Adr.GNS_CH_BITS c, Adr.GNS_CH_BITCNT c] s t ∧ t = { s with regs := t.regs }))

/-- The baseband's inputs and captures: an input without its clock is down, and a capture from it ends with error 4; the jamming
references take the present values; a capture that cannot be made ends at once with its error, one that can waits, and a running one
ends. -/
def Obligations.GnssInputsAndCaptures : Prop :=
  ∀ s : State, s.pwr.on = true → s.regsWf → s.dev.gnss = true →
    (∀ i, i < 2 → s.fb (Fld.GNS_AGC_CLK_OK i) = true → Runs (.ifDown i) s fun t =>
      t.f (Fld.GNS_AGC_CLK_OK i) = 0 ∧ (∀ c, c < 56 → i = 0 → s.gst c ≠ 0 → t.gst c = 4) ∧
      (∀ c, c < 56 → i = 1 → s.gst5 c ≠ 0 → t.gst5 c = 4) ∧
      (∀ x, s.gns.snap = some x → x.input = i → t.gns.snap = none ∧ t.f Fld.GNS_SNAP_STAT_ERR = 4 ∧ t.f Fld.GNS_SNAP_STAT_BUSY = 0 ∧
        t.f Fld.GNS_SNAP_STAT_DONE = 1)) ∧
    (Runs .jamCal s fun t => (∀ i, i < 2 → t.f (Fld.GNS_AGC_GAIN_REF i) = s.f (Fld.GNS_AGC_GAIN i) ∧
      t.f (Fld.GNS_JAM_NF_REF i) = s.gns.nf.getD i 0 % 256) ∧ OnlyRegs [Adr.GNS_AGC 0, Adr.GNS_AGC 1, Adr.GNS_JAM 0, Adr.GNS_JAM 1] s t) ∧
    (∀ v : Word, let n := v.toNat
      let i := bitsOf n 30 30
      let x : SnapSt := ⟨i, bitsOf n 29 24, min 39 (bitsOf n 21 16), max 1 (bitsOf n 13 8), bitsOf n 4 0 + 1, s.f (Fld.GNS_IF_CFG_RATE i),
        (s.reg (Adr.GNS_IF_FREQ i)).toNat, none⟩
      let e := if 262080 < (snapCount x + 1) / 2 then 1 else if s.f (Fld.GNS_IF_CFG_EN i) = 0 then 3
        else if s.f (Fld.GNS_AGC_CLK_OK i) = 0 then 4 else 0
      (s.fb Fld.GNS_SNAP_STAT_BUSY = true → Runs (.snapGo v) s fun t => OnlyRegs [Adr.GNS_SNAP_CTRL] s t) ∧
      (s.fb Fld.GNS_SNAP_STAT_BUSY = false → e ≠ 0 → Runs (.snapGo v) s fun t => t.f Fld.GNS_SNAP_STAT_ERR = e ∧
        t.f Fld.GNS_SNAP_STAT_DONE = 1 ∧ t.raised Ev.GNS_SNAP_DONE ∧ OnlyRaised 33 [Adr.GNS_SNAP_CTRL, Adr.GNS_SNAP_STAT] s t) ∧
      (s.fb Fld.GNS_SNAP_STAT_BUSY = false → e = 0 → Runs (.snapGo v) s fun t => t.gns = { s.gns with snap := some x } ∧
        t.f Fld.GNS_SNAP_STAT_BUSY = 1 ∧ t.f Fld.GNS_SNAP_STAT_ERR = 0 ∧ RegsKept [Adr.GNS_SNAP_CTRL, Adr.GNS_SNAP_STAT] s t ∧
        t = { s with regs := t.regs, gns := t.gns, answer := t.answer })) ∧
    (∀ x t0 d, s.gns.snap = some x → x.start ≠ none → Runs (.snapDone t0 d) s fun t => t = doSnapDone s t0 d ∧ t.gns.snap = none)

/-! ### Filter chain, tables and slots (R131–R148, R222–R239) -/

/-- A write of a channel's configuration takes `ORDER` and `RATIO` only where they are allowed, and is due at the next edge with the
rest; the clock's divider likewise; a restart is due at the next edge. What a filter channel's detectors and outputs do: a step clears
`SETTLED` and is counted, the return of rest sets it, a stuck modulator clears it with `STUCK` raised, and its end makes a restart due;
a fine output puts the new bits before the stream and shows the rounded, saturated values of the fine and the coarse path. -/
def Obligations.FilterChainFollowsItsRules : Prop :=
  (∀ (s : State) (c : Nat) (v : Word), s.pwr.on = true → s.regsWf → c < 16 →
     let x := s.fltOf c
     let o := bitsOf v.toNat 27 25
     let r := bitsOf v.toNat 24 16
     let okO := 3 ≤ o ∧ o ≤ 5
     let okR := 16 ≤ r ∧ r ≤ 256 ∧ 200000 / s.f Fld.FLT_MCLK_DIV % r = 0
     (Runs (.fltCfgWrite c v) s fun t =>
       t.f (Fld.FLT_CH_CFG_ORDER c) = (if okO then o else s.f (Fld.FLT_CH_CFG_ORDER c)) ∧
       t.f (Fld.FLT_CH_CFG_RATIO c) = (if okR then r else s.f (Fld.FLT_CH_CFG_RATIO c)) ∧
       t.f (Fld.FLT_CH_CFG_EN c) = bitsOf v.toNat 31 31 ∧ t.f (Fld.FLT_CH_CFG_FALLBACK c) = bitsOf v.toNat 30 30 ∧
       t.f (Fld.FLT_CH_CFG_FIR c) = bitsOf v.toNat 15 12 ∧ t.f (Fld.FLT_CH_CFG_PHASE c) = bitsOf v.toNat 11 0 ∧
       t.flt = { s.flt with ch := setNth s.flt.ch c { x with due := true } } ∧
       (okO → okR → RegsKept [Adr.FLT_CH_CFG c] s t ∧ t = { s with regs := t.regs, flt := t.flt, answer := t.answer }) ∧
       (¬(okO ∧ okR) → t.raised Ev.FLT_CFG_REFUSED ∧ RegsKept (evWords 32 ++ [Adr.FLT_CH_CFG c]) s t ∧ MemKept s t)) ∧
     (Runs (.fltCfgWrite 16 v) s fun t =>
       t.f Fld.FLT_MCLK_EN = bitsOf v.toNat 31 31 ∧ t.flt = { s.flt with due := true } ∧
       (bitsOf v.toNat 7 0 ∈ [40, 50, 64, 80, 100, 125, 160] → t.f Fld.FLT_MCLK_DIV = bitsOf v.toNat 7 0) ∧
       (bitsOf v.toNat 7 0 ∉ [40, 50, 64, 80, 100, 125, 160] → t.f Fld.FLT_MCLK_DIV = s.f Fld.FLT_MCLK_DIV ∧ t.raised Ev.FLT_CFG_REFUSED)) ∧
     (Runs (.fltRestart c) s fun t =>
       t = { s with flt := { s.flt with ch := setNth s.flt.ch c { x with due := true } }, answer := ⟨.okay, []⟩ })) ∧
  (∀ (s : State) (c : Nat), s.pwr.on = true → s.regsWf → c < 16 →
     (s.fltOn c = true → s.fb (Fld.FLT_CH_STAT_SETTLED c) = true → Runs (.stepDetected c) s fun t => t.f (Fld.FLT_CH_STAT_SETTLED c) = 0 ∧
       t.f (Fld.FLT_CH_CNT_STEPS c) = min (s.f (Fld.FLT_CH_CNT_STEPS c) + 1) 65535 ∧ t.raised Ev.FLT_SETTLE_LOST ∧
       OnlyRaised 32 [Adr.FLT_CH_STAT c, Adr.FLT_CH_CNT c] s t) ∧
     (s.fltOn c = true → s.fb (Fld.FLT_CH_STAT_SETTLED c) = false → Runs (.stepDetected c) s fun t => t = s) ∧
     (s.fltOn c = true → s.fb (Fld.FLT_CH_STAT_STUCK c) = false → Runs (.settledReturn c) s fun t => t.f (Fld.FLT_CH_STAT_SETTLED c) = 1 ∧
       OnlyRegs [Adr.FLT_CH_STAT c] s t) ∧
     (s.fltOn c = true → Runs (.stuck c) s fun t => t.f (Fld.FLT_CH_STAT_STUCK c) = 1 ∧ t.f (Fld.FLT_CH_STAT_SETTLED c) = 0 ∧
       t.raised Ev.FLT_STUCK ∧ OnlyRaised 32 [Adr.FLT_CH_STAT c] s t) ∧
     (s.fb (Fld.FLT_CH_STAT_STUCK c) = true → Runs (.stuckClear c) s fun t => t.f (Fld.FLT_CH_STAT_STUCK c) = 0 ∧
       t.flt = { s.flt with ch := setNth s.flt.ch c { s.fltOf c with due := true } } ∧ RegsKept [Adr.FLT_CH_STAT c] s t ∧
       t = { s with regs := t.regs, flt := t.flt }) ∧
     (∀ bits : List Bool, s.fltOn c = true → Runs (.fineOutput c bits) s fun t => ∃ x y : FltSt,
       x.bits = ((bits.reverse.map fun (b : Bool) => if b then (1 : Int) else -1) ++ (s.fltOf c).bits).take 17000 ∧
       x.since = min 17000 ((s.fltOf c).since + bits.length) ∧ x.cfg = (s.fltOf c).cfg ∧ x.line = (s.fltOf c).line ∧
       y = { x with line := (x.cic :: x.line).take 47 } ∧ t.flt = { s.flt with ch := setNth s.flt.ch c y } ∧
       sgn 32 (t.reg (Adr.FLT_CH_FINE c)).toNat = satI 32 (roundAway y.fine.1 y.fine.2) ∧
       sgn 32 (t.reg (Adr.FLT_CH_COARSE c)).toNat = y.coarse ∧
       RegsKept [Adr.FLT_CH_FINE c, Adr.FLT_CH_COARSE c, Adr.FLT_CH_STAT c, Adr.FLT_CH_CNT c] s t ∧
       t = { s with regs := t.regs, flt := t.flt }))

/-- A table check names a bank and is busy until it is done; then its result stands in `ASM_TBL_CHK` and the bank is known as passed or
not. A release passes the deed of a bank that is not the selected one. A slot's commands: the integrator load and the lock take the
written bit; a lock held over more than 40 beats is told of; a read of the integrator's low word answers it and holds the high word. -/
def Obligations.TablesAndSlotsTakeCommands : Prop :=
  (∀ (s : State) (v : Word), s.pwr.on = true → s.regsWf →
     let b := bitsOf v.toNat 5 0
     (s.fb Fld.ASM_TBL_CHK_BUSY = false → bitOf v.toNat 30 = false → Runs (.tableCheck v) s fun t =>
       t.f Fld.ASM_TBL_CHK_BUSY = 1 ∧ t.f Fld.ASM_TBL_CHK_OK = 0 ∧ t.f Fld.ASM_TBL_CHK_BANK = b ∧ t.asm = { s.asm with chk := some b } ∧
       RegsKept [Adr.ASM_TBL_CHK] s t ∧ t = { s with regs := t.regs, asm := t.asm, answer := t.answer }) ∧
     (bitOf v.toNat 31 = false → Runs (.tableRelease v) s fun t => ∃ u : State,
       u = (s.setF Fld.ASM_TBL_CHK_TO (bitsOf v.toNat 27 23)).setF Fld.ASM_TBL_CHK_BANK b ∧
       t = (if s.asm.sel = some b then u else u.framePass 24 b (bitsOf v.toNat 27 23)).ok) ∧
     (∀ k, s.asm.chk = some k → Runs .chkDone s fun t => t = s.checkDone k ∧ t.asm.chk = none ∧
       (let r := s.mRead 24 (bankAddr k 0) 12800
        let e := (tsetOf (padTo 12800 r.data)).check (s.holder k == 24) (r.rsp == .okay)
        (k ∈ t.asm.passed ↔ e = none))) ∧
     (s.asm.chk = none → Runs .chkDone s fun t => t = s)) ∧
  (∀ (s : State) (n : Nat), s.pwr.on = true → s.regsWf → n < 64 →
     (Runs (.slotILoad n) s fun t => t.f (Fld.CLE_SLOT_CTRL_I_LOAD n) = 1 ∧
       t.f (Fld.CLE_SLOT_CTRL_WLOCK n) = s.f (Fld.CLE_SLOT_CTRL_WLOCK n) ∧ OnlyRegs [Adr.CLE_SLOT_CTRL n] s t) ∧
     (∀ on, Runs (.slotWlock n on) s fun t => t.fb (Fld.CLE_SLOT_CTRL_WLOCK n) = on ∧
       t.f (Fld.CLE_SLOT_CTRL_I_LOAD n) = s.f (Fld.CLE_SLOT_CTRL_I_LOAD n) ∧ OnlyRegs [Adr.CLE_SLOT_CTRL n] s t) ∧
     (40 < (s.slotOf n).held → Runs (.lockHeld n) s fun t => t.raised Ev.CLE_LOCK_HELD ∧ OnlyRaised 28 [] s t) ∧
     ((s.slotOf n).held ≤ 40 → Runs (.lockHeld n) s fun t => t = s) ∧
     (Runs (.slotIstRead n) s fun t => t.answer = ⟨.okay, leBytes 4 (s.reg (Adr.CLE_SLOT_IST_LO n)).toNat⟩ ∧
       t.cle = { s.cle with slot := setNth s.cle.slot n { s.slotOf n with ist := some (s.reg (Adr.CLE_SLOT_IST_HI n)).toNat } } ∧
       t = { s with cle := t.cle, answer := t.answer }))

/-! ### CAN, helm and drives (R242–R266) -/

/-- Bit timing is written only in `OFF`, on an unlocked page, and only where it is in range, otherwise `CFG_REF` tells; a mode is taken
as written. A pushed frame takes the lowest free handle, is refused with its code, or finds the queue full; an abort withdraws an entry
that is not in transmission, and marks one that is. -/
def Obligations.CanTimingAndTransmission : Prop :=
  (∀ (s : State) (k : Nat) (v : Word), s.pwr.on = true → s.regsWf → k < 8 →
     (∀ data : Bool,
       let a := if data then Adr.CAN_DBT k else Adr.CAN_NBT k
       let w := v &&& (if data then 0x1F1F0F0F else 0xFFFF7F7F)
       let n := if data then (s.reg (Adr.CAN_NBT k)).toNat else w.toNat
       let d := if data then w.toNat else (s.reg (Adr.CAN_DBT k)).toNat
       let bad := nomClocks n < 80 ∨ datClocks d < 10 ∨ nomClocks n < datClocks d ∨ bitsOf n 23 16 = 0
       ((s.f (Fld.CAN_MODE_MODE k) ≠ 0 ∨ s.locked a = true) → Runs (.bitTimingWrite k data v) s fun t => t = s.ok) ∧
       (s.f (Fld.CAN_MODE_MODE k) = 0 → s.locked a = false → bad → Runs (.bitTimingWrite k data v) s fun t =>
         t.f (Fld.CAN_FLAGS_CFG_REF k) = 1 ∧ OnlyRegs [Adr.CAN_FLAGS k] s t) ∧
       (s.f (Fld.CAN_MODE_MODE k) = 0 → s.locked a = false → ¬bad → Runs (.bitTimingWrite k data v) s fun t =>
         t.reg a = w ∧ OnlyRegs [a] s t)) ∧
     ((s.canOf k).pend = [] → Runs (.canModeChange k v) s fun t => t.f (Fld.CAN_MODE_MODE k) = v.toNat % 4 ∧
       (s.locked (Adr.CAN_MODE k) = false → t.reg (Adr.CAN_MODE k) = v &&& 0xF03) ∧
       RegsKept [Adr.CAN_MODE k, Adr.CAN_TXQ k, Adr.CAN_BUS k] s t ∧ MemKept s t)) ∧
  (∀ (s : State) (k : Nat), s.pwr.on = true → s.regsWf → k < 8 → k < s.can.length →
     let hs := (List.range (32 - (s.reserved k).length)).filter fun h => s.f (Fld.CAN_TXE_STAT_STATE k h) != 1
     (hs = [] → Runs (.txPush k) s fun t => t.reg (Adr.CAN_TXW_RESULT k) = 0x100 ∧ t.f (Fld.CAN_FLAGS_TXQ_FULL k) = 1 ∧
       t.raised (Ev.CAN_TXQ_FULL k) ∧ OnlyRaised (11 + k) [Adr.CAN_TXW_RESULT k, Adr.CAN_FLAGS k] s t) ∧
     (∀ h l, hs = h :: l → s.pushCode k (s.txw k) ≠ 0 → Runs (.txPush k) s fun t =>
       t.reg (Adr.CAN_TXW_RESULT k) = BitVec.ofNat 32 (256 * s.pushCode k (s.txw k)) ∧ OnlyRegs [Adr.CAN_TXW_RESULT k] s t) ∧
     (∀ h l, hs = h :: l → s.pushCode k (s.txw k) = 0 → s.canMode k ≠ 0 → Runs (.txPush k) s fun t =>
       t.reg (Adr.CAN_TXW_RESULT k) = BitVec.ofNat 32 (2 ^ 31 + h) ∧ t.f (Fld.CAN_TXE_STAT_STATE k h) = 1 ∧
       (t.canOf k).pend = (s.canOf k).pend.filter (fun e => e.handle != h) ++ [⟨h, frameOf (s.txw k), none, false⟩] ∧
       RegsKept [Adr.CAN_TXW_RESULT k, Adr.CAN_TXE_STAT k h, Adr.CAN_TXQ k, Adr.CAN_BUS k] s t ∧ MemKept s t) ∧
     (∀ h, h < 32 → (s.canOf k).pend.any (fun e => e.handle == h) = true →
       ((s.canOf k).busy ≠ some h → Runs (.txAbort k h) s fun t => t.f (Fld.CAN_TXE_STAT_STATE k h) = 3 ∧ t.raised (Ev.CAN_TX_DONE k) ∧
         (t.canOf k).pend = (s.canOf k).pend.filter fun e => e.handle != h) ∧
       ((s.canOf k).busy = some h → Runs (.txAbort k h) s fun t =>
         (t.canOf k).pend = (s.canOf k).pend.map (fun e => if e.handle = h then { e with gone := true } else e) ∧
         RegsKept [Adr.CAN_TXQ k, Adr.CAN_BUS k] s t)) ∧
     ((s.canOf k).busy = none → Runs (.txAbortAll k) s fun t =>
       (t.canOf k).pend = (s.canOf k).pend.filter fun e => decide (32 - (s.reserved k).length ≤ e.handle)) ∧
     (∀ e ∈ (s.canOf k).pend, (s.canOf k).pend.find? (fun e => (s.canOf k).busy == some e.handle) = some e → ∀ back,
       (Runs (.txAttemptEnd k true back) s fun t => t = (s.canSent k e back).canKick k) ∧
       (Runs (.txAttemptEnd k false back) s fun t => t = s.canFail k e)))

/-- A received frame is filtered by the first entry that matches, into a priority buffer or the FIFO; a pop takes the oldest record, a
release frees the named buffers; an error is counted with its code; recovery from bus-off clears the error counters. -/
def Obligations.CanReceptionAndErrors : Prop :=
  ∀ (s : State) (k : Nat), s.pwr.on = true → s.regsWf → k < 8 → k < s.can.length →
    (∀ f back, s.works (11 + k) = true → s.canMode k ≠ 0 → s.canMode k ≠ 3 → s.f (Fld.CAN_ECNT_STATE k) ≠ 2 → s.pwr.silent = false →
      (f.fdf = false ∨ s.fb (Fld.CAN_MODE_FD_EN k) = true) → Runs (.canFrameRx k f back) s fun t =>
        t = (s.canTake k (Machine.CanFrame.norm f) back).helmTake k f) ∧
    (∀ f back n, (List.range 128).find? (fun n => s.canMatch k n f) = some n → s.fb (Fld.CAN_FLT_ID_REJECT k n) = false →
      (n < 8 → (s.canFilter k f back).f (Fld.CAN_PB_STAT_FULL k) = s.f (Fld.CAN_PB_STAT_FULL k) ||| 2 ^ n ∧
        ∀ j, j < 20 → ((s.canFilter k f back).reg (Adr.CAN_PB k n j)).toNat = leAt (recordOf f n (s.canTs back)) (4 * j) 4) ∧
      (8 ≤ n → (s.canOf k).fifo.length < 64 →
        ((s.canFilter k f back).canOf k).fifo = (s.canOf k).fifo ++ [recordOf f n (s.canTs back)])) ∧
    (Runs (.rxfPop k) s fun t => (t.canOf k).fifo = (s.canOf k).fifo.drop 1 ∧ t.f (Fld.CAN_RXF_FILL k) = ((s.canOf k).fifo.length - 1) % 128 ∧
      t = { s with regs := t.regs, can := t.can, answer := t.answer }) ∧
    (∀ v : Word, Runs (.pbRelease k v) s fun t =>
      t.f (Fld.CAN_PB_STAT_FULL k) = (s.f (Fld.CAN_PB_STAT_FULL k) &&& (255 - v.toNat % 256)) ∧ OnlyRegs [Adr.CAN_PB_STAT k] s t) ∧
    (∀ lec tx arb heavy, 1 ≤ lec → lec ≤ 6 → s.canMode k ≠ 0 → s.works (11 + k) = true → Runs (.canError k lec tx arb heavy) s fun t =>
      t.f (Fld.CAN_BUS_LEC k) = lec ∧ t.f (Fld.CAN_CNT_A_ERRORS k) = min (s.f (Fld.CAN_CNT_A_ERRORS k) + 1) 65535 ∧ MemKept s t) ∧
    (s.f (Fld.CAN_ECNT_STATE k) = 2 → (s.fb (Fld.CAN_MODE_AUTO_RECOV k) = true ∨ (s.canOf k).recover = true) →
      Runs (.busOffRecovery k) s fun t => t.f (Fld.CAN_ECNT_STATE k) = 0 ∧ t.f (Fld.CAN_ECNT_TEC k) = 0 ∧ t.f (Fld.CAN_ECNT_REC k) = 0 ∧
        (t.canOf k).recover = false ∧ RegsKept [Adr.CAN_ECNT k, Adr.CAN_TXQ k, Adr.CAN_BUS k] s t ∧ MemKept s t) ∧
    (Runs (.dupWindowEnd k) s fun t => t = { s with can := setNth s.can k { s.canOf k with dup := none } }) ∧
    (Runs .tsWrap s fun t => t.raised Ev.CAN8_TS_WRAP ∧ OnlyRaised 19 [] s t) ∧
    (∀ n, n < 24 → s.fb (Fld.CAN_FB_STAT_VALID n) = true → s.fb (Fld.CAN_FB_STAT_STALE n) = false →
      max 1 (s.f Fld.CAN_HELM_CFG_FB_TMO) < s.f (Fld.CAN_FB_STAT_AGE n) → Runs (.fbStale n) s fun t =>
        t.f (Fld.CAN_FB_STAT_STALE n) = 1 ∧ t.raised Ev.CAN8_FB_STALE ∧ OnlyRaised 19 [Adr.CAN_FB_STAT n] s t)

/-- The drive's acceptance rule (R264, R266): a frame that is not a helm frame for this drive is ignored, one whose CRC is wrong is
counted, one whose tally has the wrong parity is ignored; `STOP` bits stop the drive whatever else holds; an older tally, or a known
sequence number not 1 to 127 ahead, changes nothing more; any other frame is accepted: top, the sequence number, the time and the
set-points are taken, and a `STOP` of 0 clears a stop. A hold timeout sets `HOLDING` and known to false,
with thrust and pitch at zero at once (log entry 73); a power-up or maintenance reset
of the drive sets top to 0 and known to false. -/
def Obligations.DriveAcceptanceRule : Prop :=
  (∀ (s : State) (d : Nat) (f : CanFrame), d < 24 → d < s.drives.length →
    (helmPayload f = none → Runs (.driveHelmFrame d f) s fun t => t = s) ∧
    (∀ b, helmPayload f = some b → Runs (.driveHelmFrame d f) s fun t =>
      t = { s with drives := t.drives } ∧
      let x := s.driveOf d
      let y := t.driveOf d
      let mine := bitsOf f.id 25 18 = 0x48 ∧ bitsOf f.id 17 6 = x.inst ∧ bitsOf f.id 4 0 = d
      let tally := leAt b 0 4
      let ahead := (leAt b 21 1 + 256 - x.lastSeq % 256) % 256
      (∀ e, e ≠ d → t.driveOf e = s.driveOf e) ∧ (¬mine → y = x) ∧ (mine → helmCrcOk b = false → y = { x with bad := x.bad + 1 }) ∧
      (mine → helmCrcOk b = true → tally % 2 ≠ bitsOf f.id 5 5 → y = x) ∧
      (mine → helmCrcOk b = true → tally % 2 = bitsOf f.id 5 5 → tally < x.top →
        y = { x with ss1 := x.ss1 || bitOf (leAt b 20 1) 0, sto := x.sto || bitOf (leAt b 20 1) 1 }) ∧
      (mine → helmCrcOk b = true → tally % 2 = bitsOf f.id 5 5 → tally = x.top → x.known = true → ahead = 0 ∨ 127 < ahead →
        y = { x with ss1 := x.ss1 || bitOf (leAt b 20 1) 0, sto := x.sto || bitOf (leAt b 20 1) 1 }) ∧
      (mine → helmCrcOk b = true → tally % 2 = bitsOf f.id 5 5 → (x.top < tally ∨ (tally = x.top ∧ (x.known = false ∨ (1 ≤ ahead ∧ ahead ≤ 127)))) →
        y = { x with
          top := tally, lastSeq := leAt b 21 1, known := true, tValid := s.tim.raw, holding := false,
          ss1 := (x.ss1 || bitOf (leAt b 20 1) 0) && decide (leAt b 20 1 ≠ 0),
          sto := (x.sto || bitOf (leAt b 20 1) 1) && decide (leAt b 20 1 ≠ 0),
          az := leAt b 8 2, thr := sgn 16 (leAt b 10 2), pr := sgn 16 (leAt b 12 2), azr := sgn 16 (leAt b 14 2),
          thrRamp := leAt b 16 2, azrLim := leAt b 18 2, frame16 := leAt b 4 2, beat := leAt b 6 1, unit := bitsOf f.id 5 5 }))) ∧
  (∀ (s : State) (d : Nat), d < 24 →
    (Runs (.driveHoldTimeout d) s fun t =>
      t = { s with drives := setNth s.drives d { s.driveOf d with holding := true, known := false, thr := 0, pr := 0 } }) ∧
    (Runs (.driveReset d) s fun t => t = { s with drives := setNth s.drives d { s.driveOf d with top := 0, known := false } }))

/-! ### Field island (R269–R283) -/

/-- Filtered inputs show their level, and a counting input counts its pulses with their stamps. What changes an output of the field
side, and `FAULT`, which follows its causes: refresh, watchdog, trips, overcurrent, supply, link and mismatch; `EN` stays 0 in `SPENT`.
-/
def Obligations.FieldIslandFollowsItsRules : Prop :=
  (∀ (s : State) (i : Nat), s.pwr.on = true → s.regsWf →
     (∀ level, i < 16 → s.fio.lost = false → ¬(12 ≤ i ∧ s.safOwned = true) → Runs (.diFilterChange i level) s fun t =>
       (∀ j, j < 16 → bitOf (t.f Fld.FIO_DI_STATE_DI) j = if j = i then level else bitOf (s.f Fld.FIO_DI_STATE_DI) j) ∧
       (i ≠ (if s.f Fld.SAF_CFG_RST_DI < 12 then s.f Fld.SAF_CFG_RST_DI else 0) → OnlyRegs [Adr.FIO_DI_STATE] s t)) ∧
     (i < 8 → s.fb (Fld.FIO_DI_CFG_CNT_EN i) = true → Runs (.pulseEdge i) s fun t =>
       t.reg (Adr.FIO_DI_CNT i) = s.reg (Adr.FIO_DI_CNT i) + 1 ∧
       t.fio = { s.fio with edges := s.fio.edges ++ [(i, 0, s.tim.raw / 25 * 25)] } ∧
       RegsKept [Adr.FIO_DI_CNT i] s t ∧ t = { s with regs := t.regs, fio := t.fio })) ∧
  (∀ s : State, s.pwr.on = true → s.regsWf →
     let n := s.fio.low || (s.fio.lost || (List.range 16).any s.judged)
     (s.fioFault.fb Fld.FIO_STATUS_FAULT = n ∧ (n = true → s.fb Fld.FIO_STATUS_FAULT = false → s.fioFault.raised Ev.FIO_FAULT) ∧
       OnlyRaised 151 [Adr.FIO_STATUS] s s.fioFault) ∧
     (s.running = false → s.refreshes = true → s.fio.lost = false → Runs .fioFreeRefresh s fun t => t.f Fld.FIO_DO_CMD_DO = s.doCmds ∧
       t.sent = s.sent ++ [⟨.field, 0, leBytes 2 s.doCmds⟩] ∧ t.fio.tripped = s.fio.tripped &&& s.doCmds) ∧
     (s.running = true → Runs .fioFreeRefresh s fun t => t = s) ∧
     (s.fb Fld.FIO_CFG_EN = true → Runs .wdTrip s fun t => t.f Fld.FIO_STATUS_WD_TRIP = 1 ∧ t.raised Ev.FIO_WD_TRIP ∧
       (∀ j, j < 12 → bitOf (t.f Fld.FIO_DO_CMD_DO) j = s.fb (Fld.FIO_DO_CFG_SAFE j)) ∧
       RegsKept (evWords 151 ++ [Adr.FIO_STATUS, Adr.FIO_DO_CMD]) s t ∧ MemKept s t) ∧
     (∀ v : Word, (bitOf v.toNat 0 = true → s.fb Fld.FIO_STATUS_LINK = true → Runs (.fioWdClr v) s fun t =>
         t.f Fld.FIO_STATUS_WD_TRIP = 0 ∧ OnlyRegs [Adr.FIO_STATUS] s t) ∧
       (bitOf v.toNat 0 = false ∨ s.fb Fld.FIO_STATUS_LINK = false → Runs (.fioWdClr v) s fun t => t = s.ok) ∧
       (Runs (.fioEnableWrite v) s fun t => t.f Fld.FIO_CFG_EN = (if s.lcs.state = 5 then 0 else bitsOf v.toNat 31 31) ∧
         bitsOf (t.reg Adr.FIO_CFG).toNat 11 0 = (if s.locked Adr.FIO_CFG then bitsOf (s.reg Adr.FIO_CFG).toNat 11 0 else bitsOf v.toNat 11 0) ∧
         OnlyRegs [Adr.FIO_CFG] s t)) ∧
     (∀ j, j < 16 → bitOf s.fio.out j = true → Runs (.outputTrip j) s fun t =>
       t.fio = { s.fio with tripped := s.fio.tripped ||| 2 ^ j, out := s.fio.out &&& (65535 - 2 ^ j) } ∧
       RegsKept (evWords 151 ++ [Adr.FIO_STATUS]) s t ∧ MemKept s t) ∧
     (Runs .islandOvercurrent s fun t => t.fio = { s.fio with tripped := s.fio.tripped ||| s.fio.out, out := 0 } ∧
       RegsKept (evWords 151 ++ [Adr.FIO_STATUS]) s t ∧ MemKept s t) ∧
     (∀ low, Runs (.lplusUndervoltage low) s fun t => t.fio = { s.fio with low := low } ∧ (low = true → t.fb Fld.FIO_STATUS_FAULT = true) ∧
       RegsKept (evWords 151 ++ [Adr.FIO_STATUS]) s t ∧ MemKept s t) ∧
     (Runs .linkLost s fun t => t.fio = { s.fio with lost := true, fresh := true, out := 0 } ∧ t.f Fld.FIO_STATUS_LINK = 0 ∧
       t.reg Adr.FIO_DI_STATE = 0 ∧ t.fb Fld.FIO_STATUS_FAULT = true ∧ t.raised Ev.FIO_LINK_LOST ∧
       RegsKept (evWords 151 ++ [Adr.FIO_STATUS, Adr.FIO_DI_STATE]) s t ∧ MemKept s t) ∧
     (Runs .fieldLinkUp s fun t => t.fio = { s.fio with lost := false } ∧ t.f Fld.FIO_STATUS_LINK = 1 ∧
       RegsKept (evWords 151 ++ [Adr.FIO_STATUS]) s t ∧ MemKept s t) ∧
     (∀ j on, j < 16 → Runs (.outputMismatch j on) s fun t =>
       t.fio = { s.fio with mism := if on then s.fio.mism ||| 2 ^ j else s.fio.mism &&& (65535 - 2 ^ j) } ∧
       RegsKept (evWords 151 ++ [Adr.FIO_STATUS]) s t ∧ MemKept s t))

/-! ### Safety functions (R286–R301) -/

/-- A diagnostic failure of any kind de-energises every line and puts the safety functions into `STO`: an overrun sub-beat, a
discrepancy, a test pulse that an input did not follow, an off-test whose line did not fall; so does the end of `TMAX`. -/
def Obligations.SafetyFailuresEnterSto : Prop :=
  ∀ s : State, s.pwr.on = true → s.regsWf →
    (∀ b, b < 7 → (s.diagFail b).f Fld.SAF_STATE_PHASE = 4 ∧ (s.diagFail b).f Fld.SAF_STATE_LINES = 0 ∧
      bitOf ((s.diagFail b).reg Adr.SAF_DIAG).toNat b = true ∧ bitOf ((s.diagFail b).f Fld.SAF_STATE_DEMAND) 3 = true ∧
      (s.diagFail b).raised Ev.SAF_DIAG_FAIL ∧ MemKept s (s.diagFail b)) ∧
    (s.safOn = true → Runs .subbeatOvr s fun t => t = (s.diagFail 4).stepOn ∧ t.f Fld.SAF_STATE_PHASE = 4 ∧
      t.f Fld.SAF_STATE_LINES = 0 ∧ t.f Fld.SAF_DIAG_SUBBEAT_OVR = 1) ∧
    (∀ p, p < 2 → s.safOn = true → (∀ i, i / 2 = p → s.fb (Fld.SAF_DI_CFG_EN i) = true ∧ s.fb (Fld.SAF_DI_CFG_PAIR i) = true) →
      s.pairAgrees p = false → Runs (.discrep p) s fun t => t.f Fld.SAF_STATE_PHASE = 4 ∧ t.f Fld.SAF_STATE_LINES = 0 ∧
        t.f Fld.SAF_DIAG_DISCREP = 1 ∧ bitOf t.saf.discBad p = true) ∧
    (∀ tp high i, tp < 2 → s.safOn = true → i < 4 → s.fb (Fld.SAF_DI_CFG_EN i) = true → s.f (Fld.SAF_DI_CFG_TP i) = tp →
      bitOf high i = true → bitOf s.saf.tpBad i = false → Runs (.testPulse tp high) s fun t => t.f Fld.SAF_STATE_PHASE = 4 ∧
        t.f Fld.SAF_STATE_LINES = 0 ∧ t.f Fld.SAF_DIAG_TP_FAIL = 1 ∧ bitOf t.saf.tpBad i = true) ∧
    (∀ tp i, tp < 2 → s.safOn = true → i < 4 → i < s.saf.tpPass.length → s.fb (Fld.SAF_DI_CFG_EN i) = true → s.f (Fld.SAF_DI_CFG_TP i) = tp →
      Runs (.testPulse tp 0) s fun t => t.saf.tpPass.getD i 0 = min 10 (s.saf.tpPass.getD i 0 + 1) ∧
        t.f Fld.SAF_STATE_PHASE = s.f Fld.SAF_STATE_PHASE ∧ t.reg Adr.SAF_DIAG = s.reg Adr.SAF_DIAG) ∧
    (∀ k, k < 4 → s.safOn = true → bitOf s.saf.otDue k = true →
      (Runs (.offTest k true) s fun t => t = { s with saf := { s.saf with
        otDue := s.saf.otDue &&& (15 - 2 ^ k), otAt := setNth s.saf.otAt k (some s.tim.raw) } }) ∧
      (Runs (.offTest k false) s fun t => t.f Fld.SAF_STATE_PHASE = 4 ∧ t.f Fld.SAF_STATE_LINES = 0 ∧ t.f Fld.SAF_DIAG_READBACK_OFF = 1)) ∧
    (s.safOn = true → s.f Fld.SAF_STATE_PHASE = 3 → Runs .ss1Tmax s fun t => t.f Fld.SAF_STATE_PHASE = 4 ∧ t.f Fld.SAF_STATE_LINES = 0 ∧
      t.raised Ev.SAF_STO ∧ t.cle.stopReq = some 3)

/-- The sub-beat does its work while the shepherd core runs and nothing while it does not; a lost beat is told of; an input's filtered
state is taken, and its opening waits as a demand for the next sub-beat, an STO demand where its kind says so; so does `SAF_REQ.SS1`. A
failure's bit clears only when it is written and its cause has gone. A release needs the key, every enabled input closed, no failure
left, and in a pair the partner's consent, and is performed by the next sub-beat; its end energises every line. -/
def Obligations.SafetyDemandsAndReleases : Prop :=
  (∀ s : State, s.pwr.on = true → s.regsWf →
     (∀ low high crc ue, (s.shpRuns = false → Runs (.subBeat low high crc ue) s fun t => t = s) ∧
       (s.shpRuns = true → s.safOn = false → crc = none → Runs (.subBeat low high crc ue) s fun t => t = s) ∧
       (s.shpRuns = true → Runs (.subBeat low high crc ue) s fun t => t = doSubBeat s low high crc ue)) ∧
     (s.saf.pendIn = true → s.saf.pendSto = true → s.saf.pendReq = false → s.takeDemands.f Fld.SAF_STATE_PHASE = 4 ∧
       s.takeDemands.f Fld.SAF_STATE_LINES = 0 ∧ bitOf (s.takeDemands.f Fld.SAF_STATE_DEMAND) 0 = true) ∧
     (s.saf.pendIn = false → s.saf.pendReq = true → s.f Fld.SAF_STATE_PHASE = 2 → s.takeDemands.f Fld.SAF_STATE_PHASE = 3 ∧
       bitOf (s.takeDemands.f Fld.SAF_STATE_DEMAND) 1 = true ∧ s.takeDemands.saf.demandAt = s.tim.raw ∧ s.takeDemands.raised Ev.SAF_DEMAND) ∧
     (s.shpRuns = true → Runs .beatLost s fun t => t.raised Ev.SAF_BEAT_LOST ∧ OnlyRaised 152 [] s t) ∧
     (∀ i closed, i < 4 → s.safOn = true → s.fb (Fld.SAF_DI_CFG_EN i) = true → Runs (.safetyInputChange i closed) s fun t =>
       bitOf (t.f Fld.SAF_STATE_DI) i = closed ∧ bitOf t.saf.known i = true ∧
       (closed = false → bitOf s.saf.known i = true → bitOf (s.f Fld.SAF_STATE_DI) i = true →
         t.saf.pendIn = true ∧ t.saf.pendSto = (s.saf.pendSto || s.f (Fld.SAF_DI_CFG_KIND i) == 0)) ∧
       (closed = true → t.saf.pendIn = s.saf.pendIn ∧ t.saf.pendSto = s.saf.pendSto)) ∧
     (Runs .ss1Request s fun t => t = { s with saf := { s.saf with pendReq := s.saf.pendReq || s.safOn }, answer := ⟨.okay, []⟩ })) ∧
  (∀ (s : State) (v : Word), s.pwr.on = true → s.regsWf →
     (Runs (.diagClear v) s fun t =>
       (∀ b, b < 7 → (bitOf v.toNat b = false ∨ 4 ≤ b) → bitOf (t.reg Adr.SAF_DIAG).toNat b = bitOf (s.reg Adr.SAF_DIAG).toNat b) ∧
       (bitOf v.toNat 2 = true → (t.f Fld.SAF_DIAG_DISCREP = 1 ↔ s.f Fld.SAF_DIAG_DISCREP = 1 ∧
         ∃ p, p < 2 ∧ bitOf s.saf.discBad p = true ∧ s.pairAgrees p = false)) ∧
       (bitOf v.toNat 3 = true → (t.f Fld.SAF_DIAG_TP_FAIL = 1 ↔ s.f Fld.SAF_DIAG_TP_FAIL = 1 ∧
         ∃ i, i < 4 ∧ bitOf s.saf.tpBad i = true ∧ s.saf.tpPass.getD i 0 < 10)) ∧
       RegsKept [Adr.SAF_DIAG] s t ∧ t = { s with regs := t.regs, saf := t.saf, answer := t.answer }) ∧
     (v.toNat ≠ 0x5AFE ∨ s.relOk = false ∨ s.fb Fld.SAF_CFG_RST_SRC = true ∨ s.saf.release = true →
       Runs (.safRelease v) s fun t => t = s.ok) ∧
     (v.toNat = 0x5AFE → s.fb Fld.SAF_CFG_RST_SRC = false → s.relOk = true → s.saf.release = false →
       (s.relPaired = true → s.saf.pOk = false → Runs (.safRelease v) s fun t => t.f Fld.SAF_STATE_PARTNER_HELD = 1 ∧
         t.raised Ev.SAF_PARTNER_HELD ∧ OnlyRaised 152 [Adr.SAF_STATE] s t) ∧
       (s.relPaired = false ∨ s.saf.pOk = true → Runs (.safRelease v) s fun t => t.f Fld.SAF_STATE_PARTNER_HELD = 0 ∧
         t.f Fld.SAF_STATE_DEMAND = 0 ∧ t.saf = { s.saf with release := true, relPass := s.relPaired } ∧
         RegsKept [Adr.SAF_STATE] s t ∧ t = { s with regs := t.regs, saf := t.saf, answer := t.answer })) ∧
     (s.relOk = true → s.safOn = true ∧ (s.f Fld.SAF_STATE_PHASE = 1 ∨ s.f Fld.SAF_STATE_PHASE = 4) ∧ s.reg Adr.SAF_DIAG = 0 ∧
       s.saf.tested = true ∧ ∀ i, i < 4 → s.fb (Fld.SAF_DI_CFG_EN i) = true → bitOf (s.f Fld.SAF_STATE_DI) i = true) ∧
     (s.doRelease.f Fld.SAF_STATE_LINES = 15 ∧ s.doRelease.f Fld.SAF_STATE_PHASE = 2 ∧ s.doRelease.f Fld.SAF_STATE_AXIS_STO = 0 ∧
       s.doRelease.saf.sto = 0 ∧ s.doRelease.saf.release = false ∧ s.doRelease.raised Ev.SAF_RELEASED ∧ s.doRelease.cle.stopReq = some 0))

/-! ### The pair (R306–R345) -/

/-- The link shows how many Icvo lanes work, and a loss is raised. Before beats, the heartbeat goes out on its own; the one a unit sends
is 64 bytes, type 1, with its role, closed by its CRC. One that is not well formed is counted, any other is taken. What the standby
receives: a beat record, which the partner makes of 1,600 bytes, is kept; a delta is staged and its copy begins when it continues the
mirror; the copy ends with a takeover that waited for it; a resync bank out of turn makes the mirror invalid. A message that is not well
formed is counted. A commanding unit resends every bank when asked. -/
def Obligations.PairMessagesAreTaken : Prop :=
  (∀ s : State, s.pwr.on = true → s.regsWf →
     (∀ n, n < 2 → ∀ up : Bool,
       let l := setNth s.par.lanes n up
       let k := (l.filter id).length
       Runs (if up then .icvoLaneUp n else .icvoLaneDown n) s fun t =>
         t.f Fld.PAR_STAT_LINK = k % 4 ∧ t.par = { s.par with lanes := l } ∧ (k < s.f Fld.PAR_STAT_LINK → t.raised Ev.PAR_LINK_DEGRADED) ∧
         RegsKept (evWords 149 ++ [Adr.PAR_STAT]) s t ∧ MemKept s t) ∧
     (s.running = false → Runs .heartbeatFreeSend s fun t => t = s.sendHeartbeat ∧
       (s.works 149 = true → s.pwr.bootMute = false → s.f Fld.PAR_STAT_LINK ≠ 0 → s.pwr.silent = false → s.muted = false →
         t.sent = s.sent ++ [⟨.icvo, 0, s.heartbeat⟩])) ∧
     (s.heartbeat.length = 64 ∧ leAt s.heartbeat 0 1 = 1 ∧ leAt s.heartbeat 2 1 = s.role ∧
       leAt s.heartbeat 60 4 = crc32c (s.heartbeat.take 60)) ∧
     (∀ b ofs,
       let good := b.length = 64 ∧ leAt b 0 1 = 1 ∧ leAt b 60 4 = crc32c (b.take 60)
       (¬good → Runs (.heartbeatRx b ofs) s fun t => t.f Fld.PAR_CNT_A_BAD = min (s.f Fld.PAR_CNT_A_BAD + 1) 65535 ∧
         OnlyRegs [Adr.PAR_CNT_A, Adr.PAR_FLAGS] s t) ∧
       (good → Runs (.heartbeatRx b ofs) s fun t => t = doHeartbeat s b ofs))) ∧
  (∀ s : State, s.pwr.on = true → s.regsWf →
     (∀ u : State, Runs (.beatRecordRx u.beatRecord) s fun t =>
       t = { s with par := { s.par with rcd := u.beatRecord } }) ∧
     (∀ b, (b.length ≠ 1600 ∨ leAt b 0 1 ≠ 2) → Runs (.beatRecordRx b) s fun t => t = s.parBad) ∧
     (∀ b, (b.length < 1092 ∨ leAt b 0 1 ≠ 3) → s.par.copy = none → Runs (.deltaRx b) s fun t => t = s.parBad) ∧
     (∀ b q, let n := b.length
       let r := s.mWrite 20 (bankAddr (s.f Fld.PAR_SBX_STAGE_BANK) 0) b
       1092 ≤ n → n ≤ 261956 → leAt b 0 1 = 3 → n = 1092 + 256 * leAt b 24 2 → leAt b (n - 4) 4 = crc32c (b.take (n - 4)) →
       (s.role ≠ 1 → Runs (.deltaRx b) s fun t => t = s) ∧
       (s.role = 1 → s.par.mirSeq = some q → r.rsp = .okay → sub32 q (leAt b 4 4) < sub32 (leAt b 8 4) (leAt b 4 4) →
         Runs (.deltaRx b) s fun t => ∃ u : State,
           u = { r.st with par := { r.st.par with copy := some b, recDig := s.deltaDigest b } } ∧
           t = if u.role = 1 ∧ u.par.hb ≠ [] ∧ u.hbWrong = true then u.partnerWrong else u)) ∧
     (s.par.copy = none → Runs .deltaCopyDone s fun t => t = s) ∧
     (∀ b, s.par.copy = some b →
       ((s.copyDelta b).par.decided = none → Runs .deltaCopyDone s fun t => t = s.copyDelta b) ∧
       (∀ c, (s.copyDelta b).par.decided = some c → Runs .deltaCopyDone s fun t => t = (s.copyDelta b).takeover c (c == 3 || c == 4))) ∧
     (∀ b, (b.length ≠ 262208 ∨ leAt b 0 1 ≠ 4) → Runs (.resyncBankRx b) s fun t => t = s.parBad) ∧
     (∀ b, b.length = 262208 → leAt b 0 1 = 4 → leAt b 60 4 = crc32c (b.take 60 ++ b.drop 64) →
       (s.role ≠ 1 → Runs (.resyncBankRx b) s fun t => t = s) ∧
       (s.role = 1 → leAt b 2 1 ≠ 0 → leAt b 2 1 ≠ s.par.rxNext → Runs (.resyncBankRx b) s fun t =>
         t.f Fld.PAR_STAT_MIRROR_VALID = 0 ∧ t.par = { s.par with copy := none, mirSeq := none, rxNext := 0 } ∧
         RegsKept [Adr.PAR_STAT] s t ∧ t = { s with regs := t.regs, par := t.par })) ∧
     (s.role < 2 → Runs .resync s fun t => t = s.ok) ∧
     (2 ≤ s.role → Runs .resync s fun t => t = ({ s with par := { s.par with resync := true, banks := [] } } : State).ok))

/-- The watch on the partner: a missed beat is counted; the run that reaches the limit makes the standby take over and an active unit
alone. The partner's toggle counts for the beat whose edge it is near. A seeking unit commands when the time to seek runs out. -/
def Obligations.PairWatchAndSeek : Prop :=
  ∀ s : State, s.pwr.on = true → s.Inv →
    (∀ helm, let n := min (s.f Fld.PAR_DET_MISS_RUN + 1) 255
      let counts := s.running = true ∧ s.par.missed = false ∧ s.beatMissed helm = true
      (¬counts → Runs (.missedBeat helm) s fun t => t = s) ∧
      (counts → Runs (.missedBeat helm) s fun t => ∃ u : State, u.f Fld.PAR_DET_MISS_RUN = n ∧
        u.f Fld.PAR_CNT_A_HB_MISS = min (s.f Fld.PAR_CNT_A_HB_MISS + 1) 65535 ∧ u.par = { s.par with missed := true } ∧
        RegsKept [Adr.PAR_DET, Adr.PAR_CNT_A, Adr.PAR_FLAGS] s u ∧ u = { s with regs := u.regs, par := u.par } ∧
        (n < s.missLimit → t = u) ∧ (s.missLimit ≤ n → s.role = 1 → t = u.takeover 1 false) ∧
        (s.missLimit ≤ n → s.role = 2 → t = (u.setRole 3 1).raise Ev.PAR_PARTNER_LOST ∧ t.role = 3 ∧ t.raised Ev.PAR_PARTNER_LOST))) ∧
    (s.role = 1 → s.par.copy = none →
      (s.eligible = true ∨ (s.fb Fld.PAR_STAT_CFG_MISMATCH = false ∧ s.fb Fld.PAR_STAT_LAYOUT_MISMATCH = false ∧ s.fb Fld.PAR_STAT_EPOCH = false)) →
      (s.takeover 1 false).role = 3 ∧ (s.takeover 1 false).raised Ev.PAR_TAKEOVER) ∧
    (∀ ofs : Int, Runs (.pairBeatIToggle ofs) s fun t =>
      t.par.togNear = decide (-10000 ≤ ofs ∧ ofs ≤ 10000) ∧ t.par.togNow = (s.par.togNow || decide (0 ≤ ofs ∧ ofs ≤ 20000)) ∧
      t.par.togNext = (s.par.togNext || decide (-20000 ≤ ofs ∧ ofs < 0)) ∧
      t = { s with par := { s.par with togNear := t.par.togNear, togNow := t.par.togNow, togNext := t.par.togNext } }) ∧
    (let ripe := s.role = 0 ∧ s.fb Fld.PAR_STAT_EPOCH = false ∧ s.fb Fld.PAR_CFG_ALLOW_ALONE = true ∧ s.par.listened = true ∧ s.hbFresh = false
     (ripe → Runs .seekTimeout s fun t => t = (s.setF Fld.PAR_STAT_PARTNER_ON_CAN 0).goCommand 3) ∧ (¬ripe → Runs .seekTimeout s fun t => t = s)) ∧
    (s.role = 0 → Runs .listenMinEnd s fun t => t = State.seek { s with par := { s.par with listened := true } } s.frame) ∧
    (s.role ≠ 0 → Runs .listenMinEnd s fun t => t = s)

/-- Requests to the pair block: a fault is told, and hands over to an eligible partner; the fault is cleared unless it persists; a handover
is announced for a B38 edge at least two beats on, or refused; flash copies follow one another and skip while one is due; re-epoch takes
the unit out of command and sets tally and seen to the unit's number. -/
def Obligations.PairRequestsTakeEffect : Prop :=
  ∀ s : State, s.pwr.on = true → s.regsWf →
    let late := tallyTop < raiseTo (max (s.hbAt 16 4) (s.f Fld.PAR_TALLY_TALLY)) (s.hbAt 20 4) (1 - s.dev.unit)
    ((s.role ≠ 2 ∨ s.pFlag 2 = false) → Runs .fault s fun t => t.f Fld.PAR_STAT_FAULTY = 1 ∧ t.raised Ev.PAR_SELF_FAULT ∧
      OnlyRaised 149 [Adr.PAR_STAT] s t) ∧
    (s.role = 2 → s.pFlag 2 = true → ¬late → Runs .fault s fun t => t.f Fld.PAR_STAT_FAULTY = 1 ∧ t.raised Ev.PAR_SELF_FAULT ∧
      t.par = { s.par with ho := some (s.beatNo + 2, 4) } ∧ RegsKept (evWords 149 ++ [Adr.PAR_STAT]) s t ∧ MemKept s t) ∧
    (s.faultPersists = true → Runs .clrFaulty s fun t => t = s.ok) ∧
    (s.faultPersists = false → Runs .clrFaulty s fun t => t.f Fld.PAR_STAT_FAULTY = 0 ∧ OnlyRegs [Adr.PAR_STAT] s t) ∧
    ((s.role ≠ 2 ∨ s.pFlag 2 = false ∨ late) → Runs .handover s fun t => t.raised Ev.PAR_HO_REFUSED ∧ OnlyRaised 149 [] s t) ∧
    (s.role = 2 → s.pFlag 2 = true → ¬late → Runs .handover s fun t => ∃ n, n % 40 = 38 ∧ s.beatNo + 2 ≤ n ∧ n < s.beatNo + 42 ∧
      t = { s with par := { s.par with ho := some (n, 3) }, answer := ⟨.okay, []⟩ }) ∧
    (2 ≤ s.role → Runs .coresUp s fun t => t.f Fld.PAR_STAT_CORES_UP = 1 ∧ OnlyRegs [Adr.PAR_STAT] s t) ∧
    (∀ q, q = Instr.flashPeriod ∨ q = Instr.flashNow →
      (s.role < 2 → Runs q s fun t => t = { s with answer := t.answer }) ∧
      (2 ≤ s.role → (s.par.flashBusy || s.par.flashDue) = true → Runs q s fun t =>
        t.f Fld.PAR_FLASH_SKIP = min (s.f Fld.PAR_FLASH_SKIP + 1) 65535 ∧ OnlyRegs [Adr.PAR_FLASH] s t) ∧
      (2 ≤ s.role → (s.par.flashBusy || s.par.flashDue) = false → Runs q s fun t =>
        t = { s with par := { s.par with flashDue := true }, answer := t.answer })) ∧
    (s.par.flashBusy = true →
      (s.nfcReady = false → Runs .flashCopy s fun t => t = { s with par := { s.par with flashBusy := false } }) ∧
      (s.nfcReady = true → Runs .flashCopy s fun t => t.raised Ev.PAR_FLASH_COPY ∧
        t.par = { s.par with flashBusy := false, flashAt := some s.tim.raw } ∧ MemKept s t)) ∧
    (let safe := s.safPhase = 1 ∨ s.safPhase = 4
     (safe → Runs .epochArm s fun t => t = ((s.setF Fld.PAR_STAT_EPOCH 1).setRole 0 0).ok) ∧ (¬safe → Runs .epochArm s fun t => t = s.ok)) ∧
    (s.fb Fld.PAR_STAT_EPOCH = true → s.pFlag 4 = true → Runs .epochComplete s fun t => ∃ u : State, t = u.writeSections.flashCopy.ok ∧
      u.f Fld.PAR_TALLY_TALLY = s.dev.unit % 2 ^ 32 ∧ u.f Fld.PAR_SEEN_SEEN = s.dev.unit % 2 ^ 32 ∧ u.f Fld.PAR_STAT_EPOCH = 0 ∧
      u.par = { s.par with pTally := 0 } ∧ RegsKept (evWords 148 ++ [Adr.PAR_TALLY, Adr.PAR_SEEN, Adr.PAR_STAT]) s u ∧ MemKept s u) ∧
    ((s.fb Fld.PAR_STAT_EPOCH = false ∨ s.pFlag 4 = false) → Runs .epochComplete s fun t => t = s.ok)

/-! ### Ethernet (R346–R355) -/

/-- Link, rings and calibration of a MAC: a tail takes the written index; the link's state is shown, and its loss raised; a calibration
runs only while the MAC neither receives nor transmits, and splits the mean round trip between the two directions (the odd nanosecond to the egress side, log entry 96), or fails below 60
returned frames. -/
def Obligations.EthLinkRingsAndCalibration : Prop :=
  ∀ (s : State) (k : Nat), s.pwr.on = true → s.regsWf → k < 4 →
    (∀ tx j, Runs (.ethRingTail k tx j) s fun t => t.f (if tx then Fld.ETH_TXR_TAIL_IDX k else Fld.ETH_RXR_TAIL_IDX k) = j % 1024 ∧
      OnlyRegs [if tx then Adr.ETH_TXR_TAIL k else Adr.ETH_RXR_TAIL k] s t) ∧
    (s.fb (Fld.ETH_LINK_UP k) = true → Runs (.ethLinkDown k) s fun t => t.f (Fld.ETH_LINK_UP k) = 0 ∧ t.f (Fld.ETH_LINK_AN_DONE k) = 0 ∧
      t.raised (Ev.ETH_ERR k) ∧ OnlyRaised (7 + k) [Adr.ETH_LINK k] s t) ∧
    (s.fb (Fld.ETH_LINK_UP k) = false → Runs (.ethLinkDown k) s fun t => t = s) ∧
    (Runs (.ethLinkUp k) s fun t => t.f (Fld.ETH_LINK_UP k) = 1 ∧ t.f (Fld.ETH_LINK_AN_DONE k) = s.f (Fld.ETH_CFG_AN_EN k) ∧
      OnlyRegs [Adr.ETH_LINK k] s t) ∧
    ((s.fb (Fld.ETH_CFG_RX_EN k) || s.fb (Fld.ETH_CFG_TX_EN k)) = true → Runs (.ethCalGo k) s fun t => t = s.ok) ∧
    ((s.fb (Fld.ETH_CFG_RX_EN k) || s.fb (Fld.ETH_CFG_TX_EN k)) = false → s.works (7 + k) = true → Runs (.ethCalGo k) s fun t =>
      t.f (Fld.ETH_CAL_BUSY k) = 1 ∧ OnlyRegs [Adr.ETH_CAL k] s t) ∧
    (∀ n rtt, s.fb (Fld.ETH_CAL_BUSY k) = true →
      (n < 60 → Runs (.ethCalDone k n rtt) s fun t => t.f (Fld.ETH_CAL_BUSY k) = 0 ∧ t.f (Fld.ETH_CAL_FAIL k) = 1 ∧
        OnlyRegs [Adr.ETH_CAL k] s t) ∧
      (60 ≤ n → rtt < 65536 → Runs (.ethCalDone k n rtt) s fun t => t.f (Fld.ETH_CAL_BUSY k) = 0 ∧ t.f (Fld.ETH_CAL_DONE k) = 1 ∧
        t.f (Fld.ETH_CAL_RTT k) = rtt ∧ t.f (Fld.ETH_TS_CORR_IN k) = rtt / 2 ∧ t.f (Fld.ETH_TS_CORR_EG k) = rtt - rtt / 2 ∧
        t.raised (Ev.ETH_ERR k) ∧ OnlyRaised (7 + k) [Adr.ETH_CAL k, Adr.ETH_TS_CORR k] s t))

/-- A frame with a wrong FCS or length is counted; a PAUSE frame holds transmission; a frame the filter does not keep is dropped; one it
keeps goes to the receive ring, and a PTP message the transparent clock forwards also to the other port's transit queue. A full
descriptor ring is counted, an error response stops the port's DMA. A MAC sends transit frames first, then the transmit ring and the
replay port in turn: a transit frame leaves its queue and is counted; a descriptor the MAC does not own sends nothing. -/
def Obligations.EthFramesMove : Prop :=
  (∀ (s : State) (k : Nat), s.pwr.on = true → s.regsWf → k < 4 → s.eth.length = 4 → ∀ (b : List Byte) (back : Nat),
     let good := 60 ≤ b.length ∧ b.length ≤ 1518
     let ts := s.rxStamp k back
     (s.ethRxOn k = false → ∀ fcs, Runs (.ethFrameRx k b fcs back) s fun t => t = s) ∧
     (s.ethRxOn k = true → ∀ fcs, (fcs = false ∨ ¬good) → Runs (.ethFrameRx k b fcs back) s fun t =>
       t.f (Fld.ETH_CNT_A_RX_ERR k) = min (s.f (Fld.ETH_CNT_A_RX_ERR k) + 1) 65535 ∧ OnlyRegs [Adr.ETH_CNT_A k, Adr.ETH_FLAGS k] s t) ∧
     (s.ethRxOn k = true → s.replayRx k = false → good →
       (∀ u, s.pauseRx k b = some u → Runs (.ethFrameRx k b true back) s fun t =>
         t = { s with eth := setNth s.eth k { s.ethOf k with pausedTo := s.tim.raw + 512 * beAt b 16 2 } }) ∧
       (s.pauseRx k b = none → s.ethKeeps k b = false → Runs (.ethFrameRx k b true back) s fun t => t = s) ∧
       (s.pauseRx k b = none → s.ethKeeps k b = true → s.ethForwards k b = false → Runs (.ethFrameRx k b true back) s fun t =>
         t = (s.keepDelayReq k b ts).ethDeliver k b ts false) ∧
       (s.pauseRx k b = none → s.ethKeeps k b = true → s.ethForwards k b = true → (s.ethOf (k ^^^ 1)).transit.length < 8 →
         Runs (.ethFrameRx k b true back) s fun t => (t.ethOf (k ^^^ 1)).transit = (s.ethOf (k ^^^ 1)).transit ++ [(b, ts)])) ∧
     (let da := s.f (Fld.ETH_RXR_BASE_ADDR k) * 256 + 32 * s.f (Fld.ETH_RXR_HEAD_IDX k)
      let r := s.mRead (16 + k) da 32
      let fl := leAt r.data 8 2
      let t := s.ethDeliver k b ts false
      let w := r.st.mWrite (16 + k) (leAt r.data 0 5) b
      let q := w.st.mWrite (16 + k) da (descDone r.data b.length (bitsOf fl 1 1 * 2 + 4 + 8 * b2n (ptpEvent b)) ts)
      (r.rsp ≠ .okay → t.f (Fld.ETH_LINK_BUS_ERR k) = 1 ∧ (t.ethOf k).stopped = true) ∧
      (r.rsp = .okay → fl % 2 = 0 → t.f (Fld.ETH_CNT_A_RX_NOBUF k) = min (s.f (Fld.ETH_CNT_A_RX_NOBUF k) + 1) 65535) ∧
      (r.rsp = .okay → fl % 2 = 1 → w.rsp = .okay → q.rsp = .okay → t.mem = q.st.mem ∧
        t.f (Fld.ETH_RXR_HEAD_IDX k) = (s.f (Fld.ETH_RXR_HEAD_IDX k) + 1) % ringSize (s.f (Fld.ETH_RXR_SIZE_N k)) % 1024 ∧
        t.f (Fld.ETH_CNT_B_RX_OK k) = (s.f (Fld.ETH_CNT_B_RX_OK k) + 1) % 65536))) ∧
  (∀ (s : State) (k : Nat), s.pwr.on = true → s.regsWf → k < 4 → k < s.eth.length → s.ethTxOn k = true →
     (∀ b ts rest, (s.ethOf k).transit = (b, ts) :: rest → Runs (.ethTxDone k) s fun t =>
       t = s.ethTransitTx k b ts ∧ (t.ethOf k).transit = rest ∧
       t.f (Fld.ETH_CNT_C_TC_FWD k) = (s.f (Fld.ETH_CNT_C_TC_FWD k) + 1) % 65536 ∧
       t.f (Fld.ETH_CNT_B_TX_OK k) = (s.f (Fld.ETH_CNT_B_TX_OK k) + 1) % 65536 ∧
       (s.muted = false → ptpEvent b = false → t.sent = s.sent ++ [⟨.eth, k, b⟩]) ∧ RegsKept [Adr.ETH_CNT_B k, Adr.ETH_CNT_C k] s t ∧ MemKept s t) ∧
     ((s.ethOf k).transit = [] →
       (s.rplReady k = true → (s.ethOf k).lastRing = true → Runs (.ethTxDone k) s fun t => t = s.ethReplayTx k ∧
         t.f (Fld.ETH_CNT_B_TX_OK k) = (s.f (Fld.ETH_CNT_B_TX_OK k) + 1) % 65536) ∧
       ((s.rplReady k = false ∨ (s.ethOf k).lastRing = false) →
         (∀ u da d, s.txDesc k = (u, some (da, d)) → Runs (.ethTxDone k) s fun t => t = u.ethRingTx k da d) ∧
         (∀ u, s.txDesc k = (u, none) → u.rplReady k = false → Runs (.ethTxDone k) s fun t => t = u)) ∧
       (s.rplReady k = false → (s.ethOf k).stopped = true → Runs (.ethTxDone k) s fun t => t = s)))

/-! ### Time (R38, R129, R356–R367) -/

/-- A rate is taken without a jump of time, or refused beyond the limit and, unforced, in holdover; a step moves time at once while no
beats run, freely or by force, is slewed within the limit, and refused otherwise; a refusal is counted and raised; the slew moves 1 ns at a
time; a read of time holds its high word, the raw counter and the uncertainty. -/
def Obligations.TimeIsSteered : Prop :=
  ∀ (s : State) (m : Nat) (v : Word), s.pwr.on = true → s.regsWf →
    let r := sgn 64 ((s.reg Adr.TIM_RATE_LO).toNat + v.toNat * 2 ^ 32)
    let x := sgn 64 ((s.reg Adr.TIM_STEP_LO).toNat + v.toNat * 2 ^ 32)
    let held := s.fb Fld.TIM_STAT_HOLDOVER
    let refused := fun t : State => t.raised Ev.TIM_STEP_REFUSED ∧ t.f Fld.TIM_STEP_CTRL_FORCE = 0 ∧
      t.f Fld.TIM_STEP_CTRL_REF_CNT = min (s.f Fld.TIM_STEP_CTRL_REF_CNT + 1) 65535 ∧ OnlyRaised 6 [Adr.TIM_STEP_CTRL] s t
    ((56294995342 < r.natAbs ∨ (held = true ∧ s.forced m = false)) → Runs (.rateWrite m v) s refused) ∧
    (r.natAbs ≤ 56294995342 → (held = false ∨ s.forced m = true) → Runs (.rateWrite m v) s fun t => t.now = s.now ∧
      t.tim = { s.tim with ofs := t.tim.ofs, epoch := s.tim.raw, rate := r } ∧ t.reg Adr.TIM_RATE_HI = v ∧
      t.f Fld.TIM_STEP_CTRL_FORCE = 0 ∧ RegsKept [Adr.TIM_RATE_HI, Adr.TIM_STEP_CTRL] s t ∧
      t = { s with regs := t.regs, tim := t.tim, answer := ⟨.okay, []⟩ }) ∧
    (s.running = false → Runs (.stepWrite m v) s fun t => t.tim = { s.tim with ofs := uns 64 (Int.ofNat s.tim.ofs + x) } ∧
      t.f Fld.TIM_STEP_CTRL_FORCE = 0 ∧ RegsKept [Adr.TIM_STEP_CTRL] s t ∧ t = { s with regs := t.regs, tim := t.tim, answer := ⟨.okay, []⟩ }) ∧
    (s.running = true →
      let free := s.fb Fld.TIM_BEAT_STAT_FREE_RUN = true ∨ s.forced m = true
      let lim := max 1 (s.f Fld.TIM_STEP_LIMIT_NS)
      (free → Runs (.stepWrite m v) s fun t => t.tim = { s.tim with ofs := uns 64 (Int.ofNat s.tim.ofs + x) } ∧
        t.f Fld.TIM_STEP_CTRL_FORCE = 0 ∧
        (125000 < (edgeError (s.edgeNow + x)).natAbs → t.f Fld.TIM_BEAT_STAT_REALIGN = 1 ∧ t.raised Ev.TIM_REALIGN ∧
          t.frm = { s.frm with realignErr := edgeError (s.edgeNow + x), driftErr := 0 }) ∧
        ((edgeError (s.edgeNow + x)).natAbs ≤ 125000 → t.frm = { s.frm with realignErr := 0, driftErr := 4 * edgeError (s.edgeNow + x) } ∧
          RegsKept [Adr.TIM_STEP_CTRL] s t)) ∧
      (¬free → (held = true ∨ lim < x.natAbs) → Runs (.stepWrite m v) s refused) ∧
      (¬free → held = false → x.natAbs ≤ lim → Runs (.stepWrite m v) s fun t => t.tim = { s.tim with slew := x } ∧
        t.f Fld.TIM_STEP_CTRL_FORCE = 0 ∧ RegsKept [Adr.TIM_STEP_CTRL] s t ∧
        t = { s with regs := t.regs, tim := t.tim, answer := ⟨.okay, []⟩ })) ∧
    (Runs .stepForce s fun t => t.f Fld.TIM_STEP_CTRL_FORCE = 1 ∧ OnlyRegs [Adr.TIM_STEP_CTRL] s t) ∧
    (let d : Int := if 0 < s.tim.slew then 1 else if s.tim.slew < 0 then -1 else 0
     Runs .slewIncrement s fun t => t = { s with tim := { s.tim with ofs := uns 64 (Int.ofNat s.tim.ofs + d), slew := s.tim.slew - d } }) ∧
    (Runs .timeNowRead s fun t => t.answer = ⟨.okay, leBytes 4 (BitVec.ofNat 32 s.now).toNat⟩ ∧
      t.reg Adr.TIM_NOW_HI = BitVec.ofNat 32 (s.now / 2 ^ 32) ∧ t.pair Adr.TIM_RAW_LO Adr.TIM_RAW_HI = s.tim.raw % 2 ^ 64 ∧
      t.reg Adr.TIM_UNC = BitVec.ofNat 32 s.uncertainty ∧ OnlyRegs [Adr.TIM_NOW_HI, Adr.TIM_RAW_LO, Adr.TIM_RAW_HI, Adr.TIM_UNC] s t)

/-- The source of time is the best available one; the first one acquires time, and with none time goes into holdover. Three observations
accepted in a row make a source available, a refused one starts the count again, a loss takes it away. The pulse inputs and outputs of
time: a rising edge is stamped; the falling edge gives the observation and judges the width: a bad width starts the count of good pulses
again with an event, a class this unit accepts counts, any other does not. A lost source is no more available; TPULSE leaves with the
width that codes the state of time; a lost external reference is told. -/
def Obligations.TimeSourcesAndPulses : Prop :=
  (∀ s : State, s.pwr.on = true → s.regsWf →
     (let t := s.selectTime
      t.f Fld.TIM_STAT_SRC = s.bestTime ∧ (s.bestTime ≠ 0 → t.f Fld.TIM_STAT_ACQUIRED = 1 ∧ t.f Fld.TIM_STAT_HOLDOVER = 0) ∧
      (s.bestTime = 0 → t.f Fld.TIM_STAT_ACQUIRED = s.f Fld.TIM_STAT_ACQUIRED ∧ t.f Fld.TIM_STAT_HOLDOVER = s.f Fld.TIM_STAT_ACQUIRED) ∧
      (s.bestTime ≠ s.f Fld.TIM_STAT_SRC → t.raised Ev.TIM_SRC_CHANGED) ∧
      (s.bestTime ≠ 0 → s.f Fld.TIM_STAT_ACQUIRED = 0 → t.raised Ev.TIM_ACQUIRED) ∧
      RegsKept (evWords 6 ++ [Adr.TIM_STAT, Adr.TIM_BEAT_STAT, Adr.TIM_SLIP_CNT]) s t ∧ MemKept s t) ∧
     (∀ v : Word, let sg := bitsOf v.toNat 23 16
       let ok := s.obsAccepted (bitsOf v.toNat 15 0)
       (ok = true → Runs (.ptpObsSubmit v) s fun t => ∃ u : State, t = u.selectTime.ok ∧
         u.tim = { s.tim with ptpRun := min 3 (s.tim.ptpRun + 1), sigPtp := sg, lastObs := s.tim.raw } ∧
         u.fb Fld.TIM_STAT_PTP_AVAIL = (s.fb Fld.TIM_STAT_PTP_AVAIL || decide (2 ≤ s.tim.ptpRun)) ∧
         RegsKept [Adr.TIM_PTP_CTRL, Adr.TIM_STAT] s u ∧ u = { s with regs := u.regs, tim := u.tim }) ∧
       (ok = false → Runs (.ptpObsSubmit v) s fun t => t.tim = { s.tim with ptpRun := 0 } ∧ t.f Fld.TIM_PTP_CTRL_REFUSED = 1 ∧
         RegsKept [Adr.TIM_PTP_CTRL] s t ∧ t = { s with regs := t.regs, tim := t.tim, answer := ⟨.okay, []⟩ }) ∧
       (s.dev.gnss = true → ok = true → Runs (.gnssTimeObs v) s fun t => ∃ u : State, t = u.selectTime.ok ∧
         u.tim = { s.tim with gnssRun := min 3 (s.tim.gnssRun + 1), sigGnss := sg, lastObs := s.tim.raw,
                              gnssAvail := s.tim.gnssAvail || decide (2 ≤ s.tim.gnssRun) } ∧
         RegsKept [Adr.GNS_TIME_CTRL] s u ∧ u = { s with regs := u.regs, tim := u.tim }) ∧
       (s.dev.gnss = true → ok = false → Runs (.gnssTimeObs v) s fun t => t.tim = { s.tim with gnssRun := 0 } ∧
         t.f Fld.GNS_TIME_CTRL_REFUSED = 1 ∧ RegsKept [Adr.GNS_TIME_CTRL] s t ∧
         t = { s with regs := t.regs, tim := t.tim, answer := ⟨.okay, []⟩ })) ∧
     (Runs .ptpSourceLost s fun t => ∃ u : State, t = u.selectTime ∧ u.tim = { s.tim with ptpRun := 0 } ∧ u.f Fld.TIM_STAT_PTP_AVAIL = 0 ∧
       RegsKept [Adr.TIM_STAT] s u ∧ u = { s with regs := u.regs, tim := u.tim }) ∧
     (s.dev.gnss = true → Runs .timeLost s fun t => ∃ u : State, t = u.selectTime ∧
       u.tim = { s.tim with gnssRun := 0, gnssAvail := false } ∧ u.raised Ev.GNS_TIME_LOST ∧ RegsKept (evWords 33) s u ∧ MemKept s u)) ∧
  (∀ s : State, s.pwr.on = true → s.regsWf →
     (s.fb Fld.TIM_CFG_PPS_EN = true →
       (Runs .ppsRise s fun t => t.tim = { s.tim with ppsRise := some (s.now, s.tim.raw) } ∧
         t.pair Adr.TIM_PPS_STAMP_LO Adr.TIM_PPS_STAMP_HI = s.now ∧ RegsKept [Adr.TIM_PPS_STAMP_LO, Adr.TIM_PPS_STAMP_HI] s t ∧
         t = { s with regs := t.regs, tim := t.tim }) ∧
       (s.tim.ppsRise = none → Runs .ppsFall s fun t => t = s) ∧
       (∀ l r, s.tim.ppsRise = some (l, r) →
         let o := uns 64 (s.ppsRef l + Int.ofNat (s.f Fld.TIM_PPS_CFG_DELAY) - Int.ofNat l)
         let words := [Adr.TIM_PPS_OBS_LO, Adr.TIM_PPS_OBS_HI, Adr.TIM_PPS_STAT]
         (ppsClass (s.tim.raw - r) = none → Runs .ppsFall s fun t => t.tim = { s.tim with ppsRise := none, ppsRun := 0 } ∧
           t.raised Ev.TIM_PPS_BAD ∧ t.f Fld.TIM_PPS_STAT_ACCEPT = 0 ∧ t.pair Adr.TIM_PPS_OBS_LO Adr.TIM_PPS_OBS_HI = o ∧
           RegsKept (evWords 6 ++ words) s t ∧ MemKept s t) ∧
         (∀ c, ppsClass (s.tim.raw - r) = some c → s.ppsAccepts c = false → Runs .ppsFall s fun t =>
           t.tim = { s.tim with ppsRise := none, ppsRun := 0 } ∧ t.f Fld.TIM_PPS_STAT_CODE = c ∧ t.f Fld.TIM_PPS_STAT_ACCEPT = 0 ∧
           t.pair Adr.TIM_PPS_OBS_LO Adr.TIM_PPS_OBS_HI = o ∧ RegsKept words s t ∧ t = { s with regs := t.regs, tim := t.tim }) ∧
         (∀ c, ppsClass (s.tim.raw - r) = some c → s.ppsAccepts c = true → Runs .ppsFall s fun t => ∃ u : State, t = u.selectTime ∧
           u.tim = { s.tim with ppsRise := none, ppsRun := min 3 (s.tim.ppsRun + 1), lastObs := s.tim.raw } ∧
           u.f Fld.TIM_PPS_STAT_CODE = c ∧ u.f Fld.TIM_PPS_STAT_ACCEPT = 1 ∧
           u.f Fld.TIM_PPS_STAT_PULSES = (s.f Fld.TIM_PPS_STAT_PULSES + 1) % 65536 ∧
           u.fb Fld.TIM_STAT_PPS_AVAIL = (s.fb Fld.TIM_STAT_PPS_AVAIL || decide (2 ≤ s.tim.ppsRun)) ∧
           RegsKept (Adr.TIM_STAT :: words) s u ∧ u = { s with regs := u.regs, tim := u.tim }))) ∧
     (s.fb Fld.TIM_STAT_PPS_AVAIL = true → Runs .ppsSourceLost s fun t => ∃ u : State, t = u.selectTime ∧
       u.tim = { s.tim with ppsRun := 0 } ∧ u.f Fld.TIM_STAT_PPS_AVAIL = 0 ∧ RegsKept (evWords 6 ++ [Adr.TIM_STAT]) s u ∧ MemKept s u) ∧
     (s.fb Fld.TIM_CFG_TPULSE_EN = true → Runs .tpulse s fun t => t.tim = { s.tim with lastTp := s.now } ∧
       (s.muted = false → t.sent = s.sent ++ [⟨.tpulse, 0, leBytes 2 (tpWidth s.tpCode)⟩]) ∧ t = { s with tim := t.tim, sent := t.sent }) ∧
     (s.fb Fld.TIM_STAT_EXT_OK = true → Runs .extLost s fun t => t.f Fld.TIM_STAT_EXT_OK = 0 ∧ t.raised Ev.TIM_EXT_LOST ∧
       OnlyRaised 6 [Adr.TIM_STAT] s t))

/-! ### UARTs (R368–R370) -/

/-- A received character enters the FIFO with its flags and is counted, or is lost when 1,024 are held; a read takes the oldest, or a free
value with `VALID` 0 from an empty FIFO; a stamp is read whole; a character written waits when there is room; the divisor is taken in its
range; a character leaves in order. -/
def Obligations.UartMovesCharacters : Prop :=
  ∀ (s : State) (u : Nat), s.pwr.on = true → s.regsWf → u < 8 → u < s.uart.length →
    let x := s.uartOf u
    (∀ c fr pa br back, s.uartOn u = true → Runs (.uartCharRx u c fr pa br back) s fun t => t = (doUartRx s u c fr pa br back).paceAll) ∧
    (∀ c fr pa br back, let t := doUartRx s u c fr pa br back
      let w := s.uartWord u c fr pa br
      (1024 ≤ x.rx.length → t.f (Fld.UAT_CNT_LOST u) = min (s.f (Fld.UAT_CNT_LOST u) + 1) 65535 ∧ t.raised (Ev.UAT_ERR u) ∧ t.uart = s.uart) ∧
      (x.rx.length < 1024 → (t.uartOf u).rx = x.rx ++ [w] ∧ t.f (Fld.UAT_RXCHARS_COUNT u) = (s.f (Fld.UAT_RXCHARS_COUNT u) + 1) % 2 ^ 32 ∧
        t.f (Fld.UAT_STAT_RX_FILL u) = x.rx.length + 1 ∧
        (bitOf w 11 = true → x.stamps.length < 32 → (t.uartOf u).stamps =
          x.stamps ++ [(uns 64 (Int.ofNat s.now - Int.ofNat back), s.f (Fld.UAT_RXCHARS_COUNT u))] ∧ t.raised (Ev.UAT_RX u)) ∧
        (bitOf w 11 = false → (t.uartOf u).stamps = x.stamps) ∧ (fr = true → t.raised (Ev.UAT_ERR u)))) ∧
    (∀ m, s.liveSrc 1 u = false →
      (∀ w ws, x.rx = w :: ws → Runs (.uartRxPop m u) s fun t => t.answer = ⟨.okay, leBytes 4 (BitVec.ofNat 32 (2 ^ 31 + w)).toNat⟩ ∧
        t.uart = setNth s.uart u { x with rx := ws } ∧ RegsKept [Adr.UAT_STAT u] s t ∧ MemKept s t) ∧
      (x.rx = [] → Runs (.uartRxPop m u) s fun t => ∃ v, v < 4096 ∧ t = { s with answer := ⟨.okay, leBytes 4 v⟩, draws := s.draws + 1 }) ∧
      (∀ ts i r, x.stamps = (ts, i) :: r → ts < 2 ^ 64 → Runs (.uartStampPop m u) s fun t =>
        t.answer = ⟨.okay, leBytes 4 (BitVec.ofNat 32 ts).toNat⟩ ∧ t.pair (Adr.UAT_STAMP_LO u) (Adr.UAT_STAMP_HI u) = ts ∧
        t.reg (Adr.UAT_STAMP_IDX u) = BitVec.ofNat 32 i ∧ t.uart = setNth s.uart u { x with stamps := r } ∧ MemKept s t) ∧
      (x.stamps = [] → Runs (.uartStampPop m u) s fun t => ∃ v, t = { s with answer := ⟨.okay, leBytes 4 v⟩, draws := s.draws + 1 })) ∧
    (∀ v : Word,
      (x.tx.length < 255 → Runs (.uartTxWrite u v) s fun t => t.uart = setNth s.uart u { x with tx := x.tx ++ [BitVec.ofNat 8 v.toNat] } ∧
        t.f (Fld.UAT_STAT_TX_FREE u) = 254 - x.tx.length ∧ RegsKept [Adr.UAT_STAT u] s t ∧ MemKept s t) ∧
      (255 ≤ x.tx.length → Runs (.uartTxWrite u v) s fun t => t = s.ok) ∧
      (let d := v.toNat % 2 ^ 18
       (s.locked (Adr.UAT_DIV u) = true → Runs (.uartDivWrite u v) s fun t => t = s.ok) ∧
       (s.locked (Adr.UAT_DIV u) = false → 868 ≤ d → d ≤ 166667 → Runs (.uartDivWrite u v) s fun t =>
         t.f (Fld.UAT_DIV_DIV u) = d ∧ OnlyRegs [Adr.UAT_DIV u] s t) ∧
       (s.locked (Adr.UAT_DIV u) = false → (d < 868 ∨ 166667 < d) → Runs (.uartDivWrite u v) s fun t =>
         t.f (Fld.UAT_FLAGS_DIV_REF u) = 1 ∧ OnlyRegs [Adr.UAT_FLAGS u] s t))) ∧
    (s.uartOn u = true →
      (x.tx = [] → Runs (.uartCharSent u) s fun t => t = s) ∧
      (∀ c cs, x.tx = c :: cs → Runs (.uartCharSent u) s fun t => t.uart = setNth s.uart u { x with tx := cs } ∧
        (s.muted = false → s.fb (Fld.UAT_CFG_DATA7 u) = false → t.sent = s.sent ++ [⟨.uart, u, [c]⟩]) ∧ RegsKept [Adr.UAT_STAT u] s t ∧
        MemKept s t))

/-! ### The ledger (R372–R391) -/

/-- The writer stages the `START` record first, a GAP record after a loss, then the records in order: the record's 64 bytes stand in its
ring slot, the sequence number advances, and nothing else of memory changes. While writing is off or the ring is not held it waits; a
slot not yet flushed loses the record. A software record is taken from its own core only, refused with result 2 when its fields are out
of range, offered when there is room, and lost with result 3 otherwise. -/
def Obligations.LedgerTakesAndStages : Prop :=
  (∀ s : State, s.pwr.on = true → s.Inv →
     let go := s.f Fld.LGR_CFG_EN = 1 ∧ s.ringHeld s.lgr.nextSeq = true
     let busy := s.slotBusy s.lgr.nextSeq
     (¬go → Runs .ledgerStage s fun t => t = s) ∧
     (∀ r, go → s.lgr.start = some r → Runs .ledgerStage s fun t => t = ({ s with lgr := { s.lgr with start := none } } : State).stage r) ∧
     (go → s.lgr.start = none → busy = false → 0 < s.lgr.lost → Runs .ledgerStage s fun t =>
       t = ({ s with lgr := { s.lgr with lost := 0 } } : State).stage s.gapRec) ∧
     (∀ r rest, go → s.lgr.start = none → s.lgr.queue = r :: rest →
       (busy = false → s.lgr.lost = 0 → Runs .ledgerStage s fun t => t = ({ s with lgr := { s.lgr with queue := rest } } : State).stage r) ∧
       (busy = true → Runs .ledgerStage s fun t => t.raised Ev.LGR_LOST ∧ t.lgr.nextSeq = s.lgr.nextSeq ∧ MemKept s t)) ∧
     (∀ r : LRec, r.sw = none → s.lgr.vState = 0 →
       let q := s.lgr.nextSeq
       let a := slotAddr s.ringBank q
       let t := s.stage r
       t.rdN a 64 = recBytes q r ∧ t.pair Adr.LGR_SEQ_LO Adr.LGR_SEQ_HI = q % 2 ^ 64 ∧ t.lgr.nextSeq = q + 1 ∧
       t.lgr.unflushed = s.lgr.unflushed ++ [(q, s.tim.raw)] ∧ (q % 64 = 63 → q / 64 ∈ t.lgr.units) ∧
       (∀ b, (b < a ∨ a + 64 ≤ b) → t.rd8 b = s.rd8 b) ∧ RegsKept [Adr.LGR_SEQ_LO, Adr.LGR_SEQ_HI] s t)) ∧
  (∀ (s : State) (m c : Nat), s.pwr.on = true → s.regsWf →
     let w := (s.reg (Adr.LGR_SW c 0)).toNat
     let bad := bitsOf w 15 0 < 768 ∨ 1023 < bitsOf w 15 0 ∨ 36 < bitsOf w 31 24
     let body := (List.range 9).flatMap fun i => leBytes 4 (s.reg (Adr.LGR_SW c (i + 1))).toNat
     ((m ≠ c ∨ 4 ≤ c) → Runs (.lgrSwCommit m c) s fun t => t = s.ok) ∧
     (m = c → c < 4 →
       (bad → Runs (.lgrSwCommit m c) s fun t => t.f (Fld.LGR_SW_STAT_RESULT c) = 2 ∧ OnlyRegs [Adr.LGR_SW_STAT c] s t) ∧
       (¬bad → s.f Fld.LGR_CFG_EN = 0 → Runs (.lgrSwCommit m c) s fun t => t.f (Fld.LGR_SW_STAT_RESULT c) = 0 ∧
         OnlyRegs [Adr.LGR_SW_STAT c] s t) ∧
       (¬bad → s.f Fld.LGR_CFG_EN = 1 → s.lgr.queue.length < 256 → Runs (.lgrSwCommit m c) s fun t => t.f (Fld.LGR_SW_STAT_RESULT c) = 0 ∧
         t.lgr = { s.lgr with queue := s.lgr.queue ++ [{ source := bitsOf w 15 0, type := bitsOf w 23 16, time := s.now,
                                                         payload := body.take (bitsOf w 31 24), sw := some c }] } ∧
         RegsKept [Adr.LGR_SW_STAT c] s t ∧ t = { s with regs := t.regs, lgr := t.lgr, answer := ⟨.okay, []⟩ }) ∧
       (¬bad → s.f Fld.LGR_CFG_EN = 1 → 256 ≤ s.lgr.queue.length → Runs (.lgrSwCommit m c) s fun t =>
         t.f (Fld.LGR_SW_STAT_RESULT c) = 3 ∧ t.raised Ev.LGR_LOST ∧ OnlyRaised 148 [Adr.LGR_SW_STAT c] s t)))

/-- Units go to flash when they are flushed or their time expires, each once; a unit written joins the till and its records are no more
unflushed, one that fails is counted. The writer resumes after a reset at a multiple of 65,536 above every number the ring holds, with a
`START` record in front. -/
def Obligations.LedgerFlushesAndResumes : Prop :=
  ∀ s : State, s.pwr.on = true → s.regsWf →
    (s.lgr.unflushed = [] → Runs .flush s (fun t => t = s.ok) ∧ Runs .flushMsExpiry s (fun t => t = s)) ∧
    (∀ q r l, s.lgr.unflushed = l ++ [(q, r)] → Runs .flush s fun t => t.lgr = { s.lgr with units := t.lgr.units } ∧
      t.lgr.units = (if q / 64 ∈ s.lgr.units then s.lgr.units else s.lgr.units ++ [q / 64]) ∧ t = { s with lgr := t.lgr, answer := ⟨.okay, []⟩ }) ∧
    (∀ q r l, s.lgr.unflushed = (q, r) :: l → Runs .flushMsExpiry s fun t => t.lgr = { s.lgr with units := t.lgr.units } ∧
      t.lgr.units = (if q / 64 ∈ s.lgr.units then s.lgr.units else s.lgr.units ++ [q / 64]) ∧ t = { s with lgr := t.lgr }) ∧
    (∀ u rest, s.lgr.units = u :: rest → s.f Fld.NFC_STAT_STATE ≠ 1 →
      (s.nfcReady = true → Runs (.ledgerUnitWritten true) s fun t => t.lgr.units = rest ∧
        t.lgr.till = tillPut s.lgr.till u (s.unitBytes u) ∧ t.lgr.unflushed = s.lgr.unflushed.filter (fun e => e.1 / 64 != u) ∧ MemKept s t) ∧
      (∀ good, (good && s.nfcReady) = false → Runs (.ledgerUnitWritten good) s fun t => t.lgr.units = rest ∧
        t.lgr.unflushed = s.lgr.unflushed ∧ t.lgr.till = s.lgr.till ∧
        t.f Fld.LGR_CNT_B_FLUSH_ERR = min (s.f Fld.LGR_CNT_B_FLUSH_ERR + 1) 65535 ∧ t.raised Ev.LGR_FLUSH_ERR)) ∧
    (s.lgr.scanned = false → s.pwr.mainHeld = false → s.f Fld.NFC_STAT_STATE ≠ 1 → s.mm.cleared = true → Runs .ledgerStart s fun t =>
      ∃ u : State, t = u.bootOn ∧ u = { s with lgr := u.lgr } ∧ u.lgr.scanned = true ∧ u.lgr.nextSeq % 65536 = 0 ∧
        (∀ e ∈ s.ringRecords (min (s.f Fld.SYS_RETAIN_RING_BANK) 60), e.1 < u.lgr.nextSeq) ∧
        (∃ r, u.lgr.start = some r ∧ r.source = 516 ∧ r.type = 1) ∧ u.lgr.unflushed = [] ∧ u.lgr.units = [])

/-- The vault: arming an empty one, closing a filling one, a trigger captured by an armed one and counted as missed otherwise. A nonce is
fresh, the earlier one void; a release is judged in the order of its results (the model’s, log entry 104) and always spends the nonce; a good one empties the vault.
An extraction runs once at a time and ends with its count. -/
def Obligations.VaultAndExtraction : Prop :=
  ∀ s : State, s.pwr.on = true → s.regsWf →
    (s.lgr.vState = 0 → Runs .arm s fun t => t.lgr.vState = 1 ∧ t.lgr.vault = [] ∧ MemKept s t) ∧
    (s.lgr.vState ≠ 0 → Runs .arm s fun t => t = s.ok) ∧
    (s.lgr.vState = 2 → Runs .close s fun t => t.lgr.vState = 3 ∧ t.lgr.vPost = none ∧ t.lgr.vault = s.lgr.vault ∧
      t.raised Ev.LGR_VAULT_SEALED ∧ MemKept s t) ∧
    (s.lgr.vState ≠ 2 → Runs .close s fun t => t = s.ok) ∧
    (let cap := s.lgr.vState = 1 ∧ s.fb Fld.LGR_VAULT_CFG_CROSS = true ∧ s.lgr.vTrig = false
     (cap → s.f Fld.LGR_CFG_EN = 1 → s.lgr.queue.length < 256 → Runs .trigger s fun t => ∃ r : LRec, r.trig = true ∧ r.source = 516 ∧
       r.type = 3 ∧ r.time = s.now ∧ t = { s with lgr := { s.lgr with vTrig := true, queue := s.lgr.queue ++ [r] }, answer := ⟨.okay, []⟩ }) ∧
     (¬cap → Runs .trigger s fun t => t.raised Ev.LGR_TRIG_MISSED ∧ OnlyRaised 148 [] s t)) ∧
    (Runs .lgrNonceDraw s fun t => t.lgr = { s.lgr with nonce := some (Config.nonce s.draws) } ∧ t.draws = s.draws + 1 ∧
      t.pair Adr.LGR_NONCE_LO Adr.LGR_NONCE_HI = (Config.nonce s.draws).toNat ∧
      t.answer = ⟨.okay, leBytes 4 (BitVec.ofNat 32 (Config.nonce s.draws).toNat).toNat⟩ ∧
      RegsKept [Adr.LGR_NONCE_LO, Adr.LGR_NONCE_HI] s t ∧ MemKept s t) ∧
    (s.lgr.vState ≠ 3 → s.releaseResult = 3) ∧ (s.lgr.vState = 3 → s.lgr.nonce = none → s.releaseResult = 4) ∧
    (s.releaseResult ≠ 1 → Runs .vaultRelease s fun t => t.f Fld.LGR_REL_CTRL_RESULT = s.releaseResult ∧
      t.lgr = { s.lgr with nonce := none } ∧ RegsKept [Adr.LGR_REL_CTRL] s t ∧
      t = { s with regs := t.regs, lgr := t.lgr, answer := ⟨.okay, []⟩ }) ∧
    (s.releaseResult = 1 → Runs .vaultRelease s fun t => t.f Fld.LGR_REL_CTRL_RESULT = 1 ∧ t.lgr.nonce = none ∧ t.lgr.vault = [] ∧
      t.lgr.vState = s.f Fld.LGR_VAULT_CFG_CROSS ∧ t.raised Ev.LGR_RELEASED ∧ MemKept s t) ∧
    (∀ v : Word,
      (s.lgr.xtr = false → Runs (.xtrGo v) s fun t => t.f Fld.LGR_XTR_CTRL_BUSY = 1 ∧ t.f Fld.LGR_XTR_CTRL_AREA = bitsOf v.toNat 30 30 ∧
        t.f Fld.LGR_XTR_CTRL_COUNT = bitsOf v.toNat 16 0 ∧ t.lgr = { s.lgr with xtr := true } ∧ RegsKept [Adr.LGR_XTR_CTRL] s t ∧
        t = { s with regs := t.regs, lgr := t.lgr, answer := ⟨.okay, []⟩ }) ∧
      (s.lgr.xtr = true → Runs (.xtrGo v) s fun t => t.f Fld.LGR_XTR_CTRL_BUSY = s.f Fld.LGR_XTR_CTRL_BUSY ∧ OnlyRegs [Adr.LGR_XTR_CTRL] s t)) ∧
    (∀ fail, (s.lgr.xtr = false → Runs (.xtrDone fail) s fun t => t = s) ∧
      (s.lgr.xtr = true →
        let rs := match fail with
          | none => s.xtrRecords
          | some k => s.xtrRecords.take k
        Runs (.xtrDone fail) s fun t => t.lgr.xtr = false ∧ t.f Fld.LGR_XTR_CTRL_BUSY = 0 ∧ t.f Fld.LGR_XTR_CTRL_DONE = 1 ∧
          t.f Fld.LGR_XTR_RES_CNT_COUNT = rs.length % 2 ^ 17 ∧
          t.pair Adr.LGR_XTR_RES_LO Adr.LGR_XTR_RES_HI = (rs.map (·.1)).headD 0 % 2 ^ 64 ∧
          (fail ≠ none → t.f Fld.LGR_XTR_CTRL_ERR = 1) ∧ t.raised Ev.LGR_XTR_DONE))

/-! ### Flash (R392–R415) -/

/-- Mounting ends in the state the medium allows: unsupported, unformatted, failed when the channels do not answer, or mounted with its
boot slot shown. It happens once, and start-up goes on. -/
def Obligations.FlashMountsItsMedium : Prop :=
  ∀ (s : State) (ok0 ok1 : Bool), s.pwr.on = true → s.regsWf →
    let t := s.mount ok0 ok1
    (s.pwr.mainHeld = false → s.f Fld.NFC_STAT_STATE = 1 → Runs (.mounted ok0 ok1) s fun u => u = t.bootOn) ∧
    ((s.pwr.mainHeld = true ∨ s.f Fld.NFC_STAT_STATE ≠ 1) → Runs (.mounted ok0 ok1) s fun u => u = s) ∧
    (s.f Fld.NFC_STAT_STATE = 1 → s.fb Fld.NFC_CFG_EN = true →
      (s.nfc.supported = false → t.f Fld.NFC_STAT_STATE = 5 ∧ OnlyRegs [Adr.NFC_STAT] s t) ∧
      (s.nfc.supported = true → s.nfc.head = none → (ok0 || ok1) = true → t.f Fld.NFC_STAT_STATE = 4 ∧ OnlyRegs [Adr.NFC_STAT] s t) ∧
      (s.nfc.supported = true → ((s.nfc.head = none ∧ (ok0 || ok1) = false) ∨ (s.nfc.head ≠ none ∧ (ok0 && ok1) = false)) →
        t.f Fld.NFC_STAT_STATE = 6 ∧ t.raised Ev.NFC_READ_ONLY ∧ OnlyRaised 147 [Adr.NFC_STAT] s t) ∧
      (∀ h, s.nfc.supported = true → s.nfc.head = some h → ok0 = true → ok1 = true → t.raised Ev.NFC_MOUNTED ∧
        t.f Fld.NFC_STAT_BOOT_SLOT = h.slot % 2 ∧ t.nfc.objs = s.nfc.objs ∧ MemKept s t))

/-- A request of software is turned away with code 2 while one runs, with code 3 where its partition or the master's table does not
serve it, with code 10 for the running slot; otherwise it is taken and busy. A request ends with its code: a write that passes its
checks leaves the object stored, an erase leaves none, a load copies a whole object whose hash and signature hold, an image request the
newest good image; the failures keep the medium's content. -/
def Obligations.FlashTakesAndServes : Prop :=
  (∀ (s : State) (m : Nat) (v : Word), s.pwr.on = true → s.regsWf →
     ∀ c op, (c, op) ∈ [(Instr.nfcWrite m v, 1), (Instr.nfcLoad m v, 2), (Instr.nfcErase m v, 3), (Instr.nfcImage m v, 4)] →
       let p := bitsOf v.toNat 26 24
       let q := if op = 4 then 5 else p
       let k : Acc := if op = 1 ∨ op = 3 then .write else .read
       let served := opServed op p = true ∧ (s.f Fld.FWL_STAT_ENFORCE = 0 ∨ s.listCovers m k 203 q = true)
       let own := op = 1 ∧ p = 1 + s.f Fld.NFC_STAT_RUN_SLOT
       (s.nfc.req ≠ none → Runs c s fun t => t.f Fld.NFC_REQ_RES_CODE = 2 ∧ t.f Fld.NFC_REQ_RES_BUSY = s.f Fld.NFC_REQ_RES_BUSY ∧
         OnlyRegs [Adr.NFC_REQ_CTRL, Adr.NFC_REQ_RES] s t) ∧
       (s.nfc.req = none → (¬served ∨ own) → Runs c s fun t => t.f Fld.NFC_REQ_RES_CODE = (if served then 10 else 3) ∧
         t.f Fld.NFC_REQ_RES_BUSY = 0 ∧ t.f Fld.NFC_REQ_RES_DONE = 1 ∧ t.raised Ev.NFC_REQ_DONE ∧
         OnlyRaised 147 [Adr.NFC_REQ_CTRL, Adr.NFC_REQ_RES] s t) ∧
       (s.nfc.req = none → served → ¬own → Runs c s fun t => t.f Fld.NFC_REQ_RES_CODE = 0 ∧ t.f Fld.NFC_REQ_RES_BUSY = 1 ∧
         t.nfc = { s.nfc with req := some ⟨op, q, bitsOf v.toNat 20 16⟩ } ∧ RegsKept [Adr.NFC_REQ_CTRL, Adr.NFC_REQ_RES] s t ∧
         t = { s with regs := t.regs, nfc := t.nfc, answer := ⟨.okay, []⟩ })) ∧
  (∀ s : State, s.pwr.on = true → s.regsWf →
     let ended := fun (code : Nat) (t : State) => t.f Fld.NFC_REQ_RES_CODE = code ∧ t.f Fld.NFC_REQ_RES_BUSY = 0 ∧
       t.f Fld.NFC_REQ_RES_DONE = 1 ∧ t.raised Ev.NFC_REQ_DONE ∧ t.nfc.req = none
     ((s.nfc.req = none ∨ s.f Fld.NFC_STAT_STATE ≤ 1) → ∀ un, Runs (.reqDone un) s fun t => t = s) ∧
     (∀ q, s.nfc.req = some q → 2 ≤ s.f Fld.NFC_STAT_STATE → ∀ un,
       let n := s.f Fld.NFC_REQ_LEN_BYTES
       let r := s.mRead 21 s.reqAddr n
       (q.op = 1 → s.nfcReady = false → Runs (.reqDone un) s fun t => ended 9 t ∧ t.nfc.objs = s.nfc.objs) ∧
       (q.op = 1 → s.nfcReady = true → (n < 224 ∨ partQuota q.part < n) → Runs (.reqDone un) s fun t => ended 4 t ∧ t.nfc.objs = s.nfc.objs) ∧
       (q.op = 1 → s.nfcReady = true → 224 ≤ n → n ≤ partQuota q.part →
         (r.rsp ≠ .okay → Runs (.reqDone un) s fun t => ended 8 t ∧ t.nfc.objs = s.nfc.objs) ∧
         (r.rsp = .okay → objHeadOk q.part q.index r.data = false → Runs (.reqDone un) s fun t => ended 4 t ∧ t.nfc.objs = s.nfc.objs) ∧
         (r.rsp = .okay → objHeadOk q.part q.index r.data = true → objHashOk r.data = false → Runs (.reqDone un) s fun t =>
           ended 6 t ∧ t.nfc.objs = s.nfc.objs) ∧
         (r.rsp = .okay → objHeadOk q.part q.index r.data = true → objHashOk r.data = true → q.part ≠ 5 → Runs (.reqDone un) s fun t =>
           ended 1 t ∧ ∃ o, t.objAt q.part q.index = some o ∧ o.data = r.data)) ∧
       (q.op = 3 → s.nfcReady = false → Runs (.reqDone un) s fun t => ended 9 t ∧ t.nfc.objs = s.nfc.objs) ∧
       (q.op = 3 → s.nfcReady = true → s.objAt q.part q.index = none → Runs (.reqDone un) s fun t => ended 5 t ∧ t.nfc.objs = s.nfc.objs) ∧
       (q.op = 3 → s.nfcReady = true → s.objAt q.part q.index ≠ none → Runs (.reqDone un) s fun t =>
         ended 1 t ∧ t.objAt q.part q.index = none) ∧
       (q.op = 2 → s.nfcReads = false → Runs (.reqDone un) s fun t =>
         ended (if s.f Fld.NFC_STAT_STATE = 6 then 8 else 5) t ∧ t.nfc.objs = s.nfc.objs) ∧
       (q.op = 2 → s.nfcReads = true → s.objAt q.part q.index = none → Runs (.reqDone un) s fun t => ended 5 t ∧ t.nfc.objs = s.nfc.objs) ∧
       (q.op = 2 → s.nfcReads = true → ∀ o, s.objAt q.part q.index = some o →
         ((un = true ∨ o.lost ≠ []) → Runs (.reqDone un) s fun t => ended 8 t) ∧
         (un = false → o.lost = [] → 2 ≤ leAt o.data 6 1 → objHashOk o.data = false → Runs (.reqDone un) s fun t => ended 6 t) ∧
         (un = false → o.lost = [] → 2 ≤ leAt o.data 6 1 → objHashOk o.data = true → s.objSigOk o.data = false →
           Runs (.reqDone un) s fun t => ended 7 t) ∧
         (un = false → o.lost = [] → (leAt o.data 6 1 < 2 ∨ (objHashOk o.data = true ∧ s.objSigOk o.data = true)) → q.part ≠ 3 →
           Runs (.reqDone un) s fun t => t = s.reqCopy o.data)) ∧
       (q.op = 4 → s.bestImage = none → Runs (.reqDone un) s fun t => ended 5 t) ∧
       (q.op = 4 → ∀ d, s.bestImage = some d → Runs (.reqDone un) s fun t => t = if un then s.reqEnd 8 else s.reqCopy d)))

/-- The care of the medium: a read, a program or an erase of a block that is good and no header block is judged; a scheduled block moves;
the patrol reads; the boot slot is selected where an object stands in it; a format by its key leaves an empty medium of slot A. -/
def Obligations.FlashMediumIsKept : Prop :=
  ∀ s : State, s.pwr.on = true → s.regsWf →
    (∀ b q res, b < s.nfc.nBlocks → (s.nblk b).bad = 0 → s.headBlk b = false →
      (s.nfcReads = true → ∀ n, res = some n → Runs (.nandOperationDone 0 b q res) s fun t => t = s.readBlk b res) ∧
      (s.nfcReads = true → res = none → Runs (.nandOperationDone 0 b q res) s fun t =>
        t = (s.readBlk b none).loseQuarter b (q % (4 * s.nfc.pages)) ∧
        t.f Fld.NFC_CNT_UNCORR = min (s.f Fld.NFC_CNT_UNCORR + 1) 65535 ∧ t.raised Ev.NFC_UNCORR) ∧
      (s.nfcReady = true → Runs (.nandOperationDone 1 b q res) s fun t => t = if res = none then s.progFail b else s) ∧
      (s.nfcReady = true → (s.nblk b).use = 2 → ∀ n, res = some n → Runs (.nandOperationDone 2 b q res) s fun t =>
        let x := s.nblk b
        t = (s.setBlk b { x with ec := x.ec + 1, use := 0, reads := 0, erased := s.day, day := 0, move := 0 }).nfcShow) ∧
      (s.nfcReady = true → (s.nblk b).use = 2 → res = none → Runs (.nandOperationDone 2 b q res) s fun t =>
        t = s.growBad b ∧ t.nfc.objs = s.nfc.objs)) ∧
    (∀ b, s.nfcReady = true → (s.nblk b).use = 1 → (s.nblk b).bad = 0 → (s.nblk b).move ≠ 0 → Runs (.relocationDone b) s fun t =>
      t = s.relocate b) ∧
    (∀ b res, s.nfcReads = true → (s.nblk b).use = 1 → (s.nblk b).bad = 0 → Runs (.patrol b res) s fun t =>
      t = (if max 1 (s.f Fld.NFC_SCRUB_AGE_DAYS) ≤ (s.day + 65536 - (s.nblk b).day) % 65536 then (s.readBlk b res).schedule b false
        else s.readBlk b res)) ∧
    (∀ v : Word,
      let slot := v.toNat % 2
      let code := if s.nfcReady = true then 5 else 9
      (bitsOf v.toNat 31 16 ≠ 0xB007 → Runs (.nfcBootSel v) s fun t => t = s.ok) ∧
      (bitsOf v.toNat 31 16 = 0xB007 → (s.nfcReady = false ∨ s.objAt (1 + slot) 0 = none) → Runs (.nfcBootSel v) s fun t =>
        t.f Fld.NFC_REQ_RES_CODE = code ∧ t.f Fld.NFC_REQ_RES_DONE = 1 ∧ t.raised Ev.NFC_REQ_DONE ∧ OnlyRaised 147 [Adr.NFC_REQ_RES] s t) ∧
      (bitsOf v.toNat 31 16 = 0xB007 → s.nfcReady = true → s.objAt (1 + slot) 0 ≠ none → Runs (.nfcBootSel v) s fun t =>
        t.f Fld.NFC_STAT_BOOT_SLOT = slot ∧ t.nfc = { s.nfc with head := some { day := s.day, slot := slot } } ∧
        RegsKept [Adr.NFC_STAT] s t ∧ t = { s with regs := t.regs, nfc := t.nfc, answer := ⟨.okay, []⟩ }) ∧
      (∀ bad, let st := s.f Fld.NFC_STAT_STATE
        let allowed := v.toNat % 65536 = 0xF0A7 ∧ s.lcs.state ≠ 3 ∧ s.lgr.vState ≠ 2 ∧ s.lgr.vState ≠ 3 ∧ s.fb Fld.NFC_CFG_EN = true ∧
          (st = 2 ∨ st = 4)
        (¬allowed → Runs (.nfcFormat v bad) s fun t => t = s.ok) ∧
        (allowed → Runs (.nfcFormat v bad) s fun t => t.nfc.objs = [] ∧ t.nfc.log = [] ∧ t.nfc.head = some { day := s.day, slot := 0 } ∧
          t.lgr.till = [] ∧ t.lgr.vState = 0 ∧ t.lgr.vault = [] ∧ t.f Fld.NFC_STAT_BOOT_SLOT = 0 ∧ MemKept s t)))
end

