-- ==== Sys2Proof/Laws/Bits.lean ====
section
/-! SUPPORT. Reading a bit field after a write of it, of a field beside it, and of the whole word. -/

namespace Sys2Proof.Laws

open Sys2Proof.Machine

theorem putBits_lt (x hi lo v n : Nat) (hx : x < 2 ^ n) (hh : hi < n) (hl : lo ≤ hi) : putBits x hi lo v < 2 ^ n := by
  unfold putBits
  have e1 : 2 ^ (hi + 1) = 2 ^ (hi + 1 - lo) * 2 ^ lo := by rw [← Nat.pow_add]; congr 1; omega
  have e2 : 2 ^ n = 2 ^ (n - (hi + 1)) * 2 ^ (hi + 1) := by rw [← Nat.pow_add]; congr 1; omega
  have p1 : 0 < 2 ^ lo := Nat.two_pow_pos lo
  have p2 : 0 < 2 ^ (hi + 1) := Nat.two_pow_pos _
  have a : x % 2 ^ lo < 2 ^ lo := Nat.mod_lt _ p1
  have b : v % 2 ^ (hi + 1 - lo) < 2 ^ (hi + 1 - lo) := Nat.mod_lt _ (Nat.two_pow_pos _)
  have c : x / 2 ^ (hi + 1) < 2 ^ (n - (hi + 1)) := by
    rw [Nat.div_lt_iff_lt_mul p2, ← e2]
    exact hx
  have d : x % 2 ^ lo + v % 2 ^ (hi + 1 - lo) * 2 ^ lo < 2 ^ (hi + 1) := by
    rw [e1]
    calc _ < 2 ^ lo + v % 2 ^ (hi + 1 - lo) * 2 ^ lo := by omega
      _ = (v % 2 ^ (hi + 1 - lo) + 1) * 2 ^ lo := by rw [Nat.add_mul]; omega
      _ ≤ _ := Nat.mul_le_mul_right _ b
  rw [e2]
  calc _ < 2 ^ (hi + 1) + x / 2 ^ (hi + 1) * 2 ^ (hi + 1) := by omega
    _ = (x / 2 ^ (hi + 1) + 1) * 2 ^ (hi + 1) := by rw [Nat.add_mul]; omega
    _ ≤ _ := Nat.mul_le_mul_right _ c

/-- A field reads what was written into it, cut to its width. -/
theorem bitsOf_putBits (x hi lo v : Nat) (hl : lo ≤ hi) : bitsOf (putBits x hi lo v) hi lo = v % 2 ^ (hi + 1 - lo) := by
  unfold bitsOf putBits
  have e1 : 2 ^ (hi + 1) = 2 ^ (hi + 1 - lo) * 2 ^ lo := by rw [← Nat.pow_add]; congr 1; omega
  have p1 : 0 < 2 ^ lo := Nat.two_pow_pos lo
  rw [e1, ← Nat.mul_assoc, Nat.add_mul_div_right _ _ p1, Nat.add_mul_div_right _ _ p1, Nat.div_eq_of_lt (Nat.mod_lt _ p1),
    Nat.zero_add, Nat.add_mul_mod_self_right, Nat.mod_mod]

/-- A field below the written one is unchanged. -/
theorem bitsOf_putBits_below (x hi lo v h l : Nat) (hl : lo ≤ hi) (hb : h < lo) (h2 : l ≤ h) :
    bitsOf (putBits x hi lo v) h l = bitsOf x h l := by
  unfold bitsOf putBits
  have e1 : 2 ^ (hi + 1) = 2 ^ (hi + 1 - lo) * 2 ^ lo := by rw [← Nat.pow_add]; congr 1; omega
  have e2 : 2 ^ lo = 2 ^ (lo - (h + 1)) * 2 ^ (h + 1) := by rw [← Nat.pow_add]; congr 1; omega
  have e3 : 2 ^ (h + 1) = 2 ^ l * 2 ^ (h + 1 - l) := by rw [← Nat.pow_add]; congr 1; omega
  have key : ∀ y z : Nat, y % 2 ^ lo = z % 2 ^ lo → y / 2 ^ l % 2 ^ (h + 1 - l) = z / 2 ^ l % 2 ^ (h + 1 - l) := by
    intro y z hyz
    rw [← Nat.mod_mul_right_div_self, ← Nat.mod_mul_right_div_self, ← e3]
    have := congrArg (fun w : Nat => w % 2 ^ (h + 1)) hyz
    rw [e2, Nat.mod_mul_left_mod, Nat.mod_mul_left_mod] at this
    rw [this]
  apply key
  rw [e1, ← Nat.mul_assoc, Nat.add_mul_mod_self_right, Nat.add_mul_mod_self_right, Nat.mod_mod]

/-- A field above the written one is unchanged. -/
theorem bitsOf_putBits_above (x hi lo v h l : Nat) (hl : lo ≤ hi) (hb : hi < l) :
    bitsOf (putBits x hi lo v) h l = bitsOf x h l := by
  unfold bitsOf putBits
  have e1 : 2 ^ (hi + 1) = 2 ^ (hi + 1 - lo) * 2 ^ lo := by rw [← Nat.pow_add]; congr 1; omega
  have p1 : 0 < 2 ^ lo := Nat.two_pow_pos lo
  have p2 : 0 < 2 ^ (hi + 1) := Nat.two_pow_pos _
  have a : x % 2 ^ lo < 2 ^ lo := Nat.mod_lt _ p1
  have b : v % 2 ^ (hi + 1 - lo) < 2 ^ (hi + 1 - lo) := Nat.mod_lt _ (Nat.two_pow_pos _)
  have d : x % 2 ^ lo + v % 2 ^ (hi + 1 - lo) * 2 ^ lo < 2 ^ (hi + 1) := by
    rw [e1]
    calc _ < 2 ^ lo + v % 2 ^ (hi + 1 - lo) * 2 ^ lo := by omega
      _ = (v % 2 ^ (hi + 1 - lo) + 1) * 2 ^ lo := by rw [Nat.add_mul]; omega
      _ ≤ _ := Nat.mul_le_mul_right _ b
  have e2 : 2 ^ l = 2 ^ (hi + 1) * 2 ^ (l - (hi + 1)) := by rw [← Nat.pow_add]; congr 1; omega
  rw [e2, ← Nat.div_div_eq_div_mul, ← Nat.div_div_eq_div_mul, Nat.add_mul_div_right _ _ p2, Nat.div_eq_of_lt d, Nat.zero_add]

theorem bitsOf_lt (x hi lo : Nat) : bitsOf x hi lo < 2 ^ (hi + 1 - lo) := Nat.mod_lt _ (Nat.two_pow_pos _)

/-- One bit read as a field. -/
theorem bitsOf_one (x i : Nat) : bitsOf x i i = x / 2 ^ i % 2 := by
  unfold bitsOf
  rw [show i + 1 - i = 1 by omega, pow_one]

theorem b2n_mod (b : Bool) : b2n b % 2 = b2n b := by cases b <;> rfl

theorem b2n_eq_one (b : Bool) : b2n b = 1 ↔ b = true := by cases b <;> simp [b2n]

theorem b2n_eq_zero (b : Bool) : b2n b = 0 ↔ b = false := by cases b <;> simp [b2n]

end Sys2Proof.Laws
end

