-- ==== Sys2Proof/Laws/Sparse.lean ====
section
/-! SUPPORT. The laws of sparse data: what a read gives after a write, and that every operation keeps the canonical form. -/

namespace Sys2Proof.Laws

open Sys2Proof.Machine

variable {β : Type}

/-- Every listed key is above the bound. -/
theorem spAbove_iff (lo : Nat) (m : List (Nat × β)) : spAbove lo m = true ↔ ∀ e ∈ m, lo < e.1 := by
  induction m with
  | nil => simp [spAbove]
  | cons e m ih =>
    obtain ⟨a, v⟩ := e
    simp [spAbove, ih]

theorem spAbove_mono {lo hi : Nat} {m : List (Nat × β)} (h : lo ≤ hi) (hm : spAbove hi m = true) : spAbove lo m = true := by
  rw [spAbove_iff] at hm ⊢
  intro e he
  have := hm e he
  omega

/-- A key below every listed key reads the default. -/
theorem spGet_of_above (d : Nat → β) {k lo : Nat} {m : List (Nat × β)} (h : spAbove lo m = true) (hk : k ≤ lo) :
    spGet d m k = d k := by
  cases m with
  | nil => rfl
  | cons e m =>
    obtain ⟨a, v⟩ := e
    have ha : lo < a := (spAbove_iff lo _).1 h (a, v) List.mem_cons_self
    have h1 : k ≠ a := by omega
    have h2 : k < a := by omega
    simp [spGet, h1, h2]

variable [DecidableEq β]

theorem spWf_cons (d : Nat → β) (a : Nat) (v : β) (m : List (Nat × β)) :
    spWf d ((a, v) :: m) = true ↔ spAbove a m = true ∧ v ≠ d a ∧ spWf d m = true := by
  simp [spWf, and_assoc]

omit [DecidableEq β] in
theorem spErase_above (k lo : Nat) {m : List (Nat × β)} (h : spAbove lo m = true) : spAbove lo (spErase m k) = true := by
  induction m with
  | nil => exact h
  | cons e m ih =>
    obtain ⟨a, v⟩ := e
    simp only [spAbove, Bool.and_eq_true, decide_eq_true_eq] at h
    unfold spErase
    split
    · exact h.2
    · split
      · simp [spAbove, h.1, h.2]
      · simp [spAbove, h.1, ih h.2]

theorem spErase_wf (d : Nat → β) (k : Nat) {m : List (Nat × β)} (h : spWf d m = true) : spWf d (spErase m k) = true := by
  induction m with
  | nil => rfl
  | cons e m ih =>
    obtain ⟨a, v⟩ := e
    have hc := (spWf_cons d a v m).1 h
    unfold spErase
    split
    · exact hc.2.2
    · split
      · exact h
      · exact (spWf_cons d a v _).2 ⟨spErase_above k a hc.1, hc.2.1, ih hc.2.2⟩

omit [DecidableEq β] in
theorem spInsert_above {k lo : Nat} (w : β) {m : List (Nat × β)} (hk : lo < k) (h : spAbove lo m = true) :
    spAbove lo (spInsert m k w) = true := by
  induction m with
  | nil => simp [spInsert, spAbove, hk]
  | cons e m ih =>
    obtain ⟨a, v⟩ := e
    have hs := h
    simp only [spAbove, Bool.and_eq_true, decide_eq_true_eq] at h
    unfold spInsert
    split
    · simp [spAbove, hk, h.2]
    · split
      · simp [spAbove, hk, h.1, h.2]
      · simp [spAbove, h.1, ih h.2]

theorem spInsert_wf (d : Nat → β) (k : Nat) {w : β} (hw : w ≠ d k) {m : List (Nat × β)} (h : spWf d m = true) :
    spWf d (spInsert m k w) = true := by
  induction m with
  | nil => simp [spInsert, spWf, spAbove, hw]
  | cons e m ih =>
    obtain ⟨a, v⟩ := e
    have hc := (spWf_cons d a v m).1 h
    unfold spInsert
    split
    · rename_i hka
      subst hka
      exact (spWf_cons d _ _ _).2 ⟨hc.1, hw, hc.2.2⟩
    · split
      · rename_i _ hlt
        refine (spWf_cons d _ _ _).2 ⟨?_, hw, h⟩
        simp only [spAbove, Bool.and_eq_true, decide_eq_true_eq]
        exact ⟨hlt, spAbove_mono (Nat.le_of_lt hlt) hc.1⟩
      · rename_i hne hlt
        exact (spWf_cons d _ _ _).2 ⟨spInsert_above w (by omega) hc.1, hc.2.1, ih hc.2.2⟩

/-- A write keeps the canonical form. -/
theorem spSet_wf (d : Nat → β) (k : Nat) (w : β) {m : List (Nat × β)} (h : spWf d m = true) : spWf d (spSet d m k w) = true := by
  unfold spSet
  split
  · exact spErase_wf d k h
  · exact spInsert_wf d k ‹_› h

theorem spGet_erase_same (d : Nat → β) (k : Nat) {m : List (Nat × β)} (h : spWf d m = true) : spGet d (spErase m k) k = d k := by
  induction m with
  | nil => rfl
  | cons e m ih =>
    obtain ⟨a, v⟩ := e
    have hc := (spWf_cons d a v m).1 h
    unfold spErase
    split
    · rename_i hka
      exact spGet_of_above d hc.1 (by omega)
    · rename_i hka
      split
      · rename_i hlt
        simp [spGet, hka, hlt]
      · rename_i hlt
        simp [spGet, hka, hlt, ih hc.2.2]

theorem spGet_erase_ne (d : Nat → β) {j k : Nat} (hjk : j ≠ k) {m : List (Nat × β)} (h : spWf d m = true) :
    spGet d (spErase m k) j = spGet d m j := by
  induction m with
  | nil => rfl
  | cons e m ih =>
    obtain ⟨a, v⟩ := e
    have hc := (spWf_cons d a v m).1 h
    unfold spErase
    split
    · rename_i hka
      subst hka
      by_cases hlt : j < k
      · simp [spGet, hjk, hlt, spGet_of_above d hc.1 (Nat.le_of_lt hlt)]
      · simp [spGet, hjk, hlt]
    · split
      · rfl
      · by_cases hja : j = a
        · simp [spGet, hja]
        · by_cases hlt : j < a
          · simp [spGet, hja, hlt]
          · simp [spGet, hja, hlt, ih hc.2.2]

omit [DecidableEq β] in
theorem spGet_insert_same (d : Nat → β) (k : Nat) (w : β) (m : List (Nat × β)) : spGet d (spInsert m k w) k = w := by
  induction m with
  | nil => simp [spInsert, spGet]
  | cons e m ih =>
    obtain ⟨a, v⟩ := e
    unfold spInsert
    split
    · simp [spGet]
    · split
      · simp [spGet]
      · rename_i hka hlt
        simp [spGet, hka, hlt, ih]

theorem spGet_insert_ne (d : Nat → β) {j k : Nat} (hjk : j ≠ k) (w : β) {m : List (Nat × β)} (h : spWf d m = true) :
    spGet d (spInsert m k w) j = spGet d m j := by
  induction m with
  | nil => simp [spInsert, spGet, hjk]
  | cons e m ih =>
    obtain ⟨a, v⟩ := e
    have hc := (spWf_cons d a v m).1 h
    unfold spInsert
    split
    · rename_i hka
      subst hka
      simp [spGet, hjk]
    · split
      · rename_i hka hlt
        by_cases hj : j < k
        · have h1 : j ≠ a := by omega
          have h2 : j < a := by omega
          simp [spGet, hjk, hj, h1, h2]
        · simp [spGet, hjk, hj]
      · by_cases hja : j = a
        · simp [spGet, hja]
        · by_cases hlt : j < a
          · simp [spGet, hja, hlt]
          · simp [spGet, hja, hlt, ih hc.2.2]

/-- A read after a write to the same key gives the value written. -/
theorem spGet_set_same (d : Nat → β) (k : Nat) (w : β) {m : List (Nat × β)} (h : spWf d m = true) :
    spGet d (spSet d m k w) k = w := by
  unfold spSet
  split
  · rename_i hw
    rw [spGet_erase_same d k h, hw]
  · exact spGet_insert_same d k w m

/-- A write leaves every other key alone. -/
theorem spGet_set_ne (d : Nat → β) {j k : Nat} (hjk : j ≠ k) (w : β) {m : List (Nat × β)} (h : spWf d m = true) :
    spGet d (spSet d m k w) j = spGet d m j := by
  unfold spSet
  split
  · exact spGet_erase_ne d hjk h
  · exact spGet_insert_ne d hjk w h

omit [DecidableEq β] in
theorem filter_above (lo : Nat) (p : Nat × β → Bool) {m : List (Nat × β)} (h : spAbove lo m = true) :
    spAbove lo (m.filter p) = true := by
  rw [spAbove_iff] at h ⊢
  exact fun e he => h e (List.mem_filter.1 he).1

/-- Dropping entries keeps the canonical form. -/
theorem filter_wf (d : Nat → β) (p : Nat × β → Bool) {m : List (Nat × β)} (h : spWf d m = true) : spWf d (m.filter p) = true := by
  induction m with
  | nil => rfl
  | cons e m ih =>
    obtain ⟨a, v⟩ := e
    have hc := (spWf_cons d a v m).1 h
    rw [List.filter_cons]
    split
    · exact (spWf_cons d _ _ _).2 ⟨filter_above a p hc.1, hc.2.1, ih hc.2.2⟩
    · exact ih hc.2.2

/-- The canonical form depends only on what the listed keys' defaults are. -/
theorem wf_congr {d d' : Nat → β} {m : List (Nat × β)} (he : ∀ e ∈ m, d' e.1 = d e.1) (h : spWf d m = true) : spWf d' m = true := by
  induction m with
  | nil => rfl
  | cons e m ih =>
    obtain ⟨a, v⟩ := e
    have hc := (spWf_cons d a v m).1 h
    have ha := he (a, v) List.mem_cons_self
    exact (spWf_cons d' _ _ _).2 ⟨hc.1, ha ▸ hc.2.1, ih (fun e h => he e (List.mem_cons_of_mem _ h)) hc.2.2⟩

end Sys2Proof.Laws
end

