-- ==== Sys2Proof/Laws/Keeps.lean ====
section
/-! SUPPORT. What every shared operation keeps: the command queue, and the invariant of Safety.lean. `Keeps s t` is the one relation
that all lemmas of the operations and meanings are stated in; it composes along a chain of operations. -/

namespace Sys2Proof.Laws

open Sys2Proof.Machine

/-- From `s` the machine has come to `t` without touching the command queue and without breaking the invariant. -/
def Keeps (s t : State) : Prop := t.pending = s.pending ∧ (s.Inv → t.Inv)

theorem Keeps.refl (s : State) : Keeps s s := ⟨rfl, id⟩

theorem Keeps.trans {s t u : State} (h : Keeps s t) (k : Keeps t u) : Keeps s u :=
  ⟨k.1.trans h.1, fun i => k.2 (h.2 i)⟩

/-- A change of fields that neither the queue nor the invariant speaks of. -/
theorem Keeps.same {s t : State} {v1 v2 v3 v4 v5 v6 v7 v8 v9 v10 v11 v12 v13 v14 v15 v16 v17 v18 v19 v20 v21 v22 v23 v24
    v25 v26 v27 v28 v29 v30 v31 v32 v33 v34 v35 v36 v37 v38 v39 v40 v41 v42 v43 v44 v45 v46 v47 v48 v49 v50 v51 v52 v53 v54
    v55 v56 v57 v58 v59} (h : Keeps s t) : Keeps s (State.mk t.pending t.regs t.shadow t.mem v34 v35 v36 v37 v38 v39 v40
    (LgrSt.mk t.lgr.queue v1 v2 v3 v4 v5 v6 v7 v8 v9 v10 v11 v12 v13 v14 v15 v16 v17 v18 v19) (MemSt.mk t.mm.fill t.mm.ecc
    v20 v21 v22 v23 v24 v25) v41 v42 v43 v44 v45 v46 (RplSt.mk v26 v27 t.rpl.tx v28 v29 v30 v31 v32 v33) t.eth t.uart t.can
    v47 v48 v49 v50 v51 v52 v53 v54 v55 v56 v57 v58 v59) :=
  ⟨h.1, fun i => ⟨(h.2 i).regs, (h.2 i).shadow, (h.2 i).mem, (h.2 i).ecc, (h.2 i).queue, (h.2 i).can, (h.2 i).uart, (h.2 i).eth,
    (h.2 i).replay⟩⟩

theorem Keeps.ite {s a b : State} {c : Prop} [Decidable c] (ha : Keeps s a) (hb : Keeps s b) : Keeps s (if c then a else b) := by
  split
  · exact ha
  · exact hb

theorem Keeps.foldl {α : Type} {s a : State} {f : State → α → State} {l : List α}
    (hf : ∀ t x, Keeps s t → Keeps s (f t x)) (h : Keeps s a) : Keeps s (l.foldl f a) := by
  induction l generalizing a with
  | nil => exact h
  | cons x l ih => exact ih (hf a x h)

/-- The first part of a pair that a fold carries. -/
theorem Keeps.foldlPair {α γ : Type} {s : State} {f : State × γ → α → State × γ} {a : State × γ} {l : List α}
    (hf : ∀ t x, Keeps s t.1 → Keeps s (f t x).1) (h : Keeps s a.1) : Keeps s (l.foldl f a).1 := by
  induction l generalizing a with
  | nil => exact h
  | cons x l ih => exact ih (hf a x h)

theorem Keeps.pair {γ : Type} {s a : State} {b : γ} (h : Keeps s a) : Keeps s (a, b).1 := h

theorem Keeps.reply {s a : State} {r : Rsp} {d : List Byte} (h : Keeps s a) : Keeps s (Reply.mk a r d).st := h

theorem Keeps.replyOf {s : State} {x y : Reply} (e : x = y) (h : Keeps s y.st) : Keeps s x.st := e ▸ h

theorem Keeps.voted {s a : State} {c : FRec} {l : List (Nat × Nat)} (h : Keeps s a) : Keeps s (Voted.mk a c l).st := h

theorem Keeps.issue {s a : State} {o b : Nat} {l : List (List Byte)} (h : Keeps s a) : Keeps s (Issue.mk a o l b).st := h

theorem Keeps.moved {s a : State} {d : List Byte} {e : Option (Nat × Rsp)} (h : Keeps s a) : Keeps s (Moved.mk a d e).st := h

theorem keeps_forUp {s a : State} {n : Nat} {f : Nat → State → State} (hf : ∀ i t, Keeps s t → Keeps s (f i t)) (h : Keeps s a) :
    Keeps s (forUp n f a) := by
  induction n with
  | zero => exact h
  | succ n ih => exact hf n _ ih

/-- Whatever the command answers as a next state, the queue and the invariant are kept. -/
def KeepsOut (s : State) (o : Out) : Prop := ∀ t, o = .next t → Keeps s t

theorem KeepsOut.next {s t : State} (h : Keeps s t) : KeepsOut s (.next t) := by
  intro u hu
  cases hu
  exact h

theorem KeepsOut.live {s a t : State} (ha : Keeps s a) (ht : Keeps s t) : KeepsOut s (live a t) :=
  KeepsOut.next (Keeps.ite ht ha)

theorem KeepsOut.liveIf {s a t : State} {c : Bool} (ha : Keeps s a) (ht : Keeps s t) : KeepsOut s (liveIf c a t) :=
  KeepsOut.live ha (Keeps.ite ht ha)

end Sys2Proof.Laws
end

