-- ==== Sys2Proof/Laws/KeepShared.lean ====
section
/-! SUPPORT. The operations and meanings of Machine/State, Ops, Medium, Ledger, Access, Memory keep the command queue and the invariant: one lemma
each. -/

namespace Sys2Proof.Laws

open Sys2Proof.Machine

theorem keeps_live {s0 : State} {s1 s2} (h1 : Keeps s0 s1) (h2 : Keeps s0 s2) : KeepsOut s0 (live s1 s2) := by
  unfold live
  refine KeepsOut.next ?_
  · exact Keeps.ite h2 h1

theorem keeps_liveIf {s0 : State} {a1 s2 s3} (h2 : Keeps s0 s2) (h3 : Keeps s0 s3) : KeepsOut s0 (liveIf a1 s2 s3) := by
  unfold liveIf
  refine KeepsOut.live ?_ ?_
  · exact h2
  · exact Keeps.ite h3 h2

theorem keeps_State_setReg {s0 : State} {s1 a2 a3} (h1 : Keeps s0 s1) : Keeps s0 (State.setReg s1 a2 a3) :=
  ⟨h1.1, fun i => { h1.2 i with regs := spSet_wf _ _ _ (h1.2 i).regs, mem := (h1.2 i).mem }⟩

theorem keeps_State_setSh {s0 : State} {s1 a2 a3} (h1 : Keeps s0 s1) : Keeps s0 (State.setSh s1 a2 a3) :=
  ⟨h1.1, fun i => { h1.2 i with shadow := spSet_wf _ _ _ (h1.2 i).shadow, mem := (h1.2 i).mem }⟩

theorem keeps_State_setF {s0 : State} {s1 a2 a3} (h1 : Keeps s0 s1) : Keeps s0 (State.setF s1 a2 a3) := by
  unfold State.setF
  exact keeps_State_setReg h1

theorem keeps_State_setPair {s0 : State} {s1 a2 a3 a4} (h1 : Keeps s0 s1) : Keeps s0 (State.setPair s1 a2 a3 a4) := by
  unfold State.setPair
  exact keeps_State_setReg (keeps_State_setReg h1)

theorem keeps_State_stick {s0 : State} {s1 a2 a3 a4} (h1 : Keeps s0 s1) : Keeps s0 (State.stick s1 a2 a3 a4) := by
  unfold State.stick
  extract_lets -underBinder -merge -useContext +onlyGivenNames x0
  exact Keeps.ite h1 (Keeps.ite (keeps_State_setF h1) (keeps_State_setF (keeps_State_setF h1)))

theorem keeps_State_stickN {s0 : State} {s1 a2 a3} (h1 : Keeps s0 s1) : Keeps s0 (State.stickN s1 a2 a3) := by
  unfold State.stickN
  exact keeps_State_setF h1

theorem keeps_State_wrap {s0 : State} {s1 a2 a3} (h1 : Keeps s0 s1) : Keeps s0 (State.wrap s1 a2 a3) := by
  unfold State.wrap
  exact keeps_State_setF h1

theorem keeps_State_commitWord {s0 : State} {s1 a2} (h1 : Keeps s0 s1) : Keeps s0 (State.commitWord s1 a2) := by
  unfold State.commitWord
  extract_lets -underBinder -merge -useContext +onlyGivenNames x0
  exact keeps_State_setReg h1

theorem keeps_State_commitRegs {s0 : State} {s1 a2 a3} (h1 : Keeps s0 s1) : Keeps s0 (State.commitRegs s1 a2 a3) := by
  unfold State.commitRegs
  extract_lets -underBinder -merge -useContext +onlyGivenNames x0
  exact Keeps.foldl (fun _ _ hx1 => (keeps_State_commitWord hx1)) h1

theorem keeps_State_commitGen {s0 : State} {s1 a2} (h1 : Keeps s0 s1) : Keeps s0 (State.commitGen s1 a2) := by
  unfold State.commitGen
  extract_lets -underBinder -merge -useContext +onlyGivenNames x0
  exact keeps_State_setF h1

theorem keeps_State_commitPage {s0 : State} {s1 a2} (h1 : Keeps s0 s1) : Keeps s0 (State.commitPage s1 a2) := by
  unfold State.commitPage
  exact keeps_State_commitGen (keeps_State_commitRegs h1)

theorem keeps_State_draw {s0 : State} {s1} (h1 : Keeps s0 s1) : Keeps s0 (State.draw s1) := by
  unfold State.draw
  exact Keeps.same h1

theorem keeps_State_send {s0 : State} {s1 a2 a3 a4} (h1 : Keeps s0 s1) : Keeps s0 (State.send s1 a2 a3 a4) := by
  unfold State.send
  exact Keeps.ite h1 (Keeps.same h1)

theorem keeps_State_ans {s0 : State} {s1 a2 a3} (h1 : Keeps s0 s1) : Keeps s0 (State.ans s1 a2 a3) := by
  unfold State.ans
  exact Keeps.same h1

theorem keeps_State_ok {s0 : State} {s1} (h1 : Keeps s0 s1) : Keeps s0 (State.ok s1) := by
  unfold State.ok
  exact keeps_State_ans h1

theorem keeps_State_ansW {s0 : State} {s1 a2} (h1 : Keeps s0 s1) : Keeps s0 (State.ansW s1 a2) := by
  unfold State.ansW
  exact keeps_State_ans h1

theorem keeps_offerWith {s0 : State} {a1 s2 a3} (h1 : ∀ y0 y1, Keeps s0 y0 → Keeps s0 (a1 y0 y1)) (h2 : Keeps s0 s2) :
    Keeps s0 (offerWith a1 s2 a3) := by
  unfold offerWith
  split
  · exact h2
  · split
    · rename_i hl
      exact ⟨h2.1, fun i => { h2.2 i with mem := (h2.2 i).mem, queue := by simp only [List.length_append, List.length_singleton]; omega }⟩
    · split
      · exact h1 _ _ (keeps_State_stick (Keeps.same h2))
      · exact h1 _ _ (keeps_State_stick (Keeps.same h2))

theorem keeps_recordSource {s0 : State} {a1 s2 a3} (h1 : ∀ y0 y1, Keeps s0 y0 → Keeps s0 (a1 y0 y1)) (h2 : Keeps s0 s2) : Keeps s0 (recordSource a1 s2 a3) := by
  unfold recordSource
  refine Keeps.ite ?_ ?_
  · exact h2
  · refine Keeps.ite ?_ ?_
    · exact Keeps.same h2
    · split
      · refine keeps_offerWith ?_ ?_
        · exact h1
        · exact Keeps.same h2

theorem keeps_triggerWith {s0 : State} {a1 s2 a3 a4} (h1 : ∀ y0 y1, Keeps s0 y0 → Keeps s0 (a1 y0 y1)) (h2 : Keeps s0 s2) : Keeps s0 (triggerWith a1 s2 a3 a4) := by
  unfold triggerWith
  extract_lets -underBinder -merge -useContext +onlyGivenNames x0
  extract_lets -underBinder -merge -useContext +onlyGivenNames x1 x2
  have hx2 : Keeps s0 x2 := by
    refine keeps_offerWith ?_ ?_
    · exact h1
    · exact Keeps.same h2
  clear_value x2
  refine Keeps.ite ?_ ?_
  · exact hx2
  · refine h1 _ _ ?_
    · exact keeps_State_stick hx2

theorem keeps_linesFrom {s0 : State} {a1 s2 a3 a4} (h2 : Keeps s0 s2) : Keeps s0 (linesFrom a1 s2 a3 a4) := by
  induction a1 generalizing s2 a3 a4 with
  | zero => exact h2
  | succ k ih =>
    unfold linesFrom
    extract_lets +onlyGivenNames rz ns x
    have hrz : ∀ y0 y1, Keeps s0 y0 → Keeps s0 (rz y0 y1) := fun y0 y1 h => ih (keeps_State_setReg h)
    have hx : Keeps s0 x := Keeps.foldl (fun t n ht => keeps_recordSource hrz ht) h2
    clear_value x rz
    split
    · exact hx
    · exact keeps_triggerWith hrz hx

theorem keeps_State_raiseBits {s0 : State} {s1 a2 a3} (h1 : Keeps s0 s1) : Keeps s0 (State.raiseBits s1 a2 a3) := by
  unfold State.raiseBits
  extract_lets -underBinder -merge -useContext +onlyGivenNames x0
  exact keeps_linesFrom (keeps_State_setReg h1)

theorem keeps_State_raise {s0 : State} {s1 a2} (h1 : Keeps s0 s1) : Keeps s0 (State.raise s1 a2) := by
  unfold State.raise
  exact keeps_State_raiseBits h1

theorem keeps_State_offer {s0 : State} {s1 a2} (h1 : Keeps s0 s1) : Keeps s0 (State.offer s1 a2) := by
  unfold State.offer
  refine keeps_offerWith ?_ ?_
  · intro y0 y1 hy0
    exact keeps_State_raise hy0
  · exact h1

theorem keeps_State_offerFabric {s0 : State} {s1 a2 a3 a4 a5} (h1 : Keeps s0 s1) : Keeps s0 (State.offerFabric s1 a2 a3 a4 a5) := by
  unfold State.offerFabric
  refine Keeps.ite ?_ ?_
  · exact Keeps.same h1
  · split
    · exact keeps_State_offer (Keeps.same h1)

/-- Setting dirty bits changes nothing but the dirty bits. -/
theorem touch_dirty (s : State) (a n : Nat) : ∃ d, s.touch a n = { s with mm := { s.mm with dirty := d } } := by
  unfold State.touch
  split
  · exact ⟨s.mm.dirty, rfl⟩
  · exact ⟨_, rfl⟩

theorem keeps_State_touch {s0 : State} {s1 a2 a3} (h1 : Keeps s0 s1) : Keeps s0 (State.touch s1 a2 a3) := by
  obtain ⟨d, hd⟩ := touch_dirty s1 a2 a3
  rw [hd]
  exact Keeps.same h1

theorem memDflt_addFill {f : Fill} {l : List Fill} {a : Nat} (ha : a < f.lo ∨ f.hi ≤ a) : memDflt (addFill f l) a = memDflt l a := by
  have hf : (decide (f.lo ≤ a) && decide (a < f.hi)) = false := by
    rw [Bool.and_eq_false_iff]
    rcases ha with h | h
    · left; simpa using h
    · right; simpa using h
  have key : ∀ l : List Fill, (l.filter fun g => !(decide (f.lo ≤ g.lo) && decide (g.hi ≤ f.hi))).find?
      (fun g => decide (g.lo ≤ a) && decide (a < g.hi)) = l.find? fun g => decide (g.lo ≤ a) && decide (a < g.hi) := by
    intro l
    induction l with
    | nil => rfl
    | cons g l ih =>
      by_cases hg : (decide (f.lo ≤ g.lo) && decide (g.hi ≤ f.hi)) = true
      · have hn : (decide (g.lo ≤ a) && decide (a < g.hi)) = false := by
          simp only [Bool.and_eq_true, decide_eq_true_eq] at hg
          rw [Bool.and_eq_false_iff, decide_eq_false_iff_not, decide_eq_false_iff_not]
          omega
        rw [List.filter_cons_of_neg (by simp [hg]), List.find?_cons_of_neg (by simp [hn]), ih]
      · rw [List.filter_cons_of_pos (by rw [Bool.eq_false_of_not_eq_true hg]; rfl), List.find?_cons, List.find?_cons, ih]
  have hadd : (addFill f l).find? (fun g => decide (g.lo ≤ a) && decide (a < g.hi)) =
      l.find? fun g => decide (g.lo ≤ a) && decide (a < g.hi) := by
    unfold addFill
    extract_lets r
    split
    · exact key l
    · rw [List.find?_cons_of_neg (by simp [hf])]
      exact key l
  unfold memDflt
  rw [hadd]

theorem memWrite_wf {fs : List Fill} {bs : List Byte} {m : List Host.Cell} {a : Nat} (h : spWf (memDflt fs) m = true) :
    spWf (memDflt fs) (memWrite fs bs m a) = true := by
  induction bs generalizing m a with
  | nil => exact h
  | cons b bs ih => exact ih (spSet_wf _ _ _ h)

theorem keeps_State_store {s0 : State} {s1 a2 a3} (h1 : Keeps s0 s1) : Keeps s0 (State.store s1 a2 a3) := by
  unfold State.store
  extract_lets m
  refine keeps_State_touch ?_
  exact ⟨h1.1, fun i => { h1.2 i with mem := memWrite_wf (h1.2 i).mem, ecc := filter_wf _ _ (h1.2 i).ecc }⟩

theorem keeps_State_storeLe {s0 : State} {s1 a2 a3 a4} (h1 : Keeps s0 s1) : Keeps s0 (State.storeLe s1 a2 a3 a4) := by
  unfold State.storeLe
  exact keeps_State_store h1

theorem keeps_State_fillMem {s0 : State} {s1 a2} (h1 : Keeps s0 s1) : Keeps s0 (State.fillMem s1 a2) := by
  refine ⟨h1.1, fun i => { h1.2 i with mem := ?_, ecc := filter_wf _ _ (h1.2 i).ecc }⟩
  refine wf_congr (d := memDflt s1.mm.fill) (fun e he => ?_) (filter_wf _ _ (h1.2 i).mem)
  have h := (List.mem_filter.1 he).2
  simp only [Bool.or_eq_true, decide_eq_true_eq] at h
  exact memDflt_addFill h

theorem keeps_State_clearMem {s0 : State} {s1 a2 a3} (h1 : Keeps s0 s1) : Keeps s0 (State.clearMem s1 a2 a3) := by
  unfold State.clearMem
  exact keeps_State_fillMem h1

theorem keeps_State_scramble {s0 : State} {s1 a2 a3} (h1 : Keeps s0 s1) : Keeps s0 (State.scramble s1 a2 a3) := by
  unfold State.scramble
  exact keeps_State_touch (keeps_State_fillMem (Keeps.same h1))

theorem keeps_State_setBlk {s0 : State} {s1 a2 a3} (h1 : Keeps s0 s1) : Keeps s0 (State.setBlk s1 a2 a3) := by
  unfold State.setBlk
  exact Keeps.same h1

theorem keeps_State_takeBlks {s0 : State} {a1 s2} (h2 : Keeps s0 s2) : Keeps s0 (State.takeBlks a1 s2).1 := by
  induction a1 generalizing s2 with
  | zero => exact h2
  | succ n ih =>
    unfold State.takeBlks
    split
    · exact h2
    · exact ih (keeps_State_setBlk h2)

theorem keeps_State_dropBlks {s0 : State} {s1 a2} (h1 : Keeps s0 s1) : Keeps s0 (State.dropBlks s1 a2) := by
  unfold State.dropBlks
  exact Keeps.foldl (fun _ _ hx0 => (keeps_State_setBlk hx0)) h1

theorem keeps_State_nfcShow {s0 : State} {s1} (h1 : Keeps s0 s1) : Keeps s0 (State.nfcShow s1) := by
  unfold State.nfcShow
  extract_lets -underBinder -merge -useContext +onlyGivenNames x0
  have hx0 : Keeps s0 x0 := (keeps_State_setF (keeps_State_setF (keeps_State_setF (keeps_State_setF (keeps_State_setF h1)))))
  clear_value x0
  extract_lets -underBinder -merge -useContext +onlyGivenNames x1
  have hx1 : Keeps s0 x1 := (keeps_State_setF hx0)
  clear_value x1
  extract_lets -underBinder -merge -useContext +onlyGivenNames x2
  have hx2 : Keeps s0 x2 := (keeps_forUp (fun _ _ hx3 => (keeps_State_setF (keeps_State_setF hx3))) hx1)
  clear_value x2
  extract_lets -underBinder -merge -useContext +onlyGivenNames x5
  extract_lets -underBinder -merge -useContext +onlyGivenNames x6
  have hx6 : Keeps s0 x6 := (Keeps.ite (keeps_State_raise (keeps_State_setF hx2)) hx2)
  clear_value x6
  extract_lets -underBinder -merge -useContext +onlyGivenNames x7 x8
  have hx8 : Keeps s0 x8 := (Keeps.ite (keeps_State_raise (Keeps.same hx6)) hx6)
  clear_value x8
  exact Keeps.ite (keeps_State_raise (keeps_State_setF hx8)) (Keeps.ite (keeps_State_raise (keeps_State_setF hx8)) hx8)

theorem keeps_State_putContent {s0 : State} {s1 a2 a3 a4} (h1 : Keeps s0 s1) : Keeps s0 (State.putContent s1 a2 a3 a4) := by
  unfold State.putContent
  split
  · rename_i x1 y2  he3
    have hq0 : Keeps s0 x1 := by
      have e := congrArg Prod.fst he3
      dsimp only at e
      rw [← e]
      refine keeps_State_takeBlks ?_
      · exact h1
    extract_lets -underBinder -merge -useContext +onlyGivenNames x4
    extract_lets -underBinder -merge -useContext +onlyGivenNames x5
    have hx5 : Keeps s0 x5 := (keeps_State_dropBlks hq0)
    clear_value x5
    revert x5
    refine id ?_
    intro x5 hx5
    extract_lets -underBinder -merge -useContext +onlyGivenNames x6
    extract_lets -underBinder -merge -useContext +onlyGivenNames x7
    exact keeps_State_nfcShow (Keeps.same hx5)

theorem keeps_State_dropContent {s0 : State} {s1 a2} (h1 : Keeps s0 s1) : Keeps s0 (State.dropContent s1 a2) := by
  unfold State.dropContent
  extract_lets -underBinder -merge -useContext +onlyGivenNames x0
  have hx0 : Keeps s0 x0 := (keeps_State_dropBlks h1)
  clear_value x0
  exact keeps_State_nfcShow (Keeps.same hx0)

theorem keeps_State_logUnit {s0 : State} {s1 a2} (h1 : Keeps s0 s1) : Keeps s0 (State.logUnit s1 a2) := by
  unfold State.logUnit
  extract_lets -underBinder -merge -useContext +onlyGivenNames x0 x1
  have hx1 : Keeps s0 x1 := (Keeps.same h1)
  clear_value x1
  split
  · refine Keeps.ite ?_ ?_
    · exact Keeps.same hx1
    · split
      · rename_i x3 y4  he5
        have hq2 : Keeps s0 x3 := by
          have e := congrArg Prod.fst he5
          dsimp only at e
          rw [← e]
          refine keeps_State_takeBlks ?_
          · exact hx1
        exact Keeps.same hq2
  · split
    · rename_i x7 y8  he9
      have hq6 : Keeps s0 x7 := by
        have e := congrArg Prod.fst he9
        dsimp only at e
        rw [← e]
        refine keeps_State_takeBlks ?_
        · exact hx1
      exact Keeps.same hq6

theorem keeps_State_logFree {s0 : State} {s1 a2} (h1 : Keeps s0 s1) : Keeps s0 (State.logFree s1 a2) := by
  unfold State.logFree
  extract_lets -underBinder -merge -useContext +onlyGivenNames x0
  extract_lets -underBinder -merge -useContext +onlyGivenNames x1
  extract_lets -underBinder -merge -useContext +onlyGivenNames x2
  extract_lets -underBinder -merge -useContext +onlyGivenNames x3
  have hx3 : Keeps s0 x3 := (keeps_State_dropBlks h1)
  clear_value x3
  exact keeps_State_nfcShow (Keeps.same hx3)

theorem keeps_State_vaultBlks {s0 : State} {s1} (h1 : Keeps s0 s1) : Keeps s0 (State.vaultBlks s1) := by
  unfold State.vaultBlks
  refine Keeps.ite ?_ ?_
  · split
    · rename_i x1 y2  he3
      have hq0 : Keeps s0 x1 := by
        have e := congrArg Prod.fst he3
        dsimp only at e
        rw [← e]
        refine keeps_State_takeBlks ?_
        · exact h1
      exact keeps_State_nfcShow (Keeps.same hq0)
  · exact h1

theorem keeps_State_vaultErase {s0 : State} {s1} (h1 : Keeps s0 s1) : Keeps s0 (State.vaultErase s1) := by
  unfold State.vaultErase
  extract_lets -underBinder -merge -useContext +onlyGivenNames x0
  have hx0 : Keeps s0 x0 := (keeps_State_dropBlks h1)
  clear_value x0
  exact keeps_State_nfcShow (Keeps.same hx0)

theorem keeps_State_growBad {s0 : State} {s1 a2} (h1 : Keeps s0 s1) : Keeps s0 (State.growBad s1 a2) := by
  unfold State.growBad
  exact keeps_State_nfcShow (keeps_State_raise (keeps_State_setBlk h1))

theorem keeps_State_schedule {s0 : State} {s1 a2 a3} (h1 : Keeps s0 s1) : Keeps s0 (State.schedule s1 a2 a3) := by
  unfold State.schedule
  extract_lets -underBinder -merge -useContext +onlyGivenNames x0
  exact Keeps.ite (keeps_State_setBlk h1) h1

theorem keeps_State_switchBlk {s0 : State} {s1 a2 a3} (h1 : Keeps s0 s1) : Keeps s0 (State.switchBlk s1 a2 a3) := by
  unfold State.switchBlk
  extract_lets -underBinder -merge -useContext +onlyGivenNames x0
  exact Keeps.same h1

theorem keeps_State_relocate {s0 : State} {s1 a2} (h1 : Keeps s0 s1) : Keeps s0 (State.relocate s1 a2) := by
  unfold State.relocate
  extract_lets -underBinder -merge -useContext +onlyGivenNames x0
  split
  · exact h1
  · extract_lets -underBinder -merge -useContext +onlyGivenNames x1 x2
    have hx2 : Keeps s0 x2 := (keeps_State_switchBlk (keeps_State_setBlk h1))
    clear_value x2
    extract_lets -underBinder -merge -useContext +onlyGivenNames x3 x4
    have hx4 : Keeps s0 x4 := (Keeps.same hx2)
    clear_value x4
    exact Keeps.ite (keeps_State_growBad hx4) (keeps_State_nfcShow (keeps_State_setBlk hx4))

theorem keeps_State_readBlk {s0 : State} {s1 a2 a3} (h1 : Keeps s0 s1) : Keeps s0 (State.readBlk s1 a2 a3) := by
  unfold State.readBlk
  extract_lets -underBinder -merge -useContext +onlyGivenNames x0
  extract_lets -underBinder -merge -useContext +onlyGivenNames x1
  have hx1 : Keeps s0 x1 := (keeps_State_setBlk h1)
  clear_value x1
  extract_lets -underBinder -merge -useContext +onlyGivenNames x2
  have hx2 : Keeps s0 x2 := (Keeps.ite (keeps_State_schedule hx1) hx1)
  clear_value x2
  split
  · exact Keeps.ite hx2 (keeps_State_stick (keeps_State_schedule hx2))
  · exact keeps_State_raise (keeps_State_stick (keeps_State_schedule hx2))

theorem keeps_State_loseQuarter {s0 : State} {s1 a2 a3} (h1 : Keeps s0 s1) : Keeps s0 (State.loseQuarter s1 a2 a3) := by
  unfold State.loseQuarter
  exact Keeps.same h1

theorem keeps_State_eraseBlk {s0 : State} {s1 a2 a3} (h1 : Keeps s0 s1) : Keeps s0 (State.eraseBlk s1 a2 a3) := by
  unfold State.eraseBlk
  extract_lets -underBinder -merge -useContext +onlyGivenNames x0
  exact Keeps.ite h1 (Keeps.ite (keeps_State_nfcShow (keeps_State_setBlk h1)) (keeps_State_growBad h1))

theorem keeps_State_progFail {s0 : State} {s1 a2} (h1 : Keeps s0 s1) : Keeps s0 (State.progFail s1 a2) := by
  unfold State.progFail
  refine Keeps.ite ?_ ?_
  · exact keeps_State_growBad h1
  · split
    · exact h1
    · exact keeps_State_growBad (keeps_State_switchBlk (keeps_State_setBlk h1))

theorem keeps_State_handUnit {s0 : State} {s1 a2} (h1 : Keeps s0 s1) : Keeps s0 (State.handUnit s1 a2) := by
  unfold State.handUnit
  exact Keeps.ite h1 (Keeps.same h1)

theorem keeps_State_flushCurrent {s0 : State} {s1} (h1 : Keeps s0 s1) : Keeps s0 (State.flushCurrent s1) := by
  unfold State.flushCurrent
  split
  · exact h1
  · exact keeps_State_handUnit h1

theorem keeps_State_offerVault {s0 : State} {s1} (h1 : Keeps s0 s1) : Keeps s0 (State.offerVault s1) := by
  unfold State.offerVault
  exact keeps_State_offer (Keeps.ite (keeps_State_vaultBlks h1) h1)

theorem keeps_State_seal {s0 : State} {s1} (h1 : Keeps s0 s1) : Keeps s0 (State.seal s1) := by
  unfold State.seal
  extract_lets -underBinder -merge -useContext +onlyGivenNames x0 x1
  have hx1 : Keeps s0 x1 := (Keeps.same h1)
  clear_value x1
  exact keeps_State_flushCurrent (keeps_State_raise (keeps_State_offerVault hx1))

theorem keeps_State_vaultTake {s0 : State} {s1 a2 a3} (h1 : Keeps s0 s1) : Keeps s0 (State.vaultTake s1 a2 a3) := by
  unfold State.vaultTake
  extract_lets -underBinder -merge -useContext +onlyGivenNames x0
  exact Keeps.same h1

theorem keeps_State_vaultStep {s0 : State} {s1 a2 a3 a4} (h1 : Keeps s0 s1) : Keeps s0 (State.vaultStep s1 a2 a3 a4) := by
  unfold State.vaultStep
  refine Keeps.ite ?_ ?_
  · extract_lets -underBinder -merge -useContext +onlyGivenNames x0
    extract_lets -underBinder -merge -useContext +onlyGivenNames x1
    have hx1 : Keeps s0 x1 := (Keeps.foldl (fun _ _ hx2 => (keeps_State_vaultTake hx2)) h1)
    clear_value x1
    extract_lets -underBinder -merge -useContext +onlyGivenNames x4
    have hx4 : Keeps s0 x4 := (keeps_State_vaultTake hx1)
    clear_value x4
    extract_lets -underBinder -merge -useContext +onlyGivenNames x5 x6
    have hx6 : Keeps s0 x6 := (Keeps.same hx4)
    clear_value x6
    extract_lets -underBinder -merge -useContext +onlyGivenNames x7
    have hx7 : Keeps s0 x7 := (keeps_State_offerVault hx6)
    clear_value x7
    exact Keeps.ite (keeps_State_seal hx7) hx7
  · refine Keeps.ite ?_ ?_
    · extract_lets -underBinder -merge -useContext +onlyGivenNames x8
      have hx8 : Keeps s0 x8 := (keeps_State_vaultTake h1)
      clear_value x8
      exact keeps_State_offerVault (Keeps.same hx8)
    · refine Keeps.ite ?_ ?_
      · extract_lets -underBinder -merge -useContext +onlyGivenNames x9
        have hx9 : Keeps s0 x9 := (keeps_State_vaultTake h1)
        clear_value x9
        split
        · exact Keeps.ite hx9 (keeps_State_seal hx9)
        · extract_lets -underBinder -merge -useContext +onlyGivenNames x10 x11
          have hx11 : Keeps s0 x11 := (Keeps.same hx9)
          clear_value x11
          exact Keeps.ite (keeps_State_seal hx11) hx11
      · exact h1

theorem keeps_State_stage {s0 : State} {s1 a2} (h1 : Keeps s0 s1) : Keeps s0 (State.stage s1 a2) := by
  unfold State.stage
  extract_lets -underBinder -merge -useContext +onlyGivenNames x0
  extract_lets -underBinder -merge -useContext +onlyGivenNames x1
  extract_lets -underBinder -merge -useContext +onlyGivenNames x2
  have hx2 : Keeps s0 x2 := (keeps_State_store (keeps_State_store h1))
  clear_value x2
  revert x2
  refine id ?_
  intro x2 hx2
  extract_lets -underBinder -merge -useContext +onlyGivenNames x3
  have hx3 : Keeps s0 x3 := (keeps_State_setPair hx2)
  clear_value x3
  revert x3
  refine id ?_
  intro x3 hx3
  extract_lets -underBinder -merge -useContext +onlyGivenNames x4 x5
  have hx5 : Keeps s0 x5 := (Keeps.same hx3)
  clear_value x5
  revert x5
  refine id ?_
  intro x5 hx5
  extract_lets -underBinder -merge -useContext +onlyGivenNames x6
  have hx6 : Keeps s0 x6 := by
    unfold x6
    split
    · exact hx5
    · exact keeps_State_setF (keeps_State_setF hx5)
  clear_value x6
  revert x6
  refine id ?_
  intro x6 hx6
  extract_lets -underBinder -merge -useContext +onlyGivenNames x7
  have hx7 : Keeps s0 x7 := (Keeps.ite (keeps_State_handUnit hx6) hx6)
  clear_value x7
  revert x7
  refine id ?_
  intro x7 hx7
  exact keeps_State_vaultStep hx7

theorem keeps_State_loseFront {s0 : State} {s1 a2 a3} (h1 : Keeps s0 s1) (hq : a3.length ≤ s1.lgr.queue.length) :
    Keeps s0 (State.loseFront s1 a2 a3) := by
  unfold State.loseFront
  extract_lets -underBinder -merge -useContext +onlyGivenNames q q2 l l2 x
  have hl : l.queue = a3 := by
    unfold l
    split <;> rfl
  have hl2 : l2.queue = a3 := by
    unfold l2
    split
    · exact hl
    · exact hl
  clear_value l2
  have hx : Keeps s0 x := by
    refine keeps_State_raise (keeps_State_stick ⟨h1.1, fun i => ?_⟩)
    have hi := (h1.2 i).queue
    exact ⟨(h1.2 i).regs, (h1.2 i).shadow, (h1.2 i).mem, (h1.2 i).ecc, by rw [hl2]; omega, (h1.2 i).can, (h1.2 i).uart, (h1.2 i).eth,
      (h1.2 i).replay⟩
  clear_value x
  split
  · exact hx
  · exact keeps_State_setF hx

theorem keeps_State_stageNext {s0 : State} {s1} (h1 : Keeps s0 s1) : Keeps s0 (State.stageNext s1) := by
  unfold State.stageNext
  split
  · exact h1
  · split
    · exact keeps_State_stage (Keeps.same h1)
    · split
      · split
        · exact h1
        · rename_i hq
          exact keeps_State_loseFront h1 (by rw [hq]; simp)
      · split
        · exact keeps_State_stage (Keeps.same h1)
        · split
          · exact h1
          · rename_i hq
            refine keeps_State_stage ⟨h1.1, fun i => { h1.2 i with mem := (h1.2 i).mem, queue := ?_ }⟩
            have := (h1.2 i).queue
            rw [hq] at this
            simp only [List.length_cons] at this ⊢
            omega

theorem keeps_doSwCommit {s0 : State} {s1 a2 a3} (h1 : Keeps s0 s1) : Keeps s0 (doSwCommit s1 a2 a3) := by
  unfold doSwCommit
  refine Keeps.ite ?_ ?_
  · exact keeps_State_ok h1
  · extract_lets -underBinder -merge -useContext +onlyGivenNames x0
    extract_lets -underBinder -merge -useContext +onlyGivenNames x1
    extract_lets -underBinder -merge -useContext +onlyGivenNames x2
    extract_lets -underBinder -merge -useContext +onlyGivenNames x3
    refine Keeps.ite ?_ ?_
    · exact keeps_State_ok (keeps_State_setF h1)
    · refine Keeps.ite ?_ ?_
      · exact keeps_State_ok (keeps_State_setF h1)
      · extract_lets -underBinder -merge -useContext +onlyGivenNames x4
        extract_lets -underBinder -merge -useContext +onlyGivenNames x5
        have hx5 : Keeps s0 x5 := (keeps_State_offer (keeps_State_setF h1))
        clear_value x5
        exact keeps_State_ok hx5

theorem keeps_State_unitWritten {s0 : State} {s1 a2} (h1 : Keeps s0 s1) : Keeps s0 (State.unitWritten s1 a2) := by
  unfold State.unitWritten
  split
  · exact h1
  · extract_lets -underBinder -merge -useContext +onlyGivenNames x0 x1
    have hx1 : Keeps s0 x1 := (Keeps.same h1)
    clear_value x1
    refine Keeps.ite ?_ ?_
    · extract_lets -underBinder -merge -useContext +onlyGivenNames x2 x3
      extract_lets -underBinder -merge -useContext +onlyGivenNames x4
      have hx4 : Keeps s0 x4 := (Keeps.same hx1)
      clear_value x4
      exact keeps_State_logFree (keeps_State_logUnit hx4)
    · exact keeps_State_raise (keeps_State_stick hx1)

theorem keeps_State_ledgerStart {s0 : State} {s1} (h1 : Keeps s0 s1) : Keeps s0 (State.ledgerStart s1) := by
  unfold State.ledgerStart
  extract_lets -underBinder -merge -useContext +onlyGivenNames x0
  extract_lets -underBinder -merge -useContext +onlyGivenNames x1
  extract_lets -underBinder -merge -useContext +onlyGivenNames x2
  extract_lets -underBinder -merge -useContext +onlyGivenNames x3
  extract_lets -underBinder -merge -useContext +onlyGivenNames x4
  exact Keeps.same h1

theorem keeps_doArm {s0 : State} {s1} (h1 : Keeps s0 s1) : Keeps s0 (doArm s1) := by
  unfold doArm
  exact Keeps.ite (keeps_State_ok (keeps_State_offerVault (Keeps.same h1))) (keeps_State_ok h1)

theorem keeps_doClose {s0 : State} {s1} (h1 : Keeps s0 s1) : Keeps s0 (doClose s1) := by
  unfold doClose
  exact Keeps.ite (keeps_State_ok (keeps_State_seal h1)) (keeps_State_ok h1)

theorem keeps_doTrigger {s0 : State} {s1} (h1 : Keeps s0 s1) : Keeps s0 (doTrigger s1) := by
  unfold doTrigger
  refine keeps_State_ok ?_
  · refine keeps_triggerWith ?_ ?_
    · intro y0 y1 hy0
      exact keeps_State_raise hy0
    · exact h1

theorem keeps_doFlush {s0 : State} {s1} (h1 : Keeps s0 s1) : Keeps s0 (doFlush s1) := by
  unfold doFlush
  exact keeps_State_ok (keeps_State_flushCurrent h1)

theorem keeps_doLgrCtrl {s0 : State} {s1 a2} (h1 : Keeps s0 s1) : Keeps s0 (doLgrCtrl s1 a2) := by
  unfold doLgrCtrl
  extract_lets -underBinder -merge -useContext +onlyGivenNames x0
  extract_lets -underBinder -merge -useContext +onlyGivenNames x1
  have hx1 : Keeps s0 x1 := (keeps_State_setF h1)
  clear_value x1
  extract_lets -underBinder -merge -useContext +onlyGivenNames x2
  have hx2 : Keeps s0 x2 := (Keeps.ite (keeps_doArm hx1) hx1)
  clear_value x2
  extract_lets -underBinder -merge -useContext +onlyGivenNames x3
  have hx3 : Keeps s0 x3 := (Keeps.ite (keeps_doClose hx2) hx2)
  clear_value x3
  extract_lets -underBinder -merge -useContext +onlyGivenNames x4
  have hx4 : Keeps s0 x4 := (Keeps.ite (keeps_doTrigger hx3) hx3)
  clear_value x4
  exact keeps_State_ok (Keeps.ite (keeps_doFlush hx4) hx4)

theorem keeps_doLgrNonce {s0 : State} {s1} (h1 : Keeps s0 s1) : Keeps s0 (doLgrNonce s1) := by
  unfold doLgrNonce
  extract_lets -underBinder -merge -useContext +onlyGivenNames x0
  extract_lets -underBinder -merge -useContext +onlyGivenNames x1
  have hx1 : Keeps s0 x1 := (keeps_State_draw h1)
  clear_value x1
  extract_lets -underBinder -merge -useContext +onlyGivenNames x2 x3
  have hx3 : Keeps s0 x3 := (Keeps.same hx1)
  clear_value x3
  exact keeps_State_ansW (keeps_State_setPair hx3)

theorem keeps_doRelease {s0 : State} {s1} (h1 : Keeps s0 s1) : Keeps s0 (doRelease s1) := by
  unfold doRelease
  extract_lets -underBinder -merge -useContext +onlyGivenNames x0
  extract_lets -underBinder -merge -useContext +onlyGivenNames x1
  extract_lets -underBinder -merge -useContext +onlyGivenNames x2 x3
  have hx3 : Keeps s0 x3 := (keeps_State_setF (Keeps.same h1))
  clear_value x3
  refine Keeps.ite ?_ ?_
  · extract_lets -underBinder -merge -useContext +onlyGivenNames x4
    extract_lets -underBinder -merge -useContext +onlyGivenNames x5
    have hx5 : Keeps s0 x5 := (keeps_State_offer hx3)
    clear_value x5
    extract_lets -underBinder -merge -useContext +onlyGivenNames x6 x7
    have hx7 : Keeps s0 x7 := (Keeps.same hx5)
    clear_value x7
    exact keeps_State_ok (keeps_State_raise (keeps_State_offerVault (keeps_State_vaultErase hx7)))
  · exact keeps_State_ok hx3

theorem keeps_doXtrGo {s0 : State} {s1 a2} (h1 : Keeps s0 s1) : Keeps s0 (doXtrGo s1 a2) := by
  unfold doXtrGo
  extract_lets -underBinder -merge -useContext +onlyGivenNames x0
  have hx0 : Keeps s0 x0 := (keeps_State_setF (keeps_State_setF h1))
  clear_value x0
  exact Keeps.ite (keeps_State_ok hx0) (keeps_State_ok (keeps_State_setF (Keeps.same hx0)))

theorem keeps_State_storeDram {s0 : State} {s1 a2 a3} (h1 : Keeps s0 s1) : Keeps s0 (State.storeDram s1 a2 a3) := by
  unfold State.storeDram
  exact Keeps.ite (keeps_State_store h1) h1

theorem keeps_State_xtrEnd {s0 : State} {s1 a2} (h1 : Keeps s0 s1) : Keeps s0 (State.xtrEnd s1 a2) := by
  unfold State.xtrEnd
  refine Keeps.ite ?_ ?_
  · extract_lets -underBinder -merge -useContext +onlyGivenNames x0
    extract_lets -underBinder -merge -useContext +onlyGivenNames x1
    have hx1 : Keeps s0 x1 := (keeps_State_storeDram h1)
    clear_value x1
    revert x1
    refine id ?_
    intro x1 hx1
    extract_lets -underBinder -merge -useContext +onlyGivenNames x2
    have hx2 : Keeps s0 x2 := (keeps_State_setF (keeps_State_setPair hx1))
    clear_value x2
    revert x2
    refine id ?_
    intro x2 hx2
    extract_lets -underBinder -merge -useContext +onlyGivenNames x3 x4
    have hx4 : Keeps s0 x4 := (keeps_State_setF (Keeps.same hx2))
    clear_value x4
    revert x4
    refine id ?_
    intro x4 hx4
    extract_lets -underBinder -merge -useContext +onlyGivenNames x5
    have hx5 : Keeps s0 x5 := (Keeps.ite (keeps_State_setF hx4) hx4)
    clear_value x5
    revert x5
    refine id ?_
    intro x5 hx5
    exact keeps_State_raise (keeps_State_setF hx5)
  · exact h1

theorem keeps_execLedgerStage {s0 : State} {s1} (h1 : Keeps s0 s1) : KeepsOut s0 (execLedgerStage s1) := by
  unfold execLedgerStage
  refine KeepsOut.live ?_ ?_
  · exact h1
  · exact keeps_State_stageNext h1

theorem keeps_execLgrSwCommit {s0 : State} {a1 a2 s3} (h3 : Keeps s0 s3) : KeepsOut s0 (execLgrSwCommit a1 a2 s3) := by
  unfold execLgrSwCommit
  refine KeepsOut.live ?_ ?_
  · exact h3
  · exact keeps_doSwCommit h3

theorem keeps_execFlush {s0 : State} {s1} (h1 : Keeps s0 s1) : KeepsOut s0 (execFlush s1) := by
  unfold execFlush
  refine KeepsOut.live ?_ ?_
  · exact h1
  · exact keeps_doFlush h1

theorem keeps_execFlushMsExpiry {s0 : State} {s1} (h1 : Keeps s0 s1) : KeepsOut s0 (execFlushMsExpiry s1) := by
  unfold execFlushMsExpiry
  refine KeepsOut.live ?_ ?_
  · exact h1
  · split
    · exact h1
    · exact keeps_State_handUnit h1

theorem keeps_execLedgerUnitWritten {s0 : State} {a1 s2} (h2 : Keeps s0 s2) : KeepsOut s0 (execLedgerUnitWritten a1 s2) := by
  unfold execLedgerUnitWritten
  refine KeepsOut.liveIf ?_ ?_
  · exact h2
  · exact keeps_State_unitWritten h2

theorem keeps_execArm {s0 : State} {s1} (h1 : Keeps s0 s1) : KeepsOut s0 (execArm s1) := by
  unfold execArm
  refine KeepsOut.live ?_ ?_
  · exact h1
  · exact keeps_doArm h1

theorem keeps_execClose {s0 : State} {s1} (h1 : Keeps s0 s1) : KeepsOut s0 (execClose s1) := by
  unfold execClose
  refine KeepsOut.live ?_ ?_
  · exact h1
  · exact keeps_doClose h1

theorem keeps_execTrigger {s0 : State} {s1} (h1 : Keeps s0 s1) : KeepsOut s0 (execTrigger s1) := by
  unfold execTrigger
  refine KeepsOut.live ?_ ?_
  · exact h1
  · exact keeps_doTrigger h1

theorem keeps_execLgrNonceDraw {s0 : State} {s1} (h1 : Keeps s0 s1) : KeepsOut s0 (execLgrNonceDraw s1) := by
  unfold execLgrNonceDraw
  refine KeepsOut.live ?_ ?_
  · exact h1
  · exact keeps_doLgrNonce h1

theorem keeps_execVaultRelease {s0 : State} {s1} (h1 : Keeps s0 s1) : KeepsOut s0 (execVaultRelease s1) := by
  unfold execVaultRelease
  refine KeepsOut.live ?_ ?_
  · exact h1
  · exact keeps_doRelease h1

theorem keeps_execXtrGo {s0 : State} {a1 s2} (h2 : Keeps s0 s2) : KeepsOut s0 (execXtrGo a1 s2) := by
  unfold execXtrGo
  refine KeepsOut.live ?_ ?_
  · exact h2
  · exact keeps_doXtrGo h2

theorem keeps_execXtrDone {s0 : State} {a1 s2} (h2 : Keeps s0 s2) : KeepsOut s0 (execXtrDone a1 s2) := by
  unfold execXtrDone
  refine KeepsOut.live ?_ ?_
  · exact h2
  · exact keeps_State_xtrEnd h2

theorem keeps_State_violation {s0 : State} {s1 a2 a3 a4 a5} (h1 : Keeps s0 s1) : Keeps s0 (State.violation s1 a2 a3 a4 a5) := by
  unfold State.violation
  extract_lets -underBinder -merge -useContext +onlyGivenNames x0
  have hx0 : Keeps s0 x0 := (keeps_State_stick h1)
  clear_value x0
  extract_lets -underBinder -merge -useContext +onlyGivenNames x1
  have hx1 : Keeps s0 x1 := (Keeps.ite hx0 (keeps_State_setF (keeps_State_setF (keeps_State_setF (keeps_State_setF (keeps_State_setF hx0))))))
  clear_value x1
  exact keeps_State_raise hx1

theorem keeps_doFwlArm {s0 : State} {s1 a2} (h1 : Keeps s0 s1) : Keeps s0 (doFwlArm s1 a2) := by
  unfold doFwlArm
  exact Keeps.ite (keeps_State_ok h1) (Keeps.ite (keeps_State_ok (keeps_State_setF (keeps_State_setReg h1))) (keeps_State_ok (keeps_State_raise (keeps_State_setF h1))))

theorem keeps_doRuleSelect {s0 : State} {s1 a2} (h1 : Keeps s0 s1) : Keeps s0 (doRuleSelect s1 a2) := by
  unfold doRuleSelect
  exact keeps_State_ok (keeps_forUp (fun _ _ hx0 => (keeps_State_setReg hx0)) (keeps_State_setF h1))

theorem keeps_doRuleCommit {s0 : State} {s1} (h1 : Keeps s0 s1) : Keeps s0 (doRuleCommit s1) := by
  unfold doRuleCommit
  extract_lets -underBinder -merge -useContext +onlyGivenNames x0
  extract_lets -underBinder -merge -useContext +onlyGivenNames x1
  extract_lets -underBinder -merge -useContext +onlyGivenNames x2
  refine Keeps.ite ?_ ?_
  · exact keeps_State_ok (keeps_State_setF h1)
  · extract_lets -underBinder -merge -useContext +onlyGivenNames x3
    extract_lets -underBinder -merge -useContext +onlyGivenNames x4
    exact keeps_State_ok (Keeps.same h1)

theorem keeps_doLcNonce {s0 : State} {s1} (h1 : Keeps s0 s1) : Keeps s0 (doLcNonce s1) := by
  unfold doLcNonce
  extract_lets -underBinder -merge -useContext +onlyGivenNames x0
  extract_lets -underBinder -merge -useContext +onlyGivenNames x1 x2 x3
  have hx1 : Keeps s0 x1 := (keeps_State_draw h1)
  clear_value x1
  have hx3 : Keeps s0 x3 := (Keeps.same hx1)
  clear_value x3
  exact keeps_State_ansW (keeps_State_setPair hx3)

theorem keeps_State_setDebug {s0 : State} {s1 a2 a3} (h1 : Keeps s0 s1) : Keeps s0 (State.setDebug s1 a2 a3) := by
  unfold State.setDebug
  extract_lets -underBinder -merge -useContext +onlyGivenNames x0
  extract_lets -underBinder -merge -useContext +onlyGivenNames x1
  have hx1 : Keeps s0 x1 := (keeps_State_setF (keeps_State_setF h1))
  clear_value x1
  exact Keeps.ite (keeps_State_raise hx1) hx1

theorem keeps_State_lcPerform {s0 : State} {s1 a2 a3} (h1 : Keeps s0 s1) : Keeps s0 (State.lcPerform s1 a2 a3) := by
  unfold State.lcPerform
  extract_lets -underBinder -merge -useContext +onlyGivenNames x0
  refine Keeps.ite ?_ ?_
  · extract_lets -underBinder -merge -useContext +onlyGivenNames x1 x2
    extract_lets -underBinder -merge -useContext +onlyGivenNames x3
    extract_lets -underBinder -merge -useContext +onlyGivenNames x4
    exact keeps_State_setF (keeps_State_setF (Keeps.same h1))
  · exact Keeps.ite (keeps_State_setDebug h1) (Keeps.ite (keeps_State_setDebug h1) (Keeps.ite (Keeps.same h1) (Keeps.ite (Keeps.same h1) h1)))

theorem keeps_doLcReq {s0 : State} {s1 a2 a3 a4} (h1 : Keeps s0 s1) : Keeps s0 (doLcReq s1 a2 a3 a4) := by
  unfold doLcReq
  extract_lets -underBinder -merge -useContext +onlyGivenNames x0
  extract_lets -underBinder -merge -useContext +onlyGivenNames x1
  extract_lets -underBinder -merge -useContext +onlyGivenNames x2
  extract_lets -underBinder -merge -useContext +onlyGivenNames x3
  have hx3 : Keeps s0 x3 := (keeps_State_setF (keeps_State_setF h1))
  clear_value x3
  extract_lets -underBinder -merge -useContext +onlyGivenNames x4
  have hx4 : Keeps s0 x4 := (Keeps.ite (keeps_State_lcPerform hx3) hx3)
  clear_value x4
  extract_lets -underBinder -merge -useContext +onlyGivenNames x5 x6
  have hx6 : Keeps s0 x6 := (Keeps.same hx4)
  clear_value x6
  exact keeps_State_ok (keeps_State_raise (keeps_State_setF (keeps_State_setF hx6)))

theorem keeps_doTmxSel {s0 : State} {s1 a2 a3} (h1 : Keeps s0 s1) : Keeps s0 (doTmxSel s1 a2 a3) := by
  unfold doTmxSel
  refine Keeps.ite ?_ ?_
  · exact keeps_State_ok h1
  · extract_lets -underBinder -merge -useContext +onlyGivenNames x0
    extract_lets -underBinder -merge -useContext +onlyGivenNames x1
    have hx1 : Keeps s0 x1 := (keeps_State_setF (keeps_State_setF h1))
    clear_value x1
    exact keeps_State_ok (keeps_State_setF hx1)

theorem keeps_State_setIr {s0 : State} {s1 a2} (h1 : Keeps s0 s1) : Keeps s0 (State.setIr s1 a2) := by
  unfold State.setIr
  exact Keeps.same h1

theorem keeps_execFwlArm {s0 : State} {a1 s2} (h2 : Keeps s0 s2) : KeepsOut s0 (execFwlArm a1 s2) := by
  unfold execFwlArm
  refine KeepsOut.live ?_ ?_
  · exact h2
  · exact keeps_doFwlArm h2

theorem keeps_execRuleSelect {s0 : State} {a1 s2} (h2 : Keeps s0 s2) : KeepsOut s0 (execRuleSelect a1 s2) := by
  unfold execRuleSelect
  refine KeepsOut.live ?_ ?_
  · exact h2
  · exact keeps_doRuleSelect h2

theorem keeps_execRuleCommit {s0 : State} {s1} (h1 : Keeps s0 s1) : KeepsOut s0 (execRuleCommit s1) := by
  unfold execRuleCommit
  refine KeepsOut.live ?_ ?_
  · exact h1
  · exact keeps_doRuleCommit h1

theorem keeps_execLcNonceDraw {s0 : State} {s1} (h1 : Keeps s0 s1) : KeepsOut s0 (execLcNonceDraw s1) := by
  unfold execLcNonceDraw
  refine KeepsOut.live ?_ ?_
  · exact h1
  · exact keeps_doLcNonce h1

theorem keeps_execLcTransition {s0 : State} {a1 a2 s3} (h3 : Keeps s0 s3) : KeepsOut s0 (execLcTransition a1 a2 s3) := by
  unfold execLcTransition
  refine KeepsOut.live ?_ ?_
  · exact h3
  · exact keeps_doLcReq h3

theorem keeps_execLcOpenDebug {s0 : State} {a1 s2} (h2 : Keeps s0 s2) : KeepsOut s0 (execLcOpenDebug a1 s2) := by
  unfold execLcOpenDebug
  refine KeepsOut.live ?_ ?_
  · exact h2
  · exact keeps_doLcReq h2

theorem keeps_execLcCloseDebug {s0 : State} {a1 s2} (h2 : Keeps s0 s2) : KeepsOut s0 (execLcCloseDebug a1 s2) := by
  unfold execLcCloseDebug
  refine KeepsOut.live ?_ ?_
  · exact h2
  · exact keeps_doLcReq h2

theorem keeps_execLcProgramKey {s0 : State} {a1 a2 s3} (h3 : Keeps s0 s3) : KeepsOut s0 (execLcProgramKey a1 a2 s3) := by
  unfold execLcProgramKey
  refine KeepsOut.live ?_ ?_
  · exact h3
  · exact keeps_doLcReq h3

theorem keeps_execLcProgramSecret {s0 : State} {a1 a2 s3} (h3 : Keeps s0 s3) : KeepsOut s0 (execLcProgramSecret a1 a2 s3) := by
  unfold execLcProgramSecret
  refine KeepsOut.live ?_ ?_
  · exact h3
  · exact keeps_doLcReq h3

theorem keeps_execTmxSelect {s0 : State} {a1 a2 s3} (h3 : Keeps s0 s3) : KeepsOut s0 (execTmxSelect a1 a2 s3) := by
  unfold execTmxSelect
  refine KeepsOut.liveIf ?_ ?_
  · exact h3
  · exact keeps_doTmxSel h3

theorem keeps_execTapBypass {s0 : State} {s1} (h1 : Keeps s0 s1) : KeepsOut s0 (execTapBypass s1) := by
  unfold execTapBypass
  refine KeepsOut.live ?_ ?_
  · exact h1
  · exact Keeps.same h1

theorem keeps_execTapIdcode {s0 : State} {s1} (h1 : Keeps s0 s1) : KeepsOut s0 (execTapIdcode s1) := by
  unfold execTapIdcode
  refine KeepsOut.live ?_ ?_
  · exact h1
  · exact Keeps.same h1

theorem keeps_execTapSamplePreload {s0 : State} {a1 a2 s3} (h3 : Keeps s0 s3) : KeepsOut s0 (execTapSamplePreload a1 a2 s3) := by
  unfold execTapSamplePreload
  refine KeepsOut.live ?_ ?_
  · exact h3
  · exact Keeps.same h3

theorem keeps_execTapExtest {s0 : State} {a1 a2 s3} (h3 : Keeps s0 s3) : KeepsOut s0 (execTapExtest a1 a2 s3) := by
  unfold execTapExtest
  refine KeepsOut.live ?_ ?_
  · exact h3
  · exact Keeps.same h3

theorem keeps_execTapClamp {s0 : State} {s1} (h1 : Keeps s0 s1) : KeepsOut s0 (execTapClamp s1) := by
  unfold execTapClamp
  refine KeepsOut.live ?_ ?_
  · exact h1
  · exact Keeps.same h1

theorem keeps_execTapHighz {s0 : State} {s1} (h1 : Keeps s0 s1) : KeepsOut s0 (execTapHighz s1) := by
  unfold execTapHighz
  refine KeepsOut.live ?_ ?_
  · exact h1
  · exact Keeps.same h1

theorem keeps_State_marchEnd {s0 : State} {s1 a2 a3} (h1 : Keeps s0 s1) : Keeps s0 (State.marchEnd s1 a2 a3) := by
  unfold State.marchEnd
  extract_lets -underBinder -merge -useContext +onlyGivenNames x0 x1
  have hx1 : Keeps s0 x1 := (Keeps.same h1)
  clear_value x1
  exact keeps_State_raise (keeps_State_setF (keeps_State_setF (keeps_State_setF hx1)))

theorem keeps_State_passDeed {s0 : State} {s1 a2 a3} (h1 : Keeps s0 s1) : Keeps s0 (State.passDeed s1 a2 a3) := by
  unfold State.passDeed
  extract_lets -underBinder -merge -useContext +onlyGivenNames x0 x1
  have hx1 : Keeps s0 x1 := (Keeps.ite h1 (Keeps.same h1))
  clear_value x1
  extract_lets -underBinder -merge -useContext +onlyGivenNames x2
  have hx2 : Keeps s0 x2 := (keeps_State_wrap (keeps_State_setF hx1))
  clear_value x2
  exact Keeps.ite (keeps_State_scramble (keeps_State_marchEnd hx2)) hx2

theorem keeps_State_upset {s0 : State} {s1 a2} (h1 : Keeps s0 s1) : Keeps s0 (State.upset s1 a2) :=
  ⟨h1.1, fun i => { h1.2 i with mem := (h1.2 i).mem, ecc := spSet_wf _ _ _ (h1.2 i).ecc }⟩

theorem keeps_State_countCe {s0 : State} {s1 a2} (h1 : Keeps s0 s1) : Keeps s0 (State.countCe s1 a2) := by
  unfold State.countCe
  refine Keeps.ite ?_ ?_
  · extract_lets -underBinder -merge -useContext +onlyGivenNames x0
    have hx0 : Keeps s0 x0 := (keeps_State_stick h1)
    clear_value x0
    exact Keeps.ite hx0 (keeps_State_raise (Keeps.same hx0))
  · refine Keeps.ite ?_ ?_
    · extract_lets -underBinder -merge -useContext +onlyGivenNames x1
      have hx1 : Keeps s0 x1 := (keeps_State_stick h1)
      clear_value x1
      exact Keeps.ite hx1 (keeps_State_raise (Keeps.same hx1))
    · exact h1

theorem keeps_State_countUe {s0 : State} {s1 a2 a3} (h1 : Keeps s0 s1) : Keeps s0 (State.countUe s1 a2 a3) := by
  unfold State.countUe
  extract_lets -underBinder -merge -useContext +onlyGivenNames x0 x1
  have hx1 : Keeps s0 x1 := (Keeps.ite (Keeps.same h1) h1)
  clear_value x1
  refine Keeps.ite ?_ ?_
  · extract_lets -underBinder -merge -useContext +onlyGivenNames x2
    have hx2 : Keeps s0 x2 := (keeps_State_stick hx1)
    clear_value x2
    extract_lets -underBinder -merge -useContext +onlyGivenNames x3
    exact keeps_State_raise (keeps_State_setF (keeps_State_setF (keeps_State_setF hx2)))
  · refine Keeps.ite ?_ ?_
    · extract_lets -underBinder -merge -useContext +onlyGivenNames x4
      extract_lets -underBinder -merge -useContext +onlyGivenNames x5
      have hx5 : Keeps s0 x5 := (keeps_State_stick hx1)
      clear_value x5
      extract_lets -underBinder -merge -useContext +onlyGivenNames x6
      exact keeps_State_raise (keeps_State_setF (keeps_State_setF (keeps_State_setF (keeps_State_setF hx5))))
    · exact hx1

theorem keeps_State_scrub {s0 : State} {s1 a2} (h1 : Keeps s0 s1) : Keeps s0 (State.scrub s1 a2) := by
  unfold State.scrub
  exact Keeps.ite (keeps_State_countCe h1) (Keeps.ite (keeps_State_countUe h1) h1)

theorem keeps_State_writeBack {s0 : State} {s1 a2} (h1 : Keeps s0 s1) : Keeps s0 (State.writeBack s1 a2) := by
  unfold State.writeBack
  split
  · exact keeps_State_touch ⟨h1.1, fun i => { h1.2 i with mem := (h1.2 i).mem, ecc := spErase_wf _ _ (h1.2 i).ecc }⟩
  · exact h1

theorem keeps_State_markFailed {s0 : State} {s1 a2 a3 a4} (h1 : Keeps s0 s1) : Keeps s0 (State.markFailed s1 a2 a3 a4) := by
  unfold State.markFailed
  exact Keeps.ite (keeps_State_setF h1) (Keeps.ite (Keeps.same h1) (Keeps.ite (keeps_State_setF h1) (keeps_State_setF h1)))

theorem keeps_doMarch {s0 : State} {s1 a2} (h1 : Keeps s0 s1) : Keeps s0 (doMarch s1 a2) := by
  unfold doMarch
  extract_lets -underBinder -merge -useContext +onlyGivenNames x0
  extract_lets -underBinder -merge -useContext +onlyGivenNames x1
  extract_lets -underBinder -merge -useContext +onlyGivenNames x2
  extract_lets -underBinder -merge -useContext +onlyGivenNames x3
  extract_lets -underBinder -merge -useContext +onlyGivenNames x4
  have hx4 : Keeps s0 x4 := (keeps_State_setF (keeps_State_setF (keeps_State_setF h1)))
  clear_value x4
  extract_lets -underBinder -merge -useContext +onlyGivenNames x5
  refine Keeps.ite ?_ ?_
  · exact keeps_State_ok (keeps_State_setF hx4)
  · extract_lets -underBinder -merge -useContext +onlyGivenNames x6 x7
    have hx7 : Keeps s0 x7 := (Keeps.same hx4)
    clear_value x7
    exact keeps_State_ok (keeps_State_setF (keeps_State_setF hx7))

theorem keeps_State_marchDone {s0 : State} {s1 a2 a3 a4} (h1 : Keeps s0 s1) : Keeps s0 (State.marchDone s1 a2 a3 a4) := by
  unfold State.marchDone
  split
  · exact h1
  · split
    · extract_lets -underBinder -merge -useContext +onlyGivenNames x0
      have hx0 : Keeps s0 x0 := (keeps_State_wrap h1)
      clear_value x0
      extract_lets -underBinder -merge -useContext +onlyGivenNames x1
      have hx1 : Keeps s0 x1 := by
        unfold x1
        split
        · extract_lets -underBinder -merge -useContext +onlyGivenNames x2
          have hx2 : Keeps s0 x2 := (keeps_State_markFailed hx0)
          clear_value x2
          exact Keeps.ite (keeps_State_touch hx2) (keeps_State_touch (keeps_State_clearMem hx2))
        · extract_lets -underBinder -merge -useContext +onlyGivenNames x3
          have hx3 : Keeps s0 x3 := (keeps_State_setF (keeps_State_setF (keeps_State_setF hx0)))
          clear_value x3
          extract_lets -underBinder -merge -useContext +onlyGivenNames x4
          have hx4 : Keeps s0 x4 := (Keeps.ite (keeps_State_touch hx3) (keeps_State_scramble (keeps_State_markFailed hx3)))
          clear_value x4
          exact keeps_State_raise hx4
      clear_value x1
      extract_lets -underBinder -merge -useContext +onlyGivenNames x5
      have hx5 : Keeps s0 x5 := (keeps_State_marchEnd hx1)
      clear_value x5
      exact Keeps.ite (keeps_State_passDeed hx5) hx5

theorem keeps_execArbitrationPromote {s0 : State} {s1} (h1 : Keeps s0 s1) : KeepsOut s0 (execArbitrationPromote s1) := by
  unfold execArbitrationPromote
  refine KeepsOut.live ?_ ?_
  · exact h1
  · exact keeps_State_stick h1

theorem keeps_execEccWriteback {s0 : State} {a1 s2} (h2 : Keeps s0 s2) : KeepsOut s0 (execEccWriteback a1 s2) := by
  unfold execEccWriteback
  refine KeepsOut.live ?_ ?_
  · exact h2
  · exact keeps_State_writeBack h2

theorem keeps_execScrubStep {s0 : State} {a1 a2 s3} (h3 : Keeps s0 s3) : KeepsOut s0 (execScrubStep a1 a2 s3) := by
  unfold execScrubStep
  refine KeepsOut.liveIf ?_ ?_
  · exact h3
  · exact keeps_State_scrub (Keeps.foldl (fun _ _ hx0 => (keeps_State_upset hx0)) h3)

theorem keeps_execMarchGo {s0 : State} {a1 s2} (h2 : Keeps s0 s2) : KeepsOut s0 (execMarchGo a1 s2) := by
  unfold execMarchGo
  refine KeepsOut.live ?_ ?_
  · exact h2
  · exact keeps_doMarch h2

theorem keeps_execMarchPreserveGo {s0 : State} {a1 s2} (h2 : Keeps s0 s2) : KeepsOut s0 (execMarchPreserveGo a1 s2) := by
  unfold execMarchPreserveGo
  refine KeepsOut.live ?_ ?_
  · exact h2
  · exact keeps_doMarch h2

theorem keeps_execDramPatrol {s0 : State} {a1 a2 s3} (h3 : Keeps s0 s3) : KeepsOut s0 (execDramPatrol a1 a2 s3) := by
  unfold execDramPatrol
  refine KeepsOut.liveIf ?_ ?_
  · exact h3
  · exact keeps_State_scrub (Keeps.foldl (fun _ _ hx0 => (keeps_State_upset hx0)) h3)

theorem keeps_execTempHigh {s0 : State} {a1 a2 s3} (h3 : Keeps s0 s3) : KeepsOut s0 (execTempHigh a1 a2 s3) := by
  unfold execTempHigh
  extract_lets -underBinder -merge -useContext +onlyGivenNames x0
  have hx0 : Keeps s0 x0 := (keeps_State_setF h3)
  clear_value x0
  refine KeepsOut.live ?_ ?_
  · exact h3
  · exact Keeps.ite (keeps_State_raise hx0) hx0

end Sys2Proof.Laws
end

