-- ==== Sys2Proof/Laws/KeepFront.lean ====
section
/-! SUPPORT. The operations and meanings of Machine/Port, Intake, Vote, Assembler, TimeBlock, Gnss keep the command queue and the invariant: one lemma
each. -/

namespace Sys2Proof.Laws

open Sys2Proof.Machine

theorem keeps_State_countRetired {s0 : State} {s1 a2 a3} (h1 : Keeps s0 s1) : Keeps s0 (State.countRetired s1 a2 a3) := by
  unfold State.countRetired
  extract_lets -underBinder -merge -useContext +onlyGivenNames x0
  exact Keeps.same h1

theorem keeps_State_refuse {s0 : State} {s1 a2 a3 a4 a5} (h1 : Keeps s0 s1) : Keeps s0 (State.refuse s1 a2 a3 a4 a5).st := by
  unfold State.refuse
  refine Keeps.reply ?_
  exact keeps_State_offerFabric h1

theorem keeps_State_gate {s0 : State} {s1 a2 a3 a4 a5 r} (h1 : Keeps s0 s1) (hr : State.gate s1 a2 a3 a4 a5 = some r) :
    Keeps s0 r.st := by
  unfold State.gate at hr
  split at hr
  · exact Option.some.inj hr ▸ keeps_State_refuse h1
  · split at hr
    · exact Option.some.inj hr ▸ keeps_State_refuse (keeps_State_violation h1)
    · split at hr
      · exact Option.some.inj hr ▸ keeps_State_refuse h1
      · split at hr
        · exact Option.some.inj hr ▸ keeps_State_refuse h1
        · split at hr
          · exact Option.some.inj hr ▸ keeps_State_refuse (keeps_State_raise h1)
          · exact absurd hr (by simp)

theorem keeps_State_memReq {s0 : State} {s1 a2 a3 a4 a5 a6 a7} (h1 : Keeps s0 s1) :
    Keeps s0 (State.memReq s1 a2 a3 a4 a5 a6 a7).st := by
  unfold State.memReq
  split
  · rename_i hr
    exact keeps_State_gate h1 hr
  · split
    · exact keeps_State_countRetired h1
    · split
      · exact keeps_State_refuse h1
      · extract_lets hs x
        split
        · refine keeps_State_refuse (Keeps.ite h1 (keeps_State_countUe h1))
        · have hx : Keeps s0 x := Keeps.foldl (fun t n ht => keeps_State_countCe ht) h1
          clear_value x
          split
          · exact keeps_State_store hx
          · exact hx

theorem keeps_State_mRead {s0 : State} {s1 a2 a3 a4} (h1 : Keeps s0 s1) : Keeps s0 (State.mRead s1 a2 a3 a4).st := by
  unfold State.mRead
  refine keeps_State_memReq ?_
  · exact h1

theorem keeps_State_mWrite {s0 : State} {s1 a2 a3 a4} (h1 : Keeps s0 s1) : Keeps s0 (State.mWrite s1 a2 a3 a4).st := by
  unfold State.mWrite
  refine keeps_State_memReq ?_
  · exact h1

theorem keeps_State_framePass {s0 : State} {s1 a2 a3 a4} (h1 : Keeps s0 s1) : Keeps s0 (State.framePass s1 a2 a3 a4) := by
  unfold State.framePass
  exact Keeps.ite (keeps_State_passDeed h1) h1

theorem keeps_State_noteLive {s0 : State} {s1 a2} (h1 : Keeps s0 s1) : Keeps s0 (State.noteLive s1 a2) := by
  unfold State.noteLive
  exact Keeps.ite (Keeps.same h1) h1

theorem keeps_State_noteSrc {s0 : State} {s1 a2 a3 a4} (h1 : Keeps s0 s1) : Keeps s0 (State.noteSrc s1 a2 a3 a4) := by
  unfold State.noteSrc
  exact Keeps.ite (keeps_State_noteLive h1) h1

theorem keeps_State_setFus {s0 : State} {s1 a2 a3} (h1 : Keeps s0 s1) : Keeps s0 (State.setFus s1 a2 a3) := by
  unfold State.setFus
  exact Keeps.same h1

theorem keeps_State_setFusQ {s0 : State} {s1 a2 a3} (h1 : Keeps s0 s1) : Keeps s0 (State.setFusQ s1 a2 a3) := by
  unfold State.setFusQ
  exact keeps_State_setF (keeps_State_setFus h1)

theorem keeps_State_fusBad {s0 : State} {s1 a2 a3} (h1 : Keeps s0 s1) : Keeps s0 (State.fusBad s1 a2 a3) := by
  unfold State.fusBad
  exact keeps_State_raise (keeps_State_setF (keeps_State_stick h1))

theorem keeps_State_fusDrop {s0 : State} {s1 a2 a3} (h1 : Keeps s0 s1) : Keeps s0 (State.fusDrop s1 a2 a3) := by
  unfold State.fusDrop
  exact keeps_State_stick h1

theorem keeps_State_fusQueue {s0 : State} {s1 a2 a3 a4 a5} (h1 : Keeps s0 s1) : Keeps s0 (State.fusQueue s1 a2 a3 a4 a5) := by
  unfold State.fusQueue
  extract_lets -underBinder -merge -useContext +onlyGivenNames x0
  refine Keeps.ite ?_ ?_
  · exact keeps_State_raise (keeps_State_fusDrop h1)
  · extract_lets -underBinder -merge -useContext +onlyGivenNames x1
    exact keeps_State_setFusQ h1

theorem keeps_State_fusDeposit {s0 : State} {s1 a2 a3} (h1 : Keeps s0 s1) : Keeps s0 (State.fusDeposit s1 a2 a3) := by
  unfold State.fusDeposit
  extract_lets -underBinder -merge -useContext +onlyGivenNames x0
  refine Keeps.ite ?_ ?_
  · exact keeps_State_fusBad h1
  · refine Keeps.ite ?_ ?_
    · exact keeps_State_setF (keeps_State_setFus h1)
    · extract_lets -underBinder -merge -useContext +onlyGivenNames x1
      exact Keeps.ite (keeps_State_fusBad h1) (keeps_State_fusQueue h1)

theorem keeps_State_fusDma {s0 : State} {s1 a2 a3} (h1 : Keeps s0 s1) : Keeps s0 (State.fusDma s1 a2 a3) := by
  unfold State.fusDma
  extract_lets -underBinder -merge -useContext +onlyGivenNames x0
  have hx0 : Keeps s0 x0 := (Keeps.foldl (fun _ _ hx1 => (keeps_State_fusDeposit hx1)) h1)
  clear_value x0
  exact Keeps.ite hx0 (keeps_State_fusBad hx0)

theorem keeps_doDepWrite {s0 : State} {s1 a2 a3 a4 a5} (h1 : Keeps s0 s1) : Keeps s0 (doDepWrite s1 a2 a3 a4 a5) := by
  unfold doDepWrite
  exact keeps_State_ok (Keeps.ite (keeps_State_setReg h1) (keeps_State_setF h1))

theorem keeps_doDepCommit {s0 : State} {s1 a2 a3} (h1 : Keeps s0 s1) : Keeps s0 (doDepCommit s1 a2 a3) := by
  unfold doDepCommit
  exact keeps_State_ok (Keeps.ite (keeps_State_fusDeposit h1) (keeps_State_setF h1))

theorem keeps_doScanCopied {s0 : State} {s1 a2} (h1 : Keeps s0 s1) : Keeps s0 (doScanCopied s1 a2) := by
  unfold doScanCopied
  split
  · exact h1
  · extract_lets -underBinder -merge -useContext +onlyGivenNames x0 x1
    have hx1 : Keeps s0 x1 := (keeps_State_setF (keeps_State_setFus h1))
    clear_value x1
    extract_lets -underBinder -merge -useContext +onlyGivenNames x2
    have hx2 : Keeps s0 x2.st := Keeps.replyOf (y := State.mRead _ _ _ _) rfl (keeps_State_mRead hx1)
    clear_value x2
    extract_lets -underBinder -merge -useContext +onlyGivenNames x3
    refine Keeps.ite ?_ ?_
    · refine keeps_State_fusBad ?_
      · exact hx2
    · refine Keeps.ite ?_ ?_
      · refine keeps_State_fusBad ?_
        · exact hx2
      · extract_lets -underBinder -merge -useContext +onlyGivenNames x4
        extract_lets -underBinder -merge -useContext +onlyGivenNames x5
        extract_lets -underBinder -merge -useContext +onlyGivenNames x6
        have hx6 : Keeps s0 x6 := by
          unfold x6
          refine Keeps.ite ?_ ?_
          · refine keeps_State_mWrite ?_
            · exact hx2
          · exact hx2
        clear_value x6
        exact keeps_State_raise (keeps_State_fusQueue hx6)

theorem keeps_State_admitPort {s0 : State} {s1 a2} (h1 : Keeps s0 s1) : Keeps s0 (State.admitPort s1 a2) := by
  unfold State.admitPort
  exact keeps_State_setF (keeps_State_setF (keeps_State_setF h1))

theorem keeps_State_calClear {s0 : State} {s1} (h1 : Keeps s0 s1) : Keeps s0 (State.calClear s1) := by
  unfold State.calClear
  extract_lets -underBinder -merge -useContext +onlyGivenNames x0
  extract_lets -underBinder -merge -useContext +onlyGivenNames x1
  extract_lets -underBinder -merge -useContext +onlyGivenNames x2
  extract_lets -underBinder -merge -useContext +onlyGivenNames x3
  have hx3 : Keeps s0 x3 := by
    unfold x3
    refine Keeps.ite ?_ ?_
    · exact h1
    · refine keeps_State_mWrite ?_
      · exact h1
  clear_value x3
  exact keeps_forUp (fun _ _ hx4 => (keeps_State_setF (keeps_State_setFus hx4))) hx3

theorem keeps_doPortCfg {s0 : State} {s1 a2 a3} (h1 : Keeps s0 s1) : Keeps s0 (doPortCfg s1 a2 a3) := by
  unfold doPortCfg
  refine Keeps.ite ?_ ?_
  · exact keeps_State_ok h1
  · extract_lets -underBinder -merge -useContext +onlyGivenNames x0
    extract_lets -underBinder -merge -useContext +onlyGivenNames x1
    extract_lets -underBinder -merge -useContext +onlyGivenNames x2
    have hx2 : Keeps s0 x2 := (Keeps.ite h1 (keeps_State_calClear h1))
    clear_value x2
    extract_lets -underBinder -merge -useContext +onlyGivenNames x3
    have hx3 : Keeps s0 x3 := (keeps_State_setReg hx2)
    clear_value x3
    extract_lets -underBinder -merge -useContext +onlyGivenNames x4
    have hx4 : Keeps s0 x4 := (Keeps.ite (keeps_State_raise hx3) hx3)
    clear_value x4
    refine keeps_State_ok ?_
    · refine Keeps.ite ?_ ?_
      · exact hx4
      · extract_lets -underBinder -merge -useContext +onlyGivenNames x5
        extract_lets -underBinder -merge -useContext +onlyGivenNames x6
        have hx6 : Keeps s0 x6 := (keeps_State_setFusQ (keeps_State_fusDrop hx4))
        clear_value x6
        exact keeps_State_admitPort (keeps_State_setF (keeps_State_setF hx6))

theorem keeps_doGroupCfg {s0 : State} {s1 a2 a3} (h1 : Keeps s0 s1) : Keeps s0 (doGroupCfg s1 a2 a3) := by
  unfold doGroupCfg
  refine Keeps.ite ?_ ?_
  · exact keeps_State_ok h1
  · extract_lets -underBinder -merge -useContext +onlyGivenNames x0
    have hx0 : Keeps s0 x0 := (keeps_State_setReg h1)
    clear_value x0
    exact keeps_State_ok (Keeps.ite (keeps_forUp (fun _ _ hx1 => (Keeps.ite (keeps_State_admitPort hx1) hx1)) hx0) hx0)

theorem keeps_State_applyDisc {s0 : State} {s1 a2 a3} (h1 : Keeps s0 s1) : Keeps s0 (State.applyDisc s1 a2 a3) := by
  unfold State.applyDisc
  extract_lets -underBinder -merge -useContext +onlyGivenNames x0
  extract_lets -underBinder -merge -useContext +onlyGivenNames x1
  extract_lets -underBinder -merge -useContext +onlyGivenNames x2
  extract_lets -underBinder -merge -useContext +onlyGivenNames x3
  extract_lets -underBinder -merge -useContext +onlyGivenNames x4
  extract_lets -underBinder -merge -useContext +onlyGivenNames x5
  extract_lets -underBinder -merge -useContext +onlyGivenNames x6
  have hx6 : Keeps s0 x6 := (keeps_State_setF (keeps_State_setReg (keeps_State_setFus h1)))
  clear_value x6
  extract_lets -underBinder -merge -useContext +onlyGivenNames x7
  have hx7 : Keeps s0 x7 := (Keeps.ite (keeps_State_raise hx6) hx6)
  clear_value x7
  extract_lets -underBinder -merge -useContext +onlyGivenNames x8
  exact Keeps.ite hx7 (Keeps.ite (Keeps.ite hx7 (keeps_State_setF (keeps_State_setF (keeps_State_setF hx7)))) (Keeps.ite (keeps_State_setF (keeps_State_setF hx7)) hx7))

theorem keeps_latchOne {s0 : State} {a1 a2 a3 a4 a5} (h4 : Keeps s0 a4.1) : Keeps s0 (latchOne a1 a2 a3 a4 a5).1 := by
  unfold latchOne
  split
  · rename_i x1 y2 z4
    have hq0 : Keeps s0 (x1, y2, z4).1 := by
      exact h4
    extract_lets -underBinder -merge -useContext +onlyGivenNames x5
    extract_lets -underBinder -merge -useContext +onlyGivenNames x6
    extract_lets -underBinder -merge -useContext +onlyGivenNames x7
    split
    · extract_lets -underBinder -merge -useContext +onlyGivenNames x8
      have hx8 : Keeps s0 x8 := (Keeps.ite hq0 (keeps_State_stick hq0))
      clear_value x8
      refine Keeps.pair ?_
      exact hx8
    · extract_lets -underBinder -merge -useContext +onlyGivenNames x9
      extract_lets -underBinder -merge -useContext +onlyGivenNames x10
      have hx10 : Keeps s0 x10 := (keeps_State_applyDisc hq0)
      clear_value x10
      extract_lets -underBinder -merge -useContext +onlyGivenNames x11
      refine Keeps.pair ?_
      exact hx10

theorem keeps_State_latchPort {s0 : State} {s1 a2 a3 a4} (h1 : Keeps s0 s1) : Keeps s0 (State.latchPort s1 a2 a3 a4) := by
  unfold State.latchPort
  extract_lets -underBinder -merge -useContext +onlyGivenNames x0
  extract_lets -underBinder -merge -useContext +onlyGivenNames x1
  extract_lets -underBinder -merge -useContext +onlyGivenNames x2
  have hx2 : Keeps s0 x2.1 := by
    unfold x2
    split
    · refine Keeps.foldlPair (fun x3 y4 hx3 => ?_) ?_
      · refine keeps_latchOne ?_
        · exact hx3
      · refine Keeps.pair ?_
        exact h1
    · refine Keeps.foldlPair (fun x5 y6 hx5 => ?_) ?_
      · refine keeps_latchOne ?_
        · exact hx5
      · refine Keeps.pair ?_
        exact h1
  clear_value x2
  extract_lets -underBinder -merge -useContext +onlyGivenNames x7
  have hx7 : Keeps s0 x7 := by
    unfold x7
    exact hx2
  clear_value x7
  extract_lets -underBinder -merge -useContext +onlyGivenNames x8
  extract_lets -underBinder -merge -useContext +onlyGivenNames x9
  extract_lets -underBinder -merge -useContext +onlyGivenNames x10
  extract_lets -underBinder -merge -useContext +onlyGivenNames x11 x12
  have hx12 : Keeps s0 x12 := (keeps_State_setFusQ hx7)
  clear_value x12
  extract_lets -underBinder -merge -useContext +onlyGivenNames x13
  have hx13 : Keeps s0 x13 := (keeps_State_stick hx12)
  clear_value x13
  exact Keeps.same hx13

theorem keeps_State_holdPort {s0 : State} {s1 a2} (h1 : Keeps s0 s1) : Keeps s0 (State.holdPort s1 a2) := by
  unfold State.holdPort
  extract_lets -underBinder -merge -useContext +onlyGivenNames x0
  extract_lets -underBinder -merge -useContext +onlyGivenNames x1
  exact keeps_State_stick (keeps_State_setFus h1)

theorem keeps_State_refine {s0 : State} {s1 a2} (h1 : Keeps s0 s1) : Keeps s0 (State.refine s1 a2) := by
  unfold State.refine
  extract_lets -underBinder -merge -useContext +onlyGivenNames x0
  extract_lets -underBinder -merge -useContext +onlyGivenNames x1
  refine Keeps.ite ?_ ?_
  · exact keeps_State_setF h1
  · extract_lets -underBinder -merge -useContext +onlyGivenNames x2
    extract_lets -underBinder -merge -useContext +onlyGivenNames x3
    extract_lets -underBinder -merge -useContext +onlyGivenNames x4
    extract_lets -underBinder -merge -useContext +onlyGivenNames x5
    extract_lets -underBinder -merge -useContext +onlyGivenNames x6
    extract_lets -underBinder -merge -useContext +onlyGivenNames x7
    extract_lets -underBinder -merge -useContext +onlyGivenNames x8
    have hx8 : ∀ y9 y10 y11, Keeps s0 y11 → Keeps s0 (x8 y9 y10 y11) := by
      intro y9 y10 y11 hy11
      unfold x8
      exact keeps_State_setSh (keeps_State_setReg hy11)
    clear_value x8
    extract_lets -underBinder -merge -useContext +onlyGivenNames x12
    have hx12 : Keeps s0 x12 := by
      unfold x12
      refine hx8 _ _ _ ?_
      · refine hx8 _ _ _ ?_
        · refine hx8 _ _ _ ?_
          · exact h1
    clear_value x12
    exact keeps_State_raise (keeps_State_offer (keeps_State_setFus hx12))

theorem keeps_State_fusLatch {s0 : State} {s1 a2} (h1 : Keeps s0 s1) : Keeps s0 (State.fusLatch s1 a2) := by
  unfold State.fusLatch
  extract_lets -underBinder -merge -useContext +onlyGivenNames x0
  refine Keeps.ite ?_ ?_
  · extract_lets -underBinder -merge -useContext +onlyGivenNames x1 x2
    have hx2 : Keeps s0 x2 := (Keeps.same h1)
    clear_value x2
    extract_lets -underBinder -merge -useContext +onlyGivenNames x3
    have hx3 : Keeps s0 x3 := (keeps_forUp (fun _ _ hx4 => (keeps_State_latchPort hx4)) hx2)
    clear_value x3
    extract_lets -underBinder -merge -useContext +onlyGivenNames x6
    have hx6 : Keeps s0 x6 := (Keeps.foldl (fun _ _ hx7 => (keeps_State_refine hx7)) hx3)
    clear_value x6
    exact Keeps.same hx6
  · exact keeps_forUp (fun _ _ hx9 => (keeps_State_holdPort hx9)) (Keeps.same h1)

theorem keeps_execPortCfgWrite {s0 : State} {a1 a2 s3} (h3 : Keeps s0 s3) : KeepsOut s0 (execPortCfgWrite a1 a2 s3) := by
  unfold execPortCfgWrite
  refine KeepsOut.liveIf ?_ ?_
  · exact h3
  · exact keeps_doPortCfg h3

theorem keeps_execDepositWindowWrite {s0 : State} {a1 a2 a3 a4 s5} (h5 : Keeps s0 s5) : KeepsOut s0 (execDepositWindowWrite a1 a2 a3 a4 s5) := by
  unfold execDepositWindowWrite
  refine KeepsOut.liveIf ?_ ?_
  · exact h5
  · exact keeps_doDepWrite h5

theorem keeps_execDepositCommit {s0 : State} {a1 a2 s3} (h3 : Keeps s0 s3) : KeepsOut s0 (execDepositCommit a1 a2 s3) := by
  unfold execDepositCommit
  refine KeepsOut.liveIf ?_ ?_
  · exact h3
  · exact keeps_doDepCommit h3

theorem keeps_execScanCopyDone {s0 : State} {a1 s2} (h2 : Keeps s0 s2) : KeepsOut s0 (execScanCopyDone a1 s2) := by
  unfold execScanCopyDone
  refine KeepsOut.liveIf ?_ ?_
  · exact h2
  · exact keeps_doScanCopied h2

theorem keeps_State_charge {s0 : State} {s1 a2 a3 a4} (h1 : Keeps s0 s1) : Keeps s0 (State.charge s1 a2 a3 a4) := by
  unfold State.charge
  extract_lets -underBinder -merge -useContext +onlyGivenNames x0
  extract_lets -underBinder -merge -useContext +onlyGivenNames x1
  refine Keeps.ite ?_ ?_
  · extract_lets -underBinder -merge -useContext +onlyGivenNames x2
    exact Keeps.ite (keeps_State_raise (keeps_State_setF (keeps_State_setF (keeps_State_setF h1)))) (keeps_State_setF h1)
  · extract_lets -underBinder -merge -useContext +onlyGivenNames x3
    exact Keeps.ite (keeps_State_raise (keeps_State_setF (keeps_State_setF (keeps_State_setF h1)))) (keeps_State_setF h1)

theorem keeps_State_voteGroup {s0 : State} {s1 a2 a3 a4} (h1 : Keeps s0 s1) : Keeps s0 (State.voteGroup s1 a2 a3 a4).st := by
  unfold State.voteGroup
  extract_lets -underBinder -merge -useContext +onlyGivenNames x0
  extract_lets -underBinder -merge -useContext +onlyGivenNames x1
  extract_lets -underBinder -merge -useContext +onlyGivenNames x2
  extract_lets -underBinder -merge -useContext +onlyGivenNames x3
  extract_lets -underBinder -merge -useContext +onlyGivenNames x4
  extract_lets -underBinder -merge -useContext +onlyGivenNames x5
  extract_lets -underBinder -merge -useContext +onlyGivenNames x6
  extract_lets -underBinder -merge -useContext +onlyGivenNames x7
  extract_lets -underBinder -merge -useContext +onlyGivenNames x8
  extract_lets -underBinder -merge -useContext +onlyGivenNames x9
  extract_lets -underBinder -merge -useContext +onlyGivenNames x10
  extract_lets -underBinder -merge -useContext +onlyGivenNames x11
  extract_lets -underBinder -merge -useContext +onlyGivenNames x12
  extract_lets -underBinder -merge -useContext +onlyGivenNames x13
  extract_lets -underBinder -merge -useContext +onlyGivenNames x14
  extract_lets -underBinder -merge -useContext +onlyGivenNames x15
  have hx15 : Keeps s0 x15 := (Keeps.ite h1 (Keeps.foldl (fun _ _ hx16 => (Keeps.ite hx16 (keeps_State_charge hx16))) h1))
  clear_value x15
  extract_lets -underBinder -merge -useContext +onlyGivenNames x18
  extract_lets -underBinder -merge -useContext +onlyGivenNames x19
  extract_lets -underBinder -merge -useContext +onlyGivenNames x20
  extract_lets -underBinder -merge -useContext +onlyGivenNames x21 x22
  have hx22 : Keeps s0 x22 := (Keeps.ite (Keeps.same hx15) hx15)
  clear_value x22
  extract_lets -underBinder -merge -useContext +onlyGivenNames x23
  have hx23 : Keeps s0 x23 := (Keeps.ite (keeps_State_raise hx22) hx22)
  clear_value x23
  extract_lets -underBinder -merge -useContext +onlyGivenNames x24
  extract_lets -underBinder -merge -useContext +onlyGivenNames x25
  refine Keeps.voted ?_
  exact keeps_State_setReg hx23

theorem keeps_State_keepPairs {s0 : State} {s1 a2 a3} (h1 : Keeps s0 s1) : Keeps s0 (State.keepPairs s1 a2 a3) := by
  unfold State.keepPairs
  split
  · exact keeps_State_setF h1
  · extract_lets -underBinder -merge -useContext +onlyGivenNames x0
    extract_lets -underBinder -merge -useContext +onlyGivenNames x1
    refine keeps_State_mWrite ?_
    · exact keeps_State_setF (keeps_State_setFus h1)

theorem keeps_State_fuse {s0 : State} {s1} (h1 : Keeps s0 s1) : Keeps s0 (State.fuse s1) := by
  unfold State.fuse
  extract_lets -underBinder -merge -useContext +onlyGivenNames e raw hg hon inH r1 hv x psi r2 gs acc y r3 secs z w
  have hx : Keeps s0 x := by
    unfold x hv
    split
    · exact keeps_State_voteGroup h1
    · exact h1
  clear_value x
  have hy : Keeps s0 y := by
    unfold y acc
    exact Keeps.foldlPair (fun t g ht => keeps_State_voteGroup ht) hx
  clear_value y
  have hz : Keeps s0 z := keeps_State_mWrite hy
  clear_value z
  revert z
  refine id ?_
  intro z w hz
  have hw : Keeps s0 w := by
    unfold w
    refine keeps_forUp (fun i t ht => ?_) hz
    split
    · exact Keeps.ite (keeps_State_keepPairs ht) ht
    · exact ht
  clear_value w
  revert w
  refine id ?_
  intro w hw
  exact Keeps.same hw

theorem keeps_State_fusAbsent {s0 : State} {s1} (h1 : Keeps s0 s1) : Keeps s0 (State.fusAbsent s1) := by
  unfold State.fusAbsent
  extract_lets -underBinder -merge -useContext +onlyGivenNames x0
  extract_lets -underBinder -merge -useContext +onlyGivenNames x1
  extract_lets -underBinder -merge -useContext +onlyGivenNames x2
  have hx2 : Keeps s0 x2 := by
    unfold x2
    refine keeps_State_mWrite ?_
    · exact h1
  clear_value x2
  revert x2
  refine id ?_
  intro x2 hx2
  exact Keeps.same hx2

theorem keeps_execFusionStageDone {s0 : State} {s1} (h1 : Keeps s0 s1) : KeepsOut s0 (execFusionStageDone s1) := by
  unfold execFusionStageDone
  refine KeepsOut.liveIf ?_ ?_
  · exact h1
  · exact keeps_State_fuse h1

theorem keeps_doTblCtl {s0 : State} {s1 a2} (h1 : Keeps s0 s1) : Keeps s0 (doTblCtl s1 a2) := by
  unfold doTblCtl
  extract_lets -underBinder -merge -useContext +onlyGivenNames x0
  extract_lets -underBinder -merge -useContext +onlyGivenNames x1
  have hx1 : Keeps s0 x1 := (keeps_State_setF (keeps_State_setF h1))
  clear_value x1
  extract_lets -underBinder -merge -useContext +onlyGivenNames x2
  have hx2 : Keeps s0 x2 := (Keeps.ite (keeps_State_framePass hx1) hx1)
  clear_value x2
  refine keeps_State_ok ?_
  · refine Keeps.ite ?_ ?_
    · extract_lets -underBinder -merge -useContext +onlyGivenNames x3 x4
      have hx4 : Keeps s0 x4 := (Keeps.same hx2)
      clear_value x4
      exact keeps_State_setF (keeps_State_setF (keeps_State_setF (keeps_State_setF hx4)))
    · exact hx2

theorem keeps_State_checkDone {s0 : State} {s1 a2} (h1 : Keeps s0 s1) : Keeps s0 (State.checkDone s1 a2) := by
  unfold State.checkDone
  extract_lets -underBinder -merge -useContext +onlyGivenNames x0
  extract_lets -underBinder -merge -useContext +onlyGivenNames x1
  have hx1 : Keeps s0 x1.st := Keeps.replyOf (y := State.mRead _ _ _ _) rfl (keeps_State_mRead h1)
  clear_value x1
  revert x1
  refine id ?_
  intro x1 hx1
  extract_lets -underBinder -merge -useContext +onlyGivenNames x2
  extract_lets -underBinder -merge -useContext +onlyGivenNames x3
  extract_lets -underBinder -merge -useContext +onlyGivenNames x4
  extract_lets -underBinder -merge -useContext +onlyGivenNames x5 x6 x7
  have hx5 : Keeps s0 x5 := by
    unfold x5
    exact hx1
  clear_value x5
  revert x5
  refine id ?_
  intro x5 x7 hx5
  have hx7 : Keeps s0 x7 := (Keeps.same hx5)
  clear_value x7
  revert x7
  refine id ?_
  intro x7 hx7
  extract_lets -underBinder -merge -useContext +onlyGivenNames x8
  have hx8 : Keeps s0 x8 := (keeps_State_setF (keeps_State_setF (keeps_State_setF (keeps_State_setF hx7))))
  clear_value x8
  revert x8
  refine id ?_
  intro x8 hx8
  extract_lets -underBinder -merge -useContext +onlyGivenNames x9
  have hx9 : Keeps s0 x9 := (keeps_State_setF (keeps_State_setF (keeps_State_setF hx8)))
  clear_value x9
  revert x9
  refine id ?_
  intro x9 hx9
  extract_lets -underBinder -merge -useContext +onlyGivenNames x10
  have hx10 : Keeps s0 x10 := (keeps_State_setF (keeps_State_setF hx9))
  clear_value x10
  revert x10
  refine id ?_
  intro x10 hx10
  exact keeps_State_raise (keeps_State_setF hx10)

theorem keeps_State_purseStep {s0 : State} {s1 a2} (h1 : Keeps s0 s1) : Keeps s0 (State.purseStep s1 a2) := by
  unfold State.purseStep
  extract_lets -underBinder -merge -useContext +onlyGivenNames x0
  have hx0 : Keeps s0 x0 := by
    refine keeps_forUp (fun y2 x1 hx1 => ?_) ?_
    · extract_lets -underBinder -merge -useContext +onlyGivenNames x3
      exact Keeps.ite (keeps_State_setF hx1) (keeps_State_setF (Keeps.same hx1))
    · exact h1
  clear_value x0
  split
  · exact keeps_forUp (fun b t ht => keeps_State_setReg ht) (keeps_State_setF hx0)
  · extract_lets -underBinder -merge -useContext +onlyGivenNames x4
    extract_lets -underBinder -merge -useContext +onlyGivenNames x5
    extract_lets -underBinder -merge -useContext +onlyGivenNames x6
    extract_lets -underBinder -merge -useContext +onlyGivenNames x7
    have hx7 : Keeps s0 x7 := (keeps_State_setF hx0)
    clear_value x7
    exact Keeps.ite (keeps_State_raise hx7) hx7

theorem keeps_State_tblCommit {s0 : State} {s1 a2} (h1 : Keeps s0 s1) : Keeps s0 (State.tblCommit s1 a2) := by
  unfold State.tblCommit
  extract_lets -underBinder -merge -useContext +onlyGivenNames x0
  extract_lets -underBinder -merge -useContext +onlyGivenNames x1
  refine Keeps.ite ?_ ?_
  · exact h1
  · refine Keeps.ite ?_ ?_
    · exact Keeps.ite (keeps_State_raise (Keeps.same h1)) h1
    · extract_lets -underBinder -merge -useContext +onlyGivenNames x2 x3
      have hx3 : Keeps s0 x3 := (Keeps.same h1)
      clear_value x3
      exact keeps_State_setF (keeps_State_setReg hx3)

theorem keeps_State_estCopy {s0 : State} {s1} (h1 : Keeps s0 s1) : Keeps s0 (State.estCopy s1) := by
  unfold State.estCopy
  extract_lets -underBinder -merge -useContext +onlyGivenNames x0
  have hx0 : Keeps s0 x0.st := Keeps.replyOf (y := State.mRead _ _ _ _) rfl (keeps_State_mRead h1)
  clear_value x0
  revert x0
  refine id ?_
  intro x0 hx0
  refine Keeps.ite ?_ ?_
  · extract_lets -underBinder -merge -useContext +onlyGivenNames x1
    have hx1 : Keeps s0 x1 := by
      unfold x1
      exact hx0
    clear_value x1
    revert x1
    refine id ?_
    intro x1 hx1
    exact Keeps.same hx1
  · refine keeps_State_stick ?_
    · extract_lets -underBinder -merge -useContext +onlyGivenNames x2
      have hx2 : Keeps s0 x2 := by
        unfold x2
        exact hx0
      clear_value x2
      revert x2
      refine id ?_
      intro x2 hx2
      exact Keeps.same hx2

theorem keeps_State_fixTable {s0 : State} {s1} (h1 : Keeps s0 s1) : Keeps s0 (State.fixTable s1).1 := by
  unfold State.fixTable
  split
  · refine Keeps.pair ?_
    exact h1
  · extract_lets -underBinder -merge -useContext +onlyGivenNames x0
    extract_lets -underBinder -merge -useContext +onlyGivenNames x1
    have hx1 : Keeps s0 x1.st := Keeps.replyOf (y := State.mRead _ _ _ _) rfl (keeps_State_mRead h1)
    clear_value x1
    revert x1
    refine id ?_
    intro x1 hx1
    extract_lets -underBinder -merge -useContext +onlyGivenNames x2
    split
    · extract_lets -underBinder -merge -useContext +onlyGivenNames x3
      have hx3 : Keeps s0 x3.st := by
        refine keeps_State_mRead ?_
        · exact hx1
      clear_value x3
      revert x3
      refine id ?_
      intro x3 hx3
      refine Keeps.pair ?_
      exact hx3
    · refine Keeps.pair ?_
      exact hx1

theorem keeps_State_jobList {s0 : State} {s1 a2} (h1 : Keeps s0 s1) : Keeps s0 (State.jobList s1 a2).1 := by
  unfold State.jobList
  extract_lets -underBinder -merge -useContext +onlyGivenNames x0
  split
  · refine Keeps.pair ?_
    exact h1
  · extract_lets -underBinder -merge -useContext +onlyGivenNames x1
    extract_lets -underBinder -merge -useContext +onlyGivenNames x2
    split
    · rename_i x4 y5  he6
      have hq3 : Keeps s0 x4 := by
        have e := congrArg Prod.fst he6
        dsimp only at e
        rw [← e]
        refine keeps_State_fixTable ?_
        · exact h1
      extract_lets -underBinder -merge -useContext +onlyGivenNames x7
      refine Keeps.pair ?_
      exact hq3

theorem keeps_State_asmB7 {s0 : State} {s1} (h1 : Keeps s0 s1) : Keeps s0 (State.asmB7 s1) := by
  unfold State.asmB7
  refine Keeps.ite ?_ ?_
  · exact h1
  · extract_lets -underBinder -merge -useContext +onlyGivenNames x0
    have hx0 : Keeps s0 x0 := (keeps_State_estCopy h1)
    clear_value x0
    revert x0
    refine id ?_
    intro x0 hx0
    extract_lets -underBinder -merge -useContext +onlyGivenNames x1
    extract_lets -underBinder -merge -useContext +onlyGivenNames x2
    extract_lets -underBinder -merge -useContext +onlyGivenNames x3
    extract_lets -underBinder -merge -useContext +onlyGivenNames x4 x5
    have hx5 : Keeps s0 x5 := (Keeps.same hx0)
    clear_value x5
    revert x5
    refine id ?_
    intro x5 hx5
    extract_lets -underBinder -merge -useContext +onlyGivenNames x6
    have hx6 : Keeps s0 x6 := (keeps_State_setF (keeps_State_setF hx5))
    clear_value x6
    revert x6
    refine id ?_
    intro x6 hx6
    extract_lets -underBinder -merge -useContext +onlyGivenNames x7
    have hx7 : Keeps s0 x7 := by
      unfold x7
      clear_value x3
      split
      · exact hx6
      · exact keeps_State_setF (keeps_State_setF (keeps_State_setF hx6))
    clear_value x7
    revert x7
    refine id ?_
    intro x7 hx7
    extract_lets -underBinder -merge -useContext +onlyGivenNames x8
    extract_lets -underBinder -merge -useContext +onlyGivenNames x9
    have hx9 : Keeps s0 x9 := (Keeps.ite (keeps_State_raise hx7) hx7)
    clear_value x9
    revert x9
    refine id ?_
    intro x9 hx9
    clear_value x8
    clear_value x3
    split
    · rename_i x11 y12  he13
      have hq10 : Keeps s0 x11 := by
        have e := congrArg Prod.fst he13
        dsimp only at e
        rw [← e]
        refine keeps_State_jobList ?_
        · exact Keeps.same hx9
      exact Keeps.same hq10

theorem keeps_Issue_put {s0 : State} {a1 a2 a3 a4} (h1 : Keeps s0 a1.st) : Keeps s0 (Issue.put a1 a2 a3 a4).st := by
  unfold Issue.put
  extract_lets -underBinder -merge -useContext +onlyGivenNames x0
  split
  · extract_lets -underBinder -merge -useContext +onlyGivenNames x1
    have hx1 : Keeps s0 x1 := by
      refine keeps_State_raise ?_
      · refine keeps_State_stickN ?_
        · exact h1
    clear_value x1
    refine Keeps.issue ?_
    exact hx1
  · extract_lets -underBinder -merge -useContext +onlyGivenNames x2
    have hx2 : Keeps s0 x2.st := by
      refine keeps_State_mWrite ?_
      · exact h1
    clear_value x2
    extract_lets -underBinder -merge -useContext +onlyGivenNames x3
    refine Keeps.issue ?_
    exact hx2

theorem foldl_st {s0 : State} {f : Issue → List Byte → Issue} {l : List (List Byte)} {a : Issue}
    (hf : ∀ a d, Keeps s0 a.st → Keeps s0 (f a d).st) (h : Keeps s0 a.st) : Keeps s0 (l.foldl f a).st := by
  induction l generalizing a with
  | nil => exact h
  | cons x l ih => exact ih (hf a x h)

theorem keeps_State_assemble {s0 : State} {s1 a2} (h1 : Keeps s0 s1) : Keeps s0 (State.assemble s1 a2) := by
  unfold State.assemble
  split
  · exact keeps_State_setF (keeps_State_setF (keeps_State_setF h1))
  · extract_lets -underBinder -merge -useContext +onlyGivenNames l i outer lim batt w lostT lostB rows pq b qp x y step js r z
    have hx : Keeps s0 x := keeps_State_setF (keeps_State_setF h1)
    clear_value x
    have hy : Keeps s0 y := keeps_forUp (fun i t ht => keeps_State_setReg ht) hx
    clear_value y
    have hr : Keeps s0 r.st := by
      refine foldl_st (fun a d ha => ?_) hy
      dsimp -zeta only [step]
      extract_lets -underBinder +onlyGivenNames kind idx
      split
      · exact ha
      · split
        · exact keeps_Issue_put ha
        · split
          · exact keeps_Issue_put ha
          · split
            · extract_lets sr a'
              have ha' : Keeps s0 a'.st := keeps_Issue_put ha
              clear_value a'
              split
              · exact keeps_State_setF ha'
              · exact ha'
            · split
              · split
                · rename_i u fd n he
                  refine keeps_Issue_put (?_ : Keeps s0 u)
                  have : Keeps s0 (u, some (fd, n)).1 := by
                    rw [← he]
                    exact keeps_State_fixTable ha
                  exact this
                · rename_i u he
                  have : Keeps s0 (u, (none : Option (List Byte × Nat))).1 := by
                    rw [← he]
                    exact keeps_State_fixTable ha
                  exact this
              · exact keeps_Issue_put ha
    clear_value r
    revert r
    refine id ?_
    intro r z hr
    exact Keeps.same (keeps_State_setF hr)

theorem keeps_State_asmDone {s0 : State} {s1} (h1 : Keeps s0 s1) : Keeps s0 (State.asmDone s1) := by
  unfold State.asmDone
  extract_lets -underBinder -merge -useContext +onlyGivenNames x0
  have hx0 : Keeps s0 x0 := (keeps_State_assemble h1)
  clear_value x0
  extract_lets -underBinder -merge -useContext +onlyGivenNames x1
  have hx1 : Keeps s0 x1 := (keeps_State_setF hx0)
  clear_value x1
  exact Keeps.same hx1

theorem keeps_execTableCheck {s0 : State} {a1 s2} (h2 : Keeps s0 s2) : KeepsOut s0 (execTableCheck a1 s2) := by
  unfold execTableCheck
  refine KeepsOut.live ?_ ?_
  · exact h2
  · exact keeps_doTblCtl h2

theorem keeps_execTableRelease {s0 : State} {a1 s2} (h2 : Keeps s0 s2) : KeepsOut s0 (execTableRelease a1 s2) := by
  unfold execTableRelease
  refine KeepsOut.live ?_ ?_
  · exact h2
  · exact keeps_doTblCtl h2

theorem keeps_execChkDone {s0 : State} {s1} (h1 : Keeps s0 s1) : KeepsOut s0 (execChkDone s1) := by
  unfold execChkDone
  split
  · refine KeepsOut.live ?_ ?_
    · exact h1
    · exact h1
  · refine KeepsOut.live ?_ ?_
    · exact h1
    · exact keeps_State_checkDone h1

theorem keeps_execAssemblyDone {s0 : State} {s1} (h1 : Keeps s0 s1) : KeepsOut s0 (execAssemblyDone s1) := by
  unfold execAssemblyDone
  refine KeepsOut.liveIf ?_ ?_
  · exact h1
  · exact keeps_State_asmDone h1

theorem keeps_State_compareEdges {s0 : State} {s1 a2} (h1 : Keeps s0 s1) : Keeps s0 (State.compareEdges s1 a2) := by
  unfold State.compareEdges
  extract_lets -underBinder -merge -useContext +onlyGivenNames x0
  refine Keeps.ite ?_ ?_
  · extract_lets -underBinder -merge -useContext +onlyGivenNames x1 x2
    have hx2 : Keeps s0 x2 := (Keeps.same h1)
    clear_value x2
    extract_lets -underBinder -merge -useContext +onlyGivenNames x3
    have hx3 : Keeps s0 x3 := (keeps_State_setF hx2)
    clear_value x3
    exact keeps_State_raise (keeps_State_stick hx3)
  · exact Keeps.same h1

theorem keeps_State_addOfs {s0 : State} {s1 a2} (h1 : Keeps s0 s1) : Keeps s0 (State.addOfs s1 a2) := by
  unfold State.addOfs
  exact Keeps.same h1

theorem keeps_State_stepEdges {s0 : State} {s1 a2} (h1 : Keeps s0 s1) : Keeps s0 (State.stepEdges s1 a2) := by
  unfold State.stepEdges
  exact keeps_State_compareEdges (keeps_State_addOfs h1)

theorem keeps_State_acquire {s0 : State} {s1} (h1 : Keeps s0 s1) : Keeps s0 (State.acquire s1) := by
  unfold State.acquire
  extract_lets -underBinder -merge -useContext +onlyGivenNames x0
  have hx0 : Keeps s0 x0 := (keeps_State_raise (keeps_State_setF h1))
  clear_value x0
  refine Keeps.ite ?_ ?_
  · extract_lets -underBinder -merge -useContext +onlyGivenNames x1
    have hx1 : Keeps s0 x1 := (keeps_State_setF hx0)
    clear_value x1
    exact Keeps.ite hx1 (keeps_State_compareEdges hx1)
  · exact hx0

theorem keeps_State_selectTime {s0 : State} {s1} (h1 : Keeps s0 s1) : Keeps s0 (State.selectTime s1) := by
  unfold State.selectTime
  extract_lets -underBinder -merge -useContext +onlyGivenNames x0
  extract_lets -underBinder -merge -useContext +onlyGivenNames x1
  have hx1 : Keeps s0 x1 := (Keeps.ite h1 (keeps_State_raise (keeps_State_setF h1)))
  clear_value x1
  extract_lets -underBinder -merge -useContext +onlyGivenNames x2
  have hx2 : Keeps s0 x2 := (Keeps.ite (keeps_State_acquire hx1) hx1)
  clear_value x2
  extract_lets -underBinder -merge -useContext +onlyGivenNames x3
  extract_lets -underBinder -merge -useContext +onlyGivenNames x4
  have hx4 : Keeps s0 x4 := (Keeps.ite (keeps_State_raise (keeps_State_setF hx2)) (keeps_State_setF hx2))
  clear_value x4
  exact Keeps.ite hx4 (Keeps.same hx4)

theorem keeps_State_timeRefused {s0 : State} {s1} (h1 : Keeps s0 s1) : Keeps s0 (State.timeRefused s1) := by
  unfold State.timeRefused
  exact keeps_State_raise (keeps_State_stick h1)

theorem keeps_doRate {s0 : State} {s1 a2 a3} (h1 : Keeps s0 s1) : Keeps s0 (doRate s1 a2 a3) := by
  unfold doRate
  extract_lets -underBinder -merge -useContext +onlyGivenNames x0
  extract_lets -underBinder -merge -useContext +onlyGivenNames x1 x2 x3
  have hx3 : Keeps s0 x3 := (Keeps.ite (keeps_State_timeRefused h1) (keeps_State_setReg (Keeps.same h1)))
  clear_value x3
  exact keeps_State_ok (keeps_State_setF hx3)

theorem keeps_State_timeStep {s0 : State} {s1 a2 a3} (h1 : Keeps s0 s1) : Keeps s0 (State.timeStep s1 a2 a3) := by
  unfold State.timeStep
  exact Keeps.ite (keeps_State_addOfs h1) (Keeps.ite (keeps_State_stepEdges h1) (Keeps.ite (keeps_State_timeRefused h1) (Keeps.ite (Keeps.same h1) (keeps_State_timeRefused h1))))

theorem keeps_doStep {s0 : State} {s1 a2 a3} (h1 : Keeps s0 s1) : Keeps s0 (doStep s1 a2 a3) := by
  unfold doStep
  extract_lets -underBinder -merge -useContext +onlyGivenNames x0
  exact keeps_State_ok (keeps_State_setF (keeps_State_timeStep h1))

theorem keeps_doTimeNow {s0 : State} {s1} (h1 : Keeps s0 s1) : Keeps s0 (doTimeNow s1) := by
  unfold doTimeNow
  extract_lets -underBinder -merge -useContext +onlyGivenNames x0
  extract_lets -underBinder -merge -useContext +onlyGivenNames x1
  have hx1 : Keeps s0 x1 := (keeps_State_setPair (keeps_State_setReg h1))
  clear_value x1
  exact keeps_State_ansW (keeps_State_setReg hx1)

theorem keeps_doPtpObs {s0 : State} {s1 a2} (h1 : Keeps s0 s1) : Keeps s0 (doPtpObs s1 a2) := by
  unfold doPtpObs
  extract_lets -underBinder -merge -useContext +onlyGivenNames x0
  extract_lets -underBinder -merge -useContext +onlyGivenNames x1
  extract_lets -underBinder -merge -useContext +onlyGivenNames x2
  have hx2 : Keeps s0 x2 := (keeps_State_setF (keeps_State_setF h1))
  clear_value x2
  refine Keeps.ite ?_ ?_
  · extract_lets -underBinder -merge -useContext +onlyGivenNames x3
    extract_lets -underBinder -merge -useContext +onlyGivenNames x4 x5
    have hx5 : Keeps s0 x5 := (Keeps.same hx2)
    clear_value x5
    exact keeps_State_ok (keeps_State_selectTime (keeps_State_setF hx5))
  · exact keeps_State_ok (keeps_State_setF (Keeps.same hx2))

theorem keeps_doGnssObs {s0 : State} {s1 a2} (h1 : Keeps s0 s1) : Keeps s0 (doGnssObs s1 a2) := by
  unfold doGnssObs
  extract_lets -underBinder -merge -useContext +onlyGivenNames x0
  extract_lets -underBinder -merge -useContext +onlyGivenNames x1
  extract_lets -underBinder -merge -useContext +onlyGivenNames x2
  have hx2 : Keeps s0 x2 := (keeps_State_setF (keeps_State_setF h1))
  clear_value x2
  refine Keeps.ite ?_ ?_
  · extract_lets -underBinder -merge -useContext +onlyGivenNames x3
    extract_lets -underBinder -merge -useContext +onlyGivenNames x4 x5
    exact keeps_State_ok (keeps_State_selectTime (Keeps.same hx2))
  · exact keeps_State_ok (keeps_State_setF (Keeps.same hx2))

theorem keeps_State_ppsFall {s0 : State} {s1} (h1 : Keeps s0 s1) : Keeps s0 (State.ppsFall s1) := by
  unfold State.ppsFall
  split
  · exact h1
  · extract_lets -underBinder -merge -useContext +onlyGivenNames x0 x1
    have hx1 : Keeps s0 x1 := (Keeps.same h1)
    clear_value x1
    extract_lets -underBinder -merge -useContext +onlyGivenNames x2
    extract_lets -underBinder -merge -useContext +onlyGivenNames x3
    have hx3 : Keeps s0 x3 := (keeps_State_setPair hx1)
    clear_value x3
    split
    · exact keeps_State_raise (keeps_State_setF (Keeps.same hx3))
    · extract_lets -underBinder -merge -useContext +onlyGivenNames x4
      have hx4 : Keeps s0 x4 := (keeps_State_setF hx3)
      clear_value x4
      refine Keeps.ite ?_ ?_
      · extract_lets -underBinder -merge -useContext +onlyGivenNames x5
        extract_lets -underBinder -merge -useContext +onlyGivenNames x6 x7
        have hx7 : Keeps s0 x7 := (Keeps.same hx4)
        clear_value x7
        extract_lets -underBinder -merge -useContext +onlyGivenNames x8
        have hx8 : Keeps s0 x8 := (keeps_State_wrap (keeps_State_setF hx7))
        clear_value x8
        exact keeps_State_selectTime (keeps_State_setF hx8)
      · exact keeps_State_setF (Keeps.same hx4)

theorem keeps_execRateWrite {s0 : State} {a1 a2 s3} (h3 : Keeps s0 s3) : KeepsOut s0 (execRateWrite a1 a2 s3) := by
  unfold execRateWrite
  refine KeepsOut.live ?_ ?_
  · exact h3
  · exact keeps_doRate h3

theorem keeps_execStepWrite {s0 : State} {a1 a2 s3} (h3 : Keeps s0 s3) : KeepsOut s0 (execStepWrite a1 a2 s3) := by
  unfold execStepWrite
  refine KeepsOut.live ?_ ?_
  · exact h3
  · exact keeps_doStep h3

theorem keeps_execStepForce {s0 : State} {s1} (h1 : Keeps s0 s1) : KeepsOut s0 (execStepForce s1) := by
  unfold execStepForce
  refine KeepsOut.live ?_ ?_
  · exact h1
  · exact keeps_State_ok (keeps_State_setF h1)

theorem keeps_execSlewIncrement {s0 : State} {s1} (h1 : Keeps s0 s1) : KeepsOut s0 (execSlewIncrement s1) := by
  unfold execSlewIncrement
  extract_lets -underBinder -merge -useContext +onlyGivenNames x0
  extract_lets -underBinder -merge -useContext +onlyGivenNames x1
  have hx1 : Keeps s0 x1 := (keeps_State_addOfs h1)
  clear_value x1
  refine KeepsOut.live ?_ ?_
  · exact h1
  · exact Keeps.same hx1

theorem keeps_execTimeNowRead {s0 : State} {s1} (h1 : Keeps s0 s1) : KeepsOut s0 (execTimeNowRead s1) := by
  unfold execTimeNowRead
  refine KeepsOut.live ?_ ?_
  · exact h1
  · exact keeps_doTimeNow h1

theorem keeps_execPtpObsSubmit {s0 : State} {a1 s2} (h2 : Keeps s0 s2) : KeepsOut s0 (execPtpObsSubmit a1 s2) := by
  unfold execPtpObsSubmit
  refine KeepsOut.live ?_ ?_
  · exact h2
  · exact keeps_doPtpObs h2

theorem keeps_execPtpSourceLost {s0 : State} {s1} (h1 : Keeps s0 s1) : KeepsOut s0 (execPtpSourceLost s1) := by
  unfold execPtpSourceLost
  refine KeepsOut.live ?_ ?_
  · exact h1
  · exact keeps_State_selectTime (keeps_State_setF (Keeps.same h1))

theorem keeps_execGnssTimeObs {s0 : State} {a1 s2} (h2 : Keeps s0 s2) : KeepsOut s0 (execGnssTimeObs a1 s2) := by
  unfold execGnssTimeObs
  refine KeepsOut.liveIf ?_ ?_
  · exact h2
  · exact keeps_doGnssObs h2

theorem keeps_execTimeLost {s0 : State} {s1} (h1 : Keeps s0 s1) : KeepsOut s0 (execTimeLost s1) := by
  unfold execTimeLost
  extract_lets -underBinder -merge -useContext +onlyGivenNames x0 x1
  have hx1 : Keeps s0 x1 := (Keeps.same h1)
  clear_value x1
  refine KeepsOut.liveIf ?_ ?_
  · exact h1
  · exact keeps_State_selectTime (keeps_State_raise hx1)

theorem keeps_execPpsRise {s0 : State} {s1} (h1 : Keeps s0 s1) : KeepsOut s0 (execPpsRise s1) := by
  unfold execPpsRise
  refine KeepsOut.liveIf ?_ ?_
  · exact h1
  · exact keeps_State_setPair (Keeps.same h1)

theorem keeps_execPpsFall {s0 : State} {s1} (h1 : Keeps s0 s1) : KeepsOut s0 (execPpsFall s1) := by
  unfold execPpsFall
  refine KeepsOut.liveIf ?_ ?_
  · exact h1
  · exact keeps_State_ppsFall h1

theorem keeps_execPpsSourceLost {s0 : State} {s1} (h1 : Keeps s0 s1) : KeepsOut s0 (execPpsSourceLost s1) := by
  unfold execPpsSourceLost
  extract_lets -underBinder -merge -useContext +onlyGivenNames x0 x1
  have hx1 : Keeps s0 x1 := (keeps_State_setF (Keeps.same h1))
  clear_value x1
  refine KeepsOut.liveIf ?_ ?_
  · exact h1
  · exact keeps_State_selectTime (keeps_State_raise hx1)

theorem keeps_execTpulse {s0 : State} {s1} (h1 : Keeps s0 s1) : KeepsOut s0 (execTpulse s1) := by
  unfold execTpulse
  refine KeepsOut.liveIf ?_ ?_
  · exact h1
  · exact keeps_State_send (Keeps.same h1)

theorem keeps_execExtLost {s0 : State} {s1} (h1 : Keeps s0 s1) : KeepsOut s0 (execExtLost s1) := by
  unfold execExtLost
  refine KeepsOut.liveIf ?_ ?_
  · exact h1
  · exact keeps_State_raise (keeps_State_setF h1)

theorem keeps_doTimCfg {s0 : State} {s1 a2} (h1 : Keeps s0 s1) : Keeps s0 (doTimCfg s1 a2) := by
  unfold doTimCfg
  refine Keeps.ite ?_ ?_
  · exact keeps_State_ok h1
  · extract_lets -underBinder -merge -useContext +onlyGivenNames x0
    have hx0 : Keeps s0 x0 := (keeps_State_setF (keeps_State_setReg h1))
    clear_value x0
    exact keeps_State_ok (keeps_State_selectTime hx0)

theorem keeps_State_setGns {s0 : State} {s1 a2 a3} (h1 : Keeps s0 s1) : Keeps s0 (State.setGns s1 a2 a3) := by
  unfold State.setGns
  exact Keeps.same h1

theorem keeps_State_setGst {s0 : State} {s1 a2 a3} (h1 : Keeps s0 s1) : Keeps s0 (State.setGst s1 a2 a3) := by
  unfold State.setGst
  extract_lets -underBinder -merge -useContext +onlyGivenNames x0
  have hx0 : Keeps s0 x0 := (keeps_State_setF h1)
  clear_value x0
  exact Keeps.ite hx0 (keeps_State_setF (keeps_State_setF (keeps_State_setF hx0)))

theorem keeps_State_gnsQueue {s0 : State} {s1 a2} (h1 : Keeps s0 s1) : Keeps s0 (State.gnsQueue s1 a2) := by
  unfold State.gnsQueue
  extract_lets -underBinder -merge -useContext +onlyGivenNames x0
  have hx0 : Keeps s0 x0 := (keeps_State_setGst h1)
  clear_value x0
  exact Keeps.same hx0

theorem keeps_State_gnsUnqueue {s0 : State} {s1 a2} (h1 : Keeps s0 s1) : Keeps s0 (State.gnsUnqueue s1 a2) := by
  unfold State.gnsUnqueue
  exact Keeps.same h1

theorem keeps_doGnsCfg {s0 : State} {s1 a2 a3} (h1 : Keeps s0 s1) : Keeps s0 (doGnsCfg s1 a2 a3) := by
  unfold doGnsCfg
  extract_lets -underBinder -merge -useContext +onlyGivenNames x0
  have hx0 : Keeps s0 x0 := (keeps_State_setReg h1)
  clear_value x0
  refine keeps_State_ok ?_
  · refine Keeps.ite ?_ ?_
    · exact keeps_State_setGns (keeps_State_setGst (keeps_State_gnsUnqueue hx0))
    · refine Keeps.ite ?_ ?_
      · exact hx0
      · extract_lets -underBinder -merge -useContext +onlyGivenNames x1
        have hx1 : Keeps s0 x1 := (keeps_State_setF hx0)
        clear_value x1
        exact Keeps.ite (keeps_State_setGns hx1) (keeps_State_gnsQueue (keeps_State_setGns hx1))

theorem keeps_doAcqDone {s0 : State} {s1 a2 a3 a4} (h1 : Keeps s0 s1) : Keeps s0 (doAcqDone s1 a2 a3 a4) := by
  unfold doAcqDone
  split
  · exact h1
  · split
    · refine Keeps.ite ?_ ?_
      · exact h1
      · extract_lets -underBinder -merge -useContext +onlyGivenNames x0
        have hx0 : Keeps s0 x0 := (keeps_State_stickN (keeps_State_setF h1))
        clear_value x0
        extract_lets -underBinder -merge -useContext +onlyGivenNames x1 x2
        have hx2 : Keeps s0 x2 := (Keeps.ite (keeps_State_setGns (keeps_State_setGst (keeps_State_gnsUnqueue hx0))) (keeps_State_gnsQueue hx0))
        clear_value x2
        exact keeps_State_raise hx2

theorem keeps_State_startL5 {s0 : State} {s1 a2} (h1 : Keeps s0 s1) : Keeps s0 (State.startL5 s1 a2) := by
  unfold State.startL5
  exact Keeps.ite (keeps_State_setF h1) h1

theorem keeps_doPullInLock {s0 : State} {s1 a2} (h1 : Keeps s0 s1) : Keeps s0 (doPullInLock s1 a2) := by
  unfold doPullInLock
  exact keeps_State_startL5 (keeps_State_setGns (keeps_State_setF (keeps_State_setGst h1)))

theorem keeps_doTrackLoss {s0 : State} {s1 a2} (h1 : Keeps s0 s1) : Keeps s0 (doTrackLoss s1 a2) := by
  unfold doTrackLoss
  exact keeps_State_raise (keeps_State_setGst h1)

theorem keeps_State_snapEnd {s0 : State} {s1 a2} (h1 : Keeps s0 s1) : Keeps s0 (State.snapEnd s1 a2) := by
  unfold State.snapEnd
  split
  · exact h1
  · extract_lets -underBinder -merge -useContext +onlyGivenNames x0
    have hx0 : Keeps s0 x0 := (Keeps.ite (keeps_State_scramble h1) h1)
    clear_value x0
    extract_lets -underBinder -merge -useContext +onlyGivenNames x1 x2
    have hx2 : Keeps s0 x2 := (Keeps.same hx0)
    clear_value x2
    exact keeps_State_raise (keeps_State_setF (keeps_State_setF (keeps_State_setF hx2)))

theorem keeps_State_snapEndOn {s0 : State} {s1 a2 a3} (h1 : Keeps s0 s1) : Keeps s0 (State.snapEndOn s1 a2 a3) := by
  unfold State.snapEndOn
  split
  · exact Keeps.ite (keeps_State_snapEnd h1) h1
  · exact h1

theorem keeps_doIfDown {s0 : State} {s1 a2} (h1 : Keeps s0 s1) : Keeps s0 (doIfDown s1 a2) := by
  unfold doIfDown
  extract_lets -underBinder -merge -useContext +onlyGivenNames x0
  have hx0 : Keeps s0 x0 := (keeps_State_raise (keeps_State_setF h1))
  clear_value x0
  extract_lets -underBinder -merge -useContext +onlyGivenNames x1
  have hx1 : Keeps s0 x1 := (Keeps.ite (keeps_forUp (fun _ _ hx2 => (Keeps.ite hx2 (keeps_State_setGst (keeps_State_gnsUnqueue hx2)))) hx0) (keeps_forUp (fun _ _ hx4 => (Keeps.ite hx4 (keeps_State_setF hx4))) hx0))
  clear_value x1
  exact keeps_State_snapEndOn hx1

theorem keeps_doJamCal {s0 : State} {s1} (h1 : Keeps s0 s1) : Keeps s0 (doJamCal s1) := by
  unfold doJamCal
  exact keeps_State_ok (keeps_forUp (fun _ _ hx0 => (keeps_State_setF (keeps_State_setF hx0))) h1)

theorem keeps_doSnapGo {s0 : State} {s1 a2} (h1 : Keeps s0 s1) : Keeps s0 (doSnapGo s1 a2) := by
  unfold doSnapGo
  extract_lets -underBinder -merge -useContext +onlyGivenNames x0
  extract_lets -underBinder -merge -useContext +onlyGivenNames x1
  have hx1 : Keeps s0 x1 := (keeps_State_setReg h1)
  clear_value x1
  extract_lets -underBinder -merge -useContext +onlyGivenNames x2
  extract_lets -underBinder -merge -useContext +onlyGivenNames x3
  refine keeps_State_ok ?_
  · refine Keeps.ite ?_ ?_
    · exact hx1
    · extract_lets -underBinder -merge -useContext +onlyGivenNames x4
      exact Keeps.ite (keeps_State_raise (keeps_State_setF (keeps_State_setF hx1))) (keeps_State_setF (keeps_State_setF (Keeps.same hx1)))

theorem keeps_doSnapDone {s0 : State} {s1 a2 a3} (h1 : Keeps s0 s1) : Keeps s0 (doSnapDone s1 a2 a3) := by
  unfold doSnapDone
  split
  · exact h1
  · refine Keeps.ite ?_ ?_
    · exact h1
    · extract_lets -underBinder -merge -useContext +onlyGivenNames x0
      extract_lets -underBinder -merge -useContext +onlyGivenNames x1
      have hx1 : Keeps s0 x1.st := Keeps.replyOf (y := State.mWrite _ _ _ _) rfl (keeps_State_mWrite h1)
      clear_value x1
      revert x1
      refine id ?_
      intro x1 hx1
      refine Keeps.ite ?_ ?_
      · refine keeps_State_snapEnd ?_
        · exact hx1
      · extract_lets -underBinder -merge -useContext +onlyGivenNames x2
        have hx2 : Keeps s0 x2.st := by
          refine keeps_State_mWrite ?_
          · exact hx1
        clear_value x2
        revert x2
        refine id ?_
        intro x2 hx2
        extract_lets -underBinder -merge -useContext +onlyGivenNames x3 x4 x5
        have hx3 : Keeps s0 x3 := by
          unfold x3
          exact hx2
        clear_value x3
        revert x3
        refine id ?_
        intro x3 x5 hx3
        have hx5 : Keeps s0 x5 := (Keeps.same hx3)
        clear_value x5
        revert x5
        refine id ?_
        intro x5 hx5
        exact keeps_State_raise (keeps_State_setF (keeps_State_setF hx5))

theorem keeps_State_agcStep {s0 : State} {s1 a2 a3} (h1 : Keeps s0 s1) : Keeps s0 (State.agcStep s1 a2 a3) := by
  unfold State.agcStep
  split
  · exact h1
  · extract_lets -underBinder -merge -useContext +onlyGivenNames x0
    extract_lets -underBinder -merge -useContext +onlyGivenNames x1
    exact Keeps.ite h1 (Keeps.ite (keeps_State_setF h1) (Keeps.ite (keeps_State_setF h1) h1))

theorem keeps_State_jamStep {s0 : State} {s1 a2 a3} (h1 : Keeps s0 s1) : Keeps s0 (State.jamStep s1 a2 a3) := by
  unfold State.jamStep
  extract_lets -underBinder -merge -useContext +onlyGivenNames x0
  extract_lets -underBinder -merge -useContext +onlyGivenNames x1 x2
  have hx2 : Keeps s0 x2 := (Keeps.same h1)
  clear_value x2
  refine Keeps.ite ?_ ?_
  · exact keeps_State_setF hx2
  · extract_lets -underBinder -merge -useContext +onlyGivenNames x3
    extract_lets -underBinder -merge -useContext +onlyGivenNames x4
    extract_lets -underBinder -merge -useContext +onlyGivenNames x5
    extract_lets -underBinder -merge -useContext +onlyGivenNames x6
    have hx6 : Keeps s0 x6 := (keeps_State_setF hx2)
    clear_value x6
    refine Keeps.ite ?_ ?_
    · extract_lets -underBinder -merge -useContext +onlyGivenNames x7
      have hx7 : Keeps s0 x7 := (keeps_State_setF hx6)
      clear_value x7
      exact Keeps.ite hx7 (keeps_State_raise hx7)
    · exact Keeps.ite (keeps_State_setF hx6) hx6

theorem keeps_State_setNotch {s0 : State} {s1 a2 a3 a4 a5} (h1 : Keeps s0 s1) : Keeps s0 (State.setNotch s1 a2 a3 a4 a5) := by
  unfold State.setNotch
  extract_lets -underBinder -merge -useContext +onlyGivenNames x0 x1
  have hx1 : Keeps s0 x1 := (Keeps.same h1)
  clear_value x1
  extract_lets -underBinder -merge -useContext +onlyGivenNames x2
  have hx2 : Keeps s0 x2 := (keeps_State_setF hx1)
  clear_value x2
  exact Keeps.ite hx2 (keeps_State_raise hx2)

theorem keeps_State_notchStep {s0 : State} {s1 a2 a3 a4} (h1 : Keeps s0 s1) : Keeps s0 (State.notchStep s1 a2 a3 a4) := by
  unfold State.notchStep
  extract_lets -underBinder -merge -useContext +onlyGivenNames x0
  extract_lets -underBinder -merge -useContext +onlyGivenNames x1
  refine Keeps.ite ?_ ?_
  · exact keeps_State_setNotch h1
  · refine Keeps.ite ?_ ?_
    · exact keeps_State_setNotch h1
    · extract_lets -underBinder -merge -useContext +onlyGivenNames x2
      extract_lets -underBinder -merge -useContext +onlyGivenNames x3
      refine Keeps.ite ?_ ?_
      · extract_lets -underBinder -merge -useContext +onlyGivenNames x4
        refine Keeps.ite ?_ ?_
        · exact keeps_State_setNotch h1
        · extract_lets -underBinder -merge -useContext +onlyGivenNames x5
          exact keeps_State_setNotch h1
      · split
        · exact keeps_State_setNotch h1
        · exact h1

theorem keeps_State_gnsNote {s0 : State} {s1 a2 a3} (h1 : Keeps s0 s1) : Keeps s0 (State.gnsNote s1 a2 a3) := by
  unfold State.gnsNote
  extract_lets -underBinder -merge -useContext +onlyGivenNames x0
  extract_lets -underBinder -merge -useContext +onlyGivenNames x1
  exact Keeps.ite (keeps_State_setGns (keeps_State_setF (keeps_State_setF h1))) h1

theorem keeps_State_gnsStart {s0 : State} {s1 a2} (h1 : Keeps s0 s1) : Keeps s0 (State.gnsStart s1 a2) := by
  unfold State.gnsStart
  extract_lets -underBinder -merge -useContext +onlyGivenNames x0
  exact Keeps.ite (keeps_State_setGns (keeps_State_setGst h1)) (Keeps.ite (keeps_State_gnsQueue (keeps_State_setF h1)) h1)

theorem keeps_State_snapStart {s0 : State} {s1} (h1 : Keeps s0 s1) : Keeps s0 (State.snapStart s1) := by
  unfold State.snapStart
  split
  · exact Keeps.ite (Keeps.same h1) h1
  · exact h1

theorem keeps_State_gnsEdge {s0 : State} {s1 a2 a3} (h1 : Keeps s0 s1) : Keeps s0 (State.gnsEdge s1 a2 a3) := by
  unfold State.gnsEdge
  refine Keeps.ite ?_ ?_
  · exact h1
  · extract_lets -underBinder -merge -useContext +onlyGivenNames x0
    have hx0 : Keeps s0 x0 := (keeps_forUp (fun _ _ hx1 => (keeps_State_agcStep hx1)) h1)
    clear_value x0
    extract_lets -underBinder -merge -useContext +onlyGivenNames x3 x4 x5 x6 x7 x8 x9
    have hx3 : Keeps s0 x3 := (keeps_forUp (fun _ _ hx10 => (Keeps.ite (keeps_State_setF hx10) hx10)) hx0)
    clear_value x3
    have hx4 : Keeps s0 x4 := (keeps_forUp (fun _ _ hx12 => (keeps_forUp (fun _ _ hx14 => (keeps_State_notchStep hx14)) hx12)) hx3)
    clear_value x4
    have hx5 : Keeps s0 x5 := (keeps_forUp (fun _ _ hx16 => (keeps_State_jamStep hx16)) hx4)
    clear_value x5
    have hx6 : Keeps s0 x6 := (keeps_forUp (fun _ _ hx18 => (keeps_State_gnsNote hx18)) hx5)
    clear_value x6
    have hx8 : Keeps s0 x8 := (keeps_forUp (fun _ _ hx20 => (keeps_State_setReg hx20)) hx6)
    clear_value x8
    have hx9 : Keeps s0 x9 := (Keeps.ite (keeps_forUp (fun _ _ hx22 => (keeps_State_gnsStart hx22)) hx8) hx0)
    clear_value x9
    exact keeps_State_snapStart hx9

theorem keeps_execIfDown {s0 : State} {a1 s2} (h2 : Keeps s0 s2) : KeepsOut s0 (execIfDown a1 s2) := by
  unfold execIfDown
  refine KeepsOut.liveIf ?_ ?_
  · exact h2
  · exact keeps_doIfDown h2

theorem keeps_execJamCal {s0 : State} {s1} (h1 : Keeps s0 s1) : KeepsOut s0 (execJamCal s1) := by
  unfold execJamCal
  refine KeepsOut.liveIf ?_ ?_
  · exact h1
  · exact keeps_doJamCal h1

theorem keeps_execChannelStart {s0 : State} {a1 a2 s3} (h3 : Keeps s0 s3) : KeepsOut s0 (execChannelStart a1 a2 s3) := by
  unfold execChannelStart
  refine KeepsOut.liveIf ?_ ?_
  · exact h3
  · exact keeps_doGnsCfg h3

theorem keeps_execChannelStop {s0 : State} {a1 a2 s3} (h3 : Keeps s0 s3) : KeepsOut s0 (execChannelStop a1 a2 s3) := by
  unfold execChannelStop
  refine KeepsOut.liveIf ?_ ?_
  · exact h3
  · exact keeps_doGnsCfg h3

theorem keeps_execChannelDirectStart {s0 : State} {a1 a2 s3} (h3 : Keeps s0 s3) : KeepsOut s0 (execChannelDirectStart a1 a2 s3) := by
  unfold execChannelDirectStart
  refine KeepsOut.liveIf ?_ ?_
  · exact h3
  · exact keeps_doGnsCfg h3

theorem keeps_execAcqDone {s0 : State} {a1 a2 a3 s4} (h4 : Keeps s0 s4) : KeepsOut s0 (execAcqDone a1 a2 a3 s4) := by
  unfold execAcqDone
  refine KeepsOut.liveIf ?_ ?_
  · exact h4
  · exact keeps_doAcqDone h4

theorem keeps_execPullInLock {s0 : State} {a1 s2} (h2 : Keeps s0 s2) : KeepsOut s0 (execPullInLock a1 s2) := by
  unfold execPullInLock
  refine KeepsOut.liveIf ?_ ?_
  · exact h2
  · exact keeps_doPullInLock h2

theorem keeps_execPullInTimeout {s0 : State} {a1 s2} (h2 : Keeps s0 s2) : KeepsOut s0 (execPullInTimeout a1 s2) := by
  unfold execPullInTimeout
  refine KeepsOut.liveIf ?_ ?_
  · exact h2
  · exact keeps_State_gnsQueue h2

theorem keeps_execTrackLoss {s0 : State} {a1 s2} (h2 : Keeps s0 s2) : KeepsOut s0 (execTrackLoss a1 s2) := by
  unfold execTrackLoss
  refine KeepsOut.liveIf ?_ ?_
  · exact h2
  · exact keeps_doTrackLoss h2

theorem keeps_execL5PullInEnd {s0 : State} {a1 a2 s3} (h3 : Keeps s0 s3) : KeepsOut s0 (execL5PullInEnd a1 a2 s3) := by
  unfold execL5PullInEnd
  refine KeepsOut.liveIf ?_ ?_
  · exact h3
  · exact keeps_State_setGns (keeps_State_setF h3)

theorem keeps_execL5Retry {s0 : State} {a1 s2} (h2 : Keeps s0 s2) : KeepsOut s0 (execL5Retry a1 s2) := by
  unfold execL5Retry
  refine KeepsOut.liveIf ?_ ?_
  · exact h2
  · exact keeps_State_startL5 h2

theorem keeps_execSnapGo {s0 : State} {a1 s2} (h2 : Keeps s0 s2) : KeepsOut s0 (execSnapGo a1 s2) := by
  unfold execSnapGo
  refine KeepsOut.liveIf ?_ ?_
  · exact h2
  · exact keeps_doSnapGo h2

theorem keeps_execSnapDone {s0 : State} {a1 a2 s3} (h3 : Keeps s0 s3) : KeepsOut s0 (execSnapDone a1 a2 s3) := by
  unfold execSnapDone
  refine KeepsOut.liveIf ?_ ?_
  · exact h3
  · exact keeps_doSnapDone h3

theorem keeps_execBitSynchronisation {s0 : State} {a1 s2} (h2 : Keeps s0 s2) : KeepsOut s0 (execBitSynchronisation a1 s2) := by
  unfold execBitSynchronisation
  refine KeepsOut.liveIf ?_ ?_
  · exact h2
  · exact keeps_State_setReg (keeps_State_setF h2)

theorem keeps_execDataBit {s0 : State} {a1 a2 s3} (h3 : Keeps s0 s3) : KeepsOut s0 (execDataBit a1 a2 s3) := by
  unfold execDataBit
  refine KeepsOut.liveIf ?_ ?_
  · exact h3
  · exact keeps_State_wrap (keeps_State_setReg h3)

end Sys2Proof.Laws
end

