-- ==== Sys2Proof/Laws/KeepSolve.lean ====
section
/-! SUPPORT. The operations and meanings of Machine/Eth, Lanes, Fio, Flt, Control, Can keep the command queue and the invariant: one lemma
each. -/

namespace Sys2Proof.Laws

open Sys2Proof.Machine

theorem setNth_mem {α : Type} {l : List α} {n : Nat} {v x : α} (h : x ∈ setNth l n v) : x = v ∨ x ∈ l := by
  induction l generalizing n with
  | nil => exact absurd h (by simp [setNth])
  | cons y l ih =>
    cases n with
    | zero =>
      rcases List.mem_cons.1 h with h | h
      · exact .inl h
      · exact .inr (List.mem_cons_of_mem _ h)
    | succ n =>
      rcases List.mem_cons.1 h with h | h
      · exact .inr (h ▸ List.mem_cons_self)
      · exact (ih h).imp id (List.mem_cons_of_mem _)

theorem getD_of_all {α : Type} {p : α → Prop} {l : List α} {d : α} (h : ∀ x ∈ l, p x) (hd : p d) (k : Nat) : p (l.getD k d) := by
  rw [List.getD_eq_getElem?_getD]
  rcases hk : l[k]? with _ | x
  · exact hd
  · exact h x (List.mem_of_getElem? hk)

theorem eth_bounded {s : State} (i : s.Inv) (k : Nat) : (s.ethOf k).bounded := getD_of_all i.eth ⟨by decide, by decide⟩ k

theorem keeps_State_setEth {s0 : State} {s1 a2 a3} (h1 : Keeps s0 s1) (hb : s0.Inv → a3.bounded) : Keeps s0 (State.setEth s1 a2 a3) := by
  refine ⟨h1.1, fun i => { h1.2 i with mem := (h1.2 i).mem, eth := fun x hx => ?_ }⟩
  rcases setNth_mem hx with h | h
  · exact h ▸ hb i
  · exact (h1.2 i).eth x h

theorem keeps_State_ethBusErr {s0 : State} {s1 a2} (h1 : Keeps s0 s1) : Keeps s0 (State.ethBusErr s1 a2) := by
  unfold State.ethBusErr
  refine keeps_State_raise ?_
  · refine keeps_State_setF ?_
    · refine keeps_State_setEth ?_ ?_
      · exact h1
      · exact fun i => eth_bounded (h1.2 i) _

theorem keeps_State_ethDeliver {s0 : State} {s1 a2 a3 a4 a5} (h1 : Keeps s0 s1) : Keeps s0 (State.ethDeliver s1 a2 a3 a4 a5) := by
  unfold State.ethDeliver
  extract_lets -underBinder -merge -useContext +onlyGivenNames x0
  extract_lets -underBinder -merge -useContext +onlyGivenNames x1
  extract_lets -underBinder -merge -useContext +onlyGivenNames x2
  have hx2 : Keeps s0 x2.st := Keeps.replyOf (y := State.mRead _ _ _ _) rfl (keeps_State_mRead h1)
  clear_value x2
  refine Keeps.ite ?_ ?_
  · refine keeps_State_ethBusErr ?_
    · exact hx2
  · extract_lets -underBinder -merge -useContext +onlyGivenNames x3
    refine Keeps.ite ?_ ?_
    · refine keeps_State_raise ?_
      · refine keeps_State_stick ?_
        · exact hx2
    · extract_lets -underBinder -merge -useContext +onlyGivenNames x4
      have hx4 : Keeps s0 x4.st := by
        refine keeps_State_mWrite ?_
        · exact hx2
      clear_value x4
      refine Keeps.ite ?_ ?_
      · refine keeps_State_ethBusErr ?_
        · exact hx4
      · extract_lets -underBinder -merge -useContext +onlyGivenNames x5
        extract_lets -underBinder -merge -useContext +onlyGivenNames x6
        have hx6 : Keeps s0 x6.st := by
          refine keeps_State_mWrite ?_
          · exact hx4
        clear_value x6
        refine Keeps.ite ?_ ?_
        · refine keeps_State_ethBusErr ?_
          · exact hx6
        · extract_lets -underBinder -merge -useContext +onlyGivenNames x7
          have hx7 : Keeps s0 x7 := by
            refine keeps_State_wrap ?_
            · refine keeps_State_setF ?_
              · exact hx6
          clear_value x7
          exact Keeps.ite (keeps_State_raise hx7) hx7

theorem keeps_State_keepDelayReq {s0 : State} {s1 a2 a3 a4} (h1 : Keeps s0 s1) : Keeps s0 (State.keepDelayReq s1 a2 a3 a4) := by
  unfold State.keepDelayReq
  repeat' first | split | extract_lets
  all_goals first
    | exact h1
    | exact keeps_State_setEth h1 fun i => ⟨by simp only [List.length_take]; omega, (eth_bounded (h1.2 i) _).2⟩

theorem keeps_State_ethTake {s0 : State} {s1 a2 a3 a4} (h1 : Keeps s0 s1) : Keeps s0 (State.ethTake s1 a2 a3 a4) := by
  unfold State.ethTake
  extract_lets ts x o
  have hx : Keeps s0 x := keeps_State_keepDelayReq h1
  split
  · split
    · rename_i hl
      refine keeps_State_ethDeliver (keeps_State_setEth hx fun i => ⟨(eth_bounded (hx.2 i) _).1, ?_⟩)
      simp only [List.length_append, List.length_singleton]
      omega
    · exact keeps_State_ethDeliver (keeps_State_stick hx)
  · exact keeps_State_ethDeliver hx

theorem keeps_State_pauseRx {s0 : State} {s1 a2 a3 t} (h1 : Keeps s0 s1) (ht : State.pauseRx s1 a2 a3 = some t) : Keeps s0 t := by
  unfold State.pauseRx at ht
  split at ht
  · cases ht
    exact keeps_State_setEth h1 fun i => eth_bounded (h1.2 i) _
  · exact absurd ht (by simp)

theorem keeps_doEthRx {s0 : State} {s1 a2 a3 a4 a5} (h1 : Keeps s0 s1) : Keeps s0 (doEthRx s1 a2 a3 a4 a5) := by
  unfold doEthRx
  refine Keeps.ite h1 (Keeps.ite (keeps_State_stick h1) ?_)
  split
  · rename_i ht
    exact keeps_State_pauseRx h1 ht
  · exact Keeps.ite (keeps_State_ethTake h1) h1

theorem keeps_State_ethTransitTx {s0 : State} {s1 a2 a3 a4} (h1 : Keeps s0 s1) : Keeps s0 (State.ethTransitTx s1 a2 a3 a4) := by
  unfold State.ethTransitTx
  extract_lets
  refine keeps_State_wrap (keeps_State_wrap (keeps_State_send (keeps_State_setEth h1 fun i => ⟨(eth_bounded (h1.2 i) _).1, ?_⟩)))
  have : (s1.ethOf a2).transit.length ≤ 8 := (eth_bounded (h1.2 i) a2).2
  show ((s1.ethOf a2).transit.drop 1).length ≤ 8
  rw [List.length_drop]
  omega

theorem keeps_State_txDesc {s0 : State} {s1 a2} (h1 : Keeps s0 s1) : Keeps s0 (State.txDesc s1 a2).1 := by
  unfold State.txDesc
  split
  · refine Keeps.pair ?_
    exact h1
  · extract_lets -underBinder -merge -useContext +onlyGivenNames x0
    extract_lets -underBinder -merge -useContext +onlyGivenNames x1
    have hx1 : Keeps s0 x1.st := Keeps.replyOf (y := State.mRead _ _ _ _) rfl (keeps_State_mRead h1)
    clear_value x1
    split
    · refine Keeps.pair ?_
      refine keeps_State_ethBusErr ?_
      · exact hx1
    · split
      · refine Keeps.pair ?_
        exact hx1
      · refine Keeps.pair ?_
        exact hx1

theorem keeps_State_ethRingTx {s0 : State} {s1 a2 a3 a4} (h1 : Keeps s0 s1) : Keeps s0 (State.ethRingTx s1 a2 a3 a4) := by
  unfold State.ethRingTx
  extract_lets +onlyGivenNames n fl good r
  have hr : Keeps s0 r.st := keeps_State_mRead h1
  clear_value r
  split
  · exact keeps_State_ethBusErr hr
  · extract_lets +onlyGivenNames x
    have hx : Keeps s0 x := Keeps.ite hr h1
    clear_value x
    split
    extract_lets +onlyGivenNames y fl2 q
    have hy : Keeps s0 y := Keeps.ite (keeps_State_wrap (keeps_State_send hx)) hx
    clear_value y
    have hq : Keeps s0 q.st := keeps_State_mWrite hy
    clear_value q
    split
    · exact keeps_State_ethBusErr hq
    · extract_lets -merge -useContext h z0 z
      have hz : Keeps s0 z := keeps_State_setEth (keeps_State_setF hq) fun i => eth_bounded (hq.2 i) a2
      exact Keeps.ite (keeps_State_raise hz) hz

theorem popReplay_length {l : List (List (List Byte))} {b q} (h : popReplay l = some (b, q)) : q.length ≤ l.length := by
  induction l with
  | nil => exact absurd h (by simp [popReplay])
  | cons e l ih =>
    cases e with
    | nil =>
      have := ih h
      simp only [List.length_cons]
      omega
    | cons d r =>
      simp only [popReplay] at h
      cases h
      split <;> simp

theorem keeps_State_ethReplayTx {s0 : State} {s1 a2} (h1 : Keeps s0 s1) : Keeps s0 (State.ethReplayTx s1 a2) := by
  unfold State.ethReplayTx
  split
  · exact h1
  · rename_i hq
    refine keeps_State_wrap (keeps_State_send (keeps_State_setEth ?_ fun i => eth_bounded (h1.2 i) _))
    exact ⟨h1.1, fun i => { h1.2 i with mem := (h1.2 i).mem, replay := Nat.le_trans (popReplay_length hq) (h1.2 i).replay }⟩

theorem keeps_doEthTx {s0 : State} {s1 a2} (h1 : Keeps s0 s1) : Keeps s0 (doEthTx s1 a2) := by
  unfold doEthTx
  split
  · exact keeps_State_ethTransitTx h1
  · refine Keeps.ite ?_ ?_
    · exact keeps_State_ethReplayTx h1
    · split
      · rename_i x1 y2 z4 he3
        have hq0 : Keeps s0 x1 := by
          have e := congrArg Prod.fst he3
          dsimp only at e
          rw [← e]
          refine keeps_State_txDesc ?_
          · exact h1
        exact keeps_State_ethRingTx hq0
      · rename_i x5   he7
        have hq0 : Keeps s0 x5 := by
          have e := congrArg Prod.fst he7
          dsimp only at e
          rw [← e]
          refine keeps_State_txDesc ?_
          · exact h1
        exact Keeps.ite (keeps_State_ethReplayTx hq0) hq0

theorem keeps_doEthTail {s0 : State} {s1 a2 a3 a4} (h1 : Keeps s0 s1) : Keeps s0 (doEthTail s1 a2 a3 a4) := by
  unfold doEthTail
  exact keeps_State_ok (keeps_State_setF h1)

theorem keeps_doEthCalGo {s0 : State} {s1 a2} (h1 : Keeps s0 s1) : Keeps s0 (doEthCalGo s1 a2) := by
  unfold doEthCalGo
  exact keeps_State_ok (Keeps.ite h1 (keeps_State_setF h1))

theorem keeps_doEthCalDone {s0 : State} {s1 a2 a3 a4} (h1 : Keeps s0 s1) : Keeps s0 (doEthCalDone s1 a2 a3 a4) := by
  unfold doEthCalDone
  extract_lets -underBinder -merge -useContext +onlyGivenNames x0
  have hx0 : Keeps s0 x0 := (keeps_State_setF h1)
  clear_value x0
  refine Keeps.ite ?_ ?_
  · exact keeps_State_setF hx0
  · extract_lets -underBinder -merge -useContext +onlyGivenNames x1
    exact keeps_State_raise (keeps_State_setF (keeps_State_setF (keeps_State_setF (keeps_State_setF hx0))))

theorem keeps_execEthTxDone {s0 : State} {a1 s2} (h2 : Keeps s0 s2) : KeepsOut s0 (execEthTxDone a1 s2) := by
  unfold execEthTxDone
  refine KeepsOut.liveIf ?_ ?_
  · exact h2
  · exact keeps_doEthTx h2

theorem keeps_execEthRingTail {s0 : State} {a1 a2 a3 s4} (h4 : Keeps s0 s4) : KeepsOut s0 (execEthRingTail a1 a2 a3 s4) := by
  unfold execEthRingTail
  refine KeepsOut.liveIf ?_ ?_
  · exact h4
  · exact keeps_doEthTail h4

theorem keeps_execEthLinkDown {s0 : State} {a1 s2} (h2 : Keeps s0 s2) : KeepsOut s0 (execEthLinkDown a1 s2) := by
  unfold execEthLinkDown
  refine KeepsOut.liveIf ?_ ?_
  · exact h2
  · exact keeps_State_raise (keeps_State_setF (keeps_State_setF h2))

theorem keeps_execEthLinkUp {s0 : State} {a1 s2} (h2 : Keeps s0 s2) : KeepsOut s0 (execEthLinkUp a1 s2) := by
  unfold execEthLinkUp
  refine KeepsOut.liveIf ?_ ?_
  · exact h2
  · exact keeps_State_setF (keeps_State_setF h2)

theorem keeps_execEthCalGo {s0 : State} {a1 s2} (h2 : Keeps s0 s2) : KeepsOut s0 (execEthCalGo a1 s2) := by
  unfold execEthCalGo
  refine KeepsOut.liveIf ?_ ?_
  · exact h2
  · exact keeps_doEthCalGo h2

theorem keeps_execEthCalDone {s0 : State} {a1 a2 a3 s4} (h4 : Keeps s0 s4) : KeepsOut s0 (execEthCalDone a1 a2 a3 s4) := by
  unfold execEthCalDone
  refine KeepsOut.liveIf ?_ ?_
  · exact h4
  · exact keeps_doEthCalDone h4

theorem keeps_State_setLane {s0 : State} {s1 a2 a3} (h1 : Keeps s0 s1) : Keeps s0 (State.setLane s1 a2 a3) := by
  unfold State.setLane
  exact Keeps.same h1

theorem keeps_State_storeVerdict {s0 : State} {s1 a2} (h1 : Keeps s0 s1) : Keeps s0 (State.storeVerdict s1 a2) := by
  unfold State.storeVerdict
  extract_lets -underBinder -merge -useContext +onlyGivenNames x0
  refine keeps_State_mWrite ?_
  · exact h1

theorem keeps_State_feedFusion {s0 : State} {s1 a2} (h1 : Keeps s0 s1) : Keeps s0 (State.feedFusion s1 a2) := by
  unfold State.feedFusion
  extract_lets -underBinder -merge -useContext +onlyGivenNames x0
  exact Keeps.ite h1 (Keeps.ite (Keeps.same h1) (Keeps.ite (Keeps.same h1) h1))

theorem keeps_State_storeJob {s0 : State} {s1 a2 a3 a4} (h1 : Keeps s0 s1) : Keeps s0 (State.storeJob s1 a2 a3 a4) := by
  unfold State.storeJob
  extract_lets -underBinder -merge -useContext +onlyGivenNames x0
  extract_lets -underBinder -merge -useContext +onlyGivenNames x1
  extract_lets -underBinder -merge -useContext +onlyGivenNames x2
  have hx2 : Keeps s0 x2.st := by
    unfold x2
    split
    · refine Keeps.reply ?_
      exact h1
    · refine keeps_State_mWrite ?_
      · exact h1
  clear_value x2
  extract_lets -underBinder -merge -useContext +onlyGivenNames x3
  have hx3 : Keeps s0 x3.st := by
    refine keeps_State_mWrite ?_
    · exact hx2
  clear_value x3
  extract_lets -underBinder -merge -useContext +onlyGivenNames x4
  extract_lets -underBinder -merge -useContext +onlyGivenNames x5
  extract_lets -underBinder -merge -useContext +onlyGivenNames x6 x7 x8
  have hx6 : Keeps s0 x6 := by
    unfold x6
    exact hx3
  clear_value x6
  have hx8 : Keeps s0 x8 := (Keeps.same hx6)
  clear_value x8
  extract_lets -underBinder -merge -useContext +onlyGivenNames x9
  have hx9 : Keeps s0 x9 := (Keeps.ite (keeps_State_raise hx8) (Keeps.ite (keeps_State_raise hx8) (Keeps.ite (keeps_State_raise hx8) hx8)))
  clear_value x9
  extract_lets -underBinder -merge -useContext +onlyGivenNames x10 x11
  have hx10 : Keeps s0 x10 := (keeps_State_setF (keeps_State_setF (keeps_State_setF hx9)))
  clear_value x10
  have hx11 : Keeps s0 x11 := (Keeps.ite (Keeps.ite (keeps_State_wrap hx10) hx10) hx9)
  clear_value x11
  extract_lets -underBinder -merge -useContext +onlyGivenNames x12
  have hx12 : Keeps s0 x12 := (Keeps.ite (keeps_State_storeVerdict hx11) hx11)
  clear_value x12
  extract_lets -underBinder -merge -useContext +onlyGivenNames x13
  have hx13 : Keeps s0 x13 := by
    unfold x13
    refine Keeps.ite ?_ ?_
    · refine keeps_State_mWrite ?_
      · exact hx12
    · exact hx12
  clear_value x13
  exact Keeps.ite (keeps_State_feedFusion hx13) hx13

theorem keeps_State_settle {s0 : State} {s1 a2 a3 a4} (h1 : Keeps s0 s1) : Keeps s0 (State.settle s1 a2 a3 a4) := by
  unfold State.settle
  extract_lets -underBinder -merge -useContext +onlyGivenNames x0
  extract_lets -underBinder -merge -useContext +onlyGivenNames x1
  extract_lets -underBinder -merge -useContext +onlyGivenNames x2
  extract_lets -underBinder -merge -useContext +onlyGivenNames x3
  extract_lets -underBinder -merge -useContext +onlyGivenNames x4
  have hx4 : ∀ y5 y6, Keeps s0 (x4 y5 y6) := by
    intro y5 y6 
    unfold x4
    extract_lets -underBinder -merge -useContext +onlyGivenNames x7 x8
    exact keeps_State_storeJob h1
  clear_value x4
  extract_lets -underBinder -merge -useContext +onlyGivenNames x9
  have hx9 : ∀ y10 y11, Keeps s0 (x9 y10 y11) := by
    intro y10 y11 
    unfold x9
    exact keeps_State_storeJob h1
  clear_value x9
  refine Keeps.ite ?_ ?_
  · extract_lets -underBinder -merge -useContext +onlyGivenNames x12
    refine Keeps.ite ?_ ?_
    · extract_lets -underBinder -merge -useContext +onlyGivenNames x13 x14
      exact keeps_State_storeJob h1
    · refine hx9 _ _
  · refine Keeps.ite ?_ ?_
    · refine hx9 _ _
    · refine Keeps.ite ?_ ?_
      · refine hx9 _ _
      · refine Keeps.ite ?_ ?_
        · refine Keeps.ite ?_ ?_
          · refine hx4 _ _
          · refine hx9 _ _
        · refine Keeps.ite ?_ ?_
          · refine Keeps.ite ?_ ?_
            · refine hx4 _ _
            · refine hx9 _ _
          · split
            · exact h1
            · refine Keeps.ite ?_ ?_
              · refine hx9 _ _
              · refine hx9 _ _

theorem keeps_State_lscB10 {s0 : State} {s1} (h1 : Keeps s0 s1) : Keeps s0 (State.lscB10 s1) := by
  unfold State.lscB10
  refine Keeps.ite ?_ ?_
  · exact h1
  · extract_lets -underBinder -merge -useContext +onlyGivenNames x0 x1
    extract_lets -underBinder -merge -useContext +onlyGivenNames x2
    refine Keeps.ite ?_ ?_
    · extract_lets -underBinder -merge -useContext +onlyGivenNames x3 x4
      have hx4 : Keeps s0 x4 := (Keeps.same h1)
      clear_value x4
      extract_lets -underBinder -merge -useContext +onlyGivenNames x5
      have hx5 : ∀ y6 y7 y8 y9, Keeps s0 y6 → Keeps s0 (x5 y6 y7 y8 y9) := by
        intro y6 y7 y8 y9 hy6
        unfold x5
        extract_lets -underBinder -merge -useContext +onlyGivenNames x10
        extract_lets -underBinder -merge -useContext +onlyGivenNames x11
        exact keeps_State_storeJob hy6
      clear_value x5
      refine hx5 _ _ _ _ ?_
      · refine hx5 _ _ _ _ ?_
        · exact hx4
    · extract_lets -underBinder -merge -useContext +onlyGivenNames x12
      extract_lets -underBinder -merge -useContext +onlyGivenNames x13 x14
      have hx14 : Keeps s0 x14 := (Keeps.same h1)
      clear_value x14
      extract_lets -underBinder -merge -useContext +onlyGivenNames x15
      extract_lets -underBinder -merge -useContext +onlyGivenNames x16
      extract_lets -underBinder -merge -useContext +onlyGivenNames x17
      extract_lets -underBinder -merge -useContext +onlyGivenNames x18
      extract_lets -underBinder -merge -useContext +onlyGivenNames x19
      extract_lets -underBinder -merge -useContext +onlyGivenNames x20
      have hx20 : Keeps s0 x20 := by
        unfold x20
        clear_value x18
        split
        · exact hx14
        · extract_lets -underBinder -merge -useContext +onlyGivenNames x21
          extract_lets -underBinder -merge -useContext +onlyGivenNames x22
          exact Keeps.same hx14
      clear_value x20
      extract_lets -underBinder -merge -useContext +onlyGivenNames x23
      have hx23 : Keeps s0 x23 := by
        unfold x23
        clear_value x17
        split
        · exact keeps_State_setF hx20
        · exact hx20
      clear_value x23
      extract_lets -underBinder -merge -useContext +onlyGivenNames x24
      extract_lets -underBinder -merge -useContext +onlyGivenNames x25
      have hx25 : Keeps s0 x25 := (Keeps.foldl (fun _ _ hx26 => (keeps_State_settle hx26)) hx23)
      clear_value x25
      refine Keeps.ite ?_ ?_
      · exact hx25
      · extract_lets -underBinder -merge -useContext +onlyGivenNames x28
        extract_lets -underBinder -merge -useContext +onlyGivenNames x29
        extract_lets -underBinder -merge -useContext +onlyGivenNames x30
        extract_lets -underBinder -merge -useContext +onlyGivenNames x31 x32
        have hx32 : Keeps s0 x32 := (Keeps.same hx25)
        clear_value x32
        extract_lets -underBinder -merge -useContext +onlyGivenNames x33
        have hx33 : Keeps s0 x33 := (Keeps.ite (keeps_State_raise hx32) hx32)
        clear_value x33
        refine Keeps.foldl (fun x34 y35 hx34 => ?_) ?_
        · try beta_reduce
          split
          · refine Keeps.ite ?_ ?_
            · extract_lets -underBinder -merge -useContext +onlyGivenNames x36 x37
              exact keeps_State_storeJob hx34
            · exact Keeps.ite (keeps_State_storeJob hx34) (keeps_State_setLane hx34)
        · exact hx33

theorem keeps_State_laneCe {s0 : State} {s1 a2} (h1 : Keeps s0 s1) : Keeps s0 (State.laneCe s1 a2).1 := by
  unfold State.laneCe
  extract_lets -underBinder -merge -useContext +onlyGivenNames x0
  refine Keeps.pair ?_
  exact keeps_State_stick h1

theorem keeps_State_laneEnd {s0 : State} {s1 a2} (h1 : Keeps s0 s1) : Keeps s0 (State.laneEnd s1 a2) := by
  unfold State.laneEnd
  exact keeps_State_setLane (keeps_State_scramble h1)

theorem keeps_State_laneLoad {s0 : State} {s1 a2 a3} (h1 : Keeps s0 s1) : Keeps s0 (State.laneLoad s1 a2 a3) := by
  unfold State.laneLoad
  extract_lets -underBinder -merge -useContext +onlyGivenNames x0
  extract_lets -underBinder -merge -useContext +onlyGivenNames x1
  extract_lets -underBinder -merge -useContext +onlyGivenNames x2
  have hx2 : Keeps s0 x2.st := Keeps.replyOf (y := State.mRead _ _ _ _) rfl (keeps_State_mRead h1)
  clear_value x2
  extract_lets -underBinder -merge -useContext +onlyGivenNames x3
  extract_lets -underBinder -merge -useContext +onlyGivenNames x4
  have hx4 : Keeps s0 x4.st := by
    unfold x4
    split
    · refine keeps_State_mRead ?_
      · exact hx2
    · refine Keeps.reply ?_
      exact hx2
  clear_value x4
  extract_lets -underBinder -merge -useContext +onlyGivenNames x5
  extract_lets -underBinder -merge -useContext +onlyGivenNames x6
  have hx6 : Keeps s0 x6 := by
    unfold x6
    exact hx4
  clear_value x6
  extract_lets -underBinder -merge -useContext +onlyGivenNames x7 x8
  have hx8 : Keeps s0 x8 := (Keeps.ite (Keeps.same hx6) hx6)
  clear_value x8
  extract_lets -underBinder -merge -useContext +onlyGivenNames x9
  have hx9 : Keeps s0 x9.st := by
    unfold x9
    split
    · refine keeps_State_mRead ?_
      · exact hx8
    · refine Keeps.reply ?_
      exact hx8
  clear_value x9
  extract_lets -underBinder -merge -useContext +onlyGivenNames x10 x11 x12
  have hx10 : Keeps s0 x10 := by
    unfold x10
    exact hx9
  clear_value x10
  have hx12 : Keeps s0 x12 := by
    unfold x12
    refine Keeps.ite ?_ ?_
    · exact Keeps.same hx10
    · exact hx9
  clear_value x12
  extract_lets -underBinder -merge -useContext +onlyGivenNames x13
  extract_lets -underBinder -merge -useContext +onlyGivenNames x14
  have hx14 : Keeps s0 x14 := (keeps_State_setLane (keeps_State_scramble hx12))
  clear_value x14
  refine Keeps.ite ?_ ?_
  · extract_lets -underBinder -merge -useContext +onlyGivenNames x15 x16
    exact keeps_State_laneEnd (keeps_State_storeJob hx14)
  · exact Keeps.ite (keeps_State_laneEnd (keeps_State_storeJob hx14)) hx14

theorem keeps_State_laneUe {s0 : State} {s1 a2 a3} (h1 : Keeps s0 s1) : Keeps s0 (State.laneUe s1 a2 a3) := by
  unfold State.laneUe
  extract_lets -underBinder -merge -useContext +onlyGivenNames x0
  have hx0 : Keeps s0 x0 := (keeps_State_stick h1)
  clear_value x0
  extract_lets -underBinder -merge -useContext +onlyGivenNames x1 x2
  have hx2 : Keeps s0 x2 := (Keeps.same hx0)
  clear_value x2
  extract_lets -underBinder -merge -useContext +onlyGivenNames x3 x4
  extract_lets -underBinder -merge -useContext +onlyGivenNames x5
  extract_lets -underBinder -merge -useContext +onlyGivenNames x6
  exact keeps_State_laneEnd (keeps_State_storeJob hx2)

theorem keeps_State_laneDone {s0 : State} {s1 a2 a3 a4} (h1 : Keeps s0 s1) : Keeps s0 (State.laneDone s1 a2 a3 a4) := by
  unfold State.laneDone
  refine Keeps.ite ?_ ?_
  · exact keeps_State_laneUe h1
  · split
    · rename_i x1 y2  he3
      have hq0 : Keeps s0 x1 := by
        have e := congrArg Prod.fst he3
        dsimp only at e
        rw [← e]
        refine keeps_State_laneCe ?_
        · exact h1
      split
      · exact keeps_State_laneEnd (keeps_State_storeJob hq0)
      · extract_lets -underBinder -merge -useContext +onlyGivenNames x4
        exact keeps_State_laneEnd (keeps_State_storeJob hq0)

theorem keeps_State_laneReset {s0 : State} {s1 a2} (h1 : Keeps s0 s1) : Keeps s0 (State.laneReset s1 a2) := by
  unfold State.laneReset
  split
  · refine Keeps.ite ?_ ?_
    · extract_lets -underBinder -merge -useContext +onlyGivenNames x0 x1
      exact keeps_State_laneEnd (keeps_State_storeJob h1)
    · exact h1
  · exact h1

theorem keeps_State_passBanks {s0 : State} {s1 a2 a3} (h1 : Keeps s0 s1) : Keeps s0 (State.passBanks s1 a2 a3) := by
  unfold State.passBanks
  exact Keeps.foldl (fun _ _ hx0 => (keeps_State_framePass hx0)) h1

theorem keeps_State_lscFinish {s0 : State} {s1} (h1 : Keeps s0 s1) : Keeps s0 (State.lscFinish s1) := by
  unfold State.lscFinish
  extract_lets -underBinder -merge -useContext +onlyGivenNames x0
  extract_lets -underBinder -merge -useContext +onlyGivenNames x1
  extract_lets -underBinder -merge -useContext +onlyGivenNames x2
  extract_lets -underBinder -merge -useContext +onlyGivenNames x3
  extract_lets -underBinder -merge -useContext +onlyGivenNames x4
  extract_lets -underBinder -merge -useContext +onlyGivenNames x5
  have hx5 : Keeps s0 x5 := (keeps_State_setF (keeps_State_setF (keeps_State_setF (keeps_State_setF h1))))
  clear_value x5
  extract_lets -underBinder -merge -useContext +onlyGivenNames x6
  extract_lets -underBinder -merge -useContext +onlyGivenNames x7
  have hx7 : Keeps s0 x7 := by
    unfold x7
    refine keeps_State_mWrite ?_
    · exact hx5
  clear_value x7
  extract_lets -underBinder -merge -useContext +onlyGivenNames x8
  have hx8 : Keeps s0 x8 := by
    unfold x8
    refine keeps_State_mWrite ?_
    · exact hx7
  clear_value x8
  extract_lets -underBinder -merge -useContext +onlyGivenNames x9
  extract_lets -underBinder -merge -useContext +onlyGivenNames x10
  extract_lets -underBinder -merge -useContext +onlyGivenNames x11
  have hx11 : Keeps s0 x11 := (keeps_State_setF (keeps_State_setF hx8))
  clear_value x11
  extract_lets -underBinder -merge -useContext +onlyGivenNames x12
  have hx12 : Keeps s0 x12 := (Keeps.ite hx11 (keeps_State_stick hx11))
  clear_value x12
  extract_lets -underBinder -merge -useContext +onlyGivenNames x13
  have hx13 : Keeps s0 x13 := (keeps_State_passBanks hx12)
  clear_value x13
  exact Keeps.same hx13

theorem keeps_State_cutLane {s0 : State} {s1 a2 a3} (h1 : Keeps s0 s1) : Keeps s0 (State.cutLane s1 a2 a3) := by
  unfold State.cutLane
  extract_lets -underBinder -merge -useContext +onlyGivenNames x0
  split
  · exact h1
  · extract_lets -underBinder -merge -useContext +onlyGivenNames x1
    extract_lets -underBinder -merge -useContext +onlyGivenNames x2
    extract_lets -underBinder -merge -useContext +onlyGivenNames x3
    have hx3 : ∀ y4 y5, Keeps s0 y4 → Keeps s0 (x3 y4 y5) := by
      intro y4 y5 hy4
      unfold x3
      exact keeps_State_setLane hy4
    clear_value x3
    refine Keeps.ite ?_ ?_
    · refine hx3 _ _ ?_
      · exact h1
    · refine Keeps.ite ?_ ?_
      · split
        · refine hx3 _ _ ?_
          · exact h1
        · refine Keeps.ite ?_ ?_
          · exact keeps_State_laneDone h1
          · refine Keeps.ite ?_ ?_
            · refine hx3 _ _ ?_
              · exact h1
            · refine Keeps.ite ?_ ?_
              · split
                · rename_i x7 y8  he9
                  have hq6 : Keeps s0 x7 := by
                    have e := congrArg Prod.fst he9
                    dsimp only at e
                    rw [← e]
                    refine keeps_State_laneCe ?_
                    · exact h1
                  split
                  · refine hx3 _ _ ?_
                    · exact hq6
                  · extract_lets -underBinder -merge -useContext +onlyGivenNames x10
                    refine Keeps.ite ?_ ?_
                    · refine hx3 _ _ ?_
                      · exact hq6
                    · exact keeps_State_laneDone hq6
              · refine hx3 _ _ ?_
                · exact h1
      · exact h1

theorem keeps_State_lscB34 {s0 : State} {s1 a2} (h1 : Keeps s0 s1) : Keeps s0 (State.lscB34 s1 a2) := by
  unfold State.lscB34
  refine Keeps.ite ?_ ?_
  · exact h1
  · extract_lets -underBinder -merge -useContext +onlyGivenNames x0
    have hx0 : Keeps s0 x0 := (Keeps.foldl (fun _ _ hx1 => (keeps_State_cutLane hx1)) h1)
    clear_value x0
    exact Keeps.ite hx0 (keeps_State_lscFinish hx0)

theorem keeps_State_storeWaiting {s0 : State} {s1} (h1 : Keeps s0 s1) : Keeps s0 (State.storeWaiting s1) := by
  unfold State.storeWaiting
  refine keeps_State_lscFinish ?_
  · refine Keeps.foldl (fun x0 y1 hx0 => ?_) ?_
    · try beta_reduce
      extract_lets -underBinder -merge -useContext +onlyGivenNames x2
      split
      · exact keeps_State_laneEnd (keeps_State_setLane (keeps_State_storeJob hx0))
      · exact hx0
    · exact h1

theorem keeps_State_noVerdicts {s0 : State} {s1} (h1 : Keeps s0 s1) : Keeps s0 (State.noVerdicts s1) := by
  unfold State.noVerdicts
  exact keeps_State_store (Keeps.same h1)

theorem keeps_State_noWarmStart {s0 : State} {s1} (h1 : Keeps s0 s1) : Keeps s0 (State.noWarmStart s1) := by
  unfold State.noWarmStart
  exact keeps_State_store h1

theorem keeps_State_rhoInit {s0 : State} {s1} (h1 : Keeps s0 s1) : Keeps s0 (State.rhoInit s1) := by
  unfold State.rhoInit
  extract_lets -underBinder -merge -useContext +onlyGivenNames x0
  extract_lets -underBinder -merge -useContext +onlyGivenNames x1
  extract_lets -underBinder -merge -useContext +onlyGivenNames x2
  have hx2 : Keeps s0 x2 := (keeps_State_setF h1)
  clear_value x2
  exact Keeps.same hx2

theorem keeps_State_lscB0 {s0 : State} {s1 a2} (h1 : Keeps s0 s1) : Keeps s0 (State.lscB0 s1 a2) := by
  unfold State.lscB0
  extract_lets -underBinder -merge -useContext +onlyGivenNames x0
  have hx0 : Keeps s0 x0 := (Keeps.ite (keeps_State_rhoInit h1) h1)
  clear_value x0
  exact Keeps.ite hx0 (keeps_State_noVerdicts hx0)

theorem keeps_State_rhoAdapt {s0 : State} {s1} (h1 : Keeps s0 s1) : Keeps s0 (State.rhoAdapt s1) := by
  unfold State.rhoAdapt
  split
  · exact h1
  · refine Keeps.ite ?_ ?_
    · extract_lets -underBinder -merge -useContext +onlyGivenNames x0
      extract_lets -underBinder -merge -useContext +onlyGivenNames x1
      extract_lets -underBinder -merge -useContext +onlyGivenNames x2
      extract_lets -underBinder -merge -useContext +onlyGivenNames x3
      extract_lets -underBinder -merge -useContext +onlyGivenNames x4
      exact Keeps.ite h1 (keeps_State_raise (keeps_State_setF h1))
    · exact h1

theorem keeps_State_verdictSum {s0 : State} {s1} (h1 : Keeps s0 s1) : Keeps s0 (State.verdictSum s1) := by
  unfold State.verdictSum
  extract_lets -underBinder -merge -useContext +onlyGivenNames x0
  extract_lets -underBinder -merge -useContext +onlyGivenNames x1
  extract_lets -underBinder -merge -useContext +onlyGivenNames x2
  extract_lets -underBinder -merge -useContext +onlyGivenNames x3
  extract_lets -underBinder -merge -useContext +onlyGivenNames x4
  extract_lets -underBinder -merge -useContext +onlyGivenNames x5
  extract_lets -underBinder -merge -useContext +onlyGivenNames x6
  have hx6 : Keeps s0 x6 := (keeps_State_setF (keeps_State_setF (keeps_State_setF (keeps_State_setF h1))))
  clear_value x6
  extract_lets -underBinder -merge -useContext +onlyGivenNames x7
  have hx7 : Keeps s0 x7 := (Keeps.ite (keeps_State_raise hx6) hx6)
  clear_value x7
  extract_lets -underBinder -merge -useContext +onlyGivenNames x8
  extract_lets -underBinder -merge -useContext +onlyGivenNames x9
  have hx9 : Keeps s0 x9 := (Keeps.ite (keeps_State_raise hx7) hx7)
  clear_value x9
  exact Keeps.same hx9

theorem keeps_State_ueRuns {s0 : State} {s1} (h1 : Keeps s0 s1) : Keeps s0 (State.ueRuns s1).1 := by
  unfold State.ueRuns
  extract_lets -underBinder -merge -useContext +onlyGivenNames x0
  extract_lets -underBinder -merge -useContext +onlyGivenNames x1
  extract_lets -underBinder -merge -useContext +onlyGivenNames x2
  have hx2 : Keeps s0 x2 := (keeps_forUp (fun _ _ hx3 => (keeps_State_setF hx3)) h1)
  clear_value x2
  refine Keeps.pair ?_
  exact Keeps.ite hx2 (keeps_State_raise hx2)

theorem keeps_State_lscB36 {s0 : State} {s1} (h1 : Keeps s0 s1) : Keeps s0 (State.lscB36 s1).1 := by
  unfold State.lscB36
  split
  · refine Keeps.pair ?_
    exact h1
  · refine keeps_State_ueRuns ?_
    · exact keeps_State_rhoAdapt (keeps_State_verdictSum h1)

theorem keeps_execLaneLoadDone {s0 : State} {a1 s2} (h2 : Keeps s0 s2) : KeepsOut s0 (execLaneLoadDone a1 s2) := by
  unfold execLaneLoadDone
  split
  · refine KeepsOut.live ?_ ?_
    · exact h2
    · exact h2
  · refine KeepsOut.liveIf ?_ ?_
    · exact h2
    · exact keeps_State_laneLoad h2

theorem keeps_execLaneJobDone {s0 : State} {a1 s2} (h2 : Keeps s0 s2) : KeepsOut s0 (execLaneJobDone a1 s2) := by
  unfold execLaneJobDone
  split
  · refine KeepsOut.live ?_ ?_
    · exact h2
    · exact h2
  · refine KeepsOut.liveIf ?_ ?_
    · exact h2
    · exact keeps_State_laneDone h2

theorem keeps_execLaneArrayDone {s0 : State} {s1} (h1 : Keeps s0 s1) : KeepsOut s0 (execLaneArrayDone s1) := by
  unfold execLaneArrayDone
  refine KeepsOut.liveIf ?_ ?_
  · exact h1
  · exact keeps_State_storeWaiting h1

theorem keeps_execLaneEccUe {s0 : State} {a1 s2} (h2 : Keeps s0 s2) : KeepsOut s0 (execLaneEccUe a1 s2) := by
  unfold execLaneEccUe
  split
  · refine KeepsOut.live ?_ ?_
    · exact h2
    · exact h2
  · refine KeepsOut.liveIf ?_ ?_
    · exact h2
    · exact keeps_State_laneUe h2

theorem keeps_State_fioFault {s0 : State} {s1} (h1 : Keeps s0 s1) : Keeps s0 (State.fioFault s1) := by
  unfold State.fioFault
  extract_lets -underBinder -merge -useContext +onlyGivenNames x0
  extract_lets -underBinder -merge -useContext +onlyGivenNames x1
  have hx1 : Keeps s0 x1 := (keeps_State_setF h1)
  clear_value x1
  exact Keeps.ite (keeps_State_raise hx1) hx1

theorem keeps_State_fioRefresh {s0 : State} {s1} (h1 : Keeps s0 s1) : Keeps s0 (State.fioRefresh s1) := by
  unfold State.fioRefresh
  refine Keeps.ite ?_ ?_
  · exact h1
  · extract_lets -underBinder -merge -useContext +onlyGivenNames x0
    extract_lets -underBinder -merge -useContext +onlyGivenNames x1
    extract_lets -underBinder -merge -useContext +onlyGivenNames x2
    extract_lets -underBinder -merge -useContext +onlyGivenNames x3
    extract_lets -underBinder -merge -useContext +onlyGivenNames x4
    extract_lets -underBinder -merge -useContext +onlyGivenNames x5 x6
    exact keeps_State_fioFault (keeps_State_send (keeps_State_setF (Keeps.same h1)))

theorem keeps_State_fioEdge {s0 : State} {s1} (h1 : Keeps s0 s1) : Keeps s0 (State.fioEdge s1) := by
  unfold State.fioEdge
  extract_lets -underBinder -merge -useContext +onlyGivenNames x0
  have hx0 : Keeps s0 x0 := (keeps_forUp (fun _ _ hx1 => (keeps_State_setReg hx1)) h1)
  clear_value x0
  extract_lets -underBinder -merge -useContext +onlyGivenNames x3
  exact Keeps.same hx0

theorem keeps_doPulse {s0 : State} {s1 a2} (h1 : Keeps s0 s1) : Keeps s0 (doPulse s1 a2) := by
  unfold doPulse
  exact keeps_State_wrap (Keeps.same h1)

theorem keeps_execFioFreeRefresh {s0 : State} {s1} (h1 : Keeps s0 s1) : KeepsOut s0 (execFioFreeRefresh s1) := by
  unfold execFioFreeRefresh
  refine KeepsOut.liveIf ?_ ?_
  · exact h1
  · exact keeps_State_fioRefresh h1

theorem keeps_State_setOut {s0 : State} {s1 a2} (h1 : Keeps s0 s1) : Keeps s0 (State.setOut s1 a2) := by
  unfold State.setOut
  exact Keeps.same h1

theorem keeps_execWdTrip {s0 : State} {s1} (h1 : Keeps s0 s1) : KeepsOut s0 (execWdTrip s1) := by
  unfold execWdTrip
  extract_lets -underBinder -merge -useContext +onlyGivenNames x0
  have hx0 : Keeps s0 x0 := (keeps_State_raise (keeps_State_setF h1))
  clear_value x0
  extract_lets -underBinder -merge -useContext +onlyGivenNames x1
  refine KeepsOut.liveIf ?_ ?_
  · exact h1
  · exact keeps_State_fioFault (keeps_State_setF (keeps_State_setOut hx0))

theorem keeps_doWdClr {s0 : State} {s1 a2} (h1 : Keeps s0 s1) : Keeps s0 (doWdClr s1 a2) := by
  unfold doWdClr
  exact keeps_State_ok (Keeps.ite (keeps_State_setF h1) h1)

theorem keeps_execFioWdClr {s0 : State} {a1 s2} (h2 : Keeps s0 s2) : KeepsOut s0 (execFioWdClr a1 s2) := by
  unfold execFioWdClr
  refine KeepsOut.live ?_ ?_
  · exact h2
  · exact keeps_doWdClr h2

theorem keeps_doFioCfg {s0 : State} {s1 a2} (h1 : Keeps s0 s1) : Keeps s0 (doFioCfg s1 a2) := by
  unfold doFioCfg
  extract_lets -underBinder -merge -useContext +onlyGivenNames x0
  exact keeps_State_ok (keeps_State_setReg h1)

theorem keeps_execFioEnableWrite {s0 : State} {a1 s2} (h2 : Keeps s0 s2) : KeepsOut s0 (execFioEnableWrite a1 s2) := by
  unfold execFioEnableWrite
  refine KeepsOut.live ?_ ?_
  · exact h2
  · exact keeps_doFioCfg h2

theorem keeps_execPulseEdge {s0 : State} {a1 s2} (h2 : Keeps s0 s2) : KeepsOut s0 (execPulseEdge a1 s2) := by
  unfold execPulseEdge
  refine KeepsOut.liveIf ?_ ?_
  · exact h2
  · exact keeps_doPulse h2

theorem keeps_execOutputTrip {s0 : State} {a1 s2} (h2 : Keeps s0 s2) : KeepsOut s0 (execOutputTrip a1 s2) := by
  unfold execOutputTrip
  extract_lets -underBinder -merge -useContext +onlyGivenNames x0 x1
  refine KeepsOut.liveIf ?_ ?_
  · exact h2
  · exact keeps_State_fioFault (Keeps.same h2)

theorem keeps_execIslandOvercurrent {s0 : State} {s1} (h1 : Keeps s0 s1) : KeepsOut s0 (execIslandOvercurrent s1) := by
  unfold execIslandOvercurrent
  refine KeepsOut.live ?_ ?_
  · exact h1
  · exact keeps_State_fioFault (Keeps.same h1)

theorem keeps_execLplusUndervoltage {s0 : State} {a1 s2} (h2 : Keeps s0 s2) : KeepsOut s0 (execLplusUndervoltage a1 s2) := by
  unfold execLplusUndervoltage
  refine KeepsOut.live ?_ ?_
  · exact h2
  · exact keeps_State_fioFault (Keeps.same h2)

theorem keeps_execLinkLost {s0 : State} {s1} (h1 : Keeps s0 s1) : KeepsOut s0 (execLinkLost s1) := by
  unfold execLinkLost
  extract_lets -underBinder -merge -useContext +onlyGivenNames x0 x1
  have hx1 : Keeps s0 x1 := (Keeps.same h1)
  clear_value x1
  refine KeepsOut.live ?_ ?_
  · exact h1
  · exact keeps_State_fioFault (keeps_State_raise (keeps_State_setReg (keeps_State_setF hx1)))

theorem keeps_execFieldLinkUp {s0 : State} {s1} (h1 : Keeps s0 s1) : KeepsOut s0 (execFieldLinkUp s1) := by
  unfold execFieldLinkUp
  refine KeepsOut.live ?_ ?_
  · exact h1
  · exact keeps_State_fioFault (keeps_State_setF (Keeps.same h1))

theorem keeps_execOutputMismatch {s0 : State} {a1 a2 s3} (h3 : Keeps s0 s3) : KeepsOut s0 (execOutputMismatch a1 a2 s3) := by
  unfold execOutputMismatch
  extract_lets -underBinder -merge -useContext +onlyGivenNames x0
  refine KeepsOut.liveIf ?_ ?_
  · exact h3
  · exact keeps_State_fioFault (Keeps.same h3)

theorem keeps_State_setFlt {s0 : State} {s1 a2 a3} (h1 : Keeps s0 s1) : Keeps s0 (State.setFlt s1 a2 a3) := by
  unfold State.setFlt
  exact Keeps.same h1

theorem keeps_doFineOutput {s0 : State} {s1 a2 a3} (h1 : Keeps s0 s1) : Keeps s0 (doFineOutput s1 a2 a3) := by
  unfold doFineOutput
  extract_lets -underBinder -merge -useContext +onlyGivenNames x0
  extract_lets -underBinder -merge -useContext +onlyGivenNames x1
  extract_lets -underBinder -merge -useContext +onlyGivenNames x2
  split
  · extract_lets -underBinder -merge -useContext +onlyGivenNames x3
    extract_lets -underBinder -merge -useContext +onlyGivenNames x4
    extract_lets -underBinder -merge -useContext +onlyGivenNames x5
    have hx5 : Keeps s0 x5 := (keeps_State_setReg (keeps_State_setReg (keeps_State_setFlt h1)))
    clear_value x5
    exact Keeps.ite (keeps_State_setF (keeps_State_stick hx5)) hx5

theorem keeps_doStepDetected {s0 : State} {s1 a2} (h1 : Keeps s0 s1) : Keeps s0 (doStepDetected s1 a2) := by
  unfold doStepDetected
  exact Keeps.ite (keeps_State_raise (keeps_State_stick (keeps_State_setF h1))) h1

theorem keeps_State_fltRestart {s0 : State} {s1 a2} (h1 : Keeps s0 s1) : Keeps s0 (State.fltRestart s1 a2) := by
  unfold State.fltRestart
  exact keeps_State_setF (keeps_State_setFlt h1)

theorem keeps_State_fltApply {s0 : State} {s1 a2} (h1 : Keeps s0 s1) : Keeps s0 (State.fltApply s1 a2) := by
  unfold State.fltApply
  extract_lets -underBinder -merge -useContext +onlyGivenNames x0 x1
  have hx1 : Keeps s0 x1 := (keeps_State_setFlt h1)
  clear_value x1
  exact keeps_State_setF (keeps_State_fltRestart hx1)

theorem keeps_State_fltDeliver {s0 : State} {s1 a2} (h1 : Keeps s0 s1) : Keeps s0 (State.fltDeliver s1 a2) := by
  unfold State.fltDeliver
  extract_lets -underBinder -merge -useContext +onlyGivenNames x0
  extract_lets -underBinder -merge -useContext +onlyGivenNames x1
  extract_lets -underBinder -merge -useContext +onlyGivenNames x2
  extract_lets -underBinder -merge -useContext +onlyGivenNames x3
  exact keeps_State_setF (keeps_State_setF (keeps_State_setReg h1))

theorem keeps_State_setFltHist {s0 : State} {s1 a2} (h1 : Keeps s0 s1) : Keeps s0 (State.setFltHist s1 a2) := by
  unfold State.setFltHist
  exact Keeps.same h1

theorem keeps_State_fltEdge {s0 : State} {s1} (h1 : Keeps s0 s1) : Keeps s0 (State.fltEdge s1) := by
  unfold State.fltEdge
  extract_lets -underBinder -merge -useContext +onlyGivenNames x0
  extract_lets -underBinder -merge -useContext +onlyGivenNames x1
  extract_lets -underBinder -merge -useContext +onlyGivenNames x2 x3
  have hx3 : Keeps s0 x3 := (Keeps.ite (Keeps.same h1) h1)
  clear_value x3
  extract_lets -underBinder -merge -useContext +onlyGivenNames x4
  have hx4 : Keeps s0 x4 := (keeps_forUp (fun _ _ hx5 => (keeps_State_fltDeliver (Keeps.ite (keeps_State_fltApply hx5) hx5))) hx3)
  clear_value x4
  extract_lets -underBinder -merge -useContext +onlyGivenNames x7
  exact keeps_State_setFltHist hx4

theorem keeps_doFltMclk {s0 : State} {s1 a2} (h1 : Keeps s0 s1) : Keeps s0 (doFltMclk s1 a2) := by
  unfold doFltMclk
  extract_lets -underBinder -merge -useContext +onlyGivenNames x0
  extract_lets -underBinder -merge -useContext +onlyGivenNames x1 x2
  have hx2 : Keeps s0 x2 := (Keeps.same h1)
  clear_value x2
  extract_lets -underBinder -merge -useContext +onlyGivenNames x3
  have hx3 : Keeps s0 x3 := (keeps_State_setF hx2)
  clear_value x3
  exact keeps_State_ok (Keeps.ite (keeps_State_setF hx3) (keeps_State_raise hx3))

theorem keeps_doFltCfg {s0 : State} {s1 a2 a3} (h1 : Keeps s0 s1) : Keeps s0 (doFltCfg s1 a2 a3) := by
  unfold doFltCfg
  extract_lets -underBinder -merge -useContext +onlyGivenNames x0
  extract_lets -underBinder -merge -useContext +onlyGivenNames x1
  extract_lets -underBinder -merge -useContext +onlyGivenNames x2
  extract_lets -underBinder -merge -useContext +onlyGivenNames x3
  extract_lets -underBinder -merge -useContext +onlyGivenNames x4
  extract_lets -underBinder -merge -useContext +onlyGivenNames x5
  extract_lets -underBinder -merge -useContext +onlyGivenNames x6
  extract_lets -underBinder -merge -useContext +onlyGivenNames x7 x8
  have hx8 : Keeps s0 x8 := (keeps_State_setFlt (keeps_State_setReg h1))
  clear_value x8
  exact keeps_State_ok (Keeps.ite hx8 (keeps_State_raise hx8))

theorem keeps_execFltCfgWrite {s0 : State} {a1 a2 s3} (h3 : Keeps s0 s3) : KeepsOut s0 (execFltCfgWrite a1 a2 s3) := by
  unfold execFltCfgWrite
  refine KeepsOut.liveIf ?_ ?_
  · exact h3
  · exact Keeps.ite (keeps_doFltMclk h3) (keeps_doFltCfg h3)

theorem keeps_doFltRestart {s0 : State} {s1 a2} (h1 : Keeps s0 s1) : Keeps s0 (doFltRestart s1 a2) := by
  unfold doFltRestart
  exact keeps_State_ok (keeps_State_setFlt h1)

theorem keeps_execFltRestart {s0 : State} {a1 s2} (h2 : Keeps s0 s2) : KeepsOut s0 (execFltRestart a1 s2) := by
  unfold execFltRestart
  refine KeepsOut.liveIf ?_ ?_
  · exact h2
  · exact keeps_doFltRestart h2

theorem keeps_execFineOutput {s0 : State} {a1 a2 s3} (h3 : Keeps s0 s3) : KeepsOut s0 (execFineOutput a1 a2 s3) := by
  unfold execFineOutput
  refine KeepsOut.liveIf ?_ ?_
  · exact h3
  · exact keeps_doFineOutput h3

theorem keeps_execStepDetected {s0 : State} {a1 s2} (h2 : Keeps s0 s2) : KeepsOut s0 (execStepDetected a1 s2) := by
  unfold execStepDetected
  refine KeepsOut.liveIf ?_ ?_
  · exact h2
  · exact keeps_doStepDetected h2

theorem keeps_execSettledReturn {s0 : State} {a1 s2} (h2 : Keeps s0 s2) : KeepsOut s0 (execSettledReturn a1 s2) := by
  unfold execSettledReturn
  refine KeepsOut.liveIf ?_ ?_
  · exact h2
  · exact keeps_State_setF h2

theorem keeps_execStuck {s0 : State} {a1 s2} (h2 : Keeps s0 s2) : KeepsOut s0 (execStuck a1 s2) := by
  unfold execStuck
  refine KeepsOut.liveIf ?_ ?_
  · exact h2
  · exact keeps_State_raise (keeps_State_setF (keeps_State_setF h2))

theorem keeps_execStuckClear {s0 : State} {a1 s2} (h2 : Keeps s0 s2) : KeepsOut s0 (execStuckClear a1 s2) := by
  unfold execStuckClear
  refine KeepsOut.liveIf ?_ ?_
  · exact h2
  · exact keeps_State_setFlt (keeps_State_setF h2)

theorem keeps_State_setSlot {s0 : State} {s1 a2 a3} (h1 : Keeps s0 s1) : Keeps s0 (State.setSlot s1 a2 a3) := by
  unfold State.setSlot
  exact Keeps.same h1

theorem keeps_State_setSlotI {s0 : State} {s1 a2 a3} (h1 : Keeps s0 s1) : Keeps s0 (State.setSlotI s1 a2 a3) := by
  unfold State.setSlotI
  exact keeps_State_setPair h1

theorem keeps_State_setMode {s0 : State} {s1 a2} (h1 : Keeps s0 s1) : Keeps s0 (State.setMode s1 a2) := by
  unfold State.setMode
  extract_lets -underBinder -merge -useContext +onlyGivenNames x0
  have hx0 : Keeps s0 x0 := (keeps_State_setF h1)
  clear_value x0
  exact Keeps.ite hx0 (keeps_State_raise hx0)

theorem keeps_State_playout {s0 : State} {s1} (h1 : Keeps s0 s1) : Keeps s0 (State.playout s1) := by
  unfold State.playout
  refine Keeps.ite ?_ ?_
  · exact h1
  · extract_lets -underBinder -merge -useContext +onlyGivenNames x0
    extract_lets -underBinder -merge -useContext +onlyGivenNames x1
    have hx1 : Keeps s0 x1 := (keeps_State_setF (keeps_State_setF h1))
    clear_value x1
    exact Keeps.ite (keeps_State_raise (Keeps.same hx1)) hx1

theorem keeps_State_putSlot {s0 : State} {s1 a2 a3} (h1 : Keeps s0 s1) : Keeps s0 (State.putSlot s1 a2 a3) := by
  unfold State.putSlot
  extract_lets -underBinder -merge -useContext +onlyGivenNames x0
  extract_lets -underBinder -merge -useContext +onlyGivenNames x1
  extract_lets -underBinder -merge -useContext +onlyGivenNames x2
  have hx2 : Keeps s0 x2 := (keeps_State_setSlotI (keeps_State_setReg (keeps_State_setReg (keeps_State_setReg h1))))
  clear_value x2
  extract_lets -underBinder -merge -useContext +onlyGivenNames x3
  have hx3 : Keeps s0 x3 := (keeps_State_setReg hx2)
  clear_value x3
  extract_lets -underBinder -merge -useContext +onlyGivenNames x4
  have hx4 : Keeps s0 x4 := (Keeps.ite (keeps_State_raise (keeps_State_setF hx3)) hx3)
  clear_value x4
  exact Keeps.ite (keeps_State_raise (keeps_State_setF hx4)) hx4

theorem keeps_State_evalSlot {s0 : State} {s1 a2} (h1 : Keeps s0 s1) : Keeps s0 (State.evalSlot s1 a2) := by
  unfold State.evalSlot
  extract_lets -underBinder -merge -useContext +onlyGivenNames x0
  extract_lets -underBinder -merge -useContext +onlyGivenNames x1
  have hx1 : Keeps s0 x1 := (keeps_State_putSlot h1)
  clear_value x1
  exact keeps_State_setSlot hx1

theorem keeps_State_evalSlots {s0 : State} {s1} (h1 : Keeps s0 s1) : Keeps s0 (State.evalSlots s1) := by
  unfold State.evalSlots
  refine Keeps.ite ?_ ?_
  · exact h1
  · extract_lets -underBinder -merge -useContext +onlyGivenNames x0
    have hx0 : Keeps s0 x0 := (keeps_forUp (fun _ _ hx1 => (keeps_State_evalSlot hx1)) (keeps_State_playout h1))
    clear_value x0
    exact Keeps.same hx0

theorem keeps_State_commitSlot {s0 : State} {s1 a2} (h1 : Keeps s0 s1) : Keeps s0 (State.commitSlot s1 a2) := by
  unfold State.commitSlot
  extract_lets -underBinder -merge -useContext +onlyGivenNames x0
  extract_lets -underBinder -merge -useContext +onlyGivenNames x1
  have hx1 : Keeps s0 x1 := (keeps_State_commitRegs h1)
  clear_value x1
  extract_lets -underBinder -merge -useContext +onlyGivenNames x2
  extract_lets -underBinder -merge -useContext +onlyGivenNames x3
  extract_lets -underBinder -merge -useContext +onlyGivenNames x4
  extract_lets -underBinder -merge -useContext +onlyGivenNames x5
  extract_lets -underBinder -merge -useContext +onlyGivenNames x6
  extract_lets -underBinder -merge -useContext +onlyGivenNames x7
  have hx7 : Keeps s0 x7 := (Keeps.ite (keeps_State_setReg (keeps_State_setSlotI hx1)) hx1)
  clear_value x7
  extract_lets -underBinder -merge -useContext +onlyGivenNames x8
  have hx8 : Keeps s0 x8 := (Keeps.ite (keeps_State_setSlotI hx7) hx7)
  clear_value x8
  extract_lets -underBinder -merge -useContext +onlyGivenNames x9
  have hx9 : Keeps s0 x9 := (Keeps.ite (keeps_State_setF hx8) hx8)
  clear_value x9
  exact keeps_State_setSlot (keeps_State_setF hx9)

theorem keeps_State_lockStep {s0 : State} {s1 a2} (h1 : Keeps s0 s1) : Keeps s0 (State.lockStep s1 a2) := by
  unfold State.lockStep
  refine Keeps.ite ?_ ?_
  · extract_lets -underBinder -merge -useContext +onlyGivenNames x0
    extract_lets -underBinder -merge -useContext +onlyGivenNames x1 x2
    have hx2 : Keeps s0 x2 := (keeps_State_setSlot h1)
    clear_value x2
    exact Keeps.ite (keeps_State_raise hx2) hx2
  · exact keeps_State_setSlot h1

theorem keeps_State_commitSlots {s0 : State} {s1 a2 a3} (h1 : Keeps s0 s1) : Keeps s0 (State.commitSlots s1 a2 a3) := by
  unfold State.commitSlots
  extract_lets -underBinder -merge -useContext +onlyGivenNames x0
  refine Keeps.ite ?_ ?_
  · exact h1
  · refine keeps_State_commitGen ?_
    · refine keeps_forUp (fun y2 x1 hx1 => ?_) ?_
      · extract_lets -underBinder -merge -useContext +onlyGivenNames x3
        exact Keeps.ite hx1 (keeps_State_commitSlot hx1)
      · exact h1

theorem keeps_State_fencePass {s0 : State} {s1} (h1 : Keeps s0 s1) : Keeps s0 (State.fencePass s1) := by
  unfold State.fencePass
  split
  · exact h1
  · refine Keeps.ite ?_ ?_
    · extract_lets -underBinder -merge -useContext +onlyGivenNames x0
      extract_lets -underBinder -merge -useContext +onlyGivenNames x1
      have hx1 : Keeps s0 x1 := (keeps_forUp (fun _ _ hx2 => (keeps_State_setF hx2)) h1)
      clear_value x1
      exact Keeps.same hx1
    · exact h1

theorem keeps_State_fenceWidths {s0 : State} {s1} (h1 : Keeps s0 s1) : Keeps s0 (State.fenceWidths s1) := by
  unfold State.fenceWidths
  split
  · exact h1
  · extract_lets -underBinder -merge -useContext +onlyGivenNames x0
    exact keeps_forUp (fun _ _ hx1 => (keeps_State_setF (keeps_State_setF hx1))) h1

theorem keeps_State_fenceHold {s0 : State} {s1} (h1 : Keeps s0 s1) : Keeps s0 (State.fenceHold s1) := by
  unfold State.fenceHold
  extract_lets -underBinder -merge -useContext +onlyGivenNames x0
  have hx0 : Keeps s0 x0 := (keeps_State_setF (keeps_State_setF h1))
  clear_value x0
  exact keeps_State_setF hx0

theorem keeps_State_fenceGraze {s0 : State} {s1} (h1 : Keeps s0 s1) : Keeps s0 (State.fenceGraze s1) := by
  unfold State.fenceGraze
  refine Keeps.ite ?_ ?_
  · extract_lets -underBinder -merge -useContext +onlyGivenNames x0
    have hx0 : Keeps s0 x0 := (keeps_State_setF (keeps_State_setF h1))
    clear_value x0
    exact keeps_State_raise (keeps_State_setF hx0)
  · exact h1

theorem keeps_State_fenceUpdate {s0 : State} {s1} (h1 : Keeps s0 s1) : Keeps s0 (State.fenceUpdate s1) := by
  unfold State.fenceUpdate
  extract_lets -underBinder -merge -useContext +onlyGivenNames x0
  extract_lets -underBinder -merge -useContext +onlyGivenNames x1
  extract_lets -underBinder -merge -useContext +onlyGivenNames x2
  extract_lets -underBinder -merge -useContext +onlyGivenNames x3
  extract_lets -underBinder -merge -useContext +onlyGivenNames x4
  extract_lets -underBinder -merge -useContext +onlyGivenNames x5
  extract_lets -underBinder -merge -useContext +onlyGivenNames x6
  extract_lets -underBinder -merge -useContext +onlyGivenNames x7
  have hx7 : Keeps s0 x7 := (Keeps.ite h1 (keeps_State_setF (keeps_State_setF h1)))
  clear_value x7
  exact Keeps.ite (keeps_State_fenceHold hx7) (Keeps.ite (Keeps.ite hx7 (keeps_State_raise (keeps_State_fenceHold hx7))) (Keeps.ite (keeps_State_fenceGraze (keeps_State_stickN hx7)) (keeps_State_setF hx7)))

theorem keeps_State_stopStep {s0 : State} {s1} (h1 : Keeps s0 s1) : Keeps s0 (State.stopStep s1) := by
  unfold State.stopStep
  split
  · exact h1
  · extract_lets -underBinder -merge -useContext +onlyGivenNames x0 x1
    have hx1 : Keeps s0 x1 := (Keeps.same h1)
    clear_value x1
    exact Keeps.ite (keeps_State_setMode hx1) (Keeps.ite (keeps_State_setMode hx1) hx1)

theorem keeps_State_modeB0 {s0 : State} {s1} (h1 : Keeps s0 s1) : Keeps s0 (State.modeB0 s1) := by
  unfold State.modeB0
  extract_lets -underBinder -merge -useContext +onlyGivenNames x0
  extract_lets -underBinder -merge -useContext +onlyGivenNames x1
  extract_lets -underBinder -merge -useContext +onlyGivenNames x2
  have hx2 : Keeps s0 x2 := (keeps_State_setF h1)
  clear_value x2
  exact Keeps.ite (Keeps.same hx2) (Keeps.ite (Keeps.same hx2) (Keeps.same hx2))

theorem keeps_State_modeB36 {s0 : State} {s1} (h1 : Keeps s0 s1) : Keeps s0 (State.modeB36 s1) := by
  unfold State.modeB36
  split
  · exact h1
  · extract_lets -underBinder -merge -useContext +onlyGivenNames x0 x1
    have hx1 : Keeps s0 x1 := (Keeps.same h1)
    clear_value x1
    exact Keeps.ite hx1 (keeps_State_setMode hx1)

theorem keeps_State_cleB0 {s0 : State} {s1 a2} (h1 : Keeps s0 s1) : Keeps s0 (State.cleB0 s1 a2) := by
  unfold State.cleB0
  extract_lets -underBinder -merge -useContext +onlyGivenNames x0
  extract_lets -underBinder -merge -useContext +onlyGivenNames x1
  have hx1 : Keeps s0 x1 := (keeps_State_commitPage h1)
  clear_value x1
  extract_lets -underBinder -merge -useContext +onlyGivenNames x2
  have hx2 : Keeps s0 x2 := (keeps_State_fenceWidths (Keeps.ite (keeps_State_fenceHold hx1) hx1))
  clear_value x2
  exact keeps_State_modeB0 (Keeps.same hx2)

theorem keeps_State_cmdRecord {s0 : State} {s1 a2} (h1 : Keeps s0 s1) : Keeps s0 (State.cmdRecord s1 a2).1 := by
  unfold State.cmdRecord
  extract_lets -underBinder -merge -useContext +onlyGivenNames x0
  have hx0 : Keeps s0 x0.st := Keeps.replyOf (y := State.mRead _ _ _ _) rfl (keeps_State_mRead h1)
  clear_value x0
  revert x0
  refine id ?_
  intro x0 hx0
  refine Keeps.pair ?_
  exact hx0

theorem keeps_State_formCommand {s0 : State} {s1} (h1 : Keeps s0 s1) : Keeps s0 (State.formCommand s1) := by
  unfold State.formCommand
  split
  · rename_i x1 y2  he3
    have hq0 : Keeps s0 x1 := by
      have e := congrArg Prod.fst he3
      dsimp only at e
      rw [← e]
      refine keeps_State_cmdRecord ?_
      · exact h1
    split
    · rename_i x5 y6  he7
      have hq4 : Keeps s0 x5 := by
        have e := congrArg Prod.fst he7
        dsimp only at e
        rw [← e]
        refine keeps_State_cmdRecord ?_
        · exact hq0
      extract_lets -underBinder -merge -useContext +onlyGivenNames x8
      extract_lets -underBinder -merge -useContext +onlyGivenNames x9 x10 x11
      have hx11 : Keeps s0 x11 := (Keeps.same hq4)
      clear_value x11
      revert x11
      refine id ?_
      intro x11 hx11
      split
      · exact hx11
      · refine Keeps.ite ?_ ?_
        · exact hx11
        · extract_lets -underBinder -merge -useContext +onlyGivenNames x12
          extract_lets -underBinder -merge -useContext +onlyGivenNames x13
          have hx13 : Keeps s0 x13.st := Keeps.replyOf (y := State.mRead _ _ _ _) rfl (keeps_State_mRead hx11)
          clear_value x13
          revert x13
          refine id ?_
          intro x13 hx13
          refine Keeps.ite ?_ ?_
          · exact hx13
          · extract_lets -underBinder -merge -useContext +onlyGivenNames x14
            extract_lets -underBinder -merge -useContext +onlyGivenNames x15
            extract_lets -underBinder -merge -useContext +onlyGivenNames x16
            extract_lets -underBinder -merge -useContext +onlyGivenNames x17
            have hx17 : Keeps s0 x17 := by
              unfold x17
              exact hx13
            clear_value x17
            revert x17
            refine id ?_
            intro x17 hx17
            exact Keeps.same hx17

theorem keeps_State_commitTraj {s0 : State} {s1} (h1 : Keeps s0 s1) : Keeps s0 (State.commitTraj s1) := by
  unfold State.commitTraj
  extract_lets -underBinder -merge -useContext +onlyGivenNames x0
  extract_lets -underBinder -merge -useContext +onlyGivenNames x1 x2
  have hx2 : Keeps s0 x2 := (Keeps.same h1)
  clear_value x2
  extract_lets -underBinder -merge -useContext +onlyGivenNames x3
  have hx3 : ∀ y4 y5, Keeps s0 y4 → Keeps s0 (x3 y4 y5) := by
    intro y4 y5 hy4
    unfold x3
    exact keeps_State_setF (keeps_State_setF (keeps_State_setF (keeps_State_setF hy4)))
  clear_value x3
  clear_value x0
  split
  · extract_lets -underBinder -merge -useContext +onlyGivenNames x6
    have hx6 : Keeps s0 x6 := (keeps_forUp (fun _ _ hx7 => (keeps_forUp (fun _ _ hx9 => (keeps_State_setReg hx9)) hx7)) hx2)
    clear_value x6
    extract_lets -underBinder -merge -useContext +onlyGivenNames x11
    have hx11 : Keeps s0 x11 := (keeps_State_setReg (keeps_State_setPair hx6))
    clear_value x11
    extract_lets -underBinder -merge -useContext +onlyGivenNames x12
    have hx12 : Keeps s0 x12 := (keeps_forUp (fun _ _ hx13 => (keeps_State_setReg hx13)) hx11)
    clear_value x12
    extract_lets -underBinder -merge -useContext +onlyGivenNames x15
    refine hx3 _ _ ?_
    · exact Keeps.same hx12
  · extract_lets -underBinder -merge -useContext +onlyGivenNames x16
    have hx16 : Keeps s0 x16 := (keeps_State_raise (keeps_State_stick hx2))
    clear_value x16
    refine hx3 _ _ ?_
    · exact Keeps.same hx16

theorem keeps_execCmdFormationDone {s0 : State} {s1} (h1 : Keeps s0 s1) : KeepsOut s0 (execCmdFormationDone s1) := by
  unfold execCmdFormationDone
  refine KeepsOut.liveIf ?_ ?_
  · exact h1
  · exact keeps_State_formCommand h1

theorem keeps_execSlotILoad {s0 : State} {a1 s2} (h2 : Keeps s0 s2) : KeepsOut s0 (execSlotILoad a1 s2) := by
  unfold execSlotILoad
  refine KeepsOut.liveIf ?_ ?_
  · exact h2
  · exact keeps_State_ok (keeps_State_setF h2)

theorem keeps_execSlotWlock {s0 : State} {a1 a2 s3} (h3 : Keeps s0 s3) : KeepsOut s0 (execSlotWlock a1 a2 s3) := by
  unfold execSlotWlock
  refine KeepsOut.liveIf ?_ ?_
  · exact h3
  · exact keeps_State_ok (keeps_State_setF h3)

theorem keeps_execLockHeld {s0 : State} {a1 s2} (h2 : Keeps s0 s2) : KeepsOut s0 (execLockHeld a1 s2) := by
  unfold execLockHeld
  refine KeepsOut.liveIf ?_ ?_
  · exact h2
  · exact keeps_State_raise h2

theorem keeps_execSlotIstRead {s0 : State} {a1 s2} (h2 : Keeps s0 s2) : KeepsOut s0 (execSlotIstRead a1 s2) := by
  unfold execSlotIstRead
  refine KeepsOut.liveIf ?_ ?_
  · exact h2
  · exact keeps_State_ansW (keeps_State_setSlot h2)

theorem keeps_execFenceGraze {s0 : State} {s1} (h1 : Keeps s0 s1) : KeepsOut s0 (execFenceGraze s1) := by
  unfold execFenceGraze
  refine KeepsOut.live ?_ ?_
  · exact h1
  · exact keeps_State_fenceGraze h1

theorem can_bounded {s : State} (i : s.Inv) (k : Nat) : (s.canOf k).bounded := 
  getD_of_all (p := CanSt.bounded) (d := {}) i.can (show (0 : Nat) ≤ 64 by decide) k

theorem keeps_State_setCan {s0 : State} {s1 a2 a3} (h1 : Keeps s0 s1) (hb : s0.Inv → a3.bounded) : Keeps s0 (State.setCan s1 a2 a3) := by
  refine ⟨h1.1, fun i => { h1.2 i with mem := (h1.2 i).mem, can := fun x hx => ?_ }⟩
  rcases setNth_mem hx with h | h
  · exact h ▸ hb i
  · exact (h1.2 i).can x h

theorem keeps_State_canKick {s0 : State} {s1 a2} (h1 : Keeps s0 s1) : Keeps s0 (State.canKick s1 a2) := by
  unfold State.canKick
  extract_lets -underBinder -merge -useContext +onlyGivenNames x0
  extract_lets -underBinder -merge -useContext +onlyGivenNames x1
  extract_lets -underBinder -merge -useContext +onlyGivenNames x2
  refine keeps_State_setF ?_
  · refine keeps_State_setF ?_
    · refine keeps_State_setF ?_
      · refine keeps_State_setCan ?_ ?_
        · exact h1
        · exact fun i => can_bounded (h1.2 i) _

theorem keeps_State_canKickAll {s0 : State} {s1} (h1 : Keeps s0 s1) : Keeps s0 (State.canKickAll s1) := by
  unfold State.canKickAll
  exact keeps_forUp (fun _ _ hx0 => (keeps_State_canKick hx0)) h1

theorem keeps_State_canDrop {s0 : State} {s1 a2 a3} (h1 : Keeps s0 s1) : Keeps s0 (State.canDrop s1 a2 a3) := by
  unfold State.canDrop
  extract_lets -underBinder -merge -useContext +onlyGivenNames x0
  refine keeps_State_setCan ?_ ?_
  · exact h1
  · exact fun i => can_bounded (h1.2 i) _

theorem keeps_State_canEnd {s0 : State} {s1 a2 a3 a4} (h1 : Keeps s0 s1) : Keeps s0 (State.canEnd s1 a2 a3 a4) := by
  unfold State.canEnd
  exact keeps_State_raise (keeps_State_setF (keeps_State_canDrop h1))

theorem keeps_State_canQueue {s0 : State} {s1 a2 a3 a4 a5} (h1 : Keeps s0 s1) : Keeps s0 (State.canQueue s1 a2 a3 a4 a5) := by
  unfold State.canQueue
  extract_lets -underBinder -merge -useContext +onlyGivenNames x0
  have hx0 : Keeps s0 x0 := (keeps_State_canDrop h1)
  clear_value x0
  extract_lets -underBinder -merge -useContext +onlyGivenNames x1
  refine keeps_State_setF ?_
  · refine keeps_State_setCan ?_ ?_
    · exact hx0
    · exact fun i => can_bounded (hx0.2 i) _

theorem keeps_State_helmMiss {s0 : State} {s1 a2} (h1 : Keeps s0 s1) : Keeps s0 (State.helmMiss s1 a2) := by
  unfold State.helmMiss
  exact keeps_State_raise (keeps_State_stick h1)

theorem keeps_State_setStaged {s0 : State} {s1 a2 a3} (h1 : Keeps s0 s1) : Keeps s0 (State.setStaged s1 a2 a3) := by
  unfold State.setStaged
  exact Keeps.same h1

theorem keeps_State_takeStaged {s0 : State} {s1 a2 a3 a4} (h1 : Keeps s0 s1) : Keeps s0 (State.takeStaged s1 a2 a3 a4) := by
  unfold State.takeStaged
  split
  · exact h1
  · split
    · exact h1
    · exact keeps_State_canQueue (keeps_State_setStaged h1)

theorem keeps_State_canFail {s0 : State} {s1 a2 a3} (h1 : Keeps s0 s1) : Keeps s0 (State.canFail s1 a2 a3) := by
  unfold State.canFail
  extract_lets -underBinder -merge -useContext +onlyGivenNames x0 x1
  have hx1 : Keeps s0 x1 := by
    refine keeps_State_setCan ?_ ?_
    · exact h1
    · exact fun i => can_bounded (h1.2 i) _
  clear_value x1
  split
  · exact keeps_State_canKick (keeps_State_takeStaged (keeps_State_helmMiss (keeps_State_canEnd hx1)))
  · exact keeps_State_canKick (Keeps.ite (keeps_State_canEnd hx1) hx1)

theorem keeps_State_canFailBusy {s0 : State} {s1 a2} (h1 : Keeps s0 s1) : Keeps s0 (State.canFailBusy s1 a2) := by
  unfold State.canFailBusy
  split
  · exact h1
  · exact keeps_State_canFail h1

theorem keeps_State_canErrState {s0 : State} {s1 a2} (h1 : Keeps s0 s1) : Keeps s0 (State.canErrState s1 a2) := by
  unfold State.canErrState
  extract_lets -underBinder -merge -useContext +onlyGivenNames x0 x1 x2 x3
  have hx3 : Keeps s0 x3 := keeps_State_setF h1
  clear_value x3 x2 x1 x0
  refine Keeps.ite hx3 (Keeps.ite (keeps_State_raise hx3) (Keeps.ite ?_ hx3))
  exact keeps_State_canFailBusy (keeps_State_raise (keeps_State_setCan hx3 (fun i => can_bounded (hx3.2 i) _)))

theorem keeps_State_canPb {s0 : State} {s1 a2 a3 a4} (h1 : Keeps s0 s1) : Keeps s0 (State.canPb s1 a2 a3 a4) := by
  unfold State.canPb
  extract_lets -underBinder -merge -useContext +onlyGivenNames x0
  have hx0 : Keeps s0 x0 := (keeps_forUp (fun _ _ hx1 => (keeps_State_setReg hx1)) h1)
  clear_value x0
  extract_lets -underBinder -merge -useContext +onlyGivenNames x3
  extract_lets -underBinder -merge -useContext +onlyGivenNames x4
  have hx4 : Keeps s0 x4 := (Keeps.ite (keeps_State_setF hx0) hx0)
  clear_value x4
  exact keeps_State_raiseBits (keeps_State_setF hx4)

theorem keeps_State_setFifo {s0 : State} {s1 a2 a3} (h1 : Keeps s0 s1) (hb : s0.Inv → a3.length ≤ 64) : Keeps s0 (State.setFifo s1 a2 a3) := by
  unfold State.setFifo
  extract_lets x
  exact keeps_forUp (fun y t ht => keeps_State_setReg ht) (keeps_State_setF (keeps_State_setCan h1 hb))

theorem keeps_State_canFifo {s0 : State} {s1 a2 a3} (h1 : Keeps s0 s1) : Keeps s0 (State.canFifo s1 a2 a3) := by
  unfold State.canFifo
  extract_lets l x
  split
  · exact keeps_State_raise (keeps_State_stick h1)
  · rename_i hl
    have hx : Keeps s0 x := keeps_State_setFifo h1 fun i => by
      simp only [List.length_append, List.length_singleton]
      omega
    exact Keeps.ite (keeps_State_raise hx) hx

theorem keeps_State_canFilter {s0 : State} {s1 a2 a3 a4} (h1 : Keeps s0 s1) : Keeps s0 (State.canFilter s1 a2 a3 a4) := by
  unfold State.canFilter
  split
  · exact h1
  · refine Keeps.ite ?_ ?_
    · exact h1
    · extract_lets -underBinder -merge -useContext +onlyGivenNames x0
      exact Keeps.ite (keeps_State_canPb h1) (keeps_State_canFifo h1)

theorem keeps_State_canTake {s0 : State} {s1 a2 a3 a4} (h1 : Keeps s0 s1) : Keeps s0 (State.canTake s1 a2 a3 a4) := by
  unfold State.canTake
  extract_lets -underBinder -merge -useContext +onlyGivenNames x0
  have hx0 : Keeps s0 x0 := (keeps_State_wrap h1)
  clear_value x0
  extract_lets -underBinder -merge -useContext +onlyGivenNames x1
  extract_lets -underBinder -merge -useContext +onlyGivenNames x2
  have hx2 : Keeps s0 x2 := (Keeps.ite hx0 (keeps_State_canErrState (keeps_State_setF hx0)))
  clear_value x2
  exact keeps_State_canFilter hx2

theorem keeps_doCanError {s0 : State} {s1 a2 a3 a4 a5 a6} (h1 : Keeps s0 s1) : Keeps s0 (doCanError s1 a2 a3 a4 a5 a6) := by
  unfold doCanError
  extract_lets -underBinder -merge -useContext +onlyGivenNames x0
  have hx0 : Keeps s0 x0 := (keeps_State_setF (keeps_State_stick h1))
  clear_value x0
  extract_lets -underBinder -merge -useContext +onlyGivenNames x1
  extract_lets -underBinder -merge -useContext +onlyGivenNames x2
  extract_lets -underBinder -merge -useContext +onlyGivenNames x3
  extract_lets -underBinder -merge -useContext +onlyGivenNames x4
  have hx4 : Keeps s0 x4 := (Keeps.ite hx0 (Keeps.ite (keeps_State_setF hx0) (keeps_State_setF hx0)))
  clear_value x4
  extract_lets -underBinder -merge -useContext +onlyGivenNames x5 x6
  have hx5 : Keeps s0 x5 := (keeps_State_stickN hx4)
  clear_value x5
  have hx6 : Keeps s0 x6 := (Keeps.ite hx4 (Keeps.ite (Keeps.ite (keeps_State_raise (keeps_State_setF hx5)) hx5) (keeps_State_setF hx4)))
  clear_value x6
  extract_lets -underBinder -merge -useContext +onlyGivenNames x7
  extract_lets -underBinder -merge -useContext +onlyGivenNames x8
  have hx8 : Keeps s0 x8 := by
    unfold x8
    split
    · exact hx6
    · refine Keeps.ite ?_ ?_
      · exact hx6
      · split
        · refine keeps_State_setCan ?_ ?_
          · exact hx6
          · exact fun i => can_bounded (hx6.2 i) _
        · refine Keeps.ite ?_ ?_
          · exact hx6
          · refine Keeps.ite ?_ ?_
            · refine keeps_State_setCan ?_ ?_
              · exact hx6
              · exact fun i => can_bounded (hx6.2 i) _
            · refine keeps_State_raise ?_
              · refine keeps_State_setReg ?_
                · refine keeps_State_setCan ?_ ?_
                  · exact hx6
                  · exact fun i => can_bounded (hx6.2 i) _
  clear_value x8
  exact keeps_State_canKick (keeps_State_canErrState hx8)

theorem keeps_State_canSent {s0 : State} {s1 a2 a3 a4} (h1 : Keeps s0 s1) : Keeps s0 (State.canSent s1 a2 a3 a4) := by
  unfold State.canSent
  extract_lets -underBinder -merge -useContext +onlyGivenNames x0 x1
  extract_lets -underBinder -merge -useContext +onlyGivenNames x2
  have hx2 : Keeps s0 x2 := (keeps_State_setReg (keeps_State_setF (keeps_State_setF h1)))
  clear_value x2
  extract_lets -underBinder -merge -useContext +onlyGivenNames x3
  have hx3 : Keeps s0 x3 := (Keeps.ite (keeps_State_canTake hx2) (keeps_State_send (keeps_State_wrap (keeps_State_canErrState (keeps_State_setF hx2)))))
  clear_value x3
  exact keeps_State_takeStaged (keeps_State_canEnd hx3)

theorem keeps_doTxEnd {s0 : State} {s1 a2 a3 a4} (h1 : Keeps s0 s1) : Keeps s0 (doTxEnd s1 a2 a3 a4) := by
  unfold doTxEnd
  extract_lets -underBinder -merge -useContext +onlyGivenNames x0
  split
  · exact h1
  · exact Keeps.ite (keeps_State_canKick (keeps_State_canSent h1)) (keeps_State_canFail h1)

theorem keeps_State_canCut {s0 : State} {s1 a2} (h1 : Keeps s0 s1) : Keeps s0 (State.canCut s1 a2) := by
  unfold State.canCut
  extract_lets -underBinder -merge -useContext +onlyGivenNames x0
  refine Keeps.ite ?_ ?_
  · exact h1
  · split
    · exact h1
    · exact keeps_State_canFail h1

theorem keeps_State_canCutAll {s0 : State} {s1} (h1 : Keeps s0 s1) : Keeps s0 (State.canCutAll s1) := by
  unfold State.canCutAll
  exact keeps_forUp (fun _ _ hx0 => (keeps_State_canKick (keeps_State_canCut hx0))) h1

theorem keeps_State_canEmpty {s0 : State} {s1 a2} (h1 : Keeps s0 s1) : Keeps s0 (State.canEmpty s1 a2) := by
  unfold State.canEmpty
  extract_lets -underBinder -merge -useContext +onlyGivenNames x0
  refine Keeps.foldl (fun x1 y2 hx1 => ?_) ?_
  · try beta_reduce
    refine keeps_State_canEnd ?_
    · split
      · exact keeps_State_setStaged hx1
      · exact hx1
  · exact h1

theorem keeps_doCanMode {s0 : State} {s1 a2 a3} (h1 : Keeps s0 s1) : Keeps s0 (doCanMode s1 a2 a3) := by
  unfold doCanMode
  extract_lets -underBinder -merge -useContext +onlyGivenNames x0
  extract_lets -underBinder -merge -useContext +onlyGivenNames x1
  extract_lets -underBinder -merge -useContext +onlyGivenNames x2
  have hx2 : Keeps s0 x2 := (keeps_State_setReg h1)
  clear_value x2
  extract_lets -underBinder -merge -useContext +onlyGivenNames x3
  have hx3 : Keeps s0 x3 := (Keeps.ite (keeps_State_canEmpty hx2) (keeps_State_canCut hx2))
  clear_value x3
  extract_lets -underBinder -merge -useContext +onlyGivenNames x4 x5
  have hx5 : Keeps s0 x5 := by
    unfold x5
    refine Keeps.ite ?_ ?_
    · refine keeps_State_setCan ?_ ?_
      · exact hx3
      · exact fun i => can_bounded (hx3.2 i) _
    · exact hx3
  clear_value x5
  exact keeps_State_ok (keeps_State_canKick hx5)

theorem keeps_doBitTiming {s0 : State} {s1 a2 a3 a4} (h1 : Keeps s0 s1) : Keeps s0 (doBitTiming s1 a2 a3 a4) := by
  unfold doBitTiming
  extract_lets -underBinder -merge -useContext +onlyGivenNames x0
  extract_lets -underBinder -merge -useContext +onlyGivenNames x1
  extract_lets -underBinder -merge -useContext +onlyGivenNames x2
  extract_lets -underBinder -merge -useContext +onlyGivenNames x3
  exact keeps_State_ok (Keeps.ite h1 (Keeps.ite (keeps_State_setF h1) (keeps_State_setReg h1)))

theorem keeps_doTxPush {s0 : State} {s1 a2} (h1 : Keeps s0 s1) : Keeps s0 (doTxPush s1 a2) := by
  unfold doTxPush
  extract_lets -underBinder -merge -useContext +onlyGivenNames x0
  extract_lets -underBinder -merge -useContext +onlyGivenNames x1
  refine keeps_State_ok ?_
  · clear_value x1
    split
    · exact keeps_State_raise (keeps_State_setF (keeps_State_setReg h1))
    · extract_lets -underBinder -merge -useContext +onlyGivenNames x2
      refine Keeps.ite ?_ ?_
      · exact keeps_State_setReg h1
      · extract_lets -underBinder -merge -useContext +onlyGivenNames x3
        have hx3 : Keeps s0 x3 := (keeps_State_canQueue (keeps_State_setReg h1))
        clear_value x3
        exact keeps_State_canKick (Keeps.ite (keeps_State_canEnd hx3) hx3)

theorem keeps_State_canAbort {s0 : State} {s1 a2 a3} (h1 : Keeps s0 s1) : Keeps s0 (State.canAbort s1 a2 a3) := by
  unfold State.canAbort
  extract_lets -underBinder -merge -useContext +onlyGivenNames x0
  refine Keeps.ite ?_ ?_
  · exact h1
  · refine Keeps.ite ?_ ?_
    · refine keeps_State_setCan ?_ ?_
      · exact h1
      · exact fun i => can_bounded (h1.2 i) _
    · exact keeps_State_canEnd h1

theorem keeps_execCanModeChange {s0 : State} {a1 a2 s3} (h3 : Keeps s0 s3) : KeepsOut s0 (execCanModeChange a1 a2 s3) := by
  unfold execCanModeChange
  refine KeepsOut.liveIf ?_ ?_
  · exact h3
  · exact keeps_doCanMode h3

theorem keeps_execBitTimingWrite {s0 : State} {a1 a2 a3 s4} (h4 : Keeps s0 s4) : KeepsOut s0 (execBitTimingWrite a1 a2 a3 s4) := by
  unfold execBitTimingWrite
  refine KeepsOut.liveIf ?_ ?_
  · exact h4
  · exact keeps_doBitTiming h4

theorem keeps_execTxPush {s0 : State} {a1 s2} (h2 : Keeps s0 s2) : KeepsOut s0 (execTxPush a1 s2) := by
  unfold execTxPush
  refine KeepsOut.liveIf ?_ ?_
  · exact h2
  · exact keeps_doTxPush h2

theorem keeps_doTxAbort {s0 : State} {s1 a2 a3} (h1 : Keeps s0 s1) : Keeps s0 (doTxAbort s1 a2 a3) := by
  unfold doTxAbort
  exact keeps_State_ok (keeps_State_canKick (keeps_State_canAbort h1))

theorem keeps_execTxAbort {s0 : State} {a1 a2 s3} (h3 : Keeps s0 s3) : KeepsOut s0 (execTxAbort a1 a2 s3) := by
  unfold execTxAbort
  refine KeepsOut.liveIf ?_ ?_
  · exact h3
  · exact keeps_doTxAbort h3

theorem keeps_doTxAbortAll {s0 : State} {s1 a2} (h1 : Keeps s0 s1) : Keeps s0 (doTxAbortAll s1 a2) := by
  unfold doTxAbortAll
  exact keeps_State_ok (keeps_State_canKick (keeps_forUp (fun _ _ hx0 => (keeps_State_canAbort hx0)) h1))

theorem keeps_execTxAbortAll {s0 : State} {a1 s2} (h2 : Keeps s0 s2) : KeepsOut s0 (execTxAbortAll a1 s2) := by
  unfold execTxAbortAll
  refine KeepsOut.liveIf ?_ ?_
  · exact h2
  · exact keeps_doTxAbortAll h2

theorem keeps_execTxAttemptEnd {s0 : State} {a1 a2 a3 s4} (h4 : Keeps s0 s4) : KeepsOut s0 (execTxAttemptEnd a1 a2 a3 s4) := by
  unfold execTxAttemptEnd
  refine KeepsOut.liveIf ?_ ?_
  · exact h4
  · exact keeps_doTxEnd h4

theorem keeps_doPbRel {s0 : State} {s1 a2 a3} (h1 : Keeps s0 s1) : Keeps s0 (doPbRel s1 a2 a3) := by
  unfold doPbRel
  exact keeps_State_ok (keeps_State_setF h1)

theorem keeps_execPbRelease {s0 : State} {a1 a2 s3} (h3 : Keeps s0 s3) : KeepsOut s0 (execPbRelease a1 a2 s3) := by
  unfold execPbRelease
  refine KeepsOut.liveIf ?_ ?_
  · exact h3
  · exact keeps_doPbRel h3

theorem keeps_doRxfPop {s0 : State} {s1 a2} (h1 : Keeps s0 s1) : Keeps s0 (doRxfPop s1 a2) := by
  refine keeps_State_ok (keeps_State_setFifo h1 fun i => ?_)
  have : (s1.canOf a2).fifo.length ≤ 64 := can_bounded (h1.2 i) a2
  simp only [List.length_drop]
  omega

theorem keeps_execRxfPop {s0 : State} {a1 s2} (h2 : Keeps s0 s2) : KeepsOut s0 (execRxfPop a1 s2) := by
  unfold execRxfPop
  refine KeepsOut.liveIf ?_ ?_
  · exact h2
  · exact keeps_doRxfPop h2

theorem keeps_execCanError {s0 : State} {a1 a2 a3 a4 a5 s6} (h6 : Keeps s0 s6) : KeepsOut s0 (execCanError a1 a2 a3 a4 a5 s6) := by
  unfold execCanError
  refine KeepsOut.liveIf ?_ ?_
  · exact h6
  · exact keeps_doCanError h6

theorem keeps_execBusOffRecovery {s0 : State} {a1 s2} (h2 : Keeps s0 s2) : KeepsOut s0 (execBusOffRecovery a1 s2) := by
  unfold execBusOffRecovery
  refine KeepsOut.liveIf ?_ ?_
  · exact h2
  · refine keeps_State_canKick ?_
    · refine keeps_State_setCan ?_ ?_
      · exact keeps_State_setReg h2
      · exact fun i => can_bounded (h2.2 i) _

theorem keeps_execDupWindowEnd {s0 : State} {a1 s2} (h2 : Keeps s0 s2) : KeepsOut s0 (execDupWindowEnd a1 s2) := by
  unfold execDupWindowEnd
  refine KeepsOut.liveIf ?_ ?_
  · exact h2
  · refine keeps_State_setCan ?_ ?_
    · exact h2
    · exact fun i => can_bounded (h2.2 i) _

theorem keeps_execTsWrap {s0 : State} {s1} (h1 : Keeps s0 s1) : KeepsOut s0 (execTsWrap s1) := by
  unfold execTsWrap
  refine KeepsOut.live ?_ ?_
  · exact h1
  · exact keeps_State_raise h1

theorem keeps_State_helmWithdraw {s0 : State} {s1 a2 a3 a4} (h1 : Keeps s0 s1) : Keeps s0 (State.helmWithdraw s1 a2 a3 a4) := by
  unfold State.helmWithdraw
  extract_lets -underBinder -merge -useContext +onlyGivenNames x0
  exact Keeps.ite (keeps_State_helmMiss (keeps_State_canEnd h1)) h1

theorem keeps_State_dropStaged {s0 : State} {s1 a2} (h1 : Keeps s0 s1) : Keeps s0 (State.dropStaged s1 a2) := by
  unfold State.dropStaged
  exact Keeps.ite (keeps_State_setStaged (keeps_State_helmMiss h1)) h1

theorem keeps_State_helmPlace {s0 : State} {s1 a2 a3 a4 a5} (h1 : Keeps s0 s1) : Keeps s0 (State.helmPlace s1 a2 a3 a4 a5) := by
  unfold State.helmPlace
  extract_lets -underBinder -merge -useContext +onlyGivenNames u
  have hu : Keeps s0 u := keeps_State_dropStaged h1
  clear_value u
  exact Keeps.ite (keeps_State_helmMiss hu) (Keeps.ite (keeps_State_setStaged hu) (keeps_State_canQueue hu))

theorem keeps_State_fbStale {s0 : State} {s1 a2} (h1 : Keeps s0 s1) : Keeps s0 (State.fbStale s1 a2) := by
  unfold State.fbStale
  exact Keeps.ite (keeps_State_raise (keeps_State_setF h1)) h1

theorem keeps_State_fbAge {s0 : State} {s1 a2} (h1 : Keeps s0 s1) : Keeps s0 (State.fbAge s1 a2) := by
  unfold State.fbAge
  exact keeps_State_fbStale (keeps_State_stickN h1)

theorem keeps_State_fbCapture {s0 : State} {s1 a2 a3} (h1 : Keeps s0 s1) : Keeps s0 (State.fbCapture s1 a2 a3) := by
  unfold State.fbCapture
  exact Keeps.ite (keeps_State_setReg (keeps_forUp (fun _ _ hx0 => (keeps_State_setReg hx0)) h1)) (keeps_State_raise (keeps_State_stick h1))

theorem keeps_execFbStale {s0 : State} {a1 s2} (h2 : Keeps s0 s2) : KeepsOut s0 (execFbStale a1 s2) := by
  unfold execFbStale
  refine KeepsOut.liveIf ?_ ?_
  · exact h2
  · exact keeps_State_fbStale h2

theorem keeps_State_setDrive {s0 : State} {s1 a2 a3} (h1 : Keeps s0 s1) : Keeps s0 (State.setDrive s1 a2 a3) := by
  unfold State.setDrive
  exact Keeps.same h1

theorem keeps_execDriveHelmFrame {s0 : State} {a1 a2 s3} (h3 : Keeps s0 s3) : KeepsOut s0 (execDriveHelmFrame a1 a2 s3) := by
  unfold execDriveHelmFrame
  refine KeepsOut.next ?_
  · split
    · exact h3
    · exact Keeps.ite (keeps_State_setDrive h3) h3

theorem keeps_execDriveHoldTimeout {s0 : State} {a1 s2} (h2 : Keeps s0 s2) : KeepsOut s0 (execDriveHoldTimeout a1 s2) := by
  unfold execDriveHoldTimeout
  refine KeepsOut.next ?_
  · exact Keeps.ite (keeps_State_setDrive h2) h2

theorem keeps_execDriveReset {s0 : State} {a1 s2} (h2 : Keeps s0 s2) : KeepsOut s0 (execDriveReset a1 s2) := by
  unfold execDriveReset
  refine KeepsOut.next ?_
  · exact Keeps.ite (keeps_State_setDrive h2) h2

end Sys2Proof.Laws
end

