-- ==== Sys2Proof/Laws/KeepLines.lean ====
section
/-! SUPPORT. The operations and meanings of Machine/Shepherd, Flash, Strongbox, Events keep the command queue and the invariant: one lemma
each. -/

namespace Sys2Proof.Laws

open Sys2Proof.Machine

theorem keeps_State_setPhase {s0 : State} {s1 a2} (h1 : Keeps s0 s1) : Keeps s0 (State.setPhase s1 a2) := by
  unfold State.setPhase
  exact keeps_State_setF h1

theorem keeps_State_stepOn {s0 : State} {s1} (h1 : Keeps s0 s1) : Keeps s0 (State.stepOn s1) := by
  unfold State.stepOn
  extract_lets -underBinder -merge -useContext +onlyGivenNames x0
  extract_lets -underBinder -merge -useContext +onlyGivenNames x1
  extract_lets -underBinder -merge -useContext +onlyGivenNames x2 x3 x4
  have hx2 : Keeps s0 x2 := (keeps_State_setF h1)
  clear_value x2
  have hx4 : Keeps s0 x4 := (Keeps.ite (Keeps.same hx2) h1)
  clear_value x4
  exact Keeps.ite (keeps_State_setF hx4) hx4

theorem keeps_State_lineOut {s0 : State} {s1} (h1 : Keeps s0 s1) : Keeps s0 (State.lineOut s1) := by
  unfold State.lineOut
  refine Keeps.ite ?_ ?_
  · extract_lets -underBinder -merge -useContext +onlyGivenNames x0
    extract_lets -underBinder -merge -useContext +onlyGivenNames x1
    extract_lets -underBinder -merge -useContext +onlyGivenNames x2
    extract_lets -underBinder -merge -useContext +onlyGivenNames x3 x4
    exact keeps_State_fioFault (keeps_State_setF (Keeps.same h1))
  · exact h1

theorem keeps_State_setLines {s0 : State} {s1 a2} (h1 : Keeps s0 s1) : Keeps s0 (State.setLines s1 a2) := by
  unfold State.setLines
  extract_lets -underBinder -merge -useContext +onlyGivenNames x0
  extract_lets -underBinder -merge -useContext +onlyGivenNames x1
  extract_lets -underBinder -merge -useContext +onlyGivenNames x2
  extract_lets -underBinder -merge -useContext +onlyGivenNames x3 x4
  exact keeps_State_lineOut (keeps_State_setF (Keeps.same h1))

theorem keeps_State_askStop {s0 : State} {s1 a2} (h1 : Keeps s0 s1) : Keeps s0 (State.askStop s1 a2) := by
  unfold State.askStop
  exact Keeps.same h1

theorem keeps_State_enterSto {s0 : State} {s1} (h1 : Keeps s0 s1) : Keeps s0 (State.enterSto s1) := by
  unfold State.enterSto
  extract_lets -underBinder -merge -useContext +onlyGivenNames x0
  have hx0 : Keeps s0 x0 := (keeps_State_setLines h1)
  clear_value x0
  exact Keeps.ite hx0 (keeps_State_askStop (keeps_State_raise (keeps_State_setPhase hx0)))

theorem keeps_State_enterSs1 {s0 : State} {s1} (h1 : Keeps s0 s1) : Keeps s0 (State.enterSs1 s1) := by
  unfold State.enterSs1
  extract_lets -underBinder -merge -useContext +onlyGivenNames x0
  have hx0 : Keeps s0 x0 := (keeps_forUp (fun _ _ hx1 => (Keeps.ite (keeps_State_setF hx1) hx1)) h1)
  clear_value x0
  exact keeps_State_askStop (keeps_State_setPhase (Keeps.same hx0))

theorem keeps_State_demand {s0 : State} {s1 a2 a3} (h1 : Keeps s0 s1) : Keeps s0 (State.demand s1 a2 a3) := by
  unfold State.demand
  extract_lets -underBinder -merge -useContext +onlyGivenNames x0
  extract_lets -underBinder -merge -useContext +onlyGivenNames x1 x2 x3
  have hx1 : Keeps s0 x1 := (keeps_State_setF h1)
  clear_value x1
  have hx3 : Keeps s0 x3 := (Keeps.same hx1)
  clear_value x3
  refine Keeps.ite ?_ ?_
  · exact hx3
  · extract_lets -underBinder -merge -useContext +onlyGivenNames x4
    have hx4 : Keeps s0 x4 := (keeps_State_raise (keeps_State_stick hx3))
    clear_value x4
    exact Keeps.ite (keeps_State_enterSto hx4) (Keeps.ite (keeps_State_enterSs1 hx4) hx4)

theorem keeps_State_diagShow {s0 : State} {s1} (h1 : Keeps s0 s1) : Keeps s0 (State.diagShow s1) := by
  unfold State.diagShow
  extract_lets -underBinder -merge -useContext +onlyGivenNames x0
  exact keeps_State_setF (keeps_State_setF h1)

theorem keeps_State_retest {s0 : State} {s1 a2} (h1 : Keeps s0 s1) : Keeps s0 (State.retest s1 a2) := by
  unfold State.retest
  exact Keeps.ite h1 (keeps_State_setF (keeps_State_setF h1))

theorem keeps_State_diagFail {s0 : State} {s1 a2} (h1 : Keeps s0 s1) : Keeps s0 (State.diagFail s1 a2) := by
  unfold State.diagFail
  extract_lets -underBinder -merge -useContext +onlyGivenNames x0
  have hx0 : Keeps s0 x0 := (keeps_State_raise (keeps_State_diagShow (keeps_State_setReg h1)))
  clear_value x0
  exact keeps_State_demand (keeps_State_setLines hx0)

theorem keeps_State_tpFail {s0 : State} {s1 a2} (h1 : Keeps s0 s1) : Keeps s0 (State.tpFail s1 a2) := by
  unfold State.tpFail
  exact keeps_State_diagFail (keeps_State_retest (Keeps.same h1))

theorem keeps_State_discFail {s0 : State} {s1 a2} (h1 : Keeps s0 s1) : Keeps s0 (State.discFail s1 a2) := by
  unfold State.discFail
  exact keeps_State_diagFail (keeps_State_retest (Keeps.same h1))

theorem keeps_State_onFail {s0 : State} {s1 a2} (h1 : Keeps s0 s1) : Keeps s0 (State.onFail s1 a2) := by
  unfold State.onFail
  exact keeps_State_diagFail (Keeps.same h1)

theorem keeps_State_offFail {s0 : State} {s1 a2} (h1 : Keeps s0 s1) : Keeps s0 (State.offFail s1 a2) := by
  unfold State.offFail
  exact keeps_State_diagFail (Keeps.same h1)

theorem keeps_doDiagClear {s0 : State} {s1 a2} (h1 : Keeps s0 s1) : Keeps s0 (doDiagClear s1 a2) := by
  unfold doDiagClear
  extract_lets -underBinder -merge -useContext +onlyGivenNames x0
  extract_lets -underBinder -merge -useContext +onlyGivenNames x1
  extract_lets -underBinder -merge -useContext +onlyGivenNames x2
  extract_lets -underBinder -merge -useContext +onlyGivenNames x3
  extract_lets -underBinder -merge -useContext +onlyGivenNames x4
  extract_lets -underBinder -merge -useContext +onlyGivenNames x5
  extract_lets -underBinder -merge -useContext +onlyGivenNames x6 x7
  extract_lets -underBinder -merge -useContext +onlyGivenNames x8
  exact keeps_State_diagShow (keeps_State_setReg (Keeps.same h1))

theorem keeps_State_testCheck {s0 : State} {s1} (h1 : Keeps s0 s1) : Keeps s0 (State.testCheck s1) := by
  unfold State.testCheck
  exact Keeps.ite (keeps_State_stepOn (keeps_State_raise (keeps_State_setPhase (Keeps.same h1)))) h1

theorem keeps_State_inputTo {s0 : State} {s1 a2 a3} (h1 : Keeps s0 s1) : Keeps s0 (State.inputTo s1 a2 a3) := by
  unfold State.inputTo
  extract_lets -underBinder -merge -useContext +onlyGivenNames x0
  extract_lets -underBinder -merge -useContext +onlyGivenNames x1
  extract_lets -underBinder -merge -useContext +onlyGivenNames x2 x3 x4
  have hx2 : Keeps s0 x2 := (keeps_State_setF (keeps_State_setF h1))
  clear_value x2
  have hx4 : Keeps s0 x4 := (Keeps.same hx2)
  clear_value x4
  refine Keeps.ite ?_ ?_
  · exact Keeps.ite (keeps_State_testCheck (keeps_State_setF hx4)) hx4
  · extract_lets -underBinder -merge -useContext +onlyGivenNames x5
    have hx5 : Keeps s0 x5 := (Keeps.ite hx4 (keeps_State_setF hx4))
    clear_value x5
    refine Keeps.ite ?_ ?_
    · extract_lets -underBinder -merge -useContext +onlyGivenNames x6
      exact Keeps.same hx5
    · exact hx5

theorem keeps_State_tryRelease {s0 : State} {s1 a2} (h1 : Keeps s0 s1) : Keeps s0 (State.tryRelease s1 a2) := by
  unfold State.tryRelease
  refine Keeps.ite ?_ ?_
  · exact h1
  · refine Keeps.ite ?_ ?_
    · exact keeps_State_raise (keeps_State_setF h1)
    · extract_lets -underBinder -merge -useContext +onlyGivenNames x0
      have hx0 : Keeps s0 x0 := (keeps_State_setF (keeps_State_setF h1))
      clear_value x0
      exact Keeps.same hx0

theorem keeps_State_setSto {s0 : State} {s1 a2} (h1 : Keeps s0 s1) : Keeps s0 (State.setSto s1 a2) := by
  unfold State.setSto
  exact Keeps.same h1

theorem keeps_State_doRelease {s0 : State} {s1} (h1 : Keeps s0 s1) : Keeps s0 (State.doRelease s1) := by
  unfold State.doRelease
  extract_lets -underBinder -merge -useContext +onlyGivenNames x0 x1
  have hx1 : Keeps s0 x1 := (keeps_State_setLines (Keeps.same h1))
  clear_value x1
  extract_lets -underBinder -merge -useContext +onlyGivenNames x2
  have hx2 : Keeps s0 x2 := (keeps_State_setReg (keeps_State_setF (keeps_State_setPhase (keeps_State_setSto hx1))))
  clear_value x2
  exact keeps_State_askStop (keeps_State_raise hx2)

theorem keeps_State_ss1Lines {s0 : State} {s1 a2 a3} (h1 : Keeps s0 s1) : Keeps s0 (State.ss1Lines s1 a2 a3) := by
  unfold State.ss1Lines
  extract_lets -underBinder -merge -useContext +onlyGivenNames x0
  extract_lets -underBinder -merge -useContext +onlyGivenNames x1
  extract_lets -underBinder -merge -useContext +onlyGivenNames x2
  extract_lets -underBinder -merge -useContext +onlyGivenNames x3
  extract_lets -underBinder -merge -useContext +onlyGivenNames x4
  have hx4 : Keeps s0 x4 := (keeps_State_setLines h1)
  clear_value x4
  exact Keeps.ite hx4 (keeps_State_enterSto hx4)

theorem keeps_State_ss1Tmax {s0 : State} {s1} (h1 : Keeps s0 s1) : Keeps s0 (State.ss1Tmax s1) := by
  unfold State.ss1Tmax
  exact keeps_State_ss1Lines (keeps_State_setF h1)

theorem keeps_State_ss1Step {s0 : State} {s1} (h1 : Keeps s0 s1) : Keeps s0 (State.ss1Step s1) := by
  unfold State.ss1Step
  refine Keeps.ite ?_ ?_
  · exact keeps_State_ss1Tmax h1
  · extract_lets -underBinder -merge -useContext +onlyGivenNames x0
    extract_lets -underBinder -merge -useContext +onlyGivenNames x1 x2
    have hx2 : Keeps s0 x2 := (Keeps.same h1)
    clear_value x2
    extract_lets -underBinder -merge -useContext +onlyGivenNames x3
    have hx3 : Keeps s0 x3 := (keeps_State_setF (keeps_State_setF (keeps_State_setF hx2)))
    clear_value x3
    exact keeps_State_ss1Lines (Keeps.ite hx3 (keeps_State_raise hx3))

theorem keeps_State_readback {s0 : State} {a1 a2 a3 s4} (h4 : Keeps s0 s4) : Keeps s0 (State.readback a1 a2 a3 s4) := by
  unfold State.readback
  extract_lets -underBinder -merge -useContext +onlyGivenNames x0
  extract_lets -underBinder -merge -useContext +onlyGivenNames x1
  refine Keeps.ite ?_ ?_
  · exact Keeps.same h4
  · extract_lets -underBinder -merge -useContext +onlyGivenNames x2
    extract_lets -underBinder -merge -useContext +onlyGivenNames x3
    extract_lets -underBinder -merge -useContext +onlyGivenNames x4
    extract_lets -underBinder -merge -useContext +onlyGivenNames x5
    extract_lets -underBinder -merge -useContext +onlyGivenNames x6
    extract_lets -underBinder -merge -useContext +onlyGivenNames x7
    extract_lets -underBinder -merge -useContext +onlyGivenNames x8
    have hx8 : Keeps s0 x8 := (Keeps.same h4)
    clear_value x8
    exact Keeps.ite (Keeps.ite (keeps_State_onFail hx8) (keeps_State_offFail hx8)) hx8

theorem keeps_State_otStep {s0 : State} {s1} (h1 : Keeps s0 s1) : Keeps s0 (State.otStep s1) := by
  unfold State.otStep
  extract_lets -underBinder -merge -useContext +onlyGivenNames x0
  extract_lets -underBinder -merge -useContext +onlyGivenNames x1
  exact Keeps.same h1

theorem keeps_State_takeDemands {s0 : State} {s1} (h1 : Keeps s0 s1) : Keeps s0 (State.takeDemands s1) := by
  unfold State.takeDemands
  extract_lets -underBinder -merge -useContext +onlyGivenNames x0
  extract_lets -underBinder -merge -useContext +onlyGivenNames x1
  have hx1 : Keeps s0 x1 := (Keeps.same h1)
  clear_value x1
  extract_lets -underBinder -merge -useContext +onlyGivenNames x2
  have hx2 : Keeps s0 x2 := (Keeps.ite (keeps_State_demand hx1) hx1)
  clear_value x2
  exact Keeps.ite (keeps_State_demand hx2) hx2

theorem keeps_State_crcPass {s0 : State} {s1 a2} (h1 : Keeps s0 s1) : Keeps s0 (State.crcPass s1 a2) := by
  unfold State.crcPass
  split
  · exact h1
  · extract_lets -underBinder -merge -useContext +onlyGivenNames x0
    have hx0 : Keeps s0 x0 := (keeps_State_wrap h1)
    clear_value x0
    exact Keeps.ite hx0 (keeps_State_diagFail hx0)

theorem keeps_doSubBeat {s0 : State} {s1 a2 a3 a4 a5} (h1 : Keeps s0 s1) : Keeps s0 (doSubBeat s1 a2 a3 a4 a5) := by
  unfold doSubBeat
  extract_lets -underBinder -merge -useContext +onlyGivenNames x0
  have hx0 : Keeps s0 x0 := (keeps_State_crcPass h1)
  clear_value x0
  refine Keeps.ite ?_ ?_
  · exact hx0
  · extract_lets -underBinder -merge -useContext +onlyGivenNames x1
    have hx1 : Keeps s0 x1 := (keeps_forUp (fun _ _ hx2 => (Keeps.ite (keeps_State_setF hx2) hx2)) hx0)
    clear_value x1
    extract_lets -underBinder -merge -useContext +onlyGivenNames x4
    extract_lets -underBinder -merge -useContext +onlyGivenNames x5
    extract_lets -underBinder -merge -useContext +onlyGivenNames x6
    have hx6 : Keeps s0 x6 := (Keeps.ite (keeps_State_diagFail (keeps_State_otStep hx1)) (keeps_State_otStep hx1))
    clear_value x6
    extract_lets -underBinder -merge -useContext +onlyGivenNames x7
    have hx7 : Keeps s0 x7 := (keeps_forUp (fun _ _ hx8 => (keeps_State_readback hx8)) (keeps_State_takeDemands hx6))
    clear_value x7
    extract_lets -underBinder -merge -useContext +onlyGivenNames x10
    have hx10 : Keeps s0 x10 := (Keeps.ite (keeps_State_ss1Step hx7) (Keeps.ite (keeps_State_ss1Lines hx7) hx7))
    clear_value x10
    extract_lets -underBinder -merge -useContext +onlyGivenNames x11
    have hx11 : Keeps s0 x11 := (Keeps.ite (keeps_State_doRelease hx10) hx10)
    clear_value x11
    exact keeps_State_stepOn (keeps_State_testCheck hx11)

theorem keeps_State_safPartner {s0 : State} {s1 a2 a3 a4} (h1 : Keeps s0 s1) : Keeps s0 (State.safPartner s1 a2 a3 a4) := by
  unfold State.safPartner
  extract_lets -underBinder -merge -useContext +onlyGivenNames x0
  extract_lets -underBinder -merge -useContext +onlyGivenNames x1 x2
  have hx2 : Keeps s0 x2 := (Keeps.same h1)
  clear_value x2
  refine Keeps.ite ?_ ?_
  · exact hx2
  · extract_lets -underBinder -merge -useContext +onlyGivenNames x3
    have hx3 : Keeps s0 x3 := (Keeps.ite hx2 (keeps_State_demand hx2))
    clear_value x3
    exact Keeps.ite (keeps_State_tryRelease hx3) hx3

theorem keeps_State_safRestore {s0 : State} {s1 a2} (h1 : Keeps s0 s1) : Keeps s0 (State.safRestore s1 a2) := by
  unfold State.safRestore
  extract_lets -underBinder -merge -useContext +onlyGivenNames x0
  extract_lets -underBinder -merge -useContext +onlyGivenNames x1
  have hx1 : Keeps s0 x1 := (keeps_State_setF h1)
  clear_value x1
  refine Keeps.ite ?_ ?_
  · exact h1
  · refine Keeps.ite ?_ ?_
    · exact keeps_State_enterSto hx1
    · refine Keeps.ite ?_ ?_
      · extract_lets -underBinder -merge -useContext +onlyGivenNames x2
        have hx2 : Keeps s0 x2 := (keeps_forUp (fun _ _ hx3 => (keeps_State_setF hx3)) (keeps_State_enterSs1 hx1))
        clear_value x2
        exact Keeps.same hx2
      · exact hx1

theorem keeps_execSubBeat {s0 : State} {a1 a2 a3 a4 s5} (h5 : Keeps s0 s5) : KeepsOut s0 (execSubBeat a1 a2 a3 a4 s5) := by
  unfold execSubBeat
  refine KeepsOut.liveIf ?_ ?_
  · exact h5
  · exact keeps_doSubBeat h5

theorem keeps_execBeatLost {s0 : State} {s1} (h1 : Keeps s0 s1) : KeepsOut s0 (execBeatLost s1) := by
  unfold execBeatLost
  refine KeepsOut.liveIf ?_ ?_
  · exact h1
  · exact keeps_State_raise h1

theorem keeps_execSubbeatOvr {s0 : State} {s1} (h1 : Keeps s0 s1) : KeepsOut s0 (execSubbeatOvr s1) := by
  unfold execSubbeatOvr
  refine KeepsOut.liveIf ?_ ?_
  · exact h1
  · exact keeps_State_stepOn (keeps_State_diagFail h1)

theorem keeps_execSafetyInputChange {s0 : State} {a1 a2 s3} (h3 : Keeps s0 s3) : KeepsOut s0 (execSafetyInputChange a1 a2 s3) := by
  unfold execSafetyInputChange
  refine KeepsOut.liveIf ?_ ?_
  · exact h3
  · exact keeps_State_inputTo h3

theorem keeps_execDiscrep {s0 : State} {a1 s2} (h2 : Keeps s0 s2) : KeepsOut s0 (execDiscrep a1 s2) := by
  unfold execDiscrep
  extract_lets -underBinder -merge -useContext +onlyGivenNames x0
  refine KeepsOut.liveIf ?_ ?_
  · exact h2
  · exact keeps_State_stepOn (keeps_State_discFail h2)

theorem keeps_execTestPulse {s0 : State} {a1 a2 s3} (h3 : Keeps s0 s3) : KeepsOut s0 (execTestPulse a1 a2 s3) := by
  unfold execTestPulse
  refine KeepsOut.liveIf ?_ ?_
  · exact h3
  · refine keeps_State_stepOn ?_
    · refine keeps_forUp (fun y1 x0 hx0 => ?_) ?_
      · refine Keeps.ite ?_ ?_
        · extract_lets -underBinder -merge -useContext +onlyGivenNames x2
          extract_lets -underBinder -merge -useContext +onlyGivenNames x3 x4
          have hx4 : Keeps s0 x4 := (Keeps.same hx0)
          clear_value x4
          exact Keeps.ite hx4 (keeps_State_tpFail hx4)
        · exact hx0
      · exact h3

theorem keeps_doSs1Req {s0 : State} {s1} (h1 : Keeps s0 s1) : Keeps s0 (doSs1Req s1) := by
  unfold doSs1Req
  exact keeps_State_ok (Keeps.ite (Keeps.same h1) h1)

theorem keeps_execSs1Request {s0 : State} {s1} (h1 : Keeps s0 s1) : KeepsOut s0 (execSs1Request s1) := by
  unfold execSs1Request
  refine KeepsOut.live ?_ ?_
  · exact h1
  · exact keeps_doSs1Req h1

theorem keeps_execSs1Tmax {s0 : State} {s1} (h1 : Keeps s0 s1) : KeepsOut s0 (execSs1Tmax s1) := by
  unfold execSs1Tmax
  refine KeepsOut.liveIf ?_ ?_
  · exact h1
  · exact keeps_State_ss1Tmax h1

theorem keeps_execOffTest {s0 : State} {a1 a2 s3} (h3 : Keeps s0 s3) : KeepsOut s0 (execOffTest a1 a2 s3) := by
  unfold execOffTest
  extract_lets -underBinder -merge -useContext +onlyGivenNames x0 x1
  have hx1 : Keeps s0 x1 := (Keeps.same h3)
  clear_value x1
  refine KeepsOut.liveIf ?_ ?_
  · exact h3
  · exact Keeps.ite hx1 (keeps_State_offFail hx1)

theorem keeps_execDiagClear {s0 : State} {a1 s2} (h2 : Keeps s0 s2) : KeepsOut s0 (execDiagClear a1 s2) := by
  unfold execDiagClear
  refine KeepsOut.live ?_ ?_
  · exact h2
  · exact keeps_State_ok (keeps_doDiagClear h2)

theorem keeps_doSafRelease {s0 : State} {s1 a2} (h1 : Keeps s0 s1) : Keeps s0 (doSafRelease s1 a2) := by
  unfold doSafRelease
  exact keeps_State_ok (Keeps.ite (keeps_State_tryRelease h1) h1)

theorem keeps_execSafRelease {s0 : State} {a1 s2} (h2 : Keeps s0 s2) : KeepsOut s0 (execSafRelease a1 s2) := by
  unfold execSafRelease
  refine KeepsOut.live ?_ ?_
  · exact h2
  · exact keeps_doSafRelease h2

theorem keeps_State_resetInput {s0 : State} {s1 a2} (h1 : Keeps s0 s1) : Keeps s0 (State.resetInput s1 a2) := by
  unfold State.resetInput
  refine Keeps.ite ?_ ?_
  · exact Keeps.same h1
  · extract_lets -underBinder -merge -useContext +onlyGivenNames x0 x1
    have hx1 : Keeps s0 x1 := (Keeps.same h1)
    clear_value x1
    split
    · exact hx1
    · exact Keeps.ite (keeps_State_tryRelease hx1) hx1

theorem keeps_execDiFilterChange {s0 : State} {a1 a2 s3} (h3 : Keeps s0 s3) : KeepsOut s0 (execDiFilterChange a1 a2 s3) := by
  unfold execDiFilterChange
  extract_lets -underBinder -merge -useContext +onlyGivenNames x0
  extract_lets -underBinder -merge -useContext +onlyGivenNames x1
  have hx1 : Keeps s0 x1 := (keeps_State_setF h3)
  clear_value x1
  refine KeepsOut.liveIf ?_ ?_
  · exact h3
  · exact Keeps.ite (keeps_State_resetInput hx1) hx1

theorem keeps_State_putImage {s0 : State} {s1 a2} (h1 : Keeps s0 s1) : Keeps s0 (State.putImage s1 a2) := by
  unfold State.putImage
  extract_lets -underBinder -merge -useContext +onlyGivenNames x0
  have hx0 : Keeps s0 x0 := (keeps_State_putContent h1)
  clear_value x0
  refine Keeps.ite ?_ ?_
  · split
    · exact hx0
    · exact keeps_State_dropContent hx0
  · exact hx0

theorem keeps_State_mount {s0 : State} {s1 a2 a3} (h1 : Keeps s0 s1) : Keeps s0 (State.mount s1 a2 a3) := by
  unfold State.mount
  refine Keeps.ite ?_ ?_
  · exact h1
  · refine Keeps.ite ?_ ?_
    · exact keeps_State_setF h1
    · split
      · exact Keeps.ite (keeps_State_setF h1) (keeps_State_raise (keeps_State_setF h1))
      · refine Keeps.ite ?_ ?_
        · exact keeps_State_raise (keeps_State_setF h1)
        · extract_lets -underBinder -merge -useContext +onlyGivenNames x0
          extract_lets -underBinder -merge -useContext +onlyGivenNames x1
          extract_lets -underBinder -merge -useContext +onlyGivenNames x2 x3
          have hx3 : Keeps s0 x3 := (Keeps.same h1)
          clear_value x3
          exact keeps_State_raise (keeps_State_nfcShow (keeps_State_setF (keeps_State_setF hx3)))

theorem keeps_State_nfcRestart {s0 : State} {s1} (h1 : Keeps s0 s1) : Keeps s0 (State.nfcRestart s1) := by
  unfold State.nfcRestart
  extract_lets -underBinder -merge -useContext +onlyGivenNames x0 x1
  have hx1 : Keeps s0 x1 := (Keeps.same h1)
  clear_value x1
  exact keeps_State_setF hx1

theorem keeps_State_reqEnd {s0 : State} {s1 a2} (h1 : Keeps s0 s1) : Keeps s0 (State.reqEnd s1 a2) := by
  unfold State.reqEnd
  extract_lets -underBinder -merge -useContext +onlyGivenNames x0 x1
  have hx1 : Keeps s0 x1 := (Keeps.same h1)
  clear_value x1
  exact keeps_State_raise (keeps_State_setF (keeps_State_setF (keeps_State_setF hx1)))

theorem keeps_doNfcReq {s0 : State} {s1 a2 a3} (h1 : Keeps s0 s1) : Keeps s0 (doNfcReq s1 a2 a3) := by
  unfold doNfcReq
  extract_lets -underBinder -merge -useContext +onlyGivenNames x0
  extract_lets -underBinder -merge -useContext +onlyGivenNames x1
  extract_lets -underBinder -merge -useContext +onlyGivenNames x2
  extract_lets -underBinder -merge -useContext +onlyGivenNames x3
  have hx3 : Keeps s0 x3 := (keeps_State_setF (keeps_State_setF (keeps_State_setF h1)))
  clear_value x3
  refine Keeps.ite ?_ ?_
  · exact keeps_State_ok hx3
  · refine Keeps.ite ?_ ?_
    · exact keeps_State_ok (keeps_State_setF hx3)
    · extract_lets -underBinder -merge -useContext +onlyGivenNames x4
      extract_lets -underBinder -merge -useContext +onlyGivenNames x5
      extract_lets -underBinder -merge -useContext +onlyGivenNames x6
      refine Keeps.ite ?_ ?_
      · exact keeps_State_ok (keeps_State_reqEnd hx3)
      · refine Keeps.ite ?_ ?_
        · exact keeps_State_ok (keeps_State_reqEnd hx3)
        · extract_lets -underBinder -merge -useContext +onlyGivenNames x7 x8
          have hx8 : Keeps s0 x8 := (Keeps.same hx3)
          clear_value x8
          exact keeps_State_ok (keeps_State_setF (keeps_State_setF hx8))

theorem keeps_State_reqCopy {s0 : State} {s1 a2} (h1 : Keeps s0 s1) : Keeps s0 (State.reqCopy s1 a2) := by
  unfold State.reqCopy
  extract_lets -underBinder -merge -useContext +onlyGivenNames x0
  have hx0 : Keeps s0 x0.st := Keeps.replyOf (y := State.mWrite _ _ _ _) rfl (keeps_State_mWrite h1)
  clear_value x0
  refine keeps_State_reqEnd ?_
  · refine keeps_State_setReg ?_
    · exact hx0

theorem keeps_State_reqWrite {s0 : State} {s1 a2} (h1 : Keeps s0 s1) : Keeps s0 (State.reqWrite s1 a2) := by
  unfold State.reqWrite
  extract_lets -underBinder -merge -useContext +onlyGivenNames x0
  refine Keeps.ite ?_ ?_
  · exact keeps_State_reqEnd h1
  · refine Keeps.ite ?_ ?_
    · exact keeps_State_reqEnd h1
    · extract_lets -underBinder -merge -useContext +onlyGivenNames x1
      have hx1 : Keeps s0 x1.st := Keeps.replyOf (y := State.mRead _ _ _ _) rfl (keeps_State_mRead h1)
      clear_value x1
      refine Keeps.ite ?_ ?_
      · refine keeps_State_reqEnd ?_
        · exact hx1
      · refine Keeps.ite ?_ ?_
        · refine keeps_State_reqEnd ?_
          · exact hx1
        · refine Keeps.ite ?_ ?_
          · refine keeps_State_reqEnd ?_
            · exact hx1
          · refine keeps_State_reqEnd ?_
            · refine keeps_State_putContent ?_
              · exact hx1

theorem keeps_State_setConfig {s0 : State} {s1 a2} (h1 : Keeps s0 s1) : Keeps s0 (State.setConfig s1 a2) := by
  unfold State.setConfig
  exact Keeps.same h1

theorem keeps_State_reqLoad {s0 : State} {s1 a2 a3} (h1 : Keeps s0 s1) : Keeps s0 (State.reqLoad s1 a2 a3) := by
  unfold State.reqLoad
  refine Keeps.ite ?_ ?_
  · exact keeps_State_reqEnd h1
  · split
    · exact keeps_State_reqEnd h1
    · extract_lets -underBinder -merge -useContext +onlyGivenNames x0
      extract_lets -underBinder -merge -useContext +onlyGivenNames x1
      have hx1 : ∀ y2, Keeps s0 (x1 y2) := by
        intro y2 
        unfold x1
        exact keeps_State_reqEnd (Keeps.ite (keeps_State_scramble h1) h1)
      clear_value x1
      refine Keeps.ite ?_ ?_
      · refine hx1 _
      · refine Keeps.ite ?_ ?_
        · refine hx1 _
        · refine Keeps.ite ?_ ?_
          · refine hx1 _
          · exact Keeps.ite (keeps_State_setConfig (keeps_State_reqCopy h1)) (keeps_State_reqCopy h1)

theorem keeps_State_reqErase {s0 : State} {s1 a2} (h1 : Keeps s0 s1) : Keeps s0 (State.reqErase s1 a2) := by
  unfold State.reqErase
  exact Keeps.ite (keeps_State_reqEnd h1) (Keeps.ite (keeps_State_reqEnd h1) (keeps_State_reqEnd (keeps_State_dropContent h1)))

theorem keeps_State_reqImage {s0 : State} {s1 a2} (h1 : Keeps s0 s1) : Keeps s0 (State.reqImage s1 a2) := by
  unfold State.reqImage
  split
  · exact keeps_State_reqEnd h1
  · exact Keeps.ite (keeps_State_reqEnd h1) (keeps_State_reqCopy h1)

theorem keeps_execNfcWrite {s0 : State} {a1 a2 s3} (h3 : Keeps s0 s3) : KeepsOut s0 (execNfcWrite a1 a2 s3) := by
  unfold execNfcWrite
  refine KeepsOut.live ?_ ?_
  · exact h3
  · exact keeps_doNfcReq h3

theorem keeps_execNfcLoad {s0 : State} {a1 a2 s3} (h3 : Keeps s0 s3) : KeepsOut s0 (execNfcLoad a1 a2 s3) := by
  unfold execNfcLoad
  refine KeepsOut.live ?_ ?_
  · exact h3
  · exact keeps_doNfcReq h3

theorem keeps_execNfcErase {s0 : State} {a1 a2 s3} (h3 : Keeps s0 s3) : KeepsOut s0 (execNfcErase a1 a2 s3) := by
  unfold execNfcErase
  refine KeepsOut.live ?_ ?_
  · exact h3
  · exact keeps_doNfcReq h3

theorem keeps_execNfcImage {s0 : State} {a1 a2 s3} (h3 : Keeps s0 s3) : KeepsOut s0 (execNfcImage a1 a2 s3) := by
  unfold execNfcImage
  refine KeepsOut.live ?_ ?_
  · exact h3
  · exact keeps_doNfcReq h3

theorem keeps_execReqDone {s0 : State} {a1 s2} (h2 : Keeps s0 s2) : KeepsOut s0 (execReqDone a1 s2) := by
  unfold execReqDone
  refine KeepsOut.live ?_ ?_
  · exact h2
  · split
    · exact h2
    · exact Keeps.ite h2 (Keeps.ite (keeps_State_reqWrite h2) (Keeps.ite (keeps_State_reqLoad h2) (Keeps.ite (keeps_State_reqErase h2) (keeps_State_reqImage h2))))

theorem keeps_execNandOperationDone {s0 : State} {a1 a2 a3 a4 s5} (h5 : Keeps s0 s5) : KeepsOut s0 (execNandOperationDone a1 a2 a3 a4 s5) := by
  unfold execNandOperationDone
  refine KeepsOut.liveIf ?_ ?_
  · exact h5
  · refine Keeps.ite ?_ ?_
    · extract_lets -underBinder -merge -useContext +onlyGivenNames x0
      have hx0 : Keeps s0 x0 := (keeps_State_readBlk h5)
      clear_value x0
      exact Keeps.ite (keeps_State_loseQuarter hx0) hx0
    · exact Keeps.ite (Keeps.ite (keeps_State_progFail h5) h5) (keeps_State_eraseBlk h5)

theorem keeps_execRelocationDone {s0 : State} {a1 s2} (h2 : Keeps s0 s2) : KeepsOut s0 (execRelocationDone a1 s2) := by
  unfold execRelocationDone
  refine KeepsOut.liveIf ?_ ?_
  · exact h2
  · exact keeps_State_relocate h2

theorem keeps_execPatrol {s0 : State} {a1 a2 s3} (h3 : Keeps s0 s3) : KeepsOut s0 (execPatrol a1 a2 s3) := by
  unfold execPatrol
  extract_lets -underBinder -merge -useContext +onlyGivenNames x0
  have hx0 : Keeps s0 x0 := (keeps_State_readBlk h3)
  clear_value x0
  extract_lets -underBinder -merge -useContext +onlyGivenNames x1
  refine KeepsOut.liveIf ?_ ?_
  · exact h3
  · exact Keeps.ite (keeps_State_schedule hx0) hx0

theorem keeps_doBootSel {s0 : State} {s1 a2} (h1 : Keeps s0 s1) : Keeps s0 (doBootSel s1 a2) := by
  unfold doBootSel
  extract_lets -underBinder -merge -useContext +onlyGivenNames x0
  exact keeps_State_ok (Keeps.ite h1 (Keeps.ite (keeps_State_raise (keeps_State_setF (keeps_State_setF h1))) (Keeps.ite (keeps_State_raise (keeps_State_setF (keeps_State_setF h1))) (keeps_State_setF (Keeps.same h1)))))

theorem keeps_execNfcBootSel {s0 : State} {a1 s2} (h2 : Keeps s0 s2) : KeepsOut s0 (execNfcBootSel a1 s2) := by
  unfold execNfcBootSel
  refine KeepsOut.live ?_ ?_
  · exact h2
  · exact keeps_doBootSel h2

theorem keeps_State_eraseAll {s0 : State} {s1 a2} (h1 : Keeps s0 s1) : Keeps s0 (State.eraseAll s1 a2) := by
  unfold State.eraseAll
  extract_lets -underBinder -merge -useContext +onlyGivenNames x0
  exact Keeps.same h1

theorem keeps_State_format {s0 : State} {s1 a2} (h1 : Keeps s0 s1) : Keeps s0 (State.format s1 a2) := by
  unfold State.format
  extract_lets -underBinder -merge -useContext +onlyGivenNames x0
  extract_lets -underBinder -merge -useContext +onlyGivenNames x1
  extract_lets -underBinder -merge -useContext +onlyGivenNames x2
  extract_lets -underBinder -merge -useContext +onlyGivenNames x3 x4 x5
  have hx5 : Keeps s0 x5 := (Keeps.same h1)
  clear_value x5
  exact keeps_State_nfcShow (keeps_State_setF (keeps_State_setF hx5))

theorem keeps_doFormat {s0 : State} {s1 a2 a3} (h1 : Keeps s0 s1) : Keeps s0 (doFormat s1 a2 a3) := by
  unfold doFormat
  extract_lets -underBinder -merge -useContext +onlyGivenNames x0
  exact keeps_State_ok (Keeps.ite h1 (keeps_State_format h1))

theorem keeps_execNfcFormat {s0 : State} {a1 a2 s3} (h3 : Keeps s0 s3) : KeepsOut s0 (execNfcFormat a1 a2 s3) := by
  unfold execNfcFormat
  refine KeepsOut.live ?_ ?_
  · exact h3
  · exact keeps_doFormat h3

theorem keeps_State_nfcReturned {s0 : State} {s1} (h1 : Keeps s0 s1) : Keeps s0 (State.nfcReturned s1) := by
  unfold State.nfcReturned
  extract_lets -underBinder -merge -useContext +onlyGivenNames x0
  extract_lets -underBinder -merge -useContext +onlyGivenNames x1
  have hx1 : Keeps s0 x1 := by
    refine Keeps.foldl (fun x2 y3 hx2 => ?_) ?_
    · try beta_reduce
      extract_lets -underBinder -merge -useContext +onlyGivenNames x4
      exact keeps_State_setBlk hx2
    · exact h1
  clear_value x1
  exact keeps_State_nfcShow (Keeps.same hx1)

theorem keeps_State_parBad {s0 : State} {s1} (h1 : Keeps s0 s1) : Keeps s0 (State.parBad s1) := by
  unfold State.parBad
  exact keeps_State_stick h1

theorem keeps_State_seeTally {s0 : State} {s1 a2} (h1 : Keeps s0 s1) : Keeps s0 (State.seeTally s1 a2) := by
  unfold State.seeTally
  refine Keeps.ite ?_ ?_
  · exact h1
  · refine Keeps.ite ?_ ?_
    · exact keeps_State_raise h1
    · extract_lets -underBinder -merge -useContext +onlyGivenNames x0
      extract_lets -underBinder -merge -useContext +onlyGivenNames x1
      extract_lets -underBinder -merge -useContext +onlyGivenNames x2
      extract_lets -underBinder -merge -useContext +onlyGivenNames x3 x4
      have hx4 : Keeps s0 x4 := (keeps_State_setF (Keeps.same h1))
      clear_value x4
      exact Keeps.ite (keeps_State_raise hx4) hx4

theorem keeps_State_raiseTally {s0 : State} {s1} (h1 : Keeps s0 s1) : Keeps s0 (State.raiseTally s1).1 := by
  unfold State.raiseTally
  extract_lets -underBinder -merge -useContext +onlyGivenNames x0
  split
  · refine Keeps.pair ?_
    exact keeps_State_raise h1
  · refine Keeps.pair ?_
    exact keeps_State_setF h1

theorem keeps_State_takeDeeds {s0 : State} {s1} (h1 : Keeps s0 s1) : Keeps s0 (State.takeDeeds s1) := by
  unfold State.takeDeeds
  exact Keeps.foldl (fun _ _ hx0 => (Keeps.ite hx0 (keeps_State_passDeed hx0))) h1

theorem keeps_State_giveDeeds {s0 : State} {s1} (h1 : Keeps s0 s1) : Keeps s0 (State.giveDeeds s1) := by
  unfold State.giveDeeds
  exact Keeps.foldl (fun _ _ hx0 => (Keeps.ite hx0 (keeps_State_passDeed hx0))) h1

theorem keeps_State_writeSections {s0 : State} {s1} (h1 : Keeps s0 s1) : Keeps s0 (State.writeSections s1) := by
  unfold State.writeSections
  exact keeps_State_store h1

theorem keeps_State_flashCopy {s0 : State} {s1} (h1 : Keeps s0 s1) : Keeps s0 (State.flashCopy s1) := by
  unfold State.flashCopy
  extract_lets -underBinder -merge -useContext +onlyGivenNames x0
  have hx0 : Keeps s0 x0.st := Keeps.replyOf (y := State.mWrite _ _ _ _) rfl (keeps_State_mWrite h1)
  clear_value x0
  revert x0
  refine id ?_
  intro x0 hx0
  extract_lets -underBinder -merge -useContext +onlyGivenNames x1
  have hx1 : Keeps s0 x1 := by
    unfold x1
    exact hx0
  clear_value x1
  revert x1
  refine id ?_
  intro x1 hx1
  exact Keeps.same hx1

theorem keeps_State_flashWant {s0 : State} {s1} (h1 : Keeps s0 s1) : Keeps s0 (State.flashWant s1) := by
  unfold State.flashWant
  exact Keeps.ite h1 (Keeps.ite (keeps_State_stickN h1) (Keeps.same h1))

theorem keeps_State_takeDirty {s0 : State} {s1 a2} (h1 : Keeps s0 s1) : Keeps s0 (State.takeDirty s1 a2) := by
  unfold State.takeDirty
  extract_lets -underBinder -merge -useContext +onlyGivenNames x0
  extract_lets -underBinder -merge -useContext +onlyGivenNames x1
  exact Keeps.same h1

theorem keeps_State_icvo {s0 : State} {s1 a2} (h1 : Keeps s0 s1) : Keeps s0 (State.icvo s1 a2) := by
  unfold State.icvo
  exact Keeps.ite h1 (keeps_State_send h1)

theorem keeps_State_sbxSkip {s0 : State} {s1} (h1 : Keeps s0 s1) : Keeps s0 (State.sbxSkip s1) := by
  unfold State.sbxSkip
  exact keeps_State_stick h1

theorem keeps_State_sendBanks {s0 : State} {s1} (h1 : Keeps s0 s1) : Keeps s0 (State.sendBanks s1) := by
  unfold State.sendBanks
  extract_lets -underBinder -merge -useContext +onlyGivenNames x0
  extract_lets -underBinder -merge -useContext +onlyGivenNames x1
  extract_lets -underBinder -merge -useContext +onlyGivenNames x2
  extract_lets -underBinder -merge -useContext +onlyGivenNames x3
  extract_lets -underBinder -merge -useContext +onlyGivenNames x4
  have hx4 : Keeps s0 x4 := (Keeps.foldl (fun _ _ hx5 => (keeps_State_icvo hx5)) h1)
  clear_value x4
  exact Keeps.same hx4

theorem keeps_State_sbxSend {s0 : State} {s1} (h1 : Keeps s0 s1) : Keeps s0 (State.sbxSend s1) := by
  unfold State.sbxSend
  refine Keeps.ite ?_ ?_
  · exact h1
  · refine Keeps.ite ?_ ?_
    · exact keeps_State_sendBanks (keeps_State_takeDirty h1)
    · refine Keeps.ite ?_ ?_
      · extract_lets -underBinder -merge -useContext +onlyGivenNames x0 x1 x2
        have hx2 : Keeps s0 x2 := (Keeps.same h1)
        clear_value x2
        exact keeps_State_sendBanks hx2
      · extract_lets -underBinder -merge -useContext +onlyGivenNames x3
        extract_lets -underBinder -merge -useContext +onlyGivenNames x4
        have hx4 : Keeps s0 x4 := (keeps_State_takeDirty h1)
        clear_value x4
        refine Keeps.ite ?_ ?_
        · exact keeps_State_sbxSkip (Keeps.same hx4)
        · extract_lets -underBinder -merge -useContext +onlyGivenNames x5
          exact Keeps.ite (keeps_State_sbxSkip hx4) (keeps_State_setF (keeps_State_icvo hx4))

theorem keeps_State_ackDelta {s0 : State} {s1 a2} (h1 : Keeps s0 s1) : Keeps s0 (State.ackDelta s1 a2) := by
  unfold State.ackDelta
  extract_lets -underBinder -merge -useContext +onlyGivenNames x0
  exact Keeps.ite h1 (Keeps.ite (Keeps.same h1) (Keeps.ite (Keeps.same h1) h1))

theorem keeps_State_headCheck {s0 : State} {s1} (h1 : Keeps s0 s1) : Keeps s0 (State.headCheck s1) := by
  unfold State.headCheck
  extract_lets -underBinder -merge -useContext +onlyGivenNames x0
  exact keeps_State_setF (keeps_State_setF h1)

theorem keeps_State_rxBank {s0 : State} {s1 a2} (h1 : Keeps s0 s1) : Keeps s0 (State.rxBank s1 a2) := by
  unfold State.rxBank
  refine Keeps.ite ?_ ?_
  · exact keeps_State_parBad h1
  · refine Keeps.ite ?_ ?_
    · exact h1
    · extract_lets -underBinder -merge -useContext +onlyGivenNames x0
      extract_lets -underBinder -merge -useContext +onlyGivenNames x1 x2 x3
      have hx1 : Keeps s0 x1 := (keeps_State_setF h1)
      clear_value x1
      have hx3 : Keeps s0 x3 := (Keeps.same hx1)
      clear_value x3
      refine Keeps.ite ?_ ?_
      · exact Keeps.same hx3
      · extract_lets -underBinder -merge -useContext +onlyGivenNames x4
        have hx4 : Keeps s0 x4.st := Keeps.replyOf (y := State.mWrite _ _ _ _) rfl (keeps_State_mWrite hx3)
        clear_value x4
        extract_lets -underBinder -merge -useContext +onlyGivenNames x5
        extract_lets -underBinder -merge -useContext +onlyGivenNames x6
        extract_lets -underBinder -merge -useContext +onlyGivenNames x7 x8 x9
        have hx7 : Keeps s0 x7 := by
          unfold x7
          exact hx4
        clear_value x7
        have hx9 : Keeps s0 x9 := (Keeps.same hx7)
        clear_value x9
        extract_lets -underBinder -merge -useContext +onlyGivenNames x10
        have hx10 : Keeps s0 x10 := (Keeps.ite (keeps_State_setF hx9) hx9)
        clear_value x10
        exact Keeps.ite (keeps_State_headCheck hx10) hx10

theorem keeps_State_rxDelta {s0 : State} {s1 a2} (h1 : Keeps s0 s1) : Keeps s0 (State.rxDelta s1 a2) := by
  unfold State.rxDelta
  extract_lets -underBinder -merge -useContext +onlyGivenNames x0
  refine Keeps.ite ?_ ?_
  · exact keeps_State_parBad h1
  · refine Keeps.ite ?_ ?_
    · exact h1
    · extract_lets -underBinder -merge -useContext +onlyGivenNames x1
      have hx1 : Keeps s0 x1.st := Keeps.replyOf (y := State.mWrite _ _ _ _) rfl (keeps_State_mWrite h1)
      clear_value x1
      split
      · exact hx1
      · extract_lets -underBinder -merge -useContext +onlyGivenNames x2
        refine Keeps.ite ?_ ?_
        · extract_lets -underBinder -merge -useContext +onlyGivenNames x3
          have hx3 : Keeps s0 x3 := by
            unfold x3
            exact hx1
          clear_value x3
          exact Keeps.same hx3
        · exact hx1

theorem keeps_State_copyDelta {s0 : State} {s1 a2} (h1 : Keeps s0 s1) : Keeps s0 (State.copyDelta s1 a2) := by
  unfold State.copyDelta
  extract_lets -underBinder -merge -useContext +onlyGivenNames x0
  have hx0 : Keeps s0 x0.1 := by
    refine Keeps.foldlPair (fun x1 y2 hx1 => ?_) ?_
    · extract_lets -underBinder -merge -useContext +onlyGivenNames x3
      have hx3 : Keeps s0 x3.st := by
        refine keeps_State_mWrite ?_
        · exact hx1
      clear_value x3
      refine Keeps.pair ?_
      exact hx3
    · refine Keeps.pair ?_
      exact h1
  clear_value x0
  extract_lets -underBinder -merge -useContext +onlyGivenNames x4 x5 x6
  have hx4 : Keeps s0 x4 := by
    unfold x4
    exact hx0
  clear_value x4
  have hx6 : Keeps s0 x6 := (Keeps.same hx4)
  clear_value x6
  exact Keeps.ite (keeps_State_headCheck (keeps_State_setF (keeps_State_setF (keeps_State_setF hx6)))) (keeps_State_setF hx6)

theorem keeps_State_loadSlots {s0 : State} {s1 a2} (h1 : Keeps s0 s1) : Keeps s0 (State.loadSlots s1 a2) := by
  unfold State.loadSlots
  refine keeps_forUp (fun y1 x0 hx0 => ?_) ?_
  · extract_lets -underBinder -merge -useContext +onlyGivenNames x2
    extract_lets -underBinder -merge -useContext +onlyGivenNames x3
    exact keeps_State_setF (keeps_State_setReg (keeps_State_setReg (keeps_State_setSlotI hx0)))
  · exact h1

theorem keeps_State_loadMode {s0 : State} {s1 a2 a3 a4} (h1 : Keeps s0 s1) : Keeps s0 (State.loadMode s1 a2 a3 a4) := by
  unfold State.loadMode
  extract_lets -underBinder -merge -useContext +onlyGivenNames x0
  have hx0 : Keeps s0 x0 := (keeps_State_setF (keeps_State_setF h1))
  clear_value x0
  exact Keeps.ite hx0 (keeps_State_setMode hx0)

theorem keeps_State_loadRecord {s0 : State} {s1 a2} (h1 : Keeps s0 s1) : Keeps s0 (State.loadRecord s1 a2) := by
  unfold State.loadRecord
  exact keeps_State_loadSlots (keeps_State_loadMode h1)

theorem keeps_State_loadCle {s0 : State} {s1 a2} (h1 : Keeps s0 s1) : Keeps s0 (State.loadCle s1 a2) := by
  unfold State.loadCle
  extract_lets -underBinder -merge -useContext +onlyGivenNames x0
  have hx0 : Keeps s0 x0 := (keeps_State_loadSlots (keeps_State_loadMode h1))
  clear_value x0
  exact keeps_forUp (fun _ _ hx1 => (keeps_State_setReg hx1)) hx0

theorem keeps_State_loadTraj {s0 : State} {s1 a2 a3} (h1 : Keeps s0 s1) : Keeps s0 (State.loadTraj s1 a2 a3) := by
  unfold State.loadTraj
  extract_lets -underBinder -merge -useContext +onlyGivenNames x0
  have hx0 : Keeps s0 x0 := (keeps_forUp (fun _ _ hx1 => (keeps_State_setReg hx1)) h1)
  clear_value x0
  extract_lets -underBinder -merge -useContext +onlyGivenNames x3
  have hx3 : Keeps s0 x3 := (keeps_State_setReg (keeps_State_setPair hx0))
  clear_value x3
  exact Keeps.same hx3

theorem keeps_State_loadCommitted {s0 : State} {s1 a2} (h1 : Keeps s0 s1) : Keeps s0 (State.loadCommitted s1 a2) := by
  unfold State.loadCommitted
  refine Keeps.foldl (fun x0 y1 hx0 => ?_) ?_
  · try beta_reduce
    extract_lets -underBinder -merge -useContext +onlyGivenNames x2
    extract_lets -underBinder -merge -useContext +onlyGivenNames x3
    exact keeps_State_setSh (keeps_State_setReg hx0)
  · exact h1

theorem keeps_State_loadFus {s0 : State} {s1 a2} (h1 : Keeps s0 s1) : Keeps s0 (State.loadFus s1 a2) := by
  unfold State.loadFus
  extract_lets -underBinder -merge -useContext +onlyGivenNames x0
  have hx0 : Keeps s0 x0 := by
    refine keeps_forUp (fun y2 x1 hx1 => ?_) ?_
    · extract_lets -underBinder -merge -useContext +onlyGivenNames x3
      refine keeps_forUp (fun y5 x4 hx4 => ?_) ?_
      · extract_lets -underBinder -merge -useContext +onlyGivenNames x6
        exact keeps_State_setSh (keeps_State_setReg hx4)
      · exact keeps_State_setReg (keeps_State_setReg hx1)
    · exact h1
  clear_value x0
  extract_lets -underBinder -merge -useContext +onlyGivenNames x7
  exact Keeps.same hx0

theorem keeps_State_loadAsm {s0 : State} {s1 a2} (h1 : Keeps s0 s1) : Keeps s0 (State.loadAsm s1 a2) := by
  unfold State.loadAsm
  extract_lets -underBinder -merge -useContext +onlyGivenNames x0
  have hx0 : Keeps s0 x0 := (keeps_forUp (fun _ _ hx1 => (keeps_State_setF hx1)) h1)
  clear_value x0
  extract_lets -underBinder -merge -useContext +onlyGivenNames x3
  exact Keeps.same hx0

theorem keeps_State_loadPair {s0 : State} {s1 a2} (h1 : Keeps s0 s1) : Keeps s0 (State.loadPair s1 a2) := by
  unfold State.loadPair
  exact keeps_State_seeTally (keeps_State_seeTally h1)

theorem keeps_State_restoreTakeover {s0 : State} {s1 a2} (h1 : Keeps s0 s1) : Keeps s0 (State.restoreTakeover s1 a2) := by
  unfold State.restoreTakeover
  extract_lets -underBinder -merge -useContext +onlyGivenNames x0
  extract_lets -underBinder -merge -useContext +onlyGivenNames x1
  extract_lets -underBinder -merge -useContext +onlyGivenNames x2
  have hx2 : Keeps s0 x2 := (keeps_State_loadCommitted (keeps_State_loadTraj (keeps_State_safRestore (keeps_State_loadPair h1))))
  clear_value x2
  extract_lets -underBinder -merge -useContext +onlyGivenNames x3
  have hx3 : Keeps s0 x3 := (keeps_State_setReg (keeps_State_loadAsm (keeps_State_loadFus hx2)))
  clear_value x3
  refine keeps_State_setF ?_
  · split
    · exact keeps_State_loadRecord hx3
    · exact keeps_State_loadCle hx3

theorem keeps_State_coldClear {s0 : State} {s1} (h1 : Keeps s0 s1) : Keeps s0 (State.coldClear s1) := by
  unfold State.coldClear
  extract_lets -underBinder -merge -useContext +onlyGivenNames y0 y1 y2
  have hy1 : Keeps s0 y1 := Keeps.same h1
  clear_value y1
  have hy2 : Keeps s0 y2 := keeps_State_setReg (keeps_forUp (fun _ _ hx => keeps_State_setF hx) hy1)
  clear_value y2
  exact Keeps.ite hy2 (keeps_State_setMode hy2)

theorem keeps_State_coldStart {s0 : State} {s1 a2} (h0 : Keeps s0 s1) : Keeps s0 (State.coldStart s1 a2) := by
  unfold State.coldStart
  extract_lets -underBinder -merge -useContext +onlyGivenNames z0
  have h1 : Keeps s0 z0 := keeps_State_coldClear h0
  clear_value z0
  extract_lets -underBinder -merge -useContext +onlyGivenNames x0
  have hx0 : ∀ y1 y2, Keeps s0 y1 → Keeps s0 (x0 y1 y2) := by
    intro y1 y2 hy1
    unfold x0
    exact keeps_State_touch (keeps_State_clearMem hy1)
  clear_value x0
  split
  · refine Keeps.foldl (fun x3 y4 hx3 => ?_) ?_
    · try beta_reduce
      refine hx0 _ _ ?_
      · exact hx3
    · exact h1
  · extract_lets -underBinder -merge -useContext +onlyGivenNames x5
    extract_lets -underBinder -merge -useContext +onlyGivenNames x6
    extract_lets -underBinder -merge -useContext +onlyGivenNames x7
    extract_lets -underBinder -merge -useContext +onlyGivenNames x8
    extract_lets -underBinder -merge -useContext +onlyGivenNames x9
    have hx9 : Keeps s0 x9 := (keeps_State_setReg (keeps_State_loadFus h1))
    clear_value x9
    extract_lets -underBinder -merge -useContext +onlyGivenNames x10
    have hx10 : Keeps s0 x10 := by
      unfold x10
      refine hx0 _ _ ?_
      · exact hx9
    clear_value x10
    refine Keeps.foldl (fun x11 y12 hx11 => ?_) ?_
    · try beta_reduce
      split
      · exact keeps_State_store hx11
      · refine hx0 _ _ ?_
        · exact hx11
    · exact hx10

theorem keeps_doEvtClaim {s0 : State} {s1 a2} (h1 : Keeps s0 s1) : Keeps s0 (doEvtClaim s1 a2) := by
  unfold doEvtClaim
  split
  · exact keeps_State_ansW h1
  · exact keeps_State_ansW (Keeps.same h1)

theorem keeps_doEvtDone {s0 : State} {s1 a2 a3} (h1 : Keeps s0 s1) : Keeps s0 (doEvtDone s1 a2 a3) := by
  unfold doEvtDone
  exact keeps_State_ok (Keeps.same h1)

theorem keeps_doEvtRoute {s0 : State} {s1 a2 a3 a4} (h1 : Keeps s0 s1) : Keeps s0 (doEvtRoute s1 a2 a3 a4) := by
  unfold doEvtRoute
  refine Keeps.ite ?_ ?_
  · exact keeps_State_ok h1
  · extract_lets -underBinder -merge -useContext +onlyGivenNames x0
    extract_lets -underBinder -merge -useContext +onlyGivenNames x1
    have hx1 : Keeps s0 x1 := (keeps_State_setF (keeps_State_setF (keeps_State_setF h1)))
    clear_value x1
    exact keeps_State_ok (Keeps.ite (keeps_State_setF hx1) hx1)

theorem keeps_doEventSet {s0 : State} {s1 a2 a3} (h1 : Keeps s0 s1) : Keeps s0 (doEventSet s1 a2 a3) := by
  unfold doEventSet
  exact keeps_State_ok (keeps_State_raiseBits h1)

theorem keeps_doEventClear {s0 : State} {s1 a2 a3} (h1 : Keeps s0 s1) : Keeps s0 (doEventClear s1 a2 a3) := by
  unfold doEventClear
  exact keeps_State_ok (keeps_State_setReg h1)

theorem keeps_doEventEn {s0 : State} {s1 a2 a3} (h1 : Keeps s0 s1) : Keeps s0 (doEventEn s1 a2 a3) := by
  unfold doEventEn
  extract_lets -underBinder -merge -useContext +onlyGivenNames x0
  exact keeps_State_ok (keeps_linesFrom (keeps_State_setReg h1))

theorem keeps_doPageLock {s0 : State} {s1 a2 a3} (h1 : Keeps s0 s1) : Keeps s0 (doPageLock s1 a2 a3) := by
  unfold doPageLock
  exact keeps_State_ok (keeps_State_setReg h1)

theorem keeps_doQuiesce {s0 : State} {s1 a2 a3} (h1 : Keeps s0 s1) : Keeps s0 (doQuiesce s1 a2 a3) := by
  unfold doQuiesce
  exact keeps_State_ok (keeps_State_setF h1)

theorem keeps_doEnable {s0 : State} {s1 a2 a3} (h1 : Keeps s0 s1) : Keeps s0 (doEnable s1 a2 a3) := by
  unfold doEnable
  exact keeps_State_ok (Keeps.ite h1 (keeps_State_setF h1))

theorem keeps_execEvtClaim {s0 : State} {a1 s2} (h2 : Keeps s0 s2) : KeepsOut s0 (execEvtClaim a1 s2) := by
  unfold execEvtClaim
  refine KeepsOut.liveIf ?_ ?_
  · exact h2
  · exact keeps_doEvtClaim h2

theorem keeps_execEvtDone {s0 : State} {a1 a2 s3} (h3 : Keeps s0 s3) : KeepsOut s0 (execEvtDone a1 a2 s3) := by
  unfold execEvtDone
  refine KeepsOut.liveIf ?_ ?_
  · exact h3
  · exact keeps_doEvtDone h3

theorem keeps_execEvtRouteWrite {s0 : State} {a1 a2 a3 s4} (h4 : Keeps s0 s4) : KeepsOut s0 (execEvtRouteWrite a1 a2 a3 s4) := by
  unfold execEvtRouteWrite
  refine KeepsOut.liveIf ?_ ?_
  · exact h4
  · exact keeps_doEvtRoute h4

theorem keeps_execEventSet {s0 : State} {a1 a2 s3} (h3 : Keeps s0 s3) : KeepsOut s0 (execEventSet a1 a2 s3) := by
  unfold execEventSet
  refine KeepsOut.liveIf ?_ ?_
  · exact h3
  · exact keeps_doEventSet h3

theorem keeps_execPageLock {s0 : State} {a1 a2 s3} (h3 : Keeps s0 s3) : KeepsOut s0 (execPageLock a1 a2 s3) := by
  unfold execPageLock
  refine KeepsOut.liveIf ?_ ?_
  · exact h3
  · exact keeps_doPageLock h3

theorem keeps_execBlockQuiesce {s0 : State} {a1 a2 s3} (h3 : Keeps s0 s3) : KeepsOut s0 (execBlockQuiesce a1 a2 s3) := by
  unfold execBlockQuiesce
  refine KeepsOut.liveIf ?_ ?_
  · exact h3
  · exact keeps_doQuiesce h3

end Sys2Proof.Laws
end

