-- ==== Sys2Proof/Laws/KeepSupply.lean ====
section
/-! SUPPORT. The operations and meanings of Machine/Grid, Pair, Helm, Frame, Power keep the command queue and the invariant: one lemma
each. -/

namespace Sys2Proof.Laws

open Sys2Proof.Machine

theorem keeps_State_gfeScratch {s0 : State} {s1} (h1 : Keeps s0 s1) : Keeps s0 (State.gfeScratch s1) := by
  unfold State.gfeScratch
  exact keeps_State_scramble h1

theorem keeps_State_loadWeights {s0 : State} {s1} (h1 : Keeps s0 s1) : Keeps s0 (State.loadWeights s1) := by
  unfold State.loadWeights
  extract_lets -underBinder -merge -useContext +onlyGivenNames x0
  extract_lets -underBinder -merge -useContext +onlyGivenNames x1
  have hx1 : Keeps s0 x1.st := Keeps.replyOf (y := State.mRead _ _ _ _) rfl (keeps_State_mRead h1)
  clear_value x1
  revert x1
  refine id ?_
  intro x1 hx1
  extract_lets -underBinder -merge -useContext +onlyGivenNames x2
  extract_lets -underBinder -merge -useContext +onlyGivenNames x3
  have hx3 : Keeps s0 x3.st := by
    refine keeps_State_mRead ?_
    · exact hx1
  clear_value x3
  revert x3
  refine id ?_
  intro x3 hx3
  refine Keeps.ite ?_ ?_
  · extract_lets -underBinder -merge -useContext +onlyGivenNames x4 x5 x6
    have hx4 : Keeps s0 x4 := by
      refine keeps_State_gfeScratch ?_
      · exact hx3
    clear_value x4
    revert x4
    refine id ?_
    intro x4 x6 hx4
    have hx6 : Keeps s0 x6 := (Keeps.same hx4)
    clear_value x6
    revert x6
    refine id ?_
    intro x6 hx6
    exact keeps_State_setReg hx6
  · refine keeps_State_raise ?_
    · refine keeps_State_setReg ?_
      · extract_lets -underBinder -merge -useContext +onlyGivenNames x7
        have hx7 : Keeps s0 x7 := by
          unfold x7
          exact hx3
        clear_value x7
        revert x7
        refine id ?_
        intro x7 hx7
        exact Keeps.same hx7

theorem keeps_State_gfeEnable {s0 : State} {s1 a2} (h1 : Keeps s0 s1) : Keeps s0 (State.gfeEnable s1 a2) := by
  unfold State.gfeEnable
  extract_lets -underBinder -merge -useContext +onlyGivenNames x0
  have hx0 : Keeps s0 x0 := (keeps_State_setF h1)
  clear_value x0
  exact Keeps.ite (keeps_State_loadWeights hx0) hx0

theorem keeps_State_gfeEdge {s0 : State} {s1} (h1 : Keeps s0 s1) : Keeps s0 (State.gfeEdge s1) := by
  unfold State.gfeEdge
  extract_lets -underBinder -merge -useContext +onlyGivenNames x0
  extract_lets -underBinder -merge -useContext +onlyGivenNames x1
  extract_lets -underBinder -merge -useContext +onlyGivenNames x2 x3
  have hx3 : Keeps s0 x3 := (Keeps.same h1)
  clear_value x3
  extract_lets -underBinder -merge -useContext +onlyGivenNames x4
  extract_lets -underBinder -merge -useContext +onlyGivenNames x5
  refine Keeps.ite ?_ ?_
  · extract_lets -underBinder -merge -useContext +onlyGivenNames x6
    extract_lets -underBinder -merge -useContext +onlyGivenNames x7
    have hx7 : Keeps s0 x7 := (keeps_State_stickN hx3)
    clear_value x7
    extract_lets -underBinder -merge -useContext +onlyGivenNames x8
    exact Keeps.same hx7
  · exact hx3

theorem keeps_State_copyMap {s0 : State} {s1 a2} (h1 : Keeps s0 s1) : Keeps s0 (State.copyMap s1 a2).1 := by
  unfold State.copyMap
  extract_lets -underBinder -merge -useContext +onlyGivenNames x0
  extract_lets -underBinder -merge -useContext +onlyGivenNames x1
  have hx1 : Keeps s0 x1.st := Keeps.replyOf (y := State.mRead _ _ _ _) rfl (keeps_State_mRead h1)
  clear_value x1
  split
  · refine Keeps.pair ?_
    extract_lets -underBinder -merge -useContext +onlyGivenNames x2
    have hx2 : Keeps s0 x2 := by
      unfold x2
      exact hx1
    clear_value x2
    exact Keeps.same hx2
  · refine Keeps.pair ?_
    refine keeps_State_raise ?_
    · exact hx1

theorem keeps_State_passMap {s0 : State} {s1 a2} (h1 : Keeps s0 s1) : Keeps s0 (State.passMap s1 a2).1 := by
  unfold State.passMap
  extract_lets -underBinder -merge -useContext +onlyGivenNames x0
  split
  · refine Keeps.pair ?_
    exact h1
  · split
    · split
      · refine Keeps.pair ?_
        exact h1
      · refine keeps_State_copyMap ?_
        · exact h1
    · refine keeps_State_copyMap ?_
      · exact h1

theorem keeps_State_passDone {s0 : State} {s1 a2} (h1 : Keeps s0 s1) : Keeps s0 (State.passDone s1 a2) := by
  unfold State.passDone
  split
  · rename_i x1 y2  he3
    have hq0 : Keeps s0 x1 := by
      have e := congrArg Prod.fst he3
      dsimp only at e
      rw [← e]
      refine keeps_State_passMap ?_
      · exact h1
    extract_lets -underBinder -merge -useContext +onlyGivenNames x4 x5 x6
    have hx4 : Keeps s0 x4 := (keeps_State_gfeScratch hq0)
    clear_value x4
    have hx6 : Keeps s0 x6 := (Keeps.same hx4)
    clear_value x6
    extract_lets -underBinder -merge -useContext +onlyGivenNames x7
    have hx7 : ∀ y8 y9, Keeps s0 y9 → Keeps s0 (x7 y8 y9) := by
      intro y8 y9 hy9
      unfold x7
      exact keeps_State_raise (keeps_State_setF (keeps_State_setF hy9))
    clear_value x7
    extract_lets -underBinder -merge -useContext +onlyGivenNames x10
    extract_lets -underBinder -merge -useContext +onlyGivenNames x11
    have hx11 : Keeps s0 x11 := by
      unfold x11
      split
      · refine hx7 _ _ ?_
        · exact hx6
      · refine Keeps.ite ?_ ?_
        · refine hx7 _ _ ?_
          · exact hx6
        · exact keeps_State_setF (keeps_State_setF (Keeps.same hx6))
    clear_value x11
    exact keeps_State_raise (keeps_State_wrap hx11)

theorem keeps_execGridPassDone {s0 : State} {s1} (h1 : Keeps s0 s1) : KeepsOut s0 (execGridPassDone s1) := by
  unfold execGridPassDone
  split
  · refine KeepsOut.live ?_ ?_
    · exact h1
    · exact h1
  · refine KeepsOut.live ?_ ?_
    · exact h1
    · exact keeps_State_passDone h1

theorem keeps_doScanClr {s0 : State} {s1} (h1 : Keeps s0 s1) : Keeps s0 (doScanClr s1) := by
  unfold doScanClr
  exact keeps_State_ok (keeps_State_setF h1)

theorem keeps_execGfeWeightLoad {s0 : State} {s1} (h1 : Keeps s0 s1) : KeepsOut s0 (execGfeWeightLoad s1) := by
  unfold execGfeWeightLoad
  refine KeepsOut.live ?_ ?_
  · exact h1
  · exact keeps_State_ok (keeps_State_gfeEnable h1)

theorem keeps_execScanClr {s0 : State} {s1} (h1 : Keeps s0 s1) : KeepsOut s0 (execScanClr s1) := by
  unfold execScanClr
  refine KeepsOut.live ?_ ?_
  · exact h1
  · exact keeps_doScanClr h1

theorem keeps_execBlockEnable {s0 : State} {a1 a2 s3} (h3 : Keeps s0 s3) : KeepsOut s0 (execBlockEnable a1 a2 s3) := by
  unfold execBlockEnable
  refine KeepsOut.liveIf ?_ ?_
  · exact h3
  · exact Keeps.ite (keeps_State_ok (keeps_State_gfeEnable h3)) (keeps_doEnable h3)

theorem keeps_State_pairRec {s0 : State} {s1 a2 a3 a4 a5} (h1 : Keeps s0 s1) : Keeps s0 (State.pairRec s1 a2 a3 a4 a5) := by
  unfold State.pairRec
  exact keeps_State_offer h1

theorem keeps_State_helmPull {s0 : State} {s1} (h1 : Keeps s0 s1) : Keeps s0 (State.helmPull s1) := by
  unfold State.helmPull
  extract_lets -underBinder -merge -useContext +onlyGivenNames x0
  have hx0 : Keeps s0 x0 := (keeps_forUp (fun _ _ hx1 => (Keeps.foldl (fun _ _ hx3 => (Keeps.ite (keeps_State_canEnd hx3) hx3)) hx1)) h1)
  clear_value x0
  exact Keeps.same hx0

theorem keeps_State_stopFrame {s0 : State} {s1} (h1 : Keeps s0 s1) : Keeps s0 (State.stopFrame s1) := by
  unfold State.stopFrame
  extract_lets -underBinder -merge -useContext +onlyGivenNames x0
  have hx0 : Keeps s0 x0 := (keeps_forUp (fun _ _ hx1 => (Keeps.ite hx1 (keeps_State_setLane (keeps_State_laneEnd hx1)))) h1)
  clear_value x0
  exact Keeps.same hx0

theorem keeps_State_leaveCommand {s0 : State} {s1 a2 a3} (h1 : Keeps s0 s1) : Keeps s0 (State.leaveCommand s1 a2 a3) := by
  unfold State.leaveCommand
  exact Keeps.same h1

theorem keeps_State_emptyMap {s0 : State} {s1} (h1 : Keeps s0 s1) : Keeps s0 (State.emptyMap s1) := by
  unfold State.emptyMap
  exact Keeps.same h1

theorem keeps_State_noHandover {s0 : State} {s1} (h1 : Keeps s0 s1) : Keeps s0 (State.noHandover s1) := by
  unfold State.noHandover
  exact Keeps.same h1

theorem keeps_State_setRole {s0 : State} {s1 a2 a3} (h1 : Keeps s0 s1) : Keeps s0 (State.setRole s1 a2 a3) := by
  unfold State.setRole
  extract_lets -underBinder -merge -useContext +onlyGivenNames x0
  refine Keeps.ite ?_ ?_
  · exact h1
  · extract_lets -underBinder -merge -useContext +onlyGivenNames x1
    have hx1 : Keeps s0 x1 := (keeps_State_raise (keeps_State_setReg (keeps_State_setF h1)))
    clear_value x1
    extract_lets -underBinder -merge -useContext +onlyGivenNames x2
    have hx2 : Keeps s0 x2 := (keeps_State_pairRec hx1)
    clear_value x2
    refine Keeps.ite ?_ ?_
    · extract_lets -underBinder -merge -useContext +onlyGivenNames x3
      have hx3 : Keeps s0 x3 := (Keeps.ite (keeps_State_stopFrame (keeps_State_helmPull hx2)) hx2)
      clear_value x3
      extract_lets -underBinder -merge -useContext +onlyGivenNames x4
      have hx4 : Keeps s0 x4 := (keeps_State_setF (keeps_State_setF hx3))
      clear_value x4
      extract_lets -underBinder -merge -useContext +onlyGivenNames x5
      exact keeps_State_canCutAll (keeps_State_setF (keeps_State_setF (keeps_State_leaveCommand hx4)))
    · exact keeps_State_canKickAll (keeps_State_noHandover (Keeps.ite (keeps_State_emptyMap hx2) hx2))

theorem keeps_State_goCommand {s0 : State} {s1 a2} (h1 : Keeps s0 s1) : Keeps s0 (State.goCommand s1 a2) := by
  unfold State.goCommand
  extract_lets -underBinder -merge -useContext +onlyGivenNames x0
  extract_lets -underBinder -merge -useContext +onlyGivenNames x1
  have hx1 : Keeps s0 x1 := by
    unfold x1
    clear_value x0
    split
    · exact keeps_State_seeTally (keeps_State_seeTally h1)
    · exact h1
  clear_value x1
  split
  · rename_i x3 y4  he5
    have hq2 : Keeps s0 x3 := by
      have e := congrArg Prod.fst he5
      dsimp only at e
      rw [← e]
      refine keeps_State_raiseTally ?_
      · exact hx1
    refine Keeps.ite ?_ ?_
    · extract_lets -underBinder -merge -useContext +onlyGivenNames x6
      have hx6 : Keeps s0 x6 := (keeps_State_setRole (keeps_State_coldStart hq2))
      clear_value x6
      exact Keeps.same hx6
    · exact hq2

theorem keeps_State_seek {s0 : State} {s1 a2} (h1 : Keeps s0 s1) : Keeps s0 (State.seek s1 a2) := by
  unfold State.seek
  exact Keeps.ite h1 (Keeps.ite (Keeps.ite (keeps_State_goCommand h1) h1) (Keeps.ite h1 (Keeps.ite (Keeps.ite h1 (Keeps.ite (keeps_State_setRole (keeps_State_setF h1)) (keeps_State_setF h1))) (Keeps.ite (keeps_State_goCommand h1) h1))))

theorem keeps_State_takeover {s0 : State} {s1 a2 a3} (h1 : Keeps s0 s1) : Keeps s0 (State.takeover s1 a2 a3) := by
  unfold State.takeover
  refine Keeps.ite ?_ ?_
  · exact h1
  · refine Keeps.ite ?_ ?_
    · exact Keeps.same h1
    · extract_lets -underBinder -merge -useContext +onlyGivenNames x0
      refine Keeps.ite ?_ ?_
      · exact h1
      · extract_lets -underBinder -merge -useContext +onlyGivenNames x1
        extract_lets -underBinder -merge -useContext +onlyGivenNames x2
        extract_lets -underBinder -merge -useContext +onlyGivenNames x3
        have hx3 : Keeps s0 x3 := (Keeps.ite (keeps_State_loadPair h1) h1)
        clear_value x3
        split
        · rename_i x5 y6  he7
          have hq4 : Keeps s0 x5 := by
            have e := congrArg Prod.fst he7
            dsimp only at e
            rw [← e]
            refine keeps_State_raiseTally ?_
            · exact hx3
          extract_lets -underBinder -merge -useContext +onlyGivenNames x8
          have hx8 : Keeps s0 x8 := by
            unfold x8
            refine Keeps.ite ?_ ?_
            · exact keeps_State_restoreTakeover hq4
            · refine keeps_State_setF ?_
              · refine keeps_State_setReg ?_
                · clear_value x2
                  split
                  · exact keeps_State_loadRecord hq4
                  · exact hq4
          clear_value x8
          extract_lets -underBinder -merge -useContext +onlyGivenNames x9 x10
          have hx10 : Keeps s0 x10 := (Keeps.same hx8)
          clear_value x10
          extract_lets -underBinder -merge -useContext +onlyGivenNames x11
          have hx11 : Keeps s0 x11 := (keeps_State_setF (keeps_State_setF (keeps_State_setF hx10)))
          clear_value x11
          extract_lets -underBinder -merge -useContext +onlyGivenNames x12
          extract_lets -underBinder -merge -useContext +onlyGivenNames x13
          have hx13 : Keeps s0 x13 := (keeps_State_raise (keeps_State_setRole hx11))
          clear_value x13
          exact keeps_State_stick (keeps_State_pairRec hx13)

theorem keeps_State_partnerWrong {s0 : State} {s1} (h1 : Keeps s0 s1) : Keeps s0 (State.partnerWrong s1) := by
  unfold State.partnerWrong
  exact Keeps.ite (keeps_State_takeover (keeps_State_raise h1)) h1

theorem keeps_State_announce {s0 : State} {s1 a2} (h1 : Keeps s0 s1) : Keeps s0 (State.announce s1 a2) := by
  unfold State.announce
  refine Keeps.ite ?_ ?_
  · exact keeps_State_raise h1
  · extract_lets -underBinder -merge -useContext +onlyGivenNames x0
    extract_lets -underBinder -merge -useContext +onlyGivenNames x1
    exact Keeps.same h1

theorem keeps_State_selfFault {s0 : State} {s1} (h1 : Keeps s0 s1) : Keeps s0 (State.selfFault s1) := by
  unfold State.selfFault
  extract_lets -underBinder -merge -useContext +onlyGivenNames x0
  have hx0 : Keeps s0 x0 := (keeps_State_raise (keeps_State_setF h1))
  clear_value x0
  exact Keeps.ite (keeps_State_announce hx0) hx0

theorem keeps_State_stepDown {s0 : State} {s1 a2} (h1 : Keeps s0 s1) : Keeps s0 (State.stepDown s1 a2) := by
  unfold State.stepDown
  exact keeps_State_setRole h1

theorem keeps_State_sendHeartbeat {s0 : State} {s1} (h1 : Keeps s0 s1) : Keeps s0 (State.sendHeartbeat s1) := by
  unfold State.sendHeartbeat
  extract_lets -underBinder -merge -useContext +onlyGivenNames x0
  have hx0 : Keeps s0 x0 := (keeps_State_icvo h1)
  clear_value x0
  exact Keeps.ite h1 (Keeps.ite (Keeps.same hx0) hx0)

theorem keeps_State_beatOut {s0 : State} {s1} (h1 : Keeps s0 s1) : Keeps s0 (State.beatOut s1) := by
  unfold State.beatOut
  refine Keeps.ite ?_ ?_
  · exact h1
  · extract_lets -underBinder -merge -useContext +onlyGivenNames x0
    exact keeps_State_sendHeartbeat (keeps_State_send (Keeps.same h1))

theorem keeps_State_sendRecord {s0 : State} {s1} (h1 : Keeps s0 s1) : Keeps s0 (State.sendRecord s1) := by
  unfold State.sendRecord
  exact Keeps.ite h1 (keeps_State_icvo h1)

theorem keeps_State_hbRoles {s0 : State} {s1 a2} (h1 : Keeps s0 s1) : Keeps s0 (State.hbRoles s1 a2) := by
  unfold State.hbRoles
  refine Keeps.ite ?_ ?_
  · exact h1
  · extract_lets -underBinder -merge -useContext +onlyGivenNames x0 x1
    have hx1 : Keeps s0 x1 := (Keeps.ite (Keeps.same h1) (Keeps.ite (keeps_State_ackDelta h1) h1))
    clear_value x1
    exact Keeps.ite (keeps_State_setRole hx1) (Keeps.ite (keeps_State_setRole hx1) hx1)

theorem keeps_doHeartbeat {s0 : State} {s1 a2 a3} (h1 : Keeps s0 s1) : Keeps s0 (doHeartbeat s1 a2 a3) := by
  unfold doHeartbeat
  refine Keeps.ite ?_ ?_
  · exact keeps_State_parBad h1
  · extract_lets -underBinder -merge -useContext +onlyGivenNames x0
    extract_lets -underBinder -merge -useContext +onlyGivenNames x1
    extract_lets -underBinder -merge -useContext +onlyGivenNames x2
    extract_lets -underBinder -merge -useContext +onlyGivenNames x3
    extract_lets -underBinder -merge -useContext +onlyGivenNames x4
    extract_lets -underBinder -merge -useContext +onlyGivenNames x5 x6
    have hx6 : Keeps s0 x6 := (keeps_State_setF (Keeps.same h1))
    clear_value x6
    extract_lets -underBinder -merge -useContext +onlyGivenNames x7 x8
    have hx8 : Keeps s0 x8 := (Keeps.same hx6)
    clear_value x8
    extract_lets -underBinder -merge -useContext +onlyGivenNames x9
    extract_lets -underBinder -merge -useContext +onlyGivenNames x10
    have hx10 : Keeps s0 x10 := (keeps_State_seeTally (Keeps.ite (keeps_State_parBad hx8) (keeps_State_seeTally hx8)))
    clear_value x10
    extract_lets -underBinder -merge -useContext +onlyGivenNames x11
    have hx11 : Keeps s0 x11 := (keeps_State_safPartner hx10)
    clear_value x11
    extract_lets -underBinder -merge -useContext +onlyGivenNames x12
    have hx12 : Keeps s0 x12 := (keeps_State_hbRoles hx11)
    clear_value x12
    extract_lets -underBinder -merge -useContext +onlyGivenNames x13 x14
    have hx14 : Keeps s0 x14 := (Keeps.ite (keeps_State_setF (Keeps.same hx12)) hx12)
    clear_value x14
    extract_lets -underBinder -merge -useContext +onlyGivenNames x15
    have hx15 : Keeps s0 x15 := (Keeps.ite (keeps_State_partnerWrong hx14) hx14)
    clear_value x15
    exact keeps_State_seek hx15

theorem keeps_doMissed {s0 : State} {s1 a2} (h1 : Keeps s0 s1) : Keeps s0 (doMissed s1 a2) := by
  unfold doMissed
  refine Keeps.ite ?_ ?_
  · exact h1
  · extract_lets -underBinder -merge -useContext +onlyGivenNames x0 x1
    have hx1 : Keeps s0 x1 := (keeps_State_stickN (keeps_State_stick (Keeps.same h1)))
    clear_value x1
    exact Keeps.ite hx1 (Keeps.ite (keeps_State_takeover hx1) (keeps_State_raise (keeps_State_setRole hx1)))

theorem keeps_State_splitBrain {s0 : State} {s1} (h1 : Keeps s0 s1) : Keeps s0 (State.splitBrain s1) := by
  unfold State.splitBrain
  refine Keeps.ite ?_ ?_
  · exact h1
  · refine Keeps.ite ?_ ?_
    · exact keeps_State_stepDown (keeps_State_raise (keeps_State_pairRec h1))
    · refine keeps_State_raiseTally ?_
      · exact h1

theorem keeps_State_parWindows {s0 : State} {s1} (h1 : Keeps s0 s1) : Keeps s0 (State.parWindows s1) := by
  unfold State.parWindows
  extract_lets -underBinder -merge -useContext +onlyGivenNames x0
  have hx0 : Keeps s0 x0 := (Keeps.ite h1 (keeps_State_setF h1))
  clear_value x0
  exact Keeps.same hx0

theorem keeps_State_mirrorAge {s0 : State} {s1} (h1 : Keeps s0 s1) : Keeps s0 (State.mirrorAge s1) := by
  unfold State.mirrorAge
  extract_lets -underBinder -merge -useContext +onlyGivenNames x0
  have hx0 : Keeps s0 x0 := (keeps_State_stickN h1)
  clear_value x0
  extract_lets -underBinder -merge -useContext +onlyGivenNames x1
  exact Keeps.ite (keeps_State_raise hx0) hx0

theorem keeps_State_hoOut {s0 : State} {s1} (h1 : Keeps s0 s1) : Keeps s0 (State.hoOut s1) := by
  unfold State.hoOut
  split
  · exact Keeps.ite (keeps_State_stepDown h1) h1
  · exact h1

theorem keeps_State_hoTake {s0 : State} {s1} (h1 : Keeps s0 s1) : Keeps s0 (State.hoTake s1) := by
  unfold State.hoTake
  split
  · exact Keeps.ite (keeps_State_takeover h1) h1
  · exact h1

theorem keeps_State_playoutStart {s0 : State} {s1} (h1 : Keeps s0 s1) : Keeps s0 (State.playoutStart s1) := by
  unfold State.playoutStart
  exact Keeps.ite (keeps_State_setF h1) h1

theorem keeps_State_parEdge {s0 : State} {s1} (h1 : Keeps s0 s1) : Keeps s0 (State.parEdge s1) := by
  unfold State.parEdge
  extract_lets -underBinder -merge -useContext +onlyGivenNames x0
  have hx0 : Keeps s0 x0 := (keeps_State_parWindows h1)
  clear_value x0
  extract_lets -underBinder -merge -useContext +onlyGivenNames x1
  have hx1 : Keeps s0 x1 := (Keeps.ite (keeps_State_mirrorAge hx0) hx0)
  clear_value x1
  exact keeps_State_seek (keeps_State_playoutStart (keeps_State_hoTake (keeps_State_hoOut (keeps_State_splitBrain hx1))))

theorem keeps_State_parB0 {s0 : State} {s1} (h1 : Keeps s0 s1) : Keeps s0 (State.parB0 s1) := by
  unfold State.parB0
  refine Keeps.ite ?_ ?_
  · exact Keeps.ite (keeps_State_takeDeeds (Keeps.same h1)) h1
  · split
    · exact h1
    · refine Keeps.ite ?_ ?_
      · exact h1
      · extract_lets -underBinder -merge -useContext +onlyGivenNames x0 x1
        have hx1 : Keeps s0 x1 := (keeps_State_giveDeeds (Keeps.same h1))
        clear_value x1
        exact Keeps.ite hx1 (keeps_State_setF hx1)

theorem keeps_State_parB36 {s0 : State} {s1} (h1 : Keeps s0 s1) : Keeps s0 (State.parB36 s1) := by
  unfold State.parB36
  exact Keeps.ite (keeps_State_setF h1) h1

theorem keeps_State_standbyLoad {s0 : State} {s1} (h1 : Keeps s0 s1) : Keeps s0 (State.standbyLoad s1) := by
  unfold State.standbyLoad
  extract_lets -underBinder -merge -useContext +onlyGivenNames x0
  exact Keeps.ite (keeps_State_loadRecord h1) h1

theorem keeps_State_icvoLane {s0 : State} {s1 a2 a3} (h1 : Keeps s0 s1) : Keeps s0 (State.icvoLane s1 a2 a3) := by
  unfold State.icvoLane
  extract_lets -underBinder -merge -useContext +onlyGivenNames x0
  extract_lets -underBinder -merge -useContext +onlyGivenNames x1
  extract_lets -underBinder -merge -useContext +onlyGivenNames x2 x3
  have hx3 : Keeps s0 x3 := (keeps_State_setF (Keeps.same h1))
  clear_value x3
  exact Keeps.ite (keeps_State_raise hx3) hx3

theorem keeps_doEpochArm {s0 : State} {s1} (h1 : Keeps s0 s1) : Keeps s0 (doEpochArm s1) := by
  unfold doEpochArm
  exact Keeps.ite (keeps_State_setRole (keeps_State_setF h1)) h1

theorem keeps_doEpochComplete {s0 : State} {s1} (h1 : Keeps s0 s1) : Keeps s0 (doEpochComplete s1) := by
  unfold doEpochComplete
  refine Keeps.ite ?_ ?_
  · extract_lets -underBinder -merge -useContext +onlyGivenNames x0
    extract_lets -underBinder -merge -useContext +onlyGivenNames x1
    have hx1 : Keeps s0 x1 := (keeps_State_setF (keeps_State_setF (keeps_State_setF h1)))
    clear_value x1
    extract_lets -underBinder -merge -useContext +onlyGivenNames x2 x3
    have hx3 : Keeps s0 x3 := (keeps_State_pairRec (Keeps.same hx1))
    clear_value x3
    exact keeps_State_flashCopy (keeps_State_writeSections hx3)
  · exact h1

theorem keeps_doEpochKey {s0 : State} {s1 a2} (h1 : Keeps s0 s1) : Keeps s0 (doEpochKey s1 a2) := by
  unfold doEpochKey
  exact Keeps.ite (keeps_doEpochArm h1) (Keeps.ite (keeps_doEpochComplete h1) h1)

theorem keeps_State_clrFaulty {s0 : State} {s1} (h1 : Keeps s0 s1) : Keeps s0 (State.clrFaulty s1) := by
  unfold State.clrFaulty
  exact Keeps.ite h1 (keeps_State_setF h1)

theorem keeps_State_askResync {s0 : State} {s1} (h1 : Keeps s0 s1) : Keeps s0 (State.askResync s1) := by
  unfold State.askResync
  exact Keeps.ite h1 (Keeps.same h1)

theorem keeps_doParReq {s0 : State} {s1 a2} (h1 : Keeps s0 s1) : Keeps s0 (doParReq s1 a2) := by
  unfold doParReq
  extract_lets -underBinder -merge -useContext +onlyGivenNames x0
  have hx0 : Keeps s0 x0 := (Keeps.ite (keeps_State_selfFault h1) h1)
  clear_value x0
  extract_lets -underBinder -merge -useContext +onlyGivenNames x1
  have hx1 : Keeps s0 x1 := (Keeps.ite (keeps_State_clrFaulty hx0) hx0)
  clear_value x1
  extract_lets -underBinder -merge -useContext +onlyGivenNames x2
  have hx2 : Keeps s0 x2 := (Keeps.ite (keeps_State_askResync hx1) hx1)
  clear_value x2
  extract_lets -underBinder -merge -useContext +onlyGivenNames x3
  have hx3 : Keeps s0 x3 := (Keeps.ite (keeps_State_flashWant hx2) hx2)
  clear_value x3
  exact Keeps.ite (keeps_State_announce hx3) hx3

theorem keeps_execIcvoLaneDown {s0 : State} {a1 s2} (h2 : Keeps s0 s2) : KeepsOut s0 (execIcvoLaneDown a1 s2) := by
  unfold execIcvoLaneDown
  refine KeepsOut.liveIf ?_ ?_
  · exact h2
  · exact keeps_State_icvoLane h2

theorem keeps_execIcvoLaneUp {s0 : State} {a1 s2} (h2 : Keeps s0 s2) : KeepsOut s0 (execIcvoLaneUp a1 s2) := by
  unfold execIcvoLaneUp
  refine KeepsOut.liveIf ?_ ?_
  · exact h2
  · exact keeps_State_icvoLane h2

theorem keeps_execHeartbeatFreeSend {s0 : State} {s1} (h1 : Keeps s0 s1) : KeepsOut s0 (execHeartbeatFreeSend s1) := by
  unfold execHeartbeatFreeSend
  refine KeepsOut.liveIf ?_ ?_
  · exact h1
  · exact keeps_State_sendHeartbeat h1

theorem keeps_execHeartbeatRx {s0 : State} {a1 a2 s3} (h3 : Keeps s0 s3) : KeepsOut s0 (execHeartbeatRx a1 a2 s3) := by
  unfold execHeartbeatRx
  refine KeepsOut.live ?_ ?_
  · exact h3
  · exact keeps_doHeartbeat h3

theorem keeps_execBeatRecordRx {s0 : State} {a1 s2} (h2 : Keeps s0 s2) : KeepsOut s0 (execBeatRecordRx a1 s2) := by
  unfold execBeatRecordRx
  refine KeepsOut.live ?_ ?_
  · exact h2
  · exact Keeps.ite (keeps_State_parBad h2) (Keeps.same h2)

theorem keeps_execDeltaRx {s0 : State} {a1 s2} (h2 : Keeps s0 s2) : KeepsOut s0 (execDeltaRx a1 s2) := by
  unfold execDeltaRx
  refine KeepsOut.live ?_ ?_
  · exact h2
  · extract_lets -underBinder -merge -useContext +onlyGivenNames x0
    have hx0 : Keeps s0 x0 := (keeps_State_rxDelta h2)
    clear_value x0
    exact Keeps.ite (keeps_State_partnerWrong hx0) hx0

theorem keeps_execDeltaCopyDone {s0 : State} {s1} (h1 : Keeps s0 s1) : KeepsOut s0 (execDeltaCopyDone s1) := by
  unfold execDeltaCopyDone
  refine KeepsOut.live ?_ ?_
  · exact h1
  · split
    · exact h1
    · extract_lets -underBinder -merge -useContext +onlyGivenNames x0
      have hx0 : Keeps s0 x0 := (keeps_State_copyDelta h1)
      clear_value x0
      split
      · exact hx0
      · exact keeps_State_takeover hx0

theorem keeps_execResyncBankRx {s0 : State} {a1 s2} (h2 : Keeps s0 s2) : KeepsOut s0 (execResyncBankRx a1 s2) := by
  unfold execResyncBankRx
  refine KeepsOut.live ?_ ?_
  · exact h2
  · exact keeps_State_rxBank h2

theorem keeps_execResync {s0 : State} {s1} (h1 : Keeps s0 s1) : KeepsOut s0 (execResync s1) := by
  unfold execResync
  refine KeepsOut.live ?_ ?_
  · exact h1
  · exact keeps_State_ok (keeps_State_askResync h1)

theorem keeps_execSeekTimeout {s0 : State} {s1} (h1 : Keeps s0 s1) : KeepsOut s0 (execSeekTimeout s1) := by
  unfold execSeekTimeout
  refine KeepsOut.liveIf ?_ ?_
  · exact h1
  · exact keeps_State_goCommand (keeps_State_setF h1)

theorem keeps_execListenMinEnd {s0 : State} {s1} (h1 : Keeps s0 s1) : KeepsOut s0 (execListenMinEnd s1) := by
  unfold execListenMinEnd
  refine KeepsOut.liveIf ?_ ?_
  · exact h1
  · exact keeps_State_seek (Keeps.same h1)

theorem keeps_execMissedBeat {s0 : State} {a1 s2} (h2 : Keeps s0 s2) : KeepsOut s0 (execMissedBeat a1 s2) := by
  unfold execMissedBeat
  refine KeepsOut.live ?_ ?_
  · exact h2
  · exact keeps_doMissed h2

theorem keeps_execFault {s0 : State} {s1} (h1 : Keeps s0 s1) : KeepsOut s0 (execFault s1) := by
  unfold execFault
  refine KeepsOut.live ?_ ?_
  · exact h1
  · exact keeps_State_ok (keeps_State_selfFault h1)

theorem keeps_execClrFaulty {s0 : State} {s1} (h1 : Keeps s0 s1) : KeepsOut s0 (execClrFaulty s1) := by
  unfold execClrFaulty
  refine KeepsOut.live ?_ ?_
  · exact h1
  · exact keeps_State_ok (keeps_State_clrFaulty h1)

theorem keeps_execHandover {s0 : State} {s1} (h1 : Keeps s0 s1) : KeepsOut s0 (execHandover s1) := by
  unfold execHandover
  refine KeepsOut.live ?_ ?_
  · exact h1
  · exact keeps_State_ok (keeps_State_announce h1)

theorem keeps_execCoresUp {s0 : State} {s1} (h1 : Keeps s0 s1) : KeepsOut s0 (execCoresUp s1) := by
  unfold execCoresUp
  refine KeepsOut.liveIf ?_ ?_
  · exact h1
  · exact keeps_State_setF h1

theorem keeps_execFlashPeriod {s0 : State} {s1} (h1 : Keeps s0 s1) : KeepsOut s0 (execFlashPeriod s1) := by
  unfold execFlashPeriod
  refine KeepsOut.live ?_ ?_
  · exact h1
  · exact keeps_State_flashWant h1

theorem keeps_execFlashNow {s0 : State} {s1} (h1 : Keeps s0 s1) : KeepsOut s0 (execFlashNow s1) := by
  unfold execFlashNow
  refine KeepsOut.live ?_ ?_
  · exact h1
  · exact keeps_State_ok (keeps_State_flashWant h1)

theorem keeps_execFlashCopy {s0 : State} {s1} (h1 : Keeps s0 s1) : KeepsOut s0 (execFlashCopy s1) := by
  unfold execFlashCopy
  refine KeepsOut.liveIf ?_ ?_
  · exact h1
  · extract_lets -underBinder -merge -useContext +onlyGivenNames x0
    extract_lets -underBinder -merge -useContext +onlyGivenNames x1
    extract_lets -underBinder -merge -useContext +onlyGivenNames x2 x3
    have hx3 : Keeps s0 x3 := (Keeps.same h1)
    clear_value x3
    exact Keeps.ite (keeps_State_raise (keeps_State_putImage (Keeps.same hx3))) hx3

theorem keeps_execEpochArm {s0 : State} {s1} (h1 : Keeps s0 s1) : KeepsOut s0 (execEpochArm s1) := by
  unfold execEpochArm
  refine KeepsOut.live ?_ ?_
  · exact h1
  · exact keeps_State_ok (keeps_doEpochArm h1)

theorem keeps_execEpochComplete {s0 : State} {s1} (h1 : Keeps s0 s1) : KeepsOut s0 (execEpochComplete s1) := by
  unfold execEpochComplete
  refine KeepsOut.live ?_ ?_
  · exact h1
  · exact keeps_State_ok (keeps_doEpochComplete h1)

theorem keeps_execPairBeatIToggle {s0 : State} {a1 s2} (h2 : Keeps s0 s2) : KeepsOut s0 (execPairBeatIToggle a1 s2) := by
  unfold execPairBeatIToggle
  refine KeepsOut.live ?_ ?_
  · exact h2
  · extract_lets -underBinder -merge -useContext +onlyGivenNames x0
    exact Keeps.same h2

theorem keeps_State_helmEdge {s0 : State} {s1} (h1 : Keeps s0 s1) : Keeps s0 (State.helmEdge s1) := by
  unfold State.helmEdge
  refine Keeps.ite ?_ ?_
  · exact h1
  · extract_lets -underBinder -merge -useContext +onlyGivenNames x0
    have hx0 : Keeps s0 x0 := (keeps_forUp (fun _ _ hx1 => (keeps_State_fbAge hx1)) h1)
    clear_value x0
    exact keeps_forUp (fun _ _ hx3 => (keeps_State_canKick (Keeps.foldl (fun _ _ hx5 => (keeps_State_helmWithdraw hx5)) hx3))) hx0

theorem keeps_State_helmBuildOne {s0 : State} {s1 a2 a3 a4} (h1 : Keeps s0 s1) : Keeps s0 (State.helmBuildOne s1 a2 a3 a4) := by
  unfold State.helmBuildOne
  extract_lets -underBinder -merge -useContext +onlyGivenNames x0
  extract_lets -underBinder -merge -useContext +onlyGivenNames x1
  exact keeps_State_helmPlace (keeps_State_setF h1)

theorem keeps_State_helmBuild {s0 : State} {s1} (h1 : Keeps s0 s1) : Keeps s0 (State.helmBuild s1) := by
  unfold State.helmBuild
  exact Keeps.ite h1 (keeps_forUp (fun _ _ hx0 => (Keeps.ite (keeps_State_canKick (Keeps.foldl (fun _ _ hx2 => (keeps_State_helmBuildOne hx2)) hx0)) hx0)) h1)

theorem keeps_State_fbTally {s0 : State} {s1 a2 a3} (h1 : Keeps s0 s1) : Keeps s0 (State.fbTally s1 a2 a3) := by
  unfold State.fbTally
  extract_lets -underBinder -merge -useContext +onlyGivenNames x0
  exact Keeps.ite h1 (Keeps.ite (keeps_State_parBad h1) (Keeps.ite (keeps_State_parBad (keeps_State_setF (keeps_State_setF h1))) (keeps_State_seeTally h1)))

theorem keeps_State_partnerHelm {s0 : State} {s1 a2 a3} (h1 : Keeps s0 s1) : Keeps s0 (State.partnerHelm s1 a2 a3) := by
  unfold State.partnerHelm
  extract_lets -underBinder -merge -useContext +onlyGivenNames x0
  refine Keeps.ite ?_ ?_
  · exact keeps_State_parBad h1
  · extract_lets -underBinder -merge -useContext +onlyGivenNames x1
    extract_lets -underBinder -merge -useContext +onlyGivenNames x2
    extract_lets -underBinder -merge -useContext +onlyGivenNames x3 x4 x5
    have hx3 : Keeps s0 x3 := (keeps_State_seeTally h1)
    clear_value x3
    have hx5 : Keeps s0 x5 := (Keeps.same hx3)
    clear_value x5
    extract_lets -underBinder -merge -useContext +onlyGivenNames x6
    have hx6 : Keeps s0 x6 := (Keeps.ite (keeps_State_setF hx5) hx5)
    clear_value x6
    exact Keeps.ite (keeps_State_partnerWrong hx6) hx6

theorem keeps_State_helmTake {s0 : State} {s1 a2 a3} (h1 : Keeps s0 s1) : Keeps s0 (State.helmTake s1 a2 a3) := by
  unfold State.helmTake
  extract_lets -underBinder -merge -useContext +onlyGivenNames x0
  split
  · exact h1
  · exact Keeps.ite h1 (Keeps.ite (Keeps.ite (keeps_State_partnerHelm h1) h1) (Keeps.ite (keeps_State_fbCapture (Keeps.ite (keeps_State_fbTally h1) h1)) h1))

theorem keeps_doCanFrame {s0 : State} {s1 a2 a3 a4} (h1 : Keeps s0 s1) : Keeps s0 (doCanFrame s1 a2 a3 a4) := by
  unfold doCanFrame
  extract_lets -underBinder -merge -useContext +onlyGivenNames x0
  exact Keeps.ite h1 (Keeps.ite (keeps_doCanError h1) (keeps_State_helmTake (keeps_State_canTake h1)))

theorem keeps_execCanFrameRx {s0 : State} {a1 a2 a3 s4} (h4 : Keeps s0 s4) : KeepsOut s0 (execCanFrameRx a1 a2 a3 s4) := by
  unfold execCanFrameRx
  refine KeepsOut.liveIf ?_ ?_
  · exact h4
  · exact keeps_doCanFrame h4

theorem keeps_State_offerFrame {s0 : State} {s1} (h1 : Keeps s0 s1) : Keeps s0 (State.offerFrame s1) := by
  unfold State.offerFrame
  split
  · exact h1
  · extract_lets -underBinder -merge -useContext +onlyGivenNames x0 x1
    have hx1 : Keeps s0 x1 := (keeps_State_offer (Keeps.same h1))
    clear_value x1
    exact Keeps.foldl (fun _ _ hx2 => (keeps_State_offer hx2)) hx1

theorem keeps_State_skipFrame {s0 : State} {s1} (h1 : Keeps s0 s1) : Keeps s0 (State.skipFrame s1) := by
  unfold State.skipFrame
  split
  · exact h1
  · exact keeps_State_stick (keeps_State_offer (Keeps.same h1))

theorem keeps_State_queueSnapshot {s0 : State} {s1} (h1 : Keeps s0 s1) : Keeps s0 (State.queueSnapshot s1) := by
  unfold State.queueSnapshot
  extract_lets -underBinder -merge -useContext +onlyGivenNames q x
  have hx : Keeps s0 x := Keeps.same h1
  split
  · exact hx
  · split
    · exact keeps_State_raise (keeps_State_stick (Keeps.same hx))
    · rename_i hl
      refine ⟨h1.1, fun i => { h1.2 i with mem := (h1.2 i).mem, replay := ?_ }⟩
      show (x.rpl.tx ++ _).length ≤ 8
      have : x.rpl.tx = s1.rpl.tx := rfl
      simp only [List.length_append, List.length_singleton, this]
      omega

theorem keeps_State_queueTrailer {s0 : State} {s1} (h1 : Keeps s0 s1) : Keeps s0 (State.queueTrailer s1) := by
  unfold State.queueTrailer
  split
  · exact h1
  · extract_lets d tx
    refine ⟨h1.1, fun i => { h1.2 i with mem := (h1.2 i).mem, replay := ?_ }⟩
    have hi := (h1.2 i).replay
    show tx.length ≤ 8
    unfold tx
    split
    · simp
    · rename_i e he
      have hn : s1.rpl.tx ≠ [] := by
        intro hz
        rw [hz] at he
        simp at he
      have hp := List.length_pos_of_ne_nil hn
      simp only [List.length_append, List.length_dropLast, List.length_singleton]
      omega

theorem keeps_State_queueImage {s0 : State} {s1} (h1 : Keeps s0 s1) : Keeps s0 (State.queueImage s1) := by
  unfold State.queueImage
  split
  · exact h1
  · rename_i hc
    extract_lets t
    refine keeps_State_setF ⟨h1.1, fun i => { h1.2 i with mem := (h1.2 i).mem, replay := ?_ }⟩
    simp only [Bool.or_eq_true, decide_eq_true_eq, not_or] at hc
    show (s1.rpl.tx ++ _).length ≤ 8
    simp only [List.length_append, List.length_singleton]
    omega

theorem keeps_State_askFull {s0 : State} {s1} (h1 : Keeps s0 s1) : Keeps s0 (State.askFull s1) := by
  unfold State.askFull
  exact keeps_State_setF (Keeps.same h1)

theorem keeps_State_publish {s0 : State} {s1} (h1 : Keeps s0 s1) : Keeps s0 (State.publish s1) := by
  unfold State.publish
  extract_lets -underBinder -merge -useContext +onlyGivenNames x0
  extract_lets -underBinder -merge -useContext +onlyGivenNames x1
  extract_lets -underBinder -merge -useContext +onlyGivenNames x2
  have hx2 : Keeps s0 x2 := by
    unfold x2
    refine keeps_State_mWrite ?_
    · exact h1
  clear_value x2
  revert x2
  refine id ?_
  intro x2 hx2
  extract_lets -underBinder -merge -useContext +onlyGivenNames x3 x4
  have hx4 : Keeps s0 x4 := (Keeps.same hx2)
  clear_value x4
  revert x4
  refine id ?_
  intro x4 hx4
  exact Keeps.ite (keeps_State_raise hx4) hx4

theorem keeps_doImageInstant {s0 : State} {s1} (h1 : Keeps s0 s1) : Keeps s0 (doImageInstant s1) := by
  unfold doImageInstant
  extract_lets -underBinder -merge -useContext +onlyGivenNames x0
  have hx0 : Keeps s0 x0 := (keeps_State_writeSections (keeps_State_publish h1))
  clear_value x0
  extract_lets -underBinder -merge -useContext +onlyGivenNames x1
  have hx1 : Keeps s0 x1 := (Keeps.ite hx0 (keeps_State_sbxSend hx0))
  clear_value x1
  extract_lets -underBinder -merge -useContext +onlyGivenNames x2
  have hx2 : Keeps s0 x2 := (Keeps.ite (keeps_State_flashCopy hx1) hx1)
  clear_value x2
  exact keeps_State_queueTrailer (keeps_State_queueImage (keeps_State_offerFrame hx2))

theorem keeps_execImageInstant {s0 : State} {s1} (h1 : Keeps s0 s1) : KeepsOut s0 (execImageInstant s1) := by
  unfold execImageInstant
  refine KeepsOut.liveIf ?_ ?_
  · exact h1
  · exact keeps_doImageInstant h1

theorem keeps_execFrmNumRead {s0 : State} {s1} (h1 : Keeps s0 s1) : KeepsOut s0 (execFrmNumRead s1) := by
  unfold execFrmNumRead
  refine KeepsOut.live ?_ ?_
  · exact h1
  · exact keeps_State_ansW (Keeps.same h1)

theorem keeps_execReplaySnapshotSend {s0 : State} {s1} (h1 : Keeps s0 s1) : KeepsOut s0 (execReplaySnapshotSend s1) := by
  unfold execReplaySnapshotSend
  extract_lets k
  refine KeepsOut.liveIf h1 ?_
  split
  · exact h1
  · rename_i hq
    refine Keeps.foldl (fun t d ht => keeps_State_wrap (keeps_State_send ht)) ?_
    refine ⟨h1.1, fun i => { h1.2 i with mem := (h1.2 i).mem, replay := ?_ }⟩
    have := (h1.2 i).replay
    rw [hq] at this
    simp only [List.length_cons] at this
    exact Nat.le_trans (Nat.le_succ _) this

theorem keeps_execReplayFullRequest {s0 : State} {s1} (h1 : Keeps s0 s1) : KeepsOut s0 (execReplayFullRequest s1) := by
  unfold execReplayFullRequest
  refine KeepsOut.live ?_ ?_
  · exact h1
  · exact keeps_State_ok (keeps_State_askFull h1)

theorem keeps_State_lanesDown {s0 : State} {s1} (h1 : Keeps s0 s1) : Keeps s0 (State.lanesDown s1) := by
  unfold State.lanesDown
  exact Keeps.ite (keeps_State_setF (Keeps.same h1)) h1

theorem keeps_State_ethDown {s0 : State} {s1 a2} (h1 : Keeps s0 s1) : Keeps s0 (State.ethDown s1 a2) := by
  unfold State.ethDown
  exact Keeps.ite (keeps_State_raise (keeps_State_setF (keeps_State_setF h1))) h1

theorem keeps_State_dozeIn {s0 : State} {s1} (h1 : Keeps s0 s1) : Keeps s0 (State.dozeIn s1) := by
  unfold State.dozeIn
  extract_lets -underBinder -merge -useContext +onlyGivenNames x0
  have hx0 : Keeps s0 x0 := (keeps_State_canCutAll (keeps_forUp (fun _ _ hx1 => (keeps_State_ethDown hx1)) (keeps_State_setF (keeps_State_wrap h1))))
  clear_value x0
  exact Keeps.ite (keeps_forUp (fun _ _ hx3 => (Keeps.ite (keeps_doIfDown hx3) hx3)) hx0) hx0

theorem keeps_State_applyPower {s0 : State} {s1 a2} (h1 : Keeps s0 s1) : Keeps s0 (State.applyPower s1 a2) := by
  unfold State.applyPower
  extract_lets -underBinder -merge -useContext +onlyGivenNames x0 x1
  have hx1 : Keeps s0 x1 := (Keeps.same h1)
  clear_value x1
  refine Keeps.ite ?_ ?_
  · exact hx1
  · extract_lets -underBinder -merge -useContext +onlyGivenNames x2
    have hx2 : Keeps s0 x2 := (keeps_State_raise (keeps_State_setF (keeps_State_setF hx1)))
    clear_value x2
    extract_lets -underBinder -merge -useContext +onlyGivenNames x3
    have hx3 : Keeps s0 x3 := (Keeps.ite (keeps_State_lanesDown hx2) hx2)
    clear_value x3
    exact Keeps.ite (keeps_State_dozeIn hx3) hx3

theorem keeps_State_powerStep {s0 : State} {s1} (h1 : Keeps s0 s1) : Keeps s0 (State.powerStep s1) := by
  unfold State.powerStep
  extract_lets -underBinder -merge -useContext +onlyGivenNames x0
  extract_lets -underBinder -merge -useContext +onlyGivenNames x1
  exact Keeps.ite h1 (Keeps.ite (Keeps.same h1) (keeps_State_applyPower h1))

theorem keeps_State_powerB0 {s0 : State} {s1} (h1 : Keeps s0 s1) : Keeps s0 (State.powerB0 s1) := by
  unfold State.powerB0
  split
  · exact h1
  · exact keeps_State_applyPower h1

theorem keeps_State_setWaiting {s0 : State} {s1 a2} (h1 : Keeps s0 s1) : Keeps s0 (State.setWaiting s1 a2) := by
  unfold State.setWaiting
  exact Keeps.same h1

theorem keeps_State_dozeExit {s0 : State} {s1 a2} (h1 : Keeps s0 s1) : Keeps s0 (State.dozeExit s1 a2) := by
  unfold State.dozeExit
  extract_lets -underBinder -merge -useContext +onlyGivenNames x0
  have hx0 : Keeps s0 x0 := (keeps_State_setWaiting h1)
  clear_value x0
  exact Keeps.ite (keeps_State_raise (keeps_State_canKickAll (keeps_State_setF (keeps_State_applyPower hx0)))) hx0

theorem keeps_State_lanesUp {s0 : State} {s1} (h1 : Keeps s0 s1) : Keeps s0 (State.lanesUp s1) := by
  unfold State.lanesUp
  extract_lets -underBinder -merge -useContext +onlyGivenNames x0
  have hx0 : Keeps s0 x0 := (Keeps.ite h1 (keeps_State_setF (keeps_State_clearMem (keeps_State_clearMem h1))))
  clear_value x0
  exact Keeps.ite (keeps_State_setF hx0) hx0

theorem keeps_State_drainUnits {s0 : State} {a1 s2} (h2 : Keeps s0 s2) : Keeps s0 (State.drainUnits a1 s2) := by
  induction a1 generalizing s2 with
  | zero => exact h2
  | succ n ih => exact ih (Keeps.ite h2 (keeps_State_unitWritten h2))

theorem keeps_State_lights {s0 : State} {s1 a2} (h1 : Keeps s0 s1) : Keeps s0 (State.lights s1 a2) := by
  unfold State.lights
  exact Keeps.same h1

theorem keeps_State_powerOff {s0 : State} {s1} (h1 : Keeps s0 s1) : Keeps s0 (State.powerOff s1) := by
  unfold State.powerOff
  exact keeps_State_lights (keeps_State_setLines h1)

theorem keeps_doPowerOff {s0 : State} {s1 a2} (h1 : Keeps s0 s1) : Keeps s0 (doPowerOff s1 a2) := by
  unfold doPowerOff
  refine Keeps.ite ?_ ?_
  · exact keeps_State_ok h1
  · refine Keeps.ite ?_ ?_
    · exact keeps_State_ok (keeps_State_setF h1)
    · extract_lets -underBinder -merge -useContext +onlyGivenNames x0
      have hx0 : Keeps s0 x0 := (keeps_State_flushCurrent h1)
      clear_value x0
      exact keeps_State_powerOff (keeps_State_ok (keeps_State_drainUnits hx0))

theorem keeps_State_avsStep {s0 : State} {s1} (h1 : Keeps s0 s1) : Keeps s0 (State.avsStep s1) := by
  unfold State.avsStep
  refine Keeps.ite ?_ ?_
  · exact h1
  · extract_lets -underBinder -merge -useContext +onlyGivenNames x0
    extract_lets -underBinder -merge -useContext +onlyGivenNames x1
    extract_lets -underBinder -merge -useContext +onlyGivenNames x2
    have hx2 : Keeps s0 x2 := (keeps_State_draw h1)
    clear_value x2
    exact Keeps.ite hx2 (keeps_State_send (keeps_State_setF hx2))

theorem keeps_State_avsEnd {s0 : State} {s1 a2 a3} (h1 : Keeps s0 s1) : Keeps s0 (State.avsEnd s1 a2 a3) := by
  unfold State.avsEnd
  refine Keeps.ite ?_ ?_
  · exact keeps_State_setF (Keeps.same h1)
  · extract_lets -underBinder -merge -useContext +onlyGivenNames x0
    extract_lets -underBinder -merge -useContext +onlyGivenNames x1 x2
    have hx2 : Keeps s0 x2 := (Keeps.same h1)
    clear_value x2
    exact Keeps.ite (keeps_State_raise (keeps_State_send (keeps_State_setF (keeps_State_setF hx2)))) hx2

theorem keeps_State_therm {s0 : State} {s1 a2} (h1 : Keeps s0 s1) : Keeps s0 (State.therm s1 a2) := by
  unfold State.therm
  extract_lets -underBinder -merge -useContext +onlyGivenNames x0
  extract_lets -underBinder -merge -useContext +onlyGivenNames x1
  have hx1 : Keeps s0 x1 := (keeps_State_setF h1)
  clear_value x1
  extract_lets -underBinder -merge -useContext +onlyGivenNames x2
  extract_lets -underBinder -merge -useContext +onlyGivenNames x3
  extract_lets -underBinder -merge -useContext +onlyGivenNames x4
  have hx4 : Keeps s0 x4 := (keeps_State_setF hx1)
  clear_value x4
  exact Keeps.ite (keeps_State_raise hx4) hx4

theorem keeps_doKick {s0 : State} {s1 a2} (h1 : Keeps s0 s1) : Keeps s0 (doKick s1 a2) := by
  unfold doKick
  exact keeps_State_ok (Keeps.ite (Keeps.same h1) h1)

theorem keeps_execPowerStateChange {s0 : State} {a1 s2} (h2 : Keeps s0 s2) : KeepsOut s0 (execPowerStateChange a1 s2) := by
  unfold execPowerStateChange
  refine KeepsOut.live ?_ ?_
  · exact h2
  · exact keeps_State_powerStep (keeps_State_setWaiting h2)

theorem keeps_execLanesOn {s0 : State} {s1} (h1 : Keeps s0 s1) : KeepsOut s0 (execLanesOn s1) := by
  unfold execLanesOn
  refine KeepsOut.liveIf ?_ ?_
  · exact h1
  · exact keeps_State_lanesUp h1

theorem keeps_execDozeExit {s0 : State} {a1 s2} (h2 : Keeps s0 s2) : KeepsOut s0 (execDozeExit a1 s2) := by
  unfold execDozeExit
  refine KeepsOut.liveIf ?_ ?_
  · exact h2
  · exact keeps_State_dozeExit h2

theorem keeps_execPowerOff {s0 : State} {a1 s2} (h2 : Keeps s0 s2) : KeepsOut s0 (execPowerOff a1 s2) := by
  unfold execPowerOff
  refine KeepsOut.live ?_ ?_
  · exact h2
  · exact keeps_doPowerOff h2

theorem keeps_execAvsTransactionEnd {s0 : State} {a1 a2 s3} (h3 : Keeps s0 s3) : KeepsOut s0 (execAvsTransactionEnd a1 a2 s3) := by
  unfold execAvsTransactionEnd
  refine KeepsOut.live ?_ ?_
  · exact h3
  · exact keeps_State_avsEnd h3

theorem keeps_execWatchdogKick {s0 : State} {a1 s2} (h2 : Keeps s0 s2) : KeepsOut s0 (execWatchdogKick a1 s2) := by
  unfold execWatchdogKick
  refine KeepsOut.live ?_ ?_
  · exact h2
  · exact keeps_doKick h2

theorem keeps_execWdtWarn {s0 : State} {s1} (h1 : Keeps s0 s1) : KeepsOut s0 (execWdtWarn s1) := by
  unfold execWdtWarn
  refine KeepsOut.liveIf ?_ ?_
  · exact h1
  · exact keeps_State_raise (Keeps.same h1)

theorem keeps_State_vaonOut {s0 : State} {s1} (h1 : Keeps s0 s1) : Keeps s0 (State.vaonOut s1) := by
  unfold State.vaonOut
  exact Keeps.same h1

theorem keeps_execVaonLoss {s0 : State} {s1} (h1 : Keeps s0 s1) : KeepsOut s0 (execVaonLoss s1) := by
  unfold execVaonLoss
  refine KeepsOut.next ?_
  · exact keeps_State_vaonOut (Keeps.ite (keeps_State_powerOff h1) h1)

end Sys2Proof.Laws
end

