-- ==== Sys2Proof/Laws/KeepWhole.lean ====
section
/-! SUPPORT. The operations and meanings of Machine/Uart, Views, Dma, Reset, Boot, Fabric, Move keep the command queue and the invariant: one lemma
each. -/

namespace Sys2Proof.Laws

open Sys2Proof.Machine

theorem uart_bounded {s : State} (i : s.Inv) (k : Nat) : (s.uartOf k).bounded :=
  getD_of_all i.uart ⟨by decide, by decide, by decide⟩ k

theorem keeps_State_setUart {s0 : State} {s1 a2 a3} (h1 : Keeps s0 s1) (hb : s0.Inv → a3.bounded) :
    Keeps s0 (State.setUart s1 a2 a3) := by
  refine keeps_State_setF (keeps_State_setF (keeps_State_setF ⟨h1.1, fun i => { h1.2 i with mem := (h1.2 i).mem, uart := fun x hx => ?_ }⟩))
  rcases setNth_mem hx with h | h
  · exact h ▸ hb i
  · exact (h1.2 i).uart x h

theorem keeps_State_uartLost {s0 : State} {s1 a2} (h1 : Keeps s0 s1) : Keeps s0 (State.uartLost s1 a2) := by
  unfold State.uartLost
  exact keeps_State_raise (keeps_State_stick h1)

theorem keeps_doUartRx {s0 : State} {s1 a2 a3 a4 a5 a6 a7} (h1 : Keeps s0 s1) : Keeps s0 (doUartRx s1 a2 a3 a4 a5 a6 a7) := by
  unfold doUartRx
  extract_lets +onlyGivenNames x
  split
  · exact keeps_State_uartLost h1
  · rename_i hl
    extract_lets -underBinder -merge -useContext +onlyGivenNames w sos idx room st t
    have hst : x.stamps.length ≤ 32 → st.length ≤ 32 := by
      intro hi
      unfold st
      split
      · rename_i hc
        have hr : x.stamps.length < 32 := of_decide_eq_true (Bool.and_eq_true_iff.1 hc).2
        simp only [List.length_append, List.length_singleton]
        omega
      · exact hi
    clear_value st
    have ht : Keeps s0 t := keeps_State_wrap (keeps_State_setUart h1 fun i => by
      have hb := uart_bounded (h1.2 i) a2
      refine ⟨?_, hst hb.2.1, hb.2.2⟩
      simp only [List.length_append, List.length_singleton]
      omega)
    clear_value t
    extract_lets -underBinder -merge -useContext +onlyGivenNames t2
    have ht2 : Keeps s0 t2 := Keeps.ite (keeps_State_uartLost ht) ht
    clear_value t2
    extract_lets -underBinder -merge -useContext +onlyGivenNames t3
    have ht3 : Keeps s0 t3 := Keeps.ite (keeps_State_raise (keeps_State_stick ht2)) ht2
    clear_value t3
    exact Keeps.ite (keeps_State_raise ht3) ht3

theorem keeps_State_uartPop {s0 : State} {s1 a2} (h1 : Keeps s0 s1) : Keeps s0 (State.uartPop s1 a2).1 := by
  unfold State.uartPop
  extract_lets x
  split
  · exact keeps_State_draw h1
  · rename_i w ws hw
    refine keeps_State_setUart h1 fun i => ?_
    have hb := uart_bounded (h1.2 i) a2
    refine ⟨?_, hb.2⟩
    have := hb.1
    rw [hw, List.length_cons] at this
    exact Nat.le_trans (Nat.le_succ _) this

theorem keeps_doUartPop {s0 : State} {s1 a2 a3} (h1 : Keeps s0 s1) : Keeps s0 (doUartPop s1 a2 a3) := by
  unfold doUartPop
  split
  · rename_i x1 y2  he3
    have hq0 : Keeps s0 x1 := by
      have e := congrArg Prod.fst he3
      dsimp only at e
      rw [← e]
      refine keeps_State_uartPop ?_
      · exact keeps_State_noteSrc h1
    exact keeps_State_ansW hq0

theorem keeps_doUartStamp {s0 : State} {s1 a2 a3} (h1 : Keeps s0 s1) : Keeps s0 (doUartStamp s1 a2 a3) := by
  unfold doUartStamp
  extract_lets +onlyGivenNames y x
  have hy : Keeps s0 y := keeps_State_noteSrc h1
  clear_value y
  split
  · exact keeps_State_ansW (keeps_State_draw hy)
  · rename_i hw
    refine keeps_State_ansW (keeps_State_setReg (keeps_State_setPair (keeps_State_setUart hy fun i => ?_)))
    have hb := uart_bounded (hy.2 i) a3
    refine ⟨hb.1, ?_, hb.2.2⟩
    have := hb.2.1
    rw [hw, List.length_cons] at this
    exact Nat.le_trans (Nat.le_succ _) this

theorem keeps_doUartTx {s0 : State} {s1 a2 a3} (h1 : Keeps s0 s1) : Keeps s0 (doUartTx s1 a2 a3) := by
  unfold doUartTx
  extract_lets x
  refine keeps_State_ok ?_
  split
  · rename_i hl
    refine keeps_State_setUart h1 fun i => ?_
    have hb := uart_bounded (h1.2 i) a2
    refine ⟨hb.1, hb.2.1, ?_⟩
    simp only [List.length_append, List.length_singleton]
    omega
  · exact h1

theorem keeps_doUartDiv {s0 : State} {s1 a2 a3} (h1 : Keeps s0 s1) : Keeps s0 (doUartDiv s1 a2 a3) := by
  unfold doUartDiv
  extract_lets -underBinder -merge -useContext +onlyGivenNames x0
  exact keeps_State_ok (Keeps.ite h1 (Keeps.ite (keeps_State_setF h1) (keeps_State_setF h1)))

theorem keeps_doUartSent {s0 : State} {s1 a2} (h1 : Keeps s0 s1) : Keeps s0 (doUartSent s1 a2) := by
  unfold doUartSent
  extract_lets x
  split
  · exact h1
  · rename_i hw
    refine keeps_State_send (keeps_State_setUart h1 fun i => ?_)
    have hb := uart_bounded (h1.2 i) a2
    refine ⟨hb.1, hb.2.1, ?_⟩
    have := hb.2.2
    rw [hw, List.length_cons] at this
    exact Nat.le_trans (Nat.le_succ _) this

theorem keeps_execUartRxPop {s0 : State} {a1 a2 s3} (h3 : Keeps s0 s3) : KeepsOut s0 (execUartRxPop a1 a2 s3) := by
  unfold execUartRxPop
  refine KeepsOut.liveIf ?_ ?_
  · exact h3
  · exact keeps_doUartPop h3

theorem keeps_execUartStampPop {s0 : State} {a1 a2 s3} (h3 : Keeps s0 s3) : KeepsOut s0 (execUartStampPop a1 a2 s3) := by
  unfold execUartStampPop
  refine KeepsOut.liveIf ?_ ?_
  · exact h3
  · exact keeps_doUartStamp h3

theorem keeps_execUartTxWrite {s0 : State} {a1 a2 s3} (h3 : Keeps s0 s3) : KeepsOut s0 (execUartTxWrite a1 a2 s3) := by
  unfold execUartTxWrite
  refine KeepsOut.liveIf ?_ ?_
  · exact h3
  · exact keeps_doUartTx h3

theorem keeps_execUartDivWrite {s0 : State} {a1 a2 s3} (h3 : Keeps s0 s3) : KeepsOut s0 (execUartDivWrite a1 a2 s3) := by
  unfold execUartDivWrite
  refine KeepsOut.liveIf ?_ ?_
  · exact h3
  · exact keeps_doUartDiv h3

theorem keeps_execUartCharSent {s0 : State} {a1 s2} (h2 : Keeps s0 s2) : KeepsOut s0 (execUartCharSent a1 s2) := by
  unfold execUartCharSent
  refine KeepsOut.liveIf ?_ ?_
  · exact h2
  · exact keeps_doUartSent h2

theorem keeps_State_readPlain {s0 : State} {s1 a2} (h1 : Keeps s0 s1) : Keeps s0 (State.readPlain s1 a2) := by
  unfold State.readPlain
  exact keeps_State_ansW h1

theorem keeps_State_pageRead {s0 : State} {s1 a2 a3} (h1 : Keeps s0 s1) : Keeps s0 (State.pageRead s1 a2 a3) := by
  unfold State.pageRead
  extract_lets -underBinder -merge -useContext +onlyGivenNames x0
  extract_lets -underBinder -merge -useContext +onlyGivenNames x1
  refine Keeps.ite ?_ ?_
  · exact keeps_doEvtClaim h1
  · refine Keeps.ite ?_ ?_
    · exact keeps_doLcNonce h1
    · refine Keeps.ite ?_ ?_
      · exact keeps_doTimeNow h1
      · refine Keeps.ite ?_ ?_
        · exact keeps_doLgrNonce h1
        · refine Keeps.ite ?_ ?_
          · exact keeps_State_readPlain (Keeps.same h1)
          · refine Keeps.ite ?_ ?_
            · exact keeps_doUartPop h1
            · refine Keeps.ite ?_ ?_
              · exact keeps_doUartStamp h1
              · refine Keeps.ite ?_ ?_
                · extract_lets -underBinder -merge -useContext +onlyGivenNames x2
                  exact keeps_State_readPlain (keeps_State_setSlot h1)
                · exact Keeps.ite (keeps_State_draw (keeps_State_readPlain h1)) (Keeps.ite (keeps_State_readPlain (keeps_State_noteLive h1)) (Keeps.ite (keeps_State_readPlain (keeps_State_noteLive h1)) (Keeps.ite (keeps_State_readPlain (keeps_State_noteSrc h1)) (keeps_State_readPlain h1))))

theorem keeps_State_setAddr {s0 : State} {s1 a2 a3 a4} (h1 : Keeps s0 s1) : Keeps s0 (State.setAddr s1 a2 a3 a4) := by
  unfold State.setAddr
  exact keeps_State_setPair h1

theorem keeps_State_setHeld {s0 : State} {s1 a2 a3} (h1 : Keeps s0 s1) : Keeps s0 (State.setHeld s1 a2 a3) := by
  unfold State.setHeld
  exact Keeps.same h1

theorem keeps_State_dmaEnd {s0 : State} {s1 a2 a3} (h1 : Keeps s0 s1) : Keeps s0 (State.dmaEnd s1 a2 a3) := by
  unfold State.dmaEnd
  extract_lets -underBinder -merge -useContext +onlyGivenNames x0
  have hx0 : Keeps s0 x0 := (Keeps.same h1)
  clear_value x0
  exact keeps_State_setF (keeps_State_setF hx0)

theorem keeps_State_dmaStopAll {s0 : State} {s1 a2} (h1 : Keeps s0 s1) : Keeps s0 (State.dmaStopAll s1 a2) := by
  unfold State.dmaStopAll
  refine keeps_forUp (fun y1 x0 hx0 => ?_) ?_
  · refine Keeps.ite ?_ ?_
    · extract_lets -underBinder -merge -useContext +onlyGivenNames x2
      have hx2 : Keeps s0 x2 := (keeps_State_setAddr (keeps_State_dmaEnd hx0))
      clear_value x2
      extract_lets -underBinder -merge -useContext +onlyGivenNames x3
      have hx3 : Keeps s0 x3 := (keeps_State_setAddr (keeps_State_draw hx2))
      clear_value x3
      exact keeps_State_setF (keeps_State_draw hx3)
    · exact hx0
  · exact h1

theorem keeps_State_dmaBusErr {s0 : State} {s1 a2 a3} (h1 : Keeps s0 s1) : Keeps s0 (State.dmaBusErr s1 a2 a3) := by
  unfold State.dmaBusErr
  extract_lets -underBinder -merge -useContext +onlyGivenNames x0
  have hx0 : Keeps s0 x0 := (keeps_State_dmaStopAll h1)
  clear_value x0
  extract_lets -underBinder -merge -useContext +onlyGivenNames x1
  have hx1 : Keeps s0 x1 := (Keeps.ite hx0 (keeps_State_setF (keeps_State_setF (keeps_State_setF hx0))))
  clear_value x1
  exact keeps_State_raise (keeps_State_setF hx1)

theorem keeps_State_dmaBegin {s0 : State} {s1 a2} (h1 : Keeps s0 s1) : Keeps s0 (State.dmaBegin s1 a2) := by
  unfold State.dmaBegin
  extract_lets -underBinder -merge -useContext +onlyGivenNames x0
  exact Keeps.ite (keeps_State_raise (keeps_State_dmaEnd h1)) (keeps_State_setF (keeps_State_setF h1))

theorem keeps_State_dmaLoad {s0 : State} {s1 a2 a3} (h1 : Keeps s0 s1) : Keeps s0 (State.dmaLoad s1 a2 a3) := by
  unfold State.dmaLoad
  extract_lets -underBinder -merge -useContext +onlyGivenNames x0
  have hx0 : Keeps s0 x0 := (keeps_State_setAddr (keeps_State_setAddr (keeps_State_setAddr h1)))
  clear_value x0
  exact keeps_State_setReg (keeps_State_setF hx0)

theorem keeps_State_dmaChain {s0 : State} {s1 a2} (h1 : Keeps s0 s1) : Keeps s0 (State.dmaChain s1 a2) := by
  have h : Keeps s0 (s1.mRead (dmaMaster a2) (s1.dmaNext a2) 32).st := keeps_State_mRead h1
  unfold State.dmaChain
  revert h
  generalize s1.mRead (dmaMaster a2) (s1.dmaNext a2) 32 = r
  intro h
  exact Keeps.ite (keeps_State_dmaBegin (keeps_State_dmaLoad h)) (keeps_State_dmaBusErr h)

theorem keeps_State_dmaComplete {s0 : State} {s1 a2} (h1 : Keeps s0 s1) : Keeps s0 (State.dmaComplete s1 a2) := by
  unfold State.dmaComplete
  extract_lets -underBinder -merge -useContext +onlyGivenNames x0
  have hx0 : Keeps s0 x0 := (keeps_State_wrap (keeps_State_setF (keeps_State_dmaEnd h1)))
  clear_value x0
  extract_lets -underBinder -merge -useContext +onlyGivenNames x1
  have hx1 : Keeps s0 x1 := (Keeps.ite (keeps_State_raise hx0) hx0)
  clear_value x1
  exact Keeps.ite (keeps_State_dmaChain hx1) hx1

theorem keeps_State_dmaStart {s0 : State} {s1 a2} (h1 : Keeps s0 s1) : Keeps s0 (State.dmaStart s1 a2) := by
  unfold State.dmaStart
  refine Keeps.ite ?_ ?_
  · exact h1
  · extract_lets -underBinder -merge -useContext +onlyGivenNames x0
    have hx0 : Keeps s0 x0 := (keeps_State_dmaBegin h1)
    clear_value x0
    exact Keeps.ite (keeps_State_dmaComplete hx0) hx0

theorem keeps_State_dmaStop {s0 : State} {s1 a2} (h1 : Keeps s0 s1) : Keeps s0 (State.dmaStop s1 a2) := by
  unfold State.dmaStop
  exact Keeps.ite (Keeps.same h1) h1

theorem keeps_doDmaCtrl {s0 : State} {s1 a2 a3} (h1 : Keeps s0 s1) : Keeps s0 (doDmaCtrl s1 a2 a3) := by
  unfold doDmaCtrl
  extract_lets -underBinder -merge -useContext +onlyGivenNames x0
  have hx0 : Keeps s0 x0 := (Keeps.ite h1 (keeps_State_setReg h1))
  clear_value x0
  extract_lets -underBinder -merge -useContext +onlyGivenNames x1
  have hx1 : Keeps s0 x1 := (Keeps.ite (keeps_State_dmaStop hx0) hx0)
  clear_value x1
  exact keeps_State_ok (Keeps.ite (keeps_State_dmaStart hx1) hx1)

theorem keeps_doDmaGlobal {s0 : State} {s1 a2} (h1 : Keeps s0 s1) : Keeps s0 (doDmaGlobal s1 a2) := by
  unfold doDmaGlobal
  extract_lets -underBinder -merge -useContext +onlyGivenNames x0
  have hx0 : Keeps s0 x0 := (Keeps.ite (keeps_State_setF h1) h1)
  clear_value x0
  extract_lets -underBinder -merge -useContext +onlyGivenNames x1
  have hx1 : Keeps s0 x1 := (keeps_State_setF hx0)
  clear_value x1
  exact keeps_State_ok (Keeps.ite (keeps_State_dmaStopAll hx1) hx1)

theorem keeps_doDmaReg {s0 : State} {s1 a2 a3 a4} (h1 : Keeps s0 s1) : Keeps s0 (doDmaReg s1 a2 a3 a4) := by
  unfold doDmaReg
  exact keeps_State_ok (Keeps.ite h1 (keeps_State_setReg h1))

theorem keeps_State_masterErr {s0 : State} {s1 a2 a3 a4} (h1 : Keeps s0 s1) : Keeps s0 (State.masterErr s1 a2 a3 a4) := by
  unfold State.masterErr
  exact Keeps.ite (keeps_State_dmaBusErr h1) (Keeps.ite (keeps_State_ethBusErr h1) (Keeps.ite (keeps_State_diagFail h1) h1))

theorem keeps_State_eraseRegs {s0 : State} {s1 a2} (h1 : Keeps s0 s1) : Keeps s0 (State.eraseRegs s1 a2) :=
  ⟨h1.1, fun i => { h1.2 i with mem := (h1.2 i).mem, regs := filter_wf _ _ (h1.2 i).regs, shadow := filter_wf _ _ (h1.2 i).shadow }⟩

theorem keeps_State_beforeReset {s0 : State} {s1 a2} (h1 : Keeps s0 s1) : Keeps s0 (State.beforeReset s1 a2) := by
  unfold State.beforeReset
  refine Keeps.ite ?_ ?_
  · split
    · exact keeps_State_snapEnd h1
    · exact h1
  · refine Keeps.ite ?_ ?_
    · exact keeps_State_noWarmStart (keeps_State_noVerdicts h1)
    · refine Keeps.ite ?_ ?_
      · exact keeps_State_laneReset h1
      · refine Keeps.ite ?_ ?_
        · refine Keeps.foldl (fun x0 y1 hx0 => ?_) ?_
          · try beta_reduce
            extract_lets -underBinder -merge -useContext +onlyGivenNames x2
            exact keeps_State_scramble (Keeps.same hx0)
          · exact h1
        · exact h1

theorem keeps_State_hiddenReset {s0 : State} {s1 a2} (h1 : Keeps s0 s1) : Keeps s0 (State.hiddenReset s1 a2) := by
  unfold State.hiddenReset
  refine Keeps.ite (keeps_State_setEth h1 fun _ => ⟨by decide, by decide⟩) ?_
  refine Keeps.ite (keeps_State_setCan h1 fun _ => show (0 : Nat) ≤ 64 by decide) ?_
  refine Keeps.ite (Keeps.same h1) ?_
  refine Keeps.ite ?_ ?_
  · refine ⟨h1.1, fun i => { h1.2 i with mem := (h1.2 i).mem, uart := fun x hx => ?_ }⟩
    rcases setNth_mem hx with h | h
    · exact h ▸ ⟨by decide, by decide, by decide⟩
    · exact (h1.2 i).uart x h
  · iterate 8 refine Keeps.ite (Keeps.same h1) ?_
    refine Keeps.ite ?_ (Keeps.ite (Keeps.same h1) h1)
    exact ⟨h1.1, fun i => { h1.2 i with mem := (h1.2 i).mem, replay := Nat.zero_le 8 }⟩

theorem keeps_State_afterReset {s0 : State} {s1 a2 a3 a4 a5} (h1 : Keeps s0 s1) : Keeps s0 (State.afterReset s1 a2 a3 a4 a5) := by
  unfold State.afterReset
  exact Keeps.ite (keeps_State_setF h1) (Keeps.ite (keeps_State_rhoInit h1) (Keeps.ite (keeps_State_nfcRestart h1) (Keeps.ite (keeps_State_canKick h1) (Keeps.ite (keeps_State_canKickAll h1) (Keeps.ite (keeps_State_setReg (keeps_State_setReg h1)) h1)))))

theorem keeps_State_blockClear {s0 : State} {s1 a2} (h1 : Keeps s0 s1) : Keeps s0 (State.blockClear s1 a2) := by
  unfold State.blockClear
  extract_lets -underBinder -merge -useContext +onlyGivenNames x0
  have hx0 : Keeps s0 x0 := (keeps_State_beforeReset h1)
  clear_value x0
  exact keeps_State_afterReset (keeps_State_hiddenReset (keeps_State_eraseRegs hx0))

theorem keeps_doBlockReset {s0 : State} {s1 a2 a3} (h1 : Keeps s0 s1) : Keeps s0 (doBlockReset s1 a2 a3) := by
  unfold doBlockReset
  extract_lets -underBinder -merge -useContext +onlyGivenNames x0
  refine Keeps.ite ?_ ?_
  · exact keeps_State_ok h1
  · extract_lets -underBinder -merge -useContext +onlyGivenNames x1
    have hx1 : Keeps s0 x1 := (keeps_State_blockClear h1)
    clear_value x1
    extract_lets -underBinder -merge -useContext +onlyGivenNames x2
    extract_lets -underBinder -merge -useContext +onlyGivenNames x3 x4
    have hx4 : Keeps s0 x4 := (Keeps.same hx1)
    clear_value x4
    exact keeps_State_ok (Keeps.foldl (fun _ _ hx5 => (keeps_State_masterErr hx5)) hx4)

theorem keeps_State_blockResetEnd {s0 : State} {s1 a2} (h1 : Keeps s0 s1) : Keeps s0 (State.blockResetEnd s1 a2) := by
  unfold State.blockResetEnd
  extract_lets -underBinder -merge -useContext +onlyGivenNames x0
  split
  · exact h1
  · extract_lets -underBinder -merge -useContext +onlyGivenNames x1 x2
    have hx2 : Keeps s0 x2 := (Keeps.same h1)
    clear_value x2
    exact keeps_State_offer hx2

theorem keeps_State_tallyReset {s0 : State} {s1} (h1 : Keeps s0 s1) : Keeps s0 (State.tallyReset s1) := by
  unfold State.tallyReset
  exact keeps_State_setF (keeps_State_setF h1)

theorem keeps_State_cause {s0 : State} {s1 a2 a3} (h1 : Keeps s0 s1) : Keeps s0 (State.cause s1 a2 a3) := by
  unfold State.cause
  exact keeps_State_setF (keeps_State_setF h1)

/-- The controllers, UARTs and MACs of the state after power-on reset hold nothing. -/
theorem reset_can : ∀ c ∈ State.reset.can, c.bounded := fun c hc => by
  rw [List.eq_of_mem_replicate hc]
  exact (show (0 : Nat) ≤ 64 by decide)

theorem reset_uart : ∀ u ∈ State.reset.uart, u.bounded := fun c hc => by
  rw [List.eq_of_mem_replicate hc]
  exact ⟨by decide, by decide, by decide⟩

theorem reset_eth : ∀ e ∈ State.reset.eth, e.bounded := fun c hc => by
  rw [List.eq_of_mem_replicate hc]
  exact ⟨by decide, by decide⟩

theorem keeps_State_coldReset {s0 : State} {s1 a2} (h1 : Keeps s0 s1) : Keeps s0 (State.coldReset s1 a2) := by
  unfold State.coldReset
  extract_lets l t
  refine keeps_State_nfcRestart (keeps_State_tallyReset (keeps_State_cause ?_))
  exact ⟨h1.1, fun _ =>
    { regs := rfl, shadow := rfl, mem := rfl, ecc := rfl, queue := Nat.zero_le 256
      can := reset_can, uart := reset_uart, eth := reset_eth, replay := Nat.zero_le 8 }⟩

theorem keeps_State_warmReset {s0 : State} {s1 a2 a3} (h1 : Keeps s0 s1) : Keeps s0 (State.warmReset s1 a2 a3) := by
  unfold State.warmReset
  extract_lets -underBinder -merge -useContext own trained link di t q1 q2 q3 q4 u v w x
  have ht : Keeps s0 t := keeps_State_eraseRegs h1
  have hu : Keeps s0 u := ⟨ht.1, fun i =>
    { ht.2 i with
      mem := (h1.2 i).mem, ecc := (h1.2 i).ecc, queue := Nat.zero_le 256
      can := reset_can, uart := reset_uart, eth := reset_eth, replay := Nat.zero_le 8 }⟩
  have hv : Keeps s0 v := keeps_State_setF (keeps_State_setF hu)
  have hw : Keeps s0 w := keeps_State_setReg (keeps_State_setReg hv)
  have hx : Keeps s0 x := Keeps.ite (keeps_State_stickN hw) (keeps_State_stickN hw)
  exact keeps_State_rhoInit (keeps_State_applyPower (keeps_State_nfcRestart (keeps_State_tallyReset (keeps_State_cause hx))))

theorem keeps_State_devReset {s0 : State} {s1 a2 a3} (h1 : Keeps s0 s1) : Keeps s0 (State.devReset s1 a2 a3) := by
  unfold State.devReset
  exact Keeps.ite (keeps_State_warmReset h1) (keeps_State_coldReset h1)

theorem keeps_State_silence {s0 : State} {s1} (h1 : Keeps s0 s1) : Keeps s0 (State.silence s1) := by
  unfold State.silence
  exact Keeps.same h1

theorem keeps_State_railOut {s0 : State} {s1} (h1 : Keeps s0 s1) : Keeps s0 (State.railOut s1) := by
  unfold State.railOut
  exact Keeps.same h1

theorem keeps_State_clockFault {s0 : State} {s1} (h1 : Keeps s0 s1) : Keeps s0 (State.clockFault s1) := by
  unfold State.clockFault
  exact keeps_State_silence (keeps_State_devReset (keeps_State_canCutAll (keeps_State_silence h1)))

theorem keeps_doSwReset {s0 : State} {s1 a2} (h1 : Keeps s0 s1) : Keeps s0 (doSwReset s1 a2) := by
  unfold doSwReset
  exact Keeps.ite (keeps_State_devReset (keeps_State_ok h1)) (keeps_State_ok h1)

theorem keeps_execBlockReset {s0 : State} {a1 a2 s3} (h3 : Keeps s0 s3) : KeepsOut s0 (execBlockReset a1 a2 s3) := by
  unfold execBlockReset
  refine KeepsOut.liveIf ?_ ?_
  · exact h3
  · exact keeps_doBlockReset h3

theorem keeps_execBlockResetEnd {s0 : State} {a1 s2} (h2 : Keeps s0 s2) : KeepsOut s0 (execBlockResetEnd a1 s2) := by
  unfold execBlockResetEnd
  refine KeepsOut.live ?_ ?_
  · exact h2
  · exact keeps_State_blockResetEnd h2

theorem keeps_execClockFault {s0 : State} {s1} (h1 : Keeps s0 s1) : KeepsOut s0 (execClockFault s1) := by
  unfold execClockFault
  refine KeepsOut.live ?_ ?_
  · exact h1
  · exact keeps_State_clockFault h1

theorem keeps_execRailFault {s0 : State} {s1} (h1 : Keeps s0 s1) : KeepsOut s0 (execRailFault s1) := by
  unfold execRailFault
  refine KeepsOut.live ?_ ?_
  · exact h1
  · exact keeps_State_railOut (keeps_State_clockFault h1)

theorem keeps_execSysSwreset {s0 : State} {a1 s2} (h2 : Keeps s0 s2) : KeepsOut s0 (execSysSwreset a1 s2) := by
  unfold execSysSwreset
  refine KeepsOut.live ?_ ?_
  · exact h2
  · exact keeps_doSwReset h2

theorem keeps_execWatchdogExpiry {s0 : State} {s1} (h1 : Keeps s0 s1) : KeepsOut s0 (execWatchdogExpiry s1) := by
  unfold execWatchdogExpiry
  refine KeepsOut.liveIf ?_ ?_
  · exact h1
  · exact keeps_State_devReset h1

theorem keeps_execPowerOnReset {s0 : State} {s1} (h1 : Keeps s0 s1) : KeepsOut s0 (execPowerOnReset s1) := by
  unfold execPowerOnReset
  refine KeepsOut.next ?_
  · exact keeps_State_devReset h1

theorem keeps_execResetN {s0 : State} {s1} (h1 : Keeps s0 s1) : KeepsOut s0 (execResetN s1) := by
  unfold execResetN
  refine KeepsOut.next ?_
  · exact Keeps.ite (keeps_State_devReset h1) h1

theorem keeps_execWake {s0 : State} {s1} (h1 : Keeps s0 s1) : KeepsOut s0 (execWake s1) := by
  unfold execWake
  refine KeepsOut.next ?_
  · exact Keeps.ite (keeps_State_devReset h1) h1

theorem keeps_State_marchAll {s0 : State} {s1} (h1 : Keeps s0 s1) : Keeps s0 (State.marchAll s1) := by
  unfold State.marchAll
  extract_lets -underBinder -merge -useContext +onlyGivenNames x0
  have hx0 : Keeps s0 x0 := (Keeps.ite h1 (keeps_forUp (fun _ _ hx1 => (keeps_State_passDeed hx1)) h1))
  clear_value x0
  extract_lets -underBinder -merge -useContext +onlyGivenNames x3
  exact keeps_State_setF (Keeps.same hx0)

theorem keeps_State_bootOn {s0 : State} {s1} (h1 : Keeps s0 s1) : Keeps s0 (State.bootOn s1) := by
  unfold State.bootOn
  extract_lets -underBinder -merge -useContext +onlyGivenNames x0
  exact Keeps.ite (keeps_State_marchAll (keeps_State_setF h1)) h1

theorem keeps_State_handOver {s0 : State} {s1 a2} (h1 : Keeps s0 s1) : Keeps s0 (State.handOver s1 a2) := by
  unfold State.handOver
  extract_lets -underBinder -merge -useContext +onlyGivenNames x0
  refine Keeps.ite ?_ ?_
  · exact keeps_State_setF h1
  · split
    · exact h1
    · extract_lets -underBinder -merge -useContext +onlyGivenNames x1
      have hx1 : Keeps s0 x1 := (keeps_State_passDeed (keeps_State_store h1))
      clear_value x1
      exact Keeps.same hx1

theorem keeps_State_bootRun {s0 : State} {s1 a2 a3} (h1 : Keeps s0 s1) : Keeps s0 (State.bootRun s1 a2 a3) := by
  unfold State.bootRun
  extract_lets -underBinder -merge -useContext +onlyGivenNames x0
  extract_lets -underBinder -merge -useContext +onlyGivenNames x1
  extract_lets -underBinder -merge -useContext +onlyGivenNames x2
  have hx2 : Keeps s0 x2 := by
    unfold x2
    refine keeps_State_mWrite ?_
    · exact h1
  clear_value x2
  extract_lets -underBinder -merge -useContext +onlyGivenNames x3
  have hx3 : Keeps s0 x3 := (keeps_State_setF (keeps_State_setF (keeps_State_setF hx2)))
  clear_value x3
  extract_lets -underBinder -merge -useContext +onlyGivenNames x4
  have hx4 : Keeps s0 x4 := (Keeps.ite hx3 (keeps_State_raise hx3))
  clear_value x4
  extract_lets -underBinder -merge -useContext +onlyGivenNames x5 x6
  have hx6 : Keeps s0 x6 := (Keeps.same hx4)
  clear_value x6
  exact keeps_State_setF (keeps_State_handOver hx6)

theorem keeps_State_eraseReturned {s0 : State} {s1} (h1 : Keeps s0 s1) : Keeps s0 (State.eraseReturned s1) := by
  unfold State.eraseReturned
  refine Keeps.ite ?_ ?_
  · extract_lets -underBinder -merge -useContext +onlyGivenNames x0
    have hx0 : Keeps s0 x0 := (keeps_State_nfcReturned h1)
    clear_value x0
    exact Keeps.same hx0
  · exact h1

theorem keeps_State_bootTry {s0 : State} {s1} (h1 : Keeps s0 s1) : Keeps s0 (State.bootTry s1) := by
  unfold State.bootTry
  extract_lets -underBinder -merge -useContext +onlyGivenNames x0
  have hx0 : Keeps s0 x0 := (keeps_State_eraseReturned h1)
  clear_value x0
  refine Keeps.ite ?_ ?_
  · exact hx0
  · extract_lets -underBinder -merge -useContext +onlyGivenNames x1
    extract_lets -underBinder -merge -useContext +onlyGivenNames x2
    have hx2 : ∀ y3 y4, Keeps s0 y3 → Keeps s0 (x2 y3 y4) := by
      intro y3 y4 hy3
      unfold x2
      split
      · exact keeps_State_bootRun hy3
      · exact hy3
    clear_value x2
    extract_lets -underBinder -merge -useContext +onlyGivenNames x5
    extract_lets -underBinder -merge -useContext +onlyGivenNames x6
    have hx6 : Keeps s0 x6 := (keeps_State_setF (keeps_State_setF (keeps_State_setF hx0)))
    clear_value x6
    refine Keeps.ite ?_ ?_
    · refine hx2 _ _ ?_
      · exact hx6
    · extract_lets -underBinder -merge -useContext +onlyGivenNames x7
      extract_lets -underBinder -merge -useContext +onlyGivenNames x8
      have hx8 : Keeps s0 x8 := (keeps_State_setF hx6)
      clear_value x8
      refine Keeps.ite ?_ ?_
      · refine hx2 _ _ ?_
        · exact hx8
      · exact Keeps.same hx8

theorem keeps_State_bootFail {s0 : State} {s1 a2} (h1 : Keeps s0 s1) : Keeps s0 (State.bootFail s1 a2) := by
  unfold State.bootFail
  extract_lets -underBinder -merge -useContext +onlyGivenNames x0 x1
  have hx1 : Keeps s0 x1 := (Keeps.same h1)
  clear_value x1
  exact keeps_State_setF (keeps_State_setF hx1)

theorem keeps_State_marchNext {s0 : State} {s1} (h1 : Keeps s0 s1) : Keeps s0 (State.marchNext s1) := by
  unfold State.marchNext
  exact Keeps.ite (keeps_State_bootTry h1) h1

theorem keeps_State_bootAnswer {s0 : State} {s1} (h1 : Keeps s0 s1) : Keeps s0 (State.bootAnswer s1) := by
  unfold State.bootAnswer
  extract_lets -underBinder -merge -useContext +onlyGivenNames x0
  refine Keeps.ite ?_ ?_
  · exact h1
  · split
    · exact h1
    · exact Keeps.ite h1 (Keeps.foldl (fun _ _ hx1 => (keeps_State_icvo hx1)) (Keeps.same h1))

theorem keeps_doBootRequest {s0 : State} {s1 a2} (h1 : Keeps s0 s1) : Keeps s0 (doBootRequest s1 a2) := by
  unfold doBootRequest
  exact Keeps.ite (keeps_State_bootAnswer h1) (keeps_State_parBad h1)

theorem keeps_doBootData {s0 : State} {s1 a2} (h1 : Keeps s0 s1) : Keeps s0 (doBootData s1 a2) := by
  unfold doBootData
  exact Keeps.ite (Keeps.same h1) (keeps_State_bootFail (keeps_State_parBad h1))

theorem keeps_doBootEnd {s0 : State} {s1 a2} (h1 : Keeps s0 s1) : Keeps s0 (doBootEnd s1 a2) := by
  unfold doBootEnd
  extract_lets -underBinder -merge -useContext +onlyGivenNames x0
  refine Keeps.ite ?_ ?_
  · extract_lets -underBinder -merge -useContext +onlyGivenNames x1
    exact Keeps.ite (keeps_State_bootRun (keeps_State_setF h1)) (keeps_State_bootFail h1)
  · exact keeps_State_bootFail (keeps_State_parBad h1)

theorem keeps_State_safStep {s0 : State} {s1} (h1 : Keeps s0 s1) : Keeps s0 (State.safStep s1) := by
  unfold State.safStep
  refine Keeps.ite ?_ ?_
  · exact h1
  · refine Keeps.ite ?_ ?_
    · exact Keeps.ite (keeps_State_stepOn (keeps_State_raise (keeps_State_setF h1))) (keeps_State_stepOn h1)
    · extract_lets -underBinder -merge -useContext +onlyGivenNames x0
      have hx0 : Keeps s0 x0 := (Keeps.foldl (fun _ _ hx1 => (keeps_State_setReg hx1)) h1)
      clear_value x0
      exact keeps_State_stepOn (keeps_State_setReg hx0)

theorem keeps_State_next {s0 : State} {s1} (h1 : Keeps s0 s1) : Keeps s0 (State.next s1) := by
  unfold State.next
  exact Keeps.ite (keeps_State_safStep (keeps_State_setF h1)) (keeps_State_raise (keeps_State_setF h1))

theorem keeps_State_coreRel {s0 : State} {s1 a2} (h1 : Keeps s0 s1) : Keeps s0 (State.coreRel s1 a2) := by
  unfold State.coreRel
  exact Keeps.same h1

theorem keeps_doStartCtrl {s0 : State} {s1 a2} (h1 : Keeps s0 s1) : Keeps s0 (doStartCtrl s1 a2) := by
  unfold doStartCtrl
  extract_lets -underBinder -merge -useContext +onlyGivenNames x0
  have hx0 : Keeps s0 x0 := (keeps_State_coreRel h1)
  clear_value x0
  exact keeps_State_ok (Keeps.ite (keeps_State_next hx0) hx0)

theorem keeps_State_shpStart {s0 : State} {s1} (h1 : Keeps s0 s1) : Keeps s0 (State.shpStart s1) := by
  unfold State.shpStart
  split
  · exact h1
  · extract_lets -underBinder -merge -useContext +onlyGivenNames x0
    have hx0 : Keeps s0 x0.st := Keeps.replyOf (y := State.mRead _ _ _ _) rfl (keeps_State_mRead h1)
    clear_value x0
    extract_lets -underBinder -merge -useContext +onlyGivenNames x1 x2 x3
    have hx1 : Keeps s0 x1 := by
      unfold x1
      exact hx0
    clear_value x1
    have hx3 : Keeps s0 x3 := (Keeps.same hx1)
    clear_value x3
    refine Keeps.ite ?_ ?_
    · extract_lets -underBinder -merge -useContext +onlyGivenNames x4
      have hx4 : Keeps s0 x4 := (keeps_State_passDeed (keeps_State_store hx3))
      clear_value x4
      exact keeps_State_safStep (Keeps.same hx4)
    · exact hx3

theorem keeps_State_mainUp {s0 : State} {s1} (h1 : Keeps s0 s1) : Keeps s0 (State.mainUp s1) := by
  unfold State.mainUp
  exact keeps_State_bootOn (Keeps.same h1)

theorem keeps_execMainResetRelease {s0 : State} {s1} (h1 : Keeps s0 s1) : KeepsOut s0 (execMainResetRelease s1) := by
  unfold execMainResetRelease
  refine KeepsOut.liveIf ?_ ?_
  · exact h1
  · exact keeps_State_mainUp h1

theorem keeps_execRailRecovered {s0 : State} {s1} (h1 : Keeps s0 s1) : KeepsOut s0 (execRailRecovered s1) := by
  unfold execRailRecovered
  refine KeepsOut.liveIf ?_ ?_
  · exact h1
  · exact keeps_State_mainUp h1

theorem keeps_execMemoryClearDone {s0 : State} {s1} (h1 : Keeps s0 s1) : KeepsOut s0 (execMemoryClearDone s1) := by
  unfold execMemoryClearDone
  extract_lets -underBinder -merge -useContext +onlyGivenNames x0
  have hx0 : Keeps s0 x0 := (keeps_State_clearMem (keeps_State_clearMem h1))
  clear_value x0
  refine KeepsOut.liveIf ?_ ?_
  · exact h1
  · exact keeps_State_bootOn (Keeps.same hx0)

theorem keeps_execDramTrained {s0 : State} {s1} (h1 : Keeps s0 s1) : KeepsOut s0 (execDramTrained s1) := by
  unfold execDramTrained
  refine KeepsOut.liveIf ?_ ?_
  · exact h1
  · exact keeps_State_bootOn (keeps_State_setF (keeps_State_clearMem h1))

theorem keeps_execMounted {s0 : State} {a1 a2 s3} (h3 : Keeps s0 s3) : KeepsOut s0 (execMounted a1 a2 s3) := by
  unfold execMounted
  refine KeepsOut.liveIf ?_ ?_
  · exact h3
  · exact keeps_State_bootOn (keeps_State_mount h3)

theorem keeps_execLedgerStart {s0 : State} {s1} (h1 : Keeps s0 s1) : KeepsOut s0 (execLedgerStart s1) := by
  unfold execLedgerStart
  refine KeepsOut.liveIf ?_ ?_
  · exact h1
  · exact keeps_State_bootOn (keeps_State_ledgerStart h1)

theorem keeps_execMarchDone {s0 : State} {a1 a2 a3 s4} (h4 : Keeps s0 s4) : KeepsOut s0 (execMarchDone a1 a2 a3 s4) := by
  unfold execMarchDone
  refine KeepsOut.live ?_ ?_
  · exact h4
  · exact keeps_State_marchNext (keeps_State_marchDone h4)

theorem keeps_execBootRetry {s0 : State} {s1} (h1 : Keeps s0 s1) : KeepsOut s0 (execBootRetry s1) := by
  unfold execBootRetry
  refine KeepsOut.liveIf ?_ ?_
  · exact h1
  · exact keeps_State_bootTry (Keeps.same h1)

theorem keeps_execBootRequestSend {s0 : State} {s1} (h1 : Keeps s0 s1) : KeepsOut s0 (execBootRequestSend s1) := by
  unfold execBootRequestSend
  refine KeepsOut.liveIf ?_ ?_
  · exact h1
  · exact keeps_State_icvo h1

theorem keeps_execBootRequestRx {s0 : State} {a1 s2} (h2 : Keeps s0 s2) : KeepsOut s0 (execBootRequestRx a1 s2) := by
  unfold execBootRequestRx
  refine KeepsOut.liveIf ?_ ?_
  · exact h2
  · exact keeps_doBootRequest h2

theorem keeps_execBootDataRx {s0 : State} {a1 s2} (h2 : Keeps s0 s2) : KeepsOut s0 (execBootDataRx a1 s2) := by
  unfold execBootDataRx
  refine KeepsOut.liveIf ?_ ?_
  · exact h2
  · exact keeps_doBootData h2

theorem keeps_execBootEndRx {s0 : State} {a1 s2} (h2 : Keeps s0 s2) : KeepsOut s0 (execBootEndRx a1 s2) := by
  unfold execBootEndRx
  refine KeepsOut.liveIf ?_ ?_
  · exact h2
  · exact keeps_doBootEnd h2

theorem keeps_execBootTimeout {s0 : State} {s1} (h1 : Keeps s0 s1) : KeepsOut s0 (execBootTimeout s1) := by
  unfold execBootTimeout
  refine KeepsOut.liveIf ?_ ?_
  · exact h1
  · exact keeps_State_bootFail h1

theorem keeps_execShepherdSectionStart {s0 : State} {s1} (h1 : Keeps s0 s1) : KeepsOut s0 (execShepherdSectionStart s1) := by
  unfold execShepherdSectionStart
  refine KeepsOut.live ?_ ?_
  · exact h1
  · exact keeps_State_shpStart h1

theorem keeps_execCoreRel {s0 : State} {a1 s2} (h2 : Keeps s0 s2) : KeepsOut s0 (execCoreRel a1 s2) := by
  unfold execCoreRel
  refine KeepsOut.live ?_ ?_
  · exact h2
  · exact keeps_State_ok (keeps_State_coreRel h2)

theorem keeps_execNext {s0 : State} {s1} (h1 : Keeps s0 s1) : KeepsOut s0 (execNext s1) := by
  unfold execNext
  refine KeepsOut.live ?_ ?_
  · exact h1
  · exact keeps_State_ok (keeps_State_next h1)

theorem keeps_State_plainWrite {s0 : State} {s1 a2 a3} (h1 : Keeps s0 s1) : Keeps s0 (State.plainWrite s1 a2 a3) := by
  unfold State.plainWrite
  extract_lets -underBinder -merge -useContext +onlyGivenNames x0
  extract_lets -underBinder -merge -useContext +onlyGivenNames x1
  have hx1 : Keeps s0 x1 := (Keeps.ite h1 (keeps_State_setReg h1))
  clear_value x1
  extract_lets -underBinder -merge -useContext +onlyGivenNames x2
  exact Keeps.ite hx1 (keeps_State_setSh hx1)

theorem keeps_State_trigWrite {s0 : State} {s1 a2 a3 a4 a5} (h1 : Keeps s0 s1) (h5 : ∀ y0, Keeps s0 y0 → Keeps s0 (a5 y0)) : Keeps s0 (State.trigWrite s1 a2 a3 a4 a5) := by
  unfold State.trigWrite
  extract_lets -underBinder -merge -useContext +onlyGivenNames x0
  have hx0 : Keeps s0 x0 := (keeps_State_plainWrite h1)
  clear_value x0
  refine Keeps.ite ?_ ?_
  · refine h5 _ ?_
    · exact hx0
  · exact hx0

theorem keeps_State_ctrlWrite {s0 : State} {s1 a2 a3} (h1 : Keeps s0 s1) : Keeps s0 (State.ctrlWrite s1 a2 a3) := by
  unfold State.ctrlWrite
  extract_lets -underBinder -merge -useContext +onlyGivenNames x0
  extract_lets -underBinder -merge -useContext +onlyGivenNames x1
  have hx1 : Keeps s0 x1 := (Keeps.ite (keeps_State_gfeEnable h1) (keeps_doEnable h1))
  clear_value x1
  extract_lets -underBinder -merge -useContext +onlyGivenNames x2
  have hx2 : Keeps s0 x2 := (keeps_doQuiesce hx1)
  clear_value x2
  exact Keeps.ite (keeps_doBlockReset hx2) hx2

theorem keeps_State_headWrite {s0 : State} {s1 a2 a3 a4} (h1 : Keeps s0 s1) : Keeps s0 (State.headWrite s1 a2 a3 a4) := by
  unfold State.headWrite
  exact Keeps.ite (Keeps.ite (keeps_doLgrCtrl h1) (keeps_State_ctrlWrite h1)) (Keeps.ite h1 (Keeps.ite (keeps_doEventClear h1) (Keeps.ite (keeps_doEventEn h1) (Keeps.ite (keeps_doEventSet h1) (Keeps.ite (keeps_doPageLock h1) h1)))))

theorem keeps_doDeedPass {s0 : State} {s1 a2 a3 a4} (h1 : Keeps s0 s1) : Keeps s0 (doDeedPass s1 a2 a3 a4) := by
  unfold doDeedPass
  exact Keeps.ite (keeps_State_ok (keeps_State_passDeed h1)) (keeps_State_ans (keeps_State_offerFabric (keeps_State_raise h1)))

theorem keeps_State_writeSys {s0 : State} {s1 a2 a3 a4} (h1 : Keeps s0 s1) : Keeps s0 (State.writeSys s1 a2 a3 a4) := by
  unfold State.writeSys
  extract_lets -underBinder -merge -useContext +onlyGivenNames x0
  refine Keeps.ite ?_ ?_
  · exact keeps_doSwReset h1
  · refine Keeps.ite ?_ ?_
    · extract_lets -underBinder -merge -useContext +onlyGivenNames x1
      have hx1 : Keeps s0 x1 := (keeps_State_plainWrite h1)
      clear_value x1
      exact Keeps.ite (Keeps.same hx1) hx1
    · refine Keeps.ite ?_ ?_
      · exact keeps_doKick h1
      · refine Keeps.ite ?_ ?_
        · exact keeps_doStartCtrl h1
        · refine Keeps.ite ?_ ?_
          · exact keeps_doPowerOff h1
          · refine Keeps.ite ?_ ?_
            · exact keeps_doEvtRoute h1
            · refine Keeps.ite ?_ ?_
              · exact keeps_doEvtDone h1
              · refine Keeps.ite ?_ ?_
                · exact keeps_doFwlArm h1
                · refine Keeps.ite ?_ ?_
                  · exact keeps_doRuleSelect h1
                  · refine Keeps.ite ?_ ?_
                    · exact keeps_doRuleCommit h1
                    · refine Keeps.ite ?_ ?_
                      · exact Keeps.ite (keeps_doLcReq h1) (keeps_State_plainWrite h1)
                      · refine Keeps.ite ?_ ?_
                        · exact keeps_doTmxSel h1
                        · refine Keeps.ite ?_ ?_
                          · exact keeps_doTimCfg h1
                          · refine Keeps.ite ?_ ?_
                            · exact keeps_doRate h1
                            · refine Keeps.ite ?_ ?_
                              · exact keeps_doStep h1
                              · refine Keeps.ite ?_ ?_
                                · refine keeps_State_trigWrite ?_ ?_
                                  · exact h1
                                  · intro y2 hy2
                                    exact keeps_doPtpObs hy2
                                · exact keeps_State_plainWrite h1

theorem keeps_State_writeEth {s0 : State} {s1 a2 a3 a4} (h1 : Keeps s0 s1) : Keeps s0 (State.writeEth s1 a2 a3 a4) := by
  unfold State.writeEth
  extract_lets -underBinder -merge -useContext +onlyGivenNames x0
  refine Keeps.ite ?_ ?_
  · exact keeps_doEthTail h1
  · refine Keeps.ite ?_ ?_
    · exact keeps_doEthTail h1
    · refine Keeps.ite ?_ ?_
      · refine keeps_State_trigWrite ?_ ?_
        · exact h1
        · intro y1 hy1
          exact keeps_doEthCalGo hy1
      · exact keeps_State_plainWrite h1

theorem keeps_State_writeCan {s0 : State} {s1 a2 a3 a4} (h1 : Keeps s0 s1) : Keeps s0 (State.writeCan s1 a2 a3 a4) := by
  unfold State.writeCan
  extract_lets -underBinder -merge -useContext +onlyGivenNames x0
  exact Keeps.ite (keeps_doCanMode h1) (Keeps.ite (keeps_doBitTiming h1) (Keeps.ite (keeps_doBitTiming h1) (Keeps.ite h1 (Keeps.ite (Keeps.ite (keeps_doTxAbortAll h1) (keeps_doTxAbort h1)) (Keeps.ite (keeps_doRxfPop h1) (Keeps.ite (keeps_doPbRel h1) (Keeps.ite (keeps_doTxPush h1) (keeps_State_plainWrite h1))))))))

theorem keeps_State_writeUart {s0 : State} {s1 a2 a3 a4} (h1 : Keeps s0 s1) : Keeps s0 (State.writeUart s1 a2 a3 a4) := by
  unfold State.writeUart
  extract_lets -underBinder -merge -useContext +onlyGivenNames x0
  exact Keeps.ite (keeps_doUartDiv h1) (Keeps.ite (keeps_doUartTx h1) (keeps_State_plainWrite h1))

theorem keeps_State_writeFront {s0 : State} {s1 a2 a3} (h1 : Keeps s0 s1) : Keeps s0 (State.writeFront s1 a2 a3) := by
  unfold State.writeFront
  extract_lets -underBinder -merge -useContext +onlyGivenNames x0
  extract_lets -underBinder -merge -useContext +onlyGivenNames x1
  refine Keeps.ite ?_ ?_
  · exact keeps_doFltMclk h1
  · refine Keeps.ite ?_ ?_
    · exact keeps_doFltCfg h1
    · refine Keeps.ite ?_ ?_
      · exact Keeps.ite (keeps_doFltRestart h1) h1
      · refine Keeps.ite ?_ ?_
        · extract_lets -underBinder -merge -useContext +onlyGivenNames x2
          have hx2 : Keeps s0 x2 := (keeps_State_plainWrite h1)
          clear_value x2
          exact Keeps.ite (keeps_State_snapEndOn hx2) hx2
        · refine Keeps.ite ?_ ?_
          · extract_lets -underBinder -merge -useContext +onlyGivenNames x3
            extract_lets -underBinder -merge -useContext +onlyGivenNames x4
            extract_lets -underBinder -merge -useContext +onlyGivenNames x5
            have hx5 : Keeps s0 x5 := (keeps_State_plainWrite h1)
            clear_value x5
            exact Keeps.ite (keeps_State_setF hx5) hx5
          · refine Keeps.ite ?_ ?_
            · refine keeps_State_trigWrite ?_ ?_
              · exact h1
              · intro y6 hy6
                exact keeps_doJamCal hy6
            · refine Keeps.ite ?_ ?_
              · refine keeps_State_trigWrite ?_ ?_
                · exact h1
                · intro y7 hy7
                  exact keeps_doSnapGo hy7
              · refine Keeps.ite ?_ ?_
                · refine keeps_State_trigWrite ?_ ?_
                  · exact h1
                  · intro y8 hy8
                    exact keeps_doGnssObs hy8
                · exact Keeps.ite (keeps_doGnsCfg h1) (keeps_State_plainWrite h1)

theorem keeps_State_writeFrame {s0 : State} {s1 a2 a3 a4} (h1 : Keeps s0 s1) : Keeps s0 (State.writeFrame s1 a2 a3 a4) := by
  unfold State.writeFrame
  extract_lets -underBinder -merge -useContext +onlyGivenNames x0
  extract_lets -underBinder -merge -useContext +onlyGivenNames x1
  refine Keeps.ite ?_ ?_
  · exact keeps_doGroupCfg h1
  · refine Keeps.ite ?_ ?_
    · exact keeps_doPortCfg h1
    · refine Keeps.ite ?_ ?_
      · exact keeps_doDepWrite h1
      · refine Keeps.ite ?_ ?_
        · exact keeps_doDepCommit h1
        · refine Keeps.ite ?_ ?_
          · extract_lets -underBinder -merge -useContext +onlyGivenNames x2
            extract_lets -underBinder -merge -useContext +onlyGivenNames x3
            have hx3 : Keeps s0 x3 := (keeps_State_plainWrite h1)
            clear_value x3
            exact keeps_State_setFus hx3
          · refine Keeps.ite ?_ ?_
            · exact Keeps.ite (keeps_doScanClr h1) h1
            · refine Keeps.ite ?_ ?_
              · exact keeps_doTblCtl h1
              · refine Keeps.ite ?_ ?_
                · extract_lets -underBinder -merge -useContext +onlyGivenNames x4
                  have hx4 : Keeps s0 x4 := (keeps_State_plainWrite h1)
                  clear_value x4
                  exact Keeps.same hx4
                · refine Keeps.ite ?_ ?_
                  · extract_lets -underBinder -merge -useContext +onlyGivenNames x5
                    have hx5 : Keeps s0 x5 := (keeps_State_plainWrite h1)
                    clear_value x5
                    exact Keeps.same hx5
                  · exact keeps_State_plainWrite h1

theorem keeps_State_writeMove {s0 : State} {s1 a2 a3 a4} (h1 : Keeps s0 s1) : Keeps s0 (State.writeMove s1 a2 a3 a4) := by
  unfold State.writeMove
  extract_lets -underBinder -merge -useContext +onlyGivenNames x0
  extract_lets -underBinder -merge -useContext +onlyGivenNames x1
  exact Keeps.ite (keeps_doDmaGlobal h1) (Keeps.ite (keeps_doDmaCtrl h1) (Keeps.ite (keeps_doDmaReg h1) (Keeps.ite (keeps_doDeedPass h1) (Keeps.ite (Keeps.ite (keeps_doMarch h1) (keeps_State_plainWrite h1)) (keeps_State_plainWrite h1)))))

theorem keeps_State_writeStore {s0 : State} {s1 a2 a3 a4} (h1 : Keeps s0 s1) : Keeps s0 (State.writeStore s1 a2 a3 a4) := by
  unfold State.writeStore
  extract_lets -underBinder -merge -useContext +onlyGivenNames x0
  refine Keeps.ite ?_ ?_
  · extract_lets -underBinder -merge -useContext +onlyGivenNames x1
    have hx1 : Keeps s0 x1 := (keeps_State_plainWrite h1)
    clear_value x1
    exact Keeps.ite hx1 (keeps_State_nfcRestart hx1)
  · refine Keeps.ite ?_ ?_
    · exact keeps_doNfcReq h1
    · refine Keeps.ite ?_ ?_
      · exact keeps_doBootSel h1
      · refine Keeps.ite ?_ ?_
        · exact keeps_doFormat h1
        · refine Keeps.ite ?_ ?_
          · extract_lets -underBinder -merge -useContext +onlyGivenNames x2
            have hx2 : Keeps s0 x2 := (keeps_State_plainWrite h1)
            clear_value x2
            exact keeps_State_setF hx2
          · refine Keeps.ite ?_ ?_
            · exact keeps_doLgrCtrl h1
            · refine Keeps.ite ?_ ?_
              · exact Keeps.ite (keeps_State_doRelease h1) h1
              · refine Keeps.ite ?_ ?_
                · exact keeps_doSwCommit h1
                · refine Keeps.ite h1 (Keeps.ite ?_ ?_)
                  · refine keeps_State_trigWrite ?_ ?_
                    · exact h1
                    · intro y3 hy3
                      exact keeps_doXtrGo hy3
                  · exact keeps_State_plainWrite h1

theorem keeps_State_writePair {s0 : State} {s1 a2 a3} (h1 : Keeps s0 s1) : Keeps s0 (State.writePair s1 a2 a3) := by
  unfold State.writePair
  refine Keeps.ite ?_ ?_
  · exact keeps_doParReq h1
  · refine Keeps.ite ?_ ?_
    · exact keeps_doEpochKey h1
    · refine Keeps.ite ?_ ?_
      · extract_lets -underBinder -merge -useContext +onlyGivenNames x0
        have hx0 : Keeps s0 x0 := by
          refine keeps_State_trigWrite ?_ ?_
          · exact h1
          · intro y1 hy1
            exact keeps_State_askFull hy1
        clear_value x0
        exact Keeps.ite (keeps_State_canCutAll (Keeps.same hx0)) hx0
      · exact Keeps.ite (keeps_doFioCfg h1) (Keeps.ite (keeps_doWdClr h1) (Keeps.ite (keeps_doDiagClear h1) (Keeps.ite (Keeps.ite (keeps_doSs1Req h1) h1) (Keeps.ite (keeps_doSafRelease h1) (keeps_State_plainWrite h1)))))

theorem keeps_State_writeHelm {s0 : State} {s1 a2 a3} (h1 : Keeps s0 s1) : Keeps s0 (State.writeHelm s1 a2 a3) := by
  unfold State.writeHelm
  exact keeps_State_canKickAll (keeps_State_plainWrite h1)

theorem keeps_State_pageWrite {s0 : State} {s1 a2 a3 a4} (h1 : Keeps s0 s1) : Keeps s0 (State.pageWrite s1 a2 a3 a4) := by
  unfold State.pageWrite
  extract_lets -underBinder -merge -useContext +onlyGivenNames x0
  extract_lets -underBinder -merge -useContext +onlyGivenNames x1
  have hx1 : Keeps s0 x1 := (keeps_State_ok h1)
  clear_value x1
  exact Keeps.ite hx1 (Keeps.ite (keeps_State_headWrite hx1) (Keeps.ite (keeps_State_writeSys hx1) (Keeps.ite (keeps_State_writeEth hx1) (Keeps.ite (keeps_State_writeCan hx1) (Keeps.ite (keeps_State_writeHelm hx1) (Keeps.ite (keeps_State_writeUart hx1) (Keeps.ite (keeps_State_plainWrite hx1) (Keeps.ite (keeps_State_writeFront hx1) (Keeps.ite (keeps_State_writeFrame hx1) (Keeps.ite (keeps_State_plainWrite hx1) (Keeps.ite (keeps_State_writeMove hx1) (Keeps.ite (keeps_State_plainWrite hx1) (Keeps.ite (keeps_State_writeStore hx1) (keeps_State_writePair hx1))))))))))))))

theorem keeps_State_writeWords {s0 : State} {a1 a2 a3 a4 a5 s6} (h6 : Keeps s0 s6) :
    Keeps s0 (State.writeWords a1 a2 a3 a4 a5 s6).1 := by
  induction a4 generalizing a2 a3 a5 s6 with
  | zero => exact h6
  | succ n ih => exact ih (keeps_State_pageWrite h6)

theorem keeps_State_readWords {s0 : State} {a1 a2 a3 a4 s5} (h5 : Keeps s0 s5) : Keeps s0 (State.readWords a1 a2 a3 a4 s5).1 := by
  induction a3 generalizing a2 a4 s5 with
  | zero => exact h5
  | succ n ih => exact ih (keeps_State_pageRead h5)

theorem keeps_State_answered {s0 : State} {s1 s2} (h1 : Keeps s0 s1) (h2 : Keeps s0 s2) : Keeps s0 (State.answered s1 s2) := by
  unfold State.answered
  exact Keeps.same h1

theorem keeps_State_pageReq {s0 : State} {s1 a2 a3 a4 a5 a6 a7} (h1 : Keeps s0 s1) : Keeps s0 (State.pageReq s1 a2 a3 a4 a5 a6 a7).st := by
  unfold State.pageReq
  extract_lets -underBinder -merge -useContext +onlyGivenNames x0
  extract_lets -underBinder -merge -useContext +onlyGivenNames x1
  split
  · refine Keeps.reply ?_
    exact keeps_State_countRetired h1
  · split
    · refine keeps_State_refuse ?_
      · exact h1
    · split
      · extract_lets -underBinder -merge -useContext +onlyGivenNames x2
        have hx2 : Keeps s0 x2.1 := by
          refine keeps_State_writeWords ?_
          · exact h1
        clear_value x2
        refine Keeps.reply ?_
        refine keeps_State_answered ?_ ?_
        · exact hx2
        · exact h1
      · extract_lets -underBinder -merge -useContext +onlyGivenNames x3
        have hx3 : Keeps s0 x3.1 := by
          refine keeps_State_readWords ?_
          · exact h1
        clear_value x3
        refine Keeps.reply ?_
        refine keeps_State_answered ?_ ?_
        · exact hx3
        · exact h1

theorem keeps_State_request {s0 : State} {s1 a2 a3 a4 a5 a6 a7} (h1 : Keeps s0 s1) :
    Keeps s0 (State.request s1 a2 a3 a4 a5 a6 a7).st := by
  unfold State.request
  split
  · split
    · rename_i hr
      exact keeps_State_gate h1 hr
    · exact keeps_State_pageReq h1
  · extract_lets l r
    have hr : Keeps s0 r.st := keeps_State_memReq h1
    clear_value r
    split
    · exact keeps_State_noteLive hr
    · exact hr

theorem keeps_State_fabric {s0 : State} {s1 a2 a3 a4 a5 a6 a7} (h1 : Keeps s0 s1) : Keeps s0 (State.fabric s1 a2 a3 a4 a5 a6 a7) := by
  unfold State.fabric
  extract_lets -underBinder -merge -useContext +onlyGivenNames x0
  have hx0 : Keeps s0 x0.st := Keeps.replyOf (y := State.request _ _ _ _ _ _ _) rfl (keeps_State_request h1)
  clear_value x0
  refine keeps_State_ans ?_
  · refine Keeps.ite ?_ ?_
    · exact hx0
    · refine keeps_State_masterErr ?_
      · exact hx0

theorem keeps_dmaReadAll {s0 : State} {a1 a2 a3 a4 a5 a6 a7 s8} (h8 : Keeps s0 s8) :
    Keeps s0 (dmaReadAll a1 a2 a3 a4 a5 a6 a7 s8).st := by
  induction a4 generalizing a5 a6 a7 s8 with
  | zero => exact h8
  | succ n ih =>
    unfold dmaReadAll
    split
    · exact h8
    · extract_lets k r
      have hr : Keeps s0 r.st := keeps_State_request h8
      clear_value r
      split
      · exact ih hr
      · exact hr

theorem keeps_dmaWriteAll {s0 : State} {a1 a2 a3 a4 a5 a6 s7} (h7 : Keeps s0 s7) :
    Keeps s0 (dmaWriteAll a1 a2 a3 a4 a5 a6 s7).st := by
  induction a4 generalizing a5 a6 s7 with
  | zero => exact h7
  | succ n ih =>
    unfold dmaWriteAll
    split
    · exact h7
    · extract_lets x r
      have hr : Keeps s0 r.st := keeps_State_request h7
      clear_value r
      split
      · exact ih hr
      · exact hr

theorem keeps_State_dmaDeposit {s0 : State} {s1 a2 a3} (h1 : Keeps s0 s1) : Keeps s0 (State.dmaDeposit s1 a2 a3) := by
  unfold State.dmaDeposit
  split
  · exact Keeps.ite (keeps_State_fusDma h1) h1
  · exact h1

theorem keeps_State_dmaMove {s0 : State} {s1 a2} (h1 : Keeps s0 s1) : Keeps s0 (State.dmaMove s1 a2).st := by
  unfold State.dmaMove
  extract_lets -underBinder -merge -useContext +onlyGivenNames x0
  extract_lets -underBinder -merge -useContext +onlyGivenNames x1
  extract_lets -underBinder -merge -useContext +onlyGivenNames x2
  extract_lets -underBinder -merge -useContext +onlyGivenNames x3
  extract_lets -underBinder -merge -useContext +onlyGivenNames x4
  extract_lets -underBinder -merge -useContext +onlyGivenNames x5
  have hx5 : Keeps s0 x5.st := by
    refine keeps_dmaReadAll ?_
    · exact h1
  clear_value x5
  split
  · exact hx5
  · extract_lets -underBinder -merge -useContext +onlyGivenNames x6
    have hx6 : Keeps s0 x6.st := by
      refine keeps_dmaWriteAll ?_
      · exact hx5
    clear_value x6
    refine Keeps.moved ?_
    exact hx6

theorem keeps_State_pacePut {s0 : State} {s1 a2 a3 a4 a5} (h1 : Keeps s0 s1) : Keeps s0 (State.pacePut s1 a2 a3 a4 a5) := by
  unfold State.pacePut
  extract_lets -underBinder -merge -useContext +onlyGivenNames x0
  have hx0 : Keeps s0 x0.st := Keeps.replyOf (y := State.request _ _ _ _ _ _ _) rfl (keeps_State_request h1)
  clear_value x0
  refine Keeps.ite ?_ ?_
  · refine keeps_State_setHeld ?_
    · exact hx0
  · refine keeps_State_dmaBusErr ?_
    · exact hx0

theorem keeps_State_paceOne {s0 : State} {s1 a2 a3} (h1 : Keeps s0 s1) : Keeps s0 (State.paceOne s1 a2 a3) := by
  have h : Keeps s0 (s1.request (dmaMaster a2) .read (s1.dmaSrc a2) 4 [] []).st := keeps_State_request h1
  unfold State.paceOne
  revert h
  generalize s1.request (dmaMaster a2) .read (s1.dmaSrc a2) 4 [] [] = r
  intro h
  refine Keeps.ite ?_ h1
  exact Keeps.ite (keeps_State_pacePut h) (keeps_State_dmaBusErr h)

theorem keeps_State_paceAll {s0 : State} {s1} (h1 : Keeps s0 s1) : Keeps s0 (State.paceAll s1) := by
  unfold State.paceAll
  refine keeps_State_answered ?_ ?_
  · refine keeps_forUp (fun y1 x0 hx0 => ?_) ?_
    · split
      · exact keeps_forUp (fun _ _ hx2 => (keeps_State_paceOne hx2)) hx0
      · exact hx0
    · exact h1
  · exact h1

theorem keeps_State_dmaFinish {s0 : State} {s1 a2} (h1 : Keeps s0 s1) : Keeps s0 (State.dmaFinish s1 a2) := by
  unfold State.dmaFinish
  refine Keeps.ite ?_ ?_
  · exact h1
  · split
    · exact Keeps.ite h1 (keeps_State_paceAll (keeps_State_dmaComplete (keeps_State_dmaDeposit h1)))
    · extract_lets -underBinder -merge -useContext +onlyGivenNames x0
      have hx0 : Keeps s0 x0.st := by
        refine keeps_State_dmaMove ?_
        · exact h1
      clear_value x0
      split
      · refine keeps_State_dmaBusErr ?_
        · exact hx0
      · refine keeps_State_paceAll ?_
        · refine keeps_State_dmaComplete ?_
          · refine keeps_State_dmaDeposit ?_
            · exact hx0

theorem keeps_State_dmaStopped {s0 : State} {s1 a2 a3} (h1 : Keeps s0 s1) : Keeps s0 (State.dmaStopped s1 a2 a3) := by
  unfold State.dmaStopped
  refine Keeps.ite ?_ ?_
  · exact h1
  · extract_lets -underBinder -merge -useContext +onlyGivenNames x0
    extract_lets -underBinder -merge -useContext +onlyGivenNames x1
    extract_lets -underBinder -merge -useContext +onlyGivenNames x2
    extract_lets -underBinder -merge -useContext +onlyGivenNames x3
    extract_lets -underBinder -merge -useContext +onlyGivenNames x4
    extract_lets -underBinder -merge -useContext +onlyGivenNames x5
    extract_lets -underBinder -merge -useContext +onlyGivenNames x6
    extract_lets -underBinder -merge -useContext +onlyGivenNames x7
    extract_lets -underBinder -merge -useContext +onlyGivenNames x8 x9 x10
    have hx9 : Keeps s0 x9.st := by
      refine keeps_dmaReadAll ?_
      · exact h1
    clear_value x9
    have hx10 : Keeps s0 x10.st := by
      unfold x10
      split
      · refine Keeps.moved ?_
        exact h1
      · split
        · exact hx9
        · refine keeps_dmaWriteAll ?_
          · exact hx9
    clear_value x10
    split
    · refine keeps_State_dmaBusErr ?_
      · exact hx10
    · extract_lets -underBinder -merge -useContext +onlyGivenNames x11
      have hx11 : Keeps s0 x11 := by
        unfold x11
        refine Keeps.ite ?_ ?_
        · refine keeps_State_setAddr ?_
          · exact hx10
        · exact hx10
      clear_value x11
      extract_lets -underBinder -merge -useContext +onlyGivenNames x12
      have hx12 : Keeps s0 x12 := (Keeps.ite (keeps_State_setAddr hx11) hx11)
      clear_value x12
      exact keeps_State_dmaEnd (keeps_State_setF hx12)

theorem keeps_execFabricRequest {s0 : State} {a1 s2} (h2 : Keeps s0 s2) : KeepsOut s0 (execFabricRequest a1 s2) := by
  unfold execFabricRequest
  refine KeepsOut.liveIf ?_ ?_
  · exact h2
  · exact keeps_State_paceAll (keeps_State_fabric h2)

theorem keeps_State_reacted {s0 : State} {s1 a2 a3} (h1 : Keeps s0 s1) : Keeps s0 (State.reacted s1 a2 a3) := by
  unfold State.reacted
  exact Keeps.ite h1 (keeps_State_answered (keeps_State_masterErr h1) h1)

theorem keeps_execRegisterWrite {s0 : State} {a1 a2 a3 s4} (h4 : Keeps s0 s4) : KeepsOut s0 (execRegisterWrite a1 a2 a3 s4) := by
  unfold execRegisterWrite
  refine KeepsOut.liveIf ?_ ?_
  · exact h4
  · exact keeps_State_paceAll (keeps_State_reacted (Keeps.ite (keeps_State_ans (keeps_State_countRetired h4)) (keeps_State_pageWrite h4)))

theorem keeps_execDeedPass {s0 : State} {a1 a2 a3 s4} (h4 : Keeps s0 s4) : KeepsOut s0 (execDeedPass a1 a2 a3 s4) := by
  unfold execDeedPass
  refine KeepsOut.liveIf ?_ ?_
  · exact h4
  · exact keeps_State_reacted (keeps_doDeedPass h4)

theorem keeps_execDmaStart {s0 : State} {a1 s2} (h2 : Keeps s0 s2) : KeepsOut s0 (execDmaStart a1 s2) := by
  unfold execDmaStart
  refine KeepsOut.liveIf ?_ ?_
  · exact h2
  · exact keeps_State_paceAll (keeps_State_ok (keeps_State_dmaStart h2))

theorem keeps_execDmaStop {s0 : State} {a1 s2} (h2 : Keeps s0 s2) : KeepsOut s0 (execDmaStop a1 s2) := by
  unfold execDmaStop
  refine KeepsOut.liveIf ?_ ?_
  · exact h2
  · exact keeps_State_ok (keeps_State_dmaStop h2)

theorem keeps_execDmaStopped {s0 : State} {a1 a2 s3} (h3 : Keeps s0 s3) : KeepsOut s0 (execDmaStopped a1 a2 s3) := by
  unfold execDmaStopped
  refine KeepsOut.liveIf ?_ ?_
  · exact h3
  · exact keeps_State_dmaStopped h3

theorem keeps_execDmaHalt {s0 : State} {s1} (h1 : Keeps s0 s1) : KeepsOut s0 (execDmaHalt s1) := by
  unfold execDmaHalt
  refine KeepsOut.live ?_ ?_
  · exact h1
  · exact keeps_State_ok (keeps_State_dmaStopAll (keeps_State_setF h1))

theorem keeps_execDmaTransferDone {s0 : State} {a1 s2} (h2 : Keeps s0 s2) : KeepsOut s0 (execDmaTransferDone a1 s2) := by
  unfold execDmaTransferDone
  refine KeepsOut.liveIf ?_ ?_
  · exact h2
  · exact keeps_State_dmaFinish h2

theorem keeps_execUartCharRx {s0 : State} {a1 a2 a3 a4 a5 a6 s7} (h7 : Keeps s0 s7) : KeepsOut s0 (execUartCharRx a1 a2 a3 a4 a5 a6 s7) := by
  unfold execUartCharRx
  refine KeepsOut.liveIf ?_ ?_
  · exact h7
  · exact keeps_State_paceAll (keeps_doUartRx h7)

theorem keeps_State_dbgHalt {s0 : State} {s1 a2} (h1 : Keeps s0 s1) : Keeps s0 (State.dbgHalt s1 a2) := by
  unfold State.dbgHalt
  extract_lets -underBinder -merge -useContext +onlyGivenNames x0
  extract_lets -underBinder -merge -useContext +onlyGivenNames x1 x2
  have hx2 : Keeps s0 x2 := (Keeps.same h1)
  clear_value x2
  exact Keeps.ite (keeps_State_diagFail hx2) hx2

theorem keeps_execDbgAccess {s0 : State} {a1 a2 s3} (h3 : Keeps s0 s3) : KeepsOut s0 (execDbgAccess a1 a2 s3) := by
  unfold execDbgAccess
  refine KeepsOut.live ?_ ?_
  · exact h3
  · refine Keeps.ite ?_ ?_
    · extract_lets -underBinder -merge -useContext +onlyGivenNames x0
      have hx0 : Keeps s0 x0 := (keeps_State_setIr h3)
      clear_value x0
      extract_lets -underBinder -merge -useContext +onlyGivenNames x1
      have hx1 : Keeps s0 x1 := by
        unfold x1
        split
        · exact keeps_State_dbgHalt hx0
        · exact hx0
      clear_value x1
      split
      · exact keeps_State_paceAll (keeps_State_fabric hx1)
      · exact hx1
    · exact Keeps.same h3

end Sys2Proof.Laws
end

