-- ==== Sys2Proof/Laws/KeepMore.lean ====
section
/-! SUPPORT. The operations and meanings of Machine/Replay, Beat, Step keep the command queue and the invariant: one lemma
each. -/

namespace Sys2Proof.Laws

open Sys2Proof.Machine

theorem keeps_State_snapDone {s0 : State} {s1 a2 a3} (h1 : Keeps s0 s1) : Keeps s0 (State.snapDone s1 a2 a3) := by
  unfold State.snapDone
  extract_lets -underBinder -merge -useContext +onlyGivenNames x0
  extract_lets -underBinder -merge -useContext +onlyGivenNames x1
  extract_lets -underBinder -merge -useContext +onlyGivenNames x2
  exact Keeps.same h1

theorem keeps_State_trailer {s0 : State} {s1 a2} (h1 : Keeps s0 s1) : Keeps s0 (State.trailer s1 a2) := by
  unfold State.trailer
  split
  · exact h1
  · exact Keeps.ite h1 (keeps_State_raise (keeps_State_setF (Keeps.same h1)))

theorem keeps_State_imageDone {s0 : State} {s1 a2} (h1 : Keeps s0 s1) : Keeps s0 (State.imageDone s1 a2) := by
  unfold State.imageDone
  exact Keeps.ite (Keeps.same h1) h1

theorem keeps_State_replayTake {s0 : State} {s1 a2} (h1 : Keeps s0 s1) : Keeps s0 (State.replayTake s1 a2) := by
  unfold State.replayTake
  extract_lets -underBinder -merge -useContext +onlyGivenNames x0
  extract_lets -underBinder -merge -useContext +onlyGivenNames x1
  extract_lets -underBinder -merge -useContext +onlyGivenNames x2
  extract_lets -underBinder -merge -useContext +onlyGivenNames x3
  extract_lets -underBinder -merge -useContext +onlyGivenNames x4
  extract_lets -underBinder -merge -useContext +onlyGivenNames x5
  extract_lets -underBinder -merge -useContext +onlyGivenNames x6
  extract_lets -underBinder -merge -useContext +onlyGivenNames x7
  refine Keeps.ite ?_ ?_
  · exact Keeps.same h1
  · extract_lets -underBinder -merge -useContext +onlyGivenNames x8 x9
    have hx9 : Keeps s0 x9 := (Keeps.same h1)
    clear_value x9
    exact Keeps.ite (keeps_State_snapDone hx9) (Keeps.ite (keeps_State_trailer hx9) (Keeps.ite (keeps_State_imageDone hx9) hx9))

theorem keeps_State_replayFrameRx {s0 : State} {s1 a2} (h1 : Keeps s0 s1) : Keeps s0 (State.replayFrameRx s1 a2) := by
  unfold State.replayFrameRx
  exact Keeps.ite (keeps_State_replayTake h1) h1

theorem keeps_State_loadImage {s0 : State} {s1 a2} (h1 : Keeps s0 s1) : Keeps s0 (State.loadImage s1 a2) := by
  unfold State.loadImage
  extract_lets -underBinder -merge -useContext +onlyGivenNames x0
  extract_lets -underBinder -merge -useContext +onlyGivenNames x1
  have hx1 : Keeps s0 x1 := (keeps_forUp (fun _ _ hx2 => (keeps_State_store hx2)) h1)
  clear_value x1
  extract_lets -underBinder -merge -useContext +onlyGivenNames x4
  have hx4 : Keeps s0 x4 := (keeps_State_setF (keeps_State_restoreTakeover hx1))
  clear_value x4
  exact Keeps.same hx4

theorem keeps_State_replayBlocks {s0 : State} {s1 a2} (h1 : Keeps s0 s1) : Keeps s0 (State.replayBlocks s1 a2) := by
  unfold State.replayBlocks
  extract_lets -underBinder -merge -useContext +onlyGivenNames x0
  have hx0 : ∀ y1 y2 y3, Keeps s0 y1 → Keeps s0 (x0 y1 y2 y3) := by
    intro y1 y2 y3 hy1
    unfold x0
    refine Keeps.ite ?_ ?_
    · exact hy1
    · refine keeps_State_mWrite ?_
      · exact hy1
  clear_value x0
  extract_lets -underBinder -merge -useContext +onlyGivenNames x4
  have hx4 : Keeps s0 x4 := by
    unfold x4
    refine hx0 _ _ _ ?_
    · exact h1
  clear_value x4
  extract_lets -underBinder -merge -useContext +onlyGivenNames x5
  have hx5 : Keeps s0 x5 := by
    unfold x5
    refine hx0 _ _ _ ?_
    · exact hx4
  clear_value x5
  extract_lets -underBinder -merge -useContext +onlyGivenNames x6
  have hx6 : Keeps s0 x6 := by
    unfold x6
    refine hx0 _ _ _ ?_
    · exact hx5
  clear_value x6
  extract_lets -underBinder -merge -useContext +onlyGivenNames x7
  exact Keeps.ite hx6 (keeps_forUp (fun _ _ hx8 => (keeps_State_setReg hx8)) hx6)

theorem keeps_State_replayB0 {s0 : State} {s1} (h1 : Keeps s0 s1) : Keeps s0 (State.replayB0 s1).1 := by
  unfold State.replayB0
  extract_lets -underBinder -merge -useContext +onlyGivenNames x0
  have hx0 : Keeps s0 x0 := (Keeps.ite h1 (keeps_State_loadImage h1))
  clear_value x0
  split
  · split
    · refine Keeps.pair ?_
      exact hx0
    · extract_lets -underBinder -merge -useContext +onlyGivenNames x1
      extract_lets -underBinder -merge -useContext +onlyGivenNames x2 x3 x4
      have hx4 : Keeps s0 x4 := (Keeps.same hx0)
      clear_value x4
      refine Keeps.pair ?_
      exact keeps_State_loadCommitted (keeps_State_setPair hx4)
  · refine Keeps.pair ?_
    exact Keeps.same hx0
  · refine Keeps.pair ?_
    exact hx0

theorem keeps_execReplayDatagramRx {s0 : State} {a1 s2} (h2 : Keeps s0 s2) : KeepsOut s0 (execReplayDatagramRx a1 s2) := by
  unfold execReplayDatagramRx
  extract_lets -underBinder -merge -useContext +onlyGivenNames x0
  refine KeepsOut.liveIf ?_ ?_
  · exact h2
  · exact keeps_State_replayFrameRx h2

theorem keeps_execEthFrameRx {s0 : State} {a1 a2 a3 a4 s5} (h5 : Keeps s0 s5) : KeepsOut s0 (execEthFrameRx a1 a2 a3 a4 s5) := by
  unfold execEthFrameRx
  extract_lets -underBinder -merge -useContext +onlyGivenNames x0
  refine KeepsOut.liveIf ?_ ?_
  · exact h5
  · exact Keeps.ite (keeps_State_replayFrameRx h5) (keeps_doEthRx h5)

theorem keeps_State_edgeShift {s0 : State} {s1} (h1 : Keeps s0 s1) : Keeps s0 (State.edgeShift s1) := by
  unfold State.edgeShift
  extract_lets -underBinder -merge -useContext +onlyGivenNames x0
  extract_lets -underBinder -merge -useContext +onlyGivenNames x1
  exact Keeps.same h1

theorem keeps_State_newBeat {s0 : State} {s1} (h1 : Keeps s0 s1) : Keeps s0 (State.newBeat s1) := by
  unfold State.newBeat
  exact Keeps.same h1

theorem keeps_State_beatCount {s0 : State} {s1} (h1 : Keeps s0 s1) : Keeps s0 (State.beatCount s1) := by
  unfold State.beatCount
  exact keeps_State_newBeat (keeps_State_setF (keeps_State_edgeShift h1))

theorem keeps_State_frameCount {s0 : State} {s1} (h1 : Keeps s0 s1) : Keeps s0 (State.frameCount s1) := by
  unfold State.frameCount
  extract_lets -underBinder -merge -useContext +onlyGivenNames x0
  extract_lets -underBinder -merge -useContext +onlyGivenNames x1
  have hx1 : Keeps s0 x1 := (Keeps.ite (keeps_State_setF h1) h1)
  clear_value x1
  exact keeps_State_raise (keeps_State_setPair hx1)

theorem keeps_State_ovrPersist {s0 : State} {s1} (h1 : Keeps s0 s1) : Keeps s0 (State.ovrPersist s1) := by
  unfold State.ovrPersist
  refine Keeps.ite ?_ ?_
  · extract_lets -underBinder -merge -useContext +onlyGivenNames x0
    have hx0 : Keeps s0 x0 := (keeps_State_raise h1)
    clear_value x0
    exact Keeps.ite (keeps_State_selfFault hx0) hx0
  · exact h1

theorem keeps_State_overrunCount {s0 : State} {s1} (h1 : Keeps s0 s1) : Keeps s0 (State.overrunCount s1) := by
  unfold State.overrunCount
  refine Keeps.ite ?_ ?_
  · extract_lets -underBinder -merge -useContext +onlyGivenNames x0
    have hx0 : Keeps s0 x0 := (keeps_State_stickN (keeps_State_stick h1))
    clear_value x0
    exact keeps_State_ovrPersist (keeps_State_raise hx0)
  · exact keeps_State_setF h1

theorem keeps_State_newFrame {s0 : State} {s1} (h1 : Keeps s0 s1) : Keeps s0 (State.newFrame s1) := by
  unfold State.newFrame
  exact Keeps.same h1

theorem keeps_State_commitUp {s0 : State} {s1 a2} (h1 : Keeps s0 s1) : Keeps s0 (State.commitUp s1 a2) := by
  unfold State.commitUp
  exact Keeps.ite h1 (keeps_State_commitPage h1)

theorem keeps_State_b0Commits {s0 : State} {s1 a2} (h1 : Keeps s0 s1) : Keeps s0 (State.b0Commits s1 a2) := by
  unfold State.b0Commits
  extract_lets -underBinder -merge -useContext +onlyGivenNames x0
  extract_lets -underBinder -merge -useContext +onlyGivenNames x1
  have hx1 : Keeps s0 x1 := (Keeps.foldl (fun _ _ hx2 => (keeps_State_commitUp hx2)) h1)
  clear_value x1
  extract_lets -underBinder -merge -useContext +onlyGivenNames x4 x5
  have hx4 : Keeps s0 x4 := (keeps_State_commitGen (keeps_State_tblCommit (keeps_State_commitRegs hx1)))
  clear_value x4
  have hx5 : Keeps s0 x5 := (Keeps.ite hx1 (keeps_State_purseStep (keeps_State_commitPage hx4)))
  clear_value x5
  extract_lets -underBinder -merge -useContext +onlyGivenNames x6
  have hx6 : Keeps s0 x6 := (Keeps.ite hx5 (keeps_State_lscB0 (keeps_State_commitPage hx5)))
  clear_value x6
  exact Keeps.ite hx6 (keeps_State_cleB0 hx6)

theorem keeps_State_snapBlock {s0 : State} {s1 a2 a3 a4} (h1 : Keeps s0 s1) : Keeps s0 (State.snapBlock s1 a2 a3 a4) := by
  unfold State.snapBlock
  refine Keeps.ite ?_ ?_
  · refine keeps_State_mWrite ?_
    · exact h1
  · exact h1

theorem keeps_State_snapBlocks {s0 : State} {s1} (h1 : Keeps s0 s1) : Keeps s0 (State.snapBlocks s1) := by
  unfold State.snapBlocks
  extract_lets -underBinder -merge -useContext +onlyGivenNames x0
  have hx0 : Keeps s0 x0 := (keeps_State_snapBlock h1)
  clear_value x0
  extract_lets -underBinder -merge -useContext +onlyGivenNames x1
  have hx1 : Keeps s0 x1 := (keeps_State_snapBlock hx0)
  clear_value x1
  exact keeps_State_snapBlock hx1

theorem keeps_State_mountClean {s0 : State} {s1} (h1 : Keeps s0 s1) : Keeps s0 (State.mountClean s1) := by
  unfold State.mountClean
  exact keeps_forUp (fun _ _ hx0 => (keeps_State_setFus hx0)) h1

theorem keeps_State_manualTake {s0 : State} {s1} (h1 : Keeps s0 s1) : Keeps s0 (State.manualTake s1) := by
  unfold State.manualTake
  extract_lets -underBinder -merge -useContext +onlyGivenNames x0
  exact Keeps.same h1

theorem keeps_State_frameOwes {s0 : State} {s1} (h1 : Keeps s0 s1) : Keeps s0 (State.frameOwes s1) := by
  unfold State.frameOwes
  extract_lets -underBinder -merge -useContext +onlyGivenNames x0
  exact Keeps.ite (Keeps.same h1) h1

theorem keeps_State_edgeB0 {s0 : State} {s1 a2} (h1 : Keeps s0 s1) : Keeps s0 (State.edgeB0 s1 a2) := by
  unfold State.edgeB0
  extract_lets -underBinder -merge -useContext +onlyGivenNames x0
  extract_lets -underBinder -merge -useContext +onlyGivenNames x1
  have hx1 : Keeps s0 x1 := (keeps_State_parB0 h1)
  clear_value x1
  extract_lets -underBinder -merge -useContext +onlyGivenNames x2
  clear_value x2
  split
  · rename_i x4 y5  he6
    have hq3 : Keeps s0 x4 := by
      have e := congrArg Prod.fst he6
      dsimp only at e
      rw [← e]
      split
      · refine keeps_State_replayB0 ?_
        · exact hx1
      · refine Keeps.pair ?_
        exact hx1
    extract_lets -underBinder -merge -useContext +onlyGivenNames x7 x8
    have hx8 : Keeps s0 x8 := (Keeps.same hq3)
    clear_value x8
    extract_lets -underBinder -merge -useContext +onlyGivenNames x9
    have hx9 : Keeps s0 x9 := (keeps_State_fioEdge (keeps_State_gnsEdge (keeps_State_fltEdge (keeps_State_b0Commits hx8))))
    clear_value x9
    extract_lets -underBinder -merge -useContext +onlyGivenNames x10
    have hx10 : Keeps s0 x10 := by
      unfold x10
      split
      · exact keeps_State_fusLatch (keeps_State_replayBlocks hx9)
      · exact keeps_State_fusLatch (keeps_State_snapBlocks hx9)
    clear_value x10
    exact keeps_State_queueSnapshot (keeps_State_frameOwes (keeps_State_gfeEdge (keeps_State_manualTake (keeps_State_mountClean hx10))))

theorem keeps_State_edgeB4 {s0 : State} {s1} (h1 : Keeps s0 s1) : Keeps s0 (State.edgeB4 s1) := by
  unfold State.edgeB4
  refine Keeps.ite ?_ ?_
  · exact h1
  · extract_lets -underBinder -merge -useContext +onlyGivenNames x0 x1
    have hx1 : Keeps s0 x1 := (Keeps.same h1)
    clear_value x1
    exact Keeps.ite (keeps_State_fusAbsent hx1) hx1

theorem keeps_State_edgeB7 {s0 : State} {s1} (h1 : Keeps s0 s1) : Keeps s0 (State.edgeB7 s1) := by
  unfold State.edgeB7
  extract_lets -underBinder -merge -useContext +onlyGivenNames x0
  have hx0 : Keeps s0 x0 := (keeps_State_fencePass (keeps_State_asmB7 h1))
  clear_value x0
  exact Keeps.ite (keeps_State_passBanks hx0) hx0

theorem keeps_State_edgeB10 {s0 : State} {s1 a2} (h1 : Keeps s0 s1) : Keeps s0 (State.edgeB10 s1 a2) := by
  unfold State.edgeB10
  extract_lets -underBinder -merge -useContext +onlyGivenNames x0 x1 x2
  have hx0 : Keeps s0 x0 := (Keeps.ite (keeps_State_assemble h1) h1)
  clear_value x0
  have hx2 : Keeps s0 x2 := (Keeps.ite h1 (Keeps.same hx0))
  clear_value x2
  exact keeps_State_lscB10 (Keeps.ite (keeps_State_passBanks hx2) hx2)

theorem keeps_State_edgeB36 {s0 : State} {s1} (h1 : Keeps s0 s1) : Keeps s0 (State.edgeB36 s1) := by
  unfold State.edgeB36
  extract_lets -underBinder -merge -useContext +onlyGivenNames x0
  have hx0 : Keeps s0 x0 := (Keeps.ite h1 (keeps_State_fenceUpdate (keeps_State_modeB36 h1)))
  clear_value x0
  extract_lets -underBinder -merge -useContext +onlyGivenNames x1
  have hx1 : Keeps s0 x1 := (Keeps.ite (keeps_State_commitTraj hx0) hx0)
  clear_value x1
  extract_lets -underBinder -merge -useContext +onlyGivenNames x2 x3
  have hx3 : Keeps s0 x3 := (Keeps.same hx1)
  clear_value x3
  split
  · rename_i x5 y6  he7
    have hq4 : Keeps s0 x5 := by
      have e := congrArg Prod.fst he7
      dsimp only at e
      rw [← e]
      split
      · refine keeps_State_lscB36 ?_
        · exact hx3
      · refine Keeps.pair ?_
        exact hx3
    exact keeps_State_parB36 (Keeps.ite (keeps_State_selfFault hq4) hq4)

theorem keeps_State_edgeB39 {s0 : State} {s1} (h1 : Keeps s0 s1) : Keeps s0 (State.edgeB39 s1) := by
  unfold State.edgeB39
  extract_lets -underBinder -merge -useContext +onlyGivenNames x0 x1 x2
  have hx1 : Keeps s0 x1 := (Keeps.same h1)
  clear_value x1
  have hx2 : Keeps s0 x2 := (Keeps.ite (Keeps.ite (keeps_State_sbxSkip hx1) hx1) h1)
  clear_value x2
  exact keeps_State_avsStep (Keeps.ite (keeps_State_passBanks hx2) hx2)

theorem keeps_State_edgeStage {s0 : State} {s1 a2} (h1 : Keeps s0 s1) : Keeps s0 (State.edgeStage s1 a2) := by
  unfold State.edgeStage
  extract_lets -underBinder -merge -useContext +onlyGivenNames x0
  exact Keeps.ite (keeps_State_edgeB36 h1) (Keeps.ite (keeps_State_edgeB39 h1) (Keeps.ite h1 (Keeps.ite (keeps_State_edgeB4 h1) (Keeps.ite (keeps_State_edgeB7 h1) (Keeps.ite (keeps_State_edgeB10 h1) (Keeps.ite (keeps_State_lscB34 h1) h1))))))

theorem keeps_State_beatCommits {s0 : State} {s1} (h1 : Keeps s0 s1) : Keeps s0 (State.beatCommits s1) := by
  unfold State.beatCommits
  extract_lets -underBinder -merge -useContext +onlyGivenNames x0
  have hx0 : Keeps s0 x0 := (keeps_State_commitUp h1)
  clear_value x0
  exact Keeps.ite hx0 (keeps_State_commitSlots (keeps_State_commitSlots hx0))

theorem keeps_State_captures {s0 : State} {s1 a2} (h1 : Keeps s0 s1) : Keeps s0 (State.captures s1 a2) := by
  unfold State.captures
  exact keeps_State_fioEdge (keeps_State_gnsEdge (keeps_State_fltEdge h1))

theorem keeps_State_edgeSlots {s0 : State} {s1} (h1 : Keeps s0 s1) : Keeps s0 (State.edgeSlots s1) := by
  unfold State.edgeSlots
  exact keeps_State_helmBuild (keeps_State_evalSlots (keeps_State_helmEdge (keeps_State_standbyLoad (keeps_forUp (fun _ _ hx0 => (keeps_State_lockStep hx0)) h1))))

theorem keeps_State_edgeMain {s0 : State} {s1 a2} (h1 : Keeps s0 s1) : Keeps s0 (State.edgeMain s1 a2) := by
  unfold State.edgeMain
  extract_lets -underBinder -merge -useContext +onlyGivenNames x0
  have hx0 : Keeps s0 x0 := (keeps_State_beatCommits (keeps_State_parEdge (keeps_State_stopStep h1)))
  clear_value x0
  extract_lets -underBinder -merge -useContext +onlyGivenNames x1
  have hx1 : Keeps s0 x1 := (Keeps.ite (keeps_State_edgeB0 hx0) (keeps_State_captures hx0))
  clear_value x1
  exact keeps_State_fioRefresh (keeps_State_sendRecord (keeps_State_beatOut (keeps_State_edgeSlots (keeps_State_edgeStage hx1))))

theorem keeps_State_edgeActs {s0 : State} {s1 a2} (h1 : Keeps s0 s1) : Keeps s0 (State.edgeActs s1 a2) := by
  unfold State.edgeActs
  extract_lets -underBinder -merge -useContext +onlyGivenNames x0
  have hx0 : Keeps s0 x0 := (Keeps.ite (keeps_State_powerB0 h1) h1)
  clear_value x0
  extract_lets -underBinder -merge -useContext +onlyGivenNames x1
  have hx1 : Keeps s0 x1 := (Keeps.ite (keeps_State_therm hx0) hx0)
  clear_value x1
  exact Keeps.ite (keeps_State_edgeMain hx1) (keeps_State_beatOut hx1)

theorem keeps_State_frameTurn {s0 : State} {s1} (h1 : Keeps s0 s1) : Keeps s0 (State.frameTurn s1) := by
  unfold State.frameTurn
  exact keeps_State_frameCount (keeps_State_newFrame (keeps_State_skipFrame (keeps_State_overrunCount h1)))

theorem keeps_State_beatEdge {s0 : State} {s1 a2} (h1 : Keeps s0 s1) : Keeps s0 (State.beatEdge s1 a2) := by
  unfold State.beatEdge
  extract_lets -underBinder -merge -useContext +onlyGivenNames x0
  have hx0 : Keeps s0 x0 := (keeps_State_beatCount h1)
  clear_value x0
  exact keeps_State_edgeActs (Keeps.ite (keeps_State_frameTurn hx0) hx0)

theorem keeps_State_startBeats {s0 : State} {s1 a2 a3} (h1 : Keeps s0 s1) : Keeps s0 (State.startBeats s1 a2 a3) := by
  unfold State.startBeats
  extract_lets -underBinder -merge -useContext +onlyGivenNames x0
  have hx0 : Keeps s0 x0 := (keeps_State_setF (keeps_State_setF (keeps_State_setF h1)))
  clear_value x0
  extract_lets -underBinder -merge -useContext +onlyGivenNames x1
  have hx1 : Keeps s0 x1 := (keeps_State_raise (keeps_State_setPair (keeps_State_newFrame (keeps_State_newBeat hx0))))
  clear_value x1
  exact keeps_State_stepOn (keeps_State_edgeActs hx1)

theorem keeps_execBeatEdge {s0 : State} {a1 s2} (h2 : Keeps s0 s2) : KeepsOut s0 (execBeatEdge a1 s2) := by
  unfold execBeatEdge
  refine KeepsOut.liveIf ?_ ?_
  · exact h2
  · exact keeps_State_beatEdge h2

theorem keeps_execOvrPersist {s0 : State} {s1} (h1 : Keeps s0 s1) : KeepsOut s0 (execOvrPersist s1) := by
  unfold execOvrPersist
  refine KeepsOut.liveIf ?_ ?_
  · exact h1
  · exact keeps_State_ovrPersist h1

theorem keeps_execBeatsStart {s0 : State} {a1 s2} (h2 : Keeps s0 s2) : KeepsOut s0 (execBeatsStart a1 s2) := by
  unfold execBeatsStart
  refine KeepsOut.liveIf ?_ ?_
  · exact h2
  · exact keeps_State_startBeats h2

theorem keeps_execFreeRunStart {s0 : State} {a1 s2} (h2 : Keeps s0 s2) : KeepsOut s0 (execFreeRunStart a1 s2) := by
  unfold execFreeRunStart
  refine KeepsOut.liveIf ?_ ?_
  · exact h2
  · exact keeps_State_startBeats h2

theorem keeps_State_tick {s0 : State} {s1} (h1 : Keeps s0 s1) : Keeps s0 (State.tick s1) := by
  unfold State.tick
  exact Keeps.ite (Keeps.same h1) h1

end Sys2Proof.Laws
end

