-- ==== Sys2Proof/Laws/State.lean ====
section
/-! SUPPORT. What the plainest updates of the state change, field by field. -/

namespace Sys2Proof.Laws

open Sys2Proof.Machine

/-! ### `State.setReg` -/

@[simp] theorem setReg_pending (s : State) (a : Nat) (v : Word) : (s.setReg a v).pending = s.pending := (rfl)
@[simp] theorem setReg_regs (s : State) (a : Nat) (v : Word) : (s.setReg a v).regs = spSet regReset s.regs (canon a) v := (rfl)
@[simp] theorem setReg_shadow (s : State) (a : Nat) (v : Word) : (s.setReg a v).shadow = s.shadow := (rfl)
@[simp] theorem setReg_mem (s : State) (a : Nat) (v : Word) : (s.setReg a v).mem = s.mem := (rfl)
@[simp] theorem setReg_answer (s : State) (a : Nat) (v : Word) : (s.setReg a v).answer = s.answer := (rfl)
@[simp] theorem setReg_sent (s : State) (a : Nat) (v : Word) : (s.setReg a v).sent = s.sent := (rfl)
@[simp] theorem setReg_draws (s : State) (a : Nat) (v : Word) : (s.setReg a v).draws = s.draws := (rfl)
@[simp] theorem setReg_dev (s : State) (a : Nat) (v : Word) : (s.setReg a v).dev = s.dev := (rfl)
@[simp] theorem setReg_tim (s : State) (a : Nat) (v : Word) : (s.setReg a v).tim = s.tim := (rfl)
@[simp] theorem setReg_evt (s : State) (a : Nat) (v : Word) : (s.setReg a v).evt = s.evt := (rfl)
@[simp] theorem setReg_fab (s : State) (a : Nat) (v : Word) : (s.setReg a v).fab = s.fab := (rfl)
@[simp] theorem setReg_lgr (s : State) (a : Nat) (v : Word) : (s.setReg a v).lgr = s.lgr := (rfl)
@[simp] theorem setReg_mm (s : State) (a : Nat) (v : Word) : (s.setReg a v).mm = s.mm := (rfl)
@[simp] theorem setReg_dma (s : State) (a : Nat) (v : Word) : (s.setReg a v).dma = s.dma := (rfl)
@[simp] theorem setReg_fwl (s : State) (a : Nat) (v : Word) : (s.setReg a v).fwl = s.fwl := (rfl)
@[simp] theorem setReg_lcs (s : State) (a : Nat) (v : Word) : (s.setReg a v).lcs = s.lcs := (rfl)
@[simp] theorem setReg_tap (s : State) (a : Nat) (v : Word) : (s.setReg a v).tap = s.tap := (rfl)
@[simp] theorem setReg_pwr (s : State) (a : Nat) (v : Word) : (s.setReg a v).pwr = s.pwr := (rfl)
@[simp] theorem setReg_frm (s : State) (a : Nat) (v : Word) : (s.setReg a v).frm = s.frm := (rfl)
@[simp] theorem setReg_rpl (s : State) (a : Nat) (v : Word) : (s.setReg a v).rpl = s.rpl := (rfl)
@[simp] theorem setReg_eth (s : State) (a : Nat) (v : Word) : (s.setReg a v).eth = s.eth := (rfl)
@[simp] theorem setReg_uart (s : State) (a : Nat) (v : Word) : (s.setReg a v).uart = s.uart := (rfl)
@[simp] theorem setReg_can (s : State) (a : Nat) (v : Word) : (s.setReg a v).can = s.can := (rfl)
@[simp] theorem setReg_staged (s : State) (a : Nat) (v : Word) : (s.setReg a v).staged = s.staged := (rfl)
@[simp] theorem setReg_drives (s : State) (a : Nat) (v : Word) : (s.setReg a v).drives = s.drives := (rfl)
@[simp] theorem setReg_flt (s : State) (a : Nat) (v : Word) : (s.setReg a v).flt = s.flt := (rfl)
@[simp] theorem setReg_fio (s : State) (a : Nat) (v : Word) : (s.setReg a v).fio = s.fio := (rfl)
@[simp] theorem setReg_saf (s : State) (a : Nat) (v : Word) : (s.setReg a v).saf = s.saf := (rfl)
@[simp] theorem setReg_gns (s : State) (a : Nat) (v : Word) : (s.setReg a v).gns = s.gns := (rfl)
@[simp] theorem setReg_fus (s : State) (a : Nat) (v : Word) : (s.setReg a v).fus = s.fus := (rfl)
@[simp] theorem setReg_gfe (s : State) (a : Nat) (v : Word) : (s.setReg a v).gfe = s.gfe := (rfl)
@[simp] theorem setReg_asm (s : State) (a : Nat) (v : Word) : (s.setReg a v).asm = s.asm := (rfl)
@[simp] theorem setReg_lsc (s : State) (a : Nat) (v : Word) : (s.setReg a v).lsc = s.lsc := (rfl)
@[simp] theorem setReg_cle (s : State) (a : Nat) (v : Word) : (s.setReg a v).cle = s.cle := (rfl)
@[simp] theorem setReg_par (s : State) (a : Nat) (v : Word) : (s.setReg a v).par = s.par := (rfl)
@[simp] theorem setReg_nfc (s : State) (a : Nat) (v : Word) : (s.setReg a v).nfc = s.nfc := (rfl)

/-! ### `State.setSh` -/

@[simp] theorem setSh_pending (s : State) (a : Nat) (v : Word) : (s.setSh a v).pending = s.pending := (rfl)
@[simp] theorem setSh_regs (s : State) (a : Nat) (v : Word) : (s.setSh a v).regs = s.regs := (rfl)
@[simp] theorem setSh_shadow (s : State) (a : Nat) (v : Word) : (s.setSh a v).shadow = spSet regReset s.shadow a v := (rfl)
@[simp] theorem setSh_mem (s : State) (a : Nat) (v : Word) : (s.setSh a v).mem = s.mem := (rfl)
@[simp] theorem setSh_answer (s : State) (a : Nat) (v : Word) : (s.setSh a v).answer = s.answer := (rfl)
@[simp] theorem setSh_sent (s : State) (a : Nat) (v : Word) : (s.setSh a v).sent = s.sent := (rfl)
@[simp] theorem setSh_draws (s : State) (a : Nat) (v : Word) : (s.setSh a v).draws = s.draws := (rfl)
@[simp] theorem setSh_dev (s : State) (a : Nat) (v : Word) : (s.setSh a v).dev = s.dev := (rfl)
@[simp] theorem setSh_tim (s : State) (a : Nat) (v : Word) : (s.setSh a v).tim = s.tim := (rfl)
@[simp] theorem setSh_evt (s : State) (a : Nat) (v : Word) : (s.setSh a v).evt = s.evt := (rfl)
@[simp] theorem setSh_fab (s : State) (a : Nat) (v : Word) : (s.setSh a v).fab = s.fab := (rfl)
@[simp] theorem setSh_lgr (s : State) (a : Nat) (v : Word) : (s.setSh a v).lgr = s.lgr := (rfl)
@[simp] theorem setSh_mm (s : State) (a : Nat) (v : Word) : (s.setSh a v).mm = s.mm := (rfl)
@[simp] theorem setSh_dma (s : State) (a : Nat) (v : Word) : (s.setSh a v).dma = s.dma := (rfl)
@[simp] theorem setSh_fwl (s : State) (a : Nat) (v : Word) : (s.setSh a v).fwl = s.fwl := (rfl)
@[simp] theorem setSh_lcs (s : State) (a : Nat) (v : Word) : (s.setSh a v).lcs = s.lcs := (rfl)
@[simp] theorem setSh_tap (s : State) (a : Nat) (v : Word) : (s.setSh a v).tap = s.tap := (rfl)
@[simp] theorem setSh_pwr (s : State) (a : Nat) (v : Word) : (s.setSh a v).pwr = s.pwr := (rfl)
@[simp] theorem setSh_frm (s : State) (a : Nat) (v : Word) : (s.setSh a v).frm = s.frm := (rfl)
@[simp] theorem setSh_rpl (s : State) (a : Nat) (v : Word) : (s.setSh a v).rpl = s.rpl := (rfl)
@[simp] theorem setSh_eth (s : State) (a : Nat) (v : Word) : (s.setSh a v).eth = s.eth := (rfl)
@[simp] theorem setSh_uart (s : State) (a : Nat) (v : Word) : (s.setSh a v).uart = s.uart := (rfl)
@[simp] theorem setSh_can (s : State) (a : Nat) (v : Word) : (s.setSh a v).can = s.can := (rfl)
@[simp] theorem setSh_staged (s : State) (a : Nat) (v : Word) : (s.setSh a v).staged = s.staged := (rfl)
@[simp] theorem setSh_drives (s : State) (a : Nat) (v : Word) : (s.setSh a v).drives = s.drives := (rfl)
@[simp] theorem setSh_flt (s : State) (a : Nat) (v : Word) : (s.setSh a v).flt = s.flt := (rfl)
@[simp] theorem setSh_fio (s : State) (a : Nat) (v : Word) : (s.setSh a v).fio = s.fio := (rfl)
@[simp] theorem setSh_saf (s : State) (a : Nat) (v : Word) : (s.setSh a v).saf = s.saf := (rfl)
@[simp] theorem setSh_gns (s : State) (a : Nat) (v : Word) : (s.setSh a v).gns = s.gns := (rfl)
@[simp] theorem setSh_fus (s : State) (a : Nat) (v : Word) : (s.setSh a v).fus = s.fus := (rfl)
@[simp] theorem setSh_gfe (s : State) (a : Nat) (v : Word) : (s.setSh a v).gfe = s.gfe := (rfl)
@[simp] theorem setSh_asm (s : State) (a : Nat) (v : Word) : (s.setSh a v).asm = s.asm := (rfl)
@[simp] theorem setSh_lsc (s : State) (a : Nat) (v : Word) : (s.setSh a v).lsc = s.lsc := (rfl)
@[simp] theorem setSh_cle (s : State) (a : Nat) (v : Word) : (s.setSh a v).cle = s.cle := (rfl)
@[simp] theorem setSh_par (s : State) (a : Nat) (v : Word) : (s.setSh a v).par = s.par := (rfl)
@[simp] theorem setSh_nfc (s : State) (a : Nat) (v : Word) : (s.setSh a v).nfc = s.nfc := (rfl)

/-! ### `State.setF` -/

@[simp] theorem setF_pending (s : State) (r : RF) (v : Nat) : (s.setF r v).pending = s.pending := (rfl)
@[simp] theorem setF_shadow (s : State) (r : RF) (v : Nat) : (s.setF r v).shadow = s.shadow := (rfl)
@[simp] theorem setF_mem (s : State) (r : RF) (v : Nat) : (s.setF r v).mem = s.mem := (rfl)
@[simp] theorem setF_answer (s : State) (r : RF) (v : Nat) : (s.setF r v).answer = s.answer := (rfl)
@[simp] theorem setF_sent (s : State) (r : RF) (v : Nat) : (s.setF r v).sent = s.sent := (rfl)
@[simp] theorem setF_draws (s : State) (r : RF) (v : Nat) : (s.setF r v).draws = s.draws := (rfl)
@[simp] theorem setF_dev (s : State) (r : RF) (v : Nat) : (s.setF r v).dev = s.dev := (rfl)
@[simp] theorem setF_tim (s : State) (r : RF) (v : Nat) : (s.setF r v).tim = s.tim := (rfl)
@[simp] theorem setF_evt (s : State) (r : RF) (v : Nat) : (s.setF r v).evt = s.evt := (rfl)
@[simp] theorem setF_fab (s : State) (r : RF) (v : Nat) : (s.setF r v).fab = s.fab := (rfl)
@[simp] theorem setF_lgr (s : State) (r : RF) (v : Nat) : (s.setF r v).lgr = s.lgr := (rfl)
@[simp] theorem setF_mm (s : State) (r : RF) (v : Nat) : (s.setF r v).mm = s.mm := (rfl)
@[simp] theorem setF_dma (s : State) (r : RF) (v : Nat) : (s.setF r v).dma = s.dma := (rfl)
@[simp] theorem setF_fwl (s : State) (r : RF) (v : Nat) : (s.setF r v).fwl = s.fwl := (rfl)
@[simp] theorem setF_lcs (s : State) (r : RF) (v : Nat) : (s.setF r v).lcs = s.lcs := (rfl)
@[simp] theorem setF_tap (s : State) (r : RF) (v : Nat) : (s.setF r v).tap = s.tap := (rfl)
@[simp] theorem setF_pwr (s : State) (r : RF) (v : Nat) : (s.setF r v).pwr = s.pwr := (rfl)
@[simp] theorem setF_frm (s : State) (r : RF) (v : Nat) : (s.setF r v).frm = s.frm := (rfl)
@[simp] theorem setF_rpl (s : State) (r : RF) (v : Nat) : (s.setF r v).rpl = s.rpl := (rfl)
@[simp] theorem setF_eth (s : State) (r : RF) (v : Nat) : (s.setF r v).eth = s.eth := (rfl)
@[simp] theorem setF_uart (s : State) (r : RF) (v : Nat) : (s.setF r v).uart = s.uart := (rfl)
@[simp] theorem setF_can (s : State) (r : RF) (v : Nat) : (s.setF r v).can = s.can := (rfl)
@[simp] theorem setF_staged (s : State) (r : RF) (v : Nat) : (s.setF r v).staged = s.staged := (rfl)
@[simp] theorem setF_drives (s : State) (r : RF) (v : Nat) : (s.setF r v).drives = s.drives := (rfl)
@[simp] theorem setF_flt (s : State) (r : RF) (v : Nat) : (s.setF r v).flt = s.flt := (rfl)
@[simp] theorem setF_fio (s : State) (r : RF) (v : Nat) : (s.setF r v).fio = s.fio := (rfl)
@[simp] theorem setF_saf (s : State) (r : RF) (v : Nat) : (s.setF r v).saf = s.saf := (rfl)
@[simp] theorem setF_gns (s : State) (r : RF) (v : Nat) : (s.setF r v).gns = s.gns := (rfl)
@[simp] theorem setF_fus (s : State) (r : RF) (v : Nat) : (s.setF r v).fus = s.fus := (rfl)
@[simp] theorem setF_gfe (s : State) (r : RF) (v : Nat) : (s.setF r v).gfe = s.gfe := (rfl)
@[simp] theorem setF_asm (s : State) (r : RF) (v : Nat) : (s.setF r v).asm = s.asm := (rfl)
@[simp] theorem setF_lsc (s : State) (r : RF) (v : Nat) : (s.setF r v).lsc = s.lsc := (rfl)
@[simp] theorem setF_cle (s : State) (r : RF) (v : Nat) : (s.setF r v).cle = s.cle := (rfl)
@[simp] theorem setF_par (s : State) (r : RF) (v : Nat) : (s.setF r v).par = s.par := (rfl)
@[simp] theorem setF_nfc (s : State) (r : RF) (v : Nat) : (s.setF r v).nfc = s.nfc := (rfl)

/-! ### `State.setPair` -/

@[simp] theorem setPair_pending (s : State) (a b v : Nat) : (s.setPair a b v).pending = s.pending := (rfl)
@[simp] theorem setPair_shadow (s : State) (a b v : Nat) : (s.setPair a b v).shadow = s.shadow := (rfl)
@[simp] theorem setPair_mem (s : State) (a b v : Nat) : (s.setPair a b v).mem = s.mem := (rfl)
@[simp] theorem setPair_answer (s : State) (a b v : Nat) : (s.setPair a b v).answer = s.answer := (rfl)
@[simp] theorem setPair_sent (s : State) (a b v : Nat) : (s.setPair a b v).sent = s.sent := (rfl)
@[simp] theorem setPair_draws (s : State) (a b v : Nat) : (s.setPair a b v).draws = s.draws := (rfl)
@[simp] theorem setPair_dev (s : State) (a b v : Nat) : (s.setPair a b v).dev = s.dev := (rfl)
@[simp] theorem setPair_tim (s : State) (a b v : Nat) : (s.setPair a b v).tim = s.tim := (rfl)
@[simp] theorem setPair_evt (s : State) (a b v : Nat) : (s.setPair a b v).evt = s.evt := (rfl)
@[simp] theorem setPair_fab (s : State) (a b v : Nat) : (s.setPair a b v).fab = s.fab := (rfl)
@[simp] theorem setPair_lgr (s : State) (a b v : Nat) : (s.setPair a b v).lgr = s.lgr := (rfl)
@[simp] theorem setPair_mm (s : State) (a b v : Nat) : (s.setPair a b v).mm = s.mm := (rfl)
@[simp] theorem setPair_dma (s : State) (a b v : Nat) : (s.setPair a b v).dma = s.dma := (rfl)
@[simp] theorem setPair_fwl (s : State) (a b v : Nat) : (s.setPair a b v).fwl = s.fwl := (rfl)
@[simp] theorem setPair_lcs (s : State) (a b v : Nat) : (s.setPair a b v).lcs = s.lcs := (rfl)
@[simp] theorem setPair_tap (s : State) (a b v : Nat) : (s.setPair a b v).tap = s.tap := (rfl)
@[simp] theorem setPair_pwr (s : State) (a b v : Nat) : (s.setPair a b v).pwr = s.pwr := (rfl)
@[simp] theorem setPair_frm (s : State) (a b v : Nat) : (s.setPair a b v).frm = s.frm := (rfl)
@[simp] theorem setPair_rpl (s : State) (a b v : Nat) : (s.setPair a b v).rpl = s.rpl := (rfl)
@[simp] theorem setPair_eth (s : State) (a b v : Nat) : (s.setPair a b v).eth = s.eth := (rfl)
@[simp] theorem setPair_uart (s : State) (a b v : Nat) : (s.setPair a b v).uart = s.uart := (rfl)
@[simp] theorem setPair_can (s : State) (a b v : Nat) : (s.setPair a b v).can = s.can := (rfl)
@[simp] theorem setPair_staged (s : State) (a b v : Nat) : (s.setPair a b v).staged = s.staged := (rfl)
@[simp] theorem setPair_drives (s : State) (a b v : Nat) : (s.setPair a b v).drives = s.drives := (rfl)
@[simp] theorem setPair_flt (s : State) (a b v : Nat) : (s.setPair a b v).flt = s.flt := (rfl)
@[simp] theorem setPair_fio (s : State) (a b v : Nat) : (s.setPair a b v).fio = s.fio := (rfl)
@[simp] theorem setPair_saf (s : State) (a b v : Nat) : (s.setPair a b v).saf = s.saf := (rfl)
@[simp] theorem setPair_gns (s : State) (a b v : Nat) : (s.setPair a b v).gns = s.gns := (rfl)
@[simp] theorem setPair_fus (s : State) (a b v : Nat) : (s.setPair a b v).fus = s.fus := (rfl)
@[simp] theorem setPair_gfe (s : State) (a b v : Nat) : (s.setPair a b v).gfe = s.gfe := (rfl)
@[simp] theorem setPair_asm (s : State) (a b v : Nat) : (s.setPair a b v).asm = s.asm := (rfl)
@[simp] theorem setPair_lsc (s : State) (a b v : Nat) : (s.setPair a b v).lsc = s.lsc := (rfl)
@[simp] theorem setPair_cle (s : State) (a b v : Nat) : (s.setPair a b v).cle = s.cle := (rfl)
@[simp] theorem setPair_par (s : State) (a b v : Nat) : (s.setPair a b v).par = s.par := (rfl)
@[simp] theorem setPair_nfc (s : State) (a b v : Nat) : (s.setPair a b v).nfc = s.nfc := (rfl)

/-! ### `State.ans` -/

@[simp] theorem ans_pending (s : State) (r : Rsp) (b : List Byte) : (s.ans r b).pending = s.pending := (rfl)
@[simp] theorem ans_regs (s : State) (r : Rsp) (b : List Byte) : (s.ans r b).regs = s.regs := (rfl)
@[simp] theorem ans_shadow (s : State) (r : Rsp) (b : List Byte) : (s.ans r b).shadow = s.shadow := (rfl)
@[simp] theorem ans_mem (s : State) (r : Rsp) (b : List Byte) : (s.ans r b).mem = s.mem := (rfl)
@[simp] theorem ans_answer (s : State) (r : Rsp) (b : List Byte) : (s.ans r b).answer = ⟨r, b⟩ := (rfl)
@[simp] theorem ans_sent (s : State) (r : Rsp) (b : List Byte) : (s.ans r b).sent = s.sent := (rfl)
@[simp] theorem ans_draws (s : State) (r : Rsp) (b : List Byte) : (s.ans r b).draws = s.draws := (rfl)
@[simp] theorem ans_dev (s : State) (r : Rsp) (b : List Byte) : (s.ans r b).dev = s.dev := (rfl)
@[simp] theorem ans_tim (s : State) (r : Rsp) (b : List Byte) : (s.ans r b).tim = s.tim := (rfl)
@[simp] theorem ans_evt (s : State) (r : Rsp) (b : List Byte) : (s.ans r b).evt = s.evt := (rfl)
@[simp] theorem ans_fab (s : State) (r : Rsp) (b : List Byte) : (s.ans r b).fab = s.fab := (rfl)
@[simp] theorem ans_lgr (s : State) (r : Rsp) (b : List Byte) : (s.ans r b).lgr = s.lgr := (rfl)
@[simp] theorem ans_mm (s : State) (r : Rsp) (b : List Byte) : (s.ans r b).mm = s.mm := (rfl)
@[simp] theorem ans_dma (s : State) (r : Rsp) (b : List Byte) : (s.ans r b).dma = s.dma := (rfl)
@[simp] theorem ans_fwl (s : State) (r : Rsp) (b : List Byte) : (s.ans r b).fwl = s.fwl := (rfl)
@[simp] theorem ans_lcs (s : State) (r : Rsp) (b : List Byte) : (s.ans r b).lcs = s.lcs := (rfl)
@[simp] theorem ans_tap (s : State) (r : Rsp) (b : List Byte) : (s.ans r b).tap = s.tap := (rfl)
@[simp] theorem ans_pwr (s : State) (r : Rsp) (b : List Byte) : (s.ans r b).pwr = s.pwr := (rfl)
@[simp] theorem ans_frm (s : State) (r : Rsp) (b : List Byte) : (s.ans r b).frm = s.frm := (rfl)
@[simp] theorem ans_rpl (s : State) (r : Rsp) (b : List Byte) : (s.ans r b).rpl = s.rpl := (rfl)
@[simp] theorem ans_eth (s : State) (r : Rsp) (b : List Byte) : (s.ans r b).eth = s.eth := (rfl)
@[simp] theorem ans_uart (s : State) (r : Rsp) (b : List Byte) : (s.ans r b).uart = s.uart := (rfl)
@[simp] theorem ans_can (s : State) (r : Rsp) (b : List Byte) : (s.ans r b).can = s.can := (rfl)
@[simp] theorem ans_staged (s : State) (r : Rsp) (b : List Byte) : (s.ans r b).staged = s.staged := (rfl)
@[simp] theorem ans_drives (s : State) (r : Rsp) (b : List Byte) : (s.ans r b).drives = s.drives := (rfl)
@[simp] theorem ans_flt (s : State) (r : Rsp) (b : List Byte) : (s.ans r b).flt = s.flt := (rfl)
@[simp] theorem ans_fio (s : State) (r : Rsp) (b : List Byte) : (s.ans r b).fio = s.fio := (rfl)
@[simp] theorem ans_saf (s : State) (r : Rsp) (b : List Byte) : (s.ans r b).saf = s.saf := (rfl)
@[simp] theorem ans_gns (s : State) (r : Rsp) (b : List Byte) : (s.ans r b).gns = s.gns := (rfl)
@[simp] theorem ans_fus (s : State) (r : Rsp) (b : List Byte) : (s.ans r b).fus = s.fus := (rfl)
@[simp] theorem ans_gfe (s : State) (r : Rsp) (b : List Byte) : (s.ans r b).gfe = s.gfe := (rfl)
@[simp] theorem ans_asm (s : State) (r : Rsp) (b : List Byte) : (s.ans r b).asm = s.asm := (rfl)
@[simp] theorem ans_lsc (s : State) (r : Rsp) (b : List Byte) : (s.ans r b).lsc = s.lsc := (rfl)
@[simp] theorem ans_cle (s : State) (r : Rsp) (b : List Byte) : (s.ans r b).cle = s.cle := (rfl)
@[simp] theorem ans_par (s : State) (r : Rsp) (b : List Byte) : (s.ans r b).par = s.par := (rfl)
@[simp] theorem ans_nfc (s : State) (r : Rsp) (b : List Byte) : (s.ans r b).nfc = s.nfc := (rfl)

/-! ### `State.ok` -/

@[simp] theorem ok_pending (s : State) : (s.ok).pending = s.pending := (rfl)
@[simp] theorem ok_regs (s : State) : (s.ok).regs = s.regs := (rfl)
@[simp] theorem ok_shadow (s : State) : (s.ok).shadow = s.shadow := (rfl)
@[simp] theorem ok_mem (s : State) : (s.ok).mem = s.mem := (rfl)
@[simp] theorem ok_answer (s : State) : (s.ok).answer = ⟨.okay, []⟩ := (rfl)
@[simp] theorem ok_sent (s : State) : (s.ok).sent = s.sent := (rfl)
@[simp] theorem ok_draws (s : State) : (s.ok).draws = s.draws := (rfl)
@[simp] theorem ok_dev (s : State) : (s.ok).dev = s.dev := (rfl)
@[simp] theorem ok_tim (s : State) : (s.ok).tim = s.tim := (rfl)
@[simp] theorem ok_evt (s : State) : (s.ok).evt = s.evt := (rfl)
@[simp] theorem ok_fab (s : State) : (s.ok).fab = s.fab := (rfl)
@[simp] theorem ok_lgr (s : State) : (s.ok).lgr = s.lgr := (rfl)
@[simp] theorem ok_mm (s : State) : (s.ok).mm = s.mm := (rfl)
@[simp] theorem ok_dma (s : State) : (s.ok).dma = s.dma := (rfl)
@[simp] theorem ok_fwl (s : State) : (s.ok).fwl = s.fwl := (rfl)
@[simp] theorem ok_lcs (s : State) : (s.ok).lcs = s.lcs := (rfl)
@[simp] theorem ok_tap (s : State) : (s.ok).tap = s.tap := (rfl)
@[simp] theorem ok_pwr (s : State) : (s.ok).pwr = s.pwr := (rfl)
@[simp] theorem ok_frm (s : State) : (s.ok).frm = s.frm := (rfl)
@[simp] theorem ok_rpl (s : State) : (s.ok).rpl = s.rpl := (rfl)
@[simp] theorem ok_eth (s : State) : (s.ok).eth = s.eth := (rfl)
@[simp] theorem ok_uart (s : State) : (s.ok).uart = s.uart := (rfl)
@[simp] theorem ok_can (s : State) : (s.ok).can = s.can := (rfl)
@[simp] theorem ok_staged (s : State) : (s.ok).staged = s.staged := (rfl)
@[simp] theorem ok_drives (s : State) : (s.ok).drives = s.drives := (rfl)
@[simp] theorem ok_flt (s : State) : (s.ok).flt = s.flt := (rfl)
@[simp] theorem ok_fio (s : State) : (s.ok).fio = s.fio := (rfl)
@[simp] theorem ok_saf (s : State) : (s.ok).saf = s.saf := (rfl)
@[simp] theorem ok_gns (s : State) : (s.ok).gns = s.gns := (rfl)
@[simp] theorem ok_fus (s : State) : (s.ok).fus = s.fus := (rfl)
@[simp] theorem ok_gfe (s : State) : (s.ok).gfe = s.gfe := (rfl)
@[simp] theorem ok_asm (s : State) : (s.ok).asm = s.asm := (rfl)
@[simp] theorem ok_lsc (s : State) : (s.ok).lsc = s.lsc := (rfl)
@[simp] theorem ok_cle (s : State) : (s.ok).cle = s.cle := (rfl)
@[simp] theorem ok_par (s : State) : (s.ok).par = s.par := (rfl)
@[simp] theorem ok_nfc (s : State) : (s.ok).nfc = s.nfc := (rfl)

/-! ### `State.ansW` -/

@[simp] theorem ansW_pending (s : State) (w : Word) : (s.ansW w).pending = s.pending := (rfl)
@[simp] theorem ansW_regs (s : State) (w : Word) : (s.ansW w).regs = s.regs := (rfl)
@[simp] theorem ansW_shadow (s : State) (w : Word) : (s.ansW w).shadow = s.shadow := (rfl)
@[simp] theorem ansW_mem (s : State) (w : Word) : (s.ansW w).mem = s.mem := (rfl)
@[simp] theorem ansW_answer (s : State) (w : Word) : (s.ansW w).answer = ⟨.okay, leBytes 4 w.toNat⟩ := (rfl)
@[simp] theorem ansW_sent (s : State) (w : Word) : (s.ansW w).sent = s.sent := (rfl)
@[simp] theorem ansW_draws (s : State) (w : Word) : (s.ansW w).draws = s.draws := (rfl)
@[simp] theorem ansW_dev (s : State) (w : Word) : (s.ansW w).dev = s.dev := (rfl)
@[simp] theorem ansW_tim (s : State) (w : Word) : (s.ansW w).tim = s.tim := (rfl)
@[simp] theorem ansW_evt (s : State) (w : Word) : (s.ansW w).evt = s.evt := (rfl)
@[simp] theorem ansW_fab (s : State) (w : Word) : (s.ansW w).fab = s.fab := (rfl)
@[simp] theorem ansW_lgr (s : State) (w : Word) : (s.ansW w).lgr = s.lgr := (rfl)
@[simp] theorem ansW_mm (s : State) (w : Word) : (s.ansW w).mm = s.mm := (rfl)
@[simp] theorem ansW_dma (s : State) (w : Word) : (s.ansW w).dma = s.dma := (rfl)
@[simp] theorem ansW_fwl (s : State) (w : Word) : (s.ansW w).fwl = s.fwl := (rfl)
@[simp] theorem ansW_lcs (s : State) (w : Word) : (s.ansW w).lcs = s.lcs := (rfl)
@[simp] theorem ansW_tap (s : State) (w : Word) : (s.ansW w).tap = s.tap := (rfl)
@[simp] theorem ansW_pwr (s : State) (w : Word) : (s.ansW w).pwr = s.pwr := (rfl)
@[simp] theorem ansW_frm (s : State) (w : Word) : (s.ansW w).frm = s.frm := (rfl)
@[simp] theorem ansW_rpl (s : State) (w : Word) : (s.ansW w).rpl = s.rpl := (rfl)
@[simp] theorem ansW_eth (s : State) (w : Word) : (s.ansW w).eth = s.eth := (rfl)
@[simp] theorem ansW_uart (s : State) (w : Word) : (s.ansW w).uart = s.uart := (rfl)
@[simp] theorem ansW_can (s : State) (w : Word) : (s.ansW w).can = s.can := (rfl)
@[simp] theorem ansW_staged (s : State) (w : Word) : (s.ansW w).staged = s.staged := (rfl)
@[simp] theorem ansW_drives (s : State) (w : Word) : (s.ansW w).drives = s.drives := (rfl)
@[simp] theorem ansW_flt (s : State) (w : Word) : (s.ansW w).flt = s.flt := (rfl)
@[simp] theorem ansW_fio (s : State) (w : Word) : (s.ansW w).fio = s.fio := (rfl)
@[simp] theorem ansW_saf (s : State) (w : Word) : (s.ansW w).saf = s.saf := (rfl)
@[simp] theorem ansW_gns (s : State) (w : Word) : (s.ansW w).gns = s.gns := (rfl)
@[simp] theorem ansW_fus (s : State) (w : Word) : (s.ansW w).fus = s.fus := (rfl)
@[simp] theorem ansW_gfe (s : State) (w : Word) : (s.ansW w).gfe = s.gfe := (rfl)
@[simp] theorem ansW_asm (s : State) (w : Word) : (s.ansW w).asm = s.asm := (rfl)
@[simp] theorem ansW_lsc (s : State) (w : Word) : (s.ansW w).lsc = s.lsc := (rfl)
@[simp] theorem ansW_cle (s : State) (w : Word) : (s.ansW w).cle = s.cle := (rfl)
@[simp] theorem ansW_par (s : State) (w : Word) : (s.ansW w).par = s.par := (rfl)
@[simp] theorem ansW_nfc (s : State) (w : Word) : (s.ansW w).nfc = s.nfc := (rfl)

/-! ### `State.draw` -/

@[simp] theorem draw_pending (s : State) : (s.draw).pending = s.pending := (rfl)
@[simp] theorem draw_regs (s : State) : (s.draw).regs = s.regs := (rfl)
@[simp] theorem draw_shadow (s : State) : (s.draw).shadow = s.shadow := (rfl)
@[simp] theorem draw_mem (s : State) : (s.draw).mem = s.mem := (rfl)
@[simp] theorem draw_answer (s : State) : (s.draw).answer = s.answer := (rfl)
@[simp] theorem draw_sent (s : State) : (s.draw).sent = s.sent := (rfl)
@[simp] theorem draw_draws (s : State) : (s.draw).draws = s.draws + 1 := (rfl)
@[simp] theorem draw_dev (s : State) : (s.draw).dev = s.dev := (rfl)
@[simp] theorem draw_tim (s : State) : (s.draw).tim = s.tim := (rfl)
@[simp] theorem draw_evt (s : State) : (s.draw).evt = s.evt := (rfl)
@[simp] theorem draw_fab (s : State) : (s.draw).fab = s.fab := (rfl)
@[simp] theorem draw_lgr (s : State) : (s.draw).lgr = s.lgr := (rfl)
@[simp] theorem draw_mm (s : State) : (s.draw).mm = s.mm := (rfl)
@[simp] theorem draw_dma (s : State) : (s.draw).dma = s.dma := (rfl)
@[simp] theorem draw_fwl (s : State) : (s.draw).fwl = s.fwl := (rfl)
@[simp] theorem draw_lcs (s : State) : (s.draw).lcs = s.lcs := (rfl)
@[simp] theorem draw_tap (s : State) : (s.draw).tap = s.tap := (rfl)
@[simp] theorem draw_pwr (s : State) : (s.draw).pwr = s.pwr := (rfl)
@[simp] theorem draw_frm (s : State) : (s.draw).frm = s.frm := (rfl)
@[simp] theorem draw_rpl (s : State) : (s.draw).rpl = s.rpl := (rfl)
@[simp] theorem draw_eth (s : State) : (s.draw).eth = s.eth := (rfl)
@[simp] theorem draw_uart (s : State) : (s.draw).uart = s.uart := (rfl)
@[simp] theorem draw_can (s : State) : (s.draw).can = s.can := (rfl)
@[simp] theorem draw_staged (s : State) : (s.draw).staged = s.staged := (rfl)
@[simp] theorem draw_drives (s : State) : (s.draw).drives = s.drives := (rfl)
@[simp] theorem draw_flt (s : State) : (s.draw).flt = s.flt := (rfl)
@[simp] theorem draw_fio (s : State) : (s.draw).fio = s.fio := (rfl)
@[simp] theorem draw_saf (s : State) : (s.draw).saf = s.saf := (rfl)
@[simp] theorem draw_gns (s : State) : (s.draw).gns = s.gns := (rfl)
@[simp] theorem draw_fus (s : State) : (s.draw).fus = s.fus := (rfl)
@[simp] theorem draw_gfe (s : State) : (s.draw).gfe = s.gfe := (rfl)
@[simp] theorem draw_asm (s : State) : (s.draw).asm = s.asm := (rfl)
@[simp] theorem draw_lsc (s : State) : (s.draw).lsc = s.lsc := (rfl)
@[simp] theorem draw_cle (s : State) : (s.draw).cle = s.cle := (rfl)
@[simp] theorem draw_par (s : State) : (s.draw).par = s.par := (rfl)
@[simp] theorem draw_nfc (s : State) : (s.draw).nfc = s.nfc := (rfl)

end Sys2Proof.Laws
end

