-- ==== Sys2Proof/Laws/Regs.lean ====
section
/-! SUPPORT. Reading a register or a field after a write of one. -/

namespace Sys2Proof.Laws

open Sys2Proof.Machine

/-! ### The one home of a word -/

theorem canon_body {a : Nat} (h : 6 < a % 1024) : canon a = a := by
  unfold canon
  rw [if_neg (by omega), if_neg (by omega)]

theorem canon_low {a : Nat} (h : a % 1024 < 2) : canon a = a := by
  unfold canon
  rw [if_neg (by omega), if_neg (by omega)]

theorem canon_head {a : Nat} (h1 : 2 ≤ a % 1024) (h2 : a % 1024 ≤ 6) (h3 : a ≠ 148 * 1024 + 2) :
    canon a = blockPage (a / 1024) * 1024 + a % 1024 := by
  unfold canon
  rw [if_neg (by omega), if_pos ⟨h1, h2⟩]

theorem blockPage_own {p : Nat} (h : p < 29 ∨ p = 33 ∨ p = 32 ∨ p = 37 ∨ p = 41 ∨ p = 42 ∨ p = 44 ∨ 47 ≤ p) : blockPage p = p := by
  unfold blockPage
  split_ifs <;> omega

/-- Registers and fields speak of the register file only. -/
theorem reg_congr {s t : State} (h : t.regs = s.regs) (a : Nat) : t.reg a = s.reg a := by
  unfold State.reg
  rw [h]

theorem f_congr {s t : State} (h : t.regs = s.regs) (q : RF) : t.f q = s.f q := by
  unfold State.f
  rw [reg_congr h]

theorem regsWf_congr {s t : State} (h : t.regs = s.regs) (hs : s.regsWf) : t.regsWf := by
  refine ⟨?_⟩
  rw [h]
  exact hs.wf

/-! ### Whole registers -/

theorem setReg_wf {s : State} (h : s.regsWf) (a : Nat) (v : Word) : (s.setReg a v).regsWf := ⟨spSet_wf _ _ _ h.wf⟩

theorem reg_setReg {s : State} (h : s.regsWf) (a b : Nat) (v : Word) :
    (s.setReg a v).reg b = if canon b = canon a then v else s.reg b := by
  show spGet regReset (spSet regReset s.regs (canon a) v) (canon b) = _
  split
  · rename_i e
    rw [e]
    exact spGet_set_same _ _ _ h.wf
  · rename_i e
    exact spGet_set_ne _ e _ h.wf

theorem reg_setReg_same {s : State} (h : s.regsWf) (a : Nat) (v : Word) : (s.setReg a v).reg a = v := by
  rw [reg_setReg h, if_pos rfl]

theorem reg_setReg_ne {s : State} (h : s.regsWf) {a b : Nat} (v : Word) (hne : canon b ≠ canon a) :
    (s.setReg a v).reg b = s.reg b := by
  rw [reg_setReg h, if_neg hne]

/-! ### Fields -/

theorem setF_wf {s : State} (h : s.regsWf) (r : RF) (v : Nat) : (s.setF r v).regsWf := setReg_wf h _ _

theorem setPair_wf {s : State} (h : s.regsWf) (a b v : Nat) : (s.setPair a b v).regsWf := setReg_wf (setReg_wf h _ _) _ _

theorem reg_setF_ne {s : State} (h : s.regsWf) {r : RF} {b : Nat} (v : Nat) (hne : canon b ≠ canon r.a) :
    (s.setF r v).reg b = s.reg b := reg_setReg_ne h _ hne

theorem f_setF_word {s : State} (h : s.regsWf) {r q : RF} (v : Nat) (hq : canon q.a = canon r.a) (hr : r.lo ≤ r.hi) (hh : r.hi < 32) :
    (s.setF r v).f q = bitsOf (putBits (s.reg r.a).toNat r.hi r.lo v) q.hi q.lo := by
  unfold State.f
  rw [show (s.setF r v).reg q.a = BitVec.ofNat 32 (putBits (s.reg r.a).toNat r.hi r.lo v) by
    show (s.setReg _ _).reg _ = _
    rw [reg_setReg h, if_pos hq]]
  rw [BitVec.toNat_ofNat, Nat.mod_eq_of_lt (putBits_lt _ _ _ _ 32 (s.reg r.a).isLt hh hr)]

/-- A field holds what was written into it. -/
theorem f_setF_same {s : State} (h : s.regsWf) (r : RF) (v : Nat) (hr : r.lo ≤ r.hi) (hh : r.hi < 32) :
    (s.setF r v).f r = v % 2 ^ (r.hi + 1 - r.lo) := by
  rw [f_setF_word h v rfl hr hh, bitsOf_putBits _ _ _ _ hr]

/-- A field of another word is unchanged. -/
theorem f_setF_ne {s : State} (h : s.regsWf) {r q : RF} (v : Nat) (hne : canon q.a ≠ canon r.a) : (s.setF r v).f q = s.f q := by
  unfold State.f
  rw [reg_setF_ne h v hne]

theorem f_setReg_ne {s : State} (h : s.regsWf) {a : Nat} {q : RF} (v : Word) (hne : canon q.a ≠ canon a) : (s.setReg a v).f q = s.f q := by
  unfold State.f
  rw [reg_setReg_ne h v hne]

theorem f_setReg_same {s : State} (h : s.regsWf) {a : Nat} {q : RF} (v : Word) (hq : canon q.a = canon a) :
    (s.setReg a v).f q = bitsOf v.toNat q.hi q.lo := by
  unfold State.f
  rw [reg_setReg h, if_pos hq]

theorem ok_wf {s : State} (w : s.regsWf) : s.ok.regsWf := regsWf_congr (s := s) (t := s.ok) rfl w

theorem ans_wf {s : State} (w : s.regsWf) (r : Rsp) (b : List Byte) : (s.ans r b).regsWf := regsWf_congr (s := s) (t := s.ans r b) rfl w

theorem ansW_wf {s : State} (w : s.regsWf) (v : Word) : (s.ansW v).regsWf := regsWf_congr (s := s) (t := s.ansW v) rfl w

/-- Another field of the same word is unchanged. -/
theorem f_setF_other {s : State} (h : s.regsWf) {r q : RF} (v : Nat) (hq : q.a = r.a) (hr : r.lo ≤ r.hi) (hh : r.hi < 32)
    (hl : q.lo ≤ q.hi) (hd : q.hi < r.lo ∨ r.hi < q.lo) : (s.setF r v).f q = s.f q := by
  rw [f_setF_word h v (congrArg canon hq) hr hh]
  unfold State.f
  rw [hq]
  rcases hd with d | d
  · exact bitsOf_putBits_below _ _ _ _ _ _ hr d hl
  · exact bitsOf_putBits_above _ _ _ _ _ _ hr d

theorem fb_setF_same {s : State} (h : s.regsWf) {r : RF} (v : Nat) (hr : r.lo = r.hi) (hh : r.hi < 32) (hv : v < 2) :
    (s.setF r v).fb r = decide (v = 1) := by
  unfold State.fb
  rw [f_setF_same h r v (by omega) hh, hr, show r.hi + 1 - r.hi = 1 by omega, pow_one, Nat.mod_eq_of_lt hv]
  interval_cases v <;> rfl

/-- A one-bit field reads 0 or 1. -/
theorem f_bit {s : State} {r : RF} (hr : r.lo = r.hi) : s.f r = 0 ∨ s.f r = 1 := by
  have : s.f r < 2 := by
    have := bitsOf_lt (s.reg r.a).toNat r.hi r.lo
    rw [hr, show r.hi + 1 - r.hi = 1 by omega, pow_one] at this
    unfold State.f
    rw [hr]
    exact this
  omega

/-! ### Pairs -/

theorem reg_setPair_ne {s : State} (h : s.regsWf) {lo hi b : Nat} (v : Nat) (h1 : canon b ≠ canon lo) (h2 : canon b ≠ canon hi) :
    (s.setPair lo hi v).reg b = s.reg b := by
  show ((s.setReg _ _).setReg _ _).reg _ = _
  rw [reg_setReg_ne (setReg_wf h _ _) _ h2, reg_setReg_ne h _ h1]

theorem pair_setPair {s : State} (h : s.regsWf) {lo hi : Nat} (v : Nat) (hne : canon lo ≠ canon hi) :
    (s.setPair lo hi v).pair lo hi = v % 2 ^ 64 := by
  unfold State.pair
  rw [show (s.setPair lo hi v).reg lo = BitVec.ofNat 32 v by
    show ((s.setReg _ _).setReg _ _).reg _ = _
    rw [reg_setReg_ne (setReg_wf h _ _) _ hne, reg_setReg_same h]]
  rw [show (s.setPair lo hi v).reg hi = BitVec.ofNat 32 (v / 2 ^ 32) by
    show ((s.setReg _ _).setReg _ _).reg _ = _
    rw [reg_setReg_same (setReg_wf h _ _)]]
  rw [BitVec.toNat_ofNat, BitVec.toNat_ofNat]
  omega

/-! ### Other fields are no registers -/

theorem reg_mk {s : State} {v0 v2 v3 v4 v5 v6 v7 v8 v9 v10 v11 v12 v13 v14 v15 v16 v17 v18 v19 v20 v21 v22 v23 v24 v25
    v26 v27 v28 v29 v30 v31 v32 v33 v34 v35} (a : Nat) :
    (State.mk v0 s.regs v2 v3 v4 v5 v6 v7 v8 v9 v10 v11 v12 v13 v14 v15 v16 v17 v18 v19 v20 v21 v22 v23 v24 v25 v26 v27 v28 v29 v30 v31 v32 v33 v34 v35).reg a = s.reg a := reg_congr (s := s) rfl a

theorem f_mk {s : State} {v0 v2 v3 v4 v5 v6 v7 v8 v9 v10 v11 v12 v13 v14 v15 v16 v17 v18 v19 v20 v21 v22 v23 v24 v25
    v26 v27 v28 v29 v30 v31 v32 v33 v34 v35} (q : RF) :
    (State.mk v0 s.regs v2 v3 v4 v5 v6 v7 v8 v9 v10 v11 v12 v13 v14 v15 v16 v17 v18 v19 v20 v21 v22 v23 v24 v25 v26 v27 v28 v29 v30 v31 v32 v33 v34 v35).f q = s.f q := f_congr (s := s) rfl q

theorem mk_wf {s : State} {v0 v2 v3 v4 v5 v6 v7 v8 v9 v10 v11 v12 v13 v14 v15 v16 v17 v18 v19 v20 v21 v22 v23 v24 v25
    v26 v27 v28 v29 v30 v31 v32 v33 v34 v35} (w : s.regsWf) :
    (State.mk v0 s.regs v2 v3 v4 v5 v6 v7 v8 v9 v10 v11 v12 v13 v14 v15 v16 v17 v18 v19 v20 v21 v22 v23 v24 v25 v26 v27 v28 v29 v30 v31 v32 v33 v34 v35).regsWf := regsWf_congr (s := s) rfl w

theorem fb_def (s : State) (q : RF) : s.fb q = (s.f q != 0) := rfl

/-! ### The answer is no register -/

@[simp] theorem reg_ans (s : State) (r : Rsp) (b : List Byte) (a : Nat) : (s.ans r b).reg a = s.reg a := reg_congr rfl a
@[simp] theorem reg_ok (s : State) (a : Nat) : s.ok.reg a = s.reg a := reg_congr rfl a
@[simp] theorem reg_ansW (s : State) (w : Word) (a : Nat) : (s.ansW w).reg a = s.reg a := reg_congr rfl a
@[simp] theorem f_ans (s : State) (r : Rsp) (b : List Byte) (q : RF) : (s.ans r b).f q = s.f q := f_congr rfl q
@[simp] theorem f_ok (s : State) (q : RF) : s.ok.f q = s.f q := f_congr rfl q
@[simp] theorem f_ansW (s : State) (w : Word) (q : RF) : (s.ansW w).f q = s.f q := f_congr rfl q

end Sys2Proof.Laws
end

