-- ==== Sys2Proof/Laws/Raise.lean ====
section
/-! SUPPORT. What raising events can do (R24–R28, R376, R387): the event word, the ledger's words and queue, and what the event controller
keeps of the beat; nothing else. `Rings s t` says it of everything that follows from the lines of a page having risen. -/

namespace Sys2Proof.Laws

open Sys2Proof.Machine

/-- The ledger's words that an assertion may change. -/
def ringWords : List Nat := [hdr 148 4, Adr.LGR_CNT_A, Adr.LGR_CNT_B, Adr.LGR_FLAGS]

/-- From `s` the machine has come to `t` by what assertions bring about. -/
structure Rings (s t : State) : Prop where
  parts : t = { s with regs := t.regs, lgr := t.lgr, evt := t.evt }
  wf : s.regsWf → t.regsWf
  kept : s.regsWf → RegsKept ringWords s t
  stays : s.regsWf → ∀ p b, bitOf (s.reg (hdr p 4)).toNat b = true → bitOf (t.reg (hdr p 4)).toNat b = true

theorem Rings.refl (s : State) : Rings s s := ⟨rfl, id, fun _ _ _ => rfl, fun _ _ _ h => h⟩

theorem Rings.trans {s t u : State} (h : Rings s t) (k : Rings t u) : Rings s u := by
  refine ⟨?_, fun w => k.wf (h.wf w), fun w a ha => (k.kept (h.wf w) a ha).trans (h.kept w a ha),
    fun w p b hb => k.stays (h.wf w) p b (h.stays w p b hb)⟩
  have e := k.parts
  rw [h.parts] at e
  exact e

/-- A change of the ledger's and the event controller's own state. -/
theorem Rings.quiet {s : State} (l : LgrSt) (e : EvtSt) : Rings s { s with lgr := l, evt := e } :=
  ⟨rfl, fun w => regsWf_congr (s := s) rfl w, fun _ _ _ => rfl, fun _ _ _ h => h⟩

theorem Rings.foldl {α : Type} {s : State} {f : State → α → State} {l : List α} (hf : ∀ t x, Rings t (f t x)) :
    Rings s (l.foldl f s) := by
  induction l generalizing s with
  | nil => exact Rings.refl s
  | cons x l ih => exact (hf s x).trans ih

/-- Setting a field of one of the ledger's count words. -/
theorem Rings.setF {s : State} (r : RF) (v : Nat) (hc : canon r.a = r.a) (hr : r.a ∈ ringWords) (h4 : r.a % 1024 ≠ 4) :
    Rings s (s.setF r v) := by
  refine ⟨rfl, fun w => setF_wf w r v, fun w a ha => reg_setF_ne w v (fun e => ha (by rw [e, hc]; exact hr)), fun w p b hb => ?_⟩
  rw [reg_setF_ne w v]
  · exact hb
  · intro e
    have h : canon (hdr p 4) % 1024 = 4 := by
      rw [canon_head (by unfold hdr; omega) (by unfold hdr; omega) (by unfold hdr; omega)]
      unfold hdr
      omega
    rw [e, hc] at h
    exact h4 h

theorem bitOf_or (x y i : Nat) : bitOf (x ||| y) i = (bitOf x i || bitOf y i) := by
  have e : ∀ z, bitOf z i = z.testBit i := by
    intro z
    unfold bitOf
    rw [Nat.testBit_eq_decide_div_mod_eq]
    by_cases h : z / 2 ^ i % 2 = 1 <;> simp [h]
  rw [e, e, e, Nat.testBit_or]

/-- Setting event bits of a page. -/
theorem event_or {s : State} (w : s.regsWf) (p : Nat) (x : Word) (q b : Nat) (hb : bitOf (s.reg (hdr q 4)).toNat b = true) :
    bitOf ((s.setReg (hdr p 4) (s.reg (hdr p 4) ||| x)).reg (hdr q 4)).toNat b = true := by
  rw [reg_setReg w]
  split
  · rename_i e
    have : s.reg (hdr p 4) = s.reg (hdr q 4) := by
      unfold State.reg
      rw [e]
    rw [this, BitVec.toNat_or, bitOf_or, hb, Bool.true_or]
  · exact hb

/-- Setting bits of the ledger's own `EVENT`. -/
theorem Rings.ledgerEvent {s : State} (x : Word) : Rings s (s.setReg (hdr 148 4) (s.reg (hdr 148 4) ||| x)) :=
  ⟨rfl, fun w => setReg_wf w _ _, fun w a ha => reg_setReg_ne w _ (fun e => ha (by rw [e]; decide)), fun w p b hb => event_or w 148 x p b hb⟩

theorem Rings.stick {s : State} (c f : RF) (n : Nat) (hc : canon c.a = c.a) (hcm : c.a ∈ ringWords) (hc4 : c.a % 1024 ≠ 4)
    (hf : canon f.a = f.a) (hfm : f.a ∈ ringWords) (hf4 : f.a % 1024 ≠ 4) : Rings s (s.stick c f n) := by
  unfold State.stick
  dsimp only
  split
  · exact Rings.refl s
  · split
    · exact Rings.setF c _ hc hcm hc4
    · exact (Rings.setF c _ hc hcm hc4).trans (Rings.setF f _ hf hfm hf4)

/-- What an offer to the ledger does, `rz` raising events of the ledger. -/
theorem Rings.offerWith {rz : State → Ev → State} (hz : ∀ t e, e.page = 148 → Rings t (rz t e)) (s : State) (r : LRec) :
    Rings s (offerWith rz s r) := by
  unfold Sys2Proof.Machine.offerWith
  split
  · exact Rings.refl s
  · split
    · exact Rings.quiet _ s.evt
    · dsimp only
      refine Rings.trans ?_ (hz _ _ rfl)
      refine Rings.trans (Rings.quiet _ s.evt) (Rings.stick _ _ _ ?_ ?_ ?_ ?_ ?_ ?_) <;> decide

theorem Rings.recordSource {rz : State → Ev → State} (hz : ∀ t e, e.page = 148 → Rings t (rz t e)) (s : State) (n : Nat) :
    Rings s (recordSource rz s n) := by
  unfold Sys2Proof.Machine.recordSource
  split
  · exact Rings.refl s
  · split
    · exact Rings.quiet s.lgr _
    · exact (Rings.quiet s.lgr _).trans (Rings.offerWith hz _ _)

theorem Rings.triggerWith {rz : State → Ev → State} (hz : ∀ t e, e.page = 148 → Rings t (rz t e)) (s : State) (n m : Nat) :
    Rings s (triggerWith rz s n m) := by
  unfold Sys2Proof.Machine.triggerWith
  dsimp only
  have h1 : ∀ c r, Rings s (Sys2Proof.Machine.offerWith rz { s with lgr := { s.lgr with vTrig := s.lgr.vTrig || c } } r) :=
    fun _ _ => (Rings.quiet _ s.evt).trans (Rings.offerWith hz _ _)
  split
  · exact h1 _ _
  · refine Rings.trans ?_ (hz _ _ rfl)
    refine Rings.trans (h1 _ _) (Rings.stick _ _ _ ?_ ?_ ?_ ?_ ?_ ?_) <;> decide

/-- Everything that follows from lines having risen. -/
theorem Rings.linesFrom (k : Nat) (s : State) (p old : Nat) : Rings s (linesFrom k s p old) := by
  induction k generalizing s p old with
  | zero => exact Rings.refl s
  | succ k ih =>
    unfold Sys2Proof.Machine.linesFrom
    dsimp only
    have hz : ∀ (t : State) (e : Ev), e.page = 148 →
        Rings t (Sys2Proof.Machine.linesFrom k (t.setReg (hdr e.page 4) (t.reg (hdr e.page 4) ||| BitVec.ofNat 32 (2 ^ e.bit))) e.page
          (t.lines e.page)) := by
      intro t e he
      rw [he]
      exact (Rings.ledgerEvent _).trans (ih _ _ _)
    have h1 := Rings.foldl (s := s) (l := newSources p old (s.lines p)) fun t n => Rings.recordSource hz t n
    split
    · exact h1
    · exact h1.trans (Rings.triggerWith hz _ _ _)

/-! ### Raising -/

theorem canon_event (p : Nat) : canon (hdr p 4) = hdr (blockPage p) 4 := by
  rw [canon_head (by unfold hdr; omega) (by unfold hdr; omega) (by unfold hdr; omega)]
  unfold hdr
  rw [show (p * 1024 + 4) / 1024 = p by omega, show (p * 1024 + 4) % 1024 = 4 by omega]

theorem raiseBits_parts (s : State) (p bits : Nat) :
    s.raiseBits p bits = { s with regs := (s.raiseBits p bits).regs, lgr := (s.raiseBits p bits).lgr, evt := (s.raiseBits p bits).evt } :=
  (Rings.linesFrom 4 (s.setReg (hdr p 4) (s.reg (hdr p 4) ||| BitVec.ofNat 32 (bits &&& evMask p))) p (s.lines p)).parts

theorem raiseBits_wf {s : State} (w : s.regsWf) (p bits : Nat) : (s.raiseBits p bits).regsWf :=
  (Rings.linesFrom 4 _ p _).wf (setReg_wf w _ _)

/-- Raising events of page `p` leaves every register but those of `evWords p` alone. -/
theorem raiseBits_kept {s : State} (w : s.regsWf) {p : Nat} (hp : blockPage p = p) (bits : Nat) :
    RegsKept (evWords p) s (s.raiseBits p bits) := by
  intro a ha
  refine ((Rings.linesFrom 4 _ p _).kept (setReg_wf w _ _) a (fun h => ha (List.mem_cons_of_mem _ h))).trans ?_
  refine reg_setReg_ne w _ (fun e => ha ?_)
  rw [e, canon_event, hp]
  exact List.mem_cons_self

theorem raise_parts (s : State) (e : Ev) :
    s.raise e = { s with regs := (s.raise e).regs, lgr := (s.raise e).lgr, evt := (s.raise e).evt } := raiseBits_parts s _ _

theorem raise_wf {s : State} (w : s.regsWf) (e : Ev) : (s.raise e).regsWf := raiseBits_wf w _ _

theorem raise_kept {s : State} (w : s.regsWf) {e : Ev} (hp : blockPage e.page = e.page) : RegsKept (evWords e.page) s (s.raise e) :=
  raiseBits_kept w hp _

/-- A field of a word that raising does not change. -/
theorem f_raise {s : State} (w : s.regsWf) {e : Ev} (hp : blockPage e.page = e.page) {q : RF} (h : canon q.a ∉ evWords e.page) :
    (s.raise e).f q = s.f q := by
  unfold State.f
  rw [raise_kept w hp q.a h]

theorem bitOf_two_pow (i : Nat) : bitOf (2 ^ i) i = true := by
  unfold bitOf
  rw [Nat.div_self (Nat.two_pow_pos i)]
  rfl

/-- Raising an event sets its bit. -/
theorem raise_sets {s : State} (w : s.regsWf) {e : Ev} (hb : e.bit < 32) (hm : 2 ^ e.bit &&& evMask e.page = 2 ^ e.bit) :
    (s.raise e).raised e := by
  refine ⟨(Rings.linesFrom 4 _ e.page _).stays (setReg_wf w _ _) _ _ ?_⟩
  rw [reg_setReg_same w, BitVec.toNat_or, bitOf_or, hm, BitVec.toNat_ofNat,
    Nat.mod_eq_of_lt (Nat.pow_lt_pow_right (by decide) hb), bitOf_two_pow, Bool.or_true]

/-- An event bit that is set stays set while another is raised. -/
theorem raise_stays {s : State} (w : s.regsWf) {e d : Ev} (h : s.raised d) : (s.raise e).raised d :=
  ⟨(Rings.linesFrom 4 _ e.page _).stays (setReg_wf w _ _) _ _ (event_or w _ _ _ _ h.bit)⟩

theorem raised_congr {s t : State} (h : t.regs = s.regs) {e : Ev} (hs : s.raised e) : t.raised e := by
  refine ⟨?_⟩
  rw [reg_congr h]
  exact hs.bit

theorem raised_ok {s : State} {e : Ev} (h : s.raised e) : s.ok.raised e := raised_congr (s := s) (t := s.ok) rfl h

theorem raised_ans {s : State} {e : Ev} (h : s.raised e) (r : Rsp) (b : List Byte) : (s.ans r b).raised e :=
  raised_congr (s := s) (t := s.ans r b) rfl h

theorem raised_setF {s : State} (w : s.regsWf) {e : Ev} (h : s.raised e) {r : RF} (v : Nat) (hr : canon (hdr e.page 4) ≠ canon r.a) :
    (s.setF r v).raised e := by
  refine ⟨?_⟩
  rw [reg_setF_ne w v hr]
  exact h.bit

end Sys2Proof.Laws
end

