-- ==== Sys2Proof/Laws/Only.lean ====
section
/-! SUPPORT. How `OnlyRegs` and `OnlyRaised` of Safety.lean follow along a chain of updates. -/

namespace Sys2Proof.Machine

open Sys2Proof.Laws

theorem RegsKept.trans {l : List Nat} {s t u : State} (h : RegsKept l s t) (k : RegsKept l t u) : RegsKept l s u :=
  fun a ha => (k a ha).trans (h a ha)

theorem RegsKept.mono {l m : List Nat} {s t : State} (h : RegsKept l s t) (hm : ∀ a ∈ l, a ∈ m) : RegsKept m s t :=
  fun a ha => h a fun hl => ha (hm _ hl)

theorem RegsKept.field {l : List Nat} {s t : State} (h : RegsKept l s t) (q : RF) (hq : canon q.a ∉ l) : t.f q = s.f q := by
  unfold State.f
  rw [h q.a hq]

theorem OnlyRegs.refl (l : List Nat) (s : State) : OnlyRegs l s s := ⟨fun _ _ => rfl, rfl⟩

theorem OnlyRegs.setReg {l : List Nat} {s t : State} (w : t.regsWf) (h : OnlyRegs l s t) {a : Nat} (v : Word) (ha : canon a ∈ l) :
    OnlyRegs l s (t.setReg a v) :=
  ⟨h.1.trans fun _ hb => reg_setReg_ne w v fun e => hb (e ▸ ha), by
    have e := h.2
    rw [e]
    rfl⟩

theorem OnlyRegs.setF {l : List Nat} {s t : State} (w : t.regsWf) (h : OnlyRegs l s t) {r : RF} (v : Nat) (hr : canon r.a ∈ l) :
    OnlyRegs l s (t.setF r v) := h.setReg w _ hr

theorem OnlyRegs.setPair {l : List Nat} {s t : State} (w : t.regsWf) (h : OnlyRegs l s t) {a b : Nat} (v : Nat) (ha : canon a ∈ l)
    (hb : canon b ∈ l) : OnlyRegs l s (t.setPair a b v) := (h.setReg w _ ha).setReg (setReg_wf w _ _) _ hb

theorem OnlyRegs.ans {l : List Nat} {s t : State} (h : OnlyRegs l s t) (r : Rsp) (b : List Byte) : OnlyRegs l s (t.ans r b) :=
  ⟨h.1, by
    have e := h.2
    rw [e]
    rfl⟩

theorem OnlyRegs.ok {l : List Nat} {s t : State} (h : OnlyRegs l s t) : OnlyRegs l s t.ok := h.ans _ _

theorem OnlyRegs.ansW {l : List Nat} {s t : State} (h : OnlyRegs l s t) (v : Word) : OnlyRegs l s (t.ansW v) := h.ans _ _

theorem OnlyRegs.mem {l : List Nat} {s t : State} (h : OnlyRegs l s t) : MemKept s t := by
  intro a
  have e := h.2
  rw [e]
  rfl

/-- Raising an event after register writes. -/
theorem OnlyRegs.raiseBits {l : List Nat} {s t : State} (w : t.regsWf) (h : OnlyRegs l s t) {p : Nat} (hp : blockPage p = p)
    (b : Nat) : OnlyRaised p l s (t.raiseBits p b) :=
  ⟨RegsKept.trans (h.1.mono fun _ ha => List.mem_append_right _ ha)
      ((raiseBits_kept w hp b).mono fun _ ha => List.mem_append_left _ ha), by
    have e := raiseBits_parts t p b
    have k := h.2
    generalize t.raiseBits p b = u at e ⊢
    rw [e]
    generalize u.regs = r, u.lgr = r2, u.evt = r3
    rw [k]⟩

theorem OnlyRegs.raise {l : List Nat} {s t : State} (w : t.regsWf) (h : OnlyRegs l s t) {e : Ev} (hp : blockPage e.page = e.page) :
    OnlyRaised e.page l s (t.raise e) := h.raiseBits w hp _

/-! ### After a raise -/

theorem OnlyRaised.setReg {p : Nat} {l : List Nat} {s t : State} (w : t.regsWf) (h : OnlyRaised p l s t) {a : Nat} (v : Word)
    (ha : canon a ∈ l) : OnlyRaised p l s (t.setReg a v) :=
  ⟨h.1.trans fun _ hb => reg_setReg_ne w v fun e => hb (List.mem_append_right _ (e ▸ ha)), by
    have e := h.2
    rw [e]
    rfl⟩

theorem OnlyRaised.setF {p : Nat} {l : List Nat} {s t : State} (w : t.regsWf) (h : OnlyRaised p l s t) {r : RF} (v : Nat)
    (hr : canon r.a ∈ l) : OnlyRaised p l s (t.setF r v) := h.setReg w _ hr

theorem OnlyRaised.ans {p : Nat} {l : List Nat} {s t : State} (h : OnlyRaised p l s t) (r : Rsp) (b : List Byte) :
    OnlyRaised p l s (t.ans r b) :=
  ⟨h.1, by
    have e := h.2
    rw [e]
    rfl⟩

theorem OnlyRaised.ok {p : Nat} {l : List Nat} {s t : State} (h : OnlyRaised p l s t) : OnlyRaised p l s t.ok := h.ans _ _

theorem OnlyRaised.raise {l : List Nat} {s t : State} {e : Ev} (w : t.regsWf) (h : OnlyRaised e.page l s t)
    (hp : blockPage e.page = e.page) : OnlyRaised e.page l s (t.raise e) :=
  ⟨h.1.trans ((raise_kept w hp).mono fun _ ha => List.mem_append_left _ ha), by
    have k := raise_parts t e
    have j := h.2
    generalize t.raise e = u at k ⊢
    rw [k]
    generalize u.regs = r, u.lgr = r2, u.evt = r3
    rw [j]⟩

theorem OnlyRaised.mem {p : Nat} {l : List Nat} {s t : State} (h : OnlyRaised p l s t) : MemKept s t := by
  intro a
  have e := h.2
  rw [e]
  rfl

theorem OnlyRaised.of {p : Nat} {l : List Nat} {s t : State} (h : OnlyRegs l s t) : OnlyRaised p l s t :=
  ⟨h.1.mono fun _ ha => List.mem_append_right _ ha, by
    have e := h.2
    rw [e]⟩

/-! ### Running -/

theorem Runs.live {c : Instr} {s t : State} {P : State → Prop} (he : exec c s = Machine.live s t) (hp : s.pwr.on = true) (h : P t) :
    Runs c s P := ⟨t, by rw [he]; unfold Sys2Proof.Machine.live; rw [if_pos hp], h⟩

theorem Runs.liveIf {c : Instr} {s t : State} {P : State → Prop} {b : Bool} (he : exec c s = Machine.liveIf b s t) (hp : s.pwr.on = true)
    (hb : b = true) (h : P t) : Runs c s P :=
  ⟨t, by rw [he]; unfold Machine.liveIf Machine.live; rw [if_pos hp, if_pos hb], h⟩

end Sys2Proof.Machine
end

