-- ==== Sys2Proof/WellFormed.lean ====
section
/-! DEFINITION. Well-formed commands: every operand names a thing the device has (a master's identity, a page, a channel, a bank)
or fits the field that carries it. A command that is not well formed changes nothing in the device. -/

namespace Sys2Proof

/-- A master identity in use: 28 to 31 are reserved (R13). -/
def isMaster (m : Nat) : Bool := decide (m < 28)

/-- An assigned register page (R494). -/
def isPage (p : Nat) : Bool := decide (p < 153)

/-- An event target (R24). -/
def isTarget (t : Nat) : Bool := decide (t < 5)

/-- An event source number (R24). -/
def isSource (n : Nat) : Bool := decide (n < 512)

/-- A lane: lanes 0 to 95 (R183 and the opening of the lanes chapter). -/
def isLane (l : Nat) : Bool := decide (l < 96)

/-- A fusion port (`FUS_PORT[0..31]`). -/
def isFusPort (p : Nat) : Bool := decide (p < 32)

/-- One of the 56 GNSS channels of the scope file. -/
def isGnsChannel (c : Nat) : Bool := decide (c < 56)

/-- An analogue channel, `FLT_CH[0..15]`. -/
def isFltChannel (c : Nat) : Bool := decide (c < 16)

/-- A control slot, `CLE_SLOT[0..63]`. -/
def isSlot (n : Nat) : Bool := decide (n < 64)

/-- One of the eight CAN controllers of the scope file. -/
def isCan (k : Nat) : Bool := decide (k < 8)

/-- One of 24 thrusters. -/
def isThruster (t : Nat) : Bool := decide (t < 24)

/-- One of four Ethernet MACs. -/
def isMac (k : Nat) : Bool := decide (k < 4)

/-- One of eight UARTs. -/
def isUart (u : Nat) : Bool := decide (u < 8)

/-- One of the 32 DMA channels of the scope file. -/
def isDma (c : Nat) : Bool := decide (c < 32)

/-- A physical address of 40 bits (R17). -/
def isMemAddr (a : Nat) : Bool := decide (a < 2 ^ 40)

/-- A fabric request: a known master, 40 address bits, and as many bytes and byte enables as its size. -/
def Req.wf (r : Req) : Bool :=
  isMaster r.master && (isMemAddr r.addr && (decide (r.data.length ≤ r.size) && decide (r.en.length ≤ r.size)))

/-- A memory upset lies in the 40-bit address space. -/
def Upset.wf (u : Upset) : Bool := isMemAddr u.addr

/-- A CAN frame: an identifier of 11 or 29 bits, a 4-bit length code, at most 64 data bytes. -/
def CanFrame.wf (f : CanFrame) : Bool :=
  decide (f.id < if f.ide then 2 ^ 29 else 2 ^ 11) && (decide (f.dlc < 16) && decide (f.data.length ≤ 64))

/-- What a beat edge brings from outside names channels and lanes the device has. -/
def EdgeIn.wf (e : EdgeIn) : Bool :=
  (e.gns.all fun g => isGnsChannel g.ch) && e.cuts.all fun l => isLane l.lane

/-- The well-formed commands. -/
def Instr.wf : Instr → Bool
  | .fabricRequest r => r.wf
  | .registerWrite m a _ => isMaster m && decide (a < 153 * 1024)
  | .blockReset p masters => isPage p && masters.all isMaster
  | .blockResetEnd p => isPage p
  | .blockQuiesce p _ => isPage p
  | .blockEnable p _ => isPage p
  | .pageLock p _ => isPage p
  | .eventSet p _ => isPage p
  | .evtClaim t => isTarget t
  | .evtDone t n => isTarget t && isSource n
  | .evtRouteWrite m n _ => isMaster m && isSource n
  | .clockFault => true
  | .railFault => true
  | .railRecovered => true
  | .beatEdge e => e.wf
  | .ovrPersist => true
  | .fenceGraze => true
  | .beatsStart e => e.wf
  | .freeRunStart e => e.wf
  | .fusionStageDone => true
  | .assemblyDone => true
  | .laneLoadDone l => isLane l
  | .laneJobDone l => isLane l
  | .laneArrayDone => true
  | .laneEccUe l => isLane l
  | .cmdFormationDone => true
  | .imageInstant => true
  | .frmNumRead => true
  | .replaySnapshotSend => true
  | .replayFullRequest => true
  | .replayDatagramRx _ => true
  | .portCfgWrite p _ => isFusPort p
  | .depositWindowWrite m p w _ => isMaster m && (isFusPort p && decide (w < 16))
  | .depositCommit m p => isMaster m && isFusPort p
  | .scanCopyDone p => isFusPort p
  | .gridPassDone => true
  | .gfeWeightLoad => true
  | .scanClr => true
  | .ifDown i => decide (i < 2)
  | .jamCal => true
  | .channelStart c _ => isGnsChannel c
  | .channelStop c _ => isGnsChannel c
  | .channelDirectStart c _ => isGnsChannel c
  | .acqDone _ code _ => decide (code < 1023 * 2)
  | .pullInLock c => isGnsChannel c
  | .pullInTimeout c => isGnsChannel c
  | .trackLoss c => isGnsChannel c
  | .l5PullInEnd c _ => isGnsChannel c
  | .l5Retry c => isGnsChannel c
  | .snapGo _ => true
  | .snapDone _ _ => true
  | .gnssTimeObs _ => true
  | .timeLost => true
  | .fltCfgWrite n _ => decide (n ≤ 16)
  | .fltRestart c => isFltChannel c
  | .stepDetected c => isFltChannel c
  | .settledReturn c => isFltChannel c
  | .stuck c => isFltChannel c
  | .stuckClear c => isFltChannel c
  | .tableCheck _ => true
  | .chkDone => true
  | .tableRelease _ => true
  | .slotILoad n => isSlot n
  | .slotWlock n _ => isSlot n
  | .lockHeld n => isSlot n
  | .slotIstRead n => isSlot n
  | .bitTimingWrite k _ _ => isCan k
  | .canModeChange k _ => isCan k
  | .txPush k => isCan k
  | .txAbort k h => isCan k && decide (h < 32)
  | .txAbortAll k => isCan k
  | .txAttemptEnd k _ _ => isCan k
  | .canFrameRx k f _ => isCan k && f.wf
  | .pbRelease k _ => isCan k
  | .rxfPop k => isCan k
  | .canError k lec _ _ _ => isCan k && (decide (1 ≤ lec) && decide (lec ≤ 6))
  | .busOffRecovery k => isCan k
  | .dupWindowEnd k => isCan k
  | .tsWrap => true
  | .fbStale t => isThruster t
  | .driveHelmFrame d f => isThruster d && f.wf
  | .driveHoldTimeout d => isThruster d
  | .driveReset d => isThruster d
  | .fioFreeRefresh => true
  | .wdTrip => true
  | .fioWdClr _ => true
  | .fioEnableWrite _ => true
  | .diFilterChange i _ => decide (i < 16)
  | .pulseEdge i => decide (i < 8)
  | .outputTrip j => decide (j < 16)
  | .islandOvercurrent => true
  | .lplusUndervoltage _ => true
  | .linkLost => true
  | .subBeat low high _ _ => decide (low < 16) && decide (high < 16)
  | .beatLost => true
  | .subbeatOvr => true
  | .safetyInputChange i _ => decide (i < 4)
  | .discrep p => decide (p < 2)
  | .testPulse tp high => decide (tp < 2) && decide (high < 16)
  | .ss1Request => true
  | .ss1Tmax => true
  | .offTest k _ => decide (k < 4)
  | .diagClear _ => true
  | .safRelease _ => true
  | .icvoLaneDown n => decide (n < 2)
  | .icvoLaneUp n => decide (n < 2)
  | .heartbeatFreeSend => true
  | .heartbeatRx _ _ => true
  | .beatRecordRx _ => true
  | .deltaRx _ => true
  | .deltaCopyDone => true
  | .resyncBankRx _ => true
  | .resync => true
  | .seekTimeout => true
  | .listenMinEnd => true
  | .missedBeat _ => true
  | .fault => true
  | .clrFaulty => true
  | .handover => true
  | .coresUp => true
  | .flashPeriod => true
  | .flashNow => true
  | .flashCopy => true
  | .epochArm => true
  | .epochComplete => true
  | .ethFrameRx k _ _ _ => isMac k
  | .ethTxDone k => isMac k
  | .ethRingTail k _ i => isMac k && decide (i < 2 ^ 16)
  | .ethLinkDown k => isMac k
  | .ethLinkUp k => isMac k
  | .ethCalGo k => isMac k
  | .ethCalDone k n _ => isMac k && decide (n ≤ 64)
  | .rateWrite m _ => isMaster m
  | .stepWrite m _ => isMaster m
  | .stepForce => true
  | .slewIncrement => true
  | .timeNowRead => true
  | .ptpObsSubmit _ => true
  | .ptpSourceLost => true
  | .ppsRise => true
  | .ppsFall => true
  | .ppsSourceLost => true
  | .tpulse => true
  | .extLost => true
  | .uartCharRx u c _ _ _ _ => isUart u && decide (c < 256)
  | .uartRxPop m u => isMaster m && isUart u
  | .uartStampPop m u => isMaster m && isUart u
  | .uartTxWrite u _ => isUart u
  | .uartDivWrite u _ => isUart u
  | .ledgerStage => true
  | .lgrSwCommit m _ => isMaster m
  | .flush => true
  | .flushMsExpiry => true
  | .ledgerUnitWritten _ => true
  | .ledgerStart => true
  | .arm => true
  | .close => true
  | .trigger => true
  | .lgrNonceDraw => true
  | .vaultRelease => true
  | .xtrGo _ => true
  | .xtrDone _ => true
  | .mounted _ _ => true
  | .nfcWrite m _ => isMaster m
  | .nfcLoad m _ => isMaster m
  | .nfcErase m _ => isMaster m
  | .nfcImage m _ => isMaster m
  | .reqDone _ => true
  | .nandOperationDone op _ _ _ => decide (op < 3)
  | .relocationDone _ => true
  | .patrol _ _ => true
  | .nfcBootSel _ => true
  | .nfcFormat _ _ => true
  | .deedPass m b h => isMaster m && (decide (b < 64) && decide (h < 32))
  | .arbitrationPromote => true
  | .eccWriteback a => isMemAddr a
  | .scrubStep a upsets => isMemAddr a && upsets.all Upset.wf
  | .memoryClearDone => true
  | .marchGo _ => true
  | .marchPreserveGo _ => true
  | .marchDone target _ _ => decide (target < 3)
  | .dramTrained => true
  | .dmaStart c => isDma c
  | .dmaStop c => isDma c
  | .dmaStopped c _ => isDma c
  | .dmaHalt => true
  | .dmaTransferDone c => isDma c
  | .fwlArm key => decide (key < 2 ^ 32)
  | .ruleSelect j => decide (j < 4096)
  | .ruleCommit => true
  | .lcNonceDraw => true
  | .lcTransition _ _ => true
  | .lcOpenDebug _ => true
  | .lcCloseDebug _ => true
  | .lcProgramKey _ _ => true
  | .lcProgramSecret _ _ => true
  | .tmxSelect k _ => decide (k < 8)
  | .tapBypass => true
  | .tapIdcode => true
  | .tapSamplePreload _ _ => true
  | .tapExtest _ _ => true
  | .tapClamp => true
  | .tapHighz => true
  | .dbgAccess q _ => (match q with | some r => r.wf | none => true)
  | .powerStateChange waiting => decide (waiting < 16)
  | .lanesOn => true
  | .dozeExit waiting => decide (waiting < 16)
  | .powerOff _ => true
  | .wake => true
  | .powerOnReset => true
  | .resetN => true
  | .watchdogExpiry => true
  | .wdtWarn => true
  | .watchdogKick _ => true
  | .sysSwreset _ => true
  | .mainResetRelease => true
  | .bootRetry => true
  | .bootRequestSend => true
  | .bootRequestRx _ => true
  | .bootDataRx _ => true
  | .bootEndRx _ => true
  | .bootTimeout => true
  | .shepherdSectionStart => true
  | .coreRel _ => true
  | .next => true
  | .avsTransactionEnd _ mv => decide (mv < 2 ^ 12)
  | .vaonLoss => true
  | .pairBeatIToggle _ => true
  | .bitSynchronisation c => isGnsChannel c
  | .dataBit c _ => isGnsChannel c
  | .fineOutput c _ => isFltChannel c
  | .fieldLinkUp => true
  | .outputMismatch j _ => decide (j < 16)
  | .uartCharSent u => isUart u
  | .dramPatrol a upsets => isMemAddr a && upsets.all Upset.wf
  | .tempHigh code _ => decide (code < 8)

end Sys2Proof
end

