-- ==== Sys2Proof/Laws/PerInstr.lean ====
section
/-! SUPPORT. Facts about every command as syntax, one lemma per command: the master a well-formed command names is one of the 28
assigned identities (R16). -/

namespace Sys2Proof.Laws.WellFormedStates

/-- The fabric master a command names. -/
def master : Instr → Option Nat
  | .fabricRequest r => some r.master
  | .registerWrite m _ _ => some m
  | .blockReset _ _ => none
  | .blockResetEnd _ => none
  | .blockQuiesce _ _ => none
  | .blockEnable _ _ => none
  | .pageLock _ _ => none
  | .eventSet _ _ => none
  | .evtClaim _ => none
  | .evtDone _ _ => none
  | .evtRouteWrite m _ _ => some m
  | .clockFault => none
  | .railFault => none
  | .railRecovered => none
  | .beatEdge _ => none
  | .ovrPersist => none
  | .fenceGraze => none
  | .beatsStart _ => none
  | .freeRunStart _ => none
  | .fusionStageDone => none
  | .assemblyDone => none
  | .laneLoadDone _ => none
  | .laneJobDone _ => none
  | .laneArrayDone => none
  | .laneEccUe _ => none
  | .cmdFormationDone => none
  | .imageInstant => none
  | .frmNumRead => none
  | .replaySnapshotSend => none
  | .replayFullRequest => none
  | .replayDatagramRx _ => none
  | .portCfgWrite _ _ => none
  | .depositWindowWrite m _ _ _ => some m
  | .depositCommit m _ => some m
  | .scanCopyDone _ => none
  | .gridPassDone => none
  | .gfeWeightLoad => none
  | .scanClr => none
  | .ifDown _ => none
  | .jamCal => none
  | .channelStart _ _ => none
  | .channelStop _ _ => none
  | .channelDirectStart _ _ => none
  | .acqDone _ _ _ => none
  | .pullInLock _ => none
  | .pullInTimeout _ => none
  | .trackLoss _ => none
  | .l5PullInEnd _ _ => none
  | .l5Retry _ => none
  | .snapGo _ => none
  | .snapDone _ _ => none
  | .gnssTimeObs _ => none
  | .timeLost => none
  | .fltCfgWrite _ _ => none
  | .fltRestart _ => none
  | .stepDetected _ => none
  | .settledReturn _ => none
  | .stuck _ => none
  | .stuckClear _ => none
  | .tableCheck _ => none
  | .chkDone => none
  | .tableRelease _ => none
  | .slotILoad _ => none
  | .slotWlock _ _ => none
  | .lockHeld _ => none
  | .slotIstRead _ => none
  | .bitTimingWrite _ _ _ => none
  | .canModeChange _ _ => none
  | .txPush _ => none
  | .txAbort _ _ => none
  | .txAbortAll _ => none
  | .txAttemptEnd _ _ _ => none
  | .canFrameRx _ _ _ => none
  | .pbRelease _ _ => none
  | .rxfPop _ => none
  | .canError _ _ _ _ _ => none
  | .busOffRecovery _ => none
  | .dupWindowEnd _ => none
  | .tsWrap => none
  | .fbStale _ => none
  | .driveHelmFrame _ _ => none
  | .driveHoldTimeout _ => none
  | .driveReset _ => none
  | .fioFreeRefresh => none
  | .wdTrip => none
  | .fioWdClr _ => none
  | .fioEnableWrite _ => none
  | .diFilterChange _ _ => none
  | .pulseEdge _ => none
  | .outputTrip _ => none
  | .islandOvercurrent => none
  | .lplusUndervoltage _ => none
  | .linkLost => none
  | .subBeat _ _ _ _ => none
  | .beatLost => none
  | .subbeatOvr => none
  | .safetyInputChange _ _ => none
  | .discrep _ => none
  | .testPulse _ _ => none
  | .ss1Request => none
  | .ss1Tmax => none
  | .offTest _ _ => none
  | .diagClear _ => none
  | .safRelease _ => none
  | .icvoLaneDown _ => none
  | .icvoLaneUp _ => none
  | .heartbeatFreeSend => none
  | .heartbeatRx _ _ => none
  | .beatRecordRx _ => none
  | .deltaRx _ => none
  | .deltaCopyDone => none
  | .resyncBankRx _ => none
  | .resync => none
  | .seekTimeout => none
  | .listenMinEnd => none
  | .missedBeat _ => none
  | .fault => none
  | .clrFaulty => none
  | .handover => none
  | .coresUp => none
  | .flashPeriod => none
  | .flashNow => none
  | .flashCopy => none
  | .epochArm => none
  | .epochComplete => none
  | .ethFrameRx _ _ _ _ => none
  | .ethTxDone _ => none
  | .ethRingTail _ _ _ => none
  | .ethLinkDown _ => none
  | .ethLinkUp _ => none
  | .ethCalGo _ => none
  | .ethCalDone _ _ _ => none
  | .rateWrite m _ => some m
  | .stepWrite m _ => some m
  | .stepForce => none
  | .slewIncrement => none
  | .timeNowRead => none
  | .ptpObsSubmit _ => none
  | .ptpSourceLost => none
  | .ppsRise => none
  | .ppsFall => none
  | .ppsSourceLost => none
  | .tpulse => none
  | .extLost => none
  | .uartCharRx _ _ _ _ _ _ => none
  | .uartRxPop m _ => some m
  | .uartStampPop m _ => some m
  | .uartTxWrite _ _ => none
  | .uartDivWrite _ _ => none
  | .ledgerStage => none
  | .lgrSwCommit m _ => some m
  | .flush => none
  | .flushMsExpiry => none
  | .ledgerUnitWritten _ => none
  | .ledgerStart => none
  | .arm => none
  | .close => none
  | .trigger => none
  | .lgrNonceDraw => none
  | .vaultRelease => none
  | .xtrGo _ => none
  | .xtrDone _ => none
  | .mounted _ _ => none
  | .nfcWrite m _ => some m
  | .nfcLoad m _ => some m
  | .nfcErase m _ => some m
  | .nfcImage m _ => some m
  | .reqDone _ => none
  | .nandOperationDone _ _ _ _ => none
  | .relocationDone _ => none
  | .patrol _ _ => none
  | .nfcBootSel _ => none
  | .nfcFormat _ _ => none
  | .deedPass m _ _ => some m
  | .arbitrationPromote => none
  | .eccWriteback _ => none
  | .scrubStep _ _ => none
  | .memoryClearDone => none
  | .marchGo _ => none
  | .marchPreserveGo _ => none
  | .marchDone _ _ _ => none
  | .dramTrained => none
  | .dmaStart _ => none
  | .dmaStop _ => none
  | .dmaStopped _ _ => none
  | .dmaHalt => none
  | .dmaTransferDone _ => none
  | .fwlArm _ => none
  | .ruleSelect _ => none
  | .ruleCommit => none
  | .lcNonceDraw => none
  | .lcTransition _ _ => none
  | .lcOpenDebug _ => none
  | .lcCloseDebug _ => none
  | .lcProgramKey _ _ => none
  | .lcProgramSecret _ _ => none
  | .tmxSelect _ _ => none
  | .tapBypass => none
  | .tapIdcode => none
  | .tapSamplePreload _ _ => none
  | .tapExtest _ _ => none
  | .tapClamp => none
  | .tapHighz => none
  | .dbgAccess _ _ => none
  | .powerStateChange _ => none
  | .lanesOn => none
  | .dozeExit _ => none
  | .powerOff _ => none
  | .wake => none
  | .powerOnReset => none
  | .resetN => none
  | .watchdogExpiry => none
  | .wdtWarn => none
  | .watchdogKick _ => none
  | .sysSwreset _ => none
  | .mainResetRelease => none
  | .bootRetry => none
  | .bootRequestSend => none
  | .bootRequestRx _ => none
  | .bootDataRx _ => none
  | .bootEndRx _ => none
  | .bootTimeout => none
  | .shepherdSectionStart => none
  | .coreRel _ => none
  | .next => none
  | .avsTransactionEnd _ _ => none
  | .vaonLoss => none
  | .pairBeatIToggle _ => none
  | .bitSynchronisation _ => none
  | .dataBit _ _ => none
  | .fineOutput _ _ => none
  | .fieldLinkUp => none
  | .outputMismatch _ _ => none
  | .uartCharSent _ => none
  | .dramPatrol _ _ => none
  | .tempHigh _ _ => none

/-- A well-formed command names an assigned master or none. -/
def Statement (i : Instr) : Prop := i.wf = true → ∀ n, master i = some n → n < 28

theorem fabricRequest (r : Req) : Statement (.fabricRequest r) := fun h n hm => by
  cases hm
  simp only [Instr.wf, Req.wf, isMaster, Bool.and_eq_true, decide_eq_true_eq] at h
  exact h.1

theorem registerWrite (m : Nat) (a : Nat) (v : Word) : Statement (.registerWrite m a v) := fun h n hm => by
  cases hm
  simp only [Instr.wf, isMaster, Bool.and_eq_true, decide_eq_true_eq] at h
  exact h.1

theorem blockReset (p : Nat) (masters : List Nat) : Statement (.blockReset p masters) := fun _ _ hm => by cases hm

theorem blockResetEnd (p : Nat) : Statement (.blockResetEnd p) := fun _ _ hm => by cases hm

theorem blockQuiesce (p : Nat) (on : Bool) : Statement (.blockQuiesce p on) := fun _ _ hm => by cases hm

theorem blockEnable (p : Nat) (on : Bool) : Statement (.blockEnable p on) := fun _ _ hm => by cases hm

theorem pageLock (p : Nat) (v : Word) : Statement (.pageLock p v) := fun _ _ hm => by cases hm

theorem eventSet (p : Nat) (v : Word) : Statement (.eventSet p v) := fun _ _ hm => by cases hm

theorem evtClaim (t : Nat) : Statement (.evtClaim t) := fun _ _ hm => by cases hm

theorem evtDone (t : Nat) (n : Nat) : Statement (.evtDone t n) := fun _ _ hm => by cases hm

theorem evtRouteWrite (m : Nat) (n : Nat) (v : Word) : Statement (.evtRouteWrite m n v) := fun h n hm => by
  cases hm
  simp only [Instr.wf, isMaster, Bool.and_eq_true, decide_eq_true_eq] at h
  exact h.1

theorem clockFault : Statement (.clockFault) := fun _ _ hm => by cases hm

theorem railFault : Statement (.railFault) := fun _ _ hm => by cases hm

theorem railRecovered : Statement (.railRecovered) := fun _ _ hm => by cases hm

theorem beatEdge (e : EdgeIn) : Statement (.beatEdge e) := fun _ _ hm => by cases hm

theorem ovrPersist : Statement (.ovrPersist) := fun _ _ hm => by cases hm

theorem fenceGraze : Statement (.fenceGraze) := fun _ _ hm => by cases hm

theorem beatsStart (e : EdgeIn) : Statement (.beatsStart e) := fun _ _ hm => by cases hm

theorem freeRunStart (e : EdgeIn) : Statement (.freeRunStart e) := fun _ _ hm => by cases hm

theorem fusionStageDone : Statement (.fusionStageDone) := fun _ _ hm => by cases hm

theorem assemblyDone : Statement (.assemblyDone) := fun _ _ hm => by cases hm

theorem laneLoadDone (l : Nat) : Statement (.laneLoadDone l) := fun _ _ hm => by cases hm

theorem laneJobDone (l : Nat) : Statement (.laneJobDone l) := fun _ _ hm => by cases hm

theorem laneArrayDone : Statement (.laneArrayDone) := fun _ _ hm => by cases hm

theorem laneEccUe (l : Nat) : Statement (.laneEccUe l) := fun _ _ hm => by cases hm

theorem cmdFormationDone : Statement (.cmdFormationDone) := fun _ _ hm => by cases hm

theorem imageInstant : Statement (.imageInstant) := fun _ _ hm => by cases hm

theorem frmNumRead : Statement (.frmNumRead) := fun _ _ hm => by cases hm

theorem replaySnapshotSend : Statement (.replaySnapshotSend) := fun _ _ hm => by cases hm

theorem replayFullRequest : Statement (.replayFullRequest) := fun _ _ hm => by cases hm

theorem replayDatagramRx (b : List Byte) : Statement (.replayDatagramRx b) := fun _ _ hm => by cases hm

theorem portCfgWrite (p : Nat) (v : Word) : Statement (.portCfgWrite p v) := fun _ _ hm => by cases hm

theorem depositWindowWrite (m : Nat) (p : Nat) (w : Nat) (v : Word) : Statement (.depositWindowWrite m p w v) := fun h n hm => by
  cases hm
  simp only [Instr.wf, isMaster, Bool.and_eq_true, decide_eq_true_eq] at h
  exact h.1

theorem depositCommit (m : Nat) (p : Nat) : Statement (.depositCommit m p) := fun h n hm => by
  cases hm
  simp only [Instr.wf, isMaster, Bool.and_eq_true, decide_eq_true_eq] at h
  exact h.1

theorem scanCopyDone (p : Nat) : Statement (.scanCopyDone p) := fun _ _ hm => by cases hm

theorem gridPassDone : Statement (.gridPassDone) := fun _ _ hm => by cases hm

theorem gfeWeightLoad : Statement (.gfeWeightLoad) := fun _ _ hm => by cases hm

theorem scanClr : Statement (.scanClr) := fun _ _ hm => by cases hm

theorem ifDown (i : Nat) : Statement (.ifDown i) := fun _ _ hm => by cases hm

theorem jamCal : Statement (.jamCal) := fun _ _ hm => by cases hm

theorem channelStart (c : Nat) (v : Word) : Statement (.channelStart c v) := fun _ _ hm => by cases hm

theorem channelStop (c : Nat) (v : Word) : Statement (.channelStop c v) := fun _ _ hm => by cases hm

theorem channelDirectStart (c : Nat) (v : Word) : Statement (.channelDirectStart c v) := fun _ _ hm => by cases hm

theorem acqDone (r : Nat) (code : Nat) (b : Int) : Statement (.acqDone r code b) := fun _ _ hm => by cases hm

theorem pullInLock (c : Nat) : Statement (.pullInLock c) := fun _ _ hm => by cases hm

theorem pullInTimeout (c : Nat) : Statement (.pullInTimeout c) := fun _ _ hm => by cases hm

theorem trackLoss (c : Nat) : Statement (.trackLoss c) := fun _ _ hm => by cases hm

theorem l5PullInEnd (c : Nat) (track : Bool) : Statement (.l5PullInEnd c track) := fun _ _ hm => by cases hm

theorem l5Retry (c : Nat) : Statement (.l5Retry c) := fun _ _ hm => by cases hm

theorem snapGo (v : Word) : Statement (.snapGo v) := fun _ _ hm => by cases hm

theorem snapDone (t0 : Nat) (d : List Byte) : Statement (.snapDone t0 d) := fun _ _ hm => by cases hm

theorem gnssTimeObs (v : Word) : Statement (.gnssTimeObs v) := fun _ _ hm => by cases hm

theorem timeLost : Statement (.timeLost) := fun _ _ hm => by cases hm

theorem fltCfgWrite (n : Nat) (v : Word) : Statement (.fltCfgWrite n v) := fun _ _ hm => by cases hm

theorem fltRestart (c : Nat) : Statement (.fltRestart c) := fun _ _ hm => by cases hm

theorem stepDetected (c : Nat) : Statement (.stepDetected c) := fun _ _ hm => by cases hm

theorem settledReturn (c : Nat) : Statement (.settledReturn c) := fun _ _ hm => by cases hm

theorem stuck (c : Nat) : Statement (.stuck c) := fun _ _ hm => by cases hm

theorem stuckClear (c : Nat) : Statement (.stuckClear c) := fun _ _ hm => by cases hm

theorem tableCheck (v : Word) : Statement (.tableCheck v) := fun _ _ hm => by cases hm

theorem chkDone : Statement (.chkDone) := fun _ _ hm => by cases hm

theorem tableRelease (v : Word) : Statement (.tableRelease v) := fun _ _ hm => by cases hm

theorem slotILoad (n : Nat) : Statement (.slotILoad n) := fun _ _ hm => by cases hm

theorem slotWlock (n : Nat) (on : Bool) : Statement (.slotWlock n on) := fun _ _ hm => by cases hm

theorem lockHeld (n : Nat) : Statement (.lockHeld n) := fun _ _ hm => by cases hm

theorem slotIstRead (n : Nat) : Statement (.slotIstRead n) := fun _ _ hm => by cases hm

theorem bitTimingWrite (k : Nat) (data : Bool) (v : Word) : Statement (.bitTimingWrite k data v) := fun _ _ hm => by cases hm

theorem canModeChange (k : Nat) (v : Word) : Statement (.canModeChange k v) := fun _ _ hm => by cases hm

theorem txPush (k : Nat) : Statement (.txPush k) := fun _ _ hm => by cases hm

theorem txAbort (k : Nat) (h : Nat) : Statement (.txAbort k h) := fun _ _ hm => by cases hm

theorem txAbortAll (k : Nat) : Statement (.txAbortAll k) := fun _ _ hm => by cases hm

theorem txAttemptEnd (k : Nat) (sent : Bool) (back : Nat) : Statement (.txAttemptEnd k sent back) := fun _ _ hm => by cases hm

theorem canFrameRx (k : Nat) (f : CanFrame) (back : Nat) : Statement (.canFrameRx k f back) := fun _ _ hm => by cases hm

theorem pbRelease (k : Nat) (v : Word) : Statement (.pbRelease k v) := fun _ _ hm => by cases hm

theorem rxfPop (k : Nat) : Statement (.rxfPop k) := fun _ _ hm => by cases hm

theorem canError (k : Nat) (lec : Nat) (tx : Bool) (arb : Bool) (heavy : Bool) : Statement (.canError k lec tx arb heavy) := fun _ _ hm => by cases hm

theorem busOffRecovery (k : Nat) : Statement (.busOffRecovery k) := fun _ _ hm => by cases hm

theorem dupWindowEnd (k : Nat) : Statement (.dupWindowEnd k) := fun _ _ hm => by cases hm

theorem tsWrap : Statement (.tsWrap) := fun _ _ hm => by cases hm

theorem fbStale (t : Nat) : Statement (.fbStale t) := fun _ _ hm => by cases hm

theorem driveHelmFrame (d : Nat) (f : CanFrame) : Statement (.driveHelmFrame d f) := fun _ _ hm => by cases hm

theorem driveHoldTimeout (d : Nat) : Statement (.driveHoldTimeout d) := fun _ _ hm => by cases hm

theorem driveReset (d : Nat) : Statement (.driveReset d) := fun _ _ hm => by cases hm

theorem fioFreeRefresh : Statement (.fioFreeRefresh) := fun _ _ hm => by cases hm

theorem wdTrip : Statement (.wdTrip) := fun _ _ hm => by cases hm

theorem fioWdClr (v : Word) : Statement (.fioWdClr v) := fun _ _ hm => by cases hm

theorem fioEnableWrite (v : Word) : Statement (.fioEnableWrite v) := fun _ _ hm => by cases hm

theorem diFilterChange (i : Nat) (level : Bool) : Statement (.diFilterChange i level) := fun _ _ hm => by cases hm

theorem pulseEdge (i : Nat) : Statement (.pulseEdge i) := fun _ _ hm => by cases hm

theorem outputTrip (j : Nat) : Statement (.outputTrip j) := fun _ _ hm => by cases hm

theorem islandOvercurrent : Statement (.islandOvercurrent) := fun _ _ hm => by cases hm

theorem lplusUndervoltage (low : Bool) : Statement (.lplusUndervoltage low) := fun _ _ hm => by cases hm

theorem linkLost : Statement (.linkLost) := fun _ _ hm => by cases hm

theorem subBeat (low : Nat) (high : Nat) (crc : Option Bool) (ue : Bool) : Statement (.subBeat low high crc ue) := fun _ _ hm => by cases hm

theorem beatLost : Statement (.beatLost) := fun _ _ hm => by cases hm

theorem subbeatOvr : Statement (.subbeatOvr) := fun _ _ hm => by cases hm

theorem safetyInputChange (i : Nat) (closed : Bool) : Statement (.safetyInputChange i closed) := fun _ _ hm => by cases hm

theorem discrep (p : Nat) : Statement (.discrep p) := fun _ _ hm => by cases hm

theorem testPulse (tp : Nat) (high : Nat) : Statement (.testPulse tp high) := fun _ _ hm => by cases hm

theorem ss1Request : Statement (.ss1Request) := fun _ _ hm => by cases hm

theorem ss1Tmax : Statement (.ss1Tmax) := fun _ _ hm => by cases hm

theorem offTest (k : Nat) (fell : Bool) : Statement (.offTest k fell) := fun _ _ hm => by cases hm

theorem diagClear (v : Word) : Statement (.diagClear v) := fun _ _ hm => by cases hm

theorem safRelease (v : Word) : Statement (.safRelease v) := fun _ _ hm => by cases hm

theorem icvoLaneDown (n : Nat) : Statement (.icvoLaneDown n) := fun _ _ hm => by cases hm

theorem icvoLaneUp (n : Nat) : Statement (.icvoLaneUp n) := fun _ _ hm => by cases hm

theorem heartbeatFreeSend : Statement (.heartbeatFreeSend) := fun _ _ hm => by cases hm

theorem heartbeatRx (b : List Byte) (ofs : Int) : Statement (.heartbeatRx b ofs) := fun _ _ hm => by cases hm

theorem beatRecordRx (b : List Byte) : Statement (.beatRecordRx b) := fun _ _ hm => by cases hm

theorem deltaRx (b : List Byte) : Statement (.deltaRx b) := fun _ _ hm => by cases hm

theorem deltaCopyDone : Statement (.deltaCopyDone) := fun _ _ hm => by cases hm

theorem resyncBankRx (b : List Byte) : Statement (.resyncBankRx b) := fun _ _ hm => by cases hm

theorem resync : Statement (.resync) := fun _ _ hm => by cases hm

theorem seekTimeout : Statement (.seekTimeout) := fun _ _ hm => by cases hm

theorem listenMinEnd : Statement (.listenMinEnd) := fun _ _ hm => by cases hm

theorem missedBeat (helm : Bool) : Statement (.missedBeat helm) := fun _ _ hm => by cases hm

theorem fault : Statement (.fault) := fun _ _ hm => by cases hm

theorem clrFaulty : Statement (.clrFaulty) := fun _ _ hm => by cases hm

theorem handover : Statement (.handover) := fun _ _ hm => by cases hm

theorem coresUp : Statement (.coresUp) := fun _ _ hm => by cases hm

theorem flashPeriod : Statement (.flashPeriod) := fun _ _ hm => by cases hm

theorem flashNow : Statement (.flashNow) := fun _ _ hm => by cases hm

theorem flashCopy : Statement (.flashCopy) := fun _ _ hm => by cases hm

theorem epochArm : Statement (.epochArm) := fun _ _ hm => by cases hm

theorem epochComplete : Statement (.epochComplete) := fun _ _ hm => by cases hm

theorem ethFrameRx (k : Nat) (b : List Byte) (fcs : Bool) (back : Nat) : Statement (.ethFrameRx k b fcs back) := fun _ _ hm => by cases hm

theorem ethTxDone (k : Nat) : Statement (.ethTxDone k) := fun _ _ hm => by cases hm

theorem ethRingTail (k : Nat) (tx : Bool) (i : Nat) : Statement (.ethRingTail k tx i) := fun _ _ hm => by cases hm

theorem ethLinkDown (k : Nat) : Statement (.ethLinkDown k) := fun _ _ hm => by cases hm

theorem ethLinkUp (k : Nat) : Statement (.ethLinkUp k) := fun _ _ hm => by cases hm

theorem ethCalGo (k : Nat) : Statement (.ethCalGo k) := fun _ _ hm => by cases hm

theorem ethCalDone (k : Nat) (n : Nat) (rtt : Nat) : Statement (.ethCalDone k n rtt) := fun _ _ hm => by cases hm

theorem rateWrite (m : Nat) (v : Word) : Statement (.rateWrite m v) := fun h n hm => by
  cases hm
  simp only [Instr.wf, isMaster, decide_eq_true_eq] at h
  exact h

theorem stepWrite (m : Nat) (v : Word) : Statement (.stepWrite m v) := fun h n hm => by
  cases hm
  simp only [Instr.wf, isMaster, decide_eq_true_eq] at h
  exact h

theorem stepForce : Statement (.stepForce) := fun _ _ hm => by cases hm

theorem slewIncrement : Statement (.slewIncrement) := fun _ _ hm => by cases hm

theorem timeNowRead : Statement (.timeNowRead) := fun _ _ hm => by cases hm

theorem ptpObsSubmit (v : Word) : Statement (.ptpObsSubmit v) := fun _ _ hm => by cases hm

theorem ptpSourceLost : Statement (.ptpSourceLost) := fun _ _ hm => by cases hm

theorem ppsRise : Statement (.ppsRise) := fun _ _ hm => by cases hm

theorem ppsFall : Statement (.ppsFall) := fun _ _ hm => by cases hm

theorem ppsSourceLost : Statement (.ppsSourceLost) := fun _ _ hm => by cases hm

theorem tpulse : Statement (.tpulse) := fun _ _ hm => by cases hm

theorem extLost : Statement (.extLost) := fun _ _ hm => by cases hm

theorem uartCharRx (u : Nat) (c : Nat) (framing : Bool) (parity : Bool) (brk : Bool) (back : Nat) : Statement (.uartCharRx u c framing parity brk back) := fun _ _ hm => by cases hm

theorem uartRxPop (m : Nat) (u : Nat) : Statement (.uartRxPop m u) := fun h n hm => by
  cases hm
  simp only [Instr.wf, isMaster, Bool.and_eq_true, decide_eq_true_eq] at h
  exact h.1

theorem uartStampPop (m : Nat) (u : Nat) : Statement (.uartStampPop m u) := fun h n hm => by
  cases hm
  simp only [Instr.wf, isMaster, Bool.and_eq_true, decide_eq_true_eq] at h
  exact h.1

theorem uartTxWrite (u : Nat) (v : Word) : Statement (.uartTxWrite u v) := fun _ _ hm => by cases hm

theorem uartDivWrite (u : Nat) (v : Word) : Statement (.uartDivWrite u v) := fun _ _ hm => by cases hm

theorem ledgerStage : Statement (.ledgerStage) := fun _ _ hm => by cases hm

theorem lgrSwCommit (m : Nat) (c : Nat) : Statement (.lgrSwCommit m c) := fun h n hm => by
  cases hm
  simp only [Instr.wf, isMaster, decide_eq_true_eq] at h
  exact h

theorem flush : Statement (.flush) := fun _ _ hm => by cases hm

theorem flushMsExpiry : Statement (.flushMsExpiry) := fun _ _ hm => by cases hm

theorem ledgerUnitWritten (good : Bool) : Statement (.ledgerUnitWritten good) := fun _ _ hm => by cases hm

theorem ledgerStart : Statement (.ledgerStart) := fun _ _ hm => by cases hm

theorem arm : Statement (.arm) := fun _ _ hm => by cases hm

theorem close : Statement (.close) := fun _ _ hm => by cases hm

theorem trigger : Statement (.trigger) := fun _ _ hm => by cases hm

theorem lgrNonceDraw : Statement (.lgrNonceDraw) := fun _ _ hm => by cases hm

theorem vaultRelease : Statement (.vaultRelease) := fun _ _ hm => by cases hm

theorem xtrGo (v : Word) : Statement (.xtrGo v) := fun _ _ hm => by cases hm

theorem xtrDone (fail : Option Nat) : Statement (.xtrDone fail) := fun _ _ hm => by cases hm

theorem mounted (ok0 : Bool) (ok1 : Bool) : Statement (.mounted ok0 ok1) := fun _ _ hm => by cases hm

theorem nfcWrite (m : Nat) (v : Word) : Statement (.nfcWrite m v) := fun h n hm => by
  cases hm
  simp only [Instr.wf, isMaster, decide_eq_true_eq] at h
  exact h

theorem nfcLoad (m : Nat) (v : Word) : Statement (.nfcLoad m v) := fun h n hm => by
  cases hm
  simp only [Instr.wf, isMaster, decide_eq_true_eq] at h
  exact h

theorem nfcErase (m : Nat) (v : Word) : Statement (.nfcErase m v) := fun h n hm => by
  cases hm
  simp only [Instr.wf, isMaster, decide_eq_true_eq] at h
  exact h

theorem nfcImage (m : Nat) (v : Word) : Statement (.nfcImage m v) := fun h n hm => by
  cases hm
  simp only [Instr.wf, isMaster, decide_eq_true_eq] at h
  exact h

theorem reqDone (uncorr : Bool) : Statement (.reqDone uncorr) := fun _ _ hm => by cases hm

theorem nandOperationDone (op : Nat) (b : Nat) (q : Nat) (res : Option Nat) : Statement (.nandOperationDone op b q res) := fun _ _ hm => by cases hm

theorem relocationDone (b : Nat) : Statement (.relocationDone b) := fun _ _ hm => by cases hm

theorem patrol (b : Nat) (res : Option Nat) : Statement (.patrol b res) := fun _ _ hm => by cases hm

theorem nfcBootSel (v : Word) : Statement (.nfcBootSel v) := fun _ _ hm => by cases hm

theorem nfcFormat (v : Word) (bad : List Nat) : Statement (.nfcFormat v bad) := fun _ _ hm => by cases hm

theorem deedPass (m : Nat) (b : Nat) (h : Nat) : Statement (.deedPass m b h) := fun h n hm => by
  cases hm
  simp only [Instr.wf, isMaster, Bool.and_eq_true, decide_eq_true_eq] at h
  exact h.1

theorem arbitrationPromote : Statement (.arbitrationPromote) := fun _ _ hm => by cases hm

theorem eccWriteback (a : Nat) : Statement (.eccWriteback a) := fun _ _ hm => by cases hm

theorem scrubStep (a : Nat) (upsets : List Upset) : Statement (.scrubStep a upsets) := fun _ _ hm => by cases hm

theorem memoryClearDone : Statement (.memoryClearDone) := fun _ _ hm => by cases hm

theorem marchGo (v : Word) : Statement (.marchGo v) := fun _ _ hm => by cases hm

theorem marchPreserveGo (v : Word) : Statement (.marchPreserveGo v) := fun _ _ hm => by cases hm

theorem marchDone (target : Nat) (i : Nat) (bad : Option Nat) : Statement (.marchDone target i bad) := fun _ _ hm => by cases hm

theorem dramTrained : Statement (.dramTrained) := fun _ _ hm => by cases hm

theorem dmaStart (c : Nat) : Statement (.dmaStart c) := fun _ _ hm => by cases hm

theorem dmaStop (c : Nat) : Statement (.dmaStop c) := fun _ _ hm => by cases hm

theorem dmaStopped (c : Nat) (n : Nat) : Statement (.dmaStopped c n) := fun _ _ hm => by cases hm

theorem dmaHalt : Statement (.dmaHalt) := fun _ _ hm => by cases hm

theorem dmaTransferDone (c : Nat) : Statement (.dmaTransferDone c) := fun _ _ hm => by cases hm

theorem fwlArm (key : Nat) : Statement (.fwlArm key) := fun _ _ hm => by cases hm

theorem ruleSelect (j : Nat) : Statement (.ruleSelect j) := fun _ _ hm => by cases hm

theorem ruleCommit : Statement (.ruleCommit) := fun _ _ hm => by cases hm

theorem lcNonceDraw : Statement (.lcNonceDraw) := fun _ _ hm => by cases hm

theorem lcTransition (arg : Nat) (good : Bool) : Statement (.lcTransition arg good) := fun _ _ hm => by cases hm

theorem lcOpenDebug (arg : Nat) : Statement (.lcOpenDebug arg) := fun _ _ hm => by cases hm

theorem lcCloseDebug (arg : Nat) : Statement (.lcCloseDebug arg) := fun _ _ hm => by cases hm

theorem lcProgramKey (arg : Nat) (good : Bool) : Statement (.lcProgramKey arg good) := fun _ _ hm => by cases hm

theorem lcProgramSecret (arg : Nat) (good : Bool) : Statement (.lcProgramSecret arg good) := fun _ _ hm => by cases hm

theorem tmxSelect (k : Nat) (v : Word) : Statement (.tmxSelect k v) := fun _ _ hm => by cases hm

theorem tapBypass : Statement (.tapBypass) := fun _ _ hm => by cases hm

theorem tapIdcode : Statement (.tapIdcode) := fun _ _ hm => by cases hm

theorem tapSamplePreload (pins : List Bool) (chain : List Bool) : Statement (.tapSamplePreload pins chain) := fun _ _ hm => by cases hm

theorem tapExtest (pins : List Bool) (chain : List Bool) : Statement (.tapExtest pins chain) := fun _ _ hm => by cases hm

theorem tapClamp : Statement (.tapClamp) := fun _ _ hm => by cases hm

theorem tapHighz : Statement (.tapHighz) := fun _ _ hm => by cases hm

theorem dbgAccess (q : Option Req) (halt : Option Nat) : Statement (.dbgAccess q halt) := fun _ _ hm => by cases hm

theorem powerStateChange (waiting : Nat) : Statement (.powerStateChange waiting) := fun _ _ hm => by cases hm

theorem lanesOn : Statement (.lanesOn) := fun _ _ hm => by cases hm

theorem dozeExit (waiting : Nat) : Statement (.dozeExit waiting) := fun _ _ hm => by cases hm

theorem powerOff (v : Word) : Statement (.powerOff v) := fun _ _ hm => by cases hm

theorem wake : Statement (.wake) := fun _ _ hm => by cases hm

theorem powerOnReset : Statement (.powerOnReset) := fun _ _ hm => by cases hm

theorem resetN : Statement (.resetN) := fun _ _ hm => by cases hm

theorem watchdogExpiry : Statement (.watchdogExpiry) := fun _ _ hm => by cases hm

theorem wdtWarn : Statement (.wdtWarn) := fun _ _ hm => by cases hm

theorem watchdogKick (v : Word) : Statement (.watchdogKick v) := fun _ _ hm => by cases hm

theorem sysSwreset (v : Word) : Statement (.sysSwreset v) := fun _ _ hm => by cases hm

theorem mainResetRelease : Statement (.mainResetRelease) := fun _ _ hm => by cases hm

theorem bootRetry : Statement (.bootRetry) := fun _ _ hm => by cases hm

theorem bootRequestSend : Statement (.bootRequestSend) := fun _ _ hm => by cases hm

theorem bootRequestRx (b : List Byte) : Statement (.bootRequestRx b) := fun _ _ hm => by cases hm

theorem bootDataRx (b : List Byte) : Statement (.bootDataRx b) := fun _ _ hm => by cases hm

theorem bootEndRx (b : List Byte) : Statement (.bootEndRx b) := fun _ _ hm => by cases hm

theorem bootTimeout : Statement (.bootTimeout) := fun _ _ hm => by cases hm

theorem shepherdSectionStart : Statement (.shepherdSectionStart) := fun _ _ hm => by cases hm

theorem coreRel (v : Word) : Statement (.coreRel v) := fun _ _ hm => by cases hm

theorem next : Statement (.next) := fun _ _ hm => by cases hm

theorem avsTransactionEnd (ok : Bool) (mv : Nat) : Statement (.avsTransactionEnd ok mv) := fun _ _ hm => by cases hm

theorem vaonLoss : Statement (.vaonLoss) := fun _ _ hm => by cases hm

theorem pairBeatIToggle (ofs : Int) : Statement (.pairBeatIToggle ofs) := fun _ _ hm => by cases hm

theorem bitSynchronisation (c : Nat) : Statement (.bitSynchronisation c) := fun _ _ hm => by cases hm

theorem dataBit (c : Nat) (neg : Bool) : Statement (.dataBit c neg) := fun _ _ hm => by cases hm

theorem fineOutput (c : Nat) (bits : List Bool) : Statement (.fineOutput c bits) := fun _ _ hm => by cases hm

theorem fieldLinkUp : Statement (.fieldLinkUp) := fun _ _ hm => by cases hm

theorem outputMismatch (j : Nat) (present : Bool) : Statement (.outputMismatch j present) := fun _ _ hm => by cases hm

theorem uartCharSent (u : Nat) : Statement (.uartCharSent u) := fun _ _ hm => by cases hm

theorem dramPatrol (a : Nat) (upsets : List Upset) : Statement (.dramPatrol a upsets) := fun _ _ hm => by cases hm

theorem tempHigh (code : Nat) (above : Bool) : Statement (.tempHigh code above) := fun _ _ hm => by cases hm

end Sys2Proof.Laws.WellFormedStates
end

