-- ==== Sys2Proof/Tests/Slice0.lean ====
section
/-! SUPPORT. Tests. First the refusals of the well-formedness checks; then, for the statements of Certificates/Slice0/Obligations.lean,
states and operands that meet their hypotheses, clause by clause; then single steps against values taken from the spec or from the
published standards the spec names. -/

namespace Sys2Proof.Tests

open Sys2Proof Sys2Proof.Machine Sys2Proof.Laws

set_option Elab.async false

/-! ### States -/

/-- The state after reset with some fields written. -/
def withF (l : List (RF × Nat)) : State := l.foldl (fun s e => s.setF e.1 e.2) State.reset

/-- The premises every statement on a powered state shares, and one more. -/
def Met (s : State) (p : Prop) : Prop := s.pwr.on = true ∧ s.regsWf ∧ p

theorem met {s : State} {p : Prop} (h : s.pwr.on = true ∧ spWf regReset s.regs = true ∧ p) : Met s p := ⟨h.1, ⟨h.2.1⟩, h.2.2⟩

/-- The state after reset with some registers written whole. -/
def withR (l : List (Nat × Word)) : State := l.foldl (fun s e => s.setReg e.1 e.2) State.reset

/-- A unit without power. -/
def dark : State := { State.reset with pwr := { State.reset.pwr with on := false } }


/-! ### Hypotheses met: the machine as a whole -/

/-- The invariant of a state that differs from reset only in what the premises can compute. -/
theorem inv_of {s : State} (hc : s.can = State.reset.can) (hu : s.uart = State.reset.uart) (he : s.eth = State.reset.eth)
    (h : spWf regReset s.regs = true ∧ spWf regReset s.shadow = true ∧ s.memWf = true ∧ spWf (fun _ => 0) s.mm.ecc = true ∧
      s.lgr.queue.length ≤ 256 ∧ s.rpl.tx.length ≤ 8) : s.Inv :=
  ⟨h.1, h.2.1, h.2.2.1, h.2.2.2.1, h.2.2.2.2.1, hc ▸ reset_can, hu ▸ reset_uart, he ▸ reset_eth, h.2.2.2.2.2⟩

theorem met_EmptyQueuePassesOneNanosecond :
    (State.reset.pending = [] ∧ State.reset.pwr.on = true) ∧ (dark.pending = [] ∧ dark.pwr.on = false) := by decide

theorem met_CommandsAnswerAndLeaveQueue : ∃ t, exec .tapIdcode State.reset = .next t := ⟨_, rfl⟩

theorem met_StepKeepsInvariant : ∃ s t : State, s.Inv ∧ step s = .next t :=
  ⟨{ State.reset with pending := [.tapIdcode, .tapBypass] }, _, inv_of rfl rfl rfl (by decide), rfl⟩

theorem met_UnpoweredDeviceHoldsStill : dark.pwr.on = false ∧ actsUnpowered .tapIdcode = false := by decide

/-! ### Hypotheses met: header words, events, access tables -/

theorem met_HeaderWordsAndRoutes :
    Met State.reset (State.reset.pageOk 152 = true) ∧ Met State.reset ((511 : Nat) < 512) ∧
    Met (withR [(hdr 2 7, 4)]) ((0 : Nat) < 512 ∧ (withR [(hdr 2 7, 4)]).locked (Adr.EVT_ROUTE 0) = true) :=
  ⟨met (by decide), met (by decide), met (by decide)⟩

/-- Source 8, the first event of the power sequencer, routed to core 0 at the highest priority. -/
def evS : State := withR [(hdr 1 4, 1), (hdr 1 5, 1), (Adr.EVT_ROUTE 8, 0x0007_0001)]

theorem met_ClaimsAreExclusive :
    Met State.reset ((4 : Nat) < 5 ∧ ∀ n, n < 512 → State.reset.claimable 4 n = false) ∧
    Met evS ((0 : Nat) < 5 ∧ (8 : Nat) < 512 ∧ evS.claimable 0 8 = true ∧ ∀ m, m < 512 → evS.claimable 0 m = true →
      evS.f (Fld.EVT_ROUTE_PRIO m) < evS.f (Fld.EVT_ROUTE_PRIO 8) ∨
      (evS.f (Fld.EVT_ROUTE_PRIO m) = evS.f (Fld.EVT_ROUTE_PRIO 8) ∧ 8 ≤ m)) :=
  ⟨met (by decide +kernel), met (by decide +kernel)⟩

/-- A list that ends beyond the rule store; the tables in force with rule 0 locked; a window that sets `LOCK` anew. -/
def badList : State := withF [(Fld.FWL_TGT_FIRST 206, 4095), (Fld.FWL_TGT_COUNT 206, 2)]
def lockedRule : State := { withR [(Adr.FWL_STAT, 0x8000_0000)] with fwl := { rules := [(3, 0x4000_0000)] } }
def lockingWindow : State := withR [(Adr.FWL_STAT, 0x8000_0000), (Adr.FWL_RULE_W 3, 0x4000_0000)]

theorem met_AccessTablesAreWritten :
    Met State.reset (0x10C4 % 65536 = 0x10C4 ∧ State.reset.listsOk = true) ∧
    Met badList (0x10C4 % 65536 = 0x10C4 ∧ badList.listsOk = false) ∧
    Met State.reset ((0x10C5 : Nat) % 65536 ≠ 0x10C4) ∧ Met State.reset ((4095 : Nat) < 4096) ∧
    Met lockedRule (spWf (fun _ => (0 : Word)) lockedRule.fwl.rules = true ∧ lockedRule.fb Fld.FWL_STAT_ENFORCE = true ∧
      bitOf (lockedRule.rule (lockedRule.f Fld.FWL_RULE_SEL_IDX) 3) 30 = true) ∧
    Met lockingWindow (lockingWindow.fb Fld.FWL_STAT_ENFORCE = true ∧
      bitOf ((lockingWindow.reg (Adr.FWL_RULE_W 3)).toNat &&& 0xE0000007) 30 = true ∧ bitOf (lockingWindow.rule 0 3) 30 = false) ∧
    Met State.reset (spWf (fun _ => (0 : Word)) State.reset.fwl.rules = true ∧ State.reset.fb Fld.FWL_STAT_ENFORCE = false) :=
  ⟨met (by decide +kernel), met (by decide +kernel), met (by decide), met (by decide), met (by decide), met (by decide), met (by decide)⟩

/-! ### Hypotheses met: life cycle, test multiplexer, debug port -/

theorem met_LifeCycleNoncesAndGuards : Met State.reset ((255 : Nat) < 256) := met (by decide)

/-- A state of the life cycle. -/
def atLc (n : Nat) : State := { State.reset with lcs := { State.reset.lcs with state := n } }

theorem met_LifeCyclePerforms_states : (State.reset.lcs.state ≤ 5 ∧ (atLc 5).lcs.state ≤ 5) ∧ (atLc 0).lcAllowed 1 1 = true ∧
    (atLc 4).lcAllowed 1 5 = true ∧ (atLc 5).lcAllowed 1 5 = false ∧ (atLc 3).lcAllowed 1 5 = true := by decide

theorem met_DebugAndScanPorts :
    Met (atLc 3) ((7 : Nat) < 8 ∧ (atLc 3).lcs.state = 3) ∧ Met (atLc 5) ((0 : Nat) < 8 ∧ (atLc 5).lcs.state = 5) ∧
    Met (atLc 4) ((7 : Nat) < 8 ∧ (atLc 4).lcs.state ≠ 3 ∧ (atLc 4).lcs.state ≠ 5) ∧
    Met State.reset (State.reset.fb Fld.LCS_DBG_OPEN = false) ∧
    Met (withR [(Adr.LCS_DBG, 0x8000_0000)]) ((withR [(Adr.LCS_DBG, 0x8000_0000)]).fb Fld.LCS_DBG_OPEN = true ∧
      (withR [(Adr.LCS_DBG, 0x8000_0000)]).fb Fld.LCS_DBG_MAKER = false) ∧
    Met (withR [(Adr.LCS_DBG, 0xC000_0000)]) ((withR [(Adr.LCS_DBG, 0xC000_0000)]).fb Fld.LCS_DBG_OPEN = true ∧
      (withR [(Adr.LCS_DBG, 0xC000_0000)]).fb Fld.LCS_DBG_MAKER = true ∧ bitOf 16 4 = true ∧
      bitOf (withR [(Adr.LCS_DBG, 0xC000_0000)]).lcs.halted 4 = false) :=
  ⟨met (by decide), met (by decide), met (by decide), met (by decide), met (by decide), met (by decide)⟩


/-! ### A customer key

Witnesses for requests that a customer's key signs. For a message of digest e, the signature r = s = e verifies under the key Q = R − G,
where R is the point of the curve whose x is e: both multipliers are then 1. -/

theorem ecMul_zero : ∀ (n : Nat) (a r : Option (Nat × Nat)), ecMul n 0 a r = r
  | 0, _, _ => rfl
  | n + 1, _, _ => (ecMul_zero n _ _ : ecMul n (0 / 2) _ _ = _)

theorem ecMul_one (n : Nat) (a : Nat × Nat) : ecMul (n + 1) 1 (some a) none = some a := ecMul_zero n _ _

/-- A signature verifies where both multipliers are 1 and G + Q has x = r. -/
theorem verify_of {key msg sig : List Byte} (hk : key.length = 96 ∧ sig.length = 96)
    (hr : ofBe (sig.take 48) ≠ 0 ∧ ofBe (sig.take 48) < n384) (hs : ofBe ((sig.drop 48).take 48) ≠ 0 ∧ ofBe ((sig.drop 48).take 48) < n384)
    (hq : ofBe (key.take 48) < p384 ∧ ofBe ((key.drop 48).take 48) < p384 ∧
      ofBe ((key.drop 48).take 48) * ofBe ((key.drop 48).take 48) % p384 =
        (ofBe (key.take 48) * ofBe (key.take 48) * ofBe (key.take 48) + (p384 - 3) * ofBe (key.take 48) + b384) % p384)
    (h1 : ofBe (sha384 msg) * invMod n384 (ofBe ((sig.drop 48).take 48)) % n384 = 1)
    (h2 : ofBe (sig.take 48) * invMod n384 (ofBe ((sig.drop 48).take 48)) % n384 = 1)
    (h3 : (ecAdd (some g384) (some (ofBe (key.take 48), ofBe ((key.drop 48).take 48)))).map (fun p => p.1 % n384) =
      some (ofBe (sig.take 48))) : ecdsaVerify key msg sig = true := by
  have hg : ¬(key.length ≠ 96 ∨ sig.length ≠ 96 ∨ ofBe (sig.take 48) = 0 ∨ n384 ≤ ofBe (sig.take 48) ∨
      ofBe ((sig.drop 48).take 48) = 0 ∨ n384 ≤ ofBe ((sig.drop 48).take 48) ∨ p384 ≤ ofBe (key.take 48) ∨
      p384 ≤ ofBe ((key.drop 48).take 48) ∨ ofBe ((key.drop 48).take 48) * ofBe ((key.drop 48).take 48) % p384 ≠
        (ofBe (key.take 48) * ofBe (key.take 48) * ofBe (key.take 48) + (p384 - 3) * ofBe (key.take 48) + b384) % p384) := by omega
  unfold ecdsaVerify
  simp only [if_neg hg, h1, h2, ecMul_one]
  revert h3
  cases ecAdd (some g384) (some (ofBe (key.take 48), ofBe ((key.drop 48).take 48))) with
  | none => intro h; cases h
  | some p => intro h; simpa using h

/-- 96 bytes in 24 registers from word address `a`. -/
def put96 (a : Nat) (b : List Byte) : List (Nat × Word) := (List.range 24).map fun i => (a + i, BitVec.ofNat 32 (leAt b (4 * i) 4))

/-- `INTEGRATE` with the customer key (x, y), the signature (e, e) and the nonce `n`. -/
def keyed (n : BitVec 64) (e x y : Nat) (f : LcsSt → LcsSt) : State :=
  { State.reset with
    regs := put96 (Adr.LCS_TOKEN 0) (beBytes 48 e ++ beBytes 48 e) ++ put96 (Adr.LCS_PUBKEY 0) (beBytes 48 x ++ beBytes 48 y),
    lcs := f { State.reset.lcs with state := 2, nonce := some n, custHash := some (sha384 (beBytes 48 x ++ beBytes 48 y)) } }

/-- What `lifeCycleCode` checks, in its order. -/
theorem lifeCycleCode_one {s : State} {op arg : Nat} {blows : Bool} {n : BitVec 64} (ha : s.lcAllowed op arg = true)
    (hn : s.lcs.nonce = some n) (hs : s.lcSlots op arg = true) (hm : s.lcMaker op arg = false)
    (hh : s.lcs.custHash = some (sha384 s.pubKey)) (hv : ecdsaVerify s.pubKey (s.lcMsg op arg n) (s.words (Adr.LCS_TOKEN 0) 24) = true) :
    lifeCycleCode s op arg blows true = 1 := by
  simp [lifeCycleCode, ha, hn, hs, hm, hh, hv]

def keyTransition : State :=
  keyed 1 0x974D4DE8EFAAD31271706805ECAE86840A6F1FE02C2C93B6B5CEDC5012435AF04410BCFD54CA5E87C2A18F292EDAA177
    0x49ED68F74E8D19C5B61116212817F8B8018030E57152E74A4360BBD54CEB158DE0069D45D2C0A968919E3A315A003E04
    0xAA506796604E1152213E93C90C8405337065C18255FF5FAD33DDAF951AEBEFEBAF99932F7A7BCC49D98AEA4B61BBA0AB
    (fun l => { l with cfgHash := some [], lgrHash := some [] })

def keyDebug : State :=
  keyed 0 0xA144EE7F929190A1CF4FB6F6F5E65D470669CF1596BFCBABF1FC5A80ED49FC0C491CA03B330D89F81D211ECCD04B80D7
    0xB09F458FDCB55EC1C3685DF1BF151419A9A58CF4223DA28CB95AD9B960F657614F3567E0D201F250F502FCBC9B091D15
    0x6DC76A4067C5E310DCFAEE5ACD67CF971DABABC35BAEF826C3C9100F8C144D3E6E9DBCA4B4D94B56DBCC7C412DA23761
    id

def keyProgram : State :=
  keyed 1 0xFC5CBEBAA7FAC3BCC55DE57C1B29F8522F7C32B43687208EBE96B9E312D2295AD1902C51E45715A284FA1F9453212EA1
    0x7CD4962DFCC3CA6FCFBFC601E07EB43B9921454224D1EBB82D2504967AE23D91C8D00B8D17CDB79FB5ED2F7096773FE8
    0x2EE9827CC510A7F96EC028335DCAA18E139305B718D48AEA961CF342EC4EB09A815CFB7DC017543F2735EF1A824709C7
    id

def keySecret : State :=
  keyed 0 0xCE1436DC4644742A4673AB562E51F184958B934893450E20294DB8BDA18512FA55355516279CACFE45E84B1DC3BD1BFE
    0xEE6CEDD5A8326FC85E0D9E5424CB880A73D4D71353613EE141C2E16DA27D883288BF03DA7FDF20104FF333D12C6972D6
    0xC4F003DB6C364D64AB1D5526DF2F1A7C61B202149498F232086CF6C321F947C15467C8B73B58C2C41BE31A7E01ABC130
    id

theorem met_keyTransition : Met keyTransition ((3 : Nat) < 256 ∧ lifeCycleCode keyTransition 1 3 true true = 1) :=
  met ⟨by decide, by decide +kernel, by decide, lifeCycleCode_one (n := 1) (by decide +kernel) rfl (by decide +kernel)
    (by decide +kernel) (by decide +kernel)
    (verify_of (by decide +kernel) (by decide +kernel) (by decide +kernel) (by decide +kernel) (by decide +kernel) (by decide +kernel)
      (by decide +kernel))⟩

theorem met_keyDebug : Met keyDebug ((0 : Nat) < 256 ∧ lifeCycleCode keyDebug 2 0 false true = 1) :=
  met ⟨by decide, by decide +kernel, by decide, lifeCycleCode_one (n := 0) (by decide +kernel) rfl (by decide +kernel)
    (by decide +kernel) (by decide +kernel)
    (verify_of (by decide +kernel) (by decide +kernel) (by decide +kernel) (by decide +kernel) (by decide +kernel) (by decide +kernel)
      (by decide +kernel))⟩

theorem met_keyProgram : Met keyProgram ((1 : Nat) < 256 ∧ lifeCycleCode keyProgram 4 1 true true = 1) :=
  met ⟨by decide, by decide +kernel, by decide, lifeCycleCode_one (n := 1) (by decide +kernel) rfl (by decide +kernel)
    (by decide +kernel) (by decide +kernel)
    (verify_of (by decide +kernel) (by decide +kernel) (by decide +kernel) (by decide +kernel) (by decide +kernel) (by decide +kernel)
      (by decide +kernel))⟩

theorem met_keySecret : Met keySecret ((0 : Nat) < 256 ∧ lifeCycleCode keySecret 5 0 true true = 1) :=
  met ⟨by decide, by decide +kernel, by decide, lifeCycleCode_one (n := 0) (by decide +kernel) rfl (by decide +kernel)
    (by decide +kernel) (by decide +kernel)
    (verify_of (by decide +kernel) (by decide +kernel) (by decide +kernel) (by decide +kernel) (by decide +kernel) (by decide +kernel)
      (by decide +kernel))⟩


/-! ### Hypotheses met: fabric, deeds, register writes, block reset -/

/-- The device with the main island out of reset, its memories cleared and DRAM trained. -/
def up (l : List (RF × Nat)) : State :=
  { withF (l ++ [(Fld.DRC_STAT_TRAINED, 1)]) with pwr := { State.reset.pwr with mainHeld := false }, mm := { State.reset.mm with cleared := true } }

/-- A request of `n` bytes. -/
def rq (m : Nat) (k : Acc) (a n : Nat) : Req := ⟨m, k, a, n, List.replicate (if k = .write then n else 0) 0xA5, []⟩

/-- The tables in force without any rule. -/
def enforced : State := up [(Fld.FWL_STAT_ENFORCE, 1)]

theorem met_FabricChecksRequests :
    (State.reset.pwr.on = true ∧ (rq 27 .read 0x1100_0000 4).master < 28 ∧ regionOf (rq 27 .read 0x1100_0000 4).addr = .none) ∧
    (rq 0 .read 0 0).size = 0 ∧ regionOf (0x0003_FFFC + 8 - 1) ≠ regionOf 0x0003_FFFC ∧ 2 ^ 40 < 2 ^ 40 - 1 + 2 ∧
    (regionOf 0x0100_0000 = .shp ∧ (3 : Nat) ≠ 4) ∧
    (enforced.pwr.on = true ∧ regionOf 0x1000_0000 = .sram ∧ regionOf (0x1000_0000 + 8 - 1) = regionOf 0x1000_0000 ∧
      enforced.uncovered 0 .write 0x1000_0000 8 = some (26, 0)) ∧
    (enforced.pwr.on = true ∧ enforced.uncovered 4 .read 0x0100_0000 4 = none) ∧
    (State.reset.fb Fld.FWL_VIOL_LAST_A_VALID = false ∧ (206 : Nat) < 256 ∧ (31 : Nat) < 32) := by decide +kernel

/-- The last bytes of the last bank, held by master 0; the same bank held by another. -/
theorem met_SharedSramAccesses :
    let s := up [(Fld.MEM_DEED_HOLDER 63, 0)]
    Met s (s.memWf = true ∧ s.f Fld.FWL_STAT_ENFORCE = 0 ∧ sramBase ≤ 0x10FF_FFF8 ∧ 0x10FF_FFF8 + 8 ≤ sramBase + 0x100_0000 ∧
      s.deedOk 0 .write 0x10FF_FFF8 8 = true ∧ s.available 0x10FF_FFF8 8 = true ∧ s.mm.ecc = [] ∧
      (rq 0 .write 0x10FF_FFF8 8).data.length = 8 ∧ s.deedOk 1 .write 0x10FF_FFF8 8 = false ∧ Acc.read ≠ .write) :=
  met (by decide +kernel)

theorem met_DeedPassesAndRefusals :
    Met State.reset ((63 : Nat) < 64 ∧ State.reset.mm.march.contains ⟨0, 63, false⟩ = false ∧ (4 : Nat) = 4 ∧ (27 : Nat) < 28) ∧
    Met State.reset (State.reset.holder 63 = State.reset.holder 63 ∧ (3 : Nat) ≠ State.reset.holder 63 ∧ (28 : Nat) ≤ 28) ∧
    (let s : State := { withF [(Fld.MEM_DEED_HOLDER 63, 27)] with mm := { State.reset.mm with march := [⟨0, 63, false⟩] } }
     Met s (s.mm.march.contains ⟨0, 63, false⟩ = true ∧ (27 : Nat) = s.holder 63 ∧ (26 : Nat) < 27)) :=
  ⟨met (by decide), met (by decide), met (by decide)⟩

/-- Block 143 under reset. -/
def inRst : State := { State.reset with fab := { State.reset.fab with inReset := [⟨143, 0, 0⟩] } }

theorem met_RegisterWriteByAccessType :
    (∃ r : FRow, r.lo ≤ r.hi ∧ r.hi < 32 ∧ r.ty = .rwl) ∧
    (State.reset.pwr.on = true ∧ State.reset.inReset (28 * 1024 / 1024) = false ∧ 28 * 1024 ≤ 31 * 1024 + 1023 ∧ 31 * 1024 + 1023 < 32 * 1024) ∧
    (State.reset.inReset 146 = false ∧ (146 * 1024 + 8) / 1024 = 146 ∧ 8 ≤ (146 * 1024 + 8) % 1024) ∧
    (inRst.pwr.on = true ∧ inRst.inReset ((143 * 1024 + 1023) / 1024) = true ∧ 143 * 1024 + 1023 < 153 * 1024) :=
  ⟨⟨⟨31, 0, .rwl, 0⟩, by decide⟩, by decide⟩

theorem met_BlockResetAndItsEnd :
    (State.reset.pwr.on = true ∧ State.reset.pageOk 151 = true ∧ fixedPage 151 = false ∧ State.reset.inReset 151 = false) ∧
    (State.reset.pageOk 0 = true ∧ fixedPage 0 = true) ∧
    (inRst.pwr.on = true ∧ inRst.inReset 143 = true) ∧
    (let s : State := { inRst with regs := [(canon Adr.LGR_CFG, State.reset.reg Adr.LGR_CFG ||| 0x8000_0000)] }
     s.inReset 143 = true ∧ s.f Fld.LGR_CFG_EN = 1 ∧ s.lgr.queue.length < 256) := by decide

/-! ### Hypotheses met: memories and DMA -/

/-- A correctable mark in the last half of bank 0, tracked as the device bank. -/
def marked (l : List (RF × Nat)) : State := { withF l with mm := { State.reset.mm with ecc := [(0x1003_FFF8, 1)] } }

theorem met_MemoryErrorsAreHandled :
    Met State.reset (State.reset.f Fld.MEM_PROMOTE_COUNT = 0) ∧
    Met (withF [(Fld.MEM_PROMOTE_COUNT, 2 ^ 31 - 1)]) (2 ^ 31 - 1 ≤ (withF [(Fld.MEM_PROMOTE_COUNT, 2 ^ 31 - 1)]).f Fld.MEM_PROMOTE_COUNT + 1) ∧
    Met (marked []) (spWf (fun _ => 0) (marked []).mm.ecc = true ∧ (marked []).eccAt 0x1003_FFFF = 1 ∧ (marked []).windowClosed 0x1003_FFFF = false) ∧
    (let s := marked [(Fld.TIM_BEAT_STAT_RUN, 1), (Fld.TIM_BEAT_STAT_BEAT, 36), (Fld.PAR_SBX_DEV_BANK, 0), (Fld.PAR_CFG_PAIR_EN, 1)]
     Met s (spWf (fun _ => 0) s.mm.ecc = true ∧ s.eccAt 0x1003_FFF8 = 1 ∧ s.windowClosed 0x1003_FFF8 = true)) ∧
    (let s := withF [(Fld.MEM_CFG_SCRUB_EN, 1)]
     Met s (s.mm.ecc = [] ∧ s.running = false ∧ s.fb Fld.MEM_CFG_SCRUB_EN = true ∧ inSram 0x10FF_FFF8 = true ∧ 0x10FF_FFF8 % 8 = 0)) ∧
    (let s := withF [(Fld.DRC_SCRUB_EN, 1)]
     Met s (s.mm.ecc = [] ∧ s.running = false ∧ s.fb Fld.DRC_SCRUB_EN = true ∧ inDram 0x09_BFFF_FFF8 = true ∧ 0x09_BFFF_FFF8 % 8 = 0)) :=
  ⟨met (by decide), met (by decide), met (by decide), met (by decide), met (by decide), met (by decide)⟩

theorem met_MarchTestsAndBringUp :
    Met (withF [(Fld.MEM_DEED_HOLDER 63, 27)]) ((63 : Nat) < 64 ∧ (withF [(Fld.MEM_DEED_HOLDER 63, 27)]).mm.march = [] ∧
      (withF [(Fld.MEM_DEED_HOLDER 63, 27)]).holder 63 = 27) ∧
    Met State.reset (State.reset.mm.march = [] ∧ State.reset.holder 0 ≠ 27 ∧ State.reset.memWf = true ∧ State.reset.mm.cleared = false ∧
      State.reset.fb Fld.DRC_STAT_TRAINED = false ∧ (7 : Nat) < 8) ∧
    (let s : State := { withF [(Fld.SYS_START_STEP, 2)] with mm := { State.reset.mm with march := [⟨0, 63, false⟩] } }
     Met s (s.mm.march ≠ [] ∧ s.mm.march = [⟨0, 63, false⟩] ∧ s.f Fld.SYS_START_STEP ≠ 1 ∧ 0x3_FFFF < 0x4_0000)) :=
  ⟨met (by decide), met (by decide), met (by decide)⟩

/-- A DMA channel 31 with the engine enabled. -/
def dma (l : List (RF × Nat)) : State := up ([(⟨hdr 143 2, 2, 2⟩, 1)] ++ l)

theorem met_DmaStartsAndStops :
    Met (dma [(Fld.DMA_STAT_BUSY 31, 1)]) ((31 : Nat) < 32 ∧ (dma [(Fld.DMA_STAT_BUSY 31, 1)]).dmaBusy 31 = true ∧
      (dma [(Fld.DMA_STAT_BUSY 31, 1)]).dma.stopping.contains 31 = false) ∧
    (let s := dma [(Fld.DMA_SRC_LO_ADDR 31, 0x1000_0000), (Fld.DMA_DST_LO_ADDR 31, 0x1000_0004), (Fld.DMA_COUNT_BYTES 31, 4)]
     Met s (s.dmaBusy 31 = false ∧ s.fb Fld.DMA_GLOBAL_HALT = false ∧ s.fb Fld.DMA_GLOBAL_BUS_ERR = false ∧ s.works 143 = true ∧
       s.dmaRefused 31 = 0 ∧ s.f (Fld.DMA_COUNT_BYTES 31) ≠ 0)) ∧
    (let s := dma [(Fld.DMA_COUNT_BYTES 0, 2)]
     Met s (s.dmaBusy 0 = false ∧ s.fb Fld.DMA_GLOBAL_HALT = false ∧ s.fb Fld.DMA_GLOBAL_BUS_ERR = false ∧ s.works 143 = true ∧ s.dmaRefused 0 = 4)) ∧
    (let s : State := { dma [(Fld.DMA_STAT_BUSY 31, 1)] with dma := { State.reset.dma with stopping := [31] } }
     Met s (s.dmaBusy 31 = true ∧ s.dma.stopping.contains 31 = true ∧ s.dmaPace 31 = none)) ∧
    Met State.reset (State.reset.works 143 = false) :=
  ⟨met (by decide), met (by decide), met (by decide), met (by decide), met (by decide)⟩

theorem met_DmaHaltsAndCompletes :
    let s := dma [(Fld.DMA_STAT_BUSY 31, 1), (Fld.DMA_COUNT_BYTES 31, 4)]
    Met s ((31 : Nat) < 32 ∧ s.dmaActs 31 = true ∧ s.dmaPace 31 = none ∧ s.dmaBusy 31 = true ∧ s.dmaBusy 0 = false ∧
      s.fb (Fld.DMA_CTRL_LINK 31) = false ∧ s.fb (Fld.DMA_CTRL_IRQ 31) = false) :=
  met (by decide)


/-! ### Hypotheses met: power, resets, start-up -/

theorem met_PowerStatesFollowWaiting :
    (let s := withF [(Fld.PWR_STAT_STATE, 3)]
     s.pwr.on = true ∧ s.f Fld.PWR_STAT_STATE = 3 ∧ ((s.setWaiting 0).coreInterrupt = true ∨ (s.setWaiting 0).powerWant true ≠ 3)) ∧
    (let s := withF [(Fld.PAR_STAT_ROLE, 1), (Fld.SYS_START_STEP, 4), (Fld.TIM_BEAT_STAT_RUN, 1)]
     s.pwr.on = true ∧ s.f Fld.PWR_STAT_STATE < 2 ∧ 2 ≤ (s.setWaiting 15).powerWant true ∧ s.running = true) ∧
    (State.reset.pwr.on = true ∧ State.reset.f Fld.PWR_STAT_STATE ≠ 3 ∧ State.reset.running = false) := by decide +kernel

/-- A unit in `DOZE` that may stay there: all idle, every tolerance, lanes off. -/
theorem met_PowerStatesFollowWaiting_doze :
    let s := withF ([(Fld.PWR_STAT_STATE, 3), (Fld.SYS_START_STEP, 4)] ++ (List.range 8).map fun i => (Fld.PWR_LAT_TOL_EN i, 0))
    s.pwr.on = true ∧ s.f Fld.PWR_STAT_STATE = 3 ∧ (s.setWaiting 15).coreInterrupt = false ∧ (s.setWaiting 15).powerWant true = 3 := by
  decide +kernel

theorem met_PowerChangesTakeEffect :
    (State.reset.regsWf ∧ (2 : Nat) ≤ 2 ∧ State.reset.f Fld.PWR_STAT_STATE ≠ 2) ∧
    Met (withF [(Fld.PWR_STAT_STATE, 1), (Fld.PWR_STAT_LANES_ON, 0), (Fld.PAR_STAT_ROLE, 2)])
      ((withF [(Fld.PWR_STAT_STATE, 1), (Fld.PWR_STAT_LANES_ON, 0), (Fld.PAR_STAT_ROLE, 2)]).memWf = true ∧
       (withF [(Fld.PWR_STAT_STATE, 1), (Fld.PWR_STAT_LANES_ON, 0), (Fld.PAR_STAT_ROLE, 2)]).f Fld.PWR_STAT_STATE ≤ 1 ∧
       (withF [(Fld.PWR_STAT_STATE, 1), (Fld.PWR_STAT_LANES_ON, 0), (Fld.PAR_STAT_ROLE, 2)]).fb Fld.PWR_STAT_LANES_ON = false ∧
       2 ≤ (withF [(Fld.PWR_STAT_STATE, 1), (Fld.PWR_STAT_LANES_ON, 0), (Fld.PAR_STAT_ROLE, 2)]).role) :=
  ⟨⟨⟨by decide⟩, by decide⟩, met (by decide)⟩

/-- Safety functions in operation in the given phase. -/
def saf (p : Nat) (l : List (RF × Nat)) : State :=
  { withF ([(Fld.SAF_CFG_EN, 1), (Fld.SAF_STATE_PHASE, p)] ++ l) with
    saf := { State.reset.saf with kept := true },
    pwr := { State.reset.pwr with mainHeld := false, shpWaiting := false } }

theorem met_SuppliesAreGuarded :
    Met State.reset (0x0FF0 % 65536 = 0x0FF0 ∧ State.reset.safPhase = 0) ∧
    Met (saf 2 []) ((saf 2 []).safPhase ≠ 0 ∧ (saf 2 []).safPhase ≠ 1 ∧ (saf 2 []).safPhase ≠ 4) ∧
    Met State.reset (0x10FF1 % 65536 ≠ 0x0FF0 ∧ (1023 : Nat) < 1024 ∧ State.reset.pwr.avsFails < 2) ∧
    (let s : State := { State.reset with pwr := { State.reset.pwr with avsFails := 2 } }
     Met s (2 ≤ s.pwr.avsFails ∧ s.fb Fld.PWR_AVS_FIXED = false ∧ s.muted = false)) :=
  ⟨met (by decide), met (by decide), met (by decide), met (by decide)⟩

theorem met_WatchdogAndSoftwareReset :
    (let s := withF [(Fld.SYS_WDT_CFG_EN, 1)]
     Met s (s.wdtCounts = true ∧ s.pwr.wdtHalf = false)) ∧
    (let s : State := { withF [(Fld.SYS_WDT_CFG_EN, 1)] with pwr := { State.reset.pwr with wdtHalf := true } }
     Met s (s.wdtCounts = true ∧ s.pwr.wdtHalf = true)) ∧
    Met State.reset (0xFFFF_C0DE % 65536 = 0xC0DE ∧ 0xC0DF % 65536 ≠ 0xC0DE ∧ 0x5E7A % 65536 = 0x5E7A ∧ 0 % 65536 ≠ 0x5E7A) :=
  ⟨met (by decide), met (by decide), met (by decide)⟩

theorem met_ColdResetsAndFaults :
    (State.reset.pwr.vaon = true ∧ State.reset.pwr.on = true) ∧ (dark.pwr.vaon = true ∧ dark.pwr.on = false) ∧
    (State.reset.pwr.mainHeld = true ∧ State.reset.pwr.railBad = false) ∧
    (let s : State := { State.reset with pwr := { State.reset.pwr with railBad := true } }
     s.pwr.on = true ∧ s.pwr.mainHeld = true ∧ s.pwr.railBad = true) := by decide

theorem met_StartUpStepsInOrder :
    (let s : State := { withF [(Fld.DRC_STAT_TRAINED, 1), (Fld.NFC_STAT_STATE, 4)] with
       pwr := { State.reset.pwr with mainHeld := false }, mm := { State.reset.mm with cleared := true },
       lgr := { State.reset.lgr with scanned := true } }
     spWf regReset s.regs = true ∧ s.f Fld.SYS_START_STEP = 0 ∧ s.pwr.mainHeld = false ∧ s.f Fld.NFC_STAT_STATE ≠ 1 ∧ s.lgr.scanned = true ∧
       (s.warmStart || (s.mm.cleared && s.fb Fld.DRC_STAT_TRAINED)) = true) ∧
    (State.reset.pwr.mainHeld ≠ false) ∧
    (let s := withF [(Fld.SYS_START_STEP, 2), (Fld.FWL_STAT_ENFORCE, 1)]
     s.pwr.on = true ∧ spWf regReset s.regs = true ∧ s.f Fld.SYS_START_STEP = 2 ∧ s.fb Fld.FWL_STAT_ENFORCE = true ∧ s.shpRuns = false) ∧
    (State.reset.f Fld.SYS_START_STEP ≠ 2 ∧ State.reset.pwr.shpSection = none) ∧
    (let s : State := { up [] with pwr := { (up []).pwr with shpSection := some (0, 256) } }
     s.pwr.on = true ∧ s.pwr.shpSection = some (0, 256) ∧ (s.mRead 4 (bankAddr 0 0) 256).rsp = .okay) ∧
    (let s : State := { State.reset with pwr := { State.reset.pwr with shpSection := some (63, 256) } }
     s.pwr.on = true ∧ s.pwr.shpSection = some (63, 256) ∧ (s.mRead 4 (bankAddr 63 0) 256).rsp ≠ .okay) := by decide +kernel

/-- A running object in slot 0, and the flash manager ready. -/
def served : State :=
  { up [(Fld.NFC_STAT_STATE, 2), (Fld.NFC_CFG_EN, 1), (Fld.PAR_STAT_ROLE, 3), (⟨hdr 149 2, 2, 2⟩, 1)] with
    nfc := { State.reset.nfc with objs := [{ part := 1, index := 0, wseq := 0, data := [1, 2, 3], blocks := [] }] } }

theorem met_BootSourcesAndRequests :
    (let s : State := { State.reset with pwr := { State.reset.pwr with bootWait := true } }
     Met s (s.pwr.bootWait = true)) ∧
    (let s : State := { State.reset with pwr := { State.reset.pwr with bootPartner := true } }
     Met s (s.pwr.bootPartner = true ∧ s.pwr.bootGot = [] ∧ ([] : List Byte).length ≤ 65536 ∧ bootMsgOk [] = false ∧
       (bootObject s.pwr.bootGot).length < 2 ^ 32)) ∧
    (served.pwr.on = true ∧ served.works 149 = true ∧ served.role ≠ 0 ∧ served.pwr.bootServe = none ∧ served.nfcReads = true ∧
      ∃ o, served.objAt (1 + served.f Fld.NFC_STAT_RUN_SLOT) 0 = some o ∧ o.lost = []) :=
  ⟨met (by decide), met ⟨by decide, by decide, by decide, by decide, by decide, by decide, by decide⟩,
   by decide, by decide, by decide, by decide, by decide, ⟨1, 0, 0, [1, 2, 3], [], []⟩, by decide, rfl⟩


/-! ### Hypotheses met: beats and frames -/

/-- `ENABLE` of the block on page `p`. -/
def en (p : Nat) : RF × Nat := (⟨hdr p 2, 2, 2⟩, 1)

/-- Beats run, at beat `b`. -/
def run (b : Nat) (l : List (RF × Nat)) : State := up ([(Fld.TIM_BEAT_STAT_RUN, 1), (Fld.TIM_BEAT_STAT_BEAT, b)] ++ l)

theorem met_BeatsCountAndStart :
    Met (run 39 []) ((run 39 []).running = true ∧ (run 39 []).f Fld.TIM_BEAT_STAT_REALIGN = 0) ∧
    Met (run 0 [(Fld.TIM_BEAT_STAT_REALIGN, 1)]) ((run 0 [(Fld.TIM_BEAT_STAT_REALIGN, 1)]).f Fld.TIM_BEAT_STAT_REALIGN = 1 ∧
      (run 0 [(Fld.TIM_BEAT_STAT_REALIGN, 1)]).frm.realignErr = 0) ∧
    (let s := up [(Fld.TIM_STAT_ACQUIRED, 1)]
     Met s (s.fb Fld.TIM_STAT_ACQUIRED = true ∧ s.running = false)) ∧
    (let s : State := { up [(Fld.TIM_BEAT_CTRL_ALLOW_FREE, 1)] with frm := { State.reset.frm with startTmo := true } }
     Met s (s.fb Fld.TIM_STAT_ACQUIRED = false ∧ s.frm.startTmo = true ∧ s.fb Fld.TIM_BEAT_CTRL_ALLOW_FREE = true ∧ s.running = false)) :=
  ⟨met (by decide), met (by decide), met (by decide), met (by decide)⟩

theorem met_PersistenceThresholdsAct :
    (let s := run 0 [(Fld.TIM_OVR_RUN_PERSIST, 1), (Fld.TIM_OVR_RUN_RUN, 1)]
     Met s (s.running = true ∧ max 1 (s.f Fld.TIM_OVR_RUN_PERSIST) ≤ s.f Fld.TIM_OVR_RUN_RUN ∧ s.role < 2)) ∧
    (let s := run 0 [(Fld.TIM_OVR_RUN_PERSIST, 255), (Fld.TIM_OVR_RUN_RUN, 255), (Fld.PAR_STAT_ROLE, 2)]
     Met s (s.running = true ∧ max 1 (s.f Fld.TIM_OVR_RUN_PERSIST) ≤ s.f Fld.TIM_OVR_RUN_RUN ∧ 2 ≤ s.role)) ∧
    (let s := run 0 [(Fld.TIM_OVR_RUN_RUN, 0)]
     Met s (¬max 1 (s.f Fld.TIM_OVR_RUN_PERSIST) ≤ s.f Fld.TIM_OVR_RUN_RUN ∧ s.frameOverran = false)) ∧
    (let s := run 0 [(Fld.CLE_MODE_CUR, 1), (Fld.CLE_FENCE_DWELL_FRAMES, 65535), (Fld.CLE_FENCE_STAT_DWELL_CNT, 65535)]
     Met s (s.mode = 1 ∧ s.fb Fld.CLE_MODE_GRAZING = false ∧ max 1 (s.f Fld.CLE_FENCE_DWELL_FRAMES) ≤ s.f Fld.CLE_FENCE_STAT_DWELL_CNT)) ∧
    Met State.reset (¬State.reset.mode = 1) :=
  ⟨met (by decide), met (by decide), met (by decide), met (by decide), met (by decide)⟩

theorem met_FrameStagesAndPublication :
    (let s : State := { up [en 37, en 42] with fus := { State.reset.fus with latch := true }, asm := { State.reset.asm with listed := true } }
     s.pwr.on = true ∧ s.fus.latch = true ∧ s.frm.fusDone = false ∧ s.works 37 = true ∧ s.asm.listed = true ∧ s.frm.asmDone = false ∧
       s.works 42 = true) ∧
    (let s : State := { State.reset with lsc := { State.reset.lsc with lane := setNth State.reset.lsc.lane 95 { job := some 0, phase := 1 } } }
     s.pwr.on = true ∧ (s.laneOf 95).job = some 0 ∧ s.loadsNext 95 = true ∧ (s.laneOf 95).phase = 1) ∧
    (let s : State := { State.reset with lsc := { State.reset.lsc with lane := setNth State.reset.lsc.lane 95 { job := some 0, phase := 2 } } }
     (s.laneOf 95).job = some 0 ∧ (s.laneOf 95).phase = 2) ∧
    (let s : State := { State.reset with lsc := { State.reset.lsc with lane := setNth State.reset.lsc.lane 0 { waiting := some ([], []) } } }
     s.lanesWait = true ∧ s.inReset 44 = false) ∧
    (let s : State := { run 34 [en 150] with frm := { State.reset.frm with runs := true }, lsc := { State.reset.lsc with passed := true } }
     s.pwr.on = true ∧ s.running = true ∧ (s.beat = 34 ∨ s.beat = 35) ∧ s.frm.runs = true ∧ s.lsc.passed = true ∧ s.frm.cmdDone = false ∧
       s.works 150 = true) ∧
    (let s : State := { run 36 [en 150] with frm := { State.reset.frm with runs := true } }
     s.running = true ∧ 36 ≤ s.beat ∧ s.frm.runs = true ∧ s.frm.pubDone = false ∧ s.works 150 = true) := by decide +kernel

theorem met_ReplayPortMovesDatagrams :
    (let s : State := { up [en 10, (Fld.ETH_CFG_TX_EN 3, 1), (Fld.ETH_LINK_UP 3, 1), (Fld.CMD_RPL_CTRL_MODE, 1), (Fld.CMD_RPL_CTRL_PORT, 3)] with
       rpl := { State.reset.rpl with tx := [[[1], [2]]] } }
     Met s (s.rplReady (s.f Fld.CMD_RPL_CTRL_PORT) = true ∧ s.ethTxOn (s.f Fld.CMD_RPL_CTRL_PORT) = true ∧ s.rpl.tx = [[[1], [2]]] ∧
       s.muted = false)) ∧
    (let s : State := up [en 150, en 7, (Fld.ETH_CFG_RX_EN 0, 1), (Fld.ETH_LINK_UP 0, 1), (Fld.CMD_RPL_CTRL_MODE, 2)]
     Met s (s.replayRx (s.f Fld.CMD_RPL_CTRL_PORT) = true ∧ s.ethRxOn (s.f Fld.CMD_RPL_CTRL_PORT) = true ∧
       s.replayMine (List.replicate 12 0 ++ [8, 0, 0x45] ++ List.replicate 8 0 ++ [17] ++ List.replicate 12 0 ++
         beBytes 2 (s.f Fld.CMD_RPL_CTRL_UDP_PORT)) = true)) :=
  ⟨met (by decide +kernel), met (by decide +kernel)⟩

/-! ### Hypotheses met: fusion, grid engine -/

/-- Port 31 of type 1 owned by master 0, with a heading of 0 rad (KIND 2) in its window, taken at time 0. -/
def heading (x : FusPort) (l : List (RF × Nat)) : State :=
  let s := up (l ++ [(Fld.FUS_PORT_CFG_TYPE 31, 1), (Fld.FUS_PORT_CFG_OWNER 31, 0), (Fld.FUS_DEP_WORD 31 3, 2),
    (Fld.FUS_DEP_WORD 31 4, 0x1_0000), (Fld.FUS_DEP_WORD 31 11, 0x3F80_0000)])
  { s with fus := { s.fus with port := setNth s.fus.port 31 x } }

/-- Port 31 of type 6, with the header of a scan of one point. -/
def scan (x : FusPort) : State :=
  let s := up [(Fld.FUS_PORT_CFG_TYPE 31, 6), (Fld.FUS_PORT_CFG_OWNER 31, 0), (Fld.FUS_DEP_WORD 31 3, 0x1_0008)]
  { s with fus := { s.fus with port := setNth s.fus.port 31 x } }

theorem met_SamplesAndPortsAreGuarded_deposit :
    Met (heading {} []) ((31 : Nat) < 32 ∧ (15 : Nat) < 16 ∧ 0 = (heading {} []).f (Fld.FUS_PORT_CFG_OWNER 31) ∧
      (heading {} []).fusCheck 31 ((heading {} []).fusWindow 31) = 0 ∧ (heading {} []).ptype 31 ≠ 6 ∧
      (heading {} []).fusAge 31 ((heading {} []).fusWindow 31) = 0 ∧ ((heading {} []).fusOf 31).queue.length < 16 ∧
      1 ≠ (heading {} []).f (Fld.FUS_PORT_CFG_OWNER 31) ∧ ((heading {} []).fusOf 31).copies = []) ∧
    (let s := heading { queue := List.replicate 16 ⟨[], [], 0, 0, 0, none, false, false⟩ } []
     Met s (s.fusCheck 31 (s.fusWindow 31) = 0 ∧ s.ptype 31 ≠ 6 ∧ s.fusAge 31 (s.fusWindow 31) = 0 ∧ 16 ≤ (s.fusOf 31).queue.length)) ∧
    (let s := heading {} [(Fld.FUS_DEP_WORD 31 0, 2000000001)]
     Met s (s.fusCheck 31 (s.fusWindow 31) = 0 ∧ s.ptype 31 ≠ 6 ∧ s.fusAge 31 (s.fusWindow 31) = 5)) ∧
    (let s := up [(Fld.FUS_PORT_CFG_TYPE 0, 1)]
     Met s (s.fusCheck 0 (s.fusWindow 0) = 1)) ∧
    Met (scan { copies := [[1]] }) ((scan { copies := [[1]] }).fusCheck 31 ((scan { copies := [[1]] }).fusWindow 31) = 0 ∧
      (scan { copies := [[1]] }).ptype 31 = 6 ∧ ((scan { copies := [[1]] }).fusOf 31).copies = [1] :: []) :=
  ⟨met (by decide +kernel), met (by decide +kernel), met (by decide +kernel), met (by decide +kernel), met (by decide +kernel)⟩

theorem met_SamplesAndPortsAreGuarded_port :
    Met (withR [(hdr (Adr.FUS_PORT_CFG 31 / 1024) 7, 7)]) ((withR [(hdr (Adr.FUS_PORT_CFG 31 / 1024) 7, 7)]).locked (Adr.FUS_PORT_CFG 31) = true) ∧
    (let old := (State.reset.reg (Adr.FUS_PORT_CFG 31)).toNat
     Met State.reset (State.reset.locked (Adr.FUS_PORT_CFG 31) = false ∧ bitOf (0xF000_0000 : Word).toNat 2 = bitOf old 2 ∧
       State.reset.typeRefused 31 0xF000_0000 = true ∧ bitOf (0x0000_0004 : Word).toNat 2 ≠ bitOf old 2)) :=
  ⟨met (by decide), met (by decide)⟩

theorem met_GridEngineLoadsAndPasses :
    Met State.reset (State.reset.enabled 41 = false ∧ State.reset.gfe.pass = none) ∧
    (let s : State := { withF [en 41] with gfe := { State.reset.gfe with pass := some ⟨[], 0, [], 0⟩ } }
     Met s (s.enabled 41 = true ∧ s.gfe.pass = some ⟨[], 0, [], 0⟩)) :=
  ⟨met (by decide), met (by decide)⟩

/-! ### Hypotheses met: satellite navigation, filter chain, tables and slots -/

/-- Channel 55 in the given L1 and L5 states. -/
def gns (c st st5 : Nat) (l : List (RF × Nat)) : State := withF ([(Fld.GNS_CH_STAT_STATE c, st), (Fld.GNS_CH_STAT_STATE5 c, st5)] ++ l)

theorem met_GnssChannelsStartAndTrack :
    Met State.reset (State.reset.dev.gnss = true ∧ (55 : Nat) < 56 ∧ State.reset.gst 55 = 0 ∧ bitsOf (0x1F80_0000 : Word).toNat 28 23 ≠ 0 ∧
      bitsOf (0 : Word).toNat 28 23 = 0) ∧
    Met (gns 55 3 4 [(Fld.GNS_CH_CFG_L5 55, 1)]) ((gns 55 3 4 [(Fld.GNS_CH_CFG_L5 55, 1)]).gst 55 ≠ 0 ∧
      (gns 55 3 4 [(Fld.GNS_CH_CFG_L5 55, 1)]).gst 55 = 3 ∧ (gns 55 3 4 [(Fld.GNS_CH_CFG_L5 55, 1)]).gst5 55 = 4 ∧
      (gns 55 3 4 [(Fld.GNS_CH_CFG_L5 55, 1)]).dual 55 = true) ∧
    (let s : State := { gns 0 1 0 [] with gns := { State.reset.gns with queue := [0] } }
     Met s (s.gns.queue = 0 :: [] ∧ (s.acqBins 0).1 ≤ 0 ∧ 0 ≤ (s.acqBins 0).2 ∧ (2045 : Nat) < 2046 ∧ s.f Fld.GNS_ACQ_CFG_THRESH ≤ 65535)) ∧
    (let s := withF [(Fld.GNS_ACQ_CFG_THRESH, 65535)]
     Met s ((0 : Nat) < s.f Fld.GNS_ACQ_CFG_THRESH)) ∧
    Met (gns 55 2 0 []) ((gns 55 2 0 []).gst 55 = 2) ∧ Met (gns 48 3 2 []) ((gns 48 3 2 []).gst5 48 = 2) ∧
    Met (gns 0 3 0 [(Fld.GNS_CH_STAT_BITSYNC 0, 1)]) ((gns 0 3 0 [(Fld.GNS_CH_STAT_BITSYNC 0, 1)]).gst 0 = 3 ∧
      (gns 0 3 0 [(Fld.GNS_CH_STAT_BITSYNC 0, 1)]).fb (Fld.GNS_CH_STAT_BITSYNC 0) = true) :=
  ⟨met (by decide), met (by decide), met (by decide), met (by decide), met (by decide), met (by decide), met (by decide)⟩

theorem met_GnssInputsAndCaptures :
    (let x : SnapSt := ⟨1, 0, 39, 1, 32, 0, 0, some 0⟩
     let s : State := { gns 55 3 3 [(Fld.GNS_AGC_CLK_OK 1, 1), (Fld.GNS_SNAP_STAT_BUSY, 1)] with gns := { State.reset.gns with snap := some x } }
     Met s (s.dev.gnss = true ∧ (1 : Nat) < 2 ∧ s.fb (Fld.GNS_AGC_CLK_OK 1) = true ∧ s.gst5 55 ≠ 0 ∧ s.gst 55 ≠ 0 ∧ s.gns.snap = some x ∧
       x.input = 1 ∧ x.start ≠ none ∧ s.fb Fld.GNS_SNAP_STAT_BUSY = true)) ∧
    Met (withF [(Fld.GNS_AGC_CLK_OK 0, 1)]) ((withF [(Fld.GNS_AGC_CLK_OK 0, 1)]).fb (Fld.GNS_AGC_CLK_OK 0) = true) ∧
    Met (withF [(Fld.GNS_IF_CFG_EN 0, 0)]) ((withF [(Fld.GNS_IF_CFG_EN 0, 0)]).fb Fld.GNS_SNAP_STAT_BUSY = false ∧
      (withF [(Fld.GNS_IF_CFG_EN 0, 0)]).f (Fld.GNS_IF_CFG_EN 0) = 0) ∧
    (let s := withF [(Fld.GNS_IF_CFG_EN 0, 1), (Fld.GNS_AGC_CLK_OK 0, 1)]
     Met s (s.fb Fld.GNS_SNAP_STAT_BUSY = false ∧ s.f (Fld.GNS_IF_CFG_EN 0) ≠ 0 ∧ s.f (Fld.GNS_AGC_CLK_OK 0) ≠ 0 ∧
       ¬262080 < (snapCount ⟨0, 0, 0, 1, 1, s.f (Fld.GNS_IF_CFG_RATE 0), (s.reg (Adr.GNS_IF_FREQ 0)).toNat, none⟩ + 1) / 2)) :=
  ⟨met (by decide), met (by decide), met (by decide), met (by decide)⟩

/-- Filter channel 15 in operation. -/
def flt (l : List (RF × Nat)) : State :=
  let s := up (en 32 :: l)
  { s with flt := { s.flt with mclk := 0x8000_0050, ch := setNth s.flt.ch 15 { cfg := 0x8000_0000 } } }

theorem met_FilterChainFollowsItsRules :
    Met State.reset ((15 : Nat) < 16 ∧ 3 ≤ bitsOf (0x0A10_0000 : Word).toNat 27 25 ∧ bitsOf (0x0A10_0000 : Word).toNat 27 25 ≤ 5 ∧
      256 ≤ bitsOf (0x0B00_0000 : Word).toNat 24 16 ∧ 200000 / State.reset.f Fld.FLT_MCLK_DIV % 20 = 0 ∧
      ¬3 ≤ bitsOf (0 : Word).toNat 27 25 ∧ bitsOf (160 : Word).toNat 7 0 ∈ [40, 50, 64, 80, 100, 125, 160] ∧
      bitsOf (0 : Word).toNat 7 0 ∉ [40, 50, 64, 80, 100, 125, 160]) ∧
    Met (flt [(Fld.FLT_CH_STAT_SETTLED 15, 1)]) ((flt [(Fld.FLT_CH_STAT_SETTLED 15, 1)]).fltOn 15 = true ∧
      (flt [(Fld.FLT_CH_STAT_SETTLED 15, 1)]).fb (Fld.FLT_CH_STAT_SETTLED 15) = true) ∧
    Met (flt []) ((flt []).fltOn 15 = true ∧ (flt []).fb (Fld.FLT_CH_STAT_SETTLED 15) = false ∧ (flt []).fb (Fld.FLT_CH_STAT_STUCK 15) = false) ∧
    Met (flt [(Fld.FLT_CH_STAT_STUCK 15, 1)]) ((flt [(Fld.FLT_CH_STAT_STUCK 15, 1)]).fb (Fld.FLT_CH_STAT_STUCK 15) = true) :=
  ⟨met (by decide), met (by decide), met (by decide), met (by decide)⟩

theorem met_TablesAndSlotsTakeCommands :
    Met State.reset (State.reset.fb Fld.ASM_TBL_CHK_BUSY = false ∧ bitOf (0x8000_003F : Word).toNat 30 = false ∧
      bitOf (0x4000_003F : Word).toNat 31 = false ∧ State.reset.asm.chk = none ∧ (63 : Nat) < 64 ∧ (State.reset.slotOf 63).held ≤ 40) ∧
    (let s : State := { State.reset with asm := { State.reset.asm with chk := some 63, sel := some 63 },
                                         cle := { State.reset.cle with slot := setNth State.reset.cle.slot 63 { held := 41 } } }
     Met s (s.asm.chk = some 63 ∧ s.asm.sel = some 63 ∧ 40 < (s.slotOf 63).held)) :=
  ⟨met (by decide), met (by decide)⟩


/-! ### Hypotheses met: CAN, drives -/

/-- Controller `k` with the given fields and its queue. -/
def can (k : Nat) (x : CanSt) (l : List (RF × Nat)) : State :=
  let s := up (en (11 + k) :: l)
  { s with can := setNth s.can k x }

/-- A classical data frame. -/
def fr : CanFrame := ⟨0x7FF, false, false, false, false, false, 0, []⟩

theorem met_CanTimingAndTransmission_timing :
    Met (can 7 {} [(Fld.CAN_MODE_MODE 7, 1)]) ((7 : Nat) < 8 ∧ (can 7 {} [(Fld.CAN_MODE_MODE 7, 1)]).f (Fld.CAN_MODE_MODE 7) ≠ 0) ∧
    (let s := can 7 {} []
     Met s (s.f (Fld.CAN_MODE_MODE 7) = 0 ∧ s.locked (Adr.CAN_NBT 7) = false ∧ s.locked (Adr.CAN_MODE 7) = false ∧
       nomClocks ((0 : Word) &&& 0xFFFF7F7F).toNat < 80 ∧ (s.canOf 7).pend = [])) ∧
    (let s := can 7 {} []
     let n := ((0x003E_0F0F : Word) &&& 0xFFFF7F7F).toNat
     let d := (s.reg (Adr.CAN_DBT 7)).toNat
     Met s (s.f (Fld.CAN_MODE_MODE 7) = 0 ∧ s.locked (Adr.CAN_NBT 7) = false ∧
       ¬(nomClocks n < 80 ∨ datClocks d < 10 ∨ nomClocks n < datClocks d ∨ bitsOf n 23 16 = 0))) ∧
    (let s := can 7 {} [(Fld.CAN_NBT_NTSEG1 7, 62), (Fld.CAN_NBT_NTSEG2 7, 15)]
     let n := (s.reg (Adr.CAN_NBT 7)).toNat
     let d := ((0x0006_0100 : Word) &&& 0x1F1F0F0F).toNat
     Met s (s.f (Fld.CAN_MODE_MODE 7) = 0 ∧ s.locked (Adr.CAN_DBT 7) = false ∧
       ¬(nomClocks n < 80 ∨ datClocks d < 10 ∨ nomClocks n < datClocks d ∨ bitsOf n 23 16 = 0))) :=
  ⟨met (by decide +kernel), met (by decide +kernel), met (by decide +kernel), met (by decide +kernel)⟩

/-- The handles that are free for software. -/
def freeHandles (s : State) (k : Nat) : List Nat :=
  (List.range (32 - (s.reserved k).length)).filter fun h => s.f (Fld.CAN_TXE_STAT_STATE k h) != 1

theorem met_CanTimingAndTransmission_queue :
    (let s := can 7 {} ((List.range 32).map fun h => (Fld.CAN_TXE_STAT_STATE 7 h, 1))
     Met s (7 < s.can.length ∧ freeHandles s 7 = [])) ∧
    (let s := can 7 {} [(Fld.CAN_MODE_FD_EN 7, 0), (Fld.CAN_TXW_REC 7 1, 0x100)]
     Met s (freeHandles s 7 = List.range 32 ∧ s.pushCode 7 (s.txw 7) = 2)) ∧
    (let s := can 7 {} [(Fld.CAN_MODE_MODE 7, 1)]
     Met s (freeHandles s 7 = List.range 32 ∧ s.pushCode 7 (s.txw 7) = 0 ∧ s.canMode 7 ≠ 0)) ∧
    (let s := can 7 { pend := [⟨31, fr, none, false⟩] } []
     Met s ((31 : Nat) < 32 ∧ (s.canOf 7).pend.any (fun e => e.handle == 31) = true ∧ (s.canOf 7).busy ≠ some 31 ∧ (s.canOf 7).busy = none)) ∧
    (let s := can 7 { pend := [⟨31, fr, none, false⟩], busy := some 31 } []
     Met s ((s.canOf 7).pend.any (fun e => e.handle == 31) = true ∧ (s.canOf 7).busy = some 31 ∧
       (s.canOf 7).pend.find? (fun e => (s.canOf 7).busy == some e.handle) = some ⟨31, fr, none, false⟩)) :=
  ⟨met (by decide +kernel), met (by decide +kernel), met (by decide +kernel), met (by decide +kernel), met (by decide +kernel)⟩

theorem met_CanReceptionAndErrors :
    (let s := can 7 {} [(Fld.CAN_MODE_MODE 7, 2), (Fld.CAN_MODE_FD_EN 7, 1), (Fld.CAN_FLT_ID_EN 7 7, 1)]
     Met s (s.works 18 = true ∧ s.canMode 7 ≠ 0 ∧ s.canMode 7 ≠ 3 ∧ s.f (Fld.CAN_ECNT_STATE 7) ≠ 2 ∧ s.pwr.silent = false ∧
       s.fb (Fld.CAN_MODE_FD_EN 7) = true ∧ (List.range 128).find? (fun n => s.canMatch 7 n fr) = some 7 ∧
       s.fb (Fld.CAN_FLT_ID_REJECT 7 7) = false ∧ (1 : Nat) ≤ 6)) ∧
    (let s := can 7 {} [(Fld.CAN_FLT_ID_EN 7 8, 1)]
     Met s ((List.range 128).find? (fun n => s.canMatch 7 n fr) = some 8 ∧ s.fb (Fld.CAN_FLT_ID_REJECT 7 8) = false ∧
       (s.canOf 7).fifo.length < 64)) ∧
    (let s := can 0 { recover := true } [(Fld.CAN_ECNT_STATE 0, 2), (Fld.CAN_MODE_AUTO_RECOV 0, 0)]
     Met s (s.f (Fld.CAN_ECNT_STATE 0) = 2 ∧ (s.canOf 0).recover = true)) ∧
    (let s := withF [(Fld.CAN_FB_STAT_VALID 23, 1), (Fld.CAN_HELM_CFG_FB_TMO, 0), (Fld.CAN_FB_STAT_AGE 23, 2)]
     Met s ((23 : Nat) < 24 ∧ s.fb (Fld.CAN_FB_STAT_VALID 23) = true ∧ s.fb (Fld.CAN_FB_STAT_STALE 23) = false ∧
       max 1 (s.f Fld.CAN_HELM_CFG_FB_TMO) < s.f (Fld.CAN_FB_STAT_AGE 23))) :=
  ⟨met (by decide +kernel), met (by decide +kernel), met (by decide +kernel), met (by decide +kernel)⟩

/-- A helm payload with its tally, `STOP` and sequence number, closed by its CRC; the frame that carries it to drive 23. -/
def helm (tally stop seq : Nat) : List Byte :=
  let b := leBytes 4 tally ++ zeros 16 ++ leBytes 1 stop ++ leBytes 1 seq ++ zeros 6
  b ++ leBytes 4 (crc32c b)
def helmFr (parity : Nat) (b : List Byte) : CanFrame := ⟨0x48 * 2 ^ 18 + parity * 32 + 23, true, false, true, false, false, 13, b⟩

/-- A drive 23 that knows a top and the last sequence number. -/
def driven (top seq : Nat) : State :=
  { State.reset with drives := setNth State.reset.drives 23 { top := top, lastSeq := seq, known := true } }

theorem met_DriveAcceptanceRule :
    ((23 : Nat) < 24 ∧ 23 < State.reset.drives.length ∧ helmPayload fr = none) ∧
    (helmPayload (helmFr 1 (helm 1 0 1)) = some (helm 1 0 1) ∧ bitsOf (helmFr 1 (helm 1 0 1)).id 25 18 = 0x48 ∧
      bitsOf (helmFr 1 (helm 1 0 1)).id 17 6 = (State.reset.driveOf 23).inst ∧ bitsOf (helmFr 1 (helm 1 0 1)).id 4 0 = 23 ∧
      helmCrcOk (helm 1 0 1) = true ∧ leAt (helm 1 0 1) 0 4 % 2 = bitsOf (helmFr 1 (helm 1 0 1)).id 5 5 ∧
      (State.reset.driveOf 23).top < leAt (helm 1 0 1) 0 4) ∧
    (bitsOf (helmFr 0 []).id 4 0 ≠ 22 ∧ helmCrcOk (zeros 31 ++ [1]) = false ∧ leAt (helm 1 0 1) 0 4 % 2 ≠ bitsOf (helmFr 0 []).id 5 5) ∧
    (leAt (helm 2 3 0) 0 4 % 2 = bitsOf (helmFr 0 []).id 5 5 ∧ leAt (helm 2 3 0) 0 4 < ((driven 3 0).driveOf 23).top) ∧
    (leAt (helm 3 0 128) 0 4 = ((driven 3 0).driveOf 23).top ∧ ((driven 3 0).driveOf 23).known = true ∧
      127 < (leAt (helm 3 0 128) 21 1 + 256 - ((driven 3 0).driveOf 23).lastSeq % 256) % 256) ∧
    (leAt (helm 3 0 126) 0 4 = ((driven 3 255).driveOf 23).top ∧
      (leAt (helm 3 0 126) 21 1 + 256 - ((driven 3 255).driveOf 23).lastSeq % 256) % 256 = 127) := by decide +kernel

/-! ### Hypotheses met: field island, safety functions -/

theorem met_FieldIslandFollowsItsRules :
    Met State.reset ((15 : Nat) < 16 ∧ State.reset.fio.lost = false ∧ State.reset.safOwned = false ∧
      11 ≠ (if State.reset.f Fld.SAF_CFG_RST_DI < 12 then State.reset.f Fld.SAF_CFG_RST_DI else 0) ∧ State.reset.running = false) ∧
    (let s := withF [(Fld.FIO_DI_CFG_CNT_EN 7, 1), (Fld.FIO_CFG_EN, 1), (Fld.FIO_STATUS_LINK, 1)]
     Met s ((7 : Nat) < 8 ∧ s.fb (Fld.FIO_DI_CFG_CNT_EN 7) = true ∧ s.fb Fld.FIO_CFG_EN = true ∧ bitOf (1 : Word).toNat 0 = true ∧
       s.fb Fld.FIO_STATUS_LINK = true)) ∧
    (let s : State := { up [(Fld.FIO_STATUS_LINK, 0)] with fio := { State.reset.fio with out := 0x8000 } }
     Met s (s.refreshes = true ∧ s.fio.lost = false ∧ s.running = false ∧ bitOf s.fio.out 15 = true ∧ s.fb Fld.FIO_STATUS_LINK = false)) ∧
    Met (run 0 []) ((run 0 []).running = true) ∧
    (let s : State := { State.reset with fio := { State.reset.fio with low := true } }
     Met s ((s.fio.low || (s.fio.lost || (List.range 16).any s.judged)) = true ∧ s.fb Fld.FIO_STATUS_FAULT = false)) :=
  ⟨met (by decide), met (by decide), met (by decide), met (by decide), met (by decide)⟩

theorem met_SafetyFailuresEnterSto :
    Met (saf 3 []) ((6 : Nat) < 7 ∧ (saf 3 []).safOn = true ∧ (saf 3 []).f Fld.SAF_STATE_PHASE = 3) ∧
    (let s := saf 2 [(Fld.SAF_DI_CFG_EN 2, 1), (Fld.SAF_DI_CFG_PAIR 2, 1), (Fld.SAF_DI_CFG_EN 3, 1), (Fld.SAF_DI_CFG_PAIR 3, 1), (Fld.SAF_STATE_DI, 4)]
     Met s ((1 : Nat) < 2 ∧ s.safOn = true ∧ (∀ i, i < 4 → i / 2 = 1 → s.fb (Fld.SAF_DI_CFG_EN i) = true ∧ s.fb (Fld.SAF_DI_CFG_PAIR i) = true) ∧
       s.pairAgrees 1 = false)) ∧
    (let s := saf 2 [(Fld.SAF_DI_CFG_EN 3, 1), (Fld.SAF_DI_CFG_TP 3, 1)]
     Met s (s.safOn = true ∧ (3 : Nat) < 4 ∧ 3 < s.saf.tpPass.length ∧ s.fb (Fld.SAF_DI_CFG_EN 3) = true ∧ s.f (Fld.SAF_DI_CFG_TP 3) = 1 ∧
       bitOf 8 3 = true ∧ bitOf s.saf.tpBad 3 = false)) ∧
    (let s : State := { saf 2 [] with saf := { (saf 2 []).saf with otDue := 8 } }
     Met s ((3 : Nat) < 4 ∧ s.safOn = true ∧ bitOf s.saf.otDue 3 = true)) :=
  ⟨met (by decide), met (by decide), met (by decide), met (by decide)⟩

/-- Safety functions that wait for a release. -/
def held (l : List (RF × Nat)) (f : SafSt → SafSt) : State :=
  let s := saf 4 l
  { s with saf := f { s.saf with tested := true } }

theorem met_SafetyDemandsAndReleases :
    Met State.reset (State.reset.shpRuns = false ∧ State.reset.relOk = false) ∧
    (let s : State := { State.reset with pwr := { State.reset.pwr with shpWaiting := false } }
     Met s (s.shpRuns = true ∧ s.safOn = false)) ∧
    (let s : State := { saf 2 [] with saf := { (saf 2 []).saf with pendIn := true, pendSto := true } }
     Met s (s.saf.pendIn = true ∧ s.saf.pendSto = true ∧ s.saf.pendReq = false)) ∧
    (let s : State := { saf 2 [] with saf := { (saf 2 []).saf with pendReq := true } }
     Met s (s.saf.pendIn = false ∧ s.saf.pendReq = true ∧ s.f Fld.SAF_STATE_PHASE = 2)) ∧
    (let s : State := { saf 2 [(Fld.SAF_DI_CFG_EN 3, 1), (Fld.SAF_STATE_DI, 8)] with saf := { (saf 2 []).saf with known := 8 } }
     Met s (s.safOn = true ∧ s.fb (Fld.SAF_DI_CFG_EN 3) = true ∧ bitOf s.saf.known 3 = true ∧ bitOf (s.f Fld.SAF_STATE_DI) 3 = true)) ∧
    (let s := held [(Fld.SAF_STATE_DI, 15), (Fld.SAF_CFG_RST_SRC, 0)] id
     Met s (s.relOk = true ∧ (0x5AFE : Word).toNat = 0x5AFE ∧ s.fb Fld.SAF_CFG_RST_SRC = false ∧ s.saf.release = false ∧ s.relPaired = false)) ∧
    (let s : State := { held [(Fld.SAF_STATE_DI, 15), (Fld.PAR_CFG_PAIR_EN, 1), (Fld.PAR_STAT_ROLE, 2)] id with par := { State.reset.par with hbAt := some 0 } }
     Met s (s.relOk = true ∧ s.relPaired = true ∧ s.saf.pOk = false)) ∧
    Met State.reset ((0x5AFF : Word).toNat ≠ 0x5AFE ∧ bitOf (12 : Word).toNat 2 = true ∧ bitOf (12 : Word).toNat 3 = true) :=
  ⟨met (by decide), met (by decide), met (by decide), met (by decide), met (by decide), met (by decide +kernel), met (by decide +kernel),
   met (by decide)⟩


/-! ### Hypotheses met: the pair -/

/-- The CRC fits 32 bits. -/
theorem crcRefStep_lt {c : Nat} (h : c < 2 ^ 32) : crcRefStep 0x82F63B78 c < 2 ^ 32 := by
  unfold crcRefStep
  split
  · exact Nat.xor_lt_two_pow (by omega) (by decide)
  · omega

theorem crcRefSteps_lt : ∀ (n c : Nat), c < 2 ^ 32 → crcRefSteps 0x82F63B78 n c < 2 ^ 32
  | 0, _, h => h
  | n + 1, _, h => crcRefSteps_lt n _ (crcRefStep_lt h)

theorem crcFold_lt : ∀ (l : List Byte) (c : Nat), c < 2 ^ 32 →
    l.foldl (fun c (b : Byte) => crcRefSteps 0x82F63B78 8 (c ^^^ b.toNat)) c < 2 ^ 32
  | [], _, h => h
  | b :: l, _, h => crcFold_lt l _ (crcRefSteps_lt 8 _ (Nat.xor_lt_two_pow h (Nat.lt_of_lt_of_le b.isLt (by decide))))

theorem crc32c_lt (l : List Byte) : crc32c l < 2 ^ 32 := Nat.xor_lt_two_pow (crcFold_lt l _ (by decide)) (by decide)

theorem ofLe_leBytes4 {n : Nat} (h : n < 2 ^ 32) : ofLe (leBytes 4 n) = n := by
  simp only [leBytes, ofLe, BitVec.toNat_ofNat]
  omega

/-- A bank message of a resync is long; its CRC stands in the middle and is not computed here. -/
theorem met_resyncBank : ∃ b : List Byte, b.length = 262208 ∧ leAt b 0 1 = 4 ∧ leAt b 2 1 = 1 ∧
    leAt b 60 4 = crc32c (b.take 60 ++ b.drop 64) := by
  have key : ∀ (h r : List Byte), h.length = 60 →
      let b := h ++ (leBytes 4 (crc32c (h ++ r)) ++ r)
      b.length = 64 + r.length ∧ leAt b 0 1 = leAt h 0 1 ∧ leAt b 2 1 = leAt h 2 1 ∧ leAt b 60 4 = crc32c (b.take 60 ++ b.drop 64) := by
    intro h r hl
    have h4 : (leBytes 4 (crc32c (h ++ r))).length = 4 := rfl
    have e1 : (h ++ (leBytes 4 (crc32c (h ++ r)) ++ r)).take 60 = h := by rw [← hl]; exact List.take_left
    have e2 : (h ++ (leBytes 4 (crc32c (h ++ r)) ++ r)).drop 60 = leBytes 4 (crc32c (h ++ r)) ++ r := by rw [← hl]; exact List.drop_left
    have e3 : (h ++ (leBytes 4 (crc32c (h ++ r)) ++ r)).drop 64 = r := by
      rw [show (64 : Nat) = 60 + 4 from rfl, ← List.drop_drop, e2]
      exact List.drop_left' h4
    refine ⟨by simp only [List.length_append, hl, h4]; omega, ?_, ?_, ?_⟩
    · unfold leAt; rw [List.drop_zero, List.drop_zero, List.take_append_of_le_length (by omega)]
    · unfold leAt; rw [List.drop_append_of_le_length (by omega), List.take_append_of_le_length (by rw [List.length_drop]; omega)]
    · rw [e1, e3]
      unfold leAt
      rw [e2, List.take_left' h4]
      exact ofLe_leBytes4 (crc32c_lt _)
  have k := key (4 :: 0 :: 1 :: zeros 57) (zeros 262144) rfl
  refine ⟨_, k.1.trans ?_, k.2.1, k.2.2.1, k.2.2.2⟩
  rw [show (zeros 262144).length = 262144 from List.length_replicate]

/-- A message closed by its CRC. -/
def sealed (b : List Byte) : List Byte := b ++ leBytes 4 (crc32c b)

/-- The CRC that closes a message is the CRC of what stands before it. -/
theorem sealed_crc (b : List Byte) : leAt (sealed b) b.length 4 = crc32c ((sealed b).take b.length) := by
  unfold sealed leAt
  rw [List.drop_left, List.take_left, List.take_of_length_le (by exact Nat.le_refl 4)]
  exact ofLe_leBytes4 (crc32c_lt _)

/-- A delta of no block from base 0 to sequence 1; a heartbeat with a role, flags. -/
def body0 : List Byte := 3 :: zeros 7 ++ [1] ++ zeros 1079
def delta0 : List Byte := sealed body0
def hb (role flags : Nat) : List Byte := sealed ([1, 0] ++ leBytes 1 role ++ leBytes 1 flags ++ zeros 56)

/-- A standby whose mirror stands at sequence 0 and whose pair block holds the staging bank. -/
def standby : State :=
  { up [(Fld.PAR_STAT_ROLE, 1), (Fld.PAR_SBX_STAGE_BANK, 1), (Fld.MEM_DEED_HOLDER 1, 20)] with
    par := { State.reset.par with mirSeq := some 0, rxNext := 2 } }

theorem delta0_crc : leAt delta0 (1092 - 4) 4 = crc32c (delta0.take (1092 - 4)) := by
  have h := sealed_crc body0
  rwa [show body0.length = 1092 - 4 by decide +kernel] at h

theorem met_PairMessagesAreTaken :
    (let s := withF [(Fld.PAR_STAT_LINK, 1), en 149, (Fld.PAR_STAT_ROLE, 2)]
     Met s ((1 : Nat) < 2 ∧ ((setNth s.par.lanes 1 false).filter id).length < s.f Fld.PAR_STAT_LINK ∧ s.running = false ∧ 2 ≤ s.role)) ∧
    (let s := up [(Fld.PAR_STAT_LINK, 2), en 149]
     Met s (s.running = false ∧ s.works 149 = true ∧ s.pwr.bootMute = false ∧ s.f Fld.PAR_STAT_LINK ≠ 0 ∧ s.pwr.silent = false ∧ s.muted = false)) ∧
    ((hb 2 0).length = 64 ∧ leAt (hb 2 0) 0 1 = 1 ∧ leAt (hb 2 0) 60 4 = crc32c ((hb 2 0).take 60)) ∧
    (([] : List Byte).length ≠ 1600 ∧ ([] : List Byte).length < 1092 ∧ State.reset.par.copy = none ∧ ([] : List Byte).length ≠ 262208) ∧
    (delta0.length = 1092 ∧ leAt delta0 0 1 = 3 ∧ 1092 = 1092 + 256 * leAt delta0 24 2 ∧ State.reset.role ≠ 1) ∧
    leAt delta0 (1092 - 4) 4 = crc32c (delta0.take (1092 - 4)) ∧
    Met standby (standby.role = 1 ∧ standby.par.mirSeq = some 0 ∧
      (standby.mWrite 20 (bankAddr (standby.f Fld.PAR_SBX_STAGE_BANK) 0) delta0).rsp = .okay ∧
      sub32 0 (leAt delta0 4 4) < sub32 (leAt delta0 8 4) (leAt delta0 4 4) ∧ 1 ≠ standby.par.rxNext) :=
  ⟨met (by decide), met (by decide), by decide +kernel, by decide, by decide +kernel, delta0_crc, met (by decide +kernel)⟩

theorem met_PairMessagesAreTaken_copy :
    (let s : State := { standby with par := { standby.par with copy := some delta0 } }
     Met s (s.par.copy = some delta0 ∧ (s.copyDelta delta0).par.decided = none)) ∧
    (let s : State := { standby with par := { standby.par with copy := some delta0, decided := some 4 } }
     Met s (s.par.copy = some delta0 ∧ (s.copyDelta delta0).par.decided = some 4)) :=
  ⟨met ⟨rfl, by decide, rfl, by decide +kernel⟩, met ⟨rfl, by decide, rfl, by decide +kernel⟩⟩

/-- Beats run in a role; a partner's heartbeat. -/
def pair (role : Nat) (h : List Byte) (l : List (RF × Nat)) : State :=
  { run 0 ((Fld.PAR_STAT_ROLE, role) :: l) with par := { State.reset.par with hb := h } }

theorem pair_inv (role : Nat) (h : List Byte) (l : List (RF × Nat)) (hr : spWf regReset (pair role h l).regs = true)
    (hs : (pair role h l).shadow = []) (hm : (pair role h l).mem = []) (hq : (pair role h l).lgr.queue.length ≤ 256) (hc : (pair role h l).can = State.reset.can)
    (hu : (pair role h l).uart = State.reset.uart) (he : (pair role h l).eth = State.reset.eth) (hx : (pair role h l).rpl.tx.length ≤ 8) :
    (pair role h l).Inv :=
  inv_of hc hu he ⟨hr, hs ▸ rfl, by unfold State.memWf; rw [hm]; rfl, rfl, hq, hx⟩

theorem met_PairWatchAndSeek :
    (let s := pair 1 [] []
     s.Inv ∧ s.pwr.on = true ∧ s.running = true ∧ s.par.missed = false ∧ s.beatMissed false = true ∧ s.role = 1 ∧ s.par.copy = none ∧
       s.fb Fld.PAR_STAT_CFG_MISMATCH = false ∧ s.fb Fld.PAR_STAT_LAYOUT_MISMATCH = false ∧ s.fb Fld.PAR_STAT_EPOCH = false) ∧
    (let s := pair 1 [] [(Fld.PAR_CFG_MISS, 2)]
     s.Inv ∧ min (s.f Fld.PAR_DET_MISS_RUN + 1) 255 < s.missLimit) ∧
    (let s := pair 2 (hb 1 0) [(Fld.PAR_CFG_MISS, 1)]
     s.Inv ∧ s.pwr.on = true ∧ s.running = true ∧ s.par.missed = false ∧ s.beatMissed true = true ∧ s.role = 2 ∧
       s.missLimit ≤ min (s.f Fld.PAR_DET_MISS_RUN + 1) 255) ∧
    (let s : State := { pair 0 [] [(Fld.PAR_CFG_ALLOW_ALONE, 1)] with par := { State.reset.par with listened := true } }
     s.Inv ∧ s.role = 0 ∧ s.fb Fld.PAR_STAT_EPOCH = false ∧ s.fb Fld.PAR_CFG_ALLOW_ALONE = true ∧ s.par.listened = true ∧ s.hbFresh = false) :=
  ⟨⟨inv_of rfl rfl rfl (by decide), by decide⟩, ⟨inv_of rfl rfl rfl (by decide), by decide⟩,
   ⟨inv_of rfl rfl rfl (by decide +kernel), by decide +kernel⟩, ⟨inv_of rfl rfl rfl (by decide), by decide⟩⟩

theorem met_PairRequestsTakeEffect :
    Met State.reset (State.reset.role ≠ 2 ∧ State.reset.faultPersists = false ∧ State.reset.role < 2 ∧
      State.reset.fb Fld.PAR_STAT_EPOCH = false ∧ State.reset.par.flashBusy = false) ∧
    (let s := pair 2 (hb 1 4) []
     Met s (s.role = 2 ∧ s.pFlag 2 = true ∧
       ¬tallyTop < raiseTo (max (s.hbAt 16 4) (s.f Fld.PAR_TALLY_TALLY)) (s.hbAt 20 4) (1 - s.dev.unit) ∧ 2 ≤ s.role ∧
       (s.par.flashBusy || s.par.flashDue) = false)) ∧
    (let s := pair 2 (hb 1 4) [(Fld.PAR_TALLY_TALLY, 0xFFFF_FF00)]
     Met s (s.role = 2 ∧ tallyTop < raiseTo (max (s.hbAt 16 4) (s.f Fld.PAR_TALLY_TALLY)) (s.hbAt 20 4) (1 - s.dev.unit))) ∧
    (let s := pair 2 [] [(Fld.TIM_OVR_RUN_PERSIST, 1), (Fld.TIM_OVR_RUN_RUN, 1)]
     Met s (s.faultPersists = true)) ∧
    (let s : State := { run 0 [(Fld.PAR_STAT_ROLE, 2), (Fld.NFC_CFG_EN, 1), (Fld.NFC_STAT_STATE, 2)] with
       par := { State.reset.par with flashBusy := true } }
     Met s (2 ≤ s.role ∧ (s.par.flashBusy || s.par.flashDue) = true ∧ s.par.flashBusy = true ∧ s.nfcReady = true)) ∧
    (let s : State := { State.reset with par := { State.reset.par with flashBusy := true } }
     Met s (s.par.flashBusy = true ∧ s.nfcReady = false)) ∧
    Met (saf 1 []) ((saf 1 []).safPhase = 1) ∧ Met (saf 4 []) ((saf 4 []).safPhase = 4) ∧
    Met (saf 2 []) (¬((saf 2 []).safPhase = 1 ∨ (saf 2 []).safPhase = 4)) ∧
    (let s := pair 0 (hb 0 16) [(Fld.PAR_STAT_EPOCH, 1)]
     Met s (s.fb Fld.PAR_STAT_EPOCH = true ∧ s.pFlag 4 = true)) :=
  ⟨met (by decide), met (by decide +kernel), met (by decide +kernel), met (by decide), met (by decide), met (by decide), met (by decide), met (by decide),
   met (by decide), met (by decide +kernel)⟩

/-! ### Hypotheses met: Ethernet, time, UARTs -/

/-- MAC `k` in operation, with a queue of its own. -/
def eth (k : Nat) (x : EthSt) (l : List (RF × Nat)) : State :=
  let s := up ([en (7 + k), (Fld.ETH_CFG_RX_EN k, 1), (Fld.ETH_CFG_TX_EN k, 1), (Fld.ETH_LINK_UP k, 1)] ++ l)
  { s with eth := setNth s.eth k x }

theorem met_EthLinkRingsAndCalibration :
    Met State.reset ((3 : Nat) < 4 ∧ State.reset.fb (Fld.ETH_LINK_UP 3) = false) ∧
    Met (eth 3 {} []) ((eth 3 {} []).fb (Fld.ETH_LINK_UP 3) = true ∧
      ((eth 3 {} []).fb (Fld.ETH_CFG_RX_EN 3) || (eth 3 {} []).fb (Fld.ETH_CFG_TX_EN 3)) = true) ∧
    (let s := up [en 10, (Fld.ETH_CAL_BUSY 3, 1)]
     Met s ((s.fb (Fld.ETH_CFG_RX_EN 3) || s.fb (Fld.ETH_CFG_TX_EN 3)) = false ∧ s.works 10 = true ∧ s.fb (Fld.ETH_CAL_BUSY 3) = true ∧
       (59 : Nat) < 60 ∧ (60 : Nat) ≤ 60 ∧ (65535 : Nat) < 65536)) :=
  ⟨met (by decide), met (by decide), met (by decide)⟩

/-- A frame of 60 bytes from its first bytes; a PTP multicast Sync. -/
def frame60 (b : List Byte) : List Byte := padTo 60 b
def sync : List Byte := frame60 ([0x01, 0x1B, 0x19, 0, 0, 0] ++ zeros 6 ++ [0x88, 0xF7, 0, 2, 0, 44])

theorem met_EthFramesMove_receive :
    Met State.reset (State.reset.eth.length = 4 ∧ State.reset.ethRxOn 3 = false) ∧
    (let s := eth 3 {} [(Fld.ETH_CFG_PAUSE_EN 3, 1)]
     let b := frame60 (zeros 12 ++ [0x88, 0x08, 0, 1, 0, 9])
     Met s (s.ethRxOn 3 = true ∧ s.eth.length = 4 ∧ s.replayRx 3 = false ∧ 60 ≤ b.length ∧ b.length ≤ 1518 ∧ (s.pauseRx 3 b).isSome = true ∧
       ¬(60 ≤ (zeros 59).length ∧ (zeros 59).length ≤ 1518))) ∧
    (let s := eth 3 {} [(Fld.ETH_MAC_LO_MAC 3, 1)]
     Met s ((s.pauseRx 3 (frame60 [])).isNone = true ∧ s.ethKeeps 3 (frame60 []) = false ∧ s.ethKeeps 3 (frame60 [1]) = true ∧
       s.ethForwards 3 (frame60 [1]) = false)) ∧
    (let s := eth 2 {} [(Fld.ETH_TC_EN 2, 1)]
     Met s ((s.pauseRx 2 sync).isNone = true ∧ s.ethKeeps 2 sync = true ∧ s.ethForwards 2 sync = true ∧ (s.ethOf (2 ^^^ 1)).transit.length < 8)) :=
  ⟨met (by decide), met (by decide +kernel), met (by decide +kernel), met (by decide +kernel)⟩

/-- Bytes at an address, as memory lists them. -/
def cells (a : Nat) (b : List Byte) : List Host.Cell := (b.zipIdx.filter fun e => e.1 != 0).map fun e => (a + e.2, e.1)

/-- A receive ring in DRAM whose first descriptor points to 0x08_0000_1000 and has the given `FLAGS`. -/
def ring (flags : Byte) : State :=
  { eth 3 {} [(Fld.ETH_RXR_BASE_ADDR 3, 0x800_0000), (Fld.ETH_TXR_BASE_ADDR 3, 0x800_0000)] with
    mem := cells 0x08_0000_0000 [0, 0x10, 0, 0, 8, 0, 60, 0, flags] }

theorem met_EthFramesMove_rings :
    (let s := eth 3 {} [(Fld.ETH_RXR_BASE_ADDR 3, 0x1100_00)]
     Met s ((s.mRead 19 (s.f (Fld.ETH_RXR_BASE_ADDR 3) * 256 + 32 * s.f (Fld.ETH_RXR_HEAD_IDX 3)) 32).rsp ≠ .okay)) ∧
    (let s := ring 0
     let r := s.mRead 19 (s.f (Fld.ETH_RXR_BASE_ADDR 3) * 256 + 32 * s.f (Fld.ETH_RXR_HEAD_IDX 3)) 32
     Met s (r.rsp = .okay ∧ leAt r.data 8 2 % 2 = 0 ∧ (s.txDesc 3).2 = none ∧ (s.txDesc 3).1.rplReady 3 = false)) ∧
    (let s := ring 1
     let da := s.f (Fld.ETH_RXR_BASE_ADDR 3) * 256 + 32 * s.f (Fld.ETH_RXR_HEAD_IDX 3)
     let r := s.mRead 19 da 32
     let w := r.st.mWrite 19 (leAt r.data 0 5) sync
     Met s (r.rsp = .okay ∧ leAt r.data 8 2 % 2 = 1 ∧ w.rsp = .okay ∧ (w.st.mWrite 19 da (descDone r.data 60 4 0)).rsp = .okay ∧
       (s.txDesc 3).2.isSome = true)) :=
  ⟨met (by decide +kernel), met (by decide +kernel), met (by decide +kernel)⟩

theorem met_EthFramesMove_send :
    (let s := eth 3 { transit := [(frame60 [], 0)] } []
     Met s (s.ethTxOn 3 = true ∧ 3 < s.eth.length ∧ (s.ethOf 3).transit = (frame60 [], 0) :: [] ∧ s.muted = false ∧ ptpEvent (frame60 []) = false)) ∧
    (let s : State := { eth 3 { lastRing := true } [(Fld.CMD_RPL_CTRL_MODE, 1), (Fld.CMD_RPL_CTRL_PORT, 3)] with
       rpl := { State.reset.rpl with tx := [[[1]]] } }
     Met s (s.ethTxOn 3 = true ∧ (s.ethOf 3).transit = [] ∧ s.rplReady 3 = true ∧ (s.ethOf 3).lastRing = true)) ∧
    (let s := eth 3 { stopped := true } []
     Met s (s.ethTxOn 3 = true ∧ (s.ethOf 3).transit = [] ∧ s.rplReady 3 = false ∧ (s.ethOf 3).stopped = true)) :=
  ⟨met (by decide +kernel), met (by decide +kernel), met (by decide +kernel)⟩

theorem met_TimeIsSteered :
    Met State.reset ((sgn 64 ((State.reset.reg Adr.TIM_RATE_LO).toNat + (0 : Word).toNat * 2 ^ 32)).natAbs ≤ 56294995342 ∧
      State.reset.fb Fld.TIM_STAT_HOLDOVER = false ∧ State.reset.running = false) ∧
    (let s := withF [(Fld.TIM_STAT_HOLDOVER, 1)]
     Met s (s.fb Fld.TIM_STAT_HOLDOVER = true ∧ s.forced 31 = false)) ∧
    Met State.reset (56294995342 < (sgn 64 ((State.reset.reg Adr.TIM_RATE_LO).toNat + (0x8000_0000 : Word).toNat * 2 ^ 32)).natAbs) ∧
    (let s := run 0 [(Fld.TIM_BEAT_STAT_FREE_RUN, 1), (Fld.TIM_STEP_LO_STEP, 125000)]
     Met s (s.running = true ∧ s.fb Fld.TIM_BEAT_STAT_FREE_RUN = true ∧ ¬125000 < (edgeError (s.edgeNow + 125000)).natAbs ∧
       125000 < (edgeError (s.edgeNow + 125001)).natAbs)) ∧
    (let s := run 0 [(Fld.TIM_STEP_LIMIT_NS, 1), (Fld.TIM_STEP_LO_STEP, 1)]
     let x := fun v : Word => sgn 64 ((s.reg Adr.TIM_STEP_LO).toNat + v.toNat * 2 ^ 32)
     Met s (s.running = true ∧ ¬(s.fb Fld.TIM_BEAT_STAT_FREE_RUN = true ∨ s.forced 0 = true) ∧ s.fb Fld.TIM_STAT_HOLDOVER = false ∧
       (x 0).natAbs ≤ max 1 (s.f Fld.TIM_STEP_LIMIT_NS) ∧ max 1 (s.f Fld.TIM_STEP_LIMIT_NS) < (x 1).natAbs)) :=
  ⟨met (by decide), met (by decide), met (by decide), met (by decide +kernel), met (by decide +kernel)⟩

theorem met_TimeSourcesAndPulses :
    Met State.reset (State.reset.bestTime = 0 ∧ State.reset.obsAccepted 0 = true ∧ State.reset.obsAccepted 1 = false ∧ State.reset.dev.gnss = true) ∧
    (let s := withF [(Fld.TIM_STAT_PTP_AVAIL, 1)]
     Met s (s.bestTime ≠ 0 ∧ s.f Fld.TIM_STAT_ACQUIRED = 0 ∧ s.bestTime ≠ s.f Fld.TIM_STAT_SRC)) ∧
    Met (withF [(Fld.TIM_CFG_PPS_EN, 1)]) ((withF [(Fld.TIM_CFG_PPS_EN, 1)]).fb Fld.TIM_CFG_PPS_EN = true ∧
      (withF [(Fld.TIM_CFG_PPS_EN, 1)]).tim.ppsRise = none) ∧
    (let s : State := { withF [(Fld.TIM_CFG_PPS_EN, 1)] with tim := { State.reset.tim with ppsRise := some (0, 0), raw := 80000000 } }
     Met s (s.tim.ppsRise = some (0, 0) ∧ ppsClass (s.tim.raw - 0) = some 0 ∧ s.ppsAccepts 0 = true ∧ ppsClass 79999999 = none ∧
       ppsClass 550000000 = some 3 ∧ s.ppsAccepts 3 = false)) ∧
    Met (withF [(Fld.TIM_STAT_PPS_AVAIL, 1)]) ((withF [(Fld.TIM_STAT_PPS_AVAIL, 1)]).fb Fld.TIM_STAT_PPS_AVAIL = true) ∧
    Met (withF [(Fld.TIM_CFG_TPULSE_EN, 1), (Fld.TIM_STAT_EXT_OK, 1)])
      ((withF [(Fld.TIM_CFG_TPULSE_EN, 1), (Fld.TIM_STAT_EXT_OK, 1)]).fb Fld.TIM_CFG_TPULSE_EN = true ∧
       (withF [(Fld.TIM_CFG_TPULSE_EN, 1), (Fld.TIM_STAT_EXT_OK, 1)]).muted = false ∧
       (withF [(Fld.TIM_CFG_TPULSE_EN, 1), (Fld.TIM_STAT_EXT_OK, 1)]).fb Fld.TIM_STAT_EXT_OK = true) :=
  ⟨met (by decide), met (by decide), met (by decide), met (by decide), met (by decide), met (by decide)⟩

/-- UART 7 in operation. -/
def uart (x : UartSt) (l : List (RF × Nat)) : State :=
  let s := up ([en 27, (Fld.UAT_CFG_EN 7, 1)] ++ l)
  { s with uart := setNth s.uart 7 x }

theorem met_UartMovesCharacters :
    (let s := uart {} []
     Met s ((7 : Nat) < 8 ∧ 7 < s.uart.length ∧ s.uartOn 7 = true ∧ (s.uartOf 7).rx.length < 1024 ∧ s.liveSrc 1 7 = false ∧
       (s.uartOf 7).rx = [] ∧ (s.uartOf 7).stamps = [] ∧ (s.uartOf 7).tx = [] ∧ (s.uartOf 7).tx.length < 255 ∧
       s.locked (Adr.UAT_DIV 7) = false ∧ (868 : Nat) ≤ (868 : Word).toNat % 2 ^ 18 ∧ (867 : Word).toNat % 2 ^ 18 < 868 ∧
       (166667 : Word).toNat % 2 ^ 18 ≤ 166667 ∧ bitOf (s.uartWord 7 (s.f (Fld.UAT_CFG_SOS1 7)) false false false) 11 = true ∧
       bitOf (s.uartWord 7 1 false false true) 11 = false)) ∧
    (let s := uart { rx := [65], stamps := [(2 ^ 64 - 1, 0)], tx := [66] } []
     Met s ((s.uartOf 7).rx = 65 :: [] ∧ (s.uartOf 7).stamps = (2 ^ 64 - 1, 0) :: [] ∧ 2 ^ 64 - 1 < 2 ^ 64 ∧ (s.uartOf 7).tx = 66 :: [] ∧
       s.muted = false ∧ s.fb (Fld.UAT_CFG_DATA7 7) = false)) ∧
    Met (withR [(hdr 27 7, 7)]) ((withR [(hdr 27 7, 7)]).locked (Adr.UAT_DIV 7) = true) :=
  ⟨met (by decide +kernel), met (by decide +kernel), met (by decide)⟩

theorem met_UartMovesCharacters_full :
    let s := uart { rx := List.replicate 1024 65, tx := List.replicate 255 66 } []
    Met s (1024 ≤ (s.uartOf 7).rx.length ∧ 255 ≤ (s.uartOf 7).tx.length) := met (by decide +kernel)

/-! ### Hypotheses met: ledger and vault, flash -/

/-- The ledger writes, and holds its ring. -/
def lgr (l : List (RF × Nat)) (f : LgrSt → LgrSt) : State :=
  let s := withF ([(Fld.LGR_CFG_EN, 1), (Fld.LGR_CFG_RING_BANK, 60), (Fld.MEM_DEED_HOLDER 60, 26)] ++ l)
  { s with lgr := f s.lgr }

theorem met_LedgerTakesAndStages :
    (let s := lgr [] fun x => { x with start := some {} }
     s.Inv ∧ s.pwr.on = true ∧ s.f Fld.LGR_CFG_EN = 1 ∧ s.ringHeld s.lgr.nextSeq = true ∧ s.lgr.start = some {}) ∧
    (let s := lgr [] fun x => { x with lost := 1, queue := [{}] }
     s.Inv ∧ s.ringHeld s.lgr.nextSeq = true ∧ s.lgr.start = none ∧ s.slotBusy s.lgr.nextSeq = false ∧ 0 < s.lgr.lost) ∧
    (let s := lgr [] fun x => { x with queue := [{}], nextSeq := 63 }
     s.Inv ∧ s.ringHeld s.lgr.nextSeq = true ∧ s.lgr.start = none ∧ s.lgr.queue = {} :: [] ∧ s.slotBusy s.lgr.nextSeq = false ∧ s.lgr.lost = 0 ∧
       s.lgr.vState = 0 ∧ s.lgr.nextSeq % 64 = 63) ∧
    (let s := lgr [] fun x => { x with queue := [{}], nextSeq := 16384, unflushed := [(0, 0)] }
     s.Inv ∧ s.ringHeld s.lgr.nextSeq = true ∧ s.lgr.start = none ∧ s.lgr.queue = {} :: [] ∧ s.slotBusy s.lgr.nextSeq = true) ∧
    (let s := lgr [(Fld.LGR_CFG_EN, 0)] id
     s.Inv ∧ ¬(s.f Fld.LGR_CFG_EN = 1)) :=
  ⟨⟨inv_of rfl rfl rfl (by decide), by decide⟩, ⟨inv_of rfl rfl rfl (by decide), by decide⟩, ⟨inv_of rfl rfl rfl (by decide), by decide⟩,
   ⟨inv_of rfl rfl rfl (by decide), by decide⟩, ⟨inv_of rfl rfl rfl (by decide), by decide⟩⟩

theorem met_LedgerTakesAndStages_software :
    (let s := withR [(Adr.LGR_SW 3 0, 0x2401_0300), (Adr.LGR_CFG, State.reset.reg Adr.LGR_CFG ||| 0x8000_0000)]
     let w := (s.reg (Adr.LGR_SW 3 0)).toNat
     Met s ((3 : Nat) < 4 ∧ ¬(bitsOf w 15 0 < 768 ∨ 1023 < bitsOf w 15 0 ∨ 36 < bitsOf w 31 24) ∧ s.f Fld.LGR_CFG_EN = 1 ∧ s.lgr.queue.length < 256)) ∧
    (let s : State := { withR [(Adr.LGR_SW 3 0, 0x2401_03FF), (Adr.LGR_CFG, State.reset.reg Adr.LGR_CFG ||| 0x8000_0000)] with
       lgr := { State.reset.lgr with queue := List.replicate 256 {} } }
     let w := (s.reg (Adr.LGR_SW 3 0)).toNat
     Met s (¬(bitsOf w 15 0 < 768 ∨ 1023 < bitsOf w 15 0 ∨ 36 < bitsOf w 31 24) ∧ s.f Fld.LGR_CFG_EN = 1 ∧ 256 ≤ s.lgr.queue.length)) ∧
    (let s := withR [(Adr.LGR_SW 0 0, 0x2501_0300)]
     Met s (36 < bitsOf (s.reg (Adr.LGR_SW 0 0)).toNat 31 24)) ∧
    (let s := withR [(Adr.LGR_SW 0 0, 0x0001_0300), (Adr.LGR_CFG, State.reset.reg Adr.LGR_CFG &&& 0x7FFF_FFFF)]
     Met s (s.f Fld.LGR_CFG_EN = 0)) :=
  ⟨met (by decide +kernel), met (by decide +kernel), met (by decide), met (by decide)⟩

theorem met_LedgerFlushesAndResumes :
    Met State.reset (State.reset.lgr.unflushed = []) ∧
    (let s : State := { withF [(Fld.NFC_CFG_EN, 1), (Fld.NFC_STAT_STATE, 2)] with
       lgr := { State.reset.lgr with unflushed := [(64, 0)], units := [1] } }
     Met s (s.lgr.unflushed = [] ++ [(64, 0)] ∧ s.lgr.unflushed = (64, 0) :: [] ∧ s.lgr.units = 1 :: [] ∧ s.f Fld.NFC_STAT_STATE ≠ 1 ∧
       s.nfcReady = true ∧ (false && s.nfcReady) = false)) ∧
    (let s := up [(Fld.NFC_STAT_STATE, 2)]
     Met s (s.lgr.scanned = false ∧ s.pwr.mainHeld = false ∧ s.f Fld.NFC_STAT_STATE ≠ 1 ∧ s.mm.cleared = true)) :=
  ⟨met (by decide), met (by decide), met (by decide)⟩

theorem met_VaultAndExtraction :
    Met State.reset (State.reset.lgr.vState = 0 ∧ State.reset.lgr.vState ≠ 2 ∧ State.reset.lgr.vState ≠ 3 ∧ State.reset.lgr.xtr = false ∧
      ¬State.reset.lgr.vState = 1 ∧ State.reset.releaseResult ≠ 1) ∧
    (let s := lgr [] fun x => { x with vState := 2, xtr := true }
     Met s (s.lgr.vState = 2 ∧ s.lgr.vState ≠ 0 ∧ s.lgr.xtr = true)) ∧
    (let s := lgr [] fun x => { x with vState := 3 }
     Met s (s.lgr.vState = 3 ∧ s.lgr.nonce = none)) ∧
    (let s := lgr [(Fld.LGR_VAULT_CFG_CROSS, 1)] fun x => { x with vState := 1 }
     Met s (s.lgr.vState = 1 ∧ s.fb Fld.LGR_VAULT_CFG_CROSS = true ∧ s.lgr.vTrig = false ∧ s.f Fld.LGR_CFG_EN = 1 ∧ s.lgr.queue.length < 256)) :=
  ⟨met (by decide), met (by decide), met (by decide), met (by decide)⟩

/-- The flash manager in a state, with its medium and a request. -/
def nfc (st : Nat) (f : NfcSt → NfcSt) (l : List (RF × Nat)) : State :=
  let s := up ([(Fld.NFC_CFG_EN, 1), (Fld.NFC_STAT_STATE, st)] ++ l)
  { s with nfc := f s.nfc }

theorem met_FlashMountsItsMedium :
    Met (nfc 1 id []) ((nfc 1 id []).pwr.mainHeld = false ∧ (nfc 1 id []).f Fld.NFC_STAT_STATE = 1 ∧ (nfc 1 id []).fb Fld.NFC_CFG_EN = true ∧
      (nfc 1 id []).nfc.supported = true ∧ (nfc 1 id []).nfc.head = none ∧ (false || true) = true ∧ (false || false) = false) ∧
    Met State.reset (State.reset.pwr.mainHeld = true) ∧
    (let s := nfc 1 (fun x => { x with supported := false }) []
     Met s (s.f Fld.NFC_STAT_STATE = 1 ∧ s.fb Fld.NFC_CFG_EN = true ∧ s.nfc.supported = false)) ∧
    (let s := nfc 1 (fun x => { x with head := some {} }) []
     Met s (s.f Fld.NFC_STAT_STATE = 1 ∧ s.nfc.supported = true ∧ s.nfc.head = some {} ∧ s.nfc.head ≠ none ∧ (true && false) = false)) :=
  ⟨met (by decide), met (by decide), met (by decide), met (by decide)⟩

/-- A strongbox image of no bank and its CRC, taken in four parts. -/
def crcPart (c : Nat) (l : List Byte) : Nat := l.foldl (fun c (b : Byte) => crcRefSteps 0x82F63B78 8 (c ^^^ b.toNat)) c
def image0 : List Byte := ascii "DQSB" ++ [1, 0] ++ zeros 46 ++ leBytes 4 0xff0455c8 ++ zeros 200

theorem crc32c_parts (a b c d : List Byte) :
    crc32c (a ++ (b ++ (c ++ d))) = crcPart (crcPart (crcPart (crcPart 0xFFFFFFFF a) b) c) d ^^^ 0xFFFFFFFF := by
  unfold crc32c crcPart
  rw [List.foldl_append, List.foldl_append, List.foldl_append]

theorem image0_part : crcPart 0xFFFFFFFF (ascii "DQSB" ++ [1, 0] ++ zeros 58) = 0xfaa63eb9 ∧ crcPart 0xfaa63eb9 (zeros 64) = 0xd127cd45 ∧
    crcPart 0xd127cd45 (zeros 64) = 0x4c6bb7cf ∧ crcPart 0x4c6bb7cf (zeros 64) = 0xfbaa37 := by decide +kernel

theorem image0_crc : imageCrc image0 = 0xff0455c8 := by
  have h : putAt (image0.take 256) 52 4 0 ++ (image0.drop (8192 * leAt image0 6 1)).take (0x4_0000 * leAt image0 6 1) =
      (ascii "DQSB" ++ [1, 0] ++ zeros 58) ++ (zeros 64 ++ (zeros 64 ++ zeros 64)) := by decide +kernel
  unfold imageCrc
  rw [h, crc32c_parts, image0_part.1, image0_part.2.1, image0_part.2.2.1, image0_part.2.2.2]
  decide

/-- An object of partition `p` without payload: its header, the SHA-384 of nothing and an empty trailer. -/
def obj (kind : Byte) (hash : List Byte) : List Byte :=
  padTo 224 (ascii "DQOB" ++ [1, 0, kind, 0, 0, 0, 0, 0, 0, 0, 0, 0] ++ hash)

/-- A request on partition `p` with `n` bytes of `o` at 0x08_0000_0000 in DRAM, and objects on the medium. -/
def req (st op p n : Nat) (o : List Byte) (l : List NObj) : State :=
  { nfc st (fun x => { x with req := some ⟨op, p, 0⟩, objs := l }) [(Fld.NFC_REQ_DRAM_ADDR, 0x8_0000), (Fld.NFC_REQ_LEN_BYTES, n)] with
    mem := cells 0x08_0000_0000 o }

theorem met_FlashTakesAndServes_taken :
    (let s := nfc 2 (fun x => { x with req := some ⟨1, 1, 0⟩ }) []
     Met s (s.nfc.req ≠ none)) ∧
    (let s := nfc 2 id []
     Met s (s.nfc.req = none ∧ opServed 1 1 = true ∧ s.f Fld.FWL_STAT_ENFORCE = 0 ∧ 1 = 1 + s.f Fld.NFC_STAT_RUN_SLOT ∧ opServed 1 2 = true ∧
       2 ≠ 1 + s.f Fld.NFC_STAT_RUN_SLOT ∧ opServed 1 5 = false ∧ opServed 2 4 = true ∧ opServed 3 4 = true ∧ opServed 4 5 = true)) :=
  ⟨met (by decide), met (by decide)⟩

theorem met_FlashTakesAndServes_write :
    (let s := req 3 1 3 224 [] []
     Met s (s.nfc.req = some ⟨1, 3, 0⟩ ∧ 2 ≤ s.f Fld.NFC_STAT_STATE ∧ s.nfcReady = false)) ∧
    (let s := req 2 1 3 223 [] []
     Met s (s.nfcReady = true ∧ s.f Fld.NFC_REQ_LEN_BYTES < 224)) ∧
    (let s : State := { req 2 1 3 224 [] [] with
       regs := (withF [(Fld.NFC_CFG_EN, 1), (Fld.NFC_STAT_STATE, 2), (Fld.NFC_REQ_DRAM_ADDR, 0x8_0000), (Fld.NFC_REQ_LEN_BYTES, 224)]).regs }
     Met s (s.nfcReady = true ∧ (s.mRead 21 s.reqAddr 224).rsp ≠ .okay)) ∧
    (let s := req 2 1 3 224 [] []
     let r := s.mRead 21 s.reqAddr 224
     Met s (s.nfcReady = true ∧ r.rsp = .okay ∧ objHeadOk 3 0 r.data = false)) ∧
    (let s := req 2 1 3 224 (obj 2 []) []
     let r := s.mRead 21 s.reqAddr 224
     Met s (r.rsp = .okay ∧ objHeadOk 3 0 r.data = true ∧ objHashOk r.data = false)) ∧
    (let s := req 2 1 3 224 (obj 2 (sha384 [])) []
     let r := s.mRead 21 s.reqAddr 224
     Met s (s.f Fld.NFC_REQ_LEN_BYTES = 224 ∧ 224 ≤ partQuota 3 ∧ r.rsp = .okay ∧ objHeadOk 3 0 r.data = true ∧ objHashOk r.data = true ∧ 3 ≠ 5)) :=
  ⟨met (by decide), met (by decide), met (by decide +kernel), met (by decide +kernel), met (by decide +kernel), met (by decide +kernel)⟩

theorem met_FlashTakesAndServes_read :
    (let s := req 2 2 1 0 [] [⟨1, 0, 0, obj 1 [], [], []⟩]
     Met s (s.nfcReads = true ∧ s.objAt 1 0 = some ⟨1, 0, 0, obj 1 [], [], []⟩ ∧ leAt (obj 1 []) 6 1 < 2 ∧ (1 : Nat) ≠ 3)) ∧
    (let s := req 2 2 3 0 [] [⟨3, 0, 0, obj 2 [], [], []⟩]
     Met s (s.objAt 3 0 = some ⟨3, 0, 0, obj 2 [], [], []⟩ ∧ 2 ≤ leAt (obj 2 []) 6 1 ∧ objHashOk (obj 2 []) = false)) ∧
    (let s := req 2 2 3 0 [] [⟨3, 0, 0, obj 2 (sha384 []), [], []⟩]
     Met s (2 ≤ leAt (obj 2 (sha384 [])) 6 1 ∧ objHashOk (obj 2 (sha384 [])) = true ∧ s.objSigOk (obj 2 (sha384 [])) = false)) ∧
    (let s := req 6 2 3 0 [] [⟨3, 0, 0, [], [], [0]⟩]
     Met s (s.nfcReads = false ∧ s.f Fld.NFC_STAT_STATE = 6)) ∧
    (let s := req 2 3 3 0 [] [⟨3, 0, 0, [], [], [0]⟩]
     Met s (s.nfcReady = true ∧ s.objAt 3 0 ≠ none ∧ s.objAt 3 1 = none ∧ ([0] : List Nat) ≠ [])) ∧
    (let s := req 2 4 5 0 [] []
     Met s (s.bestImage = none)) ∧
    Met State.reset (State.reset.nfc.req = none) :=
  ⟨met (by decide +kernel), met (by decide +kernel), met (by decide +kernel), met (by decide), met (by decide), met (by decide +kernel),
   met (by decide)⟩

theorem met_FlashTakesAndServes_image : Met (req 2 4 5 0 [] [⟨5, 0, 0, image0, [], []⟩])
    ((req 2 4 5 0 [] [⟨5, 0, 0, image0, [], []⟩]).bestImage = some image0) := by
  have hi : (req 2 4 5 0 [] [⟨5, 0, 0, image0, [], []⟩]).imageOk image0 = true := by
    unfold State.imageOk
    rw [image0_crc]
    decide +kernel
  refine met ⟨by decide, by decide, ?_⟩
  have ho : (((req 2 4 5 0 [] [⟨5, 0, 0, image0, [], []⟩]).objsOf 5).reverse.filter NObj.whole).map (fun o => o.data) = [image0] := by
    decide +kernel
  unfold State.bestImage
  rw [if_pos (by decide), ho, List.find?_cons, hi]

theorem met_FlashMediumIsKept :
    (let s := nfc 2 (fun x => { x with blocks := [(16383, { use := 2 })] }) []
     Met s (16383 < s.nfc.nBlocks ∧ (s.nblk 16383).bad = 0 ∧ s.headBlk 16383 = false ∧ s.nfcReads = true ∧ s.nfcReady = true ∧ (s.nblk 16383).use = 2)) ∧
    (let s := nfc 2 (fun x => { x with blocks := [(2, { use := 1, move := 1 })] }) []
     Met s (s.nfcReady = true ∧ (s.nblk 2).use = 1 ∧ (s.nblk 2).bad = 0 ∧ (s.nblk 2).move ≠ 0)) ∧
    (let s := nfc 2 (fun x => { x with objs := [⟨2, 0, 0, [], [], []⟩] }) []
     Met s (bitsOf (0xB007_0001 : Word).toNat 31 16 = 0xB007 ∧ s.nfcReady = true ∧ s.objAt (1 + (0xB007_0001 : Word).toNat % 2) 0 ≠ none ∧
       s.objAt (1 + (0xB007_0000 : Word).toNat % 2) 0 = none ∧ bitsOf (0 : Word).toNat 31 16 ≠ 0xB007)) ∧
    (let s := nfc 4 id []
     Met s ((0xF0A7 : Word).toNat % 65536 = 0xF0A7 ∧ s.lcs.state ≠ 3 ∧ s.lgr.vState ≠ 2 ∧ s.lgr.vState ≠ 3 ∧ s.fb Fld.NFC_CFG_EN = true ∧
       s.f Fld.NFC_STAT_STATE = 4 ∧ s.nfcReady = false ∧ ¬(0 : Word).toNat % 65536 = 0xF0A7)) :=
  ⟨met (by decide), met (by decide), met (by decide), met (by decide)⟩


/-! ### A released vault -/

def released : State :=
  { State.reset with
    regs := put96 (Adr.LCS_PUBKEY 0) (beBytes 48 0x7F20D2DA02AD4B3F3EF6A4F3EE515E89C43AD6680EA966068B7F95C4601F4E6AF2BAC7E4FEB54E23668A8988C6FE7ED5 ++
        beBytes 48 0x5CD0D301A5317016FE4B26A9183C4752B2E50B903ECF2AFC32F3200C15F2A7D1F17D5DCB0DAD3F054332D0C83AD7DFDB) ++
      put96 (Adr.LGR_TOKEN 0) (beBytes 48 0x36B9A93A7E56BE12017972EB4434E9D754AA412975F0734D0C8E6AFCC6DCA472F347EB537D42D1CDEBE5360D495E6FDA ++
        beBytes 48 0x36B9A93A7E56BE12017972EB4434E9D754AA412975F0734D0C8E6AFCC6DCA472F347EB537D42D1CDEBE5360D495E6FDA),
    lcs := { State.reset.lcs with lgrHash := some (sha384 (beBytes 48 0x7F20D2DA02AD4B3F3EF6A4F3EE515E89C43AD6680EA966068B7F95C4601F4E6AF2BAC7E4FEB54E23668A8988C6FE7ED5 ++
      beBytes 48 0x5CD0D301A5317016FE4B26A9183C4752B2E50B903ECF2AFC32F3200C15F2A7D1F17D5DCB0DAD3F054332D0C83AD7DFDB)) },
    lgr := { State.reset.lgr with vState := 3, nonce := some 0 } }

theorem releaseResult_one {s : State} {n : BitVec 64} (hv : s.lgr.vState = 3) (hn : s.lgr.nonce = some n)
    (hh : s.lcs.lgrHash = some (sha384 s.pubKey)) (he : ecdsaVerify s.pubKey (s.releaseMsg n) (s.words (Adr.LGR_TOKEN 0) 24) = true) :
    s.releaseResult = 1 := by
  simp [State.releaseResult, hv, hn, hh, he]

theorem met_vaultRelease : Met released (released.lgr.vState = 3 ∧ released.releaseResult = 1) :=
  met ⟨by decide, by decide +kernel, by decide, releaseResult_one (n := 0) rfl rfl (by decide +kernel)
    (verify_of (by decide +kernel) (by decide +kernel) (by decide +kernel) (by decide +kernel) (by decide +kernel) (by decide +kernel)
      (by decide +kernel))⟩


/-! ### Refused: ill-formed terms, one for each check -/

theorem test_wf_names : isMaster 28 = false ∧ isPage 153 = false ∧ isTarget 5 = false ∧ isSource 512 = false ∧ isLane 96 = false ∧
    isFusPort 32 = false ∧ isGnsChannel 56 = false ∧ isFltChannel 16 = false ∧ isSlot 64 = false ∧ isCan 8 = false ∧
    isThruster 24 = false ∧ isMac 4 = false ∧ isUart 8 = false ∧ isDma 32 = false ∧ isMemAddr (2 ^ 40) = false := by decide

theorem test_wf_request : (Req.mk 28 .read 0 4 [] []).wf = false ∧ (Req.mk 0 .read (2 ^ 40) 4 [] []).wf = false ∧
    (Req.mk 0 .write 0 1 [0, 0] []).wf = false ∧ (Req.mk 0 .write 0 1 [0] [true, true]).wf = false ∧
    (Req.mk 0 .write 0 1 [0] [true]).wf = true := by decide

theorem test_wf_frame : (CanFrame.mk 2048 false false false false false 0 []).wf = false ∧
    (CanFrame.mk (2 ^ 29) true false false false false 0 []).wf = false ∧ (CanFrame.mk 0 false false false false false 16 []).wf = false ∧
    (CanFrame.mk 0 false false true false false 15 (zeros 65)).wf = false ∧ (Upset.mk (2 ^ 40) true).wf = false := by decide

theorem test_wf_edge : (EdgeIn.mk [⟨56, false, true, false, 0, 0, 0, 0, 0, 0⟩] [] [] [] [] [] 0 [] 0).wf = false ∧
    (EdgeIn.mk [] [] [] [] [] [] 0 [⟨96, 4, 0⟩] 0).wf = false ∧ (EdgeIn.mk [] [] [] [] [] [] 0 [] 0).wf = true := by decide

theorem test_wf_registers : (Instr.registerWrite 0 (153 * 1024) 0).wf = false ∧ (Instr.depositWindowWrite 0 0 16 0).wf = false ∧
    (Instr.ifDown 2).wf = false ∧ (Instr.fltCfgWrite 17 0).wf = false ∧ (Instr.txAbort 0 32).wf = false ∧
    (Instr.canError 0 0 false 0 0).wf = false ∧ (Instr.canError 0 7 false 0 0).wf = false ∧ (Instr.diFilterChange 16 0).wf = false ∧
    (Instr.pulseEdge 8).wf = false ∧ (Instr.outputTrip 16).wf = false ∧ (Instr.discrep 2).wf = false ∧
    (Instr.icvoLaneDown 2).wf = false ∧ (Instr.uartCharRx 0 256 false false false 0).wf = false ∧ (Instr.deedPass 0 64 0).wf = false ∧
    (Instr.deedPass 0 0 32).wf = false ∧ (Instr.ruleSelect 4096).wf = false ∧ (Instr.tmxSelect 8 0).wf = false ∧
    (Instr.fwlArm (2 ^ 32)).wf = false ∧ (Instr.powerStateChange 16).wf = false ∧ (Instr.blockReset 0 [28]).wf = false ∧
    (Instr.dbgAccess (some ⟨28, .read, 0, 4, [], []⟩) none).wf = false := by decide


/-! ### Arithmetic and the published functions the spec names -/

/-- The check value of CRC-32C for the digits 1 to 9. -/
theorem test_crc32c_check : crc32c (ascii "123456789") = 0xE3069283 := by decide +kernel

/-- FIPS 180-4: the SHA-384 digest of "abc". -/
theorem test_sha384_abc : ofBe (sha384 (ascii "abc")) =
    0xcb00753f45a35e8bb5a03d699ac65007272c32ab0eded1631a8b605a43ff5bed8086072ba1e7cc2358baeca134c825a7 := by decide +kernel

/-- IEEE 754: 1 + 2⁻²⁴ is a tie and rounds to even; 1 + 3·2⁻²⁴ rounds up; a third; the product of two smallest normals is 0. -/
theorem test_binary32 : fAdd 0x3F800000 0x33800000 = 0x3F800000 ∧ fAdd 0x3F800001 0x33800000 = 0x3F800002 ∧
    fDiv 0x3F800000 0x40400000 = 0x3EAAAAAB ∧ fMul 0x00800000 0x00800000 = 0 ∧
    fAdd 0x7F7FFFFF 0x7F7FFFFF = 0x7F800000 := by decide +kernel

/-- A quarter turn of 9,000 hundredths is 2³⁰ counts, and back. -/
theorem test_angle_scale : angIn 9000 = 2 ^ 30 ∧ angOut (2 ^ 30) = 9000 ∧ angIn 27000 = -(2 ^ 30) := by decide +kernel


/-! ### Steps -/

/-- What a step leaves. -/
def after (s : State) (c : Instr) : State :=
  match step { s with pending := c :: s.pending } with
  | .next t => t
  | _ => s

/-- The commands that wait are taken first in, first out. -/
theorem test_queue_order : (after { State.reset with pending := [.tapBypass] } .tapIdcode).pending = [.tapBypass] := by decide

/-- The identification code of the TAP (R459). -/
theorem test_idcode : (after State.reset .tapIdcode).tap.out = 0x1960058B := by decide

/-- The raw counter wraps (R356). -/
theorem test_raw_wraps : ({ State.reset with tim := { State.reset.tim with raw := 2 ^ 64 - 1 } } : State).tick.tim.raw = 0 := by decide

/-- Only the shepherd core changes `SHP` (R27). -/
theorem test_route_shp :
    (after State.reset (.evtRouteWrite 0 5 0x100)).f (Fld.EVT_ROUTE_SHP 5) = State.reset.f (Fld.EVT_ROUTE_SHP 5) ∧
    (after State.reset (.evtRouteWrite 4 5 0)).f (Fld.EVT_ROUTE_SHP 5) = 0 ∧
    (after State.reset (.evtRouteWrite 4 5 0x100)).f (Fld.EVT_ROUTE_SHP 5) = 1 := by decide +kernel

/-- The least and the greatest divisor of R368 are taken; the one below is refused and kept out. -/
theorem test_uart_divisor : (after State.reset (.uartDivWrite 3 868)).f (Fld.UAT_DIV_DIV 3) = 868 ∧
    (after State.reset (.uartDivWrite 3 867)).f (Fld.UAT_DIV_DIV 3) = 166667 ∧
    (after State.reset (.uartDivWrite 3 166668)).f (Fld.UAT_DIV_DIV 3) = 166667 := by decide +kernel

/-- A request outside every region is answered `DECERR` (R17). -/
theorem test_decode_error : (after State.reset (.fabricRequest (rq 0 .read 0x1100_0000 4))).answer.rsp = .decErr := by decide +kernel

/-- A bank passed to the next holder; a master that holds nothing cannot pass it (R417). -/
theorem test_deed_pass : (after (withF [(Fld.MEM_DEED_HOLDER 9, 2)]) (.deedPass 2 9 7)).f (Fld.MEM_DEED_HOLDER 9) = 7 ∧
    (after (withF [(Fld.MEM_DEED_HOLDER 9, 2)]) (.deedPass 3 9 7)).f (Fld.MEM_DEED_HOLDER 9) = 2 := by decide +kernel

/-- The debug port is closed in `FIELD`: the request is `BYPASS` (R458). -/
theorem test_debug_closed : (after State.reset (.dbgAccess (some (rq 22 .read 0x1000_0000 4)) none)).tap.ir = .bypass := by decide +kernel

/-- A received character is counted and held (R369). -/
theorem test_uart_rx : (after (uart {} []) (.uartCharRx 7 36 false false false 0)).f (Fld.UAT_RXCHARS_COUNT 7) = 1 ∧
    ((after (uart {} []) (.uartCharRx 7 36 false false false 0)).uartOf 7).stamps.length = 1 ∧
    ((after (uart {} []) (.uartCharRx 7 65 false false false 0)).uartOf 7).stamps.length = 0 := by decide +kernel

/-- Event bits set by a write of `xxx_EVENT_SET` are those the block has (R499). -/
theorem test_event_set : (after State.reset (.eventSet 149 0)).reg (hdr 149 4) = 0 ∧
    (after State.reset (.eventSet 149 1)).reg (hdr 149 4) = 1 := by decide +kernel

/-- With a wrong key the tables are not armed (R442). -/
theorem test_arm_key : (after State.reset (.fwlArm 0x10C5)).f Fld.FWL_STAT_ENFORCE = 0 ∧
    (after State.reset (.fwlArm 0x10C4)).f Fld.FWL_STAT_ENFORCE = 1 := by decide +kernel

/-- Without power nothing happens. -/
theorem test_unpowered : after dark .tapIdcode = dark := by decide +kernel

end Sys2Proof.Tests
end

section
/-! ## The machine as a whole, claims, shared SRAM and device resets

The statements of *Architecture*: what a step runs, the event controller's claims (R25, R26), shared SRAM behind the deed check (R15, R417)
and the cold resets (R23, R467, R468, R482). The lemmas about the model's operations stand first, each statement's proof after them. -/

namespace Sys2Proof.Laws

open Sys2Proof.Machine

/-! ### The source a claim takes (R25) -/

/-- Source `n` goes before source `m`: a higher priority, or an equal one and no higher number. -/
def Outranks (s : State) (n m : Nat) : Prop :=
  s.f (Fld.EVT_ROUTE_PRIO m) < s.f (Fld.EVT_ROUTE_PRIO n) ∨ (s.f (Fld.EVT_ROUTE_PRIO m) = s.f (Fld.EVT_ROUTE_PRIO n) ∧ n ≤ m)

theorem Outranks.antisymm {s : State} {m n : Nat} (h : Outranks s n m) (k : Outranks s m n) : n = m := by
  unfold Outranks at h k
  omega

theorem Outranks.trans {s : State} {l m n : Nat} (h : Outranks s n m) (k : Outranks s m l) : Outranks s n l := by
  unfold Outranks at h k ⊢
  omega

/-- `b` is the source that target `t` claims among those below `k`. -/
inductive Best (s : State) (t k : Nat) : Option Nat → Prop where
  | none (h : ∀ m, m < k → s.claimable t m = false) : Best s t k none
  | some {n : Nat} (hn : n < k) (hc : s.claimable t n = true) (h : ∀ m, m < k → s.claimable t m = true → Outranks s n m) :
      Best s t k (some n)

/-- One source considered in the search for the best one. -/
def pickSource (s : State) (t : Nat) (b : Option Nat) (n : Nat) : Option Nat :=
  if s.claimable t n then
    match b with
    | none => some n
    | some m => if s.f (Fld.EVT_ROUTE_PRIO m) < s.f (Fld.EVT_ROUTE_PRIO n) then some n else some m
  else b

theorem bestSource_eq (s : State) (t : Nat) : s.bestSource t = (List.range 512).foldl (pickSource s t) none := rfl

theorem pickSource_best {s : State} {t k : Nat} {b : Option Nat} (h : Best s t k b) : Best s t (k + 1) (pickSource s t b k) := by
  unfold pickSource
  by_cases hk : s.claimable t k = true
  · rw [if_pos hk]
    cases h with
    | none h =>
      refine .some (Nat.lt_succ_self k) hk (Nat.forall_lt_succ_right.2 ⟨fun m hm hc => ?_, fun _ => Or.inr ⟨rfl, Nat.le_refl _⟩⟩)
      exact absurd hc (ne_true_of_eq_false (h m hm))
    | @some n hn hc h =>
      by_cases hp : s.f (Fld.EVT_ROUTE_PRIO n) < s.f (Fld.EVT_ROUTE_PRIO k)
      · simp only [if_pos hp]
        exact .some (Nat.lt_succ_self k) hk (Nat.forall_lt_succ_right.2
          ⟨fun m hm hcm => Outranks.trans (Or.inl hp) (h m hm hcm), fun _ => Or.inr ⟨rfl, Nat.le_refl _⟩⟩)
      · simp only [if_neg hp]
        have hnk : Outranks s n k := by
          unfold Outranks
          omega
        exact .some (Nat.lt_succ_of_lt hn) hc (Nat.forall_lt_succ_right.2 ⟨h, fun _ => hnk⟩)
  · rw [if_neg hk]
    cases h with
    | none h => exact .none (Nat.forall_lt_succ_right.2 ⟨h, Bool.eq_false_of_not_eq_true hk⟩)
    | some hn hc h => exact .some (Nat.lt_succ_of_lt hn) hc (Nat.forall_lt_succ_right.2 ⟨h, fun hck => absurd hck hk⟩)

/-- The search over the sources below `k` finds the best of them. -/
theorem best_foldl (s : State) (t k : Nat) : Best s t k ((List.range k).foldl (pickSource s t) none) := by
  induction k with
  | zero => exact .none fun m hm => absurd hm (Nat.not_lt_zero m)
  | succ k ih =>
    rw [List.range_succ, List.foldl_append]
    exact pickSource_best ih

theorem bestSource_best (s : State) (t : Nat) : Best s t 512 (s.bestSource t) := by
  rw [bestSource_eq]
  exact best_foldl s t 512

theorem bestSource_none {s : State} {t : Nat} (h : ∀ n, n < 512 → s.claimable t n = false) : s.bestSource t = none := by
  cases hb : s.bestSource t with
  | none => rfl
  | some n =>
    cases hb ▸ bestSource_best s t with
    | some hn hc _ => simp [h n hn] at hc

theorem bestSource_some {s : State} {t n : Nat} (hn : n < 512) (hc : s.claimable t n = true)
    (h : ∀ m, m < 512 → s.claimable t m = true → Outranks s n m) : s.bestSource t = some n := by
  cases hb : s.bestSource t with
  | none =>
    cases hb ▸ bestSource_best s t with
    | none h0 => simp [h0 n hn] at hc
  | some m =>
    cases hb ▸ bestSource_best s t with
    | some hm hcm hbest => rw [Outranks.antisymm (hbest n hn hc) (h m hm hcm)]

/-! ### Claims (R24–R26) -/

theorem doEvtClaim_none {s : State} {t : Nat} (h : s.bestSource t = none) : doEvtClaim s t = s.ansW 0 := by
  unfold doEvtClaim
  rw [h]

theorem doEvtClaim_some {s : State} {t n : Nat} (h : s.bestSource t = some n) :
    doEvtClaim s t =
      ({ s with evt := { s.evt with claimed := (t, n) :: s.evt.claimed } } : State).ansW (BitVec.ofNat 32 (2 ^ 31 + n)) := by
  unfold doEvtClaim
  rw [h]

/-- A source that a target has claimed is not claimable by it. -/
theorem claimable_of_claimed {s : State} {t n : Nat} (h : (t, n) ∈ s.evt.claimed) : s.claimable t n = false := by
  unfold State.claimable
  simp [h]

/-- The claims left by a write of `EVT_DONE`. -/
theorem mem_doEvtDone_claimed (s : State) (t n : Nat) (c : Nat × Nat) :
    c ∈ (doEvtDone s t n).evt.claimed ↔ c ∈ s.evt.claimed ∧ c ≠ (t, n) := by
  show c ∈ s.evt.claimed.filter (· ≠ (t, n)) ↔ _
  rw [List.mem_filter, decide_eq_true_eq]

/-! ### Offers to the ledger (R376, R377) -/

/-- Raising an event of the ledger's own page. -/
theorem Rings.raise {s : State} {e : Ev} (he : e.page = 148) : Rings s (s.raise e) := by
  unfold State.raise State.raiseBits
  rw [he]
  exact (Rings.ledgerEvent _).trans (Rings.linesFrom _ _ _ _)

theorem Rings.offer (s : State) (r : LRec) : Rings s (s.offer r) := Rings.offerWith (fun _ _ he => Rings.raise he) s r

theorem offer_kept {s : State} (w : s.regsWf) (f : FabSt) (r : LRec) :
    RegsKept ringWords s (({ s with fab := f } : State).offer r) := fun b hb =>
  ((Rings.offer _ r).kept (mk_wf w) b hb).trans (reg_mk b)

/-- The fabric's record of an error response changes no register but the ledger's. -/
theorem offerFabric_kept {s : State} (w : s.regsWf) (m code : Nat) (wr : Bool) (a : Nat) :
    RegsKept ringWords s (s.offerFabric m code wr a) := by
  unfold State.offerFabric
  split
  · exact fun _ _ => rfl
  · exact offer_kept w _ _

/-! ### Addresses of shared SRAM (R17) -/

/-- The `n` bytes from `a` lie in the plain view of shared SRAM. -/
structure InBanks (a n : Nat) : Prop where
  pos : 0 < n
  lo : sramBase ≤ a
  hi : a + n ≤ sramBase + 0x100_0000

theorem InBanks.last {a n : Nat} (h : InBanks a n) : InBanks (a + n - 1) 1 := by
  obtain ⟨hpos, hlo, hhi⟩ := h
  exact ⟨Nat.one_pos, by omega, by omega⟩

theorem InBanks.bounds {a n : Nat} (h : InBanks a n) : 0x1000_0000 ≤ a ∧ a + n ≤ 0x1100_0000 ∧ 0 < n := by
  obtain ⟨hpos, hlo, hhi⟩ := h
  unfold sramBase at hlo hhi
  omega

theorem InBanks.viewed {a n : Nat} (h : InBanks a n) : viewed a = a := by
  have hb := h.bounds
  unfold Machine.viewed
  rw [if_neg (by omega), if_neg (by omega)]

theorem InBanks.aliasOf {a n : Nat} (h : InBanks a n) : aliasOf a = none := by
  have hb := h.bounds
  unfold Machine.aliasOf
  rw [if_neg (by omega), if_neg (by omega)]

theorem InBanks.inSram {a n : Nat} (h : InBanks a n) : inSram a = true := by
  have hb := h.bounds
  unfold Machine.inSram sramBase
  rw [h.viewed, Bool.and_eq_true, decide_eq_true_eq, decide_eq_true_eq]
  omega

theorem InBanks.region {a n : Nat} (h : InBanks a n) : regionOf a = .sram := by
  have hb := h.bounds
  unfold regionOf
  rw [if_neg (by omega), if_neg (by omega), if_pos h.inSram]

theorem InBanks.port {a n : Nat} (h : InBanks a n) : portPage a = none := by
  unfold portPage
  rw [h.region]

/-! ### The gate before shared SRAM (R15, R18, R443) -/

theorem uncovered_open {s : State} (h : s.f Fld.FWL_STAT_ENFORCE = 0) (m : Nat) (k : Acc) (a n : Nat) : s.uncovered m k a n = none := by
  unfold State.uncovered
  rw [if_pos h]

/-- With the tables not enforced only the deed check stands before shared SRAM. -/
theorem gate_inBanks {s : State} {a n : Nat} (h : InBanks a n) (he : s.f Fld.FWL_STAT_ENFORCE = 0) (m : Nat) (k : Acc) :
    s.gate m k a n = if s.deedOk m k a n then none else some ((s.raise Ev.MEM_DEED_DENIED).refuse m k a .denied) := by
  have hb := h.bounds
  have hdecode : ¬(n = 0 ∨ regionOf a = .none ∨ regionOf (a + n - 1) ≠ regionOf a ∨ 2 ^ 40 < a + n ∨
      (regionOf a = .shp ∧ m ≠ 4)) := by
    rw [h.region, h.last.region]
    rintro (hn | hn | hn | hn | hn)
    · omega
    · cases hn
    · exact hn rfl
    · omega
    · cases hn.1
  unfold State.gate
  rw [if_neg hdecode, uncovered_open he]
  simp only [h.region, reduceCtorEq, false_and, and_false, if_false]
  cases s.deedOk m k a n <;> rfl

theorem deedOk_of_not_write {k : Acc} (hk : k ≠ .write) (s : State) (m a n : Nat) : s.deedOk m k a n = true := by
  unfold State.deedOk
  rw [Bool.or_eq_true, bne_iff_ne]
  exact Or.inl hk

/-- A write to shared SRAM is a memory request and no more. -/
theorem request_write_inBanks {s : State} {a n : Nat} (h : InBanks a n) (m : Nat) (d : List Byte) (en : List Bool) :
    s.request m .write a n d en = s.memReq m .write a n d en := by
  unfold State.request
  rw [if_neg (by rw [h.region]; decide)]
  rfl

/-- A read of shared SRAM may be noted as one of a live source (R53). -/
theorem request_inBanks {s : State} {a n : Nat} (h : InBanks a n) (m : Nat) (k : Acc) (d : List Byte) (en : List Bool) :
    s.request m k a n d en = s.memReq m k a n d en ∨
      s.request m k a n d en = { s.memReq m k a n d en with st := (s.memReq m k a n d en).st.noteLive m } := by
  unfold State.request
  rw [if_neg (by rw [h.region]; decide)]
  dsimp only
  split
  · exact Or.inr rfl
  · exact Or.inl rfl

theorem noteLive_parts (s : State) (m : Nat) : s.noteLive m = { s with frm := (s.noteLive m).frm } := by
  unfold State.noteLive
  split <;> rfl

/-! ### Sound memory (R423) -/

theorem eccAt_sound {s : State} (h : s.mm.ecc = []) (a : Nat) : s.eccAt a = 0 := by
  unfold State.eccAt
  rw [h]
  rfl

theorem find_ue_sound {s : State} (h : s.mm.ecc = []) (hs : List Nat) : hs.find? (fun a => s.eccAt a == 2) = none :=
  List.find?_eq_none.2 fun a _ => by rw [eccAt_sound h]; decide

theorem filter_ce_sound {s : State} (h : s.mm.ecc = []) (hs : List Nat) : hs.filter (fun a => s.eccAt a == 1) = [] :=
  List.filter_eq_nil_iff.2 fun a _ => by rw [eccAt_sound h]; decide

theorem mergeBytes_plain {o d : List Byte} (h : o.length = d.length) : mergeBytes none [] o d = d := by
  induction o generalizing d with
  | nil => exact (List.length_eq_zero_iff.1 h.symm).symm
  | cons x o ih =>
    cases d with
    | nil => cases h
    | cons y d => exact congrArg (y :: ·) (ih (Nat.succ.inj h))

theorem padTo_full {d : List Byte} {n : Nat} (h : d.length = n) : padTo n d = d := by
  unfold padTo zeros
  rw [h, Nat.sub_self, List.replicate_zero, List.append_nil]

theorem readBytes_inBanks {s : State} {a n : Nat} (h : InBanks a n) : s.readBytes a n = s.rdN a n := by
  unfold State.readBytes
  rw [if_neg (by rw [h.region]; decide), h.viewed]

theorem getElem_rdN (s : State) (a n i : Nat) (h : i < (s.rdN a n).length) : (s.rdN a n)[i] = s.rd8 (a + i) := by
  simp [State.rdN]

theorem length_rdN (s : State) (a n : Nat) : (s.rdN a n).length = n := by
  unfold State.rdN
  rw [List.length_map, List.length_range]

/-- A whole write that passes the gate to cleared, sound shared SRAM stores its bytes. -/
theorem memReq_write_inBanks {s : State} {m a n : Nat} {d : List Byte} (h : InBanks a n) (hg : s.gate m .write a n = none)
    (hv : s.available a n = true) (he : s.mm.ecc = []) (hd : d.length = n) :
    s.memReq m .write a n d [] = { st := s.store a d, rsp := .okay } := by
  unfold State.memReq
  rw [hg, h.port]
  simp only [Option.filter_none, hv, Bool.not_true, Bool.false_eq_true, if_false, if_true, find_ue_sound he, filter_ce_sound he,
    List.foldl_nil, h.viewed, h.aliasOf, readBytes_inBanks h, padTo_full hd, mergeBytes_plain ((length_rdN s a n).trans hd.symm)]

/-- A read that passes the gate to cleared, sound shared SRAM gives its bytes. -/
theorem memReq_read_inBanks {s : State} {m a n : Nat} {k : Acc} {d : List Byte} {en : List Bool} (hk : k ≠ .write) (h : InBanks a n)
    (hg : s.gate m k a n = none) (hv : s.available a n = true) (he : s.mm.ecc = []) :
    s.memReq m k a n d en = { st := s, rsp := .okay, data := s.rdN a n } := by
  unfold State.memReq
  rw [hg, h.port]
  simp only [Option.filter_none, hv, Bool.not_true, Bool.false_eq_true, if_false, if_neg hk, find_ue_sound he, filter_ce_sound he,
    List.foldl_nil, readBytes_inBanks h]

/-! ### What a store leaves in memory -/

/-- A byte of memory after `bs` has been written from `a` upward. -/
theorem spGet_memWrite {fs : List Fill} {bs : List Byte} {m : List Host.Cell} {a x : Nat} (h : spWf (memDflt fs) m = true) :
    spGet (memDflt fs) (memWrite fs bs m a) x =
      if a ≤ x then (bs[x - a]?).getD (spGet (memDflt fs) m x) else spGet (memDflt fs) m x := by
  induction bs generalizing m a with
  | nil => simp [memWrite]
  | cons b bs ih =>
    rw [memWrite, ih (spSet_wf _ a b h)]
    rcases Nat.lt_trichotomy x a with hx | rfl | hx
    · rw [if_neg (by omega), if_neg (by omega), spGet_set_ne _ (by omega) _ h]
    · rw [if_neg (by omega), if_pos (Nat.le_refl _), spGet_set_same _ _ _ h, Nat.sub_self]
      rfl
    · rw [if_pos (by omega), if_pos (by omega), spGet_set_ne _ (by omega) _ h, show x - a = x - (a + 1) + 1 by omega,
        List.getElem?_cons_succ]

theorem store_parts (s : State) (a : Nat) (bs : List Byte) :
    s.store a bs = { s with mem := memWrite s.mm.fill bs s.mem a, mm := (s.store a bs).mm } ∧ (s.store a bs).mm.fill = s.mm.fill := by
  unfold State.store
  dsimp only
  obtain ⟨d, hd⟩ := touch_dirty _ a bs.length
  rw [hd]
  exact ⟨rfl, rfl⟩

theorem rd8_store {s : State} (h : s.memWf = true) (a : Nat) (bs : List Byte) (x : Nat) :
    (s.store a bs).rd8 x = if a ≤ x then (bs[x - a]?).getD (s.rd8 x) else s.rd8 x := by
  obtain ⟨hparts, hfill⟩ := store_parts s a bs
  unfold State.rd8
  rw [hfill, hparts]
  exact spGet_memWrite h

/-- A byte outside the stored range reads as before. -/
theorem rd8_store_outside {s : State} (h : s.memWf = true) {a x : Nat} {bs : List Byte} (hx : x < a ∨ a + bs.length ≤ x) :
    (s.store a bs).rd8 x = s.rd8 x := by
  rw [rd8_store h]
  split
  · rw [List.getElem?_eq_none (by omega), Option.getD_none]
  · rfl

/-- The stored bytes are read back. -/
theorem rdN_store {s : State} (h : s.memWf = true) (a : Nat) (bs : List Byte) : (s.store a bs).rdN a bs.length = bs := by
  refine List.ext_getElem (length_rdN _ _ _) fun i _ hi => ?_
  rw [getElem_rdN, rd8_store h, if_pos (Nat.le_add_right a i), Nat.add_sub_cancel_left,
    List.getElem?_eq_getElem hi, Option.getD_some]

/-! ### The answer of a fabric request (R19) -/

theorem fabric_okay {s t : State} {m : Nat} {k : Acc} {a n : Nat} {d x : List Byte} {en : List Bool}
    (h : s.request m k a n d en = { st := t, rsp := .okay, data := x }) : s.fabric m k a n d en = t.ans .okay x := by
  unfold State.fabric
  rw [h]
  rfl

/-- A request answered without data: the master reacts to an error, and paced DMA follows. -/
theorem fabric_afterRequest {s t : State} {r : Req} {p : Rsp}
    (h : s.request r.master r.kind r.addr r.size r.data r.en = { st := t, rsp := p }) :
    (s.fabric r.master r.kind r.addr r.size r.data r.en).paceAll = afterRequest r t p [] := by
  unfold State.fabric afterRequest
  rw [h]

theorem exec_fabricRequest {P : State → Prop} {s : State} {r : Req} (hp : s.pwr.on = true) (hm : r.master < 28)
    (h : P (s.fabric r.master r.kind r.addr r.size r.data r.en).paceAll) : Runs (.fabricRequest r) s P :=
  Runs.liveIf rfl hp (decide_eq_true hm) h

/-! ### Cold resets (R467) -/

/-- The state of a cold reset before its cause, the tallies and the flash state are written. -/
def coldStart (s : State) (code : Nat) : State :=
  { State.reset with
    pending := s.pending, answer := s.answer, sent := s.sent, draws := s.draws, drives := s.drives
    dev := { s.dev with unit := s.dev.pairId }, tim := { raw := if code = 1 then s.tim.raw else 0 }
    lgr := s.lgr.onFlash, lcs := { s.lcs with state := s.lcs.fuseState, nonce := none, halted := 0 }, nfc := s.nfc.unmounted
    tap := if code = 1 then s.tap else {} }

theorem coldReset_eq (s : State) (code : Nat) : s.coldReset code = ((coldStart s code).cause code 0).tallyReset.nfcRestart := rfl

theorem coldStart_wf (s : State) (code : Nat) : (coldStart s code).regsWf := ⟨rfl⟩

theorem reg_coldStart (s : State) (code a : Nat) : (coldStart s code).reg a = regReset (canon a) := rfl

theorem cause_wf {s : State} (w : s.regsWf) (code sub : Nat) : (s.cause code sub).regsWf := setF_wf (setF_wf w _ _) _ _

theorem tallyReset_wf {s : State} (w : s.regsWf) : s.tallyReset.regsWf := setF_wf (setF_wf w _ _) _ _

theorem f_cause_code {s : State} (w : s.regsWf) (code sub : Nat) : (s.cause code sub).f Fld.SYS_RST_CAUSE_CODE = code % 16 := by
  unfold State.cause
  rw [f_setF_other (r := Fld.SYS_RST_CAUSE_SUB) (q := Fld.SYS_RST_CAUSE_CODE) (setF_wf w _ _) sub rfl (by decide) (by decide) (by decide)
    (by decide)]
  exact f_setF_same w _ _ (by decide) (by decide)

theorem cause_kept {s : State} (w : s.regsWf) (code sub : Nat) : RegsKept [Adr.SYS_RST_CAUSE] s (s.cause code sub) :=
  (((OnlyRegs.refl _ s).setF (r := Fld.SYS_RST_CAUSE_CODE) w code (by decide)).setF (r := Fld.SYS_RST_CAUSE_SUB) (setF_wf w _ _) sub
    (by decide)).1

theorem tallyReset_kept {s : State} (w : s.regsWf) : RegsKept [Adr.PAR_TALLY, Adr.PAR_SEEN] s s.tallyReset :=
  (((OnlyRegs.refl _ s).setF (r := Fld.PAR_TALLY_TALLY) w _ (by decide)).setF (r := Fld.PAR_SEEN_SEEN) (setF_wf w _ _) _ (by decide)).1

theorem nfcRestart_kept {s : State} (w : s.regsWf) : RegsKept [Adr.NFC_STAT] s s.nfcRestart := fun _ ha =>
  reg_setReg_ne (s := { s with nfc := { s.nfc with req := none, worn := false } }) (regsWf_congr (s := s) rfl w) _
    fun e => ha (e ▸ List.mem_cons_self)

/-- After a cold reset every register but the cause, the tallies and the flash state holds its reset value. -/
theorem reg_coldReset (s : State) (code : Nat) {a : Nat}
    (ha : canon a ∉ [Adr.SYS_RST_CAUSE, Adr.PAR_TALLY, Adr.PAR_SEEN, Adr.NFC_STAT]) : (s.coldReset code).reg a = regReset (canon a) := by
  simp only [List.mem_cons, List.not_mem_nil, or_false, not_or] at ha
  obtain ⟨hcause, htally, hseen, hstat⟩ := ha
  have w := coldStart_wf s code
  calc (s.coldReset code).reg a
      = ((coldStart s code).cause code 0).tallyReset.reg a := nfcRestart_kept (tallyReset_wf (cause_wf w _ _)) a (by simpa using hstat)
    _ = ((coldStart s code).cause code 0).reg a := tallyReset_kept (cause_wf w _ _) a (by simp [htally, hseen])
    _ = (coldStart s code).reg a := cause_kept w code 0 a (by simpa using hcause)
    _ = regReset (canon a) := reg_coldStart s code a

theorem f_coldReset_cause (s : State) (code : Nat) : (s.coldReset code).f Fld.SYS_RST_CAUSE_CODE = code % 16 := by
  have w := cause_wf (coldStart_wf s code) code 0
  rw [coldReset_eq, (nfcRestart_kept (tallyReset_wf w)).field _ (by decide), (tallyReset_kept w).field _ (by decide),
    f_cause_code (coldStart_wf s code)]

theorem coldReset_raw (s : State) (code : Nat) : (s.coldReset code).tim.raw = if code = 1 then s.tim.raw else 0 := rfl

theorem devReset_cold (s : State) {code : Nat} (h : ¬(code = 2 ∨ code = 3)) (sub : Nat) : s.devReset code sub = s.coldReset code :=
  if_neg h

theorem devReset_warm (s : State) {code : Nat} (h : code = 2 ∨ code = 3) (sub : Nat) : s.devReset code sub = s.warmReset code sub :=
  if_pos h

theorem clockFault_eq (s : State) : s.clockFault = (s.silence.canCutAll.warmReset 3 1).silence :=
  congrArg State.silence (devReset_warm s.silence.canCutAll (Or.inr rfl) 1)

end Sys2Proof.Laws

namespace Sys2Proof.Proofs

open Sys2Proof.Machine Sys2Proof.Laws

/-- Settles O1: `step` takes the head of the queue by definition. -/
theorem stepRunsFrontCommand : Obligations.StepRunsFrontCommand := fun _ _ _ => rfl

/-! ### Claims -/

theorem runs_evtClaim_none {s : State} {k : Nat} (hp : s.pwr.on = true) (hk : k < 5) (h : ∀ n, n < 512 → s.claimable k n = false) :
    Runs (.evtClaim k) s fun t => t = s.ansW 0 :=
  Runs.liveIf rfl hp (decide_eq_true hk) (doEvtClaim_none (bestSource_none h))

theorem runs_evtClaim_best {s : State} {k n : Nat} (hp : s.pwr.on = true) (hk : k < 5) (hn : n < 512) (hc : s.claimable k n = true)
    (h : ∀ m, m < 512 → s.claimable k m = true → Outranks s n m) :
    Runs (.evtClaim k) s fun t =>
      t.answer = ⟨.okay, leBytes 4 (2 ^ 31 + n)⟩ ∧ t.evt.claimed = (k, n) :: s.evt.claimed ∧ t.claimable k n = false ∧
      t = { s with evt := t.evt, answer := t.answer } := by
  refine Runs.liveIf rfl hp (decide_eq_true hk) ?_
  rw [doEvtClaim_some (bestSource_some hn hc h)]
  have hword : (BitVec.ofNat 32 (2 ^ 31 + n)).toNat = 2 ^ 31 + n := by
    rw [BitVec.toNat_ofNat, Nat.mod_eq_of_lt (by omega)]
  exact ⟨congrArg (fun x => Answer.mk .okay (leBytes 4 x)) hword, rfl, claimable_of_claimed List.mem_cons_self, rfl⟩

/-- Settles O8: the search of `bestSource` finds the one source that outranks every other claimable one; `EVT_DONE` filters one pair out. -/
theorem claimsAreExclusive : Obligations.ClaimsAreExclusive :=
  ⟨fun _ _ hp hk => ⟨runs_evtClaim_none hp hk, fun _ hn hc h => runs_evtClaim_best hp hk hn hc h⟩,
   fun s k n hp hk => Runs.liveIf rfl hp (decide_eq_true hk) ⟨fun j m => mem_doEvtDone_claimed s k n (j, m), rfl⟩⟩

/-! ### Shared SRAM -/

theorem runs_sram_write {s : State} {r : Req} (hp : s.pwr.on = true) (hw : s.memWf = true) (hm : r.master < 28) (hk : r.kind = .write)
    (hen : r.en = []) (hd : r.data.length = r.size) (hb : InBanks r.addr r.size) (hf : s.f Fld.FWL_STAT_ENFORCE = 0)
    (hdeed : s.deedOk r.master .write r.addr r.size = true) (hv : s.available r.addr r.size = true) (he : s.mm.ecc = []) :
    Runs (.fabricRequest r) s fun t => t.answer = ⟨.okay, []⟩ ∧ ∃ u : State, t = (u.ans .okay []).paceAll ∧
      u.rdN r.addr r.size = r.data ∧ (∀ a, a < r.addr ∨ r.addr + r.size ≤ a → u.rd8 a = s.rd8 a) ∧
      u = { s with mem := u.mem, mm := u.mm } := by
  have hgate : s.gate r.master .write r.addr r.size = none := by rw [gate_inBanks hb hf, if_pos hdeed]
  have hfab : s.fabric r.master r.kind r.addr r.size r.data r.en = (s.store r.addr r.data).ans .okay [] := by
    rw [hk, hen]
    exact fabric_okay ((request_write_inBanks hb _ _ _).trans (memReq_write_inBanks hb hgate hv he hd))
  refine exec_fabricRequest hp hm ?_
  rw [hfab]
  refine ⟨rfl, _, rfl, hd ▸ rdN_store hw _ _, fun a ha => rd8_store_outside hw (hd.symm ▸ ha), ?_⟩
  rw [(store_parts s r.addr r.data).1]

theorem runs_sram_read {s : State} {r : Req} (hp : s.pwr.on = true) (hm : r.master < 28) (hk : r.kind ≠ .write)
    (hb : InBanks r.addr r.size) (hf : s.f Fld.FWL_STAT_ENFORCE = 0) (hv : s.available r.addr r.size = true) (he : s.mm.ecc = []) :
    Runs (.fabricRequest r) s fun t => t.answer = ⟨.okay, s.rdN r.addr r.size⟩ ∧ ∃ u : State,
      t = (u.ans .okay (s.rdN r.addr r.size)).paceAll ∧ u = { s with frm := u.frm } := by
  have hgate : s.gate r.master r.kind r.addr r.size = none := by
    rw [gate_inBanks hb hf, if_pos (deedOk_of_not_write hk s _ _ _)]
  have hmem := memReq_read_inBanks (d := r.data) (en := r.en) hk hb hgate hv he
  refine exec_fabricRequest hp hm ?_
  rcases request_inBanks (s := s) hb r.master r.kind r.data r.en with hreq | hreq <;> rw [hmem] at hreq <;> rw [fabric_okay hreq]
  · exact ⟨rfl, s, rfl, rfl⟩
  · exact ⟨rfl, _, rfl, noteLive_parts s r.master⟩

/-- The refusal of the deed check leaves the count of violations of the access tables. -/
theorem f_violCount_deedDenied {s : State} (w : s.regsWf) (m code : Nat) (wr : Bool) (a : Nat) :
    ((s.raise Ev.MEM_DEED_DENIED).offerFabric m code wr a).f Fld.FWL_VIOL_CNT_COUNT = s.f Fld.FWL_VIOL_CNT_COUNT := by
  rw [(offerFabric_kept (raise_wf w _) m code wr a).field _ (by decide), f_raise w rfl (by decide)]

theorem runs_sram_denied {s : State} {r : Req} (hp : s.pwr.on = true) (w : s.regsWf) (hm : r.master < 28) (hk : r.kind = .write)
    (hb : InBanks r.addr r.size) (hf : s.f Fld.FWL_STAT_ENFORCE = 0) (hdeed : s.deedOk r.master .write r.addr r.size = false) :
    Runs (.fabricRequest r) s fun t =>
      t = afterRequest r ((s.raise Ev.MEM_DEED_DENIED).offerFabric r.master 2 true r.addr) .denied [] ∧ t.answer = ⟨.denied, []⟩ ∧
      ((s.raise Ev.MEM_DEED_DENIED).offerFabric r.master 2 true r.addr).f Fld.FWL_VIOL_CNT_COUNT = s.f Fld.FWL_VIOL_CNT_COUNT := by
  have hgate : s.gate r.master .write r.addr r.size =
      some { st := (s.raise Ev.MEM_DEED_DENIED).offerFabric r.master 2 true r.addr, rsp := .denied } := by
    rw [gate_inBanks hb hf, if_neg (by rw [hdeed]; decide)]
    rfl
  have hreq : s.request r.master r.kind r.addr r.size r.data r.en =
      { st := (s.raise Ev.MEM_DEED_DENIED).offerFabric r.master 2 true r.addr, rsp := .denied } := by
    rw [hk, request_write_inBanks hb]
    unfold State.memReq
    rw [hgate]
  refine exec_fabricRequest hp hm ?_
  rw [fabric_afterRequest hreq]
  exact ⟨rfl, rfl, f_violCount_deedDenied w _ _ _ _⟩

/-- Settles O14: the gate before shared SRAM is the deed check alone; behind it a write is a store and a read changes no memory. -/
theorem sharedSramAccesses : Obligations.SharedSramAccesses :=
  ⟨fun _ _ hp hw hm hk hen hpos hd hlo hhi hf hdeed hv he => runs_sram_write hp hw hm hk hen hd ⟨hpos, hlo, hhi⟩ hf hdeed hv he,
   fun _ _ hp hm hk hpos hlo hhi hf hv he => runs_sram_read hp hm hk ⟨hpos, hlo, hhi⟩ hf hv he,
   fun _ _ hp w hm hk hpos hlo hhi hf hdeed => runs_sram_denied hp w hm hk ⟨hpos, hlo, hhi⟩ hf hdeed⟩

/-! ### Device resets -/

theorem exec_powerOnReset (s : State) : exec .powerOnReset s = .next (s.coldReset 0) :=
  congrArg Host.Outcome.next (devReset_cold s (by decide) 0)

theorem exec_resetN {s : State} (hv : s.pwr.vaon = true) : exec .resetN s = .next (s.coldReset (if s.pwr.on then 1 else 4)) := by
  show Host.Outcome.next (if s.pwr.vaon then _ else s) = _
  rw [if_pos hv, devReset_cold s (by cases s.pwr.on <;> decide)]

theorem exec_wake {s : State} (hv : s.pwr.vaon = true) (hp : s.pwr.on = false) : exec .wake s = .next (s.coldReset 4) := by
  show Host.Outcome.next (if s.pwr.vaon && !s.pwr.on then _ else s) = _
  have hwakes : (s.pwr.vaon && !s.pwr.on) = true := by rw [hv, hp]; rfl
  rw [if_pos hwakes, devReset_cold s (by decide)]

theorem exec_vaonLoss {s : State} (hp : s.pwr.on = true) : exec .vaonLoss s = .next s.powerOff.vaonOut := by
  show Host.Outcome.next (if s.pwr.on then s.powerOff else s).vaonOut = _
  rw [if_pos hp]

theorem runs_clockFault {s : State} (hp : s.pwr.on = true) :
    Runs .clockFault s fun t => t = (s.silence.canCutAll.warmReset 3 1).silence ∧ t.pwr.silent = true :=
  Runs.live rfl hp ⟨clockFault_eq s, rfl⟩

theorem runs_railFault {s : State} (hp : s.pwr.on = true) :
    Runs .railFault s fun t =>
      t = (s.silence.canCutAll.warmReset 3 1).silence.railOut ∧ t.pwr.silent = true ∧ t.pwr.railBad = true :=
  Runs.live rfl hp ⟨congrArg State.railOut (clockFault_eq s), rfl, rfl⟩

/-- Settles O26: a cold reset builds its state on the reset state and writes four words; the faults are warm resets of code 3. -/
theorem coldResetsAndFaults : Obligations.ColdResetsAndFaults := by
  refine ⟨fun s => ⟨⟨_, exec_powerOnReset s, rfl, f_coldReset_cause s 0, coldReset_raw s 0⟩, fun hv hp => ?_, fun hv hp => ?_,
    fun hv hp => ⟨_, exec_wake hv hp, rfl, f_coldReset_cause s 4⟩,
    fun code => ⟨rfl, rfl, rfl, rfl, rfl, fun _ ha => reg_coldReset s code ha⟩⟩, fun s hp => ?_⟩
  · have he := exec_resetN hv
    rw [hp] at he
    exact ⟨_, he, rfl, f_coldReset_cause s 1, coldReset_raw s 1⟩
  · have he := exec_resetN hv
    rw [hp] at he
    exact ⟨_, he, rfl⟩
  · refine ⟨runs_clockFault hp, runs_railFault hp, fun hh hr => ?_, fun hh hr => ?_, ⟨_, exec_vaonLoss hp, rfl, rfl, rfl⟩⟩
    · exact Runs.liveIf rfl hp (by rw [hh, hr]; rfl) ⟨_, rfl, rfl⟩
    · exact Runs.liveIf rfl hp (by rw [hh, hr]; rfl) ⟨_, rfl, rfl⟩

end Sys2Proof.Proofs
end

section
/-! ## Persistent overruns, the dwell of the fence and the replay port

The statements of *Frame timing*: what follows `PERSIST` overrun frames in a row (R47, R334) and a full dwell count (R227), and the
datagrams of the replay port (R54, R55, R57). The lemmas about the model's operations stand first, each statement's proof after them. -/

namespace Sys2Proof.Laws

open Sys2Proof.Machine

theorem runs_of_live_same {c : Instr} {s : State} (he : exec c s = live s s) : Runs c s fun t => t = s :=
  ⟨s, he.trans (congrArg Host.Outcome.next (ite_self s)), rfl⟩

theorem runs_of_liveIf_same {c : Instr} {s : State} {b : Bool} (he : exec c s = liveIf b s s) : Runs c s fun t => t = s :=
  runs_of_live_same (he.trans (congrArg (live s) (ite_self s)))

/-! ### Persistent overruns (R47, R334) -/

/-- The run of overrun frames has reached `PERSIST`. -/
def OverrunsPersist (s : State) : Prop := max 1 (s.f Fld.TIM_OVR_RUN_PERSIST) ≤ s.f Fld.TIM_OVR_RUN_RUN

theorem role_raise_ovrPersist {s : State} (w : s.regsWf) : (s.raise Ev.TIM_OVR_PERSIST).role = s.role :=
  f_raise w rfl (by decide)

theorem ovrPersist_of_not {s : State} (h : ¬OverrunsPersist s) : s.ovrPersist = s := if_neg h

/-- A unit that does not command raises the event and no more. -/
theorem ovrPersist_follower {s : State} (w : s.regsWf) (h : OverrunsPersist s) (hr : s.role < 2) :
    s.ovrPersist = s.raise Ev.TIM_OVR_PERSIST :=
  (if_pos h).trans (if_neg (by rw [role_raise_ovrPersist w]; omega))

/-- For a commanding unit it is a self-detected fault as well. -/
theorem ovrPersist_commanding {s : State} (w : s.regsWf) (h : OverrunsPersist s) (hr : 2 ≤ s.role) :
    s.ovrPersist = (s.raise Ev.TIM_OVR_PERSIST).selfFault :=
  (if_pos h).trans (if_pos (by rw [role_raise_ovrPersist w]; exact hr))

theorem overrunCount_of_not_overran {s : State} (h : s.frameOverran = false) : s.overrunCount = s.setF Fld.TIM_OVR_RUN_RUN 0 :=
  if_neg (by rw [h]; decide)

/-! ### The dwell of the fence (R227) -/

/-- The fence has dwelt long enough for `AUTO` to begin grazing. -/
def DwellFull (s : State) : Prop :=
  s.mode = 1 ∧ s.fb Fld.CLE_MODE_GRAZING = false ∧ max 1 (s.f Fld.CLE_FENCE_DWELL_FRAMES) ≤ s.f Fld.CLE_FENCE_STAT_DWELL_CNT

/-- `GRAZE` is entered, its event not yet raised. -/
def grazed (s : State) : State :=
  ((s.setF Fld.CLE_MODE_GRAZING 1).setF Fld.CLE_FENCE_STAT_DWELL_CNT 0).setF Fld.CLE_MODE_CUR 2

theorem fenceGraze_of_full {s : State} (h : DwellFull s) : s.fenceGraze = (grazed s).raise Ev.CLE_FENCE_GRAZE := if_pos h

theorem fenceGraze_of_not {s : State} (h : ¬DwellFull s) : s.fenceGraze = s := if_neg h

section Grazed

variable {s : State} (w : s.regsWf)
include w

theorem grazed_wf : (grazed s).regsWf := setF_wf (setF_wf (setF_wf w _ _) _ _) _ _

theorem grazed_only : OnlyRegs [Adr.CLE_MODE, Adr.CLE_FENCE_STAT] s (grazed s) :=
  (((OnlyRegs.refl _ s).setF w _ (by decide)).setF (setF_wf w _ _) _ (by decide)).setF (setF_wf (setF_wf w _ _) _ _) _ (by decide)

theorem mode_grazed : (grazed s).mode = 2 := f_setF_same (setF_wf (setF_wf w _ _) _ _) Fld.CLE_MODE_CUR 2 (by decide) (by decide)

theorem grazing_grazed : (grazed s).f Fld.CLE_MODE_GRAZING = 1 := by
  calc (grazed s).f Fld.CLE_MODE_GRAZING
      = ((s.setF Fld.CLE_MODE_GRAZING 1).setF Fld.CLE_FENCE_STAT_DWELL_CNT 0).f Fld.CLE_MODE_GRAZING :=
        f_setF_other (setF_wf (setF_wf w _ _) _ _) 2 rfl (by decide) (by decide) (by decide) (by decide)
    _ = (s.setF Fld.CLE_MODE_GRAZING 1).f Fld.CLE_MODE_GRAZING := f_setF_ne (setF_wf w _ _) 0 (by decide)
    _ = 1 := f_setF_same w _ 1 (by decide) (by decide)

theorem dwell_grazed : (grazed s).f Fld.CLE_FENCE_STAT_DWELL_CNT = 0 :=
  (f_setF_ne (setF_wf (setF_wf w _ _) _ _) 2 (by decide)).trans
    (f_setF_same (setF_wf w _ _) Fld.CLE_FENCE_STAT_DWELL_CNT 0 (by decide) (by decide))

/-- Raising the fence's event leaves its mode and its status alone. -/
theorem f_raise_grazed {q : RF} (hq : canon q.a ∉ evWords 28) :
    ((grazed s).raise Ev.CLE_FENCE_GRAZE).f q = (grazed s).f q :=
  f_raise (grazed_wf w) rfl hq

end Grazed

/-! ### The replay port (R54, R55, R57) -/

/-- MAC `k` sends the datagram `d` of the replay port and counts it. -/
def sendCounted (k : Nat) (s : State) (d : List Byte) : State := (s.send .eth k d).wrap (Fld.ETH_CNT_B_TX_OK k) 1

/-- From `s` the machine has come to `t` by sending the datagrams `l` on MAC `k`, in order. -/
structure Sends (k : Nat) (l : List (List Byte)) (s t : State) : Prop where
  sent : t.sent = s.sent ++ l.map fun d => ⟨.eth, k, d⟩
  count : t.f (Fld.ETH_CNT_B_TX_OK k) = (s.f (Fld.ETH_CNT_B_TX_OK k) + l.length) % 65536
  kept : RegsKept [Adr.ETH_CNT_B k] s t
  parts : t = { s with regs := t.regs, sent := t.sent }

theorem canon_cntB (k : Nat) : canon (Adr.ETH_CNT_B k) = Adr.ETH_CNT_B k := canon_body (by unfold Adr.ETH_CNT_B; omega)

theorem txOk_lt (s : State) (k : Nat) : s.f (Fld.ETH_CNT_B_TX_OK k) < 65536 := bitsOf_lt _ 31 16

theorem Sends.nil (k : Nat) (s : State) : Sends k [] s s :=
  ⟨(List.append_nil _).symm, (Nat.mod_eq_of_lt (txOk_lt s k)).symm, fun _ _ => rfl, rfl⟩

theorem Sends.trans {k : Nat} {l m : List (List Byte)} {s t u : State} (h : Sends k l s t) (g : Sends k m t u) :
    Sends k (l ++ m) s u := by
  refine ⟨?_, ?_, h.kept.trans g.kept, ?_⟩
  · rw [g.sent, h.sent, List.map_append, List.append_assoc]
  · rw [g.count, h.count, List.length_append, Nat.mod_add_mod, Nat.add_assoc]
  · have e := g.parts
    rw [h.parts] at e
    exact e

theorem send_unmuted {s : State} (hm : s.muted = false) (p : Port) (i : Nat) (b : List Byte) :
    s.send p i b = { s with sent := s.sent ++ [⟨p, i, b⟩] } :=
  if_neg (by rw [hm]; exact Bool.false_ne_true)

theorem send_regs (s : State) (p : Port) (i : Nat) (b : List Byte) : (s.send p i b).regs = s.regs := by
  unfold State.send
  split <;> rfl

section Counted

variable {k : Nat} {s : State} (w : s.regsWf)
include w

theorem sendCounted_wf (d : List Byte) : (sendCounted k s d).regsWf := setF_wf (regsWf_congr (send_regs s _ _ _) w) _ _

theorem txOk_sendCounted (d : List Byte) :
    (sendCounted k s d).f (Fld.ETH_CNT_B_TX_OK k) = (s.f (Fld.ETH_CNT_B_TX_OK k) + 1) % 65536 :=
  (f_setF_same (regsWf_congr (send_regs s _ _ _) w) (Fld.ETH_CNT_B_TX_OK k) _ (show 16 ≤ 31 by decide) (show 31 < 32 by decide)).trans
    (by rw [f_congr (send_regs s _ _ _)]; rfl)

theorem sendCounted_kept (d : List Byte) : RegsKept [Adr.ETH_CNT_B k] s (sendCounted k s d) := fun a ha =>
  (reg_setF_ne (r := Fld.ETH_CNT_B_TX_OK k) (regsWf_congr (send_regs s _ _ _) w) _ fun e =>
    ha (by rw [e, canon_cntB]; exact List.mem_cons_self)).trans (reg_congr (send_regs s _ _ _) a)

theorem sendCounted_sends (hm : s.muted = false) (d : List Byte) : Sends k [d] s (sendCounted k s d) := by
  refine ⟨?_, txOk_sendCounted w d, sendCounted_kept w d, ?_⟩ <;>
  · unfold sendCounted
    rw [send_unmuted hm]
    rfl

end Counted

/-- Sending changes nothing that mutes the ports. -/
theorem Sends.muted {k : Nat} {l : List (List Byte)} {s t : State} (h : Sends k l s t) : t.muted = s.muted := by
  rw [h.parts]
  rfl

theorem foldl_sendCounted_sends {k : Nat} {s : State} (w : s.regsWf) (hm : s.muted = false) (l : List (List Byte)) :
    Sends k l s (l.foldl (sendCounted k) s) := by
  induction l generalizing s with
  | nil => exact Sends.nil k s
  | cons d l ih =>
    have h := sendCounted_sends (k := k) w hm d
    exact h.trans (ih (sendCounted_wf w d) (h.muted.trans hm))

/-- `REPLAY_SNAPSHOT_SEND` sends the datagrams of the oldest queued frame. -/
theorem exec_replaySnapshotSend {s : State} {l : List (List Byte)} {r : List (List (List Byte))} (h : s.rpl.tx = l :: r) :
    let k := s.f Fld.CMD_RPL_CTRL_PORT
    exec .replaySnapshotSend s = liveIf (s.rplReady k && s.ethTxOn k) s
      (l.foldl (sendCounted k) { s with rpl := { s.rpl with tx := r } }) := by
  show execReplaySnapshotSend s = _
  unfold execReplaySnapshotSend
  rw [h]
  rfl

/-- A full image is owed, and the register does not show it yet. -/
def fullOwed (s : State) : State := { s with rpl := { s.rpl with fullDue := true } }

theorem fullOwed_wf {s : State} (w : s.regsWf) : (fullOwed s).regsWf := mk_wf w

theorem askFull_only {s : State} (w : s.regsWf) : OnlyRegs [Adr.CMD_RPL_CTRL] (fullOwed s) s.askFull :=
  (OnlyRegs.refl _ (fullOwed s)).setF (r := Fld.CMD_RPL_CTRL_FULL_REQ) (fullOwed_wf w) 1 (by decide)

theorem fullReq_askFull {s : State} (w : s.regsWf) : s.askFull.f Fld.CMD_RPL_CTRL_FULL_REQ = 1 :=
  f_setF_same (fullOwed_wf w) Fld.CMD_RPL_CTRL_FULL_REQ 1 (by decide) (by decide)

theorem replayFrameRx_eq (s : State) (b : List Byte) :
    s.replayFrameRx b = if inetOk b = true ∧ replayOk (udpPayload b) = true then s.replayTake (udpPayload b) else s :=
  if_congr (Bool.and_eq_true_iff) rfl rfl

end Sys2Proof.Laws

namespace Sys2Proof.Proofs

open Sys2Proof.Machine Sys2Proof.Laws

/-! ### Persistent overruns and the fence -/

theorem runs_ovrPersist_follower {s : State} (hp : s.pwr.on = true) (w : s.regsWf) (hrun : s.running = true)
    (hhigh : OverrunsPersist s) (hr : s.role < 2) :
    Runs .ovrPersist s fun t => t.raised Ev.TIM_OVR_PERSIST ∧ OnlyRaised 6 [] s t := by
  refine Runs.liveIf rfl hp hrun ?_
  rw [ovrPersist_follower w hhigh hr]
  exact ⟨raise_sets w (by decide) (by decide), OnlyRegs.raise (e := Ev.TIM_OVR_PERSIST) w (OnlyRegs.refl [] s) rfl⟩

theorem runs_ovrPersist_low {s : State} (h : ¬OverrunsPersist s) : Runs .ovrPersist s fun t => t = s :=
  runs_of_liveIf_same (congrArg (liveIf s.running s) (ovrPersist_of_not h))

theorem overrunCount_ends_run {s : State} (w : s.regsWf) (h : s.frameOverran = false) :
    s.overrunCount.f Fld.TIM_OVR_RUN_RUN = 0 ∧ OnlyRegs [Adr.TIM_OVR_RUN] s s.overrunCount := by
  rw [overrunCount_of_not_overran h]
  exact ⟨f_setF_same w _ 0 (by decide) (by decide), (OnlyRegs.refl _ s).setF w 0 (by decide)⟩

theorem runs_fenceGraze_full {s : State} (hp : s.pwr.on = true) (w : s.regsWf) (h : DwellFull s) :
    Runs .fenceGraze s fun t => t.mode = 2 ∧ t.fb Fld.CLE_MODE_GRAZING = true ∧ t.f Fld.CLE_FENCE_STAT_DWELL_CNT = 0 ∧
      t.raised Ev.CLE_FENCE_GRAZE ∧ OnlyRaised 28 [Adr.CLE_MODE, Adr.CLE_FENCE_STAT] s t := by
  refine Runs.live rfl hp ?_
  rw [fenceGraze_of_full h]
  refine ⟨(f_raise_grazed w (by decide)).trans (mode_grazed w), ?_, (f_raise_grazed w (by decide)).trans (dwell_grazed w),
    raise_sets (grazed_wf w) (by decide) (by decide), OnlyRegs.raise (e := Ev.CLE_FENCE_GRAZE) (grazed_wf w) (grazed_only w) rfl⟩
  rw [fb_def, f_raise_grazed w (by decide), grazing_grazed w]
  rfl

theorem runs_fenceGraze_short {s : State} (h : ¬DwellFull s) : Runs .fenceGraze s fun t => t = s :=
  runs_of_live_same (congrArg (live s) (fenceGraze_of_not h))

/-- Settles O30: raising `OVR_PERSIST` leaves the role, which decides on the self-detected fault; the fence's event is raised after three
field writes that it does not touch. -/
theorem persistenceThresholdsAct : Obligations.PersistenceThresholdsAct := fun _ hp w =>
  ⟨fun hrun hhigh hr => runs_ovrPersist_follower hp w hrun hhigh hr,
   fun hrun hhigh hr => Runs.liveIf rfl hp hrun (ovrPersist_commanding w hhigh hr),
   fun hlow => runs_ovrPersist_low hlow,
   fun hnone => overrunCount_ends_run w hnone,
   fun hfull => runs_fenceGraze_full hp w hfull,
   fun hshort => runs_fenceGraze_short hshort⟩

/-! ### The replay port -/

theorem runs_replaySnapshotSend {s : State} (hp : s.pwr.on = true) (w : s.regsWf) {l : List (List Byte)} {r : List (List (List Byte))}
    (hready : s.rplReady (s.f Fld.CMD_RPL_CTRL_PORT) = true) (hon : s.ethTxOn (s.f Fld.CMD_RPL_CTRL_PORT) = true)
    (htx : s.rpl.tx = l :: r) (hm : s.muted = false) :
    let k := s.f Fld.CMD_RPL_CTRL_PORT
    Runs .replaySnapshotSend s fun t =>
      t.sent = s.sent ++ l.map (fun d => ⟨.eth, k, d⟩) ∧ t.rpl = { s.rpl with tx := r } ∧
      t.f (Fld.ETH_CNT_B_TX_OK k) = (s.f (Fld.ETH_CNT_B_TX_OK k) + l.length) % 65536 ∧
      RegsKept [Adr.ETH_CNT_B k] s t ∧ t = { s with regs := t.regs, sent := t.sent, rpl := t.rpl } := by
  intro k
  refine Runs.liveIf (exec_replaySnapshotSend htx) hp (by rw [hready, hon]; rfl) ?_
  obtain ⟨hsent, hcount, hkept, hparts⟩ :=
    foldl_sendCounted_sends (k := k) (s := { s with rpl := { s.rpl with tx := r } }) (mk_wf w) hm l
  generalize l.foldl (sendCounted k) { s with rpl := { s.rpl with tx := r } } = t at hsent hcount hkept hparts
  have hrpl : t.rpl = { s.rpl with tx := r } := congrArg State.rpl hparts
  refine ⟨hsent, hrpl, hcount.trans (by rw [f_mk]), fun a ha => (hkept a ha).trans (reg_mk a), ?_⟩
  rw [hrpl]
  exact hparts

theorem runs_replayFullRequest {s : State} (hp : s.pwr.on = true) (w : s.regsWf) :
    Runs .replayFullRequest s fun t => t.rpl = { s.rpl with fullDue := true } ∧ t.f Fld.CMD_RPL_CTRL_FULL_REQ = 1 ∧
      RegsKept [Adr.CMD_RPL_CTRL] s t ∧ t = { s with regs := t.regs, rpl := t.rpl, answer := ⟨.okay, []⟩ } := by
  obtain ⟨hkept, hparts⟩ := askFull_only w
  refine Runs.live (t := s.askFull.ok) rfl hp
    ⟨rfl, (f_ok _ _).trans (fullReq_askFull w), fun a ha => (reg_ok _ a).trans ((hkept a ha).trans (reg_mk a)), ?_⟩
  rw [hparts]
  rfl

theorem runs_replayDatagramRx {s : State} (hp : s.pwr.on = true) {b : List Byte}
    (hrx : s.replayRx (s.f Fld.CMD_RPL_CTRL_PORT) = true) (hon : s.ethRxOn (s.f Fld.CMD_RPL_CTRL_PORT) = true)
    (hmine : s.replayMine b = true) :
    Runs (.replayDatagramRx b) s fun t =>
      t = if inetOk b = true ∧ replayOk (udpPayload b) = true then s.replayTake (udpPayload b) else s :=
  Runs.liveIf rfl hp (by rw [hrx, hon, hmine]; rfl) (replayFrameRx_eq s b)

/-- Settles O32: the datagrams leave by induction on the oldest queued frame (`foldl_sendCounted_sends`); the request for a full image is
one field write, and reception branches on the checks alone. -/
theorem replayPortMovesDatagrams : Obligations.ReplayPortMovesDatagrams := fun _ hp w =>
  ⟨fun hready hon _ _ htx hm => runs_replaySnapshotSend hp w hready hon htx hm,
   runs_replayFullRequest hp w,
   fun _ hrx hon hmine => runs_replayDatagramRx hp hrx hon hmine⟩

end Sys2Proof.Proofs
end

section
/-! ## Deposits, port configuration and the grid engine

The statements of *Position references and the grid engine*: the deposit window, the intake of records and scans and the configuration of
the ports (R64, R65, R68–R73, R83), and the engine's weights, passes and counts (R100, R104, R497). The lemmas about the model's operations
stand first, those on memory requests, which several blocks share, before the blocks' own; each statement's proof follows them. -/

namespace Sys2Proof.Laws

open Sys2Proof.Machine

/-! ### What a memory request may change -/

/-- From `s` the machine has come to `t` by serving memory requests: registers, memory, events, the ledger, the fabric's records and the
frame's marks may differ, nothing else does. -/
structure Served (s t : State) : Prop where
  parts : t = { s with regs := t.regs, mem := t.mem, evt := t.evt, fab := t.fab, lgr := t.lgr, mm := t.mm, frm := t.frm }

theorem Served.refl (s : State) : Served s s := ⟨rfl⟩

theorem Served.trans {s t u : State} (h : Served s t) (k : Served t u) : Served s u := by
  have e := k.parts
  rw [h.parts] at e
  exact ⟨e⟩

theorem Served.fus {s t : State} (h : Served s t) : t.fus = s.fus := by
  rw [h.parts]

theorem Served.rings {s t : State} (h : Rings s t) : Served s t := by
  have e := h.parts
  exact ⟨by rw [e]⟩

theorem Served.raise (s : State) (e : Ev) : Served s (s.raise e) := by
  have h := raise_parts s e
  exact ⟨by rw [h]⟩

theorem Served.setF (s : State) (r : RF) (v : Nat) : Served s (s.setF r v) := ⟨rfl⟩

theorem Served.andSetF {s t : State} (h : Served s t) (r : RF) (v : Nat) : Served s (t.setF r v) := h.trans (Served.setF t r v)

theorem Served.withMm (s : State) (m : MemSt) : Served s { s with mm := m } := ⟨rfl⟩

theorem Served.stick (s : State) (c flag : RF) (n : Nat) : Served s (s.stick c flag n) := by
  unfold State.stick
  dsimp only
  split
  · exact Served.refl s
  · split
    · exact Served.setF s _ _
    · exact (Served.setF s _ _).trans (Served.setF _ _ _)

theorem Served.ite {c : Prop} [Decidable c] {s a b : State} (ha : Served s a) (hb : Served s b) : Served s (if c then a else b) := by
  split
  · exact ha
  · exact hb

theorem Served.foldl {α : Type} {s : State} {f : State → α → State} (hf : ∀ t x, Served t (f t x)) (l : List α) :
    Served s (l.foldl f s) := by
  induction l generalizing s with
  | nil => exact Served.refl s
  | cons x l ih => exact (hf s x).trans ih

theorem Served.offerFabric (s : State) (m code : Nat) (wr : Bool) (a : Nat) : Served s (s.offerFabric m code wr a) := by
  unfold State.offerFabric
  split
  · exact ⟨rfl⟩
  · exact Served.trans ⟨rfl⟩ (Served.rings (Rings.offer _ _))

theorem Served.violation (s : State) (m : Nat) (k : Acc) (t o : Nat) : Served s (s.violation m k t o) := by
  unfold State.violation
  dsimp only
  refine Served.trans ?_ (Served.raise _ _)
  refine (Served.stick s Fld.FWL_VIOL_CNT_COUNT Fld.FWL_VIOL_CNT_SAT 1).trans (Served.ite (Served.refl _) ?_)
  exact ((((Served.setF _ _ _).andSetF _ _).andSetF _ _).andSetF _ _).andSetF _ _

theorem Served.countCe (s : State) (a : Nat) : Served s (s.countCe a) := by
  unfold State.countCe
  dsimp only
  refine Served.ite ?_ (Served.ite ?_ (Served.refl s))
  · exact (Served.stick s _ _ _).trans (Served.ite (Served.refl _) ((Served.withMm _ _).trans (Served.raise _ _)))
  · exact (Served.stick s _ _ _).trans (Served.ite (Served.refl _) ((Served.withMm _ _).trans (Served.raise _ _)))

theorem Served.countUe (s : State) (a m : Nat) : Served s (s.countUe a m) := by
  unfold State.countUe
  dsimp only
  have hmark : Served s (if m = 5 ∨ m = 6 ∨ m = 23 ∨ m = 24 ∨ m = 25 then { s with frm := { s.frm with eccUe := true } } else s) :=
    Served.ite ⟨rfl⟩ (Served.refl s)
  refine hmark.trans (Served.ite ?_ (Served.ite ?_ (Served.refl _)))
  · exact ((((Served.stick _ _ _ _).andSetF _ _).andSetF _ _).andSetF _ _).trans (Served.raise _ _)
  · exact (((((Served.stick _ _ _ _).andSetF _ _).andSetF _ _).andSetF _ _).andSetF _ _).trans (Served.raise _ _)

theorem Served.gate {s : State} {m a n : Nat} {k : Acc} {r : Reply} (h : s.gate m k a n = some r) : Served s r.st := by
  unfold State.gate at h
  split at h
  · exact Option.some.inj h ▸ Served.offerFabric s _ _ _ _
  · split at h
    · exact Option.some.inj h ▸ (Served.violation s _ _ _ _).trans (Served.offerFabric _ _ _ _ _)
    · split at h
      · exact Option.some.inj h ▸ Served.offerFabric s _ _ _ _
      · split at h
        · exact Option.some.inj h ▸ Served.offerFabric s _ _ _ _
        · split at h
          · exact Option.some.inj h ▸ (Served.raise s _).trans (Served.offerFabric _ _ _ _ _)
          · cases h

theorem Served.store (s : State) (a : Nat) (bs : List Byte) : Served s (s.store a bs) := by
  have e := (store_parts s a bs).1
  exact ⟨by rw [e]⟩

/-- Whatever the fabric answers, a memory request changes no block's own state. -/
theorem Served.memReq (s : State) (m : Nat) (k : Acc) (a n : Nat) (d : List Byte) (en : List Bool) :
    Served s (s.memReq m k a n d en).st := by
  unfold State.memReq
  split
  · exact Served.gate ‹_›
  · split
    · exact ⟨rfl⟩
    · split
      · exact Served.offerFabric s _ _ _ _
      · dsimp only
        split
        · exact (Served.ite (Served.refl s) (Served.countUe s _ _)).trans (Served.offerFabric _ _ _ _ _)
        · split
          · exact (Served.foldl Served.countCe _).trans (Served.store _ _ _)
          · exact Served.foldl Served.countCe _

theorem fus_mRead (s : State) (m a n : Nat) : (s.mRead m a n).st.fus = s.fus := (Served.memReq s _ _ _ _ _ _).fus

theorem fus_mWrite (s : State) (m a : Nat) (d : List Byte) : (s.mWrite m a d).st.fus = s.fus := (Served.memReq s _ _ _ _ _ _).fus

/-! ### Fields of a masked word -/

theorem bitsOf_extract (x : Word) (hi lo : Nat) : bitsOf x.toNat hi lo = (x.extractLsb' lo (hi + 1 - lo)).toNat := by
  rw [BitVec.extractLsb'_toNat, Nat.shiftRight_eq_div_pow]
  rfl

/-- A field that the mask `m` leaves whole. -/
theorem bitsOf_and_ones (x : Word) {m : Word} {hi lo : Nat} (hm : m.extractLsb' lo (hi + 1 - lo) = BitVec.allOnes _) :
    bitsOf (x &&& m).toNat hi lo = bitsOf x.toNat hi lo := by
  rw [bitsOf_extract, bitsOf_extract, BitVec.extractLsb'_and, hm, BitVec.and_allOnes]

/-- A field of two words joined, which the masks take from the first. -/
theorem bitsOf_join_left (x y : Word) {m k : Word} {hi lo : Nat} (hm : m.extractLsb' lo (hi + 1 - lo) = BitVec.allOnes _)
    (hk : k.extractLsb' lo (hi + 1 - lo) = 0#_) : bitsOf ((x &&& m) ||| (y &&& k)).toNat hi lo = bitsOf x.toNat hi lo := by
  rw [bitsOf_extract, bitsOf_extract, BitVec.extractLsb'_or, BitVec.extractLsb'_and, BitVec.extractLsb'_and, hm, hk, BitVec.and_allOnes,
    BitVec.and_zero, BitVec.or_zero]

theorem bitsOf_join_right (x y : Word) {m k : Word} {hi lo : Nat} (hm : m.extractLsb' lo (hi + 1 - lo) = 0#_)
    (hk : k.extractLsb' lo (hi + 1 - lo) = BitVec.allOnes _) : bitsOf ((x &&& m) ||| (y &&& k)).toNat hi lo = bitsOf y.toNat hi lo := by
  rw [BitVec.or_comm]
  exact bitsOf_join_left y x hk hm

/-! ### Words of the ports (R110) -/

/-- `a` is a word of the table of ports on page FUS1. -/
structure PortWord (a : Nat) : Prop where
  lo : 38976 ≤ a
  hi : a < 39488

theorem canon_portWord {a : Nat} (h : PortWord a) : canon a = a := by
  obtain ⟨hlo, hhi⟩ := h
  exact canon_body (by omega)

theorem portWord_not_event {a : Nat} (h : PortWord a) : canon a ∉ evWords 37 := by
  obtain ⟨hlo, hhi⟩ := h
  rw [canon_portWord ⟨hlo, hhi⟩]
  simp only [evWords, hdr, List.mem_cons, List.not_mem_nil, or_false]
  unfold Adr.LGR_CNT_A Adr.LGR_CNT_B Adr.LGR_FLAGS
  omega

theorem canon_portWord_mem {a : Nat} {l : List Nat} (h : PortWord a) (hl : a ∈ l) : canon a ∈ l := (canon_portWord h).symm ▸ hl

theorem canon_portWord_ne {a b : Nat} (ha : PortWord a) (hb : PortWord b) (h : a ≠ b) : canon a ≠ canon b := by
  rwa [canon_portWord ha, canon_portWord hb]

section PortWords

variable {p : Nat} (hp : p < 32)
include hp

theorem portWord_cfg : PortWord (Adr.FUS_PORT_CFG p) := by unfold Adr.FUS_PORT_CFG; constructor <;> omega
theorem portWord_stat : PortWord (Adr.FUS_PORT_STAT p) := by unfold Adr.FUS_PORT_STAT; constructor <;> omega
theorem portWord_cntA : PortWord (Adr.FUS_PORT_CNT_A p) := by unfold Adr.FUS_PORT_CNT_A; constructor <;> omega
theorem portWord_cntB : PortWord (Adr.FUS_PORT_CNT_B p) := by unfold Adr.FUS_PORT_CNT_B; constructor <;> omega
theorem portWord_queue : PortWord (Adr.FUS_PORT_QUEUE p) := by unfold Adr.FUS_PORT_QUEUE; constructor <;> omega

theorem canon_cntA_ne_stat : canon (Adr.FUS_PORT_CNT_A p) ≠ canon (Adr.FUS_PORT_STAT p) :=
  canon_portWord_ne (portWord_cntA hp) (portWord_stat hp) (by unfold Adr.FUS_PORT_CNT_A Adr.FUS_PORT_STAT; omega)

theorem canon_cntB_ne_stat : canon (Adr.FUS_PORT_CNT_B p) ≠ canon (Adr.FUS_PORT_STAT p) :=
  canon_portWord_ne (portWord_cntB hp) (portWord_stat hp) (by unfold Adr.FUS_PORT_CNT_B Adr.FUS_PORT_STAT; omega)

theorem canon_dep {w : Nat} (hw : w < 16) : canon (Adr.FUS_DEP p w) = Adr.FUS_DEP p w :=
  canon_body (by unfold Adr.FUS_DEP; omega)

end PortWords

/-! ### Counters that stay at their maximum (R10) -/

theorem stick_wf {s : State} (w : s.regsWf) (c flag : RF) (n : Nat) : (s.stick c flag n).regsWf := by
  unfold State.stick
  dsimp only
  split
  · exact w
  · split
    · exact setF_wf w _ _
    · exact setF_wf (setF_wf w _ _) _ _

/-- A saturating counter after `n` more, its flag in another word. -/
theorem f_stick {s : State} (w : s.regsWf) {c flag : RF} (n : Nat) (hc : c.lo ≤ c.hi) (hh : c.hi < 32) (hne : canon c.a ≠ canon flag.a) :
    (s.stick c flag n).f c = min (s.f c + n) (2 ^ (c.hi + 1 - c.lo) - 1) := by
  have hlt : s.f c < 2 ^ (c.hi + 1 - c.lo) := bitsOf_lt _ _ _
  unfold State.stick
  dsimp only
  by_cases hn : n = 0
  · rw [if_pos hn, hn]
    omega
  · rw [if_neg hn]
    by_cases hroom : s.f c + n < 2 ^ (c.hi + 1 - c.lo) - 1
    · rw [if_pos hroom, f_setF_same w c _ hc hh, Nat.mod_eq_of_lt (by omega)]
      omega
    · rw [if_neg hroom, f_setF_ne (setF_wf w _ _) 1 hne, f_setF_same w c _ hc hh, Nat.mod_eq_of_lt (by omega)]
      omega

theorem onlyRegs_stick {l : List Nat} {s t : State} (w : t.regsWf) (h : OnlyRegs l s t) {c flag : RF} (n : Nat) (hc : canon c.a ∈ l)
    (hf : canon flag.a ∈ l) : OnlyRegs l s (t.stick c flag n) := by
  unfold State.stick
  dsimp only
  split
  · exact h
  · split
    · exact h.setF w _ hc
    · exact (h.setF w _ hc).setF (setF_wf w _ _) _ hf

/-! ### The ports' own state -/

/-- From `s` the machine has come to `t` by changes of the words `l` and of the fusion block's own state. -/
structure OnlyPorts (l : List Nat) (s t : State) : Prop where
  wf : t.regsWf
  kept : RegsKept l s t
  parts : t = { s with regs := t.regs, fus := t.fus, answer := t.answer }

section PortSteps

variable {l : List Nat} {s t : State}

theorem OnlyPorts.refl (w : s.regsWf) : OnlyPorts l s s := ⟨w, fun _ _ => rfl, rfl⟩

theorem OnlyPorts.only (h : OnlyPorts l s t) {u : State} (w : u.regsWf) (k : OnlyRegs l t u) : OnlyPorts l s u := by
  obtain ⟨hkept, hparts⟩ := k
  refine ⟨w, h.kept.trans hkept, ?_⟩
  rw [h.parts] at hparts
  rw [hparts]

theorem OnlyPorts.setF (h : OnlyPorts l s t) {r : RF} (v : Nat) (hr : canon r.a ∈ l) : OnlyPorts l s (t.setF r v) :=
  h.only (setF_wf h.wf r v) ((OnlyRegs.refl l t).setF h.wf v hr)

theorem OnlyPorts.stick (h : OnlyPorts l s t) {c flag : RF} (n : Nat) (hc : canon c.a ∈ l) (hf : canon flag.a ∈ l) :
    OnlyPorts l s (t.stick c flag n) :=
  h.only (stick_wf h.wf c flag n) (onlyRegs_stick h.wf (OnlyRegs.refl l t) n hc hf)

theorem setFus_wf {s : State} (w : s.regsWf) (p : Nat) (x : FusPort) : (s.setFus p x).regsWf := mk_wf w

theorem OnlyPorts.setFus (h : OnlyPorts l s t) (p : Nat) (x : FusPort) : OnlyPorts l s (t.setFus p x) :=
  ⟨setFus_wf h.wf p x, fun a ha => (reg_mk a).trans (h.kept a ha), by
    have e := h.parts
    unfold State.setFus
    rw [e]⟩

theorem OnlyPorts.ok (h : OnlyPorts l s t) : OnlyPorts l s t.ok := h.only (ok_wf h.wf) (OnlyRegs.refl l t).ok

theorem OnlyPorts.mem (h : OnlyPorts l s t) : MemKept s t := fun a => by
  rw [h.parts]
  rfl

end PortSteps

theorem setNth_eq_set {α : Type} (l : List α) (n : Nat) (v : α) : setNth l n v = l.set n v := by
  induction l generalizing n with
  | nil => rfl
  | cons x l ih =>
    cases n with
    | zero => rfl
    | succ n => exact congrArg (x :: ·) (ih n)

theorem fusOf_congr {s t : State} (h : t.fus = s.fus) (q : Nat) : t.fusOf q = s.fusOf q := by
  unfold State.fusOf
  rw [h]

/-- A port past the end of the list is empty, and stays so. -/
theorem fusOf_setFus (s : State) (p : Nat) (x : FusPort) (q : Nat) :
    (s.setFus p x).fusOf q = if q = p ∧ p < s.fus.port.length then x else s.fusOf q := by
  show (setNth s.fus.port p x).getD q {} = _
  rw [setNth_eq_set, List.getD_eq_getElem?_getD, List.getElem?_set]
  by_cases hq : p = q
  · subst hq
    by_cases hlen : p < s.fus.port.length
    · simp [hlen]
    · simp [hlen, State.fusOf, List.getD_eq_getElem?_getD]
  · rw [if_neg hq, if_neg fun h => hq h.1.symm]
    exact (List.getD_eq_getElem?_getD).symm

/-- What a change of port `p` keeps of it, every port keeps. -/
theorem fusOf_setFus_keeps {α : Type} (g : FusPort → α) {s : State} {p : Nat} {x : FusPort} (h : g x = g (s.fusOf p)) (q : Nat) :
    g ((s.setFus p x).fusOf q) = g (s.fusOf q) := by
  rw [fusOf_setFus]
  split
  · rename_i hq
    rw [h, hq.1]
  · rfl

theorem fus_stick (s : State) (c flag : RF) (n : Nat) : (s.stick c flag n).fus = s.fus := (Served.stick s c flag n).fus

theorem fus_raise (s : State) (e : Ev) : (s.raise e).fus = s.fus := (Served.raise s e).fus

theorem fus_fusDrop (s : State) (p n : Nat) : (s.fusDrop p n).fus = s.fus := fus_stick s _ _ n

theorem fus_fusBad (s : State) (p code : Nat) : (s.fusBad p code).fus = s.fus := by
  rw [State.fusBad, fus_raise, setF_fus, fus_stick]

theorem fusOf_setFusQ_keeps {α : Type} (g : FusPort → α) {s : State} {p : Nat} {x : FusPort} (h : g x = g (s.fusOf p)) (q : Nat) :
    g ((s.setFusQ p x).fusOf q) = g (s.fusOf q) := by
  rw [State.setFusQ, fusOf_congr (setF_fus _ _ _) q]
  exact fusOf_setFus_keeps g h q

/-! ### Deposits (R66–R73) -/

theorem fusCheck_lt (s : State) (p : Nat) (b : List Byte) : s.fusCheck p b < 8 := by
  unfold State.fusCheck
  dsimp only
  split
  · decide
  · split
    · decide
    · split
      · decide
      · split <;> decide

theorem fusAge_lt (s : State) (p : Nat) (b : List Byte) : s.fusAge p b < 8 := by
  unfold State.fusAge
  dsimp only
  split
  · decide
  · split <;> decide

/-- The code of a record refused at its deposit (R68): the first check that fails, the age of a scan's header apart (R73). -/
theorem fusDeposit_bad {s : State} {p : Nat} {b : List Byte} (h : s.fusCheck p b ≠ 0 ∨ (s.ptype p ≠ 6 ∧ s.fusAge p b ≠ 0)) :
    s.fusDeposit p b = s.fusBad p (if s.fusCheck p b = 0 then s.fusAge p b else s.fusCheck p b) := by
  unfold State.fusDeposit
  dsimp only
  by_cases hc : s.fusCheck p b = 0
  · obtain ⟨htype, hage⟩ := h.resolve_left fun hne => hne hc
    rw [if_neg (not_not_intro hc), if_neg htype, if_pos hage, if_pos hc]
  · rw [if_pos hc, if_neg hc]

theorem fusDeposit_scan {s : State} {p : Nat} {b : List Byte} (hc : s.fusCheck p b = 0) (htype : s.ptype p = 6) :
    s.fusDeposit p b =
      (s.setFus p { s.fusOf p with copies := (s.fusOf p).copies ++ [b] }).setF (Fld.FUS_PORT_STAT_COPY_BUSY p) 1 := by
  unfold State.fusDeposit
  dsimp only
  rw [if_neg (not_not_intro hc), if_pos htype]

theorem fusDeposit_sound {s : State} {p : Nat} {b : List Byte} (hc : s.fusCheck p b = 0) (htype : s.ptype p ≠ 6)
    (hage : s.fusAge p b = 0) : s.fusDeposit p b = s.fusQueue p b [] 0 := by
  unfold State.fusDeposit
  dsimp only
  rw [if_neg (not_not_intro hc), if_neg htype, if_neg (not_not_intro hage)]

/-- A checked sample that arrives now. -/
def arrival (s : State) (b pts : List Byte) (slot : Nat) : Smp :=
  { bytes := b, pts := pts, slot := slot, arr := s.now, cyc := s.tim.raw, prevB0 := s.frm.lastB0 }

theorem fusQueue_full {s : State} {p : Nat} (h : (if s.ptype p = 6 then 4 else 16) ≤ (s.fusOf p).queue.length) (b pts : List Byte)
    (slot : Nat) : s.fusQueue p b pts slot = (s.fusDrop p 1).raise Ev.FUS_DROP := if_pos h

theorem fusQueue_room {s : State} {p : Nat} (h : ¬(if s.ptype p = 6 then 4 else 16) ≤ (s.fusOf p).queue.length) (b pts : List Byte)
    (slot : Nat) :
    s.fusQueue p b pts slot = s.setFusQ p { s.fusOf p with queue := (s.fusOf p).queue ++ [arrival s b pts slot] } := if_neg h

section Deposits

variable {s : State} {p : Nat} (w : s.regsWf) (hp : p < 32)
include w hp

/-- A record counted as bad, with its code (R68). -/
theorem fusBad_sets {code : Nat} (hcode : code < 8) :
    (s.fusBad p code).f (Fld.FUS_PORT_STAT_LAST_BAD p) = code ∧
    (s.fusBad p code).f (Fld.FUS_PORT_CNT_B_BAD p) = min (s.f (Fld.FUS_PORT_CNT_B_BAD p) + 1) 65535 ∧
    (s.fusBad p code).raised Ev.FUS_BAD ∧ OnlyRaised 37 [Adr.FUS_PORT_STAT p, Adr.FUS_PORT_CNT_B p] s (s.fusBad p code) := by
  have hstat := portWord_stat hp
  have hcnt := portWord_cntB hp
  have hne := canon_cntB_ne_stat hp
  have w1 := stick_wf w (Fld.FUS_PORT_CNT_B_BAD p) (Fld.FUS_PORT_STAT_BAD_SAT p) 1
  have w2 := setF_wf w1 (Fld.FUS_PORT_STAT_LAST_BAD p) code
  unfold State.fusBad
  refine ⟨?_, ?_, raise_sets w2 (by decide) (by decide), OnlyRegs.raise (e := Ev.FUS_BAD) w2 ?_ rfl⟩
  · rw [f_raise (e := Ev.FUS_BAD) w2 rfl (portWord_not_event hstat),
      f_setF_same w1 (Fld.FUS_PORT_STAT_LAST_BAD p) code (show 9 ≤ 11 by decide) (show 11 < 32 by decide)]
    exact Nat.mod_eq_of_lt hcode
  · rw [f_raise (e := Ev.FUS_BAD) w2 rfl (portWord_not_event hcnt), f_setF_ne w1 code hne]
    exact f_stick w 1 (show 16 ≤ 31 by decide) (show 31 < 32 by decide) hne
  · exact (onlyRegs_stick w (OnlyRegs.refl _ s) 1 (canon_portWord_mem hcnt (by simp)) (canon_portWord_mem hstat (by simp))).setF w1 code
      (canon_portWord_mem hstat (by simp))

/-- A sample dropped, with its event (R71). -/
theorem fusDrop_raise_sets :
    ((s.fusDrop p 1).raise Ev.FUS_DROP).f (Fld.FUS_PORT_CNT_A_DROP p) = min (s.f (Fld.FUS_PORT_CNT_A_DROP p) + 1) 65535 ∧
    ((s.fusDrop p 1).raise Ev.FUS_DROP).raised Ev.FUS_DROP ∧
    OnlyRaised 37 [Adr.FUS_PORT_STAT p, Adr.FUS_PORT_CNT_A p] s ((s.fusDrop p 1).raise Ev.FUS_DROP) := by
  have hstat := portWord_stat hp
  have hcnt := portWord_cntA hp
  have w1 := stick_wf w (Fld.FUS_PORT_CNT_A_DROP p) (Fld.FUS_PORT_STAT_DROP_SAT p) 1
  unfold State.fusDrop
  refine ⟨?_, raise_sets w1 (by decide) (by decide), OnlyRegs.raise (e := Ev.FUS_DROP) w1 ?_ rfl⟩
  · rw [f_raise (e := Ev.FUS_DROP) w1 rfl (portWord_not_event hcnt)]
    exact f_stick w 1 (show 0 ≤ 15 by decide) (show 15 < 32 by decide) (canon_cntA_ne_stat hp)
  · exact onlyRegs_stick w (OnlyRegs.refl _ s) 1 (canon_portWord_mem hcnt (by simp)) (canon_portWord_mem hstat (by simp))

omit hp in
/-- A sample queued: the depth shown is that of the new queue (R71, R110). -/
theorem depth_setFusQ {x : FusPort} (hx : x.queue.length < 32) : (s.setFusQ p x).f (Fld.FUS_PORT_QUEUE_DEPTH p) = x.queue.length := by
  unfold State.setFusQ
  rw [f_setF_same (setFus_wf w p x) (Fld.FUS_PORT_QUEUE_DEPTH p) _ (show 0 ≤ 4 by decide) (show 4 < 32 by decide)]
  exact Nat.mod_eq_of_lt hx

theorem setFusQ_ports (x : FusPort) : OnlyPorts [Adr.FUS_PORT_QUEUE p] s (s.setFusQ p x) :=
  ((OnlyPorts.refl w).setFus p x).setF _ (canon_portWord_mem (portWord_queue hp) List.mem_cons_self)

theorem foreign_sets :
    (s.setF (Fld.FUS_PORT_STAT_FOREIGN p) 1).f (Fld.FUS_PORT_STAT_FOREIGN p) = 1 ∧
    OnlyRegs [Adr.FUS_PORT_STAT p] s (s.setF (Fld.FUS_PORT_STAT_FOREIGN p) 1) :=
  ⟨f_setF_same w (Fld.FUS_PORT_STAT_FOREIGN p) 1 (show 7 ≤ 7 by decide) (show 7 < 32 by decide),
   (OnlyRegs.refl _ s).setF w 1 (canon_portWord_mem (portWord_stat hp) List.mem_cons_self)⟩

end Deposits

theorem exec_depositWindowWrite {s : State} {p k : Nat} (hp : p < 32) (hk : k < 16) (m : Nat) (v : Word) :
    exec (.depositWindowWrite m p k v) s = live s (doDepWrite s m p k v) := by
  show liveIf (decide (p < 32) && decide (k < 16)) s _ = _
  rw [decide_eq_true hp, decide_eq_true hk]
  rfl

theorem exec_depositCommit {s : State} {p : Nat} (hp : p < 32) (m : Nat) : exec (.depositCommit m p) s = live s (doDepCommit s m p) := by
  show liveIf (decide (p < 32)) s _ = _
  rw [decide_eq_true hp]
  rfl

/-- What another master than the owner writes into the window, or commits, is not taken (R69, R70). -/
theorem exec_deposit_foreign {s : State} {m p : Nat} (hp : p < 32) (hm : m ≠ s.f (Fld.FUS_PORT_CFG_OWNER p)) {q : Instr}
    (hq : (∃ k v, k < 16 ∧ q = .depositWindowWrite m p k v) ∨ q = .depositCommit m p) :
    exec q s = live s (s.setF (Fld.FUS_PORT_STAT_FOREIGN p) 1).ok := by
  obtain ⟨k, v, hk, rfl⟩ | rfl := hq
  · rw [exec_depositWindowWrite hp hk, doDepWrite, if_neg hm]
  · rw [exec_depositCommit hp, doDepCommit, if_neg hm]

/-! ### Scan copies (R73) -/

theorem doScanCopied_nil {s : State} {p : Nat} (h : (s.fusOf p).copies = []) : doScanCopied s p = s := by
  unfold doScanCopied
  rw [h]

theorem copies_fusQueue (s : State) (p : Nat) (b pts : List Byte) (slot : Nat) :
    ((s.fusQueue p b pts slot).fusOf p).copies = (s.fusOf p).copies := by
  by_cases h : (if s.ptype p = 6 then 4 else 16) ≤ (s.fusOf p).queue.length
  · rw [fusQueue_full h, fusOf_congr ((fus_raise _ _).trans (fus_fusDrop s p 1))]
  · rw [fusQueue_room h]
    refine fusOf_setFusQ_keeps FusPort.copies ?_ p
    dsimp only

/-- The oldest copy taken off, before its points are read. -/
def copyTaken (s : State) (p : Nat) (rest : List (List Byte)) : State :=
  (s.setFus p { s.fusOf p with copies := rest }).setF (Fld.FUS_PORT_STAT_COPY_BUSY p) (b2n !rest.isEmpty)

/-- A port with a copy under way is a port of the block. -/
theorem port_lt_of_copies {s : State} {p : Nat} {b : List Byte} {rest : List (List Byte)} (h : (s.fusOf p).copies = b :: rest) :
    p < s.fus.port.length := by
  by_contra hp
  have hempty : s.fusOf p = {} := by
    unfold State.fusOf
    rw [List.getD_eq_getElem?_getD, List.getElem?_eq_none (Nat.le_of_not_lt hp)]
    rfl
  rw [hempty] at h
  cases h

theorem copies_copyTaken {s : State} {p : Nat} {b : List Byte} {rest : List (List Byte)} (h : (s.fusOf p).copies = b :: rest) :
    ((copyTaken s p rest).fusOf p).copies = rest := by
  rw [copyTaken, fusOf_congr (setF_fus _ _ _), fusOf_setFus, if_pos ⟨rfl, port_lt_of_copies h⟩]

/-- Whatever becomes of the oldest copy, the later ones stay. -/
theorem copies_doScanCopied {s : State} {p : Nat} {b : List Byte} {rest : List (List Byte)} (h : (s.fusOf p).copies = b :: rest) :
    ((doScanCopied s p).fusOf p).copies = rest := by
  refine Eq.trans ?_ (copies_copyTaken h)
  unfold doScanCopied
  rw [h]
  dsimp only
  rw [← copyTaken]
  generalize copyTaken s p rest = u
  generalize leAt b 24 5 = a
  generalize 8 * leAt b 14 2 = n
  have hread := fus_mRead u 23 a n
  split
  · rw [fusOf_congr ((fus_fusBad _ _ _).trans hread)]
  · split
    · rw [fusOf_congr ((fus_fusBad _ _ _).trans hread)]
    · rw [fusOf_congr (fus_raise _ _), copies_fusQueue]
      split
      · rw [fusOf_congr ((fus_mWrite _ _ _ _).trans hread)]
      · rw [fusOf_congr hread]

/-! ### The configuration of a port (R64, R65, R83) -/

/-- The word a write of `v` leaves in `FUS_PORT_CFG[p]`: without the `TYPE` when that is refused. -/
def portCfgWord (s : State) (p : Nat) (v : Word) : Word :=
  (if s.typeRefused p v then (v &&& 0x0FFFFFFF) ||| (s.reg (Adr.FUS_PORT_CFG p) &&& 0xF0000000) else v) &&& 0xFFFFFFFE

theorem type_portCfgWord (s : State) (p : Nat) (v : Word) :
    bitsOf (portCfgWord s p v).toNat 31 28 = if s.typeRefused p v then s.ptype p else bitsOf v.toNat 31 28 := by
  unfold portCfgWord
  rw [bitsOf_and_ones _ (by decide)]
  split
  · exact bitsOf_join_right _ _ (by decide) (by decide)
  · rfl

/-- Every field below `TYPE` is taken. -/
theorem fields_portCfgWord (s : State) (p : Nat) (v : Word) : bitsOf (portCfgWord s p v).toNat 27 1 = bitsOf v.toNat 27 1 := by
  unfold portCfgWord
  rw [bitsOf_and_ones _ (by decide)]
  split
  · exact bitsOf_join_left _ _ (by decide) (by decide)
  · rfl

theorem bitOf_two_eq (x : Nat) : bitOf x 2 = bitOf (bitsOf x 27 1) 1 := by
  have h : x / 2 ^ 2 % 2 = x / 2 ^ 1 % 2 ^ (27 + 1 - 1) / 2 ^ 1 % 2 := by omega
  exact congrArg (· == 1) h

theorem calEn_portCfgWord (s : State) (p : Nat) (v : Word) : bitOf (portCfgWord s p v).toNat 2 = bitOf v.toNat 2 := by
  rw [bitOf_two_eq, fields_portCfgWord, ← bitOf_two_eq]

/-- The word is written into `t`, with the event of a refusal. -/
def portCfgStored (s : State) (p : Nat) (v : Word) (t : State) : State :=
  let t1 := t.setReg (Adr.FUS_PORT_CFG p) (portCfgWord s p v)
  if s.typeRefused p v then t1.raise Ev.FUS_CFG_REFUSED else t1

/-- A port whose `TYPE` or group changes starts anew: its samples are dropped and its vote history is empty (R65). -/
def portRestarted (p : Nat) (s : State) : State :=
  let x := s.fusOf p
  let t := (s.fusDrop p (x.queue.length + x.copies.length)).setFusQ p { x with queue := [], copies := [], susRun := 0, okRun := 0 }
  ((t.setF (Fld.FUS_PORT_STAT_COPY_BUSY p) 0).setF (Fld.FUS_PORT_STAT_SUSPECT p) 0).admitPort p

/-- What the written word brings about in the port. -/
def portCfgTaken (s : State) (p : Nat) (v : Word) (t : State) : State :=
  if (portCfgWord s p v ^^^ s.reg (Adr.FUS_PORT_CFG p)) &&& 0xF0F00000 = 0 then t else portRestarted p t

theorem doPortCfg_locked {s : State} {p : Nat} (h : s.locked (Adr.FUS_PORT_CFG p) = true) (v : Word) : doPortCfg s p v = s.ok := if_pos h

theorem doPortCfg_unlocked {s : State} {p : Nat} (h : s.locked (Adr.FUS_PORT_CFG p) = false) (v : Word) :
    doPortCfg s p v = (portCfgTaken s p v (portCfgStored s p v
      (if bitOf v.toNat 2 = bitOf (s.reg (Adr.FUS_PORT_CFG p)).toNat 2 then s else s.calClear))).ok := by
  rw [← calEn_portCfgWord s p v]
  exact if_neg (by rw [h]; decide)

/-! ### The calibration pairs (R83) -/

theorem pairs_portCfgStored (s : State) (p : Nat) (v : Word) (t : State) (q : Nat) :
    ((portCfgStored s p v t).fusOf q).pairs = (t.fusOf q).pairs := by
  unfold portCfgStored
  dsimp only
  split
  · rw [fusOf_congr ((fus_raise _ _).trans (setReg_fus _ _ _))]
  · rw [fusOf_congr (setReg_fus _ _ _)]

theorem fus_admitPort (s : State) (p : Nat) : (s.admitPort p).fus = s.fus := by
  rw [State.admitPort, setF_fus, setF_fus, setF_fus]

theorem pairs_portRestarted (s : State) (p q : Nat) : ((portRestarted p s).fusOf q).pairs = (s.fusOf q).pairs := by
  have hdrop : ∀ n, (s.fusDrop p n).fusOf = s.fusOf := fun n => funext (fusOf_congr (fus_fusDrop s p n))
  unfold portRestarted
  dsimp only
  rw [fusOf_congr ((fus_admitPort _ p).trans ((setF_fus _ _ _).trans (setF_fus _ _ _)))]
  refine Eq.trans (fusOf_setFusQ_keeps FusPort.pairs ?_ q) (by rw [hdrop])
  rw [hdrop]

theorem pairs_portCfgTaken (s : State) (p : Nat) (v : Word) (t : State) (q : Nat) :
    ((portCfgTaken s p v t).fusOf q).pairs = (t.fusOf q).pairs := by
  unfold portCfgTaken
  split
  · rfl
  · exact pairs_portRestarted t p q

/-- Port `p` loses its calibration pairs. -/
def pairsCleared (p : Nat) (s : State) : State :=
  (s.setFus p { s.fusOf p with pairs := [] }).setF (Fld.FUS_PORT_QUEUE_CAL_PAIRS p) 0

theorem pairs_pairsCleared (p : Nat) (s : State) (q : Nat) :
    ((pairsCleared p s).fusOf q).pairs = if q = p then [] else (s.fusOf q).pairs := by
  rw [pairsCleared, fusOf_congr (setF_fus _ _ _), fusOf_setFus]
  by_cases hq : q = p
  · subst hq
    rw [if_pos rfl]
    split
    · rfl
    · rename_i hlen
      rw [State.fusOf, List.getD_eq_getElem?_getD, List.getElem?_eq_none (by simpa using hlen)]
      rfl
  · rw [if_neg hq, if_neg fun h => hq h.1]

theorem pairs_forUp_cleared (n : Nat) (s : State) (q : Nat) :
    ((forUp n pairsCleared s).fusOf q).pairs = if q < n then [] else (s.fusOf q).pairs := by
  induction n with
  | zero => rw [if_neg (Nat.not_lt_zero q), forUp]
  | succ n ih =>
    rw [forUp, pairs_pairsCleared, ih]
    by_cases hq : q = n
    · rw [if_pos hq, if_pos (by omega)]
    · rw [if_neg hq]
      exact if_congr (by omega) rfl rfl

theorem calClear_eq (s : State) : ∃ t : State, t.fus = s.fus ∧ s.calClear = forUp 32 pairsCleared t := by
  unfold State.calClear
  dsimp only
  split
  · exact ⟨s, rfl, rfl⟩
  · exact ⟨_, fus_mWrite s _ _ _, rfl⟩

/-- Clearing the calibration area empties the pairs of every port. -/
theorem pairs_calClear (s : State) (q : Nat) : (s.calClear.fusOf q).pairs = if q < 32 then [] else (s.fusOf q).pairs := by
  obtain ⟨t, hfus, ht⟩ := calClear_eq s
  rw [ht, pairs_forUp_cleared, fusOf_congr hfus]

theorem pairs_doPortCfg_calEn {s : State} {p : Nat} {v : Word} (h : s.locked (Adr.FUS_PORT_CFG p) = false)
    (hcal : bitOf v.toNat 2 ≠ bitOf (s.reg (Adr.FUS_PORT_CFG p)).toNat 2) (q : Nat) :
    ((doPortCfg s p v).fusOf q).pairs = if q < 32 then [] else (s.fusOf q).pairs := by
  rw [doPortCfg_unlocked h, if_neg hcal, fusOf_congr (ok_fus _), pairs_portCfgTaken, pairs_portCfgStored, pairs_calClear]

/-! ### The registers after a write of a configuration -/

/-- The words that starting a port anew may change. -/
def restartWords (p : Nat) : List Nat := [Adr.FUS_PORT_STAT p, Adr.FUS_PORT_CNT_A p, Adr.FUS_PORT_QUEUE p]

section PortCfg

variable {s : State} {p : Nat} (w : s.regsWf) (hp : p < 32) (v : Word)
include w hp

theorem portCfgStored_sets :
    (portCfgStored s p v s).reg (Adr.FUS_PORT_CFG p) = portCfgWord s p v ∧
    (s.typeRefused p v = true → (portCfgStored s p v s).raised Ev.FUS_CFG_REFUSED) ∧
    OnlyRaised 37 [Adr.FUS_PORT_CFG p] s (portCfgStored s p v s) := by
  have hcfg := portWord_cfg hp
  have w1 := setReg_wf w (Adr.FUS_PORT_CFG p) (portCfgWord s p v)
  have honly : OnlyRegs [Adr.FUS_PORT_CFG p] s (s.setReg (Adr.FUS_PORT_CFG p) (portCfgWord s p v)) :=
    (OnlyRegs.refl _ s).setReg w _ (canon_portWord_mem hcfg List.mem_cons_self)
  unfold portCfgStored
  dsimp only
  split
  · refine ⟨?_, fun _ => raise_sets w1 (by decide) (by decide), honly.raise (e := Ev.FUS_CFG_REFUSED) w1 rfl⟩
    rw [raise_kept (e := Ev.FUS_CFG_REFUSED) w1 rfl _ (portWord_not_event hcfg), reg_setReg_same w]
  · rename_i hr
    exact ⟨reg_setReg_same w _ _, fun h => absurd h hr, OnlyRaised.of honly⟩

omit hp in
theorem portCfgStored_wf : (portCfgStored s p v s).regsWf := by
  unfold portCfgStored
  dsimp only
  split
  · exact raise_wf (setReg_wf w _ _) _
  · exact setReg_wf w _ _

omit v in
theorem portRestarted_ports : OnlyPorts (restartWords p) s (portRestarted p s) := by
  have hstat : canon (Adr.FUS_PORT_STAT p) ∈ restartWords p := canon_portWord_mem (portWord_stat hp) (by simp [restartWords])
  have hcnt : canon (Adr.FUS_PORT_CNT_A p) ∈ restartWords p := canon_portWord_mem (portWord_cntA hp) (by simp [restartWords])
  have hqueue : canon (Adr.FUS_PORT_QUEUE p) ∈ restartWords p := canon_portWord_mem (portWord_queue hp) (by simp [restartWords])
  exact ((((((((OnlyPorts.refl w).stick _ hcnt hstat).setFus p _).setF _ hqueue).setF _ hstat).setF _ hstat).setF _ hstat).setF _
    hstat).setF _ hstat

omit w in
theorem portCfgTaken_ports {t : State} (wt : t.regsWf) : OnlyPorts (restartWords p) t (portCfgTaken s p v t) := by
  unfold portCfgTaken
  split
  · exact OnlyPorts.refl wt
  · exact portRestarted_ports wt hp

/-- Starting the port anew leaves what was written and raised before. -/
theorem doPortCfg_sets (h : s.locked (Adr.FUS_PORT_CFG p) = false)
    (hcal : bitOf v.toNat 2 = bitOf (s.reg (Adr.FUS_PORT_CFG p)).toNat 2) :
    (doPortCfg s p v).reg (Adr.FUS_PORT_CFG p) = portCfgWord s p v ∧
    (s.typeRefused p v = true → (doPortCfg s p v).raised Ev.FUS_CFG_REFUSED) ∧
    RegsKept (evWords 37 ++ Adr.FUS_PORT_CFG p :: restartWords p) s (doPortCfg s p v) ∧ MemKept s (doPortCfg s p v) := by
  obtain ⟨hreg, hraised, hstored⟩ := portCfgStored_sets w hp v
  have htaken := (portCfgTaken_ports (s := s) hp v (portCfgStored_wf (p := p) w v)).ok
  have hcfg : canon (Adr.FUS_PORT_CFG p) ∉ restartWords p := by
    rw [canon_portWord (portWord_cfg hp)]
    simp [restartWords]
  have hevent : canon (hdr 37 4) ∉ restartWords p := by
    rw [canon_event]
    simp only [restartWords, List.mem_cons, List.not_mem_nil, or_false, hdr, blockPage]
    unfold Adr.FUS_PORT_STAT Adr.FUS_PORT_CNT_A Adr.FUS_PORT_QUEUE
    omega
  rw [doPortCfg_unlocked h, if_pos hcal]
  refine ⟨(htaken.kept _ hcfg).trans hreg, fun hr => ⟨?_⟩, RegsKept.trans (hstored.1.mono ?_) (htaken.kept.mono ?_), fun a => ?_⟩
  · show bitOf (State.reg _ (hdr 37 4)).toNat _ = true
    rw [htaken.kept _ hevent]
    exact (hraised hr).bit
  · simp only [List.mem_append, List.mem_cons, List.not_mem_nil, or_false]
    tauto
  · intro a ha
    exact List.mem_append_right _ (List.mem_cons_of_mem _ ha)
  · exact (htaken.mem a).trans (hstored.mem a)

end PortCfg

theorem exec_portCfgWrite {s : State} {p : Nat} (hp : p < 32) (v : Word) : exec (.portCfgWrite p v) s = live s (doPortCfg s p v) := by
  show liveIf (decide (p < 32)) s _ = _
  rw [decide_eq_true hp]
  rfl

/-! ### The grid engine (R73, R100, R104, R497) -/

theorem gfe_raise (s : State) (e : Ev) : (s.raise e).gfe = s.gfe := by
  rw [raise_parts]

/-- Writing into a field what it holds leaves the word as it was. -/
theorem putBits_bitsOf (x : Nat) {hi lo : Nat} (h : lo ≤ hi) : putBits x hi lo (bitsOf x hi lo) = x := by
  have hw : 2 ^ (hi + 1) = 2 ^ lo * 2 ^ (hi + 1 - lo) := by rw [← Nat.pow_add]; congr 1; omega
  unfold putBits bitsOf
  rw [Nat.mod_mod, Nat.mul_comm _ (2 ^ lo), ← Nat.mod_mul, ← hw, Nat.mul_comm, Nat.mod_add_div]

theorem reg_setF_held {s : State} (w : s.regsWf) {r : RF} {v : Nat} (hr : r.lo ≤ r.hi) (hv : s.f r = v) (a : Nat) :
    (s.setF r v).reg a = s.reg a := by
  have hword : BitVec.ofNat 32 (putBits (s.reg r.a).toNat r.hi r.lo v) = s.reg r.a := by
    rw [← hv, State.f, putBits_bitsOf _ hr, BitVec.ofNat_toNat, BitVec.setWidth_eq]
  unfold State.setF
  rw [reg_setReg w, hword]
  split
  · rename_i e
    unfold State.reg
    rw [e]
  · rfl

/-- `GFE_CTRL.ENABLE`. -/
abbrev gfeEnableField : RF := ⟨hdr 41 2, 2, 2⟩

theorem enabled_gfe (s : State) : s.enabled 41 = (s.f gfeEnableField == 1) :=
  congrArg (· == 1) (bitsOf_one (s.reg (hdr 41 2)).toNat 2).symm

theorem gfeEnable_rising {s : State} (h : s.enabled 41 = false) : s.gfeEnable true = (s.setF gfeEnableField 1).loadWeights := by
  unfold State.gfeEnable
  simp only [h, Bool.not_false, Bool.and_self, if_true, b2n]

theorem gfeEnable_held {s : State} (h : s.enabled 41 = true) : s.gfeEnable true = s.setF gfeEnableField 1 := by
  unfold State.gfeEnable
  rw [h]
  rfl

theorem gfeEnable_off (s : State) : s.gfeEnable false = s.setF gfeEnableField 0 := rfl

/-- The blob held after a load: the bytes read when both reads are answered and every check passes, none otherwise. -/
theorem blob_loadWeights (s : State) :
    let at_ := dramAddr (s.f Fld.GFE_WADDR_ADDR)
    let h := s.mRead 6 at_ 64
    let r := h.st.mRead 6 at_ (max 64 (min 75840 (leAt h.data 8 4)))
    s.loadWeights.gfe.blob = if h.rsp = .okay ∧ r.rsp = .okay ∧ blobOk r.data = true then r.data else [] := by
  intro at_ h r
  unfold State.loadWeights
  by_cases hgood : h.rsp = .okay ∧ r.rsp = .okay ∧ blobOk r.data = true
  · rw [if_pos hgood, if_pos hgood, setReg_gfe]
  · rw [if_neg hgood, if_neg hgood, gfe_raise, setReg_gfe]

theorem waddr_gfeEnabled {s : State} (w : s.regsWf) (v : Nat) :
    (s.setF gfeEnableField v).f Fld.GFE_WADDR_ADDR = s.f Fld.GFE_WADDR_ADDR := f_setF_ne w v (by decide)

theorem pageOk_gfe (s : State) : s.pageOk 41 = true := by
  unfold State.pageOk
  rw [Bool.and_eq_true, Bool.or_eq_true]
  exact ⟨rfl, Or.inr rfl⟩

/-- A write of `ENABLE` of the feature engine's page. -/
theorem exec_blockEnable_gfe (s : State) (on : Bool) : exec (.blockEnable 41 on) s = live s (s.gfeEnable on).ok := by
  show liveIf (s.pageOk 41) s (s.gfeEnable on).ok = _
  unfold liveIf
  rw [pageOk_gfe, if_pos rfl]

/-- The two commands that switch the feature engine on do the same. -/
theorem exec_gfe_on {q : Instr} (h : q = .gfeWeightLoad ∨ q = .blockEnable 41 true) (s : State) :
    exec q s = live s (s.gfeEnable true).ok := by
  rcases h with rfl | rfl
  · rfl
  · exact exec_blockEnable_gfe s true

/-- The pass is over and its result not yet written. -/
def passEnded (s : State) : State := { s.gfeScratch with gfe := { s.gfe with pass := none } }

/-- No pose, for the reason `r` (R109). -/
def poseInvalid (r : Nat) (s : State) : State :=
  ((s.setF Fld.GFE_POSE_STAT_VALID 0).setF Fld.GFE_POSE_STAT_REASON r).raise Ev.GFE_POSE_INVALID

/-- The pose `x` waits for the next B0 edge (R81). -/
def poseWaiting (x : PoseRes) (s : State) : State := { s with fus := { s.fus with pose := some x } }

/-- What the result `x` of the pass `g` writes. -/
def poseWritten (s : State) (g : GridPass) (x : List Byte ⊕ Nat) (t : State) : State :=
  let port := s.f Fld.GFE_PASS_POSE_PORT
  match x with
  | .inr r => poseInvalid r t
  | .inl b =>
    if s.ptype port ≠ 7 then poseInvalid 6 t
    else ((poseWaiting ⟨port, b, decide (1 ≤ g.edges)⟩ t).setF Fld.GFE_POSE_STAT_VALID 1).setF Fld.GFE_POSE_STAT_REASON 0

theorem passDone_eq {s s1 : State} {g : GridPass} {map : Option (List Byte)} (h : s.passMap g = (s1, map)) :
    s.passDone g = ((poseWritten s g (s1.passResult g map) (passEnded s1)).wrap Fld.GFE_POSE_STAT_PASSES 1).raise Ev.GFE_PASS_DONE := by
  unfold State.passDone poseWritten
  rw [h]
  rfl

theorem gfe_poseInvalid (r : Nat) (s : State) : (poseInvalid r s).gfe = s.gfe := by
  rw [poseInvalid, gfe_raise, setF_gfe, setF_gfe]

theorem poseWritten_reason (s : State) (g : GridPass) (r : Nat) (t : State) : poseWritten s g (.inr r) t = poseInvalid r t := rfl

theorem poseWritten_pose (s : State) (g : GridPass) (b : List Byte) (t : State) :
    poseWritten s g (.inl b) t =
      if s.ptype (s.f Fld.GFE_PASS_POSE_PORT) ≠ 7 then poseInvalid 6 t
      else ((poseWaiting ⟨s.f Fld.GFE_PASS_POSE_PORT, b, decide (1 ≤ g.edges)⟩ t).setF Fld.GFE_POSE_STAT_VALID 1).setF
        Fld.GFE_POSE_STAT_REASON 0 := rfl

theorem gfe_poseWritten (s : State) (g : GridPass) (x : List Byte ⊕ Nat) (t : State) : (poseWritten s g x t).gfe = t.gfe := by
  cases x with
  | inr r => rw [poseWritten_reason, gfe_poseInvalid]
  | inl b =>
    rw [poseWritten_pose]
    split
    · exact gfe_poseInvalid 6 t
    · rw [setF_gfe, setF_gfe, poseWaiting]

/-- A pass that has completed is no longer in progress, with a pose or without. -/
theorem pass_passDone (s : State) (g : GridPass) : (s.passDone g).gfe.pass = none := by
  rw [passDone_eq (Prod.eta (s.passMap g)).symm, gfe_raise, State.wrap, setF_gfe, gfe_poseWritten, passEnded]

theorem exec_gridPassDone_some {s : State} {g : GridPass} (h : s.gfe.pass = some g) : exec .gridPassDone s = live s (s.passDone g) := by
  show execGridPassDone s = _
  unfold execGridPassDone
  rw [h]

theorem exec_gridPassDone_none {s : State} (h : s.gfe.pass = none) : exec .gridPassDone s = live s s := by
  show execGridPassDone s = _
  unfold execGridPassDone
  rw [h]

end Sys2Proof.Laws

namespace Sys2Proof.Proofs

open Sys2Proof.Machine Sys2Proof.Laws

/-! ### Deposits -/

section Deposits

variable {s : State} {m p : Nat} (hp : s.pwr.on = true) (w : s.regsWf) (hlt : p < 32)
include hp w hlt

theorem runs_deposit_word {k : Nat} (hk : k < 16) (hm : m = s.f (Fld.FUS_PORT_CFG_OWNER p)) (v : Word) :
    Runs (.depositWindowWrite m p k v) s fun t => t.reg (Adr.FUS_DEP p k) = v ∧ OnlyRegs [Adr.FUS_DEP p k] s t := by
  refine Runs.live (exec_depositWindowWrite hlt hk m v) hp ?_
  rw [doDepWrite, if_pos hm]
  refine ⟨(reg_ok _ _).trans (reg_setReg_same w _ v), ((OnlyRegs.refl _ s).setReg w v ?_).ok⟩
  rw [canon_dep hlt hk]
  exact List.mem_cons_self

theorem runs_deposit_foreign {q : Instr} (hm : m ≠ s.f (Fld.FUS_PORT_CFG_OWNER p))
    (hq : (∃ k v, k < 16 ∧ q = .depositWindowWrite m p k v) ∨ q = .depositCommit m p) :
    Runs q s fun t => t.f (Fld.FUS_PORT_STAT_FOREIGN p) = 1 ∧ OnlyRegs [Adr.FUS_PORT_STAT p] s t := by
  obtain ⟨hbit, honly⟩ := foreign_sets w hlt
  exact Runs.live (exec_deposit_foreign hlt hm hq) hp ⟨(f_ok _ _).trans hbit, honly.ok⟩

omit w in
/-- A commit by the owner runs what the deposit of the window's record does. -/
theorem runs_depositCommit {P : State → Prop} (hm : m = s.f (Fld.FUS_PORT_CFG_OWNER p)) (h : P (s.fusDeposit p (s.fusWindow p)).ok) :
    Runs (.depositCommit m p) s P := by
  refine Runs.live (exec_depositCommit hlt m) hp ?_
  rwa [doDepCommit, if_pos hm]

theorem runs_commit_bad (hm : m = s.f (Fld.FUS_PORT_CFG_OWNER p))
    (hbad : s.fusCheck p (s.fusWindow p) ≠ 0 ∨ (s.ptype p ≠ 6 ∧ s.fusAge p (s.fusWindow p) ≠ 0)) :
    Runs (.depositCommit m p) s fun t =>
      t.f (Fld.FUS_PORT_STAT_LAST_BAD p) =
        (if s.fusCheck p (s.fusWindow p) = 0 then s.fusAge p (s.fusWindow p) else s.fusCheck p (s.fusWindow p)) ∧
      t.f (Fld.FUS_PORT_CNT_B_BAD p) = min (s.f (Fld.FUS_PORT_CNT_B_BAD p) + 1) 65535 ∧ t.raised Ev.FUS_BAD ∧
      OnlyRaised 37 [Adr.FUS_PORT_STAT p, Adr.FUS_PORT_CNT_B p] s t := by
  have hcode : (if s.fusCheck p (s.fusWindow p) = 0 then s.fusAge p (s.fusWindow p) else s.fusCheck p (s.fusWindow p)) < 8 := by
    split
    · exact fusAge_lt s p _
    · exact fusCheck_lt s p _
  obtain ⟨hlast, hcount, hraised, honly⟩ := fusBad_sets w hlt hcode
  refine runs_depositCommit hp hlt hm ?_
  rw [fusDeposit_bad hbad]
  exact ⟨(f_ok _ _).trans hlast, (f_ok _ _).trans hcount, raised_ok hraised, honly.ok⟩

theorem runs_commit_scan (hm : m = s.f (Fld.FUS_PORT_CFG_OWNER p)) (hc : s.fusCheck p (s.fusWindow p) = 0) (htype : s.ptype p = 6) :
    Runs (.depositCommit m p) s fun t =>
      t.fus = { s.fus with port := setNth s.fus.port p { s.fusOf p with copies := (s.fusOf p).copies ++ [s.fusWindow p] } } ∧
      t.f (Fld.FUS_PORT_STAT_COPY_BUSY p) = 1 ∧ RegsKept [Adr.FUS_PORT_STAT p] s t ∧
      t = { s with regs := t.regs, fus := t.fus, answer := t.answer } := by
  refine runs_depositCommit hp hlt hm ?_
  rw [fusDeposit_scan hc htype]
  have hports : OnlyPorts [Adr.FUS_PORT_STAT p] s (((s.setFus p { s.fusOf p with copies := (s.fusOf p).copies ++ [s.fusWindow p] }).setF
      (Fld.FUS_PORT_STAT_COPY_BUSY p) 1).ok) :=
    (((OnlyPorts.refl w).setFus p _).setF (r := Fld.FUS_PORT_STAT_COPY_BUSY p) 1
      (canon_portWord_mem (portWord_stat hlt) List.mem_cons_self)).ok
  refine ⟨?_, ?_, hports.kept, hports.parts⟩
  · rw [ok_fus, setF_fus]
    rfl
  · rw [f_ok]
    exact f_setF_same (setFus_wf w p _) (Fld.FUS_PORT_STAT_COPY_BUSY p) 1 (show 8 ≤ 8 by decide) (show 8 < 32 by decide)

theorem runs_commit_queued (hm : m = s.f (Fld.FUS_PORT_CFG_OWNER p)) (hc : s.fusCheck p (s.fusWindow p) = 0) (htype : s.ptype p ≠ 6)
    (hage : s.fusAge p (s.fusWindow p) = 0) (hroom : (s.fusOf p).queue.length < 16) :
    Runs (.depositCommit m p) s fun t =>
      t.fus.port = setNth s.fus.port p { s.fusOf p with
        queue := (s.fusOf p).queue ++ [⟨s.fusWindow p, [], 0, s.now, s.tim.raw, s.frm.lastB0, false, false⟩] } ∧
      t.fus = { s.fus with port := t.fus.port } ∧
      t.f (Fld.FUS_PORT_QUEUE_DEPTH p) = (s.fusOf p).queue.length + 1 ∧ RegsKept [Adr.FUS_PORT_QUEUE p] s t ∧
      t = { s with regs := t.regs, fus := t.fus, answer := t.answer } := by
  refine runs_depositCommit hp hlt hm ?_
  rw [fusDeposit_sound hc htype hage, fusQueue_room (by rw [if_neg htype]; omega)]
  have hports := (setFusQ_ports w hlt
    { s.fusOf p with queue := (s.fusOf p).queue ++ [arrival s (s.fusWindow p) [] 0] }).ok
  refine ⟨?_, ?_, ?_, hports.kept, hports.parts⟩
  · rw [ok_fus, State.setFusQ, setF_fus]
    rfl
  · rw [ok_fus, State.setFusQ, setF_fus]
    rfl
  · rw [f_ok, depth_setFusQ w] <;> rw [List.length_append, List.length_singleton]
    omega

theorem runs_commit_dropped (hm : m = s.f (Fld.FUS_PORT_CFG_OWNER p)) (hc : s.fusCheck p (s.fusWindow p) = 0) (htype : s.ptype p ≠ 6)
    (hage : s.fusAge p (s.fusWindow p) = 0) (hfull : 16 ≤ (s.fusOf p).queue.length) :
    Runs (.depositCommit m p) s fun t =>
      t.f (Fld.FUS_PORT_CNT_A_DROP p) = min (s.f (Fld.FUS_PORT_CNT_A_DROP p) + 1) 65535 ∧ t.raised Ev.FUS_DROP ∧
      OnlyRaised 37 [Adr.FUS_PORT_STAT p, Adr.FUS_PORT_CNT_A p] s t := by
  obtain ⟨hcount, hraised, honly⟩ := fusDrop_raise_sets w hlt
  refine runs_depositCommit hp hlt hm ?_
  rw [fusDeposit_sound hc htype hage, fusQueue_full (by rwa [if_neg htype])]
  exact ⟨(f_ok _ _).trans hcount, raised_ok hraised, honly.ok⟩

end Deposits

/-! ### Port configuration -/

theorem runs_portCfg_calEn_kept {s : State} {p : Nat} {v : Word} (hp : s.pwr.on = true) (w : s.regsWf) (hlt : p < 32)
    (hopen : s.locked (Adr.FUS_PORT_CFG p) = false) (hcal : bitOf v.toNat 2 = bitOf (s.reg (Adr.FUS_PORT_CFG p)).toNat 2) :
    Runs (.portCfgWrite p v) s fun t =>
      t.ptype p = (if s.typeRefused p v then s.ptype p else bitsOf v.toNat 31 28) ∧
      bitsOf (t.reg (Adr.FUS_PORT_CFG p)).toNat 27 1 = bitsOf v.toNat 27 1 ∧ (s.typeRefused p v = true → t.raised Ev.FUS_CFG_REFUSED) ∧
      RegsKept (evWords 37 ++ [Adr.FUS_PORT_CFG p, Adr.FUS_PORT_STAT p, Adr.FUS_PORT_CNT_A p, Adr.FUS_PORT_QUEUE p]) s t ∧
      MemKept s t := by
  obtain ⟨hreg, hraised, hkept, hmem⟩ := doPortCfg_sets w hlt v hopen hcal
  refine Runs.live (exec_portCfgWrite hlt v) hp ⟨?_, ?_, hraised, hkept, hmem⟩
  · rw [State.ptype, State.f, hreg]
    exact type_portCfgWord s p v
  · rw [hreg]
    exact fields_portCfgWord s p v

/-- Settles O33: a commit by the owner is one of five outcomes of the record's checks, the type and the room of the queue; a write of a
configuration is the word it leaves, then the port started anew, which keeps that word and every port's pairs. -/
theorem samplesAndPortsAreGuarded : Obligations.SamplesAndPortsAreGuarded :=
  ⟨fun _ _ _ hp w hlt =>
    ⟨fun _ v hk hm => runs_deposit_word hp w hlt hk hm v,
     fun hm _ hq => runs_deposit_foreign hp w hlt hm hq,
     fun hm hbad => runs_commit_bad hp w hlt hm hbad,
     fun hm hc htype => runs_commit_scan hp w hlt hm hc htype,
     fun hm hc htype hage hroom => runs_commit_queued hp w hlt hm hc htype hage hroom,
     fun hm hc htype hage hfull => runs_commit_dropped hp w hlt hm hc htype hage hfull,
     fun _ _ hcopies => Runs.liveIf rfl hp (decide_eq_true hlt) ⟨rfl, copies_doScanCopied hcopies⟩,
     fun hnone => Runs.liveIf rfl hp (decide_eq_true hlt) (doScanCopied_nil hnone)⟩,
   fun _ _ v hp w hlt =>
    ⟨fun hlocked => Runs.live (exec_portCfgWrite hlt v) hp (doPortCfg_locked hlocked v),
     fun hopen hcal => runs_portCfg_calEn_kept hp w hlt hopen hcal,
     fun hopen hcal => Runs.live (exec_portCfgWrite hlt v) hp ⟨rfl, pairs_doPortCfg_calEn hopen hcal⟩⟩⟩

/-! ### The grid engine -/

theorem runs_gfe_load {s : State} {q : Instr} (hp : s.pwr.on = true) (w : s.regsWf) (hoff : s.enabled 41 = false)
    (hq : q = .gfeWeightLoad ∨ q = .blockEnable 41 true) :
    let u := s.setF ⟨hdr 41 2, 2, 2⟩ 1
    let at_ := dramAddr (s.f Fld.GFE_WADDR_ADDR)
    let h := u.mRead 6 at_ 64
    let r := h.st.mRead 6 at_ (max 64 (min 75840 (leAt h.data 8 4)))
    Runs q s fun t => t = u.loadWeights.ok ∧
      t.gfe.blob = (if h.rsp = .okay ∧ r.rsp = .okay ∧ blobOk r.data = true then r.data else []) := by
  intro u at_ h r
  refine Runs.live (exec_gfe_on hq s) hp ?_
  rw [gfeEnable_rising hoff]
  refine ⟨rfl, ?_⟩
  have hblob := blob_loadWeights (s.setF gfeEnableField 1)
  rw [waddr_gfeEnabled w] at hblob
  rw [ok_gfe]
  exact hblob

theorem runs_gfe_held {s : State} {q : Instr} (hp : s.pwr.on = true) (w : s.regsWf) (hon : s.enabled 41 = true)
    (hq : q = .gfeWeightLoad ∨ q = .blockEnable 41 true) : Runs q s fun t => OnlyRegs [] s t := by
  refine Runs.live (exec_gfe_on hq s) hp ?_
  rw [gfeEnable_held hon]
  have hset : s.f gfeEnableField = 1 := by rwa [enabled_gfe, beq_iff_eq] at hon
  exact OnlyRegs.ok ⟨fun a _ => reg_setF_held w (Nat.le_refl 2) hset a, rfl⟩

theorem runs_gfe_off {s : State} (hp : s.pwr.on = true) (w : s.regsWf) :
    Runs (.blockEnable 41 false) s fun t => t.enabled 41 = false ∧ OnlyRegs [hdr 41 2] s t := by
  refine Runs.live (exec_blockEnable_gfe s false) hp ?_
  rw [gfeEnable_off]
  refine ⟨?_, ((OnlyRegs.refl _ s).setF w 0 (by decide)).ok⟩
  rw [enabled_gfe, f_ok, f_setF_same w gfeEnableField 0 (Nat.le_refl 2) (by decide)]
  rfl

theorem runs_scanClr {s : State} (hp : s.pwr.on = true) (w : s.regsWf) :
    Runs .scanClr s fun t => t.f Fld.GFE_POSE_STAT_SCAN_DROP = 0 ∧ OnlyRegs [Adr.GFE_POSE_STAT] s t :=
  Runs.live (t := (s.setF Fld.GFE_POSE_STAT_SCAN_DROP 0).ok) rfl hp
    ⟨(f_ok _ _).trans (f_setF_same w Fld.GFE_POSE_STAT_SCAN_DROP 0 (by decide) (by decide)),
     ((OnlyRegs.refl _ s).setF w 0 (by decide)).ok⟩

/-- Settles O34: a write of `ENABLE` loads on the change from 0 to 1 alone, and the blob held is decided by the two reads and the checks;
a pass ends whatever it yields. -/
theorem gridEngineLoadsAndPasses : Obligations.GridEngineLoadsAndPasses := fun s hp w =>
  ⟨fun hoff _ hq => runs_gfe_load hp w hoff hq,
   fun hon _ hq => runs_gfe_held hp w hon hq,
   runs_gfe_off hp w,
   fun g hg => Runs.live (exec_gridPassDone_some hg) hp ⟨rfl, pass_passDone s g⟩,
   fun hnone => runs_of_live_same (exec_gridPassDone_none hnone),
   runs_scanClr hp w⟩

end Sys2Proof.Proofs
end

section
/-! ## Channels, inputs and captures of the satellite navigation baseband

The statements of *Satellite navigation*: the start of a channel (R116), the IF inputs, the references of the jamming indicator and the
captures (R113, R115, R127, R128). The lemmas about the model's operations stand first, each statement's proof after them. -/

namespace Sys2Proof.Laws

open Sys2Proof.Machine

/-! ### The start of a channel (R116) -/

theorem gns_raise (s : State) (e : Ev) : (s.raise e).gns = s.gns := by
  rw [raise_parts]

/-- The state whose channel `c` has been configured with `v`, its tries cleared. -/
def channelCleared (s : State) (c : Nat) (v : Word) : State :=
  (s.setReg (Adr.GNS_CH_CFG c) (v &&& 0xFFFCFFFF)).setF (Fld.GNS_CH_STAT_ACQ_TRIES c) 0

theorem gns_setGst (s : State) (c st : Nat) : (s.setGst c st).gns = s.gns := by
  unfold State.setGst
  dsimp only
  split
  · rw [setF_gns]
  · rw [setF_gns, setF_gns, setF_gns, setF_gns]

theorem ch_gnsQueue (s : State) (c : Nat) : (s.gnsQueue c).gns.ch = s.gns.ch := by
  unfold State.gnsQueue
  dsimp only
  rw [gns_setGst]

theorem doGnsCfg_start {s : State} {c : Nat} {v : Word} (hrun : bitOf v.toNat 31 = true) (hmode : bitOf v.toNat 30 = false)
    (hoff : s.gst c = 0) (hprn : bitsOf v.toNat 28 23 ≠ 0) :
    doGnsCfg s c v = (((channelCleared s c v).setGns c
      { s.gnsOf c with direct := false, dopp := 1000 * (channelCleared s c v).fi (Fld.GNS_CH_CFG_DOPP c) }).gnsQueue c).ok := by
  unfold doGnsCfg channelCleared
  dsimp only
  rw [hrun, hmode, if_neg Bool.noConfusion, if_neg fun h => h.elim (fun hne => hne hoff) hprn, if_neg Bool.false_ne_true]

/-- The Doppler that a channel is configured with (R116). -/
theorem dopp_channelCleared {s : State} (w : s.regsWf) {c : Nat} (hc : c < 56) (v : Word) :
    (channelCleared s c v).fi (Fld.GNS_CH_CFG_DOPP c) = sgn 16 (bitsOf v.toNat 15 0) := by
  have hne : canon (Adr.GNS_CH_CFG c) ≠ canon (Adr.GNS_CH_STAT c) := by
    unfold Adr.GNS_CH_CFG Adr.GNS_CH_STAT
    rw [canon_body (by omega), canon_body (by omega)]
    omega
  refine congrArg (sgn 16) ?_
  calc (channelCleared s c v).f (Fld.GNS_CH_CFG_DOPP c)
      = (s.setReg (Adr.GNS_CH_CFG c) (v &&& 0xFFFCFFFF)).f (Fld.GNS_CH_CFG_DOPP c) :=
        f_setF_ne (r := Fld.GNS_CH_STAT_ACQ_TRIES c) (setReg_wf w _ _) 0 hne
    _ = bitsOf (v &&& 0xFFFCFFFF).toNat 15 0 := f_setReg_same w _ rfl
    _ = bitsOf v.toNat 15 0 := bitsOf_and_ones v (by decide)

theorem gns_channelCleared (s : State) (c : Nat) (v : Word) : (channelCleared s c v).gns = s.gns := by
  rw [channelCleared, setF_gns, setReg_gns]

theorem ch_setGns (s : State) (c : Nat) (x : GnsCh) : (s.setGns c x).gns.ch = setNth s.gns.ch c x := rfl

/-- A start from `OFF` takes the Doppler of the configuration as the channel's. -/
theorem ch_doGnsCfg_start {s : State} {c : Nat} {v : Word} (w : s.regsWf) (hc : c < 56) (hrun : bitOf v.toNat 31 = true)
    (hmode : bitOf v.toNat 30 = false) (hoff : s.gst c = 0) (hprn : bitsOf v.toNat 28 23 ≠ 0) :
    (doGnsCfg s c v).gns.ch =
      setNth s.gns.ch c { s.gnsOf c with direct := false, dopp := 1000 * sgn 16 (bitsOf v.toNat 15 0) } := by
  rw [doGnsCfg_start hrun hmode hoff hprn, ok_gns, ch_gnsQueue, ch_setGns, gns_channelCleared, dopp_channelCleared w hc]

/-! ### The words of the IF inputs and of the channels (R130) -/

theorem canon_agc {i : Nat} (hi : i < 2) : canon (Adr.GNS_AGC i) = Adr.GNS_AGC i := canon_body (by unfold Adr.GNS_AGC; omega)

theorem canon_jam {i : Nat} (hi : i < 2) : canon (Adr.GNS_JAM i) = Adr.GNS_JAM i := canon_body (by unfold Adr.GNS_JAM; omega)

theorem canon_chStat {c : Nat} (hc : c < 56) : canon (Adr.GNS_CH_STAT c) = Adr.GNS_CH_STAT c :=
  canon_body (by unfold Adr.GNS_CH_STAT; omega)

/-- A field of a word beside the one written. -/
theorem f_setF_beside {s : State} (w : s.regsWf) {a hi lo h l : Nat} (v : Nat) (hr : lo ≤ hi ∧ hi < 32) (hq : l ≤ h ∧ (h < lo ∨ hi < l)) :
    (s.setF ⟨a, hi, lo⟩ v).f ⟨a, h, l⟩ = s.f ⟨a, h, l⟩ := f_setF_other w v rfl hr.1 hr.2 hq.1 hq.2

/-- The status words of the channels below `n`. -/
def statWords (n : Nat) : List Nat := (List.range n).map fun c => Adr.GNS_CH_STAT c

theorem chStat_mem_statWords {n c : Nat} (hc : c < n) : Adr.GNS_CH_STAT c ∈ statWords n :=
  List.mem_map.2 ⟨c, List.mem_range.2 hc, rfl⟩

theorem chStat_not_mem_statWords {n c : Nat} (hc : n ≤ c) : Adr.GNS_CH_STAT c ∉ statWords n := by
  intro h
  obtain ⟨j, hj, he⟩ := List.mem_map.1 h
  rw [List.mem_range] at hj
  unfold Adr.GNS_CH_STAT at he
  omega

theorem statWords_range {n a : Nat} (h : a ∈ statWords n) : 34882 ≤ a ∧ a < 34882 + n * 8 := by
  obtain ⟨j, hj, rfl⟩ := List.mem_map.1 h
  rw [List.mem_range] at hj
  unfold Adr.GNS_CH_STAT
  omega

/-! ### A capture that ends (R127, R128) -/

/-- The capture ends with error `e`. -/
def captureFailed (e : Nat) (s : State) : State :=
  ((s.setF Fld.GNS_SNAP_STAT_ERR e).setF Fld.GNS_SNAP_STAT_DONE 1).raise Ev.GNS_SNAP_DONE

section CaptureFailed

variable {s : State} (w : s.regsWf) (e : Nat)
include w

theorem captureFailed_only {l : List Nat} {u : State} (h : OnlyRegs l u s) (hl : canon Adr.GNS_SNAP_STAT ∈ l) :
    OnlyRaised 33 l u (captureFailed e s) :=
  OnlyRegs.raise (e := Ev.GNS_SNAP_DONE) (setF_wf (setF_wf w _ _) _ _)
    ((h.setF (r := Fld.GNS_SNAP_STAT_ERR) w _ hl).setF (r := Fld.GNS_SNAP_STAT_DONE) (setF_wf w _ _) _ hl) rfl

theorem captureFailed_raised : (captureFailed e s).raised Ev.GNS_SNAP_DONE :=
  raise_sets (setF_wf (setF_wf w _ _) _ _) (by decide) (by decide)

theorem done_captureFailed : (captureFailed e s).f Fld.GNS_SNAP_STAT_DONE = 1 :=
  (f_raise (setF_wf (setF_wf w _ _) _ _) rfl (by decide)).trans (f_setF_same (setF_wf w _ _) _ 1 (by decide) (by decide))

theorem err_captureFailed (he : e < 8) : (captureFailed e s).f Fld.GNS_SNAP_STAT_ERR = e := by
  have w1 := setF_wf w Fld.GNS_SNAP_STAT_ERR e
  calc (captureFailed e s).f Fld.GNS_SNAP_STAT_ERR
      = ((s.setF Fld.GNS_SNAP_STAT_ERR e).setF Fld.GNS_SNAP_STAT_DONE 1).f Fld.GNS_SNAP_STAT_ERR :=
        f_raise (setF_wf w1 _ _) rfl (by decide)
    _ = (s.setF Fld.GNS_SNAP_STAT_ERR e).f Fld.GNS_SNAP_STAT_ERR :=
        f_setF_other w1 1 rfl (by decide) (by decide) (by decide) (by decide)
    _ = e := (f_setF_same w _ e (by decide) (by decide)).trans (Nat.mod_eq_of_lt he)

theorem busy_captureFailed : (captureFailed e s).f Fld.GNS_SNAP_STAT_BUSY = s.f Fld.GNS_SNAP_STAT_BUSY := by
  have w1 := setF_wf w Fld.GNS_SNAP_STAT_ERR e
  calc (captureFailed e s).f Fld.GNS_SNAP_STAT_BUSY
      = ((s.setF Fld.GNS_SNAP_STAT_ERR e).setF Fld.GNS_SNAP_STAT_DONE 1).f Fld.GNS_SNAP_STAT_BUSY :=
        f_raise (setF_wf w1 _ _) rfl (by decide)
    _ = (s.setF Fld.GNS_SNAP_STAT_ERR e).f Fld.GNS_SNAP_STAT_BUSY :=
        f_setF_other w1 1 rfl (by decide) (by decide) (by decide) (by decide)
    _ = s.f Fld.GNS_SNAP_STAT_BUSY := f_setF_other w e rfl (by decide) (by decide) (by decide) (by decide)

end CaptureFailed

/-- No capture is waiting or running any more; what one that ran has written of its bank is undefined. -/
def captureDropped (s : State) (x : SnapSt) : State :=
  let t := if x.start.isSome then s.scramble (bankAddr x.bank 0) 0x4_0000 else s
  { t with gns := { t.gns with snap := none } }

theorem regs_scramble (s : State) (a n : Nat) : (s.scramble a n).regs = s.regs := by
  unfold State.scramble
  obtain ⟨d, hd⟩ := touch_dirty (({ s with draws := s.draws + n } : State).fillMem ⟨a, a + n, some s.draws⟩) a n
  rw [hd]
  rfl

theorem regs_captureDropped (s : State) (x : SnapSt) : (captureDropped s x).regs = s.regs := by
  unfold captureDropped
  dsimp only
  split
  · exact regs_scramble s _ _
  · rfl

/-- The capture `x` of `s` has been dropped and is not busy any more. -/
def captureIdle (s : State) (x : SnapSt) : State := (captureDropped s x).setF Fld.GNS_SNAP_STAT_BUSY 0

theorem captureDropped_wf {s : State} (w : s.regsWf) (x : SnapSt) : (captureDropped s x).regsWf := regsWf_congr (regs_captureDropped s x) w

theorem captureIdle_wf {s : State} (w : s.regsWf) (x : SnapSt) : (captureIdle s x).regsWf := setF_wf (captureDropped_wf w x) _ _

theorem snap_captureIdle (s : State) (x : SnapSt) : (captureIdle s x).gns.snap = none := by
  rw [captureIdle, setF_gns]
  rfl

theorem gns_captureFailed (e : Nat) (s : State) : (captureFailed e s).gns = s.gns := by
  rw [captureFailed, gns_raise, setF_gns, setF_gns]

theorem snapEnd_some {s : State} {x : SnapSt} (h : s.gns.snap = some x) (e : Nat) : s.snapEnd e = captureFailed e (captureIdle s x) := by
  unfold State.snapEnd
  rw [h]
  rfl

theorem snapEnd_none {s : State} (h : s.gns.snap = none) (e : Nat) : s.snapEnd e = s := by
  unfold State.snapEnd
  rw [h]

/-- However a capture ends early, none is left. -/
theorem snap_snapEnd (s : State) (e : Nat) : (s.snapEnd e).gns.snap = none := by
  cases h : s.gns.snap with
  | none => rw [snapEnd_none h, h]
  | some x => rw [snapEnd_some h, gns_captureFailed, snap_captureIdle]

theorem snapEnd_kept {s : State} (w : s.regsWf) (e : Nat) : RegsKept (evWords 33 ++ [Adr.GNS_SNAP_STAT]) s (s.snapEnd e) := by
  cases h : s.gns.snap with
  | none =>
    rw [snapEnd_none h]
    exact fun _ _ => rfl
  | some x =>
    rw [snapEnd_some h]
    have hidle : RegsKept [Adr.GNS_SNAP_STAT] s (captureIdle s x) := fun a ha =>
      (((OnlyRegs.refl _ (captureDropped s x)).setF (r := Fld.GNS_SNAP_STAT_BUSY) (captureDropped_wf w x) 0 (by decide)).1 a ha).trans
        (reg_congr (regs_captureDropped s x) a)
    exact (hidle.mono fun _ ha => List.mem_append_right _ ha).trans (captureFailed_only (captureIdle_wf w x) e (OnlyRegs.refl _ _) (by decide)).1

theorem snapEndOn_kept {s : State} (w : s.regsWf) (i e : Nat) :
    RegsKept (evWords 33 ++ [Adr.GNS_SNAP_STAT]) s (s.snapEndOn i e) := by
  unfold State.snapEndOn
  split
  · split
    · exact snapEnd_kept w e
    · exact fun _ _ => rfl
  · exact fun _ _ => rfl

theorem snapEndOn_of_input {s : State} {x : SnapSt} (h : s.gns.snap = some x) {i : Nat} (hx : x.input = i) (e : Nat) :
    s.snapEndOn i e = captureFailed e (captureIdle s x) := by
  unfold State.snapEndOn
  rw [h]
  dsimp only
  rw [if_pos hx, snapEnd_some h]

/-- A capture from the input that goes down ends with the error. -/
theorem snapEndOn_ends {s : State} (w : s.regsWf) {x : SnapSt} (h : s.gns.snap = some x) {i : Nat} (hx : x.input = i) {e : Nat}
    (he : e < 8) :
    (s.snapEndOn i e).gns.snap = none ∧ (s.snapEndOn i e).f Fld.GNS_SNAP_STAT_ERR = e ∧
      (s.snapEndOn i e).f Fld.GNS_SNAP_STAT_BUSY = 0 ∧ (s.snapEndOn i e).f Fld.GNS_SNAP_STAT_DONE = 1 := by
  have wi := captureIdle_wf w x
  rw [snapEndOn_of_input h hx]
  refine ⟨?_, err_captureFailed wi e he, ?_, done_captureFailed wi e⟩
  · rw [gns_captureFailed, snap_captureIdle]
  · rw [busy_captureFailed wi e]
    exact f_setF_same (captureDropped_wf w x) Fld.GNS_SNAP_STAT_BUSY 0 (by decide) (by decide)

/-! ### An input that goes down (R113) -/

/-- What channel `c` loses with input `i`: the L1 part with input 0, the L5 part with input 1. -/
def inputLost (i c : Nat) (t : State) : State :=
  if i = 0 then if t.gst c = 0 then t else (t.gnsUnqueue c).setGst c 4
  else if t.gst5 c = 0 then t else t.setF (Fld.GNS_CH_STAT_STATE5 c) 4

/-- The clock of input `i` is gone, and told. -/
def clockGone (s : State) (i : Nat) : State := (s.setF (Fld.GNS_AGC_CLK_OK i) 0).raise Ev.GNS_IF_DOWN

theorem doIfDown_eq (s : State) (i : Nat) : doIfDown s i = (forUp 56 (inputLost i) (clockGone s i)).snapEndOn i 4 := by
  unfold doIfDown inputLost clockGone
  by_cases hi : i = 0 <;> simp only [hi, if_true, if_false]

theorem setGst_wf {s : State} (w : s.regsWf) (c st : Nat) : (s.setGst c st).regsWf := by
  unfold State.setGst
  dsimp only
  split
  · exact setF_wf w _ _
  · exact setF_wf (setF_wf (setF_wf (setF_wf w _ _) _ _) _ _) _ _

theorem setGst_kept {s : State} (w : s.regsWf) {c : Nat} (hc : c < 56) (st : Nat) : RegsKept [Adr.GNS_CH_STAT c] s (s.setGst c st) := by
  have hmem : canon (Adr.GNS_CH_STAT c) ∈ [Adr.GNS_CH_STAT c] := by
    rw [canon_chStat hc]
    exact List.mem_cons_self
  have hstate := (OnlyRegs.refl _ s).setF (r := Fld.GNS_CH_STAT_STATE c) w st hmem
  have w1 := setF_wf w (Fld.GNS_CH_STAT_STATE c) st
  have w2 := setF_wf w1 (Fld.GNS_CH_STAT_STATE5 c) 0
  unfold State.setGst
  dsimp only
  split
  · exact hstate.1
  · exact (((hstate.setF w1 0 hmem).setF w2 0 hmem).setF (setF_wf w2 (Fld.GNS_CH_STAT_LOCK c) 0) 0 hmem).1

/-- The state of a channel after it has been set. -/
theorem gst_setGst {s : State} (w : s.regsWf) (c : Nat) {st : Nat} (hst : st < 8) : (s.setGst c st).gst c = st := by
  have w1 := setF_wf w (Fld.GNS_CH_STAT_STATE c) st
  have w2 := setF_wf w1 (Fld.GNS_CH_STAT_STATE5 c) 0
  have hstate : (s.setF (Fld.GNS_CH_STAT_STATE c) st).f (Fld.GNS_CH_STAT_STATE c) = st :=
    (f_setF_same w (Fld.GNS_CH_STAT_STATE c) st (show 29 ≤ 31 by decide) (show 31 < 32 by decide)).trans (Nat.mod_eq_of_lt hst)
  unfold State.gst State.setGst
  dsimp only
  split
  · exact hstate
  · rw [f_setF_beside (setF_wf w2 _ _) 0 (by decide) (by decide), f_setF_beside w2 0 (by decide) (by decide),
      f_setF_beside w1 0 (by decide) (by decide), hstate]

section InputLost

variable {t : State} (w : t.regsWf) (i c : Nat)
include w

theorem gnsUnqueue_wf : (t.gnsUnqueue c).regsWf := mk_wf w

theorem inputLost_wf : (inputLost i c t).regsWf := by
  unfold inputLost
  split
  · split
    · exact w
    · exact setGst_wf (gnsUnqueue_wf w c) c 4
  · split
    · exact w
    · exact setF_wf w _ _

omit w in
theorem snap_inputLost : (inputLost i c t).gns.snap = t.gns.snap := by
  unfold inputLost
  split
  · split
    · rfl
    · rw [gns_setGst]
      rfl
  · split
    · rfl
    · rw [setF_gns]

theorem inputLost_kept (hc : c < 56) : RegsKept [Adr.GNS_CH_STAT c] t (inputLost i c t) := by
  unfold inputLost
  split
  · split
    · exact fun _ _ => rfl
    · exact fun a ha => (setGst_kept (gnsUnqueue_wf w c) hc 4 a ha).trans (reg_mk a)
  · split
    · exact fun _ _ => rfl
    · refine ((OnlyRegs.refl _ t).setF (r := Fld.GNS_CH_STAT_STATE5 c) w 4 ?_).1
      rw [canon_chStat hc]
      exact List.mem_cons_self

theorem gst_inputLost (h : t.gst c ≠ 0) : (inputLost 0 c t).gst c = 4 := by
  unfold inputLost
  rw [if_pos rfl, if_neg h]
  exact gst_setGst (gnsUnqueue_wf w c) c (by decide)

theorem gst5_inputLost (h : t.gst5 c ≠ 0) : (inputLost 1 c t).gst5 c = 4 := by
  unfold inputLost
  rw [if_neg (by decide), if_neg h]
  exact f_setF_same w (Fld.GNS_CH_STAT_STATE5 c) 4 (show 26 ≤ 28 by decide) (show 28 < 32 by decide)

end InputLost

section InputLosses

variable {s : State} (w : s.regsWf) (i : Nat)

theorem snap_forUp_inputLost (n : Nat) : (forUp n (inputLost i) s).gns.snap = s.gns.snap := by
  induction n with
  | zero => rfl
  | succ n ih => rw [forUp, snap_inputLost, ih]

include w

theorem forUp_inputLost_wf (n : Nat) : (forUp n (inputLost i) s).regsWf := by
  induction n with
  | zero => exact w
  | succ n ih => exact inputLost_wf ih i n

theorem forUp_inputLost_kept {n : Nat} (hn : n ≤ 56) : RegsKept (statWords n) s (forUp n (inputLost i) s) := by
  induction n with
  | zero => exact fun _ _ => rfl
  | succ n ih =>
    refine ((ih (by omega)).mono fun a ha => ?_).trans ((inputLost_kept (forUp_inputLost_wf w i n) i n (by omega)).mono fun a ha => ?_)
    · unfold statWords at ha ⊢
      rw [List.range_succ, List.map_append]
      exact List.mem_append_left _ ha
    · rw [List.mem_singleton.1 ha]
      exact chStat_mem_statWords (Nat.lt_succ_self n)

/-- The status of channel `c` is written once, when its turn comes. -/
theorem chStat_forUp_inputLost {c n : Nat} (hc : c < n) (hn : n ≤ 56) :
    (forUp n (inputLost i) s).reg (Adr.GNS_CH_STAT c) = (inputLost i c (forUp c (inputLost i) s)).reg (Adr.GNS_CH_STAT c) := by
  induction n with
  | zero => omega
  | succ n ih =>
    rcases Nat.lt_succ_iff_lt_or_eq.1 hc with hlt | rfl
    · refine (inputLost_kept (forUp_inputLost_wf w i n) i n (by omega) _ ?_).trans (ih hlt (by omega))
      rw [canon_chStat (by omega), List.mem_singleton]
      unfold Adr.GNS_CH_STAT
      omega
    · rfl

/-- Before its turn the status of channel `c` is as it was. -/
theorem f_chStat_forUp_inputLost {c : Nat} (hc : c < 56) (hi lo : Nat) :
    (forUp c (inputLost i) s).f ⟨Adr.GNS_CH_STAT c, hi, lo⟩ = s.f ⟨Adr.GNS_CH_STAT c, hi, lo⟩ := by
  refine (forUp_inputLost_kept w i (by omega)).field _ ?_
  rw [canon_chStat hc]
  exact chStat_not_mem_statWords (Nat.le_refl c)

theorem gst_forUp_inputLost {c : Nat} (hc : c < 56) (h : s.gst c ≠ 0) : (forUp 56 (inputLost 0) s).gst c = 4 := by
  have hbefore : (forUp c (inputLost 0) s).gst c ≠ 0 := by
    unfold State.gst at h ⊢
    rwa [f_chStat_forUp_inputLost w 0 hc]
  rw [← gst_inputLost (forUp_inputLost_wf w 0 c) c hbefore]
  exact congrArg (fun x : Word => bitsOf x.toNat 31 29) (chStat_forUp_inputLost w 0 hc (Nat.le_refl 56))

theorem gst5_forUp_inputLost {c : Nat} (hc : c < 56) (h : s.gst5 c ≠ 0) : (forUp 56 (inputLost 1) s).gst5 c = 4 := by
  have hbefore : (forUp c (inputLost 1) s).gst5 c ≠ 0 := by
    unfold State.gst5 at h ⊢
    rwa [f_chStat_forUp_inputLost w 1 hc]
  rw [← gst5_inputLost (forUp_inputLost_wf w 1 c) c hbefore]
  exact congrArg (fun x : Word => bitsOf x.toNat 28 26) (chStat_forUp_inputLost w 1 hc (Nat.le_refl 56))

end InputLosses

/-- The end of a capture writes no word of the channels and of the inputs. -/
theorem not_mem_captureWords {a : Nat} (h : 33800 ≤ a ∧ a < 35840 ∧ a ≠ Adr.GNS_SNAP_STAT) : a ∉ evWords 33 ++ [Adr.GNS_SNAP_STAT] := by
  obtain ⟨hlo, hhi, hne⟩ := h
  simp only [evWords, hdr, List.mem_append, List.mem_cons, List.not_mem_nil, or_false, hne]
  unfold Adr.LGR_CNT_A Adr.LGR_CNT_B Adr.LGR_FLAGS
  omega

theorem canon_chStat_not_mem_captureWords {c : Nat} (hc : c < 56) : canon (Adr.GNS_CH_STAT c) ∉ evWords 33 ++ [Adr.GNS_SNAP_STAT] := by
  rw [canon_chStat hc]
  refine not_mem_captureWords ?_
  unfold Adr.GNS_CH_STAT Adr.GNS_SNAP_STAT
  omega

theorem canon_agc_not_mem_captureWords {i : Nat} (hi : i < 2) : canon (Adr.GNS_AGC i) ∉ evWords 33 ++ [Adr.GNS_SNAP_STAT] := by
  rw [canon_agc hi]
  refine not_mem_captureWords ?_
  unfold Adr.GNS_AGC Adr.GNS_SNAP_STAT
  omega

section IfDown

variable {s : State} (w : s.regsWf) {i : Nat}
include w

theorem clockGone_wf : (clockGone s i).regsWf := raise_wf (setF_wf w _ _) _

theorem f_clockGone {q : RF} (hq : canon q.a ∉ evWords 33 ++ [Adr.GNS_SNAP_STAT]) :
    (clockGone s i).f q = (s.setF (Fld.GNS_AGC_CLK_OK i) 0).f q :=
  f_raise (e := Ev.GNS_IF_DOWN) (setF_wf w _ _) rfl fun h => hq (List.mem_append_left _ h)

theorem clkOk_clockGone (hi : i < 2) : (clockGone s i).f (Fld.GNS_AGC_CLK_OK i) = 0 := by
  rw [f_clockGone w (canon_agc_not_mem_captureWords hi)]
  exact f_setF_same w (Fld.GNS_AGC_CLK_OK i) 0 (show 30 ≤ 30 by decide) (show 30 < 32 by decide)

theorem f_chStat_clockGone (hi : i < 2) {c : Nat} (hc : c < 56) (h l : Nat) :
    (clockGone s i).f ⟨Adr.GNS_CH_STAT c, h, l⟩ = s.f ⟨Adr.GNS_CH_STAT c, h, l⟩ := by
  refine (f_clockGone w (canon_chStat_not_mem_captureWords hc)).trans (f_setF_ne (r := Fld.GNS_AGC_CLK_OK i) w 0 ?_)
  rw [canon_chStat hc, canon_agc hi]
  unfold Adr.GNS_CH_STAT Adr.GNS_AGC
  omega

theorem clkOk_doIfDown (hi : i < 2) : (doIfDown s i).f (Fld.GNS_AGC_CLK_OK i) = 0 := by
  have w1 := clockGone_wf (i := i) w
  rw [doIfDown_eq, (snapEndOn_kept (forUp_inputLost_wf w1 i 56) i 4).field _ (canon_agc_not_mem_captureWords hi),
    (forUp_inputLost_kept w1 i (Nat.le_refl 56)).field _, clkOk_clockGone w hi]
  intro h
  rw [canon_agc hi] at h
  have := statWords_range h
  unfold Adr.GNS_AGC at this
  omega

theorem gst_doIfDown {c : Nat} (hc : c < 56) (h : s.gst c ≠ 0) : (doIfDown s 0).gst c = 4 := by
  have w1 := clockGone_wf (i := 0) w
  have hgone : (clockGone s 0).gst c ≠ 0 := by
    unfold State.gst at h ⊢
    rwa [f_chStat_clockGone w (by decide) hc]
  rw [doIfDown_eq]
  exact ((snapEndOn_kept (forUp_inputLost_wf w1 0 56) 0 4).field (Fld.GNS_CH_STAT_STATE c) (canon_chStat_not_mem_captureWords hc)).trans
    (gst_forUp_inputLost w1 hc hgone)

theorem gst5_doIfDown {c : Nat} (hc : c < 56) (h : s.gst5 c ≠ 0) : (doIfDown s 1).gst5 c = 4 := by
  have w1 := clockGone_wf (i := 1) w
  have hgone : (clockGone s 1).gst5 c ≠ 0 := by
    unfold State.gst5 at h ⊢
    rwa [f_chStat_clockGone w (by decide) hc]
  rw [doIfDown_eq]
  exact ((snapEndOn_kept (forUp_inputLost_wf w1 1 56) 1 4).field (Fld.GNS_CH_STAT_STATE5 c) (canon_chStat_not_mem_captureWords hc)).trans
    (gst5_forUp_inputLost w1 hc hgone)

theorem snap_doIfDown {x : SnapSt} (h : s.gns.snap = some x) (hx : x.input = i) :
    (doIfDown s i).gns.snap = none ∧ (doIfDown s i).f Fld.GNS_SNAP_STAT_ERR = 4 ∧ (doIfDown s i).f Fld.GNS_SNAP_STAT_BUSY = 0 ∧
      (doIfDown s i).f Fld.GNS_SNAP_STAT_DONE = 1 := by
  have hsnap : (forUp 56 (inputLost i) (clockGone s i)).gns.snap = some x := by
    rw [snap_forUp_inputLost, clockGone, gns_raise, setF_gns, h]
  rw [doIfDown_eq]
  exact snapEndOn_ends (forUp_inputLost_wf (clockGone_wf w) i 56) hsnap hx (by decide)

end IfDown

/-! ### The references of the jamming indicator (R115) -/

/-- The references of input `i` become the values that `s` has. -/
def jamReferred (s : State) (i : Nat) (t : State) : State :=
  (t.setF (Fld.GNS_AGC_GAIN_REF i) (s.f (Fld.GNS_AGC_GAIN i))).setF (Fld.GNS_JAM_NF_REF i) (s.gns.nf.getD i 0)

theorem doJamCal_eq (s : State) : doJamCal s = (jamReferred s 1 (jamReferred s 0 s)).ok := rfl

section JamCal

variable {s t : State} (w : t.regsWf) {i : Nat}
include w

theorem jamReferred_wf : (jamReferred s i t).regsWf := setF_wf (setF_wf w _ _) _ _

theorem gainRef_jamReferred (hi : i < 2) : (jamReferred s i t).f (Fld.GNS_AGC_GAIN_REF i) = s.f (Fld.GNS_AGC_GAIN i) := by
  have hgain : s.f (Fld.GNS_AGC_GAIN i) < 256 := bitsOf_lt _ 7 0
  have hne : canon (Adr.GNS_AGC i) ≠ canon (Adr.GNS_JAM i) := by
    rw [canon_agc hi, canon_jam hi]
    unfold Adr.GNS_AGC Adr.GNS_JAM
    omega
  calc (jamReferred s i t).f (Fld.GNS_AGC_GAIN_REF i)
      = (t.setF (Fld.GNS_AGC_GAIN_REF i) (s.f (Fld.GNS_AGC_GAIN i))).f (Fld.GNS_AGC_GAIN_REF i) :=
        f_setF_ne (r := Fld.GNS_JAM_NF_REF i) (setF_wf w _ _) _ hne
    _ = s.f (Fld.GNS_AGC_GAIN i) % 256 := f_setF_same w (Fld.GNS_AGC_GAIN_REF i) _ (show 8 ≤ 15 by decide) (show 15 < 32 by decide)
    _ = s.f (Fld.GNS_AGC_GAIN i) := Nat.mod_eq_of_lt hgain

theorem nfRef_jamReferred : (jamReferred s i t).f (Fld.GNS_JAM_NF_REF i) = s.gns.nf.getD i 0 % 256 :=
  f_setF_same (setF_wf w _ _) (Fld.GNS_JAM_NF_REF i) _ (show 16 ≤ 23 by decide) (show 23 < 32 by decide)

theorem jamReferred_only {l : List Nat} {u : State} (h : OnlyRegs l u t) (ha : canon (Adr.GNS_AGC i) ∈ l)
    (hj : canon (Adr.GNS_JAM i) ∈ l) : OnlyRegs l u (jamReferred s i t) :=
  (h.setF (r := Fld.GNS_AGC_GAIN_REF i) w _ ha).setF (r := Fld.GNS_JAM_NF_REF i) (setF_wf w _ _) _ hj

end JamCal

/-! ### A capture that is asked for (R127, R128) -/

/-- The capture that a write of `GNS_SNAP_CTRL` asks for. -/
def snapAsked (s : State) (v : Word) : SnapSt :=
  let n := v.toNat
  let i := bitsOf n 30 30
  ⟨i, bitsOf n 29 24, min 39 (bitsOf n 21 16), max 1 (bitsOf n 13 8), bitsOf n 4 0 + 1, s.f (Fld.GNS_IF_CFG_RATE i),
    (s.reg (Adr.GNS_IF_FREQ i)).toNat, none⟩

/-- The error with which it is refused, 0 where it is taken. -/
def snapRefusal (s : State) (v : Word) : Nat :=
  let i := bitsOf v.toNat 30 30
  if 262080 < (snapCount (snapAsked s v) + 1) / 2 then 1 else if s.f (Fld.GNS_IF_CFG_EN i) = 0 then 3
    else if s.f (Fld.GNS_AGC_CLK_OK i) = 0 then 4 else 0

theorem snapRefusal_lt (s : State) (v : Word) : snapRefusal s v < 8 := by
  unfold snapRefusal
  dsimp only
  split
  · decide
  · split
    · decide
    · split <;> decide

/-- The written word of `GNS_SNAP_CTRL`. -/
def snapCtrl (s : State) (v : Word) : State := s.setReg Adr.GNS_SNAP_CTRL (v &&& 0x7F3F3F1F)

theorem snapCtrl_wf {s : State} (w : s.regsWf) (v : Word) : (snapCtrl s v).regsWf := setReg_wf w _ _

theorem snapCtrl_only {s : State} (w : s.regsWf) (v : Word) {l : List Nat} (hl : canon Adr.GNS_SNAP_CTRL ∈ l) :
    OnlyRegs l s (snapCtrl s v) := (OnlyRegs.refl _ s).setReg w _ hl

/-- The capture `x` waits for its beat. -/
def snapWaiting (x : SnapSt) (s : State) : State :=
  (({ s with gns := { s.gns with snap := some x } } : State).setF Fld.GNS_SNAP_STAT_BUSY 1).setF Fld.GNS_SNAP_STAT_ERR 0

theorem doSnapGo_eq (s : State) (v : Word) :
    doSnapGo s v =
      (if s.fb Fld.GNS_SNAP_STAT_BUSY then snapCtrl s v
        else if snapRefusal s v ≠ 0 then captureFailed (snapRefusal s v) (snapCtrl s v)
        else snapWaiting (snapAsked s v) (snapCtrl s v)).ok := rfl

theorem busy_snapWaiting {s : State} (w : s.regsWf) (x : SnapSt) : (snapWaiting x s).f Fld.GNS_SNAP_STAT_BUSY = 1 := by
  have ws : ({ s with gns := { s.gns with snap := some x } } : State).regsWf := mk_wf w
  exact (f_setF_beside (setF_wf ws _ _) 0 (by decide) (by decide)).trans (f_setF_same ws _ 1 (by decide) (by decide))

theorem err_snapWaiting {s : State} (w : s.regsWf) (x : SnapSt) : (snapWaiting x s).f Fld.GNS_SNAP_STAT_ERR = 0 :=
  f_setF_same (setF_wf (mk_wf w) _ _) Fld.GNS_SNAP_STAT_ERR 0 (by decide) (by decide)

/-- The baseband's own state beside register writes. -/
theorem onlyRegs_withGns {l : List Nat} {s t : State} (h : OnlyRegs l s t) (g : GnsSt) :
    OnlyRegs l { s with gns := g } { t with gns := g } :=
  ⟨fun a ha => (reg_mk a).trans ((h.1 a ha).trans (reg_mk a).symm), by
    have e := h.2
    generalize t.regs = r, t.answer = n at e
    rw [e]⟩

theorem snapWaiting_only {l : List Nat} {u s : State} (w : s.regsWf) (h : OnlyRegs l u s) (x : SnapSt) (hl : canon Adr.GNS_SNAP_STAT ∈ l) :
    OnlyRegs l { u with gns := { s.gns with snap := some x } } (snapWaiting x s) :=
  ((onlyRegs_withGns h _).setF (r := Fld.GNS_SNAP_STAT_BUSY) (mk_wf w) 1 hl).setF (r := Fld.GNS_SNAP_STAT_ERR) (setF_wf (mk_wf w) _ _) 0 hl

theorem gns_snapWaiting (x : SnapSt) (s : State) : (snapWaiting x s).gns = { s.gns with snap := some x } := by
  rw [snapWaiting, setF_gns, setF_gns]

/-! ### A capture that completes (R128) -/

/-- A running capture is over, whether its bank takes the samples or not. -/
theorem snap_doSnapDone {s : State} {x : SnapSt} (h : s.gns.snap = some x) (hx : x.start ≠ none) (t0 : Nat) (d : List Byte) :
    (doSnapDone s t0 d).gns.snap = none := by
  unfold doSnapDone
  rw [h]
  dsimp only
  rw [if_neg hx]
  split
  · exact snap_snapEnd _ 2
  · rw [gns_raise, setF_gns, setF_gns]

end Sys2Proof.Laws

namespace Sys2Proof.Proofs

open Sys2Proof.Machine Sys2Proof.Laws

/-! ### The start of a channel -/

/-- A configuration with PRN 1 and a Doppler of 1 Hz. -/
abbrev startWord : Word := 0x0080_0001

/-- Refutes O35: a start takes the configured Doppler as the channel's, so more of the baseband than the queue changes. From reset, the
start of channel 0 with PRN 1 and a Doppler of 1 Hz leaves 1000 mHz in the channel, where the statement has it as it was. -/
theorem not_gnssChannelsStartAndTrack : ¬ Obligations.GnssChannelsStartAndTrack := by
  unfold Obligations.GnssChannelsStartAndTrack
  rintro ⟨hcfg, -⟩
  have w : State.reset.regsWf := ⟨rfl⟩
  have hoff : State.reset.gst 0 = 0 := by decide
  obtain ⟨-, hstart, -⟩ := hcfg State.reset 0 startWord rfl w rfl (by decide)
  obtain ⟨t, ht, -, -, hgns, -⟩ := hstart hoff (by decide)
  have hrun : exec (.channelStart 0 startWord) State.reset = .next (doGnsCfg State.reset 0 0x8080_0001) := rfl
  rw [hrun, Host.Outcome.next.injEq] at ht
  have hch := ch_doGnsCfg_start (s := State.reset) (c := 0) (v := 0x8080_0001) w (by decide) (by decide) (by decide) hoff (by decide)
  rw [ht, hgns] at hch
  exact absurd hch (by decide)

/-! ### IF inputs, references and captures -/

theorem runs_ifDown {s : State} {i : Nat} (hp : s.pwr.on = true) (w : s.regsWf) (hg : s.dev.gnss = true) (hi : i < 2)
    (hclk : s.fb (Fld.GNS_AGC_CLK_OK i) = true) :
    Runs (.ifDown i) s fun t =>
      t.f (Fld.GNS_AGC_CLK_OK i) = 0 ∧ (∀ c, c < 56 → i = 0 → s.gst c ≠ 0 → t.gst c = 4) ∧
      (∀ c, c < 56 → i = 1 → s.gst5 c ≠ 0 → t.gst5 c = 4) ∧
      (∀ x, s.gns.snap = some x → x.input = i → t.gns.snap = none ∧ t.f Fld.GNS_SNAP_STAT_ERR = 4 ∧ t.f Fld.GNS_SNAP_STAT_BUSY = 0 ∧
        t.f Fld.GNS_SNAP_STAT_DONE = 1) := by
  refine Runs.liveIf rfl hp (by rw [decide_eq_true hi, hg, hclk]; rfl)
    ⟨clkOk_doIfDown w hi, fun c hc h0 h => ?_, fun c hc h1 h => ?_, fun x h hx => snap_doIfDown w h hx⟩
  · subst h0
    exact gst_doIfDown w hc h
  · subst h1
    exact gst5_doIfDown w hc h

theorem runs_jamCal {s : State} (hp : s.pwr.on = true) (w : s.regsWf) (hg : s.dev.gnss = true) :
    Runs .jamCal s fun t => (∀ i, i < 2 → t.f (Fld.GNS_AGC_GAIN_REF i) = s.f (Fld.GNS_AGC_GAIN i) ∧
      t.f (Fld.GNS_JAM_NF_REF i) = s.gns.nf.getD i 0 % 256) ∧
      OnlyRegs [Adr.GNS_AGC 0, Adr.GNS_AGC 1, Adr.GNS_JAM 0, Adr.GNS_JAM 1] s t := by
  have w0 := jamReferred_wf (s := s) (i := 0) w
  refine Runs.liveIf rfl hp hg ?_
  rw [doJamCal_eq]
  refine ⟨fun i hi => ?_, (jamReferred_only w0 (jamReferred_only w (OnlyRegs.refl _ s) (by decide) (by decide)) (by decide) (by decide)).ok⟩
  rw [f_ok, f_ok]
  match i, hi with
  | 0, _ =>
    have hkept := (jamReferred_only (s := s) (i := 1) w0 (OnlyRegs.refl [Adr.GNS_AGC 1, Adr.GNS_JAM 1] _) (by decide) (by decide)).1
    rw [hkept.field (Fld.GNS_AGC_GAIN_REF 0) (by decide), hkept.field (Fld.GNS_JAM_NF_REF 0) (by decide)]
    exact ⟨gainRef_jamReferred w (by decide), nfRef_jamReferred w⟩
  | 1, _ => exact ⟨gainRef_jamReferred w0 (by decide), nfRef_jamReferred w0⟩

theorem runs_snapGo_busy {s : State} {v : Word} (hp : s.pwr.on = true) (w : s.regsWf) (hg : s.dev.gnss = true)
    (hbusy : s.fb Fld.GNS_SNAP_STAT_BUSY = true) : Runs (.snapGo v) s fun t => OnlyRegs [Adr.GNS_SNAP_CTRL] s t := by
  refine Runs.liveIf rfl hp hg ?_
  rw [doSnapGo_eq, if_pos hbusy]
  exact (snapCtrl_only w v (by decide)).ok

theorem runs_snapGo_refused {s : State} {v : Word} (hp : s.pwr.on = true) (w : s.regsWf) (hg : s.dev.gnss = true)
    (hbusy : s.fb Fld.GNS_SNAP_STAT_BUSY = false) (he : snapRefusal s v ≠ 0) :
    Runs (.snapGo v) s fun t => t.f Fld.GNS_SNAP_STAT_ERR = snapRefusal s v ∧ t.f Fld.GNS_SNAP_STAT_DONE = 1 ∧
      t.raised Ev.GNS_SNAP_DONE ∧ OnlyRaised 33 [Adr.GNS_SNAP_CTRL, Adr.GNS_SNAP_STAT] s t := by
  have w1 := snapCtrl_wf w v
  refine Runs.liveIf rfl hp hg ?_
  rw [doSnapGo_eq, if_neg (by rw [hbusy]; decide), if_pos he]
  refine ⟨(f_ok _ _).trans (err_captureFailed w1 _ (snapRefusal_lt s v)), (f_ok _ _).trans (done_captureFailed w1 _),
    raised_ok (captureFailed_raised w1 _), OnlyRaised.ok ?_⟩
  exact captureFailed_only w1 _ (snapCtrl_only w v (by decide)) (by decide)

theorem runs_snapGo_taken {s : State} {v : Word} (hp : s.pwr.on = true) (w : s.regsWf) (hg : s.dev.gnss = true)
    (hbusy : s.fb Fld.GNS_SNAP_STAT_BUSY = false) (he : snapRefusal s v = 0) :
    Runs (.snapGo v) s fun t => t.gns = { s.gns with snap := some (snapAsked s v) } ∧ t.f Fld.GNS_SNAP_STAT_BUSY = 1 ∧
      t.f Fld.GNS_SNAP_STAT_ERR = 0 ∧ RegsKept [Adr.GNS_SNAP_CTRL, Adr.GNS_SNAP_STAT] s t ∧
      t = { s with regs := t.regs, gns := t.gns, answer := t.answer } := by
  have w1 := snapCtrl_wf w v
  refine Runs.liveIf rfl hp hg ?_
  rw [doSnapGo_eq, if_neg (by rw [hbusy]; decide), if_neg (not_not_intro he)]
  obtain ⟨hkept, hparts⟩ := (snapWaiting_only w1 (snapCtrl_only w v (by decide)) (snapAsked s v)
    (l := [Adr.GNS_SNAP_CTRL, Adr.GNS_SNAP_STAT]) (by decide)).ok
  have hgns : (snapWaiting (snapAsked s v) (snapCtrl s v)).ok.gns = { s.gns with snap := some (snapAsked s v) } := by
    rw [ok_gns, gns_snapWaiting, snapCtrl, setReg_gns]
  refine ⟨hgns, (f_ok _ _).trans (busy_snapWaiting w1 _), (f_ok _ _).trans (err_snapWaiting w1 _),
    fun a ha => (hkept a ha).trans (reg_mk a), ?_⟩
  rw [hgns]
  exact hparts

/-- Settles O36: the loop over the channels writes the status of each once, and no word of the inputs; a capture ends by the same writes
whether it is refused, denied or loses its clock. -/
theorem gnssInputsAndCaptures : Obligations.GnssInputsAndCaptures := fun _ hp w hg =>
  ⟨fun _ hi hclk => runs_ifDown hp w hg hi hclk,
   runs_jamCal hp w hg,
   fun _ => ⟨fun hbusy => runs_snapGo_busy hp w hg hbusy, fun hbusy he => runs_snapGo_refused hp w hg hbusy he,
     fun hbusy he => runs_snapGo_taken hp w hg hbusy he⟩,
   fun _ t0 d h hx => Runs.liveIf rfl hp hg ⟨rfl, snap_doSnapDone h hx t0 d⟩⟩

end Sys2Proof.Proofs
end

section
/-! ## The sources of time and the pulses

The selection of the source of time, the observations that make a source available and the pulse signals (R129, R362–R367). The lemmas about
the model's operations stand first, the statement's proof after them. -/

namespace Sys2Proof.Laws

open Sys2Proof.Machine

/-! ### Writes of body words

The header words of a page may be folded with another page's; those above them stand for themselves. -/

theorem event_ne_body {p a : Nat} (h : 6 < a % 1024) : canon (hdr p 4) ≠ canon a := by
  rw [canon_event, canon_body h]
  unfold hdr
  omega

/-- From `s` the machine has come to `t` by writes of the words `l` and by raising events: memory and what was raised stay. -/
structure Writes (l : List Nat) (s t : State) : Prop where
  wf : t.regsWf
  kept : RegsKept l s t
  mem : MemKept s t
  stays : ∀ e : Ev, s.raised e → t.raised e

section Writes

variable {l : List Nat} {s t u : State}

theorem Writes.refl (w : s.regsWf) : Writes l s s := ⟨w, fun _ _ => rfl, fun _ => rfl, fun _ h => h⟩

theorem Writes.trans (h : Writes l s t) (k : Writes l t u) : Writes l s u :=
  ⟨k.wf, h.kept.trans k.kept, fun a => (k.mem a).trans (h.mem a), fun e he => k.stays e (h.stays e he)⟩

theorem Writes.mono {m : List Nat} (h : Writes l s t) (hm : ∀ a ∈ l, a ∈ m) : Writes m s t :=
  ⟨h.wf, h.kept.mono hm, h.mem, h.stays⟩

/-- A change of what is neither register nor memory. -/
theorem Writes.same (h : Writes l s t) (hr : u.regs = t.regs) (hm : u.mem = t.mem) (hmm : u.mm = t.mm) : Writes l s u := by
  refine h.trans ⟨regsWf_congr hr h.wf, fun a _ => reg_congr hr a, fun a => ?_, fun e he => raised_congr hr he⟩
  unfold State.rd8
  rw [hm, hmm]

theorem Writes.setReg (h : Writes l s t) {a : Nat} (v : Word) (hb : 6 < a % 1024) (ha : a ∈ l) : Writes l s (t.setReg a v) := by
  refine h.trans ⟨setReg_wf h.wf a v, fun b hb' => reg_setReg_ne h.wf v fun e => hb' ?_, fun _ => rfl, fun e he => ⟨?_⟩⟩
  · rw [e, canon_body hb]
    exact ha
  · rw [reg_setReg_ne h.wf v (event_ne_body hb)]
    exact he.bit

theorem Writes.setF (h : Writes l s t) {r : RF} (v : Nat) (hb : 6 < r.a % 1024) (hr : r.a ∈ l) : Writes l s (t.setF r v) :=
  h.setReg _ hb hr

theorem Writes.setPair (h : Writes l s t) {a b : Nat} (v : Nat) (hb : 6 < a % 1024 ∧ 6 < b % 1024) (ha : a ∈ l ∧ b ∈ l) :
    Writes l s (t.setPair a b v) := (h.setReg _ hb.1 ha.1).setReg _ hb.2 ha.2

theorem Writes.stick (h : Writes l s t) {c flag : RF} (n : Nat) (hb : 6 < c.a % 1024 ∧ 6 < flag.a % 1024) (hc : c.a ∈ l ∧ flag.a ∈ l) :
    Writes l s (t.stick c flag n) := by
  unfold State.stick
  dsimp only
  split
  · exact h
  · split
    · exact h.setF _ hb.1 hc.1
    · exact (h.setF _ hb.1 hc.1).setF _ hb.2 hc.2

theorem Writes.raise (h : Writes l s t) {e : Ev} (hp : blockPage e.page = e.page) (he : ∀ a ∈ evWords e.page, a ∈ l) :
    Writes l s (t.raise e) := by
  refine h.trans ⟨raise_wf h.wf e, (raise_kept h.wf hp).mono he, fun a => ?_, fun _ hd => raise_stays h.wf hd⟩
  rw [raise_parts]
  rfl

theorem Writes.field (h : Writes l s t) (q : RF) (hq : canon q.a ∉ l) : t.f q = s.f q := h.kept.field q hq

end Writes

/-- A change of the time block's own state. -/
theorem writes_tim {s : State} (w : s.regsWf) (l : List Nat) (x : TimeSt) : Writes l s { s with tim := x } := (Writes.refl w).same rfl rfl rfl

theorem fb_setF_b2n {s : State} (w : s.regsWf) {r : RF} (b : Bool) (hr : r.lo = r.hi) (hh : r.hi < 32) : (s.setF r (b2n b)).fb r = b := by
  rw [fb_setF_same w _ hr hh (by cases b <;> decide)]
  cases b <;> rfl

theorem tim_raise (s : State) (e : Ev) : (s.raise e).tim = s.tim := by
  rw [raise_parts]

/-! ### The selection of the source of time (R365, R366) -/

/-- The words that the selection of a source may change. -/
def selectWords : List Nat := evWords 6 ++ [Adr.TIM_STAT, Adr.TIM_BEAT_STAT, Adr.TIM_SLIP_CNT]

/-- The words that the beat generator's alignment may change. -/
def alignWords : List Nat := evWords 6 ++ [Adr.TIM_BEAT_STAT, Adr.TIM_SLIP_CNT]

theorem bestTime_lt (s : State) : s.bestTime < 4 := by
  unfold State.bestTime
  dsimp only
  split_ifs <;> decide

/-- The selected source is the best one, and a change of it told. -/
def sourceTaken (s : State) : State :=
  if s.bestTime = s.f Fld.TIM_STAT_SRC then s else (s.setF Fld.TIM_STAT_SRC s.bestTime).raise Ev.TIM_SRC_CHANGED

/-- The first source `n` acquires time. -/
def sourceAcquired (n : Nat) (s : State) : State := if n ≠ 0 ∧ s.f Fld.TIM_STAT_ACQUIRED = 0 then s.acquire else s

/-- Time that has been acquired is in holdover while the source `n` is none. -/
def heldOver (n : Nat) (s : State) : Bool := s.fb Fld.TIM_STAT_ACQUIRED && n == 0

/-- `HOLDOVER` follows `ho`; its beginning is told. -/
def holdoverSet (ho : Bool) (s : State) : State :=
  if ho && !s.fb Fld.TIM_STAT_HOLDOVER then (s.setF Fld.TIM_STAT_HOLDOVER 1).raise Ev.TIM_HOLDOVER
  else s.setF Fld.TIM_STAT_HOLDOVER (b2n ho)

/-- The uncertainty from which holdover would grow. -/
def uncBaseSet (n : Nat) (s : State) : State := if n = 0 then s else { s with tim := { s.tim with uncBase := s.sigmaOf n } }

/-- Acquisition and holdover with the best source `n` selected. -/
def sourceUsed (n : Nat) (s : State) : State := uncBaseSet n (holdoverSet (heldOver n (sourceAcquired n s)) (sourceAcquired n s))

theorem selectTime_eq (s : State) : s.selectTime = sourceUsed s.bestTime (sourceTaken s) := rfl

section Select

variable {s : State} (w : s.regsWf)
include w

theorem sourceTaken_writes : Writes selectWords s (sourceTaken s) := by
  unfold sourceTaken
  split
  · exact Writes.refl w
  · exact ((Writes.refl w).setF _ (by decide) (by decide)).raise rfl (by decide)

theorem src_sourceTaken : (sourceTaken s).f Fld.TIM_STAT_SRC = s.bestTime := by
  unfold sourceTaken
  split
  · rename_i h
    exact h.symm
  · rw [f_raise (setF_wf w _ _) rfl (by decide), f_setF_same w _ _ (by decide) (by decide)]
    exact Nat.mod_eq_of_lt (bestTime_lt s)

theorem acquired_sourceTaken : (sourceTaken s).f Fld.TIM_STAT_ACQUIRED = s.f Fld.TIM_STAT_ACQUIRED := by
  unfold sourceTaken
  split
  · rfl
  · rw [f_raise (setF_wf w _ _) rfl (by decide), f_setF_beside w _ (by decide) (by decide)]

theorem sourceTaken_raised (h : s.bestTime ≠ s.f Fld.TIM_STAT_SRC) : (sourceTaken s).raised Ev.TIM_SRC_CHANGED := by
  unfold sourceTaken
  rw [if_neg h]
  exact raise_sets (setF_wf w _ _) (by decide) (by decide)

theorem writes_frm (l : List Nat) (x : FrameSt) : Writes l s { s with frm := x } := (Writes.refl w).same rfl rfl rfl

theorem compareEdges_writes (e : Int) : Writes alignWords s (s.compareEdges e) := by
  unfold State.compareEdges
  dsimp only
  split
  · refine Writes.raise (Writes.stick (Writes.setF (writes_frm w _ _) 1 ?_ ?_) 1 ?_ ?_) rfl ?_ <;> decide
  · exact writes_frm w _ _

/-- What acquiring time does once `ACQUIRED` is set and told: it aligns the edges. -/
theorem acquire_writes : Writes alignWords ((s.setF Fld.TIM_STAT_ACQUIRED 1).raise Ev.TIM_ACQUIRED) s.acquire := by
  have hset : Writes alignWords _ _ := Writes.refl (raise_wf (setF_wf w Fld.TIM_STAT_ACQUIRED 1) Ev.TIM_ACQUIRED)
  have hrun := hset.setF (r := Fld.TIM_BEAT_STAT_FREE_RUN) 0 (by decide) (by decide)
  unfold State.acquire
  dsimp only
  split
  · split
    · exact hrun
    · exact hrun.trans (compareEdges_writes hrun.wf _)
  · exact hset

theorem sourceAcquired_writes (n : Nat) : Writes selectWords s (sourceAcquired n s) := by
  unfold sourceAcquired
  split
  · exact (((Writes.refl w).setF _ (by decide) (by decide)).raise rfl (by decide)).trans ((acquire_writes w).mono (by decide))
  · exact Writes.refl w

theorem src_sourceAcquired (n : Nat) : (sourceAcquired n s).f Fld.TIM_STAT_SRC = s.f Fld.TIM_STAT_SRC := by
  unfold sourceAcquired
  split
  · rw [(acquire_writes w).field _ (by decide), f_raise (setF_wf w _ _) rfl (by decide), f_setF_beside w _ (by decide) (by decide)]
  · rfl

theorem acquired_sourceAcquired {n : Nat} (hn : n ≠ 0) : (sourceAcquired n s).f Fld.TIM_STAT_ACQUIRED = 1 := by
  unfold sourceAcquired
  split
  · rw [(acquire_writes w).field _ (by decide), f_raise (setF_wf w _ _) rfl (by decide)]
    exact f_setF_same w _ 1 (by decide) (by decide)
  · rename_i h
    exact (f_bit rfl).resolve_left fun h0 => h ⟨hn, h0⟩

theorem sourceAcquired_raised {n : Nat} (hn : n ≠ 0) (h : s.f Fld.TIM_STAT_ACQUIRED = 0) :
    (sourceAcquired n s).raised Ev.TIM_ACQUIRED := by
  unfold sourceAcquired
  rw [if_pos ⟨hn, h⟩]
  exact (acquire_writes w).stays _ (raise_sets (setF_wf w _ _) (by decide) (by decide))

theorem holdoverSet_writes (ho : Bool) : Writes selectWords s (holdoverSet ho s) := by
  unfold holdoverSet
  split
  · exact ((Writes.refl w).setF _ (by decide) (by decide)).raise rfl (by decide)
  · exact (Writes.refl w).setF _ (by decide) (by decide)

theorem holdover_holdoverSet (ho : Bool) : (holdoverSet ho s).f Fld.TIM_STAT_HOLDOVER = b2n ho := by
  unfold holdoverSet
  split
  · rename_i h
    rw [f_raise (e := Ev.TIM_HOLDOVER) (setF_wf w _ _) rfl (by decide), (Bool.and_eq_true_iff.1 h).1]
    exact f_setF_same w _ 1 (by decide) (by decide)
  · exact (f_setF_same w _ _ (by decide) (by decide)).trans (b2n_mod ho)

/-- A field of `TIM_STAT` above `HOLDOVER`. -/
theorem f_holdoverSet (ho : Bool) {h l : Nat} (hl : l ≤ h ∧ 28 < l) :
    (holdoverSet ho s).f ⟨Adr.TIM_STAT, h, l⟩ = s.f ⟨Adr.TIM_STAT, h, l⟩ := by
  have hset : ∀ v, (s.setF Fld.TIM_STAT_HOLDOVER v).f ⟨Adr.TIM_STAT, h, l⟩ = s.f ⟨Adr.TIM_STAT, h, l⟩ := fun v =>
    f_setF_beside w v (by decide) ⟨hl.1, Or.inr hl.2⟩
  unfold holdoverSet
  split
  · exact (f_raise (e := Ev.TIM_HOLDOVER) (setF_wf w _ _) rfl (show canon Adr.TIM_STAT ∉ evWords 6 by decide)).trans (hset 1)
  · exact hset _

omit w in
theorem uncBaseSet_parts (n : Nat) : uncBaseSet n s = { s with tim := (uncBaseSet n s).tim } := by
  unfold uncBaseSet
  split <;> rfl

theorem uncBaseSet_writes (l : List Nat) (n : Nat) : Writes l s (uncBaseSet n s) := by
  rw [uncBaseSet_parts]
  exact writes_tim w l _

theorem sourceUsed_writes (n : Nat) : Writes selectWords s (sourceUsed n s) := by
  have hacq := sourceAcquired_writes w n
  have hold := holdoverSet_writes hacq.wf (heldOver n (sourceAcquired n s))
  exact (hacq.trans hold).trans (uncBaseSet_writes hold.wf _ n)

/-- Using a source leaves the selection and, above `HOLDOVER`, what acquisition has made of `TIM_STAT`. -/
theorem f_sourceUsed (n : Nat) {h l : Nat} (hl : l ≤ h ∧ 28 < l) :
    (sourceUsed n s).f ⟨Adr.TIM_STAT, h, l⟩ = (sourceAcquired n s).f ⟨Adr.TIM_STAT, h, l⟩ := by
  have hacq := sourceAcquired_writes w n
  have hold := holdoverSet_writes hacq.wf (heldOver n (sourceAcquired n s))
  exact ((uncBaseSet_writes hold.wf [] n).field _ List.not_mem_nil).trans (f_holdoverSet hacq.wf _ hl)

theorem holdover_sourceUsed (n : Nat) : (sourceUsed n s).f Fld.TIM_STAT_HOLDOVER = b2n (heldOver n (sourceAcquired n s)) := by
  have hacq := sourceAcquired_writes w n
  have hold := holdoverSet_writes hacq.wf (heldOver n (sourceAcquired n s))
  exact ((uncBaseSet_writes hold.wf [] n).field _ List.not_mem_nil).trans (holdover_holdoverSet hacq.wf _)

theorem selectTime_writes : Writes selectWords s s.selectTime :=
  (sourceTaken_writes w).trans (sourceUsed_writes (sourceTaken_writes w).wf s.bestTime)

theorem src_selectTime : s.selectTime.f Fld.TIM_STAT_SRC = s.bestTime := by
  have wt := (sourceTaken_writes w).wf
  rw [selectTime_eq, f_sourceUsed wt _ (by decide), src_sourceAcquired wt, src_sourceTaken w]

theorem selectTime_source (h : s.bestTime ≠ 0) : s.selectTime.f Fld.TIM_STAT_ACQUIRED = 1 ∧ s.selectTime.f Fld.TIM_STAT_HOLDOVER = 0 := by
  have wt := (sourceTaken_writes w).wf
  rw [selectTime_eq, f_sourceUsed wt _ (by decide), holdover_sourceUsed wt, heldOver]
  exact ⟨acquired_sourceAcquired wt h, by rw [beq_false_of_ne h, Bool.and_false]; rfl⟩

theorem selectTime_none (h : s.bestTime = 0) :
    s.selectTime.f Fld.TIM_STAT_ACQUIRED = s.f Fld.TIM_STAT_ACQUIRED ∧
      s.selectTime.f Fld.TIM_STAT_HOLDOVER = s.f Fld.TIM_STAT_ACQUIRED := by
  have wt := (sourceTaken_writes w).wf
  have hacq := acquired_sourceTaken w
  have hsame : sourceAcquired 0 (sourceTaken s) = sourceTaken s := if_neg fun hn => hn.1 rfl
  rw [selectTime_eq, h, f_sourceUsed wt _ (by decide), holdover_sourceUsed wt, hsame, heldOver, fb_def, hacq]
  refine ⟨rfl, ?_⟩
  rcases f_bit (s := s) (r := Fld.TIM_STAT_ACQUIRED) rfl with h0 | h1
  · rw [h0]
    rfl
  · rw [h1]
    rfl

theorem selectTime_changed (h : s.bestTime ≠ s.f Fld.TIM_STAT_SRC) : s.selectTime.raised Ev.TIM_SRC_CHANGED :=
  (sourceUsed_writes (sourceTaken_writes w).wf _).stays _ (sourceTaken_raised w h)

theorem selectTime_acquired (h : s.bestTime ≠ 0) (ha : s.f Fld.TIM_STAT_ACQUIRED = 0) : s.selectTime.raised Ev.TIM_ACQUIRED := by
  have wt := (sourceTaken_writes w).wf
  have hacq := sourceAcquired_writes wt s.bestTime
  have hold := holdoverSet_writes hacq.wf (heldOver s.bestTime (sourceAcquired s.bestTime (sourceTaken s)))
  rw [selectTime_eq]
  exact (uncBaseSet_writes hold.wf [] _).stays _
    (hold.stays _ (sourceAcquired_raised wt h ((acquired_sourceTaken w).trans ha)))

end Select

/-! ### The block's own state beside its registers -/

/-- From `s` the machine has come to `t` by changes of the words `l` and of the time block's own state. -/
structure OnlyTime (l : List Nat) (s t : State) : Prop where
  wf : t.regsWf
  kept : RegsKept l s t
  parts : t = { s with regs := t.regs, tim := t.tim }

section OnlyTime

variable {l : List Nat} {s t : State}

theorem OnlyTime.refl (w : s.regsWf) : OnlyTime l s s := ⟨w, fun _ _ => rfl, rfl⟩

theorem OnlyTime.setReg (h : OnlyTime l s t) {a : Nat} (v : Word) (ha : canon a ∈ l) : OnlyTime l s (t.setReg a v) :=
  ⟨setReg_wf h.wf a v, h.kept.trans fun _ hb => reg_setReg_ne h.wf v fun e => hb (e ▸ ha), by
    have e := h.parts
    rw [e]
    rfl⟩

theorem OnlyTime.setF (h : OnlyTime l s t) {r : RF} (v : Nat) (hr : canon r.a ∈ l) : OnlyTime l s (t.setF r v) := h.setReg _ hr

theorem OnlyTime.setPair (h : OnlyTime l s t) {a b : Nat} (v : Nat) (ha : canon a ∈ l) (hb : canon b ∈ l) :
    OnlyTime l s (t.setPair a b v) := (h.setReg _ ha).setReg _ hb

theorem OnlyTime.setTim (h : OnlyTime l s t) (x : TimeSt) : OnlyTime l s { t with tim := x } :=
  ⟨mk_wf h.wf, fun a ha => (reg_mk a).trans (h.kept a ha), by
    have e := h.parts
    rw [e]⟩

theorem OnlyTime.ok_parts (h : OnlyTime l s t) : t.ok = { s with regs := t.ok.regs, tim := t.ok.tim, answer := ⟨.okay, []⟩ } := by
  have e := h.parts
  rw [ok_regs, ok_tim]
  generalize t.regs = r, t.tim = x at e
  rw [e]
  rfl

theorem OnlyTime.ok_kept (h : OnlyTime l s t) : RegsKept l s t.ok := fun a ha => (reg_ok t a).trans (h.kept a ha)

end OnlyTime

theorem beq_min_three (n : Nat) : (min 3 (n + 1) == 3) = decide (2 ≤ n) := by
  by_cases h : 2 ≤ n
  · rw [decide_eq_true h, beq_iff_eq]
    omega
  · rw [decide_eq_false h, beq_eq_false_iff_ne]
    omega

/-! ### Observations of time (R129, R362) -/

/-- The words of an observation stand in `TIM_PTP_CTRL`. -/
def ptpWritten (s : State) (v : Word) : State :=
  (s.setF Fld.TIM_PTP_CTRL_SIGMA (bitsOf v.toNat 23 16)).setF Fld.TIM_PTP_CTRL_FRAME16 (bitsOf v.toNat 15 0)

/-- An observation of PTP has been accepted, its run counted. -/
def ptpCounted (s : State) (v : Word) : State :=
  { ptpWritten s v with
    tim := { (ptpWritten s v).tim with ptpRun := min 3 (s.tim.ptpRun + 1), sigPtp := bitsOf v.toNat 23 16, lastObs := s.tim.raw } }

/-- The third in a row has made PTP available. -/
def ptpAccepted (s : State) (v : Word) : State :=
  (ptpCounted s v).setF Fld.TIM_STAT_PTP_AVAIL
    (b2n ((ptpCounted s v).fb Fld.TIM_STAT_PTP_AVAIL || min 3 (s.tim.ptpRun + 1) == 3))

/-- An observation of PTP has been refused. -/
def ptpRefused (s : State) (v : Word) : State :=
  State.setF { ptpWritten s v with tim := { (ptpWritten s v).tim with ptpRun := 0 } } Fld.TIM_PTP_CTRL_REFUSED 1

theorem doPtpObs_accepted {s : State} {v : Word} (h : s.obsAccepted (bitsOf v.toNat 15 0) = true) :
    doPtpObs s v = (ptpAccepted s v).selectTime.ok := if_pos h

theorem doPtpObs_refused {s : State} {v : Word} (h : s.obsAccepted (bitsOf v.toNat 15 0) = false) :
    doPtpObs s v = (ptpRefused s v).ok := if_neg (by rw [h]; decide)

theorem tim_ptpWritten (s : State) (v : Word) : (ptpWritten s v).tim = s.tim := by
  rw [ptpWritten, setF_tim, setF_tim]

theorem tim_ptpAccepted (s : State) (v : Word) :
    (ptpAccepted s v).tim =
      { s.tim with ptpRun := min 3 (s.tim.ptpRun + 1), sigPtp := bitsOf v.toNat 23 16, lastObs := s.tim.raw } := by
  rw [ptpAccepted, setF_tim, ptpCounted, tim_ptpWritten]

theorem tim_ptpRefused (s : State) (v : Word) : (ptpRefused s v).tim = { s.tim with ptpRun := 0 } := by
  rw [ptpRefused, setF_tim, tim_ptpWritten]

/-- The words of an observation stand in `GNS_TIME_CTRL`. -/
def gnssWritten (s : State) (v : Word) : State :=
  (s.setF Fld.GNS_TIME_CTRL_SIGMA (bitsOf v.toNat 23 16)).setF Fld.GNS_TIME_CTRL_FRAME16 (bitsOf v.toNat 15 0)

/-- An observation of GNSS has been accepted and counted; the third in a row has made GNSS available. -/
def gnssAccepted (s : State) (v : Word) : State :=
  { gnssWritten s v with
    tim := { (gnssWritten s v).tim with
      gnssRun := min 3 (s.tim.gnssRun + 1), sigGnss := bitsOf v.toNat 23 16, lastObs := s.tim.raw
      gnssAvail := s.tim.gnssAvail || min 3 (s.tim.gnssRun + 1) == 3 } }

/-- An observation of GNSS has been refused. -/
def gnssRefused (s : State) (v : Word) : State :=
  State.setF { gnssWritten s v with tim := { (gnssWritten s v).tim with gnssRun := 0 } } Fld.GNS_TIME_CTRL_REFUSED 1

theorem doGnssObs_accepted {s : State} {v : Word} (h : s.obsAccepted (bitsOf v.toNat 15 0) = true) :
    doGnssObs s v = (gnssAccepted s v).selectTime.ok := if_pos h

theorem doGnssObs_refused {s : State} {v : Word} (h : s.obsAccepted (bitsOf v.toNat 15 0) = false) :
    doGnssObs s v = (gnssRefused s v).ok := if_neg (by rw [h]; decide)

theorem tim_gnssWritten (s : State) (v : Word) : (gnssWritten s v).tim = s.tim := by
  rw [gnssWritten, setF_tim, setF_tim]

theorem tim_gnssAccepted (s : State) (v : Word) :
    (gnssAccepted s v).tim =
      { s.tim with gnssRun := min 3 (s.tim.gnssRun + 1), sigGnss := bitsOf v.toNat 23 16, lastObs := s.tim.raw,
                   gnssAvail := s.tim.gnssAvail || decide (2 ≤ s.tim.gnssRun) } := by
  rw [gnssAccepted, tim_gnssWritten, beq_min_three]

theorem tim_gnssRefused (s : State) (v : Word) : (gnssRefused s v).tim = { s.tim with gnssRun := 0 } := by
  rw [gnssRefused, setF_tim, tim_gnssWritten]

section Observations

variable {s : State} (w : s.regsWf) (v : Word)
include w

theorem ptpWritten_only {l : List Nat} (hl : canon Adr.TIM_PTP_CTRL ∈ l) : OnlyTime l s (ptpWritten s v) :=
  ((OnlyTime.refl w).setF (r := Fld.TIM_PTP_CTRL_SIGMA) _ hl).setF (r := Fld.TIM_PTP_CTRL_FRAME16) _ hl

theorem ptpCounted_only {l : List Nat} (hl : canon Adr.TIM_PTP_CTRL ∈ l) : OnlyTime l s (ptpCounted s v) :=
  (ptpWritten_only w v hl).setTim _

theorem ptpAccepted_only : OnlyTime [Adr.TIM_PTP_CTRL, Adr.TIM_STAT] s (ptpAccepted s v) :=
  (ptpCounted_only w v (by decide)).setF _ (by decide)

theorem ptpRefused_only : OnlyTime [Adr.TIM_PTP_CTRL] s (ptpRefused s v) :=
  ((ptpWritten_only w v (by decide)).setTim _).setF _ (by decide)

theorem ptpAvail_ptpAccepted :
    (ptpAccepted s v).fb Fld.TIM_STAT_PTP_AVAIL = (s.fb Fld.TIM_STAT_PTP_AVAIL || decide (2 ≤ s.tim.ptpRun)) := by
  have hcounted := ptpCounted_only (l := [Adr.TIM_PTP_CTRL]) w v (by decide)
  rw [ptpAccepted, fb_setF_b2n hcounted.wf _ (by decide) (by decide), beq_min_three, fb_def, fb_def, hcounted.kept.field _ (by decide)]

theorem refused_ptpRefused : (ptpRefused s v).f Fld.TIM_PTP_CTRL_REFUSED = 1 :=
  f_setF_same (mk_wf (ptpWritten_only (l := [Adr.TIM_PTP_CTRL]) w v (by decide)).wf) _ 1 (by decide) (by decide)

theorem gnssWritten_only : OnlyTime [Adr.GNS_TIME_CTRL] s (gnssWritten s v) :=
  ((OnlyTime.refl w).setF (r := Fld.GNS_TIME_CTRL_SIGMA) _ (by decide)).setF (r := Fld.GNS_TIME_CTRL_FRAME16) _ (by decide)

theorem gnssAccepted_only : OnlyTime [Adr.GNS_TIME_CTRL] s (gnssAccepted s v) := (gnssWritten_only w v).setTim _

theorem gnssRefused_only : OnlyTime [Adr.GNS_TIME_CTRL] s (gnssRefused s v) := ((gnssWritten_only w v).setTim _).setF _ (by decide)

theorem refused_gnssRefused : (gnssRefused s v).f Fld.GNS_TIME_CTRL_REFUSED = 1 :=
  f_setF_same (mk_wf (gnssWritten_only w v).wf) _ 1 (by decide) (by decide)

end Observations

theorem pageOk_gns {s : State} (hg : s.dev.gnss = true) : s.pageOk 33 = true := by
  unfold State.pageOk
  rw [hg]
  rfl

/-! ### Sources that are lost (R129, R362, R364) -/

/-- PTP is not available any more. -/
def ptpLost (s : State) : State := State.setF { s with tim := { s.tim with ptpRun := 0 } } Fld.TIM_STAT_PTP_AVAIL 0

/-- GNSS is not available any more, its loss not yet told. -/
def gnssLost (s : State) : State := { s with tim := { s.tim with gnssRun := 0, gnssAvail := false } }

/-- PPS is not available any more, its loss not yet told. -/
def ppsLost (s : State) : State := State.setF { s with tim := { s.tim with ppsRun := 0 } } Fld.TIM_STAT_PPS_AVAIL 0

theorem ptpLost_only {s : State} (w : s.regsWf) : OnlyTime [Adr.TIM_STAT] s (ptpLost s) :=
  ((OnlyTime.refl w).setTim _).setF _ (by decide)

theorem gnssLost_writes {s : State} (w : s.regsWf) (l : List Nat) : Writes l s (gnssLost s) := writes_tim w l _

theorem ppsLost_writes {s : State} (w : s.regsWf) : Writes (evWords 6 ++ [Adr.TIM_STAT]) s (ppsLost s) :=
  (writes_tim w _ _).setF _ (by decide) (by decide)

/-! ### Pulses (R363, R364) -/

theorem uns_lt (n : Nat) (i : Int) : uns n i < 2 ^ n := by
  have hpos : (0 : Int) < Int.ofNat (2 ^ n) := Int.ofNat_lt.2 (Nat.two_pow_pos n)
  have hmod : i % Int.ofNat (2 ^ n) < Int.ofNat (2 ^ n) := Int.emod_lt_of_pos i hpos
  exact (Int.toNat_lt (Int.emod_nonneg i (ne_of_gt hpos))).2 hmod

theorem now_lt (s : State) : s.now < 2 ^ 64 := uns_lt 64 _

theorem ppsRise_only {s : State} (w : s.regsWf) (x : TimeSt) (v : Nat) :
    OnlyTime [Adr.TIM_PPS_STAMP_LO, Adr.TIM_PPS_STAMP_HI] s
      (State.setPair { s with tim := x } Adr.TIM_PPS_STAMP_LO Adr.TIM_PPS_STAMP_HI v) :=
  ((OnlyTime.refl w).setTim x).setPair _ (by decide) (by decide)

/-- The words that give the observation of a pulse. -/
def obsWords : List Nat := [Adr.TIM_PPS_OBS_LO, Adr.TIM_PPS_OBS_HI, Adr.TIM_PPS_STAT]

/-- The observation of the pulse stamped `l` (R363). -/
def ppsObs (s : State) (l : Nat) : Nat := uns 64 (s.ppsRef l + Int.ofNat (s.f Fld.TIM_PPS_CFG_DELAY) - Int.ofNat l)

/-- The pulse stamped `l` has ended and given its observation. -/
def ppsEnded (s : State) (l : Nat) : State :=
  State.setPair { s with tim := { s.tim with ppsRise := none } } Adr.TIM_PPS_OBS_LO Adr.TIM_PPS_OBS_HI (ppsObs s l)

/-- The count of good pulses starts again. -/
def ppsRejected (s : State) : State := State.setF { s with tim := { s.tim with ppsRun := 0 } } Fld.TIM_PPS_STAT_ACCEPT 0

/-- A pulse of class `c` is accepted; `n` is the run it makes. -/
def ppsMarked (c n : Nat) (s : State) : State :=
  State.setF { s.setF Fld.TIM_PPS_STAT_CODE c with
    tim := { (s.setF Fld.TIM_PPS_STAT_CODE c).tim with ppsRun := n, lastObs := s.tim.raw } } Fld.TIM_PPS_STAT_ACCEPT 1

/-- The accepted pulse is counted. -/
def ppsCounted (c n : Nat) (s : State) : State := (ppsMarked c n s).wrap Fld.TIM_PPS_STAT_PULSES 1

/-- The third good pulse in a row has made PPS available. -/
def ppsAccepted (c n : Nat) (s : State) : State :=
  (ppsCounted c n s).setF Fld.TIM_STAT_PPS_AVAIL (b2n ((ppsCounted c n s).fb Fld.TIM_STAT_PPS_AVAIL || n == 3))

theorem ppsFall_none {s : State} (h : s.tim.ppsRise = none) : s.ppsFall = s := by
  unfold State.ppsFall
  rw [h]

section PpsFall

variable {s : State} {l r : Nat} (h : s.tim.ppsRise = some (l, r))
include h

theorem ppsFall_bad (hc : ppsClass (s.tim.raw - r) = none) : s.ppsFall = (ppsRejected (ppsEnded s l)).raise Ev.TIM_PPS_BAD := by
  unfold State.ppsFall
  rw [h]
  dsimp only
  rw [hc]
  rfl

theorem ppsFall_accepted {c : Nat} (hc : ppsClass (s.tim.raw - r) = some c) (ha : s.ppsAccepts c = true) :
    s.ppsFall = (ppsAccepted c (min 3 (s.tim.ppsRun + 1)) (ppsEnded s l)).selectTime := by
  unfold State.ppsFall
  rw [h]
  dsimp only
  rw [hc]
  dsimp only
  rw [if_pos ha]
  rfl

theorem ppsFall_refused {c : Nat} (hc : ppsClass (s.tim.raw - r) = some c) (ha : s.ppsAccepts c = false) :
    s.ppsFall = ppsRejected ((ppsEnded s l).setF Fld.TIM_PPS_STAT_CODE c) := by
  unfold State.ppsFall
  rw [h]
  dsimp only
  rw [hc]
  dsimp only
  rw [if_neg (by rw [ha]; decide)]
  rfl

end PpsFall

theorem ppsClass_lt {x c : Nat} (h : ppsClass x = some c) : c < 4 := by
  unfold ppsClass at h
  split_ifs at h <;> cases h <;> decide

theorem tim_ppsEnded (s : State) (l : Nat) : (ppsEnded s l).tim = { s.tim with ppsRise := none } := by
  rw [ppsEnded, setPair_tim]

theorem tim_ppsRejected (s : State) : (ppsRejected s).tim = { s.tim with ppsRun := 0 } := by
  rw [ppsRejected, setF_tim]

theorem tim_ppsCounted (c n : Nat) (s : State) : (ppsCounted c n s).tim = { s.tim with ppsRun := n, lastObs := s.tim.raw } := by
  rw [ppsCounted, State.wrap, setF_tim, ppsMarked, setF_tim, setF_tim]

theorem tim_ppsAccepted (c n : Nat) (s : State) : (ppsAccepted c n s).tim = { s.tim with ppsRun := n, lastObs := s.tim.raw } := by
  rw [ppsAccepted, setF_tim, tim_ppsCounted]

section Pulses

variable {s t : State} {l : List Nat}

theorem ppsEnded_only (w : s.regsWf) (x : Nat) (hlo : canon Adr.TIM_PPS_OBS_LO ∈ l) (hhi : canon Adr.TIM_PPS_OBS_HI ∈ l) :
    OnlyTime l s (ppsEnded s x) := ((OnlyTime.refl w).setTim _).setPair _ hlo hhi

theorem ppsRejected_only (h : OnlyTime l s t) (hl : canon Adr.TIM_PPS_STAT ∈ l) : OnlyTime l s (ppsRejected t) :=
  (h.setTim _).setF _ hl

theorem ppsMarked_only (h : OnlyTime l s t) (hl : canon Adr.TIM_PPS_STAT ∈ l) (c n : Nat) : OnlyTime l s (ppsMarked c n t) :=
  ((h.setF (r := Fld.TIM_PPS_STAT_CODE) c hl).setTim _).setF (r := Fld.TIM_PPS_STAT_ACCEPT) 1 hl

theorem ppsCounted_only (h : OnlyTime l s t) (hl : canon Adr.TIM_PPS_STAT ∈ l) (c n : Nat) : OnlyTime l s (ppsCounted c n t) :=
  (ppsMarked_only h hl c n).setF _ hl

theorem ppsAccepted_only (h : OnlyTime l s t) (hl : canon Adr.TIM_PPS_STAT ∈ l) (hs : canon Adr.TIM_STAT ∈ l) (c n : Nat) :
    OnlyTime l s (ppsAccepted c n t) := (ppsCounted_only h hl c n).setF _ hs

end Pulses

theorem regsKept_pair {l : List Nat} {s t : State} (h : RegsKept l s t) {a b : Nat} (ha : canon a ∉ l) (hb : canon b ∉ l) :
    t.pair a b = s.pair a b := by
  unfold State.pair
  rw [h a ha, h b hb]

section PulseWords

variable {s : State} (w : s.regsWf)
include w

theorem obs_ppsEnded (l : Nat) : (ppsEnded s l).pair Adr.TIM_PPS_OBS_LO Adr.TIM_PPS_OBS_HI = ppsObs s l :=
  (pair_setPair (mk_wf w) _ (by decide)).trans (Nat.mod_eq_of_lt (uns_lt 64 _))

theorem ppsRejected_writes {l : List Nat} (hl : Adr.TIM_PPS_STAT ∈ l) : Writes l s (ppsRejected s) :=
  (writes_tim w l _).setF _ (by decide) hl

theorem ppsEnded_writes (x : Nat) {l : List Nat} (hlo : Adr.TIM_PPS_OBS_LO ∈ l) (hhi : Adr.TIM_PPS_OBS_HI ∈ l) :
    Writes l s (ppsEnded s x) := (writes_tim w l _).setPair _ (by decide) ⟨hlo, hhi⟩

theorem accept_ppsRejected : (ppsRejected s).f Fld.TIM_PPS_STAT_ACCEPT = 0 := f_setF_same (mk_wf w) _ 0 (by decide) (by decide)

theorem code_ppsRejected : (ppsRejected s).f Fld.TIM_PPS_STAT_CODE = s.f Fld.TIM_PPS_STAT_CODE :=
  (f_setF_beside (mk_wf w) 0 (by decide) (by decide)).trans (f_mk _)

theorem ppsCode_setF {c : Nat} (hc : c < 4) : (s.setF Fld.TIM_PPS_STAT_CODE c).f Fld.TIM_PPS_STAT_CODE = c :=
  (f_setF_same w _ c (by decide) (by decide)).trans (Nat.mod_eq_of_lt hc)

theorem accept_ppsMarked (c n : Nat) : (ppsMarked c n s).f Fld.TIM_PPS_STAT_ACCEPT = 1 :=
  f_setF_same (mk_wf (setF_wf w _ _)) _ 1 (by decide) (by decide)

/-- Marking a pulse leaves the fields of its status beside `ACCEPT` as its class has left them. -/
theorem f_ppsMarked (c n : Nat) {h l : Nat} (hl : l ≤ h ∧ (h < 29 ∨ 29 < l)) :
    (ppsMarked c n s).f ⟨Adr.TIM_PPS_STAT, h, l⟩ = (s.setF Fld.TIM_PPS_STAT_CODE c).f ⟨Adr.TIM_PPS_STAT, h, l⟩ :=
  (f_setF_beside (mk_wf (setF_wf w _ _)) 1 (by decide) hl).trans (f_mk _)

theorem ppsMarked_wf (c n : Nat) : (ppsMarked c n s).regsWf := setF_wf (mk_wf (setF_wf w _ _)) _ _

/-- Counting a pulse leaves the fields above the count. -/
theorem f_ppsCounted (c n : Nat) {h l : Nat} (hl : l ≤ h ∧ 15 < l) :
    (ppsCounted c n s).f ⟨Adr.TIM_PPS_STAT, h, l⟩ = (ppsMarked c n s).f ⟨Adr.TIM_PPS_STAT, h, l⟩ :=
  f_setF_beside (ppsMarked_wf w c n) _ (by decide) ⟨hl.1, Or.inr hl.2⟩

theorem pulses_ppsCounted (c n : Nat) :
    (ppsCounted c n s).f Fld.TIM_PPS_STAT_PULSES = (s.f Fld.TIM_PPS_STAT_PULSES + 1) % 65536 := by
  have hbefore : (ppsMarked c n s).f Fld.TIM_PPS_STAT_PULSES = s.f Fld.TIM_PPS_STAT_PULSES :=
    (f_ppsMarked w c n (by decide)).trans (f_setF_beside w c (by decide) (by decide))
  refine (f_setF_same (ppsMarked_wf w c n) Fld.TIM_PPS_STAT_PULSES _ (by decide) (by decide)).trans ?_
  rw [hbefore]
  rfl

theorem ppsCounted_wf (c n : Nat) : (ppsCounted c n s).regsWf := setF_wf (ppsMarked_wf w c n) _ _

/-- The status of a pulse is not touched by what it makes of its source. -/
theorem f_ppsAccepted (c n : Nat) (h l : Nat) :
    (ppsAccepted c n s).f ⟨Adr.TIM_PPS_STAT, h, l⟩ = (ppsCounted c n s).f ⟨Adr.TIM_PPS_STAT, h, l⟩ :=
  f_setF_ne (r := Fld.TIM_STAT_PPS_AVAIL) (ppsCounted_wf w c n) _ (show canon Adr.TIM_PPS_STAT ≠ canon Adr.TIM_STAT by decide)

theorem avail_ppsAccepted (c n : Nat) :
    (ppsAccepted c n s).fb Fld.TIM_STAT_PPS_AVAIL = (s.fb Fld.TIM_STAT_PPS_AVAIL || n == 3) := by
  have hcounted := ppsCounted_only (l := [Adr.TIM_PPS_STAT]) (OnlyTime.refl w) (by decide) c n
  rw [ppsAccepted, fb_setF_b2n hcounted.wf _ (by decide) (by decide), fb_def, fb_def, hcounted.kept.field _ (by decide)]

end PulseWords

/-! ### The reference from outside (R367) -/

/-- The external reference is gone, which is not yet told. -/
def extGone (s : State) : State := s.setF Fld.TIM_STAT_EXT_OK 0

end Sys2Proof.Laws

namespace Sys2Proof.Proofs

open Sys2Proof.Machine Sys2Proof.Laws

/-! ### Sources of time -/

theorem selectTime_spec {s : State} (w : s.regsWf) :
    let t := s.selectTime
    t.f Fld.TIM_STAT_SRC = s.bestTime ∧ (s.bestTime ≠ 0 → t.f Fld.TIM_STAT_ACQUIRED = 1 ∧ t.f Fld.TIM_STAT_HOLDOVER = 0) ∧
      (s.bestTime = 0 → t.f Fld.TIM_STAT_ACQUIRED = s.f Fld.TIM_STAT_ACQUIRED ∧ t.f Fld.TIM_STAT_HOLDOVER = s.f Fld.TIM_STAT_ACQUIRED) ∧
      (s.bestTime ≠ s.f Fld.TIM_STAT_SRC → t.raised Ev.TIM_SRC_CHANGED) ∧
      (s.bestTime ≠ 0 → s.f Fld.TIM_STAT_ACQUIRED = 0 → t.raised Ev.TIM_ACQUIRED) ∧
      RegsKept (evWords 6 ++ [Adr.TIM_STAT, Adr.TIM_BEAT_STAT, Adr.TIM_SLIP_CNT]) s t ∧ MemKept s t :=
  ⟨src_selectTime w, selectTime_source w, selectTime_none w, selectTime_changed w, selectTime_acquired w, (selectTime_writes w).kept,
    (selectTime_writes w).mem⟩

section Observations

variable {s : State} {v : Word} (hp : s.pwr.on = true) (w : s.regsWf)
include hp w

theorem runs_ptpObs_accepted (h : s.obsAccepted (bitsOf v.toNat 15 0) = true) :
    Runs (.ptpObsSubmit v) s fun t => ∃ u : State, t = u.selectTime.ok ∧
      u.tim = { s.tim with ptpRun := min 3 (s.tim.ptpRun + 1), sigPtp := bitsOf v.toNat 23 16, lastObs := s.tim.raw } ∧
      u.fb Fld.TIM_STAT_PTP_AVAIL = (s.fb Fld.TIM_STAT_PTP_AVAIL || decide (2 ≤ s.tim.ptpRun)) ∧
      RegsKept [Adr.TIM_PTP_CTRL, Adr.TIM_STAT] s u ∧ u = { s with regs := u.regs, tim := u.tim } :=
  have honly := ptpAccepted_only w v
  Runs.live rfl hp ⟨ptpAccepted s v, doPtpObs_accepted h, tim_ptpAccepted s v, ptpAvail_ptpAccepted w v, honly.kept, honly.parts⟩

theorem runs_ptpObs_refused (h : s.obsAccepted (bitsOf v.toNat 15 0) = false) :
    Runs (.ptpObsSubmit v) s fun t => t.tim = { s.tim with ptpRun := 0 } ∧ t.f Fld.TIM_PTP_CTRL_REFUSED = 1 ∧
      RegsKept [Adr.TIM_PTP_CTRL] s t ∧ t = { s with regs := t.regs, tim := t.tim, answer := ⟨.okay, []⟩ } := by
  have honly := ptpRefused_only w v
  refine Runs.live rfl hp ?_
  rw [doPtpObs_refused h]
  exact ⟨(ok_tim _).trans (tim_ptpRefused s v), (f_ok _ _).trans (refused_ptpRefused w v), honly.ok_kept, honly.ok_parts⟩

theorem runs_gnssObs_accepted (hg : s.dev.gnss = true) (h : s.obsAccepted (bitsOf v.toNat 15 0) = true) :
    Runs (.gnssTimeObs v) s fun t => ∃ u : State, t = u.selectTime.ok ∧
      u.tim = { s.tim with gnssRun := min 3 (s.tim.gnssRun + 1), sigGnss := bitsOf v.toNat 23 16, lastObs := s.tim.raw,
                           gnssAvail := s.tim.gnssAvail || decide (2 ≤ s.tim.gnssRun) } ∧
      RegsKept [Adr.GNS_TIME_CTRL] s u ∧ u = { s with regs := u.regs, tim := u.tim } :=
  have honly := gnssAccepted_only w v
  Runs.liveIf rfl hp (pageOk_gns hg) ⟨gnssAccepted s v, doGnssObs_accepted h, tim_gnssAccepted s v, honly.kept, honly.parts⟩

theorem runs_gnssObs_refused (hg : s.dev.gnss = true) (h : s.obsAccepted (bitsOf v.toNat 15 0) = false) :
    Runs (.gnssTimeObs v) s fun t => t.tim = { s.tim with gnssRun := 0 } ∧ t.f Fld.GNS_TIME_CTRL_REFUSED = 1 ∧
      RegsKept [Adr.GNS_TIME_CTRL] s t ∧ t = { s with regs := t.regs, tim := t.tim, answer := ⟨.okay, []⟩ } := by
  have honly := gnssRefused_only w v
  refine Runs.liveIf rfl hp (pageOk_gns hg) ?_
  rw [doGnssObs_refused h]
  exact ⟨(ok_tim _).trans (tim_gnssRefused s v), (f_ok _ _).trans (refused_gnssRefused w v), honly.ok_kept, honly.ok_parts⟩

theorem runs_ptpSourceLost :
    Runs .ptpSourceLost s fun t => ∃ u : State, t = u.selectTime ∧ u.tim = { s.tim with ptpRun := 0 } ∧ u.f Fld.TIM_STAT_PTP_AVAIL = 0 ∧
      RegsKept [Adr.TIM_STAT] s u ∧ u = { s with regs := u.regs, tim := u.tim } :=
  have honly := ptpLost_only w
  Runs.live rfl hp ⟨ptpLost s, rfl, setF_tim _ _ _, f_setF_same (mk_wf w) _ 0 (by decide) (by decide), honly.kept, honly.parts⟩

theorem runs_timeLost (hg : s.dev.gnss = true) :
    Runs .timeLost s fun t => ∃ u : State, t = u.selectTime ∧ u.tim = { s.tim with gnssRun := 0, gnssAvail := false } ∧
      u.raised Ev.GNS_TIME_LOST ∧ RegsKept (evWords 33) s u ∧ MemKept s u :=
  have htold : Writes (evWords 33) s ((gnssLost s).raise Ev.GNS_TIME_LOST) := (gnssLost_writes w _).raise rfl fun _ ha => ha
  Runs.liveIf rfl hp (pageOk_gns hg) ⟨(gnssLost s).raise Ev.GNS_TIME_LOST, rfl, tim_raise _ _,
    raise_sets (gnssLost_writes w []).wf (by decide) (by decide), htold.kept, htold.mem⟩

end Observations

/-! ### Pulses -/

section Pulses

variable {s : State} (hp : s.pwr.on = true) (w : s.regsWf)
include hp w

theorem runs_ppsRise (hen : s.fb Fld.TIM_CFG_PPS_EN = true) :
    Runs .ppsRise s fun t => t.tim = { s.tim with ppsRise := some (s.now, s.tim.raw) } ∧
      t.pair Adr.TIM_PPS_STAMP_LO Adr.TIM_PPS_STAMP_HI = s.now ∧ RegsKept [Adr.TIM_PPS_STAMP_LO, Adr.TIM_PPS_STAMP_HI] s t ∧
      t = { s with regs := t.regs, tim := t.tim } :=
  have honly := ppsRise_only w { s.tim with ppsRise := some (s.now, s.tim.raw) } s.now
  Runs.liveIf rfl hp hen ⟨setPair_tim _ _ _ _, (pair_setPair (mk_wf w) _ (by decide)).trans (Nat.mod_eq_of_lt (now_lt s)), honly.kept,
    honly.parts⟩

theorem runs_ppsFall_bad (hen : s.fb Fld.TIM_CFG_PPS_EN = true) {l r : Nat} (h : s.tim.ppsRise = some (l, r))
    (hc : ppsClass (s.tim.raw - r) = none) :
    Runs .ppsFall s fun t => t.tim = { s.tim with ppsRise := none, ppsRun := 0 } ∧ t.raised Ev.TIM_PPS_BAD ∧
      t.f Fld.TIM_PPS_STAT_ACCEPT = 0 ∧ t.pair Adr.TIM_PPS_OBS_LO Adr.TIM_PPS_OBS_HI = ppsObs s l ∧
      RegsKept (evWords 6 ++ obsWords) s t ∧ MemKept s t := by
  have hended := ppsEnded_writes w l (l := evWords 6 ++ obsWords) (by decide) (by decide)
  have hrejected := ppsRejected_writes hended.wf (l := [Adr.TIM_PPS_STAT]) (by decide)
  have htold : Writes (evWords 6 ++ [Adr.TIM_PPS_STAT]) (ppsEnded s l) ((ppsRejected (ppsEnded s l)).raise Ev.TIM_PPS_BAD) :=
    (hrejected.mono (by decide)).raise rfl (by decide)
  have hall := hended.trans (htold.mono (by decide))
  refine Runs.liveIf rfl hp hen ?_
  rw [ppsFall_bad h hc]
  refine ⟨?_, raise_sets hrejected.wf (by decide) (by decide), ?_, ?_, hall.kept, hall.mem⟩
  · rw [tim_raise, tim_ppsRejected, tim_ppsEnded]
  · rw [f_raise hrejected.wf rfl (by decide), accept_ppsRejected hended.wf]
  · rw [regsKept_pair htold.kept (by decide) (by decide), obs_ppsEnded w]

theorem runs_ppsFall_refused (hen : s.fb Fld.TIM_CFG_PPS_EN = true) {l r c : Nat} (h : s.tim.ppsRise = some (l, r))
    (hc : ppsClass (s.tim.raw - r) = some c) (ha : s.ppsAccepts c = false) :
    Runs .ppsFall s fun t => t.tim = { s.tim with ppsRise := none, ppsRun := 0 } ∧ t.f Fld.TIM_PPS_STAT_CODE = c ∧
      t.f Fld.TIM_PPS_STAT_ACCEPT = 0 ∧ t.pair Adr.TIM_PPS_OBS_LO Adr.TIM_PPS_OBS_HI = ppsObs s l ∧
      RegsKept obsWords s t ∧ t = { s with regs := t.regs, tim := t.tim } := by
  have hended := ppsEnded_only w l (l := obsWords) (by decide) (by decide)
  have wc := setF_wf hended.wf Fld.TIM_PPS_STAT_CODE c
  have hstat := ppsRejected_only ((OnlyTime.refl (l := [Adr.TIM_PPS_STAT]) hended.wf).setF (r := Fld.TIM_PPS_STAT_CODE) c (by decide))
    (by decide)
  have honly := ppsRejected_only (hended.setF (r := Fld.TIM_PPS_STAT_CODE) c (by decide)) (by decide)
  refine Runs.liveIf rfl hp hen ?_
  rw [ppsFall_refused h hc ha]
  refine ⟨?_, ?_, accept_ppsRejected wc, ?_, honly.kept, honly.parts⟩
  · rw [tim_ppsRejected, setF_tim, tim_ppsEnded]
  · rw [code_ppsRejected wc, ppsCode_setF hended.wf (ppsClass_lt hc)]
  · rw [regsKept_pair hstat.kept (by decide) (by decide), obs_ppsEnded w]

theorem runs_ppsFall_accepted (hen : s.fb Fld.TIM_CFG_PPS_EN = true) {l r c : Nat} (h : s.tim.ppsRise = some (l, r))
    (hc : ppsClass (s.tim.raw - r) = some c) (ha : s.ppsAccepts c = true) :
    Runs .ppsFall s fun t => ∃ u : State, t = u.selectTime ∧
      u.tim = { s.tim with ppsRise := none, ppsRun := min 3 (s.tim.ppsRun + 1), lastObs := s.tim.raw } ∧
      u.f Fld.TIM_PPS_STAT_CODE = c ∧ u.f Fld.TIM_PPS_STAT_ACCEPT = 1 ∧
      u.f Fld.TIM_PPS_STAT_PULSES = (s.f Fld.TIM_PPS_STAT_PULSES + 1) % 65536 ∧
      u.fb Fld.TIM_STAT_PPS_AVAIL = (s.fb Fld.TIM_STAT_PPS_AVAIL || decide (2 ≤ s.tim.ppsRun)) ∧
      RegsKept (Adr.TIM_STAT :: obsWords) s u ∧ u = { s with regs := u.regs, tim := u.tim } := by
  have hpair := ppsEnded_only w l (l := [Adr.TIM_PPS_OBS_LO, Adr.TIM_PPS_OBS_HI]) (by decide) (by decide)
  have we := hpair.wf
  have honly := ppsAccepted_only (ppsEnded_only w l (l := Adr.TIM_STAT :: obsWords) (by decide) (by decide)) (by decide) (by decide) c
    (min 3 (s.tim.ppsRun + 1))
  refine Runs.liveIf rfl hp hen ⟨_, ppsFall_accepted h hc ha, ?_, ?_, ?_, ?_, ?_, honly.kept, honly.parts⟩
  · rw [tim_ppsAccepted, tim_ppsEnded]
  · rw [f_ppsAccepted we, f_ppsCounted we _ _ (by decide), f_ppsMarked we _ _ (by decide), ppsCode_setF we (ppsClass_lt hc)]
  · rw [f_ppsAccepted we, f_ppsCounted we _ _ (by decide), accept_ppsMarked we]
  · rw [f_ppsAccepted we, pulses_ppsCounted we, hpair.kept.field _ (by decide)]
  · rw [avail_ppsAccepted we, beq_min_three, fb_def, fb_def, hpair.kept.field _ (by decide)]

theorem runs_ppsSourceLost (h : s.fb Fld.TIM_STAT_PPS_AVAIL = true) :
    Runs .ppsSourceLost s fun t => ∃ u : State, t = u.selectTime ∧ u.tim = { s.tim with ppsRun := 0 } ∧
      u.f Fld.TIM_STAT_PPS_AVAIL = 0 ∧ RegsKept (evWords 6 ++ [Adr.TIM_STAT]) s u ∧ MemKept s u := by
  have hlost := ppsLost_writes w
  have htold : Writes _ s ((ppsLost s).raise Ev.TIM_SRC_CHANGED) := hlost.raise rfl (by decide)
  refine Runs.liveIf rfl hp h ⟨(ppsLost s).raise Ev.TIM_SRC_CHANGED, rfl, ?_, ?_, htold.kept, htold.mem⟩
  · rw [tim_raise, ppsLost, setF_tim]
  · rw [f_raise hlost.wf rfl (by decide)]
    exact f_setF_same (mk_wf w) _ 0 (by decide) (by decide)

omit w in
theorem runs_tpulse (h : s.fb Fld.TIM_CFG_TPULSE_EN = true) :
    Runs .tpulse s fun t => t.tim = { s.tim with lastTp := s.now } ∧
      (s.muted = false → t.sent = s.sent ++ [⟨.tpulse, 0, leBytes 2 (tpWidth s.tpCode)⟩]) ∧ t = { s with tim := t.tim, sent := t.sent } := by
  refine Runs.liveIf rfl hp h ?_
  unfold State.send
  split
  · rename_i hm
    exact ⟨rfl, fun hmute => absurd ((Bool.and_eq_true_iff.1 hm).1.symm.trans hmute) (by decide), rfl⟩
  · exact ⟨rfl, fun _ => rfl, rfl⟩

theorem runs_extLost (h : s.fb Fld.TIM_STAT_EXT_OK = true) :
    Runs .extLost s fun t => t.f Fld.TIM_STAT_EXT_OK = 0 ∧ t.raised Ev.TIM_EXT_LOST ∧ OnlyRaised 6 [Adr.TIM_STAT] s t := by
  have wg : (extGone s).regsWf := setF_wf w _ _
  have honly : OnlyRegs [Adr.TIM_STAT] s (extGone s) := (OnlyRegs.refl _ s).setF w 0 (by decide)
  refine Runs.liveIf (t := (extGone s).raise Ev.TIM_EXT_LOST) rfl hp h
    ⟨?_, raise_sets wg (by decide) (by decide), honly.raise (e := Ev.TIM_EXT_LOST) wg rfl⟩
  rw [f_raise wg rfl (by decide)]
  exact f_setF_same w _ 0 (by decide) (by decide)

end Pulses

/-- Settles O51: a selection sets `SRC`, `ACQUIRED` and `HOLDOVER` in turn, each step leaving what is already set; an observation or a
pulse that is accepted ends in a selection. -/
theorem timeSourcesAndPulses : Obligations.TimeSourcesAndPulses :=
  ⟨fun _ hp w => ⟨selectTime_spec w,
    fun _ => ⟨runs_ptpObs_accepted hp w, runs_ptpObs_refused hp w, runs_gnssObs_accepted hp w, runs_gnssObs_refused hp w⟩,
    runs_ptpSourceLost hp w, runs_timeLost hp w⟩,
   fun _ hp w => ⟨fun hen => ⟨runs_ppsRise hp w hen, fun hnone => Runs.liveIf rfl hp hen (ppsFall_none hnone),
      fun _ _ h => ⟨runs_ppsFall_bad hp w hen h, fun _ hc ha => runs_ppsFall_refused hp w hen h hc ha,
        fun _ hc ha => runs_ppsFall_accepted hp w hen h hc ha⟩⟩,
    runs_ppsSourceLost hp w, runs_tpulse hp, runs_extLost hp w⟩⟩

end Sys2Proof.Proofs
end

section
/-! ## The analogue filter chain

Writes of the configuration, the detectors of a channel and its fine output (R134, R137–R142). The lemmas about the model's operations
stand first, the statement's proof after them. -/

namespace Sys2Proof.Laws

open Sys2Proof.Machine

/-! ### The words of the channels (R145) -/

/-- `a` is a word of the table of channels on page FLT. -/
structure FltWord (a : Nat) : Prop where
  lo : 32832 ≤ a
  hi : a < 32960

section FltWord

variable {a : Nat} (h : FltWord a)
include h

theorem FltWord.body : 6 < a % 1024 := by
  obtain ⟨hlo, hhi⟩ := h
  omega

theorem FltWord.mem {l : List Nat} (hl : a ∈ l) : canon a ∈ l := (canon_body h.body).symm ▸ hl

theorem FltWord.not_event : canon a ∉ evWords 32 := by
  obtain ⟨hlo, hhi⟩ := h
  rw [canon_body (FltWord.body ⟨hlo, hhi⟩)]
  simp only [evWords, hdr, List.mem_cons, List.not_mem_nil, or_false]
  unfold Adr.LGR_CNT_A Adr.LGR_CNT_B Adr.LGR_FLAGS
  omega

theorem FltWord.canon_ne {b : Nat} (k : FltWord b) (hne : a ≠ b) : canon a ≠ canon b := by
  rwa [canon_body h.body, canon_body k.body]

end FltWord

section ChannelWords

variable {c : Nat} (hc : c < 16)
include hc

theorem fltWord_cfg : FltWord (Adr.FLT_CH_CFG c) := by unfold Adr.FLT_CH_CFG; constructor <;> omega
theorem fltWord_fine : FltWord (Adr.FLT_CH_FINE c) := by unfold Adr.FLT_CH_FINE; constructor <;> omega
theorem fltWord_coarse : FltWord (Adr.FLT_CH_COARSE c) := by unfold Adr.FLT_CH_COARSE; constructor <;> omega
theorem fltWord_stat : FltWord (Adr.FLT_CH_STAT c) := by unfold Adr.FLT_CH_STAT; constructor <;> omega
theorem fltWord_cnt : FltWord (Adr.FLT_CH_CNT c) := by unfold Adr.FLT_CH_CNT; constructor <;> omega

theorem canon_cnt_ne_stat : canon (Adr.FLT_CH_CNT c) ≠ canon (Adr.FLT_CH_STAT c) :=
  (fltWord_cnt hc).canon_ne (fltWord_stat hc) (by unfold Adr.FLT_CH_CNT Adr.FLT_CH_STAT; omega)

end ChannelWords

/-! ### The block's own state beside its registers -/

theorem flt_raise (s : State) (e : Ev) : (s.raise e).flt = s.flt := by
  rw [raise_parts]

theorem stick_parts (s : State) (c flag : RF) (n : Nat) : s.stick c flag n = { s with regs := (s.stick c flag n).regs } := by
  unfold State.stick
  dsimp only
  split
  · rfl
  · split <;> rfl

/-- A field beside the flag of a saturating counter. -/
theorem f_stick_beside {s : State} (w : s.regsWf) {c : RF} {a hi lo h l : Nat} (n : Nat) (hr : lo ≤ hi ∧ hi < 32)
    (hq : l ≤ h ∧ (h < lo ∨ hi < l)) (hne : canon a ≠ canon c.a) : (s.stick c ⟨a, hi, lo⟩ n).f ⟨a, h, l⟩ = s.f ⟨a, h, l⟩ := by
  unfold State.stick
  dsimp only
  split
  · rfl
  · split
    · exact f_setF_ne w _ hne
    · rw [f_setF_beside (setF_wf w _ _) 1 hr hq, f_setF_ne w _ hne]

theorem writes_setFlt {l : List Nat} {s t : State} (h : Writes l s t) (c : Nat) (x : FltSt) : Writes l s (t.setFlt c x) := h.same rfl rfl rfl

/-! ### A channel's configuration (R141) -/

/-- Fields of two words joined. -/
theorem bitsOf_or_left {x y : Word} {hi lo : Nat} (hy : y.extractLsb' lo (hi + 1 - lo) = 0#_) :
    bitsOf (x ||| y).toNat hi lo = bitsOf x.toNat hi lo := by
  rw [bitsOf_extract, bitsOf_extract, BitVec.extractLsb'_or, hy, BitVec.or_zero]

theorem bitsOf_or_right {x y : Word} {hi lo : Nat} (hx : x.extractLsb' lo (hi + 1 - lo) = 0#_) :
    bitsOf (x ||| y).toNat hi lo = bitsOf y.toNat hi lo := by
  rw [BitVec.or_comm]
  exact bitsOf_or_left hx

/-- A field that the mask `m` clears. -/
theorem extract_and_zero (x : Word) {m : Word} {lo n : Nat} (hm : m.extractLsb' lo n = 0#n) : (x &&& m).extractLsb' lo n = 0#n := by
  rw [BitVec.extractLsb'_and, hm, BitVec.and_zero]

/-- The `ORDER` that a configuration word writes is allowed (R134). -/
abbrev OrderOk (v : Word) : Prop := 3 ≤ bitsOf v.toNat 27 25 ∧ bitsOf v.toNat 27 25 ≤ 5

/-- The `RATIO` that a configuration word writes is allowed (R134). -/
abbrev RatioOk (s : State) (v : Word) : Prop :=
  16 ≤ bitsOf v.toNat 24 16 ∧ bitsOf v.toNat 24 16 ≤ 256 ∧ 200000 / s.f Fld.FLT_MCLK_DIV % bitsOf v.toNat 24 16 = 0

/-- The word a write of a channel's configuration leaves: a refused field keeps its value. -/
def cfgWord (s : State) (c : Nat) (v : Word) : Word :=
  (v &&& 0xC000FFFF) ||| ((if OrderOk v then v else s.reg (Adr.FLT_CH_CFG c)) &&& 0x0E000000) |||
    ((if RatioOk s v then v else s.reg (Adr.FLT_CH_CFG c)) &&& 0x01FF0000)

/-- The state with a channel's configuration written, due at the next edge. -/
def cfgStored (s : State) (c : Nat) (v : Word) : State :=
  (s.setReg (Adr.FLT_CH_CFG c) (cfgWord s c v)).setFlt c { s.fltOf c with due := true }

theorem doFltCfg_eq (s : State) (c : Nat) (v : Word) :
    doFltCfg s c v =
      (if OrderOk v ∧ RatioOk s v then cfgStored s c v else (cfgStored s c v).raise Ev.FLT_CFG_REFUSED).ok := by
  unfold doFltCfg cfgStored cfgWord
  simp only [Bool.and_eq_true, decide_eq_true_eq]

theorem order_cfgWord (s : State) (c : Nat) (v : Word) :
    bitsOf (cfgWord s c v).toNat 27 25 = if OrderOk v then bitsOf v.toNat 27 25 else s.f (Fld.FLT_CH_CFG_ORDER c) := by
  unfold cfgWord
  rw [bitsOf_or_left (extract_and_zero _ (by decide)), bitsOf_or_right (extract_and_zero _ (by decide)), bitsOf_and_ones _ (by decide)]
  split <;> rfl

theorem ratio_cfgWord (s : State) (c : Nat) (v : Word) :
    bitsOf (cfgWord s c v).toNat 24 16 = if RatioOk s v then bitsOf v.toNat 24 16 else s.f (Fld.FLT_CH_CFG_RATIO c) := by
  unfold cfgWord
  rw [BitVec.or_assoc, bitsOf_or_right (extract_and_zero _ (by decide)), bitsOf_or_right (extract_and_zero _ (by decide)),
    bitsOf_and_ones _ (by decide)]
  split <;> rfl

/-- A field that is taken as written. -/
theorem bitsOf_cfgWord (s : State) (c : Nat) (v : Word) {hi lo : Nat}
    (hv : (0xC000FFFF : Word).extractLsb' lo (hi + 1 - lo) = BitVec.allOnes _) (ho : (0x0E000000 : Word).extractLsb' lo (hi + 1 - lo) = 0#_)
    (hr : (0x01FF0000 : Word).extractLsb' lo (hi + 1 - lo) = 0#_) : bitsOf (cfgWord s c v).toNat hi lo = bitsOf v.toNat hi lo := by
  unfold cfgWord
  rw [bitsOf_or_left (extract_and_zero _ hr), bitsOf_or_left (extract_and_zero _ ho), bitsOf_and_ones _ hv]

theorem flt_doFltCfg (s : State) (c : Nat) (v : Word) :
    (doFltCfg s c v).flt = { s.flt with ch := setNth s.flt.ch c { s.fltOf c with due := true } } := by
  rw [doFltCfg_eq, ok_flt]
  split
  · rfl
  · exact flt_raise _ _

section ChannelCfg

variable {s : State} (w : s.regsWf) {c : Nat} (hc : c < 16) (v : Word)
include w hc

theorem cfgStored_writes : Writes [Adr.FLT_CH_CFG c] s (cfgStored s c v) :=
  writes_setFlt ((Writes.refl w).setReg _ (fltWord_cfg hc).body List.mem_cons_self) _ _

omit hc in
theorem f_cfgStored (h l : Nat) : (cfgStored s c v).f ⟨Adr.FLT_CH_CFG c, h, l⟩ = bitsOf (cfgWord s c v).toNat h l :=
  (f_mk _).trans (f_setReg_same w _ rfl)

theorem f_doFltCfg (h l : Nat) : (doFltCfg s c v).f ⟨Adr.FLT_CH_CFG c, h, l⟩ = bitsOf (cfgWord s c v).toNat h l := by
  rw [doFltCfg_eq, f_ok]
  split
  · exact f_cfgStored w v h l
  · rw [f_raise (e := Ev.FLT_CFG_REFUSED) (cfgStored_writes w hc v).wf rfl (fltWord_cfg hc).not_event, f_cfgStored w v h l]

theorem doFltCfg_taken (ho : OrderOk v) (hr : RatioOk s v) :
    RegsKept [Adr.FLT_CH_CFG c] s (doFltCfg s c v) ∧
    doFltCfg s c v = { s with regs := (doFltCfg s c v).regs, flt := (doFltCfg s c v).flt, answer := (doFltCfg s c v).answer } := by
  rw [doFltCfg_eq, if_pos ⟨ho, hr⟩]
  exact ⟨fun a ha => (reg_ok _ a).trans ((cfgStored_writes w hc v).kept a ha), rfl⟩

theorem doFltCfg_refused (h : ¬(OrderOk v ∧ RatioOk s v)) :
    (doFltCfg s c v).raised Ev.FLT_CFG_REFUSED ∧ RegsKept (evWords 32 ++ [Adr.FLT_CH_CFG c]) s (doFltCfg s c v) ∧
    MemKept s (doFltCfg s c v) := by
  have hstored := cfgStored_writes w hc v
  have htold : Writes (evWords 32 ++ [Adr.FLT_CH_CFG c]) s ((cfgStored s c v).raise Ev.FLT_CFG_REFUSED) :=
    (hstored.mono fun _ ha => List.mem_append_right _ ha).raise rfl fun _ ha => List.mem_append_left _ ha
  rw [doFltCfg_eq, if_neg h]
  exact ⟨raised_ok (raise_sets hstored.wf (by decide) (by decide)), fun a ha => (reg_ok _ a).trans (htold.kept a ha), htold.mem⟩

end ChannelCfg

/-! ### The modulator clock (R131, R141) -/

/-- The state with the clock's enable written, due at the next edge. -/
def mclkStored (s : State) (v : Word) : State :=
  State.setF { s with flt := { s.flt with due := true } } Fld.FLT_MCLK_EN (bitsOf v.toNat 31 31)

theorem doFltMclk_taken {s : State} {v : Word} (h : bitsOf v.toNat 7 0 ∈ mclkDivs) :
    doFltMclk s v = ((mclkStored s v).setF Fld.FLT_MCLK_DIV (bitsOf v.toNat 7 0)).ok :=
  congrArg State.ok (if_pos (List.contains_iff_mem.2 h))

theorem doFltMclk_refused {s : State} {v : Word} (h : bitsOf v.toNat 7 0 ∉ mclkDivs) :
    doFltMclk s v = ((mclkStored s v).raise Ev.FLT_CFG_REFUSED).ok :=
  congrArg State.ok (if_neg fun hd => h (List.contains_iff_mem.1 hd))

section ModulatorClock

variable {s : State} (w : s.regsWf) (v : Word)
include w

theorem mclkStored_wf : (mclkStored s v).regsWf := setF_wf (mk_wf w) _ _

theorem en_mclkStored : (mclkStored s v).f Fld.FLT_MCLK_EN = bitsOf v.toNat 31 31 := by
  unfold mclkStored
  rw [f_setF_same (mk_wf w) _ _ (by decide) (by decide)]
  exact Nat.mod_mod _ _

theorem div_mclkStored : (mclkStored s v).f Fld.FLT_MCLK_DIV = s.f Fld.FLT_MCLK_DIV :=
  (f_setF_beside (mk_wf w) _ (by decide) (by decide)).trans (f_mk _)

end ModulatorClock

/-! ### The detectors (R138, R142) -/

/-- A step told: `SETTLED` cleared and the step counted. -/
def stepCounted (s : State) (c : Nat) : State :=
  (s.setF (Fld.FLT_CH_STAT_SETTLED c) 0).stick (Fld.FLT_CH_CNT_STEPS c) (Fld.FLT_CH_STAT_STEP_FLAG c) 1

/-- A stuck modulator noted: `STUCK` set and `SETTLED` cleared. -/
def stuckNoted (s : State) (c : Nat) : State := (s.setF (Fld.FLT_CH_STAT_STUCK c) 1).setF (Fld.FLT_CH_STAT_SETTLED c) 0

/-- A stuck modulator that is stuck no more: the channel's restart is due. -/
def stuckEnded (s : State) (c : Nat) : State := (s.setF (Fld.FLT_CH_STAT_STUCK c) 0).setFlt c { s.fltOf c with due := true }

theorem flt_stuckEnded (s : State) (c : Nat) :
    (stuckEnded s c).flt = { s.flt with ch := setNth s.flt.ch c { s.fltOf c with due := true } } := by
  unfold stuckEnded State.setFlt
  rw [setF_flt]

theorem stuckEnded_parts (s : State) (c : Nat) :
    stuckEnded s c = { s with regs := (stuckEnded s c).regs, flt := (stuckEnded s c).flt } := by
  have h : s.setF (Fld.FLT_CH_STAT_STUCK c) 0 = { s with regs := (s.setF (Fld.FLT_CH_STAT_STUCK c) 0).regs } := rfl
  unfold stuckEnded State.setFlt
  rw [h]

theorem doStepDetected_settled {s : State} {c : Nat} (h : s.fb (Fld.FLT_CH_STAT_SETTLED c) = true) :
    doStepDetected s c = (stepCounted s c).raise Ev.FLT_SETTLE_LOST := if_pos h

theorem doStepDetected_unsettled {s : State} {c : Nat} (h : s.fb (Fld.FLT_CH_STAT_SETTLED c) = false) : doStepDetected s c = s :=
  if_neg (by rw [h]; decide)

section Detectors

variable {s : State} (w : s.regsWf) {c : Nat}
include w

theorem stepCounted_wf : (stepCounted s c).regsWf := stick_wf (setF_wf w _ _) _ _ _

theorem stuckNoted_wf : (stuckNoted s c).regsWf := setF_wf (setF_wf w _ _) _ _

theorem stuck_stuckNoted : (stuckNoted s c).f (Fld.FLT_CH_STAT_STUCK c) = 1 :=
  (f_setF_beside (setF_wf w _ _) 0 (by decide) (by decide)).trans (f_setF_same w (Fld.FLT_CH_STAT_STUCK c) 1 (by simp) (by simp))

theorem settled_stuckNoted : (stuckNoted s c).f (Fld.FLT_CH_STAT_SETTLED c) = 0 :=
  f_setF_same (setF_wf w _ _) (Fld.FLT_CH_STAT_SETTLED c) 0 (by simp) (by simp)

theorem stuck_stuckEnded : (stuckEnded s c).f (Fld.FLT_CH_STAT_STUCK c) = 0 :=
  (f_mk _).trans (f_setF_same w (Fld.FLT_CH_STAT_STUCK c) 0 (by simp) (by simp))

variable (hc : c < 16)
include hc

theorem stuckEnded_writes : Writes [Adr.FLT_CH_STAT c] s (stuckEnded s c) :=
  writes_setFlt ((Writes.refl w).setF 0 (fltWord_stat hc).body (by simp)) c _

theorem stepCounted_only : OnlyRegs [Adr.FLT_CH_STAT c, Adr.FLT_CH_CNT c] s (stepCounted s c) := by
  have hstat : canon (Adr.FLT_CH_STAT c) ∈ [Adr.FLT_CH_STAT c, Adr.FLT_CH_CNT c] := (fltWord_stat hc).mem (by simp)
  have hcnt : canon (Adr.FLT_CH_CNT c) ∈ [Adr.FLT_CH_STAT c, Adr.FLT_CH_CNT c] := (fltWord_cnt hc).mem (by simp)
  exact onlyRegs_stick (setF_wf w _ _) ((OnlyRegs.refl _ s).setF w 0 hstat) 1 hcnt hstat

theorem stuckNoted_only : OnlyRegs [Adr.FLT_CH_STAT c] s (stuckNoted s c) := by
  have hstat := (fltWord_stat hc).mem (List.mem_singleton_self _)
  exact ((OnlyRegs.refl _ s).setF w 1 hstat).setF (setF_wf w _ _) 0 hstat

theorem settled_stepCounted : (stepCounted s c).f (Fld.FLT_CH_STAT_SETTLED c) = 0 :=
  (f_stick_beside (setF_wf w _ _) 1 (by decide) (by decide) (canon_cnt_ne_stat hc).symm).trans
    (f_setF_same w (Fld.FLT_CH_STAT_SETTLED c) 0 (by simp) (by simp))

theorem steps_stepCounted :
    (stepCounted s c).f (Fld.FLT_CH_CNT_STEPS c) = min (s.f (Fld.FLT_CH_CNT_STEPS c) + 1) 65535 := by
  unfold stepCounted
  rw [f_stick (setF_wf w _ _) 1 (by simp) (by simp) (canon_cnt_ne_stat hc), f_setF_ne w 0 (canon_cnt_ne_stat hc)]
  rfl

end Detectors

/-! ### The fine output (R134, R137) -/

/-- Two's complement gives back a value in range. -/
theorem sgn_uns {i : Int} (hlo : -2147483648 ≤ i) (hhi : i ≤ 2147483647) : sgn 32 (BitVec.ofNat 32 (uns 32 i)).toNat = i := by
  unfold sgn uns
  rw [BitVec.toNat_ofNat]
  simp only [Int.ofNat_eq_natCast]
  split <;> omega

theorem satI_range (i : Int) : -2147483648 ≤ satI 32 i ∧ satI 32 i ≤ 2147483647 := by
  unfold satI clampI
  simp only [Int.ofNat_eq_natCast]
  split_ifs <;> omega

/-- A register that a saturated value was written into holds that value. -/
theorem sgn_uns_satI (i : Int) : sgn 32 (BitVec.ofNat 32 (uns 32 (satI 32 i))).toNat = satI 32 i :=
  sgn_uns (satI_range i).1 (satI_range i).2

/-- The channel with the bits sampled since the last output put before the stream. -/
def bitsTaken (x : FltSt) (bits : List Bool) : FltSt :=
  { x with bits := ((bits.reverse.map fun (b : Bool) => if b then (1 : Int) else -1) ++ x.bits).take 17000,
           since := min 17000 (x.since + bits.length) }

/-- The channel with the present CIC output entered into its line. -/
def cicTaken (x : FltSt) : FltSt := { x with line := (x.cic :: x.line).take 47 }

/-- The state with channel `c` as it has become and its two values shown. -/
def outputShown (s : State) (c : Nat) (y : FltSt) : State :=
  ((s.setFlt c y).setReg (Adr.FLT_CH_FINE c) (BitVec.ofNat 32 (uns 32 (satI 32 (roundAway y.fine.1 y.fine.2))))).setReg
    (Adr.FLT_CH_COARSE c) (BitVec.ofNat 32 (uns 32 y.coarse))

/-- The fine value lies outside the range of its register. -/
def outOfRange (y : FltSt) : Bool :=
  decide (2 ^ 31 * Int.ofNat y.fine.2 < y.fine.1) || decide (y.fine.1 < -(2 ^ 31 * Int.ofNat y.fine.2))

/-- A saturation of channel `c` counted and flagged. -/
def satCounted (s : State) (c : Nat) : State :=
  (s.stick (Fld.FLT_CH_CNT_SAT c) (Fld.FLT_CH_STAT_SAT_FLAG c) 1).setF (Fld.FLT_CH_STAT_SAT_FLAG c) 1

theorem doFineOutput_eq (s : State) (c : Nat) (bits : List Bool) :
    doFineOutput s c bits =
      (let y := cicTaken (bitsTaken (s.fltOf c) bits)
       if outOfRange y then satCounted (outputShown s c y) c else outputShown s c y) := rfl

theorem satCounted_parts (s : State) (c : Nat) : satCounted s c = { s with regs := (satCounted s c).regs } := by
  have h := stick_parts s (Fld.FLT_CH_CNT_SAT c) (Fld.FLT_CH_STAT_SAT_FLAG c) 1
  unfold satCounted
  rw [h]
  rfl

section FineOutput

variable {s : State} (w : s.regsWf) {c : Nat} (hc : c < 16)
include w hc

theorem outputShown_writes (y : FltSt) : Writes [Adr.FLT_CH_FINE c, Adr.FLT_CH_COARSE c] s (outputShown s c y) :=
  ((writes_setFlt (Writes.refl w) c y).setReg _ (fltWord_fine hc).body (by simp)).setReg _ (fltWord_coarse hc).body (by simp)

theorem satCounted_writes : Writes [Adr.FLT_CH_STAT c, Adr.FLT_CH_CNT c] s (satCounted s c) := by
  have hstat := (fltWord_stat hc).body
  exact ((Writes.refl w).stick 1 ⟨(fltWord_cnt hc).body, hstat⟩ (by simp)).setF 1 hstat (by simp)

theorem fine_outputShown (y : FltSt) :
    sgn 32 ((outputShown s c y).reg (Adr.FLT_CH_FINE c)).toNat = satI 32 (roundAway y.fine.1 y.fine.2) := by
  have hne := (fltWord_fine hc).canon_ne (fltWord_coarse hc) (by unfold Adr.FLT_CH_FINE Adr.FLT_CH_COARSE; omega)
  have wy : (s.setFlt c y).regsWf := mk_wf w
  rw [outputShown, reg_setReg_ne (setReg_wf wy _ _) _ hne, reg_setReg_same wy, sgn_uns_satI]

omit hc in
theorem coarse_outputShown (y : FltSt) : sgn 32 ((outputShown s c y).reg (Adr.FLT_CH_COARSE c)).toNat = y.coarse := by
  have wy : (s.setFlt c y).regsWf := mk_wf w
  rw [outputShown, reg_setReg_same (setReg_wf wy _ _)]
  exact sgn_uns_satI _

/-- A saturation leaves the two values as they are shown. -/
theorem reg_satCounted {a : Nat} (ha : FltWord a) (hs : a ≠ Adr.FLT_CH_STAT c) (hn : a ≠ Adr.FLT_CH_CNT c) :
    (satCounted s c).reg a = s.reg a :=
  (satCounted_writes w hc).kept a (by rw [canon_body ha.body]; simp [hs, hn])

theorem fine_satCounted : (satCounted s c).reg (Adr.FLT_CH_FINE c) = s.reg (Adr.FLT_CH_FINE c) :=
  reg_satCounted w hc (fltWord_fine hc) (by unfold Adr.FLT_CH_FINE Adr.FLT_CH_STAT; omega)
    (by unfold Adr.FLT_CH_FINE Adr.FLT_CH_CNT; omega)

theorem coarse_satCounted : (satCounted s c).reg (Adr.FLT_CH_COARSE c) = s.reg (Adr.FLT_CH_COARSE c) :=
  reg_satCounted w hc (fltWord_coarse hc) (by unfold Adr.FLT_CH_COARSE Adr.FLT_CH_STAT; omega)
    (by unfold Adr.FLT_CH_COARSE Adr.FLT_CH_CNT; omega)

end FineOutput

/-- What showing the values of channel `c`, become `y`, does to the state. -/
structure Shows (c : Nat) (y : FltSt) (s t : State) : Prop where
  flt : t.flt = { s.flt with ch := setNth s.flt.ch c y }
  fine : sgn 32 (t.reg (Adr.FLT_CH_FINE c)).toNat = satI 32 (roundAway y.fine.1 y.fine.2)
  coarse : sgn 32 (t.reg (Adr.FLT_CH_COARSE c)).toNat = y.coarse
  kept : RegsKept [Adr.FLT_CH_FINE c, Adr.FLT_CH_COARSE c, Adr.FLT_CH_STAT c, Adr.FLT_CH_CNT c] s t
  parts : t = { s with regs := t.regs, flt := t.flt }

section Shown

variable {s : State} (w : s.regsWf) {c : Nat} (hc : c < 16)
include w hc

theorem outputShown_shows (y : FltSt) : Shows c y s (outputShown s c y) :=
  ⟨rfl, fine_outputShown w hc y, coarse_outputShown w y, (outputShown_writes w hc y).kept.mono (by simp), rfl⟩

theorem satCounted_shows (y : FltSt) : Shows c y s (satCounted (outputShown s c y) c) := by
  have hw := outputShown_writes w hc y
  obtain ⟨hflt, hfine, hcoarse, hkept, hparts⟩ := outputShown_shows w hc y
  refine ⟨?_, ?_, ?_, hkept.trans ((satCounted_writes hw.wf hc).kept.mono (by simp)), ?_⟩
  · rw [satCounted_parts]
    exact hflt
  · rw [fine_satCounted hw.wf hc, hfine]
  · rw [coarse_satCounted hw.wf hc, hcoarse]
  · rw [satCounted_parts]
    rfl

theorem doFineOutput_shows (bits : List Bool) : Shows c (cicTaken (bitsTaken (s.fltOf c) bits)) s (doFineOutput s c bits) := by
  rw [doFineOutput_eq]
  dsimp only
  split
  · exact satCounted_shows w hc _
  · exact outputShown_shows w hc _

end Shown

end Sys2Proof.Laws

namespace Sys2Proof.Proofs

open Sys2Proof.Machine Sys2Proof.Laws

/-! ### The filter chain -/

section Configuration

variable {s : State} (hp : s.pwr.on = true) (w : s.regsWf) (v : Word)
include hp w

theorem runs_fltCfgWrite_channel {c : Nat} (hc : c < 16) :
    Runs (.fltCfgWrite c v) s fun t =>
      t.f (Fld.FLT_CH_CFG_ORDER c) = (if OrderOk v then bitsOf v.toNat 27 25 else s.f (Fld.FLT_CH_CFG_ORDER c)) ∧
      t.f (Fld.FLT_CH_CFG_RATIO c) = (if RatioOk s v then bitsOf v.toNat 24 16 else s.f (Fld.FLT_CH_CFG_RATIO c)) ∧
      t.f (Fld.FLT_CH_CFG_EN c) = bitsOf v.toNat 31 31 ∧ t.f (Fld.FLT_CH_CFG_FALLBACK c) = bitsOf v.toNat 30 30 ∧
      t.f (Fld.FLT_CH_CFG_FIR c) = bitsOf v.toNat 15 12 ∧ t.f (Fld.FLT_CH_CFG_PHASE c) = bitsOf v.toNat 11 0 ∧
      t.flt = { s.flt with ch := setNth s.flt.ch c { s.fltOf c with due := true } } ∧
      (OrderOk v → RatioOk s v → RegsKept [Adr.FLT_CH_CFG c] s t ∧ t = { s with regs := t.regs, flt := t.flt, answer := t.answer }) ∧
      (¬(OrderOk v ∧ RatioOk s v) → t.raised Ev.FLT_CFG_REFUSED ∧ RegsKept (evWords 32 ++ [Adr.FLT_CH_CFG c]) s t ∧ MemKept s t) := by
  have hfield := f_doFltCfg w hc v
  have hplain := @bitsOf_cfgWord s c v
  have he : exec (.fltCfgWrite c v) s = liveIf (decide (c ≤ 16)) s (doFltCfg s c v) := by
    show liveIf _ s (if c = 16 then _ else _) = _
    rw [if_neg (by omega)]
  exact Runs.liveIf he hp (decide_eq_true (by omega))
   ⟨(hfield _ _).trans (order_cfgWord s c v), (hfield _ _).trans (ratio_cfgWord s c v),
    (hfield _ _).trans (hplain (by decide) (by decide) (by decide)), (hfield _ _).trans (hplain (by decide) (by decide) (by decide)),
    (hfield _ _).trans (hplain (by decide) (by decide) (by decide)), (hfield _ _).trans (hplain (by decide) (by decide) (by decide)),
    flt_doFltCfg s c v, doFltCfg_taken w hc v, doFltCfg_refused w hc v⟩

theorem runs_fltCfgWrite_mclk :
    Runs (.fltCfgWrite 16 v) s fun t =>
      t.f Fld.FLT_MCLK_EN = bitsOf v.toNat 31 31 ∧ t.flt = { s.flt with due := true } ∧
      (bitsOf v.toNat 7 0 ∈ mclkDivs → t.f Fld.FLT_MCLK_DIV = bitsOf v.toNat 7 0) ∧
      (bitsOf v.toNat 7 0 ∉ mclkDivs → t.f Fld.FLT_MCLK_DIV = s.f Fld.FLT_MCLK_DIV ∧ t.raised Ev.FLT_CFG_REFUSED) := by
  have ws := mclkStored_wf w v
  refine Runs.liveIf (t := doFltMclk s v) rfl hp rfl ?_
  by_cases hd : bitsOf v.toNat 7 0 ∈ mclkDivs
  · rw [doFltMclk_taken hd]
    refine ⟨?_, rfl, fun _ => ?_, fun hn => absurd hd hn⟩
    · rw [f_ok, f_setF_beside ws _ (by decide) (by decide), en_mclkStored w]
    · rw [f_ok, f_setF_same ws _ _ (by decide) (by decide)]
      exact Nat.mod_mod _ _
  · have hrest {q : RF} (hq : canon q.a ∉ evWords 32) : ((mclkStored s v).raise Ev.FLT_CFG_REFUSED).f q = (mclkStored s v).f q :=
      f_raise ws rfl hq
    rw [doFltMclk_refused hd]
    refine ⟨?_, ?_, fun h => absurd h hd, fun _ => ⟨?_, raised_ok (raise_sets ws (by decide) (by decide))⟩⟩
    · rw [f_ok, hrest (by decide), en_mclkStored w]
    · rw [ok_flt, flt_raise]
      rfl
    · rw [f_ok, hrest (by decide), div_mclkStored w]

end Configuration

section Channels

variable {s : State} {c : Nat} (hp : s.pwr.on = true) (w : s.regsWf) (hc : c < 16)
include hp w hc

theorem runs_stepDetected_settled (hon : s.fltOn c = true) (h : s.fb (Fld.FLT_CH_STAT_SETTLED c) = true) :
    Runs (.stepDetected c) s fun t => t.f (Fld.FLT_CH_STAT_SETTLED c) = 0 ∧
      t.f (Fld.FLT_CH_CNT_STEPS c) = min (s.f (Fld.FLT_CH_CNT_STEPS c) + 1) 65535 ∧ t.raised Ev.FLT_SETTLE_LOST ∧
      OnlyRaised 32 [Adr.FLT_CH_STAT c, Adr.FLT_CH_CNT c] s t := by
  have wn : (stepCounted s c).regsWf := stepCounted_wf w
  refine Runs.liveIf rfl hp (by rw [decide_eq_true hc, hon]; rfl) ?_
  rw [doStepDetected_settled h]
  refine ⟨?_, ?_, raise_sets wn (by decide) (by decide), (stepCounted_only w hc).raise (e := Ev.FLT_SETTLE_LOST) wn rfl⟩
  · rw [f_raise (e := Ev.FLT_SETTLE_LOST) wn rfl (fltWord_stat hc).not_event, settled_stepCounted w hc]
  · rw [f_raise (e := Ev.FLT_SETTLE_LOST) wn rfl (fltWord_cnt hc).not_event, steps_stepCounted w hc]

theorem runs_settledReturn (hon : s.fltOn c = true) (h : s.fb (Fld.FLT_CH_STAT_STUCK c) = false) :
    Runs (.settledReturn c) s fun t => t.f (Fld.FLT_CH_STAT_SETTLED c) = 1 ∧ OnlyRegs [Adr.FLT_CH_STAT c] s t :=
  Runs.liveIf rfl hp (by rw [decide_eq_true hc, hon, h]; rfl)
    ⟨f_setF_same w (Fld.FLT_CH_STAT_SETTLED c) 1 (by simp) (by simp),
     (OnlyRegs.refl _ s).setF w 1 ((fltWord_stat hc).mem (List.mem_singleton_self _))⟩

theorem runs_stuck (hon : s.fltOn c = true) :
    Runs (.stuck c) s fun t => t.f (Fld.FLT_CH_STAT_STUCK c) = 1 ∧ t.f (Fld.FLT_CH_STAT_SETTLED c) = 0 ∧ t.raised Ev.FLT_STUCK ∧
      OnlyRaised 32 [Adr.FLT_CH_STAT c] s t := by
  have wn : (stuckNoted s c).regsWf := stuckNoted_wf w
  have hrest (h l : Nat) :
      ((stuckNoted s c).raise Ev.FLT_STUCK).f ⟨Adr.FLT_CH_STAT c, h, l⟩ = (stuckNoted s c).f ⟨Adr.FLT_CH_STAT c, h, l⟩ :=
    f_raise (e := Ev.FLT_STUCK) wn rfl (fltWord_stat hc).not_event
  exact Runs.liveIf (t := (stuckNoted s c).raise Ev.FLT_STUCK) rfl hp (by rw [decide_eq_true hc, hon]; rfl)
    ⟨(hrest _ _).trans (stuck_stuckNoted w), (hrest _ _).trans (settled_stuckNoted w), raise_sets wn (by decide) (by decide),
     (stuckNoted_only w hc).raise (e := Ev.FLT_STUCK) wn rfl⟩

theorem runs_stuckClear (h : s.fb (Fld.FLT_CH_STAT_STUCK c) = true) :
    Runs (.stuckClear c) s fun t => t.f (Fld.FLT_CH_STAT_STUCK c) = 0 ∧
      t.flt = { s.flt with ch := setNth s.flt.ch c { s.fltOf c with due := true } } ∧ RegsKept [Adr.FLT_CH_STAT c] s t ∧
      t = { s with regs := t.regs, flt := t.flt } :=
  Runs.liveIf (t := stuckEnded s c) rfl hp (by rw [decide_eq_true hc, h]; rfl)
    ⟨stuck_stuckEnded w, flt_stuckEnded s c, (stuckEnded_writes w hc).kept, stuckEnded_parts s c⟩

end Channels

/-- Settles O37: the stored word takes each of `ORDER` and `RATIO` from the write or from the old word; every other field is taken as
written, and a saturated value written into a register reads back as itself. -/
theorem filterChainFollowsItsRules : Obligations.FilterChainFollowsItsRules :=
  ⟨fun _ _ v hp w hc => ⟨runs_fltCfgWrite_channel hp w v hc, runs_fltCfgWrite_mclk hp w v,
     Runs.liveIf rfl hp (decide_eq_true hc) rfl⟩,
   fun s c hp w hc => ⟨runs_stepDetected_settled hp w hc,
     fun hon h => Runs.liveIf rfl hp (by rw [decide_eq_true hc, hon]; rfl) (doStepDetected_unsettled h),
     runs_settledReturn hp w hc, runs_stuck hp w hc, runs_stuckClear hp w hc, fun bits hon =>
       have h := doFineOutput_shows w hc bits
       Runs.liveIf rfl hp (by rw [decide_eq_true hc, hon]; rfl) ⟨bitsTaken (s.fltOf c) bits, cicTaken (bitsTaken (s.fltOf c) bits),
         rfl, rfl, rfl, rfl, rfl, h.flt, h.fine, h.coarse, h.kept, h.parts⟩⟩⟩

end Sys2Proof.Proofs
end

section
/-! ## CAN bit timing, the transmit queue and the drives

Bit timing, modes, pushes and aborts of a CAN controller (R243–R249), and the rule by which a drive accepts helm frames (R264–R266). The
lemmas about the model's operations stand first, the statements' proofs after them. -/

namespace Sys2Proof.Laws

open Sys2Proof.Machine

/-! ### Lists of controllers and drives -/

/-- A list with one element replaced, read at any place. -/
theorem getD_setNth {α : Type} (l : List α) (n m : Nat) (v d : α) :
    (setNth l n v).getD m d = if m = n ∧ n < l.length then v else l.getD m d := by
  rw [setNth_eq_set, List.getD_eq_getElem?_getD, List.getD_eq_getElem?_getD, List.getElem?_set]
  by_cases hm : n = m
  · subst hm
    by_cases hlen : n < l.length <;> simp [hlen]
  · rw [if_neg hm, if_neg fun h => hm h.1.symm]

theorem length_setNth {α : Type} (l : List α) (n : Nat) (v : α) : (setNth l n v).length = l.length := by
  rw [setNth_eq_set, List.length_set]

/-! ### Words of the controllers (R268) -/

/-- `a` is a word of a controller's page above the header. -/
structure CanWord (a : Nat) : Prop where
  body : 6 < a % 1024
  hi : a < 19456

section CanWord

variable {a : Nat} (h : CanWord a)
include h

theorem CanWord.canon_eq : canon a = a := canon_body h.body

theorem CanWord.mem {l : List Nat} (hl : a ∈ l) : canon a ∈ l := h.canon_eq.symm ▸ hl

theorem CanWord.not_mem {l : List Nat} (hl : a ∉ l) : canon a ∉ l := h.canon_eq.symm ▸ hl

theorem CanWord.not_event (p : Nat) : canon a ∉ evWords p := by
  obtain ⟨hbody, hhi⟩ := h
  rw [canon_body hbody]
  simp only [evWords, hdr, List.mem_cons, List.not_mem_nil, or_false]
  unfold Adr.LGR_CNT_A Adr.LGR_CNT_B Adr.LGR_FLAGS
  omega

end CanWord

section ControllerWords

variable {k : Nat} (hk : k < 8)
include hk

theorem canWord_mode : CanWord (Adr.CAN_MODE k) := by unfold Adr.CAN_MODE; constructor <;> omega
theorem canWord_nbt : CanWord (Adr.CAN_NBT k) := by unfold Adr.CAN_NBT; constructor <;> omega
theorem canWord_dbt : CanWord (Adr.CAN_DBT k) := by unfold Adr.CAN_DBT; constructor <;> omega
theorem canWord_bus : CanWord (Adr.CAN_BUS k) := by unfold Adr.CAN_BUS; constructor <;> omega
theorem canWord_flags : CanWord (Adr.CAN_FLAGS k) := by unfold Adr.CAN_FLAGS; constructor <;> omega
theorem canWord_txq : CanWord (Adr.CAN_TXQ k) := by unfold Adr.CAN_TXQ; constructor <;> omega
theorem canWord_result : CanWord (Adr.CAN_TXW_RESULT k) := by unfold Adr.CAN_TXW_RESULT; constructor <;> omega

theorem canWord_stat {h : Nat} (hh : h < 32) : CanWord (Adr.CAN_TXE_STAT k h) := by
  unfold Adr.CAN_TXE_STAT
  constructor <;> omega

theorem blockPage_can : blockPage (11 + k) = 11 + k := blockPage_own (by omega)

/-- The controllers have the events `TX_DONE` and `TXQ_FULL`. -/
theorem evMask_txDone : 2 ^ 10 &&& evMask (11 + k) = 2 ^ 10 := by
  revert k
  decide

theorem evMask_txqFull : 2 ^ 11 &&& evMask (11 + k) = 2 ^ 11 := by
  revert k
  decide

end ControllerWords

/-! ### A controller's own state -/

theorem canOf_setCan {s : State} {k : Nat} (hlen : k < s.can.length) (x : CanSt) : (s.setCan k x).canOf k = x :=
  (getD_setNth s.can k k x {}).trans (if_pos ⟨rfl, hlen⟩)

theorem canOf_congr {s t : State} (h : t.can = s.can) (k : Nat) : t.canOf k = s.canOf k := by
  unfold State.canOf
  rw [h]

theorem length_setCan (s : State) (k : Nat) (x : CanSt) : (s.setCan k x).can.length = s.can.length := length_setNth _ _ _

theorem can_raise (s : State) (e : Ev) : (s.raise e).can = s.can := by
  rw [raise_parts]

theorem Writes.setCan {l : List Nat} {s t : State} (h : Writes l s t) (k : Nat) (x : CanSt) : Writes l s (t.setCan k x) := h.same rfl rfl rfl

theorem Writes.ok {l : List Nat} {s t : State} (h : Writes l s t) : Writes l s t.ok := h.same rfl rfl rfl

/-! ### Re-evaluation of a controller -/

theorem stat_ne_txq (k h : Nat) : Adr.CAN_TXE_STAT k h ≠ Adr.CAN_TXQ k := by
  unfold Adr.CAN_TXE_STAT Adr.CAN_TXQ
  omega

theorem stat_ne_bus (k h : Nat) : Adr.CAN_TXE_STAT k h ≠ Adr.CAN_BUS k := by
  unfold Adr.CAN_TXE_STAT Adr.CAN_BUS
  omega

/-- The words that re-evaluating controller `k` may change. -/
abbrev kickWords (k : Nat) : List Nat := [Adr.CAN_TXQ k, Adr.CAN_BUS k]

theorem canKick_writes {s : State} {k : Nat} (w : s.regsWf) (hk : k < 8) : Writes (kickWords k) s (s.canKick k) := by
  have hbus := (canWord_bus hk).body
  exact ((((Writes.refl w).setCan k _).setF _ (canWord_txq hk).body (by simp)).setF _ hbus (by simp)).setF _ hbus (by simp)

/-- Of the controllers' own state a re-evaluation sets the attempt in progress of controller `k` alone. -/
theorem can_canKick_ok (s : State) (k : Nat) : ∃ b, (s.canKick k).ok.can = (s.setCan k { s.canOf k with busy := b }).can := ⟨_, rfl⟩

theorem pend_canKick_ok {s : State} {k : Nat} (hlen : k < s.can.length) : ((s.canKick k).ok.canOf k).pend = (s.canOf k).pend := by
  obtain ⟨b, hb⟩ := can_canKick_ok s k
  rw [canOf_congr hb, canOf_setCan hlen]

section Kicked

variable {s : State} (w : s.regsWf) {k : Nat} (hk : k < 8) {a : Nat} (ha : CanWord a) (hq : a ≠ Adr.CAN_TXQ k) (hb : a ≠ Adr.CAN_BUS k)
include w hk ha hq hb

/-- A controller's other words are the same after its re-evaluation. -/
theorem reg_canKick_ok : (s.canKick k).ok.reg a = s.reg a :=
  (canKick_writes w hk).ok.kept a (ha.not_mem (by simp [hq, hb]))

theorem f_canKick_ok (h l : Nat) : (s.canKick k).ok.f ⟨a, h, l⟩ = s.f ⟨a, h, l⟩ :=
  (canKick_writes w hk).ok.field ⟨a, h, l⟩ (ha.not_mem (by simp [hq, hb]))

end Kicked

/-! ### Bit timing (R243) -/

/-- The register that a write of bit timing names. -/
abbrev timingAdr (k : Nat) (data : Bool) : Nat := if data then Adr.CAN_DBT k else Adr.CAN_NBT k

/-- The fields of bit timing that a write carries. -/
abbrev timingWord (data : Bool) (v : Word) : Word := v &&& (if data then 0x1F1F0F0F else 0xFFFF7F7F)

/-- The write would leave the controller with bit timing out of range. -/
abbrev TimingBad (s : State) (k : Nat) (data : Bool) (v : Word) : Prop :=
  let n := if data then (s.reg (Adr.CAN_NBT k)).toNat else (timingWord data v).toNat
  let d := if data then (timingWord data v).toNat else (s.reg (Adr.CAN_DBT k)).toNat
  nomClocks n < 80 ∨ datClocks d < 10 ∨ nomClocks n < datClocks d ∨ bitsOf n 23 16 = 0

theorem doBitTiming_eq (s : State) (k : Nat) (data : Bool) (v : Word) :
    doBitTiming s k data v =
      (if s.f (Fld.CAN_MODE_MODE k) ≠ 0 ∨ s.locked (timingAdr k data) = true then s
        else if TimingBad s k data v then s.setF (Fld.CAN_FLAGS_CFG_REF k) 1 else s.setReg (timingAdr k data) (timingWord data v)).ok := rfl

theorem canWord_timing {k : Nat} (hk : k < 8) (data : Bool) : CanWord (timingAdr k data) := by
  cases data
  · exact canWord_nbt hk
  · exact canWord_dbt hk

section Timing

variable {s : State} {k : Nat} {data : Bool} {v : Word}

theorem doBitTiming_ignored (h : s.f (Fld.CAN_MODE_MODE k) ≠ 0 ∨ s.locked (timingAdr k data) = true) : doBitTiming s k data v = s.ok := by
  rw [doBitTiming_eq, if_pos h]

variable (hm : s.f (Fld.CAN_MODE_MODE k) = 0) (hl : s.locked (timingAdr k data) = false)
include hm hl

/-- The controller is in `OFF` and its page unlocked. -/
theorem timing_open : ¬(s.f (Fld.CAN_MODE_MODE k) ≠ 0 ∨ s.locked (timingAdr k data) = true) :=
  not_or.2 ⟨not_not.2 hm, ne_true_of_eq_false hl⟩

theorem doBitTiming_refused (hb : TimingBad s k data v) : doBitTiming s k data v = (s.setF (Fld.CAN_FLAGS_CFG_REF k) 1).ok := by
  rw [doBitTiming_eq, if_neg (timing_open hm hl), if_pos hb]

theorem doBitTiming_taken (hb : ¬TimingBad s k data v) :
    doBitTiming s k data v = (s.setReg (timingAdr k data) (timingWord data v)).ok := by
  rw [doBitTiming_eq, if_neg (timing_open hm hl), if_neg hb]

end Timing

/-! ### Modes (R244–R246) -/

/-- The word that a write of `CAN_MODE` leaves: on a locked page only the mode is taken. -/
def modeWord (s : State) (k : Nat) (v : Word) : Word :=
  if s.locked (Adr.CAN_MODE k) then (s.reg (Adr.CAN_MODE k) &&& 0xF00) ||| BitVec.ofNat 32 (v.toNat % 4) else v &&& 0xF03

/-- Recovery from bus-off allowed in `t`, where the write of mode `m` in `s` asks for it (R255). -/
def recoveryAllowed (s : State) (k m : Nat) (t : State) : State :=
  if m = 1 ∧ s.f (Fld.CAN_ECNT_STATE k) = 2 then t.setCan k { t.canOf k with recover := true } else t

theorem canEmpty_nil {s : State} {k : Nat} (h : (s.canOf k).pend = []) : s.canEmpty k = s := by
  unfold State.canEmpty
  dsimp only
  rw [h]
  rfl

theorem canCut_nil {s : State} {k : Nat} (h : (s.canOf k).pend = []) : s.canCut k = s := by
  unfold State.canCut
  dsimp only
  rw [h]
  exact ite_self s

/-- With nothing pending a change of mode ends no entry and no attempt. -/
theorem doCanMode_nil {s : State} {k : Nat} (h : (s.canOf k).pend = []) (v : Word) :
    doCanMode s k v = ((recoveryAllowed s k (v.toNat % 4) (s.setReg (Adr.CAN_MODE k) (modeWord s k v))).canKick k).ok := by
  have hstored : ((s.setReg (Adr.CAN_MODE k) (modeWord s k v)).canOf k).pend = [] := h
  have hempty := canEmpty_nil hstored
  have hcut := canCut_nil hstored
  unfold modeWord at hempty hcut
  unfold doCanMode recoveryAllowed modeWord
  dsimp only
  rw [hempty, hcut, ite_self]

theorem mode_modeWord (s : State) (k : Nat) (v : Word) : bitsOf (modeWord s k v).toNat 1 0 = v.toNat % 4 := by
  have hmode (x : Nat) : bitsOf x 1 0 = x % 4 := by simp [bitsOf]
  unfold modeWord
  split
  · rw [bitsOf_or_right (extract_and_zero _ (by decide)), hmode, BitVec.toNat_ofNat]
    omega
  · rw [bitsOf_and_ones _ (by decide), hmode]

theorem recoveryAllowed_writes {l : List Nat} {s t : State} (w : t.regsWf) (k m : Nat) : Writes l t (recoveryAllowed s k m t) := by
  unfold recoveryAllowed
  split
  · exact (Writes.refl w).setCan k _
  · exact Writes.refl w

theorem regs_recoveryAllowed (s : State) (k m : Nat) (t : State) : (recoveryAllowed s k m t).regs = t.regs := by
  unfold recoveryAllowed
  split <;> rfl

/-- What a change of mode does while nothing is pending. -/
structure ModeTaken (k : Nat) (v : Word) (s t : State) : Prop where
  word : t.reg (Adr.CAN_MODE k) = modeWord s k v
  kept : RegsKept [Adr.CAN_MODE k, Adr.CAN_TXQ k, Adr.CAN_BUS k] s t
  mem : MemKept s t

theorem doCanMode_taken {s : State} {k : Nat} (w : s.regsWf) (hk : k < 8) (h : (s.canOf k).pend = []) (v : Word) :
    ModeTaken k v s (doCanMode s k v) := by
  have hstored : Writes [Adr.CAN_MODE k, Adr.CAN_TXQ k, Adr.CAN_BUS k] s (s.setReg (Adr.CAN_MODE k) (modeWord s k v)) :=
    (Writes.refl w).setReg _ (canWord_mode hk).body (by simp)
  have hallowed := hstored.trans (recoveryAllowed_writes (s := s) hstored.wf k (v.toNat % 4))
  have hall := (hallowed.trans ((canKick_writes hallowed.wf hk).mono (by simp))).ok
  rw [doCanMode_nil h]
  refine ⟨?_, hall.kept, hall.mem⟩
  rw [reg_canKick_ok hallowed.wf hk (canWord_mode hk) (by simp) (by simp), reg_congr (regs_recoveryAllowed _ _ _ _), reg_setReg_same w]

/-! ### An entry leaves the queue or enters it (R249) -/

/-- The controller with entry `h` gone. -/
def withoutEntry (x : CanSt) (h : Nat) : CanSt :=
  { x with pend := x.pend.filter fun e => e.handle != h, busy := if x.busy = some h then none else x.busy }

theorem canDrop_eq (s : State) (k h : Nat) : s.canDrop k h = s.setCan k (withoutEntry (s.canOf k) h) := rfl

theorem can_canEnd (s : State) (k h st : Nat) : (s.canEnd k h st).can = (s.canDrop k h).can := can_raise _ _

theorem length_canEnd (s : State) (k h st : Nat) : (s.canEnd k h st).can.length = s.can.length :=
  (congrArg List.length (can_canEnd s k h st)).trans (length_setCan s k _)

theorem canOf_canEnd {s : State} {k : Nat} (hlen : k < s.can.length) (h st : Nat) :
    (s.canEnd k h st).canOf k = withoutEntry (s.canOf k) h :=
  (canOf_congr (can_canEnd s k h st) k).trans (canOf_setCan hlen _)

theorem pend_canQueue {s : State} {k : Nat} (hlen : k < s.can.length) (h : Nat) (f : CanFrame) (helm : Option Nat) :
    ((s.canQueue k h f helm).canOf k).pend = (s.canOf k).pend.filter (fun e => e.handle != h) ++ [⟨h, f, helm, false⟩] := by
  have hd : (s.canDrop k h).canOf k = withoutEntry (s.canOf k) h := canOf_setCan hlen _
  have hlen' : k < (s.canDrop k h).can.length := (length_setCan s k _).symm ▸ hlen
  refine (congrArg CanSt.pend (canOf_setCan hlen' _)).trans ?_
  rw [hd]
  rfl

section Entries

variable {s : State} (w : s.regsWf) {k h : Nat}
include w

theorem canDrop_wf : (s.canDrop k h).regsWf := mk_wf w

theorem canEnd_wf (st : Nat) : (s.canEnd k h st).regsWf := raise_wf (setF_wf (canDrop_wf w) _ _) _

theorem state_canQueue (f : CanFrame) (helm : Option Nat) : (s.canQueue k h f helm).f (Fld.CAN_TXE_STAT_STATE k h) = 1 :=
  f_setF_same (mk_wf (canDrop_wf w)) (Fld.CAN_TXE_STAT_STATE k h) 1 (by simp) (by simp)

variable (hk : k < 8)
include hk

theorem raised_canEnd (st : Nat) : (s.canEnd k h st).raised (Ev.CAN_TX_DONE k) :=
  raise_sets (setF_wf (canDrop_wf w) _ _) (show 10 < 32 by decide) (evMask_txDone hk)

variable (hh : h < 32)
include hh

theorem state_canEnd (st : Nat) : (s.canEnd k h st).f (Fld.CAN_TXE_STAT_STATE k h) = st % 4 := by
  have wd := canDrop_wf (k := k) (h := h) w
  exact (f_raise (e := Ev.CAN_TX_DONE k) (setF_wf wd _ _) (blockPage_can hk) ((canWord_stat hk hh).not_event _)).trans
    (f_setF_same wd (Fld.CAN_TXE_STAT_STATE k h) st (by simp) (by simp))

theorem canQueue_writes (f : CanFrame) (helm : Option Nat) : Writes [Adr.CAN_TXE_STAT k h] s (s.canQueue k h f helm) :=
  (((Writes.refl w).setCan k _).setCan k _).setF 1 (canWord_stat hk hh).body (by simp)

end Entries

/-! ### A push (R248) -/

/-- The handles that are free for software, lowest first. -/
def freeForPush (s : State) (k : Nat) : List Nat :=
  (List.range (32 - (s.reserved k).length)).filter fun h => s.f (Fld.CAN_TXE_STAT_STATE k h) != 1

/-- The refusal of a push by a full queue noted, its event not yet raised. -/
def pushFull (s : State) (k : Nat) : State := (s.setReg (Adr.CAN_TXW_RESULT k) 0x100).setF (Fld.CAN_FLAGS_TXQ_FULL k) 1

/-- The pushed frame with handle `h` in the queue, and told. -/
def pushTaken (s : State) (k h : Nat) : State :=
  (s.setReg (Adr.CAN_TXW_RESULT k) (BitVec.ofNat 32 (2 ^ 31 + h))).canQueue k h (frameOf (s.txw k)) none

theorem handle_lt_of_free {s : State} {k h : Nat} {l : List Nat} (hf : freeForPush s k = h :: l) : h < 32 := by
  have hmem : h ∈ freeForPush s k := hf ▸ List.mem_cons_self
  have hrange := List.mem_range.1 (List.mem_filter.1 hmem).1
  omega

theorem doTxPush_full {s : State} {k : Nat} (hf : freeForPush s k = []) :
    doTxPush s k = ((pushFull s k).raise (Ev.CAN_TXQ_FULL k)).ok := by
  unfold freeForPush at hf
  unfold doTxPush
  dsimp only
  rw [hf]
  rfl

section Push

variable {s : State} {k h : Nat} {l : List Nat} (hf : freeForPush s k = h :: l)
include hf

theorem doTxPush_refused (hc : s.pushCode k (s.txw k) ≠ 0) :
    doTxPush s k = (s.setReg (Adr.CAN_TXW_RESULT k) (BitVec.ofNat 32 (256 * s.pushCode k (s.txw k)))).ok := by
  unfold freeForPush at hf
  unfold doTxPush
  dsimp only
  rw [hf]
  dsimp only
  rw [if_pos hc, Nat.mul_comm]

theorem doTxPush_taken (hc : s.pushCode k (s.txw k) = 0) (hm : s.canMode k ≠ 0) : doTxPush s k = ((pushTaken s k h).canKick k).ok := by
  unfold freeForPush at hf
  unfold doTxPush
  dsimp only
  rw [hf]
  dsimp only
  rw [if_neg (not_not.2 hc), if_neg hm]
  rfl

end Push

section PushFull

variable {s : State} (w : s.regsWf) {k : Nat} (hk : k < 8)
include w

theorem pushFull_wf : (pushFull s k).regsWf := setF_wf (setReg_wf w _ _) _ _

theorem full_pushFull : (pushFull s k).f (Fld.CAN_FLAGS_TXQ_FULL k) = 1 :=
  f_setF_same (setReg_wf w _ _) (Fld.CAN_FLAGS_TXQ_FULL k) 1 (by simp) (by simp)

include hk

theorem pushFull_only : OnlyRegs [Adr.CAN_TXW_RESULT k, Adr.CAN_FLAGS k] s (pushFull s k) :=
  ((OnlyRegs.refl _ s).setReg w _ ((canWord_result hk).mem (by simp))).setF (setReg_wf w _ _) 1 ((canWord_flags hk).mem (by simp))

theorem result_pushFull : (pushFull s k).reg (Adr.CAN_TXW_RESULT k) = 0x100 := by
  have hne : canon (Adr.CAN_TXW_RESULT k) ≠ canon (Adr.CAN_FLAGS k) := by
    rw [(canWord_result hk).canon_eq, (canWord_flags hk).canon_eq]
    simp
  exact (reg_setF_ne (r := Fld.CAN_FLAGS_TXQ_FULL k) (setReg_wf w _ _) 1 hne).trans (reg_setReg_same w _ _)

end PushFull

section PushTaken

variable {s : State} (w : s.regsWf) {k h : Nat} (hk : k < 8) (hh : h < 32)
include w

theorem state_pushTaken : (pushTaken s k h).f (Fld.CAN_TXE_STAT_STATE k h) = 1 := state_canQueue (setReg_wf w _ _) _ _

include hk hh

theorem pushTaken_writes : Writes [Adr.CAN_TXW_RESULT k, Adr.CAN_TXE_STAT k h] s (pushTaken s k h) := by
  have hresult := (Writes.refl w).setReg (l := [Adr.CAN_TXW_RESULT k, Adr.CAN_TXE_STAT k h]) (BitVec.ofNat 32 (2 ^ 31 + h))
    (canWord_result hk).body (by simp)
  exact hresult.trans ((canQueue_writes hresult.wf hk hh _ _).mono (by simp))

theorem result_pushTaken : (pushTaken s k h).reg (Adr.CAN_TXW_RESULT k) = BitVec.ofNat 32 (2 ^ 31 + h) := by
  have hne : Adr.CAN_TXW_RESULT k ∉ [Adr.CAN_TXE_STAT k h] := by
    rw [List.mem_singleton]
    unfold Adr.CAN_TXW_RESULT Adr.CAN_TXE_STAT
    omega
  exact ((canQueue_writes (setReg_wf w _ _) hk hh _ _).kept _ ((canWord_result hk).not_mem hne)).trans (reg_setReg_same w _ _)

end PushTaken

/-! ### An abort (R249) -/

/-- Entry `h` of a controller marked as withdrawn while it is in transmission. -/
def withMarked (x : CanSt) (h : Nat) : CanSt :=
  { x with pend := x.pend.map fun e => if e.handle = h then { e with gone := true } else e }

section Abort

variable {s : State} {k h : Nat}

theorem canAbort_absent (ha : (s.canOf k).pend.any (fun e => e.handle == h) = false) : s.canAbort k h = s := if_pos ha

theorem canAbort_sending (ha : (s.canOf k).pend.any (fun e => e.handle == h) = true) (hb : (s.canOf k).busy = some h) :
    s.canAbort k h = s.setCan k (withMarked (s.canOf k) h) :=
  (if_neg (ne_false_of_eq_true ha)).trans (if_pos hb)

theorem canAbort_waiting (ha : (s.canOf k).pend.any (fun e => e.handle == h) = true) (hb : (s.canOf k).busy ≠ some h) :
    s.canAbort k h = s.canEnd k h 3 :=
  (if_neg (ne_false_of_eq_true ha)).trans (if_neg hb)

end Abort

/-- A controller in which no entry has handle `h` and none is in transmission has nothing to drop. -/
theorem withoutEntry_absent {x : CanSt} {h : Nat} (ha : x.pend.any (fun e => e.handle == h) = false) (hb : x.busy = none) :
    withoutEntry x h = x := by
  have hpend : x.pend.filter (fun e => e.handle != h) = x.pend :=
    List.filter_eq_self.2 fun e he => by simpa using List.any_eq_false.1 ha e he
  unfold withoutEntry
  rw [hpend, hb]
  simp [← hb]

/-- With nothing in transmission an abort drops the entry, if there is one. -/
theorem canOf_canAbort {s : State} {k : Nat} (hlen : k < s.can.length) (hb : (s.canOf k).busy = none) (h : Nat) :
    (s.canAbort k h).canOf k = withoutEntry (s.canOf k) h := by
  cases ha : (s.canOf k).pend.any (fun e => e.handle == h) with
  | false => rw [canAbort_absent ha, withoutEntry_absent ha hb]
  | true => rw [canAbort_waiting ha (by simp [hb]), canOf_canEnd hlen]

theorem length_canAbort (s : State) (k h : Nat) : (s.canAbort k h).can.length = s.can.length := by
  unfold State.canAbort
  dsimp only
  split
  · rfl
  · split
    · exact length_setCan s k _
    · exact length_canEnd s k h 3

/-- The controller with the entries of the handles below `n` gone. -/
def withoutBelow (x : CanSt) (n : Nat) : CanSt := { x with pend := x.pend.filter fun e => decide (n ≤ e.handle) }

theorem withoutBelow_zero (x : CanSt) : withoutBelow x 0 = x := by
  unfold withoutBelow
  simp

theorem withoutBelow_succ {x : CanSt} (hb : x.busy = none) (n : Nat) : withoutEntry (withoutBelow x n) n = withoutBelow x (n + 1) := by
  have hkeep (e : CanTx) : (e.handle != n && decide (n ≤ e.handle)) = decide (n + 1 ≤ e.handle) := by
    rw [Bool.eq_iff_iff, Bool.and_eq_true, bne_iff_ne, decide_eq_true_eq, decide_eq_true_eq]
    omega
  unfold withoutBelow withoutEntry
  simp [hb, List.filter_filter, hkeep]

/-- The aborts of the handles below `n`. -/
abbrev abortBelow (s : State) (k n : Nat) : State := forUp n (fun h t => t.canAbort k h) s

theorem length_abortBelow (s : State) (k n : Nat) : (abortBelow s k n).can.length = s.can.length := by
  induction n with
  | zero => rfl
  | succ n ih => exact (length_canAbort _ k n).trans ih

theorem canOf_abortBelow {s : State} {k : Nat} (hlen : k < s.can.length) (hb : (s.canOf k).busy = none) (n : Nat) :
    (abortBelow s k n).canOf k = withoutBelow (s.canOf k) n := by
  induction n with
  | zero => exact (withoutBelow_zero _).symm
  | succ n ih =>
    have hidle : ((abortBelow s k n).canOf k).busy = none := by rw [ih]; exact hb
    calc (abortBelow s k (n + 1)).canOf k
        = withoutEntry ((abortBelow s k n).canOf k) n := canOf_canAbort ((length_abortBelow s k n).symm ▸ hlen) hidle n
      _ = withoutEntry (withoutBelow (s.canOf k) n) n := by rw [ih]
      _ = withoutBelow (s.canOf k) (n + 1) := withoutBelow_succ hb n

/-! ### The end of an attempt (R249) -/

theorem doTxEnd_of_find {s : State} {k : Nat} {e : CanTx}
    (h : (s.canOf k).pend.find? (fun e => (s.canOf k).busy == some e.handle) = some e) (sent : Bool) (back : Nat) :
    doTxEnd s k sent back = if sent then (s.canSent k e back).canKick k else s.canFail k e := by
  unfold doTxEnd
  dsimp only
  rw [h]

/-! ### What a drive accepts (R264, R266) -/

/-- The frame with identifier `id` is a helm frame for drive `d` of installation `x.inst`. -/
abbrev HelmFor (x : DriveSt) (d id : Nat) : Prop := bitsOf id 25 18 = 0x48 ∧ bitsOf id 17 6 = x.inst ∧ bitsOf id 4 0 = d

/-- The drive with the `STOP` bits of payload `b` obeyed. -/
def stopsTaken (x : DriveSt) (b : List Byte) : DriveSt :=
  { x with ss1 := x.ss1 || bitOf (leAt b 20 1) 0, sto := x.sto || bitOf (leAt b 20 1) 1 }

/-- A tally above top becomes top, and the sequence number is known no more. -/
def topTaken (x : DriveSt) (tally : Nat) : DriveSt := if x.top < tally then { x with top := tally, known := false } else x

/-- How far the sequence number of payload `b` is ahead of the drive's last. -/
def seqAhead (x : DriveSt) (b : List Byte) : Nat := (leAt b 21 1 + 256 - x.lastSeq % 256) % 256

/-- The drive knows a sequence number, and that of payload `b` is not 1 to 127 ahead of it. -/
abbrev SeqOld (x : DriveSt) (b : List Byte) : Prop := x.known = true ∧ ¬(1 ≤ seqAhead x b ∧ seqAhead x b ≤ 127)

section DriveRule

variable {x : DriveSt} {d id : Nat} {b : List Byte} {now : Nat}

theorem driveRule_foreign (h : ¬HelmFor x d id) : driveRule x d id b now = x :=
  if_pos (by rwa [not_and_or, not_and_or] at h)

variable (h : HelmFor x d id)
include h

/-- What the rule does with a helm frame for this drive. -/
theorem driveRule_mine :
    driveRule x d id b now =
      if helmCrcOk b = false then { x with bad := x.bad + 1 }
      else if leAt b 0 4 % 2 ≠ bitsOf id 5 5 then x
      else if leAt b 0 4 < x.top then stopsTaken x b
      else if SeqOld (topTaken (stopsTaken x b) (leAt b 0 4)) b then topTaken (stopsTaken x b) (leAt b 0 4)
      else driveApply (topTaken (stopsTaken x b) (leAt b 0 4)) b (bitsOf id 5 5) now :=
  if_neg (by rwa [← not_and_or, ← not_and_or, not_not])

theorem driveRule_badCrc (hc : helmCrcOk b = false) : driveRule x d id b now = { x with bad := x.bad + 1 } := by
  rw [driveRule_mine h, if_pos hc]

variable (hc : helmCrcOk b = true)
include hc

theorem driveRule_wrongParity (hp : leAt b 0 4 % 2 ≠ bitsOf id 5 5) : driveRule x d id b now = x := by
  rw [driveRule_mine h, if_neg (ne_false_of_eq_true hc), if_pos hp]

variable (hp : leAt b 0 4 % 2 = bitsOf id 5 5)
include hp

theorem driveRule_olderTally (ht : leAt b 0 4 < x.top) : driveRule x d id b now = stopsTaken x b := by
  rw [driveRule_mine h, if_neg (ne_false_of_eq_true hc), if_neg (not_not.2 hp), if_pos ht]

theorem driveRule_oldSeq (ht : leAt b 0 4 = x.top) (hk : x.known = true) (hs : seqAhead x b = 0 ∨ 127 < seqAhead x b) :
    driveRule x d id b now = stopsTaken x b := by
  have hsame : topTaken (stopsTaken x b) (leAt b 0 4) = stopsTaken x b := if_neg (by rw [ht]; exact Nat.lt_irrefl _)
  have hold : SeqOld (stopsTaken x b) b := ⟨hk, show ¬(1 ≤ seqAhead x b ∧ seqAhead x b ≤ 127) by omega⟩
  rw [driveRule_mine h, if_neg (ne_false_of_eq_true hc), if_neg (not_not.2 hp), if_neg (by omega), hsame, if_pos hold]

theorem driveRule_accepted
    (ha : x.top < leAt b 0 4 ∨ (leAt b 0 4 = x.top ∧ (x.known = false ∨ (1 ≤ seqAhead x b ∧ seqAhead x b ≤ 127)))) :
    driveRule x d id b now = driveApply { stopsTaken x b with top := leAt b 0 4 } b (bitsOf id 5 5) now := by
  rw [driveRule_mine h, if_neg (ne_false_of_eq_true hc), if_neg (not_not.2 hp), if_neg (by omega)]
  rcases ha with hnew | ⟨hsame, hseq⟩
  · have htop : topTaken (stopsTaken x b) (leAt b 0 4) = { stopsTaken x b with top := leAt b 0 4, known := false } := if_pos hnew
    rw [htop, if_neg fun hold => Bool.false_ne_true hold.1]
    rfl
  · have htop : topTaken (stopsTaken x b) (leAt b 0 4) = { stopsTaken x b with top := leAt b 0 4 } := by
      rw [hsame]
      exact if_neg (Nat.lt_irrefl x.top)
    have hfresh : ¬SeqOld { stopsTaken x b with top := leAt b 0 4 } b := fun ⟨hknown, hold⟩ =>
      hseq.elim (fun hu => Bool.false_ne_true (hu.symm.trans hknown)) hold
    rw [htop, if_neg hfresh]

end DriveRule

theorem driveOf_setDrive {s : State} {d : Nat} (hlen : d < s.drives.length) (x : DriveSt) : (s.setDrive d x).driveOf d = x :=
  (getD_setNth s.drives d d x {}).trans (if_pos ⟨rfl, hlen⟩)

theorem driveOf_setDrive_ne {s : State} {d e : Nat} (h : e ≠ d) (x : DriveSt) : (s.setDrive d x).driveOf e = s.driveOf e :=
  (getD_setNth s.drives d e x {}).trans (if_neg fun he => h he.1)

theorem exec_driveHelmFrame_none {f : CanFrame} (hf : helmPayload f = none) (d : Nat) (s : State) :
    exec (.driveHelmFrame d f) s = .next s := by
  show execDriveHelmFrame d f s = _
  unfold execDriveHelmFrame
  rw [hf]

theorem exec_driveHelmFrame_some {f : CanFrame} {b : List Byte} (hf : helmPayload f = some b) {d : Nat} (hd : d < 24) (s : State) :
    exec (.driveHelmFrame d f) s = .next (s.setDrive d (driveRule (s.driveOf d) d f.id b s.tim.raw)) := by
  show execDriveHelmFrame d f s = _
  unfold execDriveHelmFrame
  rw [hf]
  exact congrArg Host.Outcome.next (if_pos hd)

end Sys2Proof.Laws

namespace Sys2Proof.Proofs

open Sys2Proof.Machine Sys2Proof.Laws

/-! ### CAN -/

section Controller

variable {s : State} {k : Nat} (hp : s.pwr.on = true) (w : s.regsWf) (hk : k < 8)
include hp w hk

theorem runs_bitTimingWrite (data : Bool) (v : Word) :
    ((s.f (Fld.CAN_MODE_MODE k) ≠ 0 ∨ s.locked (timingAdr k data) = true) → Runs (.bitTimingWrite k data v) s fun t => t = s.ok) ∧
    (s.f (Fld.CAN_MODE_MODE k) = 0 → s.locked (timingAdr k data) = false → TimingBad s k data v →
      Runs (.bitTimingWrite k data v) s fun t => t.f (Fld.CAN_FLAGS_CFG_REF k) = 1 ∧ OnlyRegs [Adr.CAN_FLAGS k] s t) ∧
    (s.f (Fld.CAN_MODE_MODE k) = 0 → s.locked (timingAdr k data) = false → ¬TimingBad s k data v →
      Runs (.bitTimingWrite k data v) s fun t =>
        t.reg (timingAdr k data) = timingWord data v ∧ OnlyRegs [timingAdr k data] s t) := by
  refine ⟨fun h => ?_, fun hm hl hb => ?_, fun hm hl hb => ?_⟩ <;>
    refine Runs.liveIf (t := doBitTiming s k data v) rfl hp (decide_eq_true hk) ?_
  · exact doBitTiming_ignored h
  · rw [doBitTiming_refused hm hl hb]
    exact ⟨(f_ok _ _).trans (f_setF_same w (Fld.CAN_FLAGS_CFG_REF k) 1 (by simp) (by simp)),
      ((OnlyRegs.refl _ s).setF w 1 ((canWord_flags hk).mem (by simp))).ok⟩
  · rw [doBitTiming_taken hm hl hb]
    exact ⟨(reg_ok _ _).trans (reg_setReg_same w _ _),
      ((OnlyRegs.refl _ s).setReg w _ ((canWord_timing hk data).mem (List.mem_singleton_self _))).ok⟩

theorem runs_canModeChange (h : (s.canOf k).pend = []) (v : Word) :
    Runs (.canModeChange k v) s fun t => t.f (Fld.CAN_MODE_MODE k) = v.toNat % 4 ∧
      (s.locked (Adr.CAN_MODE k) = false → t.reg (Adr.CAN_MODE k) = v &&& 0xF03) ∧
      RegsKept [Adr.CAN_MODE k, Adr.CAN_TXQ k, Adr.CAN_BUS k] s t ∧ MemKept s t := by
  obtain ⟨hword, hkept, hmem⟩ := doCanMode_taken w hk h v
  refine Runs.liveIf (t := doCanMode s k v) rfl hp (decide_eq_true hk) ⟨?_, fun hl => ?_, hkept, hmem⟩
  · unfold State.f
    rw [hword, mode_modeWord]
  · rw [hword]
    exact if_neg (ne_true_of_eq_false hl)

theorem runs_txPush_full (hf : freeForPush s k = []) :
    Runs (.txPush k) s fun t => t.reg (Adr.CAN_TXW_RESULT k) = 0x100 ∧ t.f (Fld.CAN_FLAGS_TXQ_FULL k) = 1 ∧
      t.raised (Ev.CAN_TXQ_FULL k) ∧ OnlyRaised (11 + k) [Adr.CAN_TXW_RESULT k, Adr.CAN_FLAGS k] s t := by
  have wf := pushFull_wf (k := k) w
  have hkept := raise_kept (e := Ev.CAN_TXQ_FULL k) wf (blockPage_can hk)
  refine Runs.liveIf (t := doTxPush s k) rfl hp (decide_eq_true hk) ?_
  rw [doTxPush_full hf]
  refine ⟨?_, ?_, raised_ok (raise_sets wf (show 11 < 32 by decide) (evMask_txqFull hk)),
    ((pushFull_only w hk).raise (e := Ev.CAN_TXQ_FULL k) wf (blockPage_can hk)).ok⟩
  · rw [reg_ok, hkept _ ((canWord_result hk).not_event _), result_pushFull w hk]
  · rw [f_ok, hkept.field _ ((canWord_flags hk).not_event _), full_pushFull w]

theorem runs_txPush_refused {h : Nat} {l : List Nat} (hf : freeForPush s k = h :: l) (hc : s.pushCode k (s.txw k) ≠ 0) :
    Runs (.txPush k) s fun t => t.reg (Adr.CAN_TXW_RESULT k) = BitVec.ofNat 32 (256 * s.pushCode k (s.txw k)) ∧
      OnlyRegs [Adr.CAN_TXW_RESULT k] s t := by
  refine Runs.liveIf (t := doTxPush s k) rfl hp (decide_eq_true hk) ?_
  rw [doTxPush_refused hf hc]
  exact ⟨(reg_ok _ _).trans (reg_setReg_same w _ _), ((OnlyRegs.refl _ s).setReg w _ ((canWord_result hk).mem (by simp))).ok⟩

theorem runs_txPush_taken (hlen : k < s.can.length) {h : Nat} {l : List Nat} (hf : freeForPush s k = h :: l)
    (hc : s.pushCode k (s.txw k) = 0) (hm : s.canMode k ≠ 0) :
    Runs (.txPush k) s fun t => t.reg (Adr.CAN_TXW_RESULT k) = BitVec.ofNat 32 (2 ^ 31 + h) ∧ t.f (Fld.CAN_TXE_STAT_STATE k h) = 1 ∧
      (t.canOf k).pend = (s.canOf k).pend.filter (fun e => e.handle != h) ++ [⟨h, frameOf (s.txw k), none, false⟩] ∧
      RegsKept [Adr.CAN_TXW_RESULT k, Adr.CAN_TXE_STAT k h, Adr.CAN_TXQ k, Adr.CAN_BUS k] s t ∧ MemKept s t := by
  have hh := handle_lt_of_free hf
  have hpush := pushTaken_writes w hk hh
  have hall := ((hpush.mono (m := [Adr.CAN_TXW_RESULT k, Adr.CAN_TXE_STAT k h, Adr.CAN_TXQ k, Adr.CAN_BUS k]) (by simp)).trans
    ((canKick_writes hpush.wf hk).mono (by simp))).ok
  have hpend := pend_canQueue (s := s.setReg (Adr.CAN_TXW_RESULT k) (BitVec.ofNat 32 (2 ^ 31 + h))) hlen h (frameOf (s.txw k)) none
  have hlenPush : k < (pushTaken s k h).can.length := by
    show k < (State.setCan _ k _).can.length
    rw [length_setCan, canDrop_eq, length_setCan]
    exact hlen
  refine Runs.liveIf (t := doTxPush s k) rfl hp (decide_eq_true hk) ?_
  rw [doTxPush_taken hf hc hm]
  refine ⟨?_, ?_, (pend_canKick_ok hlenPush).trans hpend, hall.kept, hall.mem⟩
  · rw [reg_canKick_ok hpush.wf hk (canWord_result hk) (by simp) (by simp), result_pushTaken w hk hh]
  · rw [f_canKick_ok hpush.wf hk (canWord_stat hk hh) (stat_ne_txq k h) (stat_ne_bus k h), state_pushTaken w]

section Abort

variable {h : Nat} (hh : h < 32) (ha : (s.canOf k).pend.any (fun e => e.handle == h) = true)
include hh ha

theorem runs_txAbort_waiting (hlen : k < s.can.length) (hb : (s.canOf k).busy ≠ some h) :
    Runs (.txAbort k h) s fun t => t.f (Fld.CAN_TXE_STAT_STATE k h) = 3 ∧ t.raised (Ev.CAN_TX_DONE k) ∧
      (t.canOf k).pend = (s.canOf k).pend.filter fun e => e.handle != h := by
  have we := canEnd_wf (k := k) (h := h) w 3
  refine Runs.liveIf (t := doTxAbort s k h) rfl hp (by rw [decide_eq_true hk, decide_eq_true hh]; rfl) ?_
  unfold doTxAbort
  rw [canAbort_waiting ha hb]
  refine ⟨?_, (canKick_writes we hk).ok.stays _ (raised_canEnd w hk 3), ?_⟩
  · rw [f_canKick_ok we hk (canWord_stat hk hh) (stat_ne_txq k h) (stat_ne_bus k h), state_canEnd w hk hh]
  · refine (pend_canKick_ok ((length_canEnd s k h 3).symm ▸ hlen)).trans ?_
    rw [canOf_canEnd hlen]
    rfl

theorem runs_txAbort_sending (hlen : k < s.can.length) (hb : (s.canOf k).busy = some h) :
    Runs (.txAbort k h) s fun t =>
      (t.canOf k).pend = (s.canOf k).pend.map (fun e => if e.handle = h then { e with gone := true } else e) ∧
      RegsKept [Adr.CAN_TXQ k, Adr.CAN_BUS k] s t := by
  have hmark : Writes (kickWords k) s (s.setCan k (withMarked (s.canOf k) h)) := (Writes.refl w).setCan k _
  refine Runs.liveIf (t := doTxAbort s k h) rfl hp (by rw [decide_eq_true hk, decide_eq_true hh]; rfl) ?_
  unfold doTxAbort
  rw [canAbort_sending ha hb]
  refine ⟨(pend_canKick_ok ((length_setCan s k _).symm ▸ hlen)).trans ?_, (hmark.trans (canKick_writes hmark.wf hk)).ok.kept⟩
  rw [canOf_setCan hlen]
  rfl

end Abort

omit w in
theorem runs_txAbortAll (hlen : k < s.can.length) (hb : (s.canOf k).busy = none) :
    Runs (.txAbortAll k) s fun t =>
      (t.canOf k).pend = (s.canOf k).pend.filter fun e => decide (32 - (s.reserved k).length ≤ e.handle) := by
  refine Runs.liveIf (t := doTxAbortAll s k) rfl hp (decide_eq_true hk) ?_
  refine (pend_canKick_ok ((length_abortBelow s k _).symm ▸ hlen)).trans ?_
  rw [canOf_abortBelow hlen hb]
  rfl

omit w in
theorem runs_txAttemptEnd {e : CanTx} (h : (s.canOf k).pend.find? (fun e => (s.canOf k).busy == some e.handle) = some e) (back : Nat) :
    (Runs (.txAttemptEnd k true back) s fun t => t = (s.canSent k e back).canKick k) ∧
    (Runs (.txAttemptEnd k false back) s fun t => t = s.canFail k e) :=
  ⟨Runs.liveIf rfl hp (decide_eq_true hk) (doTxEnd_of_find h true back),
   Runs.liveIf rfl hp (decide_eq_true hk) (doTxEnd_of_find h false back)⟩

end Controller

/-- Settles O39: every command ends with the controller's re-evaluation, which keeps the queue and all but two words; before it stands
one write of the queue. That a push takes the lowest free handle is log entry 71. -/
theorem canTimingAndTransmission : Obligations.CanTimingAndTransmission :=
  ⟨fun _ _ v hp w hk => ⟨fun data => runs_bitTimingWrite hp w hk data v, fun h => runs_canModeChange hp w hk h v⟩,
   fun _ _ hp w hk hlen => ⟨runs_txPush_full hp w hk, fun _ _ hf hc => runs_txPush_refused hp w hk hf hc,
     fun _ _ hf hc hm => runs_txPush_taken hp w hk hlen hf hc hm,
     fun _ hh ha => ⟨runs_txAbort_waiting hp w hk hh ha hlen, runs_txAbort_sending hp w hk hh ha hlen⟩,
     runs_txAbortAll hp hk hlen, fun _ _ h back => runs_txAttemptEnd hp hk h back⟩⟩

/-! ### Drives -/

theorem runs_driveHelmFrame {s : State} {d : Nat} {f : CanFrame} {b : List Byte} (hd : d < 24) (hlen : d < s.drives.length)
    (hf : helmPayload f = some b) {P : State → Prop}
    (h : ∀ t, t = { s with drives := t.drives } → t.driveOf d = driveRule (s.driveOf d) d f.id b s.tim.raw →
      (∀ e, e ≠ d → t.driveOf e = s.driveOf e) → P t) : Runs (.driveHelmFrame d f) s P :=
  ⟨_, exec_driveHelmFrame_some hf hd s, h _ rfl (driveOf_setDrive hlen _) fun _ he => driveOf_setDrive_ne he _⟩

/-- Settles O41: the frame's payload goes through the acceptance rule, case by case; the hold timeout (log entry 73) and
the reset set the drive's record. -/
theorem driveAcceptanceRule : Obligations.DriveAcceptanceRule := by
  refine ⟨fun s d f hd hlen => ⟨fun hf => ⟨s, exec_driveHelmFrame_none hf d s, rfl⟩, fun b hf => ?_⟩, fun s d hd => ⟨?_, ?_⟩⟩
  · refine runs_driveHelmFrame hd hlen hf fun t hparts hrule hothers => ⟨hparts, ?_⟩
    dsimp only
    rw [hrule]
    have hstop (n : Nat) : (n != 0) = decide (n ≠ 0) := by rw [Bool.eq_iff_iff, bne_iff_ne, decide_eq_true_eq]
    refine ⟨hothers, driveRule_foreign, driveRule_badCrc, driveRule_wrongParity, driveRule_olderTally, driveRule_oldSeq,
      fun hmine hcrc hparity ha => (driveRule_accepted hmine hcrc hparity ha).trans ?_⟩
    unfold driveApply stopsTaken
    rw [hstop]
  · exact ⟨_, congrArg Host.Outcome.next (if_pos hd), rfl⟩
  · exact ⟨_, congrArg Host.Outcome.next (if_pos hd), rfl⟩

end Sys2Proof.Proofs
end

section
/-! ## Diagnostic failures of the safety functions

The statement of *Safe stop and torque removal* on failures: every diagnostic failure de-energises the lines and enters `STO` (R286, R288,
R289, R296, R297), and so does the end of `TMAX` (R293). The lemmas about the model's operations stand first, the statement's proof after
them. -/

namespace Sys2Proof.Laws

open Sys2Proof.Machine

/-- What holds at the start and is carried over each index holds after all of them. -/
theorem forUp_induct {σ : Type} {P : Nat → σ → Prop} {f : Nat → σ → σ} {s : σ} (h0 : P 0 s) (hstep : ∀ i t, P i t → P (i + 1) (f i t))
    (n : Nat) : P n (forUp n f s) := by
  induction n with
  | zero => exact h0
  | succ n ih => exact hstep n _ ih

theorem runs_imp {c : Instr} {s : State} {P Q : State → Prop} (h : Runs c s P) (hpq : ∀ t, P t → Q t) : Runs c s Q := by
  obtain ⟨t, he, ht⟩ := h
  exact ⟨t, he, hpq t ht⟩

theorem bitOf_eq_bitsOf (x i : Nat) : bitOf x i = (bitsOf x i i == 1) := by
  rw [bitsOf_one, bitOf]

theorem bitOf_two_pow_ne {i j : Nat} (h : i ≠ j) : bitOf (2 ^ i) j = false := by
  have e : bitOf (2 ^ i) j = (2 ^ i).testBit j := (Nat.testBit_eq_decide_div_mod_eq ..).symm
  rw [e, Nat.testBit_two_pow_of_ne h]

theorem bitOf_zero (i : Nat) : bitOf 0 i = false := by
  unfold bitOf
  rw [Nat.zero_div]
  rfl

theorem bitOf_or_self (x i : Nat) : bitOf (x ||| 2 ^ i) i = true := by
  rw [bitOf_or, bitOf_two_pow, Bool.or_true]

/-! ### The block's own state beside its registers -/

theorem saf_raise (s : State) (e : Ev) : (s.raise e).saf = s.saf := by
  rw [raise_parts]

theorem saf_stick (s : State) (c flag : RF) (n : Nat) : (s.stick c flag n).saf = s.saf := by
  rw [stick_parts]

theorem saf_fioFault (s : State) : s.fioFault.saf = s.saf := by
  unfold State.fioFault
  dsimp only
  split
  · rw [saf_raise, setF_saf]
  · rw [setF_saf]

theorem saf_lineOut (s : State) : s.lineOut.saf = s.saf := by
  unfold State.lineOut
  split
  · rw [saf_fioFault, setF_saf]
  · rfl

theorem saf_stepOn (s : State) : s.stepOn.saf = s.saf := by
  unfold State.stepOn
  dsimp only
  split <;> split <;> simp only [setF_saf]

theorem diagShow_eq (s : State) : ∃ i l, s.diagShow = (s.setF Fld.SAF_DIAG_INPUT i).setF Fld.SAF_DIAG_LINE l := ⟨_, _, rfl⟩

theorem saf_diagShow (s : State) : s.diagShow.saf = s.saf := by
  obtain ⟨i, l, he⟩ := diagShow_eq s
  rw [he, setF_saf, setF_saf]

theorem saf_retest (s : State) (ins : Nat) : (s.retest ins).saf = s.saf := by
  unfold State.retest
  split
  · rfl
  · rw [setF_saf, setF_saf]

/-- Setting a field of a header word that is no event word. -/
theorem Writes.setHeaderF {l : List Nat} {s t : State} (h : Writes l s t) {r : RF} (v : Nat) (hc : canon r.a = r.a) (h4 : r.a % 1024 ≠ 4)
    (hr : r.a ∈ l) : Writes l s (t.setF r v) := by
  refine h.trans ⟨setF_wf h.wf r v, fun a ha => reg_setF_ne h.wf v fun e => ha ?_, fun _ => rfl, fun e he => raised_setF h.wf he v ?_⟩
  · rw [e, hc]
    exact hr
  · rw [canon_event, hc]
    unfold hdr
    omega

theorem Writes.withSaf {l : List Nat} {s t : State} (h : Writes l s t) (x : SafSt) : Writes l s { t with saf := x } := h.same rfl rfl rfl

theorem Writes.withFio {l : List Nat} {s t : State} (h : Writes l s t) (x : FioSt) : Writes l s { t with fio := x } := h.same rfl rfl rfl

theorem Writes.askStop {l : List Nat} {s t : State} (h : Writes l s t) (m : Nat) : Writes l s (t.askStop m) := h.same rfl rfl rfl

theorem f_askStop (s : State) (m : Nat) (q : RF) : (s.askStop m).f q = s.f q := f_congr rfl q

theorem raised_askStop {s : State} {e : Ev} (h : s.raised e) (m : Nat) : (s.askStop m).raised e :=
  raised_congr (s := s) (t := s.askStop m) rfl h

theorem saf_askStop (s : State) (m : Nat) : (s.askStop m).saf = s.saf := rfl

theorem stopReq_askStop (s : State) (m : Nat) : (s.askStop m).cle.stopReq = some m := rfl

/-! ### Steps of start-up (R476, R477) -/

theorem stepOn_writes {s : State} (w : s.regsWf) : Writes [Adr.SYS_START] s s.stepOn := by
  have hdone : Writes [Adr.SYS_START] s { s.setF Fld.SYS_START_STEP 4 with frm := { s.frm with startTmo := true } } :=
    ((Writes.refl w).setF _ (by decide) (by decide)).same rfl rfl rfl
  have hends {t : State} (h : Writes [Adr.SYS_START] s t) :
      Writes [Adr.SYS_START] s (if t.f Fld.SYS_START_STEP = 4 ∧ t.running = true then t.setF Fld.SYS_START_STEP 5 else t) := by
    split
    · exact h.setF _ (by decide) (by decide)
    · exact h
  unfold State.stepOn
  refine hends ?_
  split
  · exact hdone
  · exact Writes.refl w

/-! ### Lines (R270, R281, R294) -/

/-- The words that a command of the torque-off lines may change on the field island. -/
abbrev lineWords : List Nat := [Adr.FIO_STATUS, Adr.FIO_DO_CMD] ++ evWords 151

theorem fioFault_writes {s : State} (w : s.regsWf) : Writes lineWords s s.fioFault := by
  have hset := (Writes.refl (l := lineWords) w).setHeaderF (r := Fld.FIO_STATUS_FAULT)
    (b2n (s.fio.low || (s.fio.lost || (List.range 16).any s.judged))) (by decide) (by decide) (by decide)
  unfold State.fioFault
  dsimp only
  split
  · exact hset.raise rfl (by decide)
  · exact hset

theorem lineOut_writes {s : State} (w : s.regsWf) : Writes lineWords s s.lineOut := by
  unfold State.lineOut
  split
  · have hcmd (x : FioSt) (v : Nat) : Writes lineWords s (({ s with fio := x } : State).setF Fld.FIO_DO_CMD_DO v) :=
      ((Writes.refl w).withFio x).setF v (by decide) (by decide)
    exact (hcmd _ _).trans (fioFault_writes (hcmd _ _).wf)
  · exact Writes.refl w

/-- The lines are commanded: what the shepherd core keeps of them, the field `LINES`, the field island. -/
theorem setLines_eq (s : State) (l : Nat) : ∃ x : SafSt, x.tpBad = s.saf.tpBad ∧ x.discBad = s.saf.discBad ∧
    s.setLines l = (({ s with saf := x } : State).setF Fld.SAF_STATE_LINES l).lineOut := by
  refine ⟨_, ?_, ?_, rfl⟩ <;> rfl

theorem state_not_lineWord : canon Adr.SAF_STATE ∉ lineWords := by decide

theorem state_not_event : canon Adr.SAF_STATE ∉ evWords 152 := by decide

theorem setLines_writes {s : State} (w : s.regsWf) (l : Nat) : Writes (Adr.SAF_STATE :: lineWords) s (s.setLines l) := by
  obtain ⟨x, -, -, he⟩ := setLines_eq s l
  have hset : Writes (Adr.SAF_STATE :: lineWords) s (({ s with saf := x } : State).setF Fld.SAF_STATE_LINES l) :=
    ((Writes.refl w).withSaf x).setF l (by decide) (by decide)
  rw [he]
  exact hset.trans ((lineOut_writes hset.wf).mono fun _ => List.mem_cons_of_mem _)

theorem lines_setLines {s : State} (w : s.regsWf) (l : Nat) : (s.setLines l).f Fld.SAF_STATE_LINES = l % 16 := by
  obtain ⟨x, -, -, he⟩ := setLines_eq s l
  rw [he, (lineOut_writes (setF_wf (mk_wf w) _ _)).field _ state_not_lineWord]
  exact f_setF_same (mk_wf w) _ _ (by decide) (by decide)

/-- The other fields of `SAF_STATE` stay when lines are commanded. -/
theorem f_setLines {s : State} (w : s.regsWf) (l : Nat) {hi lo : Nat} (hlo : lo ≤ hi) (hd : hi < 24 ∨ 27 < lo) :
    (s.setLines l).f ⟨Adr.SAF_STATE, hi, lo⟩ = s.f ⟨Adr.SAF_STATE, hi, lo⟩ := by
  obtain ⟨x, -, -, he⟩ := setLines_eq s l
  rw [he, (lineOut_writes (setF_wf (mk_wf w) _ _)).field _ state_not_lineWord]
  exact f_setF_other (mk_wf w) (r := Fld.SAF_STATE_LINES) (q := ⟨Adr.SAF_STATE, hi, lo⟩) l rfl (by decide) (by decide) hlo hd

/-! ### `STO` (R291) -/

/-- The safety functions hold the machine in `STO`: the phase is `STO` and every line is de-energised. -/
structure InSto (t : State) : Prop where
  phase : t.f Fld.SAF_STATE_PHASE = 4
  lines : t.f Fld.SAF_STATE_LINES = 0

theorem InSto.writes {l : List Nat} {s t : State} (h : InSto s) (k : Writes l s t) (hl : Adr.SAF_STATE ∉ l) : InSto t :=
  ⟨(k.field Fld.SAF_STATE_PHASE hl).trans h.phase, (k.field Fld.SAF_STATE_LINES hl).trans h.lines⟩

theorem InSto.stepOn {s : State} (w : s.regsWf) (h : InSto s) : InSto s.stepOn := h.writes (stepOn_writes w) (by decide)

/-- The words that entering `STO` may change. -/
abbrev stoWords : List Nat := Adr.SAF_STATE :: (lineWords ++ evWords 152)

theorem enterSto_again {s : State} (h : s.f Fld.SAF_STATE_PHASE = 4) : s.enterSto = s.setLines 0 := if_pos h

theorem enterSto_first {s : State} (h : s.f Fld.SAF_STATE_PHASE ≠ 4) :
    s.enterSto = (((s.setLines 0).setPhase 4).raise Ev.SAF_STO).askStop 3 := if_neg h

section EnterSto

variable {s : State} (w : s.regsWf)
include w

theorem setLines_stoWrites (l : Nat) : Writes stoWords s (s.setLines l) :=
  (setLines_writes w l).mono fun _ ha => List.mem_append_left (evWords 152) ha

theorem setPhase_stoWrites : Writes stoWords s ((s.setLines 0).setPhase 4) := (setLines_stoWrites w 0).setF _ (by decide) (by decide)

theorem enterSto_writes : Writes stoWords s s.enterSto := by
  by_cases hp : s.f Fld.SAF_STATE_PHASE = 4
  · rw [enterSto_again hp]
    exact setLines_stoWrites w 0
  · rw [enterSto_first hp]
    exact ((setPhase_stoWrites w).raise rfl (by decide)).askStop 3

/-- A field of `SAF_STATE` outside `PHASE` reads after entering `STO` as with the lines de-energised. -/
theorem f_enterSto {hi lo : Nat} (hlo : lo ≤ hi) (hhi : hi < 29) :
    s.enterSto.f ⟨Adr.SAF_STATE, hi, lo⟩ = (s.setLines 0).f ⟨Adr.SAF_STATE, hi, lo⟩ := by
  by_cases hp : s.f Fld.SAF_STATE_PHASE = 4
  · rw [enterSto_again hp]
  · rw [enterSto_first hp, f_askStop, f_raise (setPhase_stoWrites w).wf (e := Ev.SAF_STO) rfl state_not_event]
    exact f_setF_other (setLines_writes w 0).wf (r := Fld.SAF_STATE_PHASE) 4 rfl (by decide) (by decide) hlo (Or.inl hhi)

theorem phase_enterSto : s.enterSto.f Fld.SAF_STATE_PHASE = 4 := by
  by_cases hp : s.f Fld.SAF_STATE_PHASE = 4
  · rw [enterSto_again hp, f_setLines w 0 (by decide) (by decide), hp]
  · rw [enterSto_first hp, f_askStop, f_raise (setPhase_stoWrites w).wf (e := Ev.SAF_STO) rfl state_not_event]
    exact f_setF_same (setLines_writes w 0).wf Fld.SAF_STATE_PHASE 4 (by decide) (by decide)

theorem inSto_enterSto : InSto s.enterSto :=
  ⟨phase_enterSto w, (f_enterSto w (by decide) (by decide)).trans (lines_setLines w 0)⟩

theorem demand_enterSto : s.enterSto.f Fld.SAF_STATE_DEMAND = s.f Fld.SAF_STATE_DEMAND :=
  (f_enterSto w (by decide) (by decide)).trans (f_setLines w 0 (by decide) (by decide))

theorem raised_enterSto (hp : s.f Fld.SAF_STATE_PHASE ≠ 4) : s.enterSto.raised Ev.SAF_STO := by
  rw [enterSto_first hp]
  exact raised_askStop (raise_sets (setPhase_stoWrites w).wf (by decide) (by decide)) 3

end EnterSto

theorem stopReq_enterSto {s : State} (hp : s.f Fld.SAF_STATE_PHASE ≠ 4) : s.enterSto.cle.stopReq = some 3 := by
  rw [enterSto_first hp, stopReq_askStop]

/-! ### The causes of `TP_FAIL` and `DISCREP` (R297) -/

/-- The inputs with `TP_FAIL` and the pairs with `DISCREP`. -/
def inputCauses (s : State) : Nat × Nat := (s.saf.tpBad, s.saf.discBad)

theorem inputCauses_congr {s t : State} (h : t.saf = s.saf) : inputCauses t = inputCauses s := by
  unfold inputCauses
  rw [h]

theorem inputCauses_setLines (s : State) (l : Nat) : inputCauses (s.setLines l) = inputCauses s := by
  obtain ⟨x, htp, hdisc, he⟩ := setLines_eq s l
  unfold inputCauses
  rw [he, saf_lineOut, ← htp, ← hdisc]
  rfl

theorem inputCauses_enterSto (s : State) : inputCauses s.enterSto = inputCauses s := by
  by_cases hp : s.f Fld.SAF_STATE_PHASE = 4
  · rw [enterSto_again hp, inputCauses_setLines]
  · rw [enterSto_first hp, ← inputCauses_setLines s 0]
    exact inputCauses_congr (by rw [saf_askStop, saf_raise, State.setPhase, setF_saf])

/-! ### Demands for STO (R291) -/

/-- A demand of source bit `src` is latched, and a waiting release is dropped. -/
def demandLatched (s : State) (src : Nat) : State :=
  { s.setF Fld.SAF_STATE_DEMAND (s.f Fld.SAF_STATE_DEMAND ||| 2 ^ src) with saf := { s.saf with release := false } }

/-- It is counted and raises `DEMAND`. -/
def demandNoted (s : State) (src : Nat) : State :=
  ((demandLatched s src).stick Fld.SAF_DEMAND_CNT_COUNT Fld.SAF_DEMAND_CNT_SAT 1).raise Ev.SAF_DEMAND

theorem demand_sto (s : State) (src : Nat) : s.demand src true = (demandNoted s src).enterSto := by
  unfold State.demand
  dsimp only
  rw [if_neg fun h => Bool.noConfusion h.1, if_pos rfl]
  rfl

theorem inputCauses_demandNoted (s : State) (src : Nat) : inputCauses (demandNoted s src) = inputCauses s := by
  rw [demandNoted, inputCauses_congr (saf_raise _ _), inputCauses_congr (saf_stick _ _ _ _)]
  rfl

/-- The words that a demand for STO may change. -/
abbrev demandWords : List Nat := Adr.SAF_DEMAND_CNT :: stoWords

section Demand

variable {s : State} (w : s.regsWf)
include w

theorem demandLatched_writes (src : Nat) : Writes demandWords s (demandLatched s src) :=
  ((Writes.refl w).setF _ (by decide) (by decide)).withSaf _

theorem demand_demandLatched {src : Nat} (hsrc : src < 4) :
    (demandLatched s src).f Fld.SAF_STATE_DEMAND = s.f Fld.SAF_STATE_DEMAND ||| 2 ^ src := by
  have hlt : s.f Fld.SAF_STATE_DEMAND ||| 2 ^ src < 2 ^ 4 :=
    Nat.or_lt_two_pow (bitsOf_lt _ 11 8) (Nat.pow_lt_pow_right (by decide) hsrc)
  rw [demandLatched, f_mk, f_setF_same w _ _ (by decide) (by decide)]
  exact Nat.mod_eq_of_lt hlt

theorem demandCounted_writes (src : Nat) : Writes [Adr.SAF_DEMAND_CNT] (demandLatched s src)
    ((demandLatched s src).stick Fld.SAF_DEMAND_CNT_COUNT Fld.SAF_DEMAND_CNT_SAT 1) :=
  (Writes.refl (demandLatched_writes w src).wf).stick 1 (by decide) (by decide)

theorem demandNoted_writes (src : Nat) : Writes demandWords s (demandNoted s src) :=
  ((demandLatched_writes w src).trans ((demandCounted_writes w src).mono (by decide))).raise rfl (by decide)

theorem demand_demandNoted {src : Nat} (hsrc : src < 4) :
    (demandNoted s src).f Fld.SAF_STATE_DEMAND = s.f Fld.SAF_STATE_DEMAND ||| 2 ^ src := by
  rw [demandNoted, f_raise (demandCounted_writes w src).wf (e := Ev.SAF_DEMAND) rfl state_not_event,
    (demandCounted_writes w src).field _ (by decide), demand_demandLatched w hsrc]

theorem demand_writes (src : Nat) : Writes demandWords s (s.demand src true) := by
  have hnoted := demandNoted_writes w src
  rw [demand_sto]
  exact hnoted.trans ((enterSto_writes hnoted.wf).mono fun _ => List.mem_cons_of_mem _)

theorem inSto_demand (src : Nat) : InSto (s.demand src true) := by
  rw [demand_sto]
  exact inSto_enterSto (demandNoted_writes w src).wf

end Demand

/-! ### Diagnostic failures (R297) -/

/-- The failure of bit `b` stands in `SAF_DIAG` and raises `DIAG_FAIL`. -/
def failureNoted (s : State) (b : Nat) : State :=
  (s.setReg Adr.SAF_DIAG (s.reg Adr.SAF_DIAG ||| BitVec.ofNat 32 (2 ^ b))).diagShow.raise Ev.SAF_DIAG_FAIL

theorem diagFail_eq (s : State) (b : Nat) : s.diagFail b = ((failureNoted s b).setLines 0).demand 3 true := rfl

/-- The words that a diagnostic failure may change. -/
abbrev failWords : List Nat := Adr.SAF_DIAG :: demandWords

theorem inputCauses_diagFail (s : State) (b : Nat) : inputCauses (s.diagFail b) = inputCauses s := by
  rw [diagFail_eq, demand_sto, inputCauses_enterSto, inputCauses_demandNoted, inputCauses_setLines]
  exact inputCauses_congr (by rw [failureNoted, saf_raise, saf_diagShow, setReg_saf])

section DiagFail

variable {s : State} (w : s.regsWf)
include w

theorem diagShow_writes : Writes [Adr.SAF_DIAG] s s.diagShow := by
  obtain ⟨i, l, he⟩ := diagShow_eq s
  rw [he]
  exact ((Writes.refl w).setF _ (by decide) (by decide)).setF _ (by decide) (by decide)

/-- The failures' own bits stay when `INPUT` and `LINE` follow their causes. -/
theorem f_diagShow {b : Nat} (hb : b < 7) : s.diagShow.f ⟨Adr.SAF_DIAG, b, b⟩ = s.f ⟨Adr.SAF_DIAG, b, b⟩ := by
  obtain ⟨i, l, he⟩ := diagShow_eq s
  rw [he]
  exact (f_setF_other (setF_wf w _ _) (r := Fld.SAF_DIAG_LINE) (q := ⟨Adr.SAF_DIAG, b, b⟩) l rfl (by decide) (by decide) (Nat.le_refl b)
    (Or.inl (hb.trans (by decide)))).trans (f_setF_other w (r := Fld.SAF_DIAG_INPUT) (q := ⟨Adr.SAF_DIAG, b, b⟩) i rfl (by decide)
    (by decide) (Nat.le_refl b) (Or.inl (hb.trans (by decide))))

theorem failureShown_writes (b : Nat) :
    Writes failWords s (s.setReg Adr.SAF_DIAG (s.reg Adr.SAF_DIAG ||| BitVec.ofNat 32 (2 ^ b))).diagShow := by
  have hset := (Writes.refl (l := failWords) w).setReg (s.reg Adr.SAF_DIAG ||| BitVec.ofNat 32 (2 ^ b)) (a := Adr.SAF_DIAG)
    (by decide) (by decide)
  exact hset.trans ((diagShow_writes hset.wf).mono (by decide))

theorem failureNoted_writes (b : Nat) : Writes failWords s (failureNoted s b) := (failureShown_writes w b).raise rfl (by decide)

theorem failureBit_failureNoted {b : Nat} (hb : b < 7) : (failureNoted s b).f ⟨Adr.SAF_DIAG, b, b⟩ = 1 := by
  have hset := setReg_wf w Adr.SAF_DIAG (s.reg Adr.SAF_DIAG ||| BitVec.ofNat 32 (2 ^ b))
  have hbit : bitOf (s.reg Adr.SAF_DIAG ||| BitVec.ofNat 32 (2 ^ b)).toNat b = true := by
    rw [BitVec.toNat_or, BitVec.toNat_ofNat, Nat.mod_eq_of_lt (Nat.pow_lt_pow_right (by decide) (by omega)), bitOf_or_self]
  rw [bitOf_eq_bitsOf, beq_iff_eq] at hbit
  calc (failureNoted s b).f ⟨Adr.SAF_DIAG, b, b⟩
      = _ := f_raise (failureShown_writes w b).wf rfl (show canon Adr.SAF_DIAG ∉ evWords 152 by decide)
    _ = _ := f_diagShow hset hb
    _ = bitsOf (s.reg Adr.SAF_DIAG ||| BitVec.ofNat 32 (2 ^ b)).toNat b b := f_setReg_same w _ rfl
    _ = 1 := hbit

/-- After the failure is noted, `SAF_DIAG` is not written again. -/
theorem diagFail_writes_noted (b : Nat) : Writes demandWords (failureNoted s b) (s.diagFail b) := by
  have hoff := setLines_stoWrites (failureNoted_writes w b).wf 0
  rw [diagFail_eq]
  exact (hoff.mono fun _ => List.mem_cons_of_mem _).trans (demand_writes hoff.wf 3)

theorem diagFail_writes (b : Nat) : Writes failWords s (s.diagFail b) :=
  (failureNoted_writes w b).trans ((diagFail_writes_noted w b).mono fun _ => List.mem_cons_of_mem _)

theorem inSto_diagFail (b : Nat) : InSto (s.diagFail b) := inSto_demand (setLines_stoWrites (failureNoted_writes w b).wf 0).wf 3

theorem failureBit_diagFail {b : Nat} (hb : b < 7) : (s.diagFail b).f ⟨Adr.SAF_DIAG, b, b⟩ = 1 :=
  ((diagFail_writes_noted w b).field ⟨Adr.SAF_DIAG, b, b⟩ (show canon Adr.SAF_DIAG ∉ demandWords by decide)).trans (failureBit_failureNoted w hb)

theorem raised_diagFail (b : Nat) : (s.diagFail b).raised Ev.SAF_DIAG_FAIL :=
  (diagFail_writes_noted w b).stays _ (raise_sets (failureShown_writes w b).wf (by decide) (by decide))

theorem demand_diagFail (b : Nat) : bitOf ((s.diagFail b).f Fld.SAF_STATE_DEMAND) 3 = true := by
  have hoff := (setLines_stoWrites (failureNoted_writes w b).wf 0).wf
  rw [diagFail_eq, demand_sto, demand_enterSto (demandNoted_writes hoff 3).wf, demand_demandNoted hoff (by decide), bitOf_or_self]

theorem retest_writes (ins : Nat) : Writes [Adr.SAF_STATE] s (s.retest ins) := by
  unfold State.retest
  split
  · exact Writes.refl w
  · exact ((Writes.refl w).setF _ (by decide) (by decide)).setF _ (by decide) (by decide)

end DiagFail

/-- A failure of bit `b` has occurred: the safety functions are in `STO` and the bit stands. -/
structure Failed (b : Nat) (t : State) : Prop extends InSto t where
  bit : t.f ⟨Adr.SAF_DIAG, b, b⟩ = 1

theorem failed_diagFail {s : State} (w : s.regsWf) {b : Nat} (hb : b < 7) : Failed b (s.diagFail b) :=
  ⟨inSto_diagFail w b, failureBit_diagFail w hb⟩

theorem Failed.stepOn {s : State} (w : s.regsWf) {b : Nat} (h : Failed b s) : Failed b s.stepOn :=
  ⟨h.toInSto.stepOn w, ((stepOn_writes w).field ⟨Adr.SAF_DIAG, b, b⟩ (show canon Adr.SAF_DIAG ∉ [Adr.SYS_START] by decide)).trans h.bit⟩

/-- Failures speak of registers only. -/
theorem Failed.withSaf {t : State} {b : Nat} (h : Failed b t) (x : SafSt) : Failed b { t with saf := x } :=
  ⟨⟨(f_mk _).trans h.phase, (f_mk _).trans h.lines⟩, (f_mk _).trans h.bit⟩

/-! ### Discrepancies and test pulses (R288, R289) -/

theorem discFail_eq (s : State) (p : Nat) :
    s.discFail p = (({ s with saf := { s.saf with discBad := s.saf.discBad ||| 2 ^ p } } : State).retest (3 * 4 ^ p)).diagFail 2 := rfl

theorem tpFail_eq (s : State) (i : Nat) :
    s.tpFail i = (({ s with saf := { s.saf with tpBad := s.saf.tpBad ||| 2 ^ i } } : State).retest (2 ^ i)).diagFail 3 := rfl

theorem inputCauses_discFail (s : State) (p : Nat) : inputCauses (s.discFail p) = (s.saf.tpBad, s.saf.discBad ||| 2 ^ p) := by
  rw [discFail_eq, inputCauses_diagFail, inputCauses_congr (saf_retest _ _)]
  rfl

theorem inputCauses_tpFail (s : State) (i : Nat) : inputCauses (s.tpFail i) = (s.saf.tpBad ||| 2 ^ i, s.saf.discBad) := by
  rw [tpFail_eq, inputCauses_diagFail, inputCauses_congr (saf_retest _ _)]
  rfl

theorem discBad_discFail (s : State) (p : Nat) : (s.discFail p).saf.discBad = s.saf.discBad ||| 2 ^ p :=
  (Prod.mk.inj (inputCauses_discFail s p)).2

theorem tpBad_tpFail (s : State) (i : Nat) : (s.tpFail i).saf.tpBad = s.saf.tpBad ||| 2 ^ i :=
  (Prod.mk.inj (inputCauses_tpFail s i)).1

section InputFailures

variable {s : State} (w : s.regsWf)
include w

theorem discFail_wf (p : Nat) : (s.discFail p).regsWf := (diagFail_writes (retest_writes (mk_wf w) _).wf 2).wf

theorem failed_discFail (p : Nat) : Failed 2 (s.discFail p) := failed_diagFail (retest_writes (mk_wf w) _).wf (by decide)

theorem tpFail_wf (i : Nat) : (s.tpFail i).regsWf := (diagFail_writes (retest_writes (mk_wf w) _).wf 3).wf

theorem failed_tpFail (i : Nat) : Failed 3 (s.tpFail i) := failed_diagFail (retest_writes (mk_wf w) _).wf (by decide)

theorem failed_offFail (k : Nat) : Failed 0 (s.offFail k) := failed_diagFail (mk_wf w) (by decide)

end InputFailures

/-- Input `i` is fed by the pulsing output `tp`. -/
def pulsed (s : State) (tp i : Nat) : Bool := s.fb (Fld.SAF_DI_CFG_EN i) && s.f (Fld.SAF_DI_CFG_TP i) == tp

/-- Input `i` has passed `n` pulses in a row. -/
def passesSet (t : State) (i n : Nat) : State := { t with saf := { t.saf with tpPass := setNth t.saf.tpPass i n } }

/-- What the end of a pulse of `tp` finds of input `i`; the configuration is that of `s`. -/
def pulseJudged (s : State) (tp high i : Nat) (t : State) : State :=
  if pulsed s tp i then
    let u := passesSet t i (if !bitOf high i then min 10 (t.saf.tpPass.getD i 0 + 1) else 0)
    if !bitOf high i || bitOf t.saf.tpBad i then u else u.tpFail i
  else t

theorem exec_testPulse (tp high : Nat) (s : State) :
    exec (.testPulse tp high) s = liveIf (s.safOn && decide (tp < 2)) s (forUp 4 (pulseJudged s tp high) s).stepOn := rfl

section PulseJudged

variable {s t : State} {tp high i : Nat}

theorem pulseJudged_other (h : pulsed s tp i = false) : pulseJudged s tp high i t = t :=
  if_neg (Bool.eq_false_iff.mp h)

theorem pulseJudged_pass (h : pulsed s tp i = true) (hlow : bitOf high i = false) :
    pulseJudged s tp high i t = passesSet t i (min 10 (t.saf.tpPass.getD i 0 + 1)) := by
  simp [pulseJudged, h, hlow]

theorem pulseJudged_known (h : pulsed s tp i = true) (hhigh : bitOf high i = true) (hbad : bitOf t.saf.tpBad i = true) :
    pulseJudged s tp high i t = passesSet t i 0 := by
  simp [pulseJudged, h, hhigh, hbad]

theorem pulseJudged_fail (h : pulsed s tp i = true) (hhigh : bitOf high i = true) (hbad : bitOf t.saf.tpBad i = false) :
    pulseJudged s tp high i t = (passesSet t i 0).tpFail i := by
  simp [pulseJudged, h, hhigh, hbad]

/-- What an input's pulse can bring: nothing that the registers or the causes show, or its failure. -/
theorem pulseJudged_cases (s t : State) (tp high i : Nat) :
    (∃ x, pulseJudged s tp high i t = { t with saf := { t.saf with tpPass := x } }) ∨
    pulseJudged s tp high i t = (passesSet t i 0).tpFail i := by
  by_cases h : pulsed s tp i = true
  · by_cases hhigh : bitOf high i = true
    · by_cases hbad : bitOf t.saf.tpBad i = true
      · exact Or.inl ⟨_, pulseJudged_known h hhigh hbad⟩
      · exact Or.inr (pulseJudged_fail h hhigh (Bool.eq_false_iff.mpr hbad))
    · exact Or.inl ⟨_, pulseJudged_pass h (Bool.eq_false_iff.mpr hhigh)⟩
  · exact Or.inl ⟨_, pulseJudged_other (Bool.eq_false_iff.mpr h)⟩

end PulseJudged

/-- The pulse of the inputs below `n` is judged: input `i`, if it is among them, has failed, and else shows no failure. -/
structure PulseFailure (i n : Nat) (t : State) : Prop where
  wf : t.regsWf
  before : n ≤ i → bitOf t.saf.tpBad i = false
  after : i < n → Failed 3 t ∧ bitOf t.saf.tpBad i = true

theorem PulseFailure.judge {s t : State} {tp high i n : Nat} (hi : pulsed s tp i = true) (hhigh : bitOf high i = true)
    (h : PulseFailure i n t) : PulseFailure i (n + 1) (pulseJudged s tp high n t) := by
  obtain ⟨wf, before, after⟩ := h
  by_cases hn : n = i
  · subst hn
    rw [pulseJudged_fail hi hhigh (before (Nat.le_refl n))]
    have wu : (passesSet t n 0).regsWf := mk_wf wf
    refine ⟨tpFail_wf wu n, fun h => absurd h (Nat.not_succ_le_self n), fun _ => ⟨failed_tpFail wu n, ?_⟩⟩
    rw [tpBad_tpFail, bitOf_or_self]
  · rcases pulseJudged_cases s t tp high n with ⟨x, he⟩ | he
    · rw [he]
      exact ⟨mk_wf wf, fun h => before (by omega), fun h => ⟨(after (by omega)).1.withSaf _, (after (by omega)).2⟩⟩
    · rw [he]
      have wu : (passesSet t n 0).regsWf := mk_wf wf
      have hbad : bitOf ((passesSet t n 0).tpFail n).saf.tpBad i = bitOf t.saf.tpBad i := by
        rw [tpBad_tpFail, bitOf_or, bitOf_two_pow_ne hn, Bool.or_false]
        rfl
      exact ⟨tpFail_wf wu n, fun h => hbad.trans (before (by omega)), fun h => ⟨failed_tpFail wu n, hbad.trans (after (by omega)).2⟩⟩

/-- A pulse that every input follows: the registers stay, and input `i`, if it is among those below `n`, has passed once more. -/
structure PulsePassed (s : State) (i n : Nat) (t : State) : Prop where
  regs : t.regs = s.regs
  length : t.saf.tpPass.length = s.saf.tpPass.length
  passes : t.saf.tpPass.getD i 0 = if i < n then min 10 (s.saf.tpPass.getD i 0 + 1) else s.saf.tpPass.getD i 0

theorem PulsePassed.judge {s t : State} {tp i n : Nat} (hi : pulsed s tp i = true) (hlen : i < s.saf.tpPass.length)
    (h : PulsePassed s i n t) : PulsePassed s i (n + 1) (pulseJudged s tp 0 n t) := by
  obtain ⟨regs, length, passes⟩ := h
  have hlow := bitOf_zero n
  by_cases hn : n = i
  · subst hn
    rw [pulseJudged_pass hi hlow]
    refine ⟨regs, (length_setNth _ _ _).trans length, ?_⟩
    rw [if_neg (Nat.lt_irrefl n)] at passes
    rw [if_pos (Nat.lt_succ_self n), ← passes]
    exact (getD_setNth _ _ _ _ _).trans (if_pos ⟨rfl, length ▸ hlen⟩)
  · have hlt : i < n + 1 ↔ i < n := by omega
    by_cases hp : pulsed s tp n = true
    · rw [pulseJudged_pass hp hlow]
      refine ⟨regs, (length_setNth _ _ _).trans length, ?_⟩
      simp only [hlt]
      exact ((getD_setNth _ _ _ _ _).trans (if_neg fun h => hn h.1.symm)).trans passes
    · rw [pulseJudged_other (Bool.eq_false_iff.mpr hp)]
      refine ⟨regs, length, ?_⟩
      simp only [hlt]
      exact passes

/-! ### Off-tests (R296) -/

/-- The off-test of line `k` is made: it is no longer due, and its time is kept. -/
def offTested (s : State) (k : Nat) : State :=
  { s with saf := { s.saf with otDue := s.saf.otDue &&& (15 - 2 ^ k), otAt := setNth s.saf.otAt k (some s.tim.raw) } }

theorem exec_offTest (k : Nat) (fell : Bool) (s : State) :
    exec (.offTest k fell) s = liveIf (decide (k < 4) && (s.safOn && bitOf s.saf.otDue k)) s
      (if fell then offTested s k else (offTested s k).offFail k) := rfl

/-! ### The end of `TMAX` (R293, R294) -/

/-- No line is held past `TMAX`. -/
theorem ss1Lines_tmax (s : State) (trip : Nat) : s.ss1Lines trip true = (s.setLines 0).enterSto := by
  unfold State.ss1Lines
  simp only [Bool.not_true, Bool.false_and, Bool.and_false, Bool.false_eq_true, if_false, List.foldl_fixed, bitOf_zero,
    show ((List.range 4).any fun _ => false) = false from rfl]

/-- Past `TMAX` every enabled axis counts as stopped. -/
def axesStopped (s : State) : State := s.setF Fld.SAF_STATE_AXIS_STO (s.f Fld.SAF_STATE_AXIS_STO ||| s.axesOf none)

theorem ss1Tmax_eq (s : State) : s.ss1Tmax = ((axesStopped s).setLines 0).enterSto := ss1Lines_tmax (axesStopped s) 0

theorem axesStopped_wf {s : State} (w : s.regsWf) : (axesStopped s).regsWf := setF_wf w _ _

theorem phase_axesStopped {s : State} (w : s.regsWf) : (axesStopped s).f Fld.SAF_STATE_PHASE = s.f Fld.SAF_STATE_PHASE :=
  f_setF_other w (r := Fld.SAF_STATE_AXIS_STO) (q := Fld.SAF_STATE_PHASE) _ rfl (by decide) (by decide) (by decide) (by decide)

end Sys2Proof.Laws

namespace Sys2Proof.Proofs

open Sys2Proof.Machine Sys2Proof.Laws

section Failures

variable {s : State} (hp : s.pwr.on = true) (w : s.regsWf)
include hp w

theorem runs_subbeatOvr (hon : s.safOn = true) : Runs .subbeatOvr s fun t => t = (s.diagFail 4).stepOn ∧ Failed 4 t :=
  Runs.liveIf rfl hp hon ⟨rfl, (failed_diagFail w (by decide)).stepOn (diagFail_writes w 4).wf⟩

theorem runs_discrep {p : Nat} (h2 : p < 2) (hon : s.safOn = true)
    (hpair : ∀ i, i / 2 = p → s.fb (Fld.SAF_DI_CFG_EN i) = true ∧ s.fb (Fld.SAF_DI_CFG_PAIR i) = true) (hne : s.pairAgrees p = false) :
    Runs (.discrep p) s fun t => Failed 2 t ∧ bitOf t.saf.discBad p = true := by
  obtain ⟨hen0, hpr0⟩ := hpair (2 * p) (by omega)
  obtain ⟨hen1, hpr1⟩ := hpair (2 * p + 1) (by omega)
  refine Runs.liveIf rfl hp ?_ ⟨(failed_discFail w p).stepOn (discFail_wf w p), ?_⟩
  · simp [h2, hon, hen0, hpr0, hen1, hpr1, hne]
  · rw [saf_stepOn, discBad_discFail, bitOf_or_self]

theorem runs_testPulse_failed {tp high i : Nat} (h2 : tp < 2) (hon : s.safOn = true) (hi : i < 4) (hpulsed : pulsed s tp i = true)
    (hhigh : bitOf high i = true) (hgood : bitOf s.saf.tpBad i = false) :
    Runs (.testPulse tp high) s fun t => Failed 3 t ∧ bitOf t.saf.tpBad i = true := by
  have hall : PulseFailure i 4 (forUp 4 (pulseJudged s tp high) s) :=
    forUp_induct ⟨w, fun _ => hgood, fun h => absurd h (Nat.not_lt_zero i)⟩ (fun _ _ => PulseFailure.judge hpulsed hhigh) 4
  obtain ⟨hfailed, hbad⟩ := hall.after hi
  refine Runs.liveIf (exec_testPulse tp high s) hp ?_ ⟨hfailed.stepOn hall.wf, ?_⟩
  · rw [hon, decide_eq_true h2, Bool.and_self]
  · rw [saf_stepOn, hbad]

theorem runs_testPulse_passed {tp i : Nat} (h2 : tp < 2) (hon : s.safOn = true) (hi : i < 4) (hlen : i < s.saf.tpPass.length)
    (hpulsed : pulsed s tp i = true) :
    Runs (.testPulse tp 0) s fun t => t.saf.tpPass.getD i 0 = min 10 (s.saf.tpPass.getD i 0 + 1) ∧
      t.f Fld.SAF_STATE_PHASE = s.f Fld.SAF_STATE_PHASE ∧ t.reg Adr.SAF_DIAG = s.reg Adr.SAF_DIAG := by
  have hall : PulsePassed s i 4 (forUp 4 (pulseJudged s tp 0) s) :=
    forUp_induct ⟨rfl, rfl, (if_neg (Nat.not_lt_zero i)).symm⟩ (fun _ _ => PulsePassed.judge hpulsed hlen) 4
  have hstep := stepOn_writes (regsWf_congr hall.regs w)
  refine Runs.liveIf (exec_testPulse tp 0 s) hp ?_ ⟨?_, ?_, ?_⟩
  · rw [hon, decide_eq_true h2, Bool.and_self]
  · rw [saf_stepOn, hall.passes, if_pos hi]
  · rw [hstep.field Fld.SAF_STATE_PHASE (by decide), f_congr hall.regs]
  · rw [hstep.kept Adr.SAF_DIAG (by decide), reg_congr hall.regs]

theorem runs_offTest_failed {k : Nat} (hk : k < 4) (hon : s.safOn = true) (hdue : bitOf s.saf.otDue k = true) :
    Runs (.offTest k false) s fun t => Failed 0 t := by
  refine Runs.liveIf (exec_offTest k false s) hp ?_ ?_
  · rw [hon, hdue, decide_eq_true hk, Bool.and_self, Bool.and_self]
  · rw [if_neg Bool.false_ne_true]
    exact failed_offFail (mk_wf w) k

omit w in
theorem runs_offTest_passed {k : Nat} (hk : k < 4) (hon : s.safOn = true) (hdue : bitOf s.saf.otDue k = true) :
    Runs (.offTest k true) s fun t => t = offTested s k :=
  Runs.liveIf (exec_offTest k true s) hp (by rw [hon, hdue, decide_eq_true hk, Bool.and_self, Bool.and_self]) (if_pos rfl)

theorem runs_ss1Tmax (hon : s.safOn = true) (hphase : s.f Fld.SAF_STATE_PHASE = 3) :
    Runs .ss1Tmax s fun t => InSto t ∧ t.raised Ev.SAF_STO ∧ t.cle.stopReq = some 3 := by
  have hoff := (setLines_writes (axesStopped_wf w) 0).wf
  have hne : ((axesStopped s).setLines 0).f Fld.SAF_STATE_PHASE ≠ 4 := by
    rw [f_setLines (axesStopped_wf w) 0 (by decide) (by decide), phase_axesStopped w, hphase]
    decide
  refine Runs.liveIf rfl hp ?_ ?_
  · rw [hon, hphase]
    rfl
  · rw [ss1Tmax_eq]
    exact ⟨inSto_enterSto hoff, raised_enterSto hoff hne, stopReq_enterSto hne⟩

end Failures

theorem pulsed_of_enabled {s : State} {tp i : Nat} (hen : s.fb (Fld.SAF_DI_CFG_EN i) = true) (htp : s.f (Fld.SAF_DI_CFG_TP i) = tp) :
    pulsed s tp i = true := by
  rw [pulsed, hen, htp, beq_self_eq_true, Bool.and_self]

/-- What every diagnostic failure brings about, whatever the phase. -/
theorem diagFail_enters_sto {s : State} (w : s.regsWf) {b : Nat} (hb : b < 7) :
    (s.diagFail b).f Fld.SAF_STATE_PHASE = 4 ∧ (s.diagFail b).f Fld.SAF_STATE_LINES = 0 ∧
      bitOf ((s.diagFail b).reg Adr.SAF_DIAG).toNat b = true ∧ bitOf ((s.diagFail b).f Fld.SAF_STATE_DEMAND) 3 = true ∧
      (s.diagFail b).raised Ev.SAF_DIAG_FAIL ∧ MemKept s (s.diagFail b) := by
  obtain ⟨⟨hphase, hlines⟩, hbit⟩ := failed_diagFail w hb
  refine ⟨hphase, hlines, ?_, demand_diagFail w b, raised_diagFail w b, (diagFail_writes w b).mem⟩
  rw [bitOf_eq_bitsOf, beq_iff_eq]
  exact hbit

/-- Settles O43: every failure is noted in `SAF_DIAG`, de-energises the lines and demands STO, and after its bit is set nothing writes
`SAF_DIAG`; a test pulse is followed input by input (`forUp_induct`); past `TMAX` no line is held. -/
theorem safetyFailuresEnterSto : Obligations.SafetyFailuresEnterSto := by
  intro s hp w
  refine ⟨fun b hb => diagFail_enters_sto w hb, fun hon => ?_, fun p h2 hon hpair hne => ?_,
    fun tp high i h2 hon hi hen htp hhigh hgood => ?_,
    fun tp i h2 hon hi hlen hen htp => runs_testPulse_passed hp w h2 hon hi hlen (pulsed_of_enabled hen htp),
    fun k hk hon hdue => ⟨runs_offTest_passed hp hk hon hdue, ?_⟩, fun hon hphase => ?_⟩
  · exact runs_imp (runs_subbeatOvr hp w hon) fun t ⟨he, hfailed⟩ => ⟨he, hfailed.phase, hfailed.lines, hfailed.bit⟩
  · exact runs_imp (runs_discrep hp w h2 hon hpair hne) fun t ⟨hfailed, hbad⟩ => ⟨hfailed.phase, hfailed.lines, hfailed.bit, hbad⟩
  · exact runs_imp (runs_testPulse_failed hp w h2 hon hi (pulsed_of_enabled hen htp) hhigh hgood) fun t ⟨hfailed, hbad⟩ =>
      ⟨hfailed.phase, hfailed.lines, hfailed.bit, hbad⟩
  · exact runs_imp (runs_offTest_failed hp w hk hon hdue) fun t hfailed => ⟨hfailed.phase, hfailed.lines, hfailed.bit⟩
  · exact runs_imp (runs_ss1Tmax hp w hon hphase) fun t ⟨hsto, hev, hstop⟩ => ⟨hsto.phase, hsto.lines, hev, hstop⟩

end Sys2Proof.Proofs
end

section
/-! ## Messages of the pair

The first statement of *Pair operation*: the link and the heartbeat (R308–R310), and what the standby receives (R311, R327, R328). The
lemmas about the model's operations stand first, the statement's proof after them. -/

namespace Sys2Proof.Laws

open Sys2Proof.Machine

/-! ### The pair block's own state beside its registers -/

theorem par_raise (s : State) (e : Ev) : (s.raise e).par = s.par := by
  rw [raise_parts]

theorem par_stick (s : State) (c flag : RF) (n : Nat) : (s.stick c flag n).par = s.par := by
  rw [stick_parts]

/-- The partner's last heartbeat is all that its fields depend on. -/
theorem hbAt_congr {s t : State} (h : t.par.hb = s.par.hb) (o n : Nat) : t.hbAt o n = s.hbAt o n := by
  unfold State.hbAt
  rw [h]

theorem pFlag_congr {s t : State} (h : t.par.hb = s.par.hb) (b : Nat) : t.pFlag b = s.pFlag b := by
  unfold State.pFlag
  rw [hbAt_congr h, h]

theorem Writes.withPar {l : List Nat} {s t : State} (h : Writes l s t) (x : ParSt) : Writes l s { t with par := x } := h.same rfl rfl rfl

/-- What assertions bring about writes the ledger's words alone. -/
theorem Writes.ofRings {l : List Nat} {s t : State} (w : s.regsWf) (h : Rings s t) (hl : ∀ a ∈ ringWords, a ∈ l) : Writes l s t := by
  refine ⟨h.wf w, (h.kept w).mono hl, fun a => ?_, fun e he => ⟨h.stays w e.page e.bit he.bit⟩⟩
  rw [h.parts]
  rfl

/-- A counter without a flag stays at its maximum. -/
theorem f_stickN {s : State} (w : s.regsWf) (c : RF) (n : Nat) (hc : c.lo ≤ c.hi) (hh : c.hi < 32) :
    (s.stickN c n).f c = min (s.f c + n) (2 ^ (c.hi + 1 - c.lo) - 1) := by
  have hpos := Nat.two_pow_pos (c.hi + 1 - c.lo)
  exact (f_setF_same w c _ hc hh).trans (Nat.mod_eq_of_lt (by omega))

/-! ### Bytes of a message -/

theorem length_leBytes (n v : Nat) : (leBytes n v).length = n := by
  induction n generalizing v with
  | zero => rfl
  | succ n ih => exact congrArg (· + 1) (ih (v / 256))

theorem ofLe_leBytes (n v : Nat) : ofLe (leBytes n v) = v % 256 ^ n := by
  induction n generalizing v with
  | zero => exact (Nat.mod_one v).symm
  | succ n ih =>
    show v % 256 + 256 * ofLe (leBytes n (v / 256)) = v % 256 ^ (n + 1)
    rw [ih, Nat.pow_succ', Nat.mod_mul]

/-- A number laid down behind `a` is read back there, cut to its bytes. -/
theorem leAt_leBytes (a b : List Byte) (n v : Nat) : leAt (a ++ (leBytes n v ++ b)) a.length n = v % 256 ^ n := by
  unfold leAt
  rw [List.drop_left, List.take_left' (length_leBytes n v), ofLe_leBytes]

/-- A field within `a` does not see what follows. -/
theorem leAt_append_left {a : List Byte} (b : List Byte) {o n : Nat} (h : o + n ≤ a.length) : leAt (a ++ b) o n = leAt a o n := by
  unfold leAt
  rw [List.drop_append_of_le_length (by omega), List.take_append_of_le_length (by rw [List.length_drop]; omega)]

theorem leAt_leBytes_zero (b : List Byte) (n v : Nat) : leAt (leBytes n v ++ b) 0 n = v % 256 ^ n := leAt_leBytes [] b n v

theorem crcRefSteps_lt (n : Nat) {c : Nat} (h : c < 2 ^ 32) : crcRefSteps 0x82F63B78 n c < 2 ^ 32 := by
  induction n generalizing c with
  | zero => exact h
  | succ n ih =>
    refine ih ?_
    unfold crcRefStep
    split
    · exact Nat.xor_lt_two_pow (by omega) (by decide)
    · omega

/-- The CRC of a message fits its four bytes. -/
theorem crc32c_lt (b : List Byte) : crc32c b < 2 ^ 32 :=
  Nat.xor_lt_two_pow (List.foldlRecOn (motive := (· < 2 ^ 32)) b _ (by decide) fun _ hc x _ =>
    crcRefSteps_lt 8 (Nat.xor_lt_two_pow hc (Nat.lt_of_lt_of_le x.isLt (by decide)))) (by decide)

theorem leAt_crc (a b c : List Byte) : leAt (a ++ (leBytes 4 (crc32c c) ++ b)) a.length 4 = crc32c c := by
  rw [leAt_leBytes]
  exact Nat.mod_eq_of_lt (crc32c_lt c)

/-- A message is refused (R309): it is counted. -/
theorem parBad_counts {s : State} (w : s.regsWf) :
    s.parBad.f Fld.PAR_CNT_A_BAD = min (s.f Fld.PAR_CNT_A_BAD + 1) 65535 ∧ OnlyRegs [Adr.PAR_CNT_A, Adr.PAR_FLAGS] s s.parBad :=
  ⟨f_stick w 1 (by decide) (by decide) (by decide), onlyRegs_stick w (OnlyRegs.refl _ s) 1 (by decide) (by decide)⟩

theorem par_parBad (s : State) : s.parBad.par = s.par := par_stick s _ _ 1

/-! ### The link (R308) -/

/-- The link's state after its lanes have become `l`. -/
def linkShown (s : State) (l : List Bool) : State :=
  State.setF { s with par := { s.par with lanes := l } } Fld.PAR_STAT_LINK (l.filter id).length

theorem icvoLane_lost {s : State} {n : Nat} {up : Bool} (h : ((setNth s.par.lanes n up).filter id).length < s.f Fld.PAR_STAT_LINK) :
    s.icvoLane n up = (linkShown s (setNth s.par.lanes n up)).raise Ev.PAR_LINK_DEGRADED := if_pos h

theorem icvoLane_kept {s : State} {n : Nat} {up : Bool} (h : ¬((setNth s.par.lanes n up).filter id).length < s.f Fld.PAR_STAT_LINK) :
    s.icvoLane n up = linkShown s (setNth s.par.lanes n up) := if_neg h

/-- The link shows its `k` lanes `l` in `t`, and a loss is raised. -/
structure LinkTold (l : List Bool) (s t : State) : Prop where
  link : t.f Fld.PAR_STAT_LINK = (l.filter id).length % 4
  par : t.par = { s.par with lanes := l }
  lost : (l.filter id).length < s.f Fld.PAR_STAT_LINK → t.raised Ev.PAR_LINK_DEGRADED
  writes : Writes (evWords 149 ++ [Adr.PAR_STAT]) s t

section Link

variable {s : State} (w : s.regsWf)
include w

theorem linkShown_writes (l : List Bool) : Writes (evWords 149 ++ [Adr.PAR_STAT]) s (linkShown s l) :=
  ((Writes.refl w).withPar _).setF _ (by decide) (by decide)

theorem link_linkShown (l : List Bool) : (linkShown s l).f Fld.PAR_STAT_LINK = (l.filter id).length % 4 :=
  f_setF_same (mk_wf w) _ _ (by decide) (by decide)

theorem icvoLane_tells (n : Nat) (up : Bool) : LinkTold (setNth s.par.lanes n up) s (s.icvoLane n up) := by
  have hw := linkShown_writes w (setNth s.par.lanes n up)
  have hl := link_linkShown w (setNth s.par.lanes n up)
  by_cases h : ((setNth s.par.lanes n up).filter id).length < s.f Fld.PAR_STAT_LINK
  · rw [icvoLane_lost h]
    exact ⟨(f_raise hw.wf rfl (by decide)).trans hl, par_raise _ _, fun _ => raise_sets hw.wf (by decide) (by decide),
      hw.raise rfl (by decide)⟩
  · rw [icvoLane_kept h]
    exact ⟨hl, rfl, fun hlost => absurd hlost h, hw⟩

end Link

/-! ### The heartbeat (R310) -/

theorem role_lt (s : State) : s.role < 4 := bitsOf_lt _ 31 30

/-- A heartbeat is 60 bytes, closed by their CRC. -/
theorem heartbeat_eq (s : State) : ∃ b : List Byte,
    s.heartbeat = b ++ leBytes 4 (crc32c b) ∧ b.length = 60 ∧ leAt b 0 1 = 1 ∧ leAt b 2 1 = s.role := by
  refine ⟨_, rfl, ?_, ?_, ?_⟩
  · simp only [List.length_append, length_leBytes]
  · simp only [List.append_assoc]
    exact leAt_leBytes_zero _ 1 1
  · have hrole : s.role % 256 ^ 1 = s.role := Nat.mod_eq_of_lt (by have := role_lt s; omega)
    simp only [List.append_assoc]
    rw [← List.append_assoc]
    exact (leAt_leBytes (leBytes 1 1 ++ leBytes 1 s.dev.unit) _ 1 s.role).trans hrole

theorem heartbeat_fields (s : State) : s.heartbeat.length = 64 ∧ leAt s.heartbeat 0 1 = 1 ∧ leAt s.heartbeat 2 1 = s.role ∧
    leAt s.heartbeat 60 4 = crc32c (s.heartbeat.take 60) := by
  obtain ⟨b, he, hlen, htype, hrole⟩ := heartbeat_eq s
  rw [he, List.length_append, hlen, length_leBytes, leAt_append_left _ (by omega), leAt_append_left _ (by omega), List.take_left' hlen]
  refine ⟨rfl, htype, hrole, ?_⟩
  rw [← List.append_nil (leBytes 4 (crc32c b)), ← hlen]
  exact leAt_crc b [] b

theorem icvo_sent {s : State} (hlink : s.f Fld.PAR_STAT_LINK ≠ 0) (hs : s.pwr.silent = false) (hm : s.muted = false) (b : List Byte) :
    (s.icvo b).sent = s.sent ++ [⟨.icvo, 0, b⟩] := by
  unfold State.icvo
  rw [if_neg (by rw [hs]; simp [hlink]), send_unmuted hm]

/-- A heartbeat sent leaves over the link; a release passed on goes with it. -/
theorem sendHeartbeat_sent {s : State} (hw : s.works 149 = true) (hb : s.pwr.bootMute = false) :
    s.sendHeartbeat.sent = (s.icvo s.heartbeat).sent := by
  unfold State.sendHeartbeat
  rw [if_neg (by rw [hw, hb]; decide)]
  split <;> rfl

/-- A heartbeat is well formed (R310). -/
abbrev HeartbeatOk (b : List Byte) : Prop := b.length = 64 ∧ leAt b 0 1 = 1 ∧ leAt b 60 4 = crc32c (b.take 60)

theorem doHeartbeat_bad {b : List Byte} (h : ¬HeartbeatOk b) (s : State) (ofs : Int) : doHeartbeat s b ofs = s.parBad :=
  if_pos (by tauto)

/-! ### The beat record (R311) -/

theorem length_slotEntry (s : State) (n : Nat) : (s.slotEntry n).length = 24 := by
  unfold State.slotEntry
  simp only [List.length_append, length_leBytes, zeros, List.length_replicate]

theorem length_slotEntries (s : State) : s.slotEntries.length = 1536 := by
  unfold State.slotEntries
  rw [List.length_flatten, List.map_map, show List.length ∘ s.slotEntry = fun _ => 24 from funext (length_slotEntry s)]
  rfl

/-- A beat record is a header of 60 bytes, the CRC of the rest, and the slot entries. -/
theorem beatRecord_eq (s : State) : ∃ h : List Byte, s.beatRecord = h ++ leBytes 4 (crc32c (h ++ s.slotEntries)) ++ s.slotEntries ∧
    h.length = 60 ∧ leAt h 0 1 = 2 := by
  refine ⟨_, rfl, ?_, ?_⟩
  · simp only [List.length_append, length_leBytes, zeros, List.length_replicate]
  · simp only [List.append_assoc]
    exact leAt_leBytes_zero _ 1 2

/-- A beat record is well formed (R311). -/
abbrev RecordOk (b : List Byte) : Prop := b.length = 1600 ∧ leAt b 0 1 = 2 ∧ leAt b 60 4 = crc32c (b.take 60 ++ b.drop 64)

theorem beatRecord_ok (s : State) : RecordOk s.beatRecord := by
  obtain ⟨h, he, hlen, htype⟩ := beatRecord_eq s
  generalize s.slotEntries = d, length_slotEntries s = hd at he
  have h64 : (h ++ leBytes 4 (crc32c (h ++ d))).length = 64 := by rw [List.length_append, hlen, length_leBytes]
  refine ⟨by rw [he, List.length_append, h64, hd], ?_, ?_⟩
  · rw [he, List.append_assoc, leAt_append_left _ (by omega), htype]
  · rw [he, List.drop_left' h64, List.append_assoc, List.take_left' hlen, ← hlen]
    exact leAt_crc h d (h ++ d)

theorem exec_beatRecordRx_ok {b : List Byte} (h : RecordOk b) (s : State) :
    exec (.beatRecordRx b) s = live s { s with par := { s.par with rcd := b } } := congrArg (live s) (if_neg (by tauto))

theorem exec_beatRecordRx_bad {b : List Byte} (h : ¬RecordOk b) (s : State) : exec (.beatRecordRx b) s = live s s.parBad :=
  congrArg (live s) (if_pos (by tauto))

/-! ### Deltas (R327) -/

/-- A delta is well formed (R327). -/
abbrev DeltaOk (b : List Byte) : Prop :=
  1092 ≤ b.length ∧ b.length ≤ 261956 ∧ leAt b 0 1 = 3 ∧ b.length = 1092 + 256 * leAt b 24 2 ∧
    leAt b (b.length - 4) 4 = crc32c (b.take (b.length - 4))

/-- The reply to the pair block's write of a delta into the staging bank. -/
abbrev deltaWrite (s : State) (b : List Byte) : Reply := s.mWrite 20 (bankAddr (s.f Fld.PAR_SBX_STAGE_BANK) 0) b

/-- A delta stands in the staging bank and its copy begins. -/
def deltaStaged (s : State) (b : List Byte) : State :=
  { (deltaWrite s b).st with par := { (deltaWrite s b).st.par with copy := some b, recDig := s.deltaDigest b } }

/-- What a staged delta shows of the partner (R333). -/
def deltaJudged (t : State) : State :=
  if t.role = 1 ∧ t.par.copy.isSome = true ∧ t.par.hb ≠ [] ∧ t.hbWrong = true then t.partnerWrong else t

theorem exec_deltaRx (b : List Byte) (s : State) : exec (.deltaRx b) s = live s (deltaJudged (s.rxDelta b)) := rfl

theorem deltaJudged_idle {t : State} (h : t.role ≠ 1 ∨ t.par.copy = none) : deltaJudged t = t := by
  refine if_neg fun ⟨hrole, hcopy, _⟩ => ?_
  rcases h with h | h
  · exact h hrole
  · rw [h] at hcopy
    exact Bool.false_ne_true hcopy

theorem deltaJudged_copying {t : State} (h : t.par.copy.isSome = true) :
    deltaJudged t = if t.role = 1 ∧ t.par.hb ≠ [] ∧ t.hbWrong = true then t.partnerWrong else t := by
  simp only [deltaJudged, h, true_and]

section Delta

variable {s : State} {b : List Byte}

theorem rxDelta_bad (h : ¬DeltaOk b) : s.rxDelta b = s.parBad := if_pos (by omega)

theorem rxDelta_foreign (h : DeltaOk b) (hr : s.role ≠ 1) : s.rxDelta b = s := (if_neg (by omega)).trans (if_pos hr)

theorem rxDelta_staged (h : DeltaOk b) (hr : s.role = 1) {q : Nat} (hq : s.par.mirSeq = some q) (hok : (deltaWrite s b).rsp = .okay)
    (hseq : sub32 q (leAt b 4 4) < sub32 (leAt b 8 4) (leAt b 4 4)) : s.rxDelta b = deltaStaged s b := by
  unfold State.rxDelta
  rw [if_neg (by omega), if_neg (show ¬s.f Fld.PAR_STAT_ROLE ≠ 1 from not_not_intro hr), hq]
  exact if_pos ⟨hok, hseq⟩

end Delta

section CopyDone

variable {s : State} {b : List Byte}

theorem exec_deltaCopyDone_idle (h : s.par.copy = none) : exec .deltaCopyDone s = live s s := by
  show execDeltaCopyDone s = _
  unfold execDeltaCopyDone
  rw [h]

theorem exec_deltaCopyDone_copied (h : s.par.copy = some b) (hd : (s.copyDelta b).par.decided = none) :
    exec .deltaCopyDone s = live s (s.copyDelta b) := by
  show execDeltaCopyDone s = _
  unfold execDeltaCopyDone
  rw [h]
  dsimp only
  rw [hd]

theorem exec_deltaCopyDone_decided (h : s.par.copy = some b) {c : Nat} (hd : (s.copyDelta b).par.decided = some c) :
    exec .deltaCopyDone s = live s ((s.copyDelta b).takeover c (c == 3 || c == 4)) := by
  show execDeltaCopyDone s = _
  unfold execDeltaCopyDone
  rw [h]
  dsimp only
  rw [hd]

end CopyDone

/-! ### Resyncs (R328) -/

/-- A bank message is well formed (R328). -/
abbrev BankOk (b : List Byte) : Prop := b.length = 262208 ∧ leAt b 0 1 = 4 ∧ leAt b 60 4 = crc32c (b.take 60 ++ b.drop 64)

/-- The mirror is invalid after a bank out of its turn. -/
def mirrorBroken (s : State) : State :=
  { s.setF Fld.PAR_STAT_MIRROR_VALID 0 with par := { s.par with copy := none, mirSeq := none, rxNext := 0 } }

theorem setF_parts (s : State) (r : RF) (v : Nat) : s.setF r v = { s with regs := (s.setF r v).regs } := rfl

theorem mirrorBroken_parts (s : State) : mirrorBroken s = { s with regs := (mirrorBroken s).regs, par := (mirrorBroken s).par } := by
  unfold mirrorBroken
  rw [setF_parts]

section Bank

variable {s : State} {b : List Byte}

theorem exec_resyncBankRx (b : List Byte) (s : State) : exec (.resyncBankRx b) s = live s (s.rxBank b) := rfl

theorem rxBank_bad (h : ¬BankOk b) : s.rxBank b = s.parBad := if_pos (by tauto)

theorem rxBank_foreign (h : BankOk b) (hr : s.role ≠ 1) : s.rxBank b = s := (if_neg (by tauto)).trans (if_pos hr)

theorem rxBank_outOfTurn (h : BankOk b) (hr : s.role = 1) (hne : leAt b 2 1 ≠ 0) (hturn : leAt b 2 1 ≠ s.par.rxNext) :
    s.rxBank b = mirrorBroken s :=
  (if_neg (by tauto)).trans ((if_neg (not_not_intro hr)).trans (if_pos ⟨hne, hturn⟩))

theorem valid_mirrorBroken (w : s.regsWf) : (mirrorBroken s).f Fld.PAR_STAT_MIRROR_VALID = 0 :=
  (f_mk _).trans (f_setF_same w _ 0 (by decide) (by decide))

theorem mirrorBroken_kept (w : s.regsWf) : RegsKept [Adr.PAR_STAT] s (mirrorBroken s) :=
  (((Writes.refl w).setF (r := Fld.PAR_STAT_MIRROR_VALID) 0 (by decide) (by decide)).withPar _).kept

end Bank

end Sys2Proof.Laws

namespace Sys2Proof.Proofs

open Sys2Proof.Machine Sys2Proof.Laws

/-! ### The link and the heartbeat -/

section Link

variable {s : State} (hp : s.pwr.on = true) (w : s.regsWf)
include hp

include w in
theorem runs_icvoLane {n : Nat} (hn : n < 2) (up : Bool) :
    Runs (if up then .icvoLaneUp n else .icvoLaneDown n) s (LinkTold (setNth s.par.lanes n up) s) :=
  Runs.liveIf (t := s.icvoLane n up) (by cases up <;> rfl) hp (decide_eq_true hn) (icvoLane_tells w n up)

theorem runs_heartbeatFreeSend (hrun : s.running = false) : Runs .heartbeatFreeSend s fun t => t = s.sendHeartbeat ∧
    (s.works 149 = true → s.pwr.bootMute = false → s.f Fld.PAR_STAT_LINK ≠ 0 → s.pwr.silent = false → s.muted = false →
      t.sent = s.sent ++ [⟨.icvo, 0, s.heartbeat⟩]) :=
  Runs.liveIf rfl hp (by rw [hrun]; rfl) ⟨rfl, fun hw hb hlink hs hm => (sendHeartbeat_sent hw hb).trans (icvo_sent hlink hs hm _)⟩

include w in
theorem runs_heartbeatRx_bad {b : List Byte} (h : ¬HeartbeatOk b) (ofs : Int) : Runs (.heartbeatRx b ofs) s fun t =>
    t.f Fld.PAR_CNT_A_BAD = min (s.f Fld.PAR_CNT_A_BAD + 1) 65535 ∧ OnlyRegs [Adr.PAR_CNT_A, Adr.PAR_FLAGS] s t :=
  Runs.live (congrArg (live s) (doHeartbeat_bad h s ofs)) hp (parBad_counts w)

end Link

/-! ### What the standby receives -/

section Messages

variable {s : State} (hp : s.pwr.on = true) {b : List Byte}
include hp

theorem runs_deltaRx_bad (h : ¬DeltaOk b) (hc : s.par.copy = none) : Runs (.deltaRx b) s fun t => t = s.parBad := by
  refine Runs.live (exec_deltaRx b s) hp ?_
  rw [rxDelta_bad h]
  exact deltaJudged_idle (Or.inr ((congrArg ParSt.copy (par_parBad s)).trans hc))

theorem runs_deltaRx_foreign (h : DeltaOk b) (hr : s.role ≠ 1) : Runs (.deltaRx b) s fun t => t = s := by
  refine Runs.live (exec_deltaRx b s) hp ?_
  rw [rxDelta_foreign h hr]
  exact deltaJudged_idle (Or.inl hr)

theorem runs_deltaRx_staged (h : DeltaOk b) (hr : s.role = 1) {q : Nat} (hq : s.par.mirSeq = some q)
    (hok : (deltaWrite s b).rsp = .okay) (hseq : sub32 q (leAt b 4 4) < sub32 (leAt b 8 4) (leAt b 4 4)) :
    Runs (.deltaRx b) s fun t => ∃ u : State, u = deltaStaged s b ∧
      t = if u.role = 1 ∧ u.par.hb ≠ [] ∧ u.hbWrong = true then u.partnerWrong else u := by
  refine Runs.live (exec_deltaRx b s) hp ?_
  rw [rxDelta_staged h hr hq hok hseq]
  exact ⟨_, rfl, deltaJudged_copying rfl⟩

theorem runs_resyncBankRx_outOfTurn (w : s.regsWf) (h : BankOk b) (hr : s.role = 1) (hne : leAt b 2 1 ≠ 0)
    (hturn : leAt b 2 1 ≠ s.par.rxNext) : Runs (.resyncBankRx b) s fun t =>
      t.f Fld.PAR_STAT_MIRROR_VALID = 0 ∧ t.par = { s.par with copy := none, mirSeq := none, rxNext := 0 } ∧
      RegsKept [Adr.PAR_STAT] s t ∧ t = { s with regs := t.regs, par := t.par } :=
  Runs.live ((exec_resyncBankRx b s).trans (congrArg (live s) (rxBank_outOfTurn h hr hne hturn))) hp
    ⟨valid_mirrorBroken w, rfl, mirrorBroken_kept w, mirrorBroken_parts s⟩

end Messages

/-- Settles O45: the heartbeat and the beat record are laid out field by field and closed by their CRC; a message is refused by the first
check it fails, and counted; the delta that continues the mirror is staged, and a bank out of its turn takes the mirror back. -/
theorem pairMessagesAreTaken : Obligations.PairMessagesAreTaken := by
  refine ⟨fun s hp w => ⟨fun n hn up => ?_, runs_heartbeatFreeSend hp, heartbeat_fields s, fun b ofs => ⟨fun h => ?_, fun _ => ?_⟩⟩,
    fun s hp w => ⟨fun u => ?_, fun b h => ?_, fun b h hc => ?_, fun b q hlo hhi htype hlen hcrc => ?_, fun hc => ?_, fun b hb => ?_,
      fun b h => ?_, fun b hlen htype hcrc => ?_, fun hr => ?_, fun hr => ?_⟩⟩
  · exact runs_imp (runs_icvoLane hp w hn up) fun t h => ⟨h.link, h.par, h.lost, h.writes.kept, h.writes.mem⟩
  · exact runs_heartbeatRx_bad hp w h ofs
  · exact Runs.live rfl hp rfl
  · exact Runs.live (exec_beatRecordRx_ok (beatRecord_ok u) s) hp rfl
  · exact Runs.live (exec_beatRecordRx_bad (by tauto) s) hp rfl
  · exact runs_deltaRx_bad hp (by omega) hc
  · have hok : DeltaOk b := ⟨hlo, hhi, htype, hlen, hcrc⟩
    exact ⟨runs_deltaRx_foreign hp hok, fun hr hq hok' hseq => runs_deltaRx_staged hp hok hr hq hok' hseq⟩
  · exact Runs.live (exec_deltaCopyDone_idle hc) hp rfl
  · exact ⟨fun hd => Runs.live (exec_deltaCopyDone_copied hb hd) hp rfl, fun c hd => Runs.live (exec_deltaCopyDone_decided hb hd) hp rfl⟩
  · exact Runs.live (congrArg (live s) (rxBank_bad (by tauto))) hp rfl
  · have hok : BankOk b := ⟨hlen, htype, hcrc⟩
    exact ⟨fun hr => Runs.live (congrArg (live s) (rxBank_foreign hok hr)) hp rfl, runs_resyncBankRx_outOfTurn hp w hok⟩
  · exact Runs.live (congrArg (fun t : State => live s t.ok) (if_pos hr)) hp rfl
  · exact Runs.live (congrArg (fun t : State => live s t.ok) (if_neg (Nat.not_lt.mpr hr))) hp rfl

end Sys2Proof.Proofs
end

section
/-! ## The watch on the partner

The second statement of *Pair operation*: missed beats, the takeover that follows them, toggles and the seek (R313, R331, R332, R335). The
lemmas about the model's operations stand first, the statement's proof after them. -/

namespace Sys2Proof.Laws

open Sys2Proof.Machine

/-- A command that does not apply changes nothing. -/
theorem runs_of_liveIf_false {c : Instr} {s t : State} {b : Bool} (he : exec c s = liveIf b s t) (hb : b = false) :
    Runs c s fun u => u = s := by
  refine ⟨s, ?_, rfl⟩
  rw [he, hb, liveIf, if_neg Bool.false_ne_true, live, ite_self]

/-! ### Changes of role (R313) -/

/-- The words of the CAN controllers that their re-evaluation may change. -/
abbrev kickAllWords : List Nat := (List.range 8).flatMap kickWords

theorem canKickAll_writes {s : State} (w : s.regsWf) : Writes kickAllWords s s.canKickAll := by
  have hstep : 8 ≤ 8 → Writes kickAllWords s s.canKickAll :=
    forUp_induct (P := fun n t => n ≤ 8 → Writes kickAllWords s t) (fun _ => Writes.refl w)
      (fun k t ih hk => (ih (by omega)).trans ((canKick_writes (ih (by omega)).wf hk).mono fun _ ha =>
        List.mem_flatMap.mpr ⟨k, List.mem_range.mpr hk, ha⟩)) 8
  exact hstep (Nat.le_refl 8)

theorem pairRec_rings (s : State) (ty old new cause : Nat) : Rings s (s.pairRec ty old new cause) := Rings.offer s _

theorem pairRec_writes {s : State} (w : s.regsWf) (ty old new cause : Nat) : Writes (evWords 148) s (s.pairRec ty old new cause) :=
  Writes.ofRings w (pairRec_rings s ty old new cause) (by decide)

/-- The new role is shown, with when and why it was taken. -/
def roleShown (s : State) (new cause : Nat) : State :=
  (s.setF Fld.PAR_STAT_ROLE new).setReg Adr.PAR_LAST_TO (BitVec.ofNat 32 (s.frame % 65536 * 65536 + s.beat * 256 + cause))

/-- It is told and recorded. -/
def roleTaken (s : State) (new cause : Nat) : State :=
  ((roleShown s new cause).raise Ev.PAR_ROLE_CHANGED).pairRec 1 s.role new cause

theorem setRole_held {s : State} {new : Nat} (h : s.role = new) (cause : Nat) : s.setRole new cause = s := if_pos h

/-- A unit that comes to command has an empty pending map and no handover announced. -/
def roleBegun (s : State) (new cause : Nat) : State :=
  (if s.role < 2 then (roleTaken s new cause).emptyMap else roleTaken s new cause).noHandover

theorem setRole_commands {s : State} {new : Nat} (h : s.role ≠ new) (h2 : ¬new < 2) (cause : Nat) :
    s.setRole new cause = (roleBegun s new cause).canKickAll := (if_neg h).trans (if_neg h2)

theorem regs_emptyMap (s : State) : s.emptyMap.regs = s.regs := rfl

theorem regs_noHandover (s : State) : s.noHandover.regs = s.regs := rfl

theorem regs_roleBegun (s : State) (new cause : Nat) : (roleBegun s new cause).regs = (roleTaken s new cause).regs := by
  unfold roleBegun
  rw [regs_noHandover]
  split
  · exact regs_emptyMap _
  · rfl

/-- The words that a change of role to `ACTIVE` or `ALONE` may change. -/
abbrev roleWords : List Nat := [Adr.PAR_STAT, Adr.PAR_LAST_TO] ++ evWords 149 ++ evWords 148 ++ kickAllWords

section Role

variable {s : State} (w : s.regsWf) {new : Nat}
include w

theorem roleShown_writes (cause : Nat) : Writes roleWords s (roleShown s new cause) :=
  ((Writes.refl w).setF _ (by decide) (by decide)).setReg _ (by decide) (by decide)

theorem roleTold_writes (cause : Nat) : Writes roleWords s ((roleShown s new cause).raise Ev.PAR_ROLE_CHANGED) :=
  (roleShown_writes w cause).raise rfl (by decide)

theorem roleTaken_writes_told (cause : Nat) :
    Writes (evWords 148) ((roleShown s new cause).raise Ev.PAR_ROLE_CHANGED) (roleTaken s new cause) :=
  pairRec_writes (roleTold_writes w cause).wf 1 s.role new cause

theorem roleTaken_writes (cause : Nat) : Writes roleWords s (roleTaken s new cause) :=
  (roleTold_writes w cause).trans ((roleTaken_writes_told w cause).mono (by decide))

theorem role_roleTaken (h4 : new < 4) (cause : Nat) : (roleTaken s new cause).role = new :=
  calc (roleTaken s new cause).role = ((roleShown s new cause).raise Ev.PAR_ROLE_CHANGED).role :=
        (roleTaken_writes_told w cause).field Fld.PAR_STAT_ROLE (by decide)
    _ = (roleShown s new cause).role := f_raise (roleShown_writes w cause).wf rfl (by decide)
    _ = (s.setF Fld.PAR_STAT_ROLE new).role := f_setReg_ne (setF_wf w _ _) _ (by decide)
    _ = new % 4 := f_setF_same w _ new (by decide) (by decide)
    _ = new := Nat.mod_eq_of_lt h4

theorem roleBegun_writes (cause : Nat) : Writes roleWords s (roleBegun s new cause) := by
  have htaken := roleTaken_writes w (new := new) cause
  unfold roleBegun
  split
  · exact (htaken.withPar _).withPar _
  · exact htaken.withPar _

/-- A unit that comes to command has its new role, whatever it was before. -/
theorem setRole_takes (h2 : 2 ≤ new) (h4 : new < 4) (cause : Nat) :
    (s.setRole new cause).role = new ∧ Writes roleWords s (s.setRole new cause) := by
  by_cases h : s.role = new
  · rw [setRole_held h]
    exact ⟨h, Writes.refl w⟩
  · have hbegun := roleBegun_writes w (new := new) cause
    have hkick := canKickAll_writes hbegun.wf
    rw [setRole_commands h (Nat.not_lt.mpr h2)]
    refine ⟨?_, hbegun.trans (hkick.mono fun _ ha => List.mem_append_right _ ha)⟩
    calc (roleBegun s new cause).canKickAll.role = (roleBegun s new cause).role := hkick.field Fld.PAR_STAT_ROLE (by decide)
      _ = (roleTaken s new cause).role := f_congr (regs_roleBegun s new cause) _
      _ = new := role_roleTaken w h4 cause

/-- An event raised after a change of role leaves the role. -/
theorem setRole_raise (h2 : 2 ≤ new) (h4 : new < 4) (cause : Nat) {e : Ev} (hp : e.page = 149) (hb : e.bit < 12) :
    ((s.setRole new cause).raise e).role = new ∧ ((s.setRole new cause).raise e).raised e ∧ ((s.setRole new cause).raise e).regsWf := by
  obtain ⟨page, bit⟩ := e
  obtain rfl : page = 149 := hp
  obtain ⟨hrole, hw⟩ := setRole_takes w h2 h4 cause
  have hmask : 2 ^ bit &&& evMask 149 = 2 ^ bit := by
    have : ∀ b < 12, 2 ^ b &&& evMask 149 = 2 ^ b := by decide
    exact this bit hb
  have hstat : canon Adr.PAR_STAT ∉ evWords 149 := by decide
  exact ⟨(f_raise hw.wf (e := ⟨149, bit⟩) rfl hstat).trans hrole, raise_sets hw.wf (by omega) hmask, raise_wf hw.wf _⟩

end Role

/-! ### The watch on the partner (R331, R332) -/

/-- The beat counts as missed. -/
abbrev MissCounts (s : State) (helm : Bool) : Prop := s.running = true ∧ s.par.missed = false ∧ s.beatMissed helm = true

/-- A missed beat is counted: in all, and in the run. -/
def missCounted (s : State) : State :=
  (State.stick { s with par := { s.par with missed := true } } Fld.PAR_CNT_A_HB_MISS Fld.PAR_FLAGS_HB_SAT 1).stickN Fld.PAR_DET_MISS_RUN 1

theorem doMissed_idle {s : State} {helm : Bool} (h : ¬MissCounts s helm) : doMissed s helm = s := by
  refine if_pos ?_
  rw [not_and_or, not_and_or, Bool.not_eq_true, Bool.not_eq_false, Bool.not_eq_true] at h
  rw [Bool.or_eq_true, Bool.or_eq_true, Bool.not_eq_true', Bool.not_eq_true']
  exact h

theorem doMissed_counts {s : State} {helm : Bool} (h : MissCounts s helm) :
    doMissed s helm = if (missCounted s).f Fld.PAR_DET_MISS_RUN < s.missLimit then missCounted s
      else if (missCounted s).role = 1 then (missCounted s).takeover 1 false else ((missCounted s).setRole 3 1).raise Ev.PAR_PARTNER_LOST := by
  obtain ⟨hrun, hmissed, hbeat⟩ := h
  exact if_neg (by rw [hrun, hmissed, hbeat]; decide)

section Missed

variable {s : State} (w : s.regsWf)
include w

theorem missNoted_only : OnlyRegs [Adr.PAR_DET, Adr.PAR_CNT_A, Adr.PAR_FLAGS] { s with par := { s.par with missed := true } } (missCounted s) :=
  (onlyRegs_stick (mk_wf w) (OnlyRegs.refl _ _) 1 (by decide) (by decide)).setF (stick_wf (mk_wf w) _ _ _) _ (by decide)

theorem missCounted_kept : RegsKept [Adr.PAR_DET, Adr.PAR_CNT_A, Adr.PAR_FLAGS] s (missCounted s) :=
  fun a ha => ((missNoted_only w).1 a ha).trans (reg_mk a)

omit w in
theorem missCounted_parts : missCounted s = { s with regs := (missCounted s).regs, par := { s.par with missed := true } } := by
  unfold missCounted State.stickN State.setF State.setReg
  rw [stick_parts]

omit w in
theorem par_missCounted : (missCounted s).par = { s.par with missed := true } := congrArg State.par missCounted_parts

theorem missRun_missCounted : (missCounted s).f Fld.PAR_DET_MISS_RUN = min (s.f Fld.PAR_DET_MISS_RUN + 1) 255 := by
  have hstick : (State.stick { s with par := { s.par with missed := true } } Fld.PAR_CNT_A_HB_MISS Fld.PAR_FLAGS_HB_SAT 1).f
      Fld.PAR_DET_MISS_RUN = s.f Fld.PAR_DET_MISS_RUN :=
    ((onlyRegs_stick (l := [Adr.PAR_CNT_A, Adr.PAR_FLAGS]) (mk_wf w) (OnlyRegs.refl _ _) 1 (by decide) (by decide)).1.field _
      (by decide)).trans (f_mk _)
  rw [← hstick]
  exact f_stickN (stick_wf (mk_wf w) _ _ _) _ 1 (by decide) (by decide)

theorem missTotal_missCounted : (missCounted s).f Fld.PAR_CNT_A_HB_MISS = min (s.f Fld.PAR_CNT_A_HB_MISS + 1) 65535 :=
  (f_setF_ne (stick_wf (mk_wf w) _ _ _) _ (by decide)).trans (f_stick (mk_wf w) 1 (by decide) (by decide) (by decide))

theorem role_missCounted : (missCounted s).role = s.role := (missCounted_kept w).field Fld.PAR_STAT_ROLE (by decide)

end Missed

/-! ### Takeover (R335, R341) -/

/-- Nothing of a mismatch keeps the unit from a takeover. -/
abbrev MayTakeOver (s : State) : Prop :=
  s.eligible = true ∨ (s.fb Fld.PAR_STAT_CFG_MISMATCH = false ∧ s.fb Fld.PAR_STAT_LAYOUT_MISMATCH = false ∧ s.fb Fld.PAR_STAT_EPOCH = false)

/-- A takeover ends with the role `ALONE`, its event, its record and its count; what comes before keeps the invariant. -/
theorem takeover_eq {s : State} (hr : s.role = 1) (hc : s.par.copy = none) (h : MayTakeOver s) (cause : Nat) :
    ∃ t, Keeps s t ∧ s.takeover cause false =
      (((t.setRole 3 cause).raise Ev.PAR_TAKEOVER).pairRec 3 1 3 cause).stick Fld.PAR_CNT_B_TAKEOVERS Fld.PAR_FLAGS_TO_SAT 1 := by
  have hgo : ¬(!s.eligible && (s.fb Fld.PAR_STAT_CFG_MISMATCH || (s.fb Fld.PAR_STAT_LAYOUT_MISMATCH || s.fb Fld.PAR_STAT_EPOCH))) = true := by
    rcases h with h | ⟨hcfg, hlayout, hepoch⟩
    · rw [h]
      exact Bool.false_ne_true
    · rw [hcfg, hlayout, hepoch, Bool.or_self, Bool.or_self, Bool.and_false]
      exact Bool.false_ne_true
  generalize hu : s.takeover cause false = u
  unfold State.takeover at hu
  rw [if_neg (not_not_intro hr), if_neg (by rw [hc]; exact Bool.false_ne_true), if_neg hgo] at hu
  extract_lets rcd fresh seen at hu
  have hseen : Keeps s seen := Keeps.ite (keeps_State_loadPair (Keeps.refl s)) (Keeps.refl s)
  have hraise := keeps_State_raiseTally hseen
  split at hu
  rename_i raised ok he
  rw [he] at hraise
  extract_lets restored before noted shown new told at hu
  clear_value fresh
  have hrestored : Keeps s restored := by
    refine Keeps.ite (keeps_State_restoreTakeover hraise) (keeps_State_setF (keeps_State_setReg ?_))
    split
    · exact keeps_State_loadRecord hraise
    · exact hraise
  exact ⟨shown, keeps_State_setF (keeps_State_setF (keeps_State_setF (Keeps.same hrestored))), hu.symm⟩

theorem takeover_commands {s : State} (i : s.Inv) (hr : s.role = 1) (hc : s.par.copy = none) (h : MayTakeOver s) (cause : Nat) :
    (s.takeover cause false).role = 3 ∧ (s.takeover cause false).raised Ev.PAR_TAKEOVER := by
  obtain ⟨t, ht, he⟩ := takeover_eq hr hc h cause
  obtain ⟨hrole, hraised, hwf⟩ := setRole_raise (new := 3) ⟨(ht.2 i).regs⟩ (by decide) (by decide) cause (e := Ev.PAR_TAKEOVER) rfl (by decide)
  have hrec := (pairRec_writes hwf 3 1 3 cause).mono (m := Adr.PAR_CNT_B :: Adr.PAR_FLAGS :: evWords 148) (by decide)
  have hcount := hrec.stick (c := Fld.PAR_CNT_B_TAKEOVERS) (flag := Fld.PAR_FLAGS_TO_SAT) 1 (by decide) (by decide)
  rw [he]
  exact ⟨(hcount.field Fld.PAR_STAT_ROLE (by decide)).trans hrole, hcount.stays _ hraised⟩

/-! ### Seeking (R313) -/

/-- The time to seek has run out for a unit that may command alone (R313). -/
abbrev SeekRipe (s : State) : Prop :=
  s.role = 0 ∧ s.fb Fld.PAR_STAT_EPOCH = false ∧ s.fb Fld.PAR_CFG_ALLOW_ALONE = true ∧ s.par.listened = true ∧ s.hbFresh = false

theorem exec_seekTimeout (s : State) :
    exec .seekTimeout s = liveIf (decide (SeekRipe s)) s ((s.setF Fld.PAR_STAT_PARTNER_ON_CAN 0).goCommand 3) := by
  refine congrArg (fun b => liveIf b s _) ?_
  simp only [SeekRipe, Bool.decide_and, Bool.decide_eq_true, Bool.decide_eq_false]
  rfl

end Sys2Proof.Laws

namespace Sys2Proof.Proofs

open Sys2Proof.Machine Sys2Proof.Laws

section Watch

variable {s : State} (hp : s.pwr.on = true)
include hp

theorem runs_missedBeat_idle {helm : Bool} (h : ¬MissCounts s helm) : Runs (.missedBeat helm) s fun t => t = s :=
  Runs.live rfl hp (doMissed_idle h)

theorem runs_missedBeat_counts (w : s.regsWf) {helm : Bool} (h : MissCounts s helm) :
    let n := min (s.f Fld.PAR_DET_MISS_RUN + 1) 255
    let u := missCounted s
    Runs (.missedBeat helm) s fun t =>
      (n < s.missLimit → t = u) ∧ (s.missLimit ≤ n → s.role = 1 → t = u.takeover 1 false) ∧
        (s.missLimit ≤ n → s.role = 2 → t = (u.setRole 3 1).raise Ev.PAR_PARTNER_LOST ∧ t.role = 3 ∧ t.raised Ev.PAR_PARTNER_LOST) := by
  have hwf : (missCounted s).regsWf := setF_wf (stick_wf (mk_wf w) _ _ _) _ _
  obtain ⟨hrole, hraised, -⟩ := setRole_raise (new := 3) hwf (by decide) (by decide) 1 (e := Ev.PAR_PARTNER_LOST) rfl (by decide)
  refine Runs.live (t := doMissed s helm) rfl hp ?_
  rw [doMissed_counts h, missRun_missCounted w, role_missCounted w]
  refine ⟨fun hlt => if_pos hlt, fun hle h1 => ?_, fun hle h2 => ?_⟩
  · rw [if_neg (Nat.not_lt.mpr hle), if_pos h1]
  · rw [if_neg (Nat.not_lt.mpr hle), if_neg (by omega)]
    exact ⟨rfl, hrole, hraised⟩

theorem runs_pairBeatIToggle (ofs : Int) : Runs (.pairBeatIToggle ofs) s fun t =>
    t.par.togNear = decide (-10000 ≤ ofs ∧ ofs ≤ 10000) ∧ t.par.togNow = (s.par.togNow || decide (0 ≤ ofs ∧ ofs ≤ 20000)) ∧
      t.par.togNext = (s.par.togNext || decide (-20000 ≤ ofs ∧ ofs < 0)) ∧
      t = { s with par := { s.par with togNear := t.par.togNear, togNow := t.par.togNow, togNext := t.par.togNext } } := by
  have hnow : (decide (-20000 ≤ ofs ∧ ofs ≤ 20000) && decide (0 ≤ ofs)) = decide (0 ≤ ofs ∧ ofs ≤ 20000) := by
    rw [← Bool.decide_and]
    exact decide_eq_decide.mpr (by omega)
  have hnext : (decide (-20000 ≤ ofs ∧ ofs ≤ 20000) && decide (ofs < 0)) = decide (-20000 ≤ ofs ∧ ofs < 0) := by
    rw [← Bool.decide_and]
    exact decide_eq_decide.mpr (by omega)
  exact Runs.live rfl hp ⟨rfl, congrArg (s.par.togNow || ·) hnow, congrArg (s.par.togNext || ·) hnext, rfl⟩

end Watch

theorem runs_seekTimeout_idle {s : State} (h : ¬SeekRipe s) : Runs .seekTimeout s fun t => t = s :=
  runs_of_liveIf_false (exec_seekTimeout s) (decide_eq_false h)

/-- Settles O46: what a takeover does before it takes the role keeps the invariant, and taking the role `ALONE` shows it whatever stood
there (`setRole_takes`); the run decides with its counted value. -/
theorem pairWatchAndSeek : Obligations.PairWatchAndSeek := by
  intro s hp i
  have w : s.regsWf := ⟨i.regs⟩
  refine ⟨fun helm => ⟨runs_missedBeat_idle hp, fun h => ?_⟩, fun hr hc h => takeover_commands i hr hc h 1, runs_pairBeatIToggle hp,
    ⟨fun h => Runs.liveIf (exec_seekTimeout s) hp (decide_eq_true h) rfl, runs_seekTimeout_idle⟩, fun h => ?_, fun h => ?_⟩
  · exact runs_imp (runs_missedBeat_counts hp w h) fun t ht => ⟨missCounted s, missRun_missCounted w, missTotal_missCounted w,
      par_missCounted, missCounted_kept w, missCounted_parts.trans (by rw [par_missCounted]), ht⟩
  · exact Runs.liveIf rfl hp (beq_iff_eq.mpr h) rfl
  · exact runs_of_liveIf_false rfl (beq_eq_false_iff_ne.mpr h)

end Sys2Proof.Proofs
end

section
/-! ## Requests to the pair block

The third statement of *Pair operation*: self-detected faults and handovers (R334, R339), flash copies (R329, R408) and re-epoch (R344).
The lemmas about the model's operations stand first, the statement's proof after them. -/

namespace Sys2Proof.Laws

open Sys2Proof.Machine

/-! ### Self-detected faults and handovers (R334, R339) -/

/-- The tally that the partner would need for a handover is past the highest. -/
abbrev TallyLate (s : State) : Prop :=
  tallyTop < raiseTo (max (s.hbAt 16 4) (s.f Fld.PAR_TALLY_TALLY)) (s.hbAt 20 4) (1 - s.dev.unit)

/-- A handover cannot be announced. -/
abbrev HandoverRefused (s : State) : Prop := s.role ≠ 2 ∨ s.pFlag 2 = false ∨ TallyLate s

/-- The edge at which a handover of cause `c` takes place. -/
def handoverEdge (s : State) (c : Nat) : Nat :=
  if c = 4 then s.beatNo + 2 else s.beatNo + 2 + (78 - (s.beatNo + 2) % 40) % 40

theorem announce_refused {s : State} (h : HandoverRefused s) (c : Nat) : s.announce c = s.raise Ev.PAR_HO_REFUSED := if_pos h

/-- A handover at beat `n` is announced with cause `c`. -/
def announced (s : State) (n c : Nat) : State := { s with par := { s.par with ho := some (n, c) } }

theorem announce_taken {s : State} (h : ¬HandoverRefused s) (c : Nat) : s.announce c = announced s (handoverEdge s c) c := if_neg h

theorem announced_ok_writes {s : State} (w : s.regsWf) (n c : Nat) : Writes [] s (announced s n c).ok := ((Writes.refl w).withPar _).ok

/-- A requested handover takes place at a B38 edge. -/
theorem handoverEdge_b38 (s : State) : handoverEdge s 3 % 40 = 38 ∧ s.beatNo + 2 ≤ handoverEdge s 3 ∧ handoverEdge s 3 < s.beatNo + 42 := by
  unfold handoverEdge
  rw [if_neg (by decide)]
  omega

/-- The running number of the beat depends on three words of the time block. -/
theorem beatNo_kept {l : List Nat} {s t : State} (h : RegsKept l s t) (hb : canon Adr.TIM_BEAT_STAT ∉ l)
    (hlo : canon Adr.TIM_FRAME_LO ∉ l) (hhi : canon Adr.TIM_FRAME_HI ∉ l) : t.beatNo = s.beatNo := by
  unfold State.beatNo State.frame State.beat
  rw [regsKept_pair h hlo hhi, h.field _ hb]

/-- A self-detected fault is noted and told. -/
def faultNoted (s : State) : State := (s.setF Fld.PAR_STAT_FAULTY 1).raise Ev.PAR_SELF_FAULT

theorem dev_raise (s : State) (e : Ev) : (s.raise e).dev = s.dev := by
  rw [raise_parts]

theorem par_faultNoted (s : State) : (faultNoted s).par = s.par := by
  rw [faultNoted, par_raise, setF_par]

theorem hb_faultNoted (s : State) : (faultNoted s).par.hb = s.par.hb := congrArg ParSt.hb (par_faultNoted s)

theorem dev_faultNoted (s : State) : (faultNoted s).dev = s.dev := by
  rw [faultNoted, dev_raise, setF_dev]

section Fault

variable {s : State} (w : s.regsWf)
include w

theorem faultNoted_only : OnlyRaised 149 [Adr.PAR_STAT] s (faultNoted s) :=
  ((OnlyRegs.refl _ s).setF w (r := Fld.PAR_STAT_FAULTY) 1 (by decide)).raise (setF_wf w _ _) (e := Ev.PAR_SELF_FAULT) rfl

theorem faultNoted_writes : Writes (evWords 149 ++ [Adr.PAR_STAT]) s (faultNoted s) :=
  ((Writes.refl w).setF _ (by decide) (by decide)).raise rfl (by decide)

theorem faulty_faultNoted : (faultNoted s).f Fld.PAR_STAT_FAULTY = 1 :=
  (f_raise (setF_wf w _ _) rfl (by decide)).trans (f_setF_same w _ 1 (by decide) (by decide))

theorem raised_faultNoted : (faultNoted s).raised Ev.PAR_SELF_FAULT := raise_sets (setF_wf w _ _) (by decide) (by decide)

theorem role_faultNoted : (faultNoted s).role = s.role :=
  (f_raise (setF_wf w _ _) rfl (by decide)).trans (f_setF_other w 1 rfl (by decide) (by decide) (by decide) (by decide))

theorem selfFault_told (h : s.role ≠ 2 ∨ s.pFlag 2 = false) : s.selfFault = faultNoted s := by
  refine if_neg (show ¬((faultNoted s).role = 2 ∧ (faultNoted s).pFlag 2 = true) from ?_)
  rw [role_faultNoted w, pFlag_congr (hb_faultNoted s)]
  rintro ⟨h2, hf⟩
  rcases h with h | h
  · exact h h2
  · exact Bool.false_ne_true (h.symm.trans hf)

theorem selfFault_hands_over (h2 : s.role = 2) (hf : s.pFlag 2 = true) (hl : ¬TallyLate s) :
    s.selfFault = announced (faultNoted s) (s.beatNo + 2) 4 := by
  have honly := faultNoted_only w
  have hrole : (faultNoted s).role = 2 := (role_faultNoted w).trans h2
  have hflag : (faultNoted s).pFlag 2 = true := (pFlag_congr (hb_faultNoted s) 2).trans hf
  have hlate : ¬TallyLate (faultNoted s) := by
    unfold TallyLate
    rw [hbAt_congr (hb_faultNoted s), hbAt_congr (hb_faultNoted s), dev_faultNoted, honly.1.field Fld.PAR_TALLY_TALLY (by decide)]
    exact hl
  have hedge : handoverEdge (faultNoted s) 4 = s.beatNo + 2 :=
    congrArg (· + 2) (beatNo_kept honly.1 (by decide) (by decide) (by decide))
  have href : ¬HandoverRefused (faultNoted s) := by
    unfold HandoverRefused
    rw [hrole, hflag]
    simpa using hlate
  calc s.selfFault = (faultNoted s).announce 4 :=
        if_pos (show (faultNoted s).role = 2 ∧ (faultNoted s).pFlag 2 = true from ⟨hrole, hflag⟩)
    _ = announced (faultNoted s) (handoverEdge (faultNoted s) 4) 4 := announce_taken href 4
    _ = announced (faultNoted s) (s.beatNo + 2) 4 := by rw [hedge]

end Fault

/-! ### Flash copies (R329, R408) -/

theorem flashWant_follower {s : State} (h : s.role < 2) : s.flashWant = s := if_pos h

theorem flashWant_skips {s : State} (h : 2 ≤ s.role) (hb : (s.par.flashBusy || s.par.flashDue) = true) :
    s.flashWant = s.stickN Fld.PAR_FLASH_SKIP 1 := (if_neg (Nat.not_lt.mpr h)).trans (if_pos hb)

theorem flashWant_due {s : State} (h : 2 ≤ s.role) (hb : (s.par.flashBusy || s.par.flashDue) = false) :
    s.flashWant = { s with par := { s.par with flashDue := true } } :=
  (if_neg (Nat.not_lt.mpr h)).trans (if_neg (by rw [hb]; decide))

/-- From `s` the machine has come to `t` by what the manager does with its medium and reports of it: registers, events, the ledger and
the manager's own state may differ, nothing else does. -/
structure Managed (s t : State) : Prop where
  parts : t = { s with regs := t.regs, lgr := t.lgr, evt := t.evt, nfc := t.nfc }
  wf : s.regsWf → t.regsWf

theorem Managed.refl (s : State) : Managed s s := ⟨rfl, id⟩

section Managed

variable {s t u : State}

theorem Managed.trans (h : Managed s t) (k : Managed t u) : Managed s u := by
  have e := k.parts
  rw [h.parts] at e
  exact ⟨e, fun w => k.wf (h.wf w)⟩

theorem Managed.setF (h : Managed s t) (r : RF) (v : Nat) : Managed s (t.setF r v) := h.trans ⟨rfl, fun w => setF_wf w r v⟩

theorem Managed.withNfc (h : Managed s t) (x : NfcSt) : Managed s { t with nfc := x } := h.trans ⟨rfl, mk_wf⟩

theorem Managed.raise (h : Managed s t) (e : Ev) : Managed s (t.raise e) := by
  refine h.trans ⟨?_, fun w => raise_wf w e⟩
  have hp := raise_parts t e
  generalize t.raise e = u at hp ⊢
  rw [hp]

theorem Managed.foldl {α : Type} {f : State → α → State} (hf : ∀ t x, Managed t (f t x)) (l : List α) : Managed s (l.foldl f s) := by
  induction l generalizing s with
  | nil => exact Managed.refl s
  | cons x l ih => exact (hf s x).trans ih

theorem Managed.ite {c : Prop} [Decidable c] (ht : Managed s t) (hu : Managed s u) : Managed s (if c then t else u) := by
  split
  · exact ht
  · exact hu

theorem managed_takeBlks (n : Nat) (s : State) : Managed s (State.takeBlks n s).1 := by
  induction n generalizing s with
  | zero => exact Managed.refl s
  | succ n ih =>
    unfold State.takeBlks
    split
    · exact Managed.refl s
    · exact ((Managed.refl s).withNfc _).trans (ih _)

theorem managed_dropBlks (s : State) (l : List Nat) : Managed s (s.dropBlks l) := Managed.foldl (fun t _ => (Managed.refl t).withNfc _) l

theorem managed_nfcShow (s : State) : Managed s s.nfcShow := by
  have hparts (n : Nat) (t : State) : Managed t (forUp n (fun i t => (t.setF (Fld.NFC_PART_OBJECTS i)
      (min 255 (s.objsOf (i + 1)).length)).setF (Fld.NFC_PART_USED i) (s.partBlks (i + 1))) t) :=
    forUp_induct (P := fun _ u => Managed t u) (Managed.refl t) (fun _ _ h => (h.setF _ _).setF _ _) n
  unfold State.nfcShow
  extract_lets s1 s2 s3 low s4 worn s5
  have h2 : Managed s s2 := ((((((Managed.refl s).setF _ _).setF _ _).setF _ _).setF _ _).setF _ _).setF _ _
  have h3 : Managed s s3 := h2.trans (hparts 6 s2)
  have h4 : Managed s s4 := Managed.ite ((h3.setF _ _).raise _) h3
  have h5 : Managed s s5 := Managed.ite ((h4.withNfc _).raise _) h4
  exact Managed.ite ((h5.setF _ _).raise _) (Managed.ite ((h5.setF _ _).raise _) h5)

theorem managed_putContent (s : State) (p i : Nat) (d : List Byte) : Managed s (s.putContent p i d) :=
  (((managed_takeBlks _ s).trans (managed_dropBlks _ _)).withNfc _).trans (managed_nfcShow _)

theorem managed_dropContent (s : State) (p : NObj → Bool) : Managed s (s.dropContent p) :=
  ((managed_dropBlks s _).withNfc _).trans (managed_nfcShow _)

theorem managed_putImage (s : State) (d : List Byte) : Managed s (s.putImage d) := by
  have hput := managed_putContent s 5 0 d
  unfold State.putImage
  refine Managed.ite ?_ hput
  split
  · exact hput
  · exact hput.trans (managed_dropContent _ _)

theorem Managed.par (h : Managed s t) : t.par = s.par := by
  rw [h.parts]

theorem Managed.mem (h : Managed s t) : MemKept s t := fun a => by
  rw [h.parts]
  rfl

end Managed

/-- What the flash copy in progress writes to the medium. -/
abbrev flashData (s : State) : List Byte :=
  s.rdN (dramAddr (s.f Fld.PAR_FLASH_DRAM_ADDR)) (s.tracked.length * (8192 + 0x4_0000))

/-- The copy has ended and its image is put into the partition. -/
def imagePut (s : State) : State :=
  State.putImage { s with par := { s.par with flashBusy := false, flashAt := some s.tim.raw } } (flashData s)

theorem imagePut_managed (s : State) :
    Managed { s with par := { s.par with flashBusy := false, flashAt := some s.tim.raw } } (imagePut s) := managed_putImage _ _

theorem imagePut_told_managed (s : State) : Managed { s with par := { s.par with flashBusy := false, flashAt := some s.tim.raw } }
    ((imagePut s).raise Ev.PAR_FLASH_COPY) := (imagePut_managed s).raise _

theorem exec_flashCopy_ready {s : State} (h : s.nfcReady = true) :
    exec .flashCopy s = liveIf s.par.flashBusy s ((imagePut s).raise Ev.PAR_FLASH_COPY) := congrArg (liveIf _ s) (if_pos h)

theorem nfcReady_congr {s t : State} (h : t.regs = s.regs) : t.nfcReady = s.nfcReady := by
  unfold State.nfcReady State.fb
  rw [f_congr h, f_congr h]

theorem exec_flashCopy_unready {s : State} (h : s.nfcReady = false) :
    exec .flashCopy s = liveIf s.par.flashBusy s { s with par := { s.par with flashBusy := false } } :=
  congrArg (liveIf _ s) (if_neg (Bool.eq_false_iff.mp ((nfcReady_congr rfl).trans h)))

/-! ### Re-epoch (R344) -/

/-- Tally and seen stand at the unit's number, and the unit is armed no more. -/
def epochReset (s : State) : State :=
  ((s.setF Fld.PAR_TALLY_TALLY s.dev.unit).setF Fld.PAR_SEEN_SEEN s.dev.unit).setF Fld.PAR_STAT_EPOCH 0

/-- No tally of the partner's has been seen. -/
def epochSet (s : State) : State := { epochReset s with par := { (epochReset s).par with pTally := 0 } }

/-- The re-epoch is recorded. -/
def epochRecorded (s : State) : State := (epochSet s).pairRec 4 (epochReset s).role (epochReset s).role 0

theorem doEpochComplete_taken {s : State} (he : s.fb Fld.PAR_STAT_EPOCH = true) (hf : s.pFlag 4 = true) :
    doEpochComplete s = (epochRecorded s).writeSections.flashCopy := if_pos ⟨he, hf⟩

theorem doEpochComplete_refused {s : State} (h : s.fb Fld.PAR_STAT_EPOCH = false ∨ s.pFlag 4 = false) : doEpochComplete s = s :=
  if_neg (by simp only [not_and_or, Bool.not_eq_true]; exact h)

/-- The words that a re-epoch sets. -/
abbrev epochWords : List Nat := evWords 148 ++ [Adr.PAR_TALLY, Adr.PAR_SEEN, Adr.PAR_STAT]

theorem par_pairRec (s : State) (ty old new cause : Nat) : (s.pairRec ty old new cause).par = s.par := by
  rw [(pairRec_rings s ty old new cause).parts]

theorem par_epochReset (s : State) : (epochReset s).par = s.par := by
  rw [epochReset, setF_par, setF_par, setF_par]

theorem par_epochSet (s : State) : (epochSet s).par = { s.par with pTally := 0 } := by
  rw [epochSet, par_epochReset]

theorem par_epochRecorded (s : State) : (epochRecorded s).par = { s.par with pTally := 0 } :=
  (par_pairRec (epochSet s) 4 _ _ 0).trans (par_epochSet s)

section Epoch

variable {s : State} (w : s.regsWf)
include w

theorem epochSet_writes : Writes epochWords s (epochSet s) :=
  ((((Writes.refl w).setF _ (by decide) (by decide)).setF _ (by decide) (by decide)).setF _ (by decide) (by decide)).withPar _

theorem epochRecorded_writes : Writes epochWords s (epochRecorded s) :=
  (epochSet_writes w).trans ((pairRec_writes (epochSet_writes w).wf 4 _ _ 0).mono fun _ ha => List.mem_append_left _ ha)

theorem f_epochRecorded {q : RF} (hq : canon q.a ∉ evWords 148) : (epochRecorded s).f q = (epochReset s).f q :=
  ((pairRec_writes (epochSet_writes w).wf 4 _ _ 0).field q hq).trans (f_mk q)

theorem tally_epochRecorded : (epochRecorded s).f Fld.PAR_TALLY_TALLY = s.dev.unit % 2 ^ 32 := by
  rw [f_epochRecorded w (by decide)]
  exact (f_setF_ne (setF_wf (setF_wf w _ _) _ _) 0 (by decide)).trans
    ((f_setF_ne (setF_wf w _ _) _ (by decide)).trans (f_setF_same w _ _ (by decide) (by decide)))

theorem seen_epochRecorded : (epochRecorded s).f Fld.PAR_SEEN_SEEN = s.dev.unit % 2 ^ 32 := by
  rw [f_epochRecorded w (by decide)]
  exact (f_setF_ne (setF_wf (setF_wf w _ _) _ _) 0 (by decide)).trans (f_setF_same (setF_wf w _ _) _ _ (by decide) (by decide))

theorem epoch_epochRecorded : (epochRecorded s).f Fld.PAR_STAT_EPOCH = 0 := by
  rw [f_epochRecorded w (by decide)]
  exact f_setF_same (setF_wf (setF_wf w _ _) _ _) _ 0 (by decide) (by decide)

end Epoch

end Sys2Proof.Laws

namespace Sys2Proof.Proofs

open Sys2Proof.Machine Sys2Proof.Laws

section Requests

variable {s : State} (hp : s.pwr.on = true)
include hp

theorem runs_fault_told (w : s.regsWf) (h : s.role ≠ 2 ∨ s.pFlag 2 = false) : Runs .fault s fun t =>
    t.f Fld.PAR_STAT_FAULTY = 1 ∧ t.raised Ev.PAR_SELF_FAULT ∧ OnlyRaised 149 [Adr.PAR_STAT] s t := by
  refine Runs.live rfl hp ?_
  rw [selfFault_told w h]
  exact ⟨(f_ok _ _).trans (faulty_faultNoted w), raised_ok (raised_faultNoted w), (faultNoted_only w).ok⟩

theorem runs_fault_handsOver (w : s.regsWf) (h2 : s.role = 2) (hf : s.pFlag 2 = true) (hl : ¬TallyLate s) : Runs .fault s fun t =>
    t.f Fld.PAR_STAT_FAULTY = 1 ∧ t.raised Ev.PAR_SELF_FAULT ∧ t.par = { s.par with ho := some (s.beatNo + 2, 4) } ∧
      RegsKept (evWords 149 ++ [Adr.PAR_STAT]) s t ∧ MemKept s t := by
  refine Runs.live rfl hp ?_
  rw [selfFault_hands_over w h2 hf hl]
  have hnoted := faultNoted_writes w
  have hannounced := announced_ok_writes hnoted.wf (s.beatNo + 2) 4
  refine ⟨(hannounced.field _ (by decide)).trans (faulty_faultNoted w), hannounced.stays _ (raised_faultNoted w), ?_,
    ((hnoted.withPar _).ok).kept, ((hnoted.withPar _).ok).mem⟩
  rw [ok_par, announced, par_faultNoted]

theorem runs_clrFaulty (w : s.regsWf) (h : s.faultPersists = false) :
    Runs .clrFaulty s fun t => t.f Fld.PAR_STAT_FAULTY = 0 ∧ OnlyRegs [Adr.PAR_STAT] s t := by
  refine Runs.live rfl hp ?_
  rw [show s.clrFaulty = s.setF Fld.PAR_STAT_FAULTY 0 from if_neg (by rw [h]; decide)]
  exact ⟨(f_ok _ _).trans (f_setF_same w _ 0 (by decide) (by decide)), ((OnlyRegs.refl _ s).setF w 0 (by decide)).ok⟩

theorem runs_handover_refused (w : s.regsWf) (h : HandoverRefused s) :
    Runs .handover s fun t => t.raised Ev.PAR_HO_REFUSED ∧ OnlyRaised 149 [] s t := by
  refine Runs.live rfl hp ?_
  rw [announce_refused h]
  exact ⟨raised_ok (raise_sets w (by decide) (by decide)), ((OnlyRegs.refl _ s).raise w (e := Ev.PAR_HO_REFUSED) rfl).ok⟩

theorem runs_handover_announced (h : ¬HandoverRefused s) : Runs .handover s fun t => ∃ n, n % 40 = 38 ∧ s.beatNo + 2 ≤ n ∧
    n < s.beatNo + 42 ∧ t = { s with par := { s.par with ho := some (n, 3) }, answer := ⟨.okay, []⟩ } := by
  obtain ⟨hb38, hlo, hhi⟩ := handoverEdge_b38 s
  refine Runs.live rfl hp ⟨_, hb38, hlo, hhi, ?_⟩
  rw [announce_taken h]
  rfl

theorem runs_coresUp (w : s.regsWf) (h : 2 ≤ s.role) :
    Runs .coresUp s fun t => t.f Fld.PAR_STAT_CORES_UP = 1 ∧ OnlyRegs [Adr.PAR_STAT] s t :=
  Runs.liveIf rfl hp (decide_eq_true h)
    ⟨f_setF_same w _ 1 (by decide) (by decide), (OnlyRegs.refl _ s).setF w 1 (by decide)⟩

end Requests

/-- Both ways to ask for a flash copy do the same but for the answer (R329). -/
theorem runs_flashWant {q : Instr} (hq : q = .flashPeriod ∨ q = .flashNow) {s : State} (hp : s.pwr.on = true) {P : State → Prop}
    (h : P s.flashWant) (hok : P s.flashWant.ok) : Runs q s P := by
  rcases hq with rfl | rfl
  · exact Runs.live rfl hp h
  · exact Runs.live rfl hp hok

section Flash

variable {s : State} (hp : s.pwr.on = true) {q : Instr} (hq : q = .flashPeriod ∨ q = .flashNow)
include hp hq

theorem runs_flashWant_follower (h : s.role < 2) : Runs q s fun t => t = { s with answer := t.answer } := by
  have he := flashWant_follower h
  exact runs_flashWant hq hp (by rw [he]) (by rw [he]; rfl)

theorem runs_flashWant_skips (w : s.regsWf) (h : 2 ≤ s.role) (hb : (s.par.flashBusy || s.par.flashDue) = true) : Runs q s fun t =>
    t.f Fld.PAR_FLASH_SKIP = min (s.f Fld.PAR_FLASH_SKIP + 1) 65535 ∧ OnlyRegs [Adr.PAR_FLASH] s t := by
  have he := flashWant_skips h hb
  have hskip := f_stickN w Fld.PAR_FLASH_SKIP 1 (by decide) (by decide)
  have honly : OnlyRegs [Adr.PAR_FLASH] s (s.stickN Fld.PAR_FLASH_SKIP 1) := (OnlyRegs.refl _ s).setF w _ (by decide)
  exact runs_flashWant hq hp (by rw [he]; exact ⟨hskip, honly⟩) (by rw [he]; exact ⟨(f_ok _ _).trans hskip, honly.ok⟩)

theorem runs_flashWant_due (h : 2 ≤ s.role) (hb : (s.par.flashBusy || s.par.flashDue) = false) :
    Runs q s fun t => t = { s with par := { s.par with flashDue := true }, answer := t.answer } := by
  have he := flashWant_due h hb
  exact runs_flashWant hq hp (by rw [he]) (by rw [he]; rfl)

end Flash

section Ends

variable {s : State} (hp : s.pwr.on = true)
include hp

theorem runs_flashCopy_ready (w : s.regsWf) (hbusy : s.par.flashBusy = true) (h : s.nfcReady = true) : Runs .flashCopy s fun t =>
    t.raised Ev.PAR_FLASH_COPY ∧ t.par = { s.par with flashBusy := false, flashAt := some s.tim.raw } ∧ MemKept s t :=
  have hwf : (imagePut s).regsWf := (imagePut_managed s).wf (mk_wf w)
  have htold := imagePut_told_managed s
  Runs.liveIf (exec_flashCopy_ready h) hp hbusy ⟨raise_sets hwf (by decide) (by decide), htold.par, htold.mem⟩

theorem runs_epochComplete (w : s.regsWf) (he : s.fb Fld.PAR_STAT_EPOCH = true) (hf : s.pFlag 4 = true) :
    Runs .epochComplete s fun t => ∃ u : State, t = u.writeSections.flashCopy.ok ∧ u.f Fld.PAR_TALLY_TALLY = s.dev.unit % 2 ^ 32 ∧
      u.f Fld.PAR_SEEN_SEEN = s.dev.unit % 2 ^ 32 ∧ u.f Fld.PAR_STAT_EPOCH = 0 ∧ u.par = { s.par with pTally := 0 } ∧
      RegsKept (evWords 148 ++ [Adr.PAR_TALLY, Adr.PAR_SEEN, Adr.PAR_STAT]) s u ∧ MemKept s u :=
  have hw := epochRecorded_writes w
  Runs.live (congrArg (fun t : State => live s t.ok) (doEpochComplete_taken he hf)) hp ⟨epochRecorded s, rfl, tally_epochRecorded w,
    seen_epochRecorded w, epoch_epochRecorded w, par_epochRecorded s, hw.kept, hw.mem⟩

end Ends

/-- Settles O47: the event of a fault leaves the role, the partner's flag, the tallies and the beat on which its handover is decided;
the medium's manager changes neither the pair block nor memory (`Managed`). -/
theorem pairRequestsTakeEffect : Obligations.PairRequestsTakeEffect := by
  intro s hp w
  refine ⟨runs_fault_told hp w, runs_fault_handsOver hp w, fun h => ?_, runs_clrFaulty hp w, runs_handover_refused hp w,
    fun h2 hf hl => ?_, runs_coresUp hp w, fun q hq => ⟨runs_flashWant_follower hp hq, runs_flashWant_skips hp hq w,
      runs_flashWant_due hp hq⟩, fun hbusy => ⟨fun h => ?_, runs_flashCopy_ready hp w hbusy⟩, ⟨fun h => ?_, fun h => ?_⟩,
    runs_epochComplete hp w, fun h => ?_⟩
  · exact Runs.live (congrArg (fun t : State => live s t.ok) (if_pos h)) hp rfl
  · exact runs_handover_announced hp (by simp [HandoverRefused, h2, hf, hl])
  · exact Runs.liveIf (exec_flashCopy_unready h) hp hbusy rfl
  · exact Runs.live (congrArg (fun t : State => live s t.ok) (if_pos h)) hp rfl
  · exact Runs.live (congrArg (fun t : State => live s t.ok) (if_neg h)) hp rfl
  · exact Runs.live (congrArg (fun t : State => live s t.ok) (doEpochComplete_refused h)) hp rfl

end Sys2Proof.Proofs
end

section
/-! ## Idle steps, and the words of the network and time blocks

The step on an empty queue (R356, the model's choice of log entry 2), and what the statements on the MACs, on disciplined time and on the
UARTs have in common: their registers all stand above the header of a page between the access tables' and the DMA's. -/

namespace Sys2Proof.Laws

open Sys2Proof.Machine

/-! ### A step on an empty queue -/

theorem step_idle {s : State} (h : s.pending = []) : step s = .next s.tick := by
  unfold step
  rw [h]

theorem tick_powered {s : State} (h : s.pwr.on = true) : s.tick = { s with tim := { s.tim with raw := (s.tim.raw + 1) % 2 ^ 64 } } := if_pos h

theorem tick_unpowered {s : State} (h : s.pwr.on = false) : s.tick = s := if_neg (ne_true_of_eq_false h)

/-! ### Words of the pages 4 to 142 -/

/-- `a` is a word above the header of a page between the access tables' (3) and the DMA's (143). -/
structure BlockWord (a : Nat) : Prop where
  body : 6 < a % 1024
  lo : 4096 ≤ a
  hi : a < 146432

section BlockWord

variable {a : Nat} (h : BlockWord a)
include h

theorem BlockWord.canon_eq : canon a = a := canon_body h.body

theorem BlockWord.mem {l : List Nat} (hl : a ∈ l) : canon a ∈ l := h.canon_eq.symm ▸ hl

theorem BlockWord.not_mem {l : List Nat} (hl : a ∉ l) : canon a ∉ l := h.canon_eq.symm ▸ hl

theorem BlockWord.canon_ne {b : Nat} (k : BlockWord b) (hne : a ≠ b) : canon a ≠ canon b := by
  rwa [h.canon_eq, k.canon_eq]

theorem BlockWord.not_mem_evWords (p : Nat) : a ∉ evWords p := by
  obtain ⟨hbody, -, hhi⟩ := h
  simp only [evWords, hdr, List.mem_cons, List.not_mem_nil, or_false]
  unfold Adr.LGR_CNT_A Adr.LGR_CNT_B Adr.LGR_FLAGS
  omega

/-- Raising events leaves these words alone. -/
theorem BlockWord.not_event (p : Nat) : canon a ∉ evWords p := h.not_mem (h.not_mem_evWords p)

end BlockWord

/-- A word of a page, by page and offset. -/
theorem blockWord_page {p o : Nat} (hp : 4 ≤ p ∧ p < 143) (ho : 6 < o ∧ o < 1024) : BlockWord (p * 1024 + o) := by
  constructor <;> omega

/-! ### Fields by word and place -/

section Fields

variable {s : State} (w : s.regsWf)
include w

/-- A field holds what was written into it. -/
theorem f_setF_at {a hi lo : Nat} (v : Nat) (hr : lo ≤ hi ∧ hi < 32) : (s.setF ⟨a, hi, lo⟩ v).f ⟨a, hi, lo⟩ = v % 2 ^ (hi + 1 - lo) :=
  f_setF_same w ⟨a, hi, lo⟩ v hr.1 hr.2

/-- A write of another word leaves a field. -/
theorem f_setF_apart {a b hi lo h l : Nat} (v : Nat) (ha : BlockWord a) (hb : BlockWord b) (hne : a ≠ b) :
    (s.setF ⟨b, hi, lo⟩ v).f ⟨a, h, l⟩ = s.f ⟨a, h, l⟩ := f_setF_ne (r := ⟨b, hi, lo⟩) (q := ⟨a, h, l⟩) w v (ha.canon_ne hb hne)

/-- Raising an event leaves the fields of a block's words. -/
theorem f_raise_block {a h l : Nat} (ha : BlockWord a) {e : Ev} (hp : blockPage e.page = e.page) :
    (s.raise e).f ⟨a, h, l⟩ = s.f ⟨a, h, l⟩ := f_raise w hp (q := ⟨a, h, l⟩) (ha.not_event _)

/-- A saturating counter after one more, its flag in another word (R10). -/
theorem f_stick_apart {a b hi lo i : Nat} (hr : lo ≤ hi ∧ hi < 32) (ha : BlockWord a) (hb : BlockWord b) (hne : a ≠ b) :
    (s.stick ⟨a, hi, lo⟩ ⟨b, i, i⟩ 1).f ⟨a, hi, lo⟩ = min (s.f ⟨a, hi, lo⟩ + 1) (2 ^ (hi + 1 - lo) - 1) :=
  f_stick (c := ⟨a, hi, lo⟩) (flag := ⟨b, i, i⟩) w 1 hr.1 hr.2 (ha.canon_ne hb hne)

end Fields

theorem Writes.send {l : List Nat} {s t : State} (h : Writes l s t) (p : Port) (i : Nat) (b : List Byte) : Writes l s (t.send p i b) := by
  unfold State.send
  split
  · exact h
  · exact h.same rfl rfl rfl

theorem Writes.ansW {l : List Nat} {s t : State} (h : Writes l s t) (v : Word) : Writes l s (t.ansW v) := h.same rfl rfl rfl

theorem sent_send {s : State} (hm : s.muted = false) (p : Port) (i : Nat) (b : List Byte) : (s.send p i b).sent = s.sent ++ [⟨p, i, b⟩] :=
  congrArg State.sent (send_unmuted hm p i b)

end Sys2Proof.Laws

namespace Sys2Proof.Proofs

open Sys2Proof.Machine Sys2Proof.Laws

/-- Settles O2: with nothing to run a step is one tick of the raw counter, which has power or not. -/
theorem emptyQueuePassesOneNanosecond : Obligations.EmptyQueuePassesOneNanosecond := fun _ h =>
  ⟨fun hp => (step_idle h).trans (congrArg _ (tick_powered hp)), fun hp => (step_idle h).trans (congrArg _ (tick_unpowered hp))⟩

end Sys2Proof.Proofs
end

section
/-! ## Rate, step, slew and read of disciplined time

How disciplined time is steered and read (R357–R361). The lemmas about the model's operations stand first, the statement's proof after
them. -/

namespace Sys2Proof.Laws

open Sys2Proof.Machine

/-! ### Disciplined time (R357) -/

/-- Reducing a summand first does not change a two's complement code. -/
theorem uns_add_uns (n : Nat) (a b : Int) : uns n (a + Int.ofNat (uns n b)) = uns n (a + b) := by
  have hpos : (Int.ofNat (2 ^ n)) ≠ 0 := Int.ofNat_ne_zero.2 (Nat.two_pow_pos n).ne'
  have hcode : Int.ofNat (uns n b) = b % Int.ofNat (2 ^ n) := Int.toNat_of_nonneg (Int.emod_nonneg b hpos)
  unfold uns at hcode ⊢
  rw [hcode, Int.add_emod_emod]

/-- The rate's contribution so far goes into the offset when the epoch is moved to the present: time does not jump. -/
theorem discTime_epochMoved (raw ofs epoch : Nat) (rate r : Int) :
    discTime raw (uns 64 (Int.ofNat ofs + fdiv (rate * (Int.ofNat raw - Int.ofNat epoch)) (2 ^ 48))) raw r =
      discTime raw ofs epoch rate := by
  have hnew : fdiv (r * (Int.ofNat raw - Int.ofNat raw)) (2 ^ 48) = 0 := by
    rw [Int.sub_self, Int.mul_zero]
    rfl
  unfold discTime
  rw [hnew, Int.add_zero, uns_add_uns, Int.add_assoc]

/-! ### Refusals (R358) -/

/-- A counter after one more, its flag a bit of the same word (R10). -/
theorem f_stick_flagBeside {s : State} (w : s.regsWf) {a hi lo i : Nat} (hr : lo ≤ hi ∧ hi < 32) (hi' : i < 32) (hd : hi < i) :
    (s.stick ⟨a, hi, lo⟩ ⟨a, i, i⟩ 1).f ⟨a, hi, lo⟩ = min (s.f ⟨a, hi, lo⟩ + 1) (2 ^ (hi + 1 - lo) - 1) := by
  have hlt : s.f ⟨a, hi, lo⟩ < 2 ^ (hi + 1 - lo) := bitsOf_lt _ _ _
  unfold State.stick
  dsimp only
  rw [if_neg Nat.one_ne_zero]
  split
  · rw [f_setF_at w _ hr, Nat.mod_eq_of_lt (by omega)]
    omega
  · rw [f_setF_beside (setF_wf w _ _) 1 ⟨Nat.le_refl i, hi'⟩ ⟨hr.1, Or.inl hd⟩, f_setF_at w _ hr, Nat.mod_eq_of_lt (by omega)]
    omega

/-- A refusal counted, its event not yet raised. -/
abbrev refusalCounted (s : State) : State := s.stick Fld.TIM_STEP_CTRL_REF_CNT Fld.TIM_STEP_CTRL_REF_SAT 1

/-- A write of a rate or a step ends: `FORCE` is used up, and the write is answered (R361). -/
abbrev forceUsed (s : State) : State := (s.setF Fld.TIM_STEP_CTRL_FORCE 0).ok

/-- What a refused write of a rate or a step leaves. -/
structure TimeRefused (s t : State) : Prop where
  raised : t.raised Ev.TIM_STEP_REFUSED
  force : t.f Fld.TIM_STEP_CTRL_FORCE = 0
  count : t.f Fld.TIM_STEP_CTRL_REF_CNT = min (s.f Fld.TIM_STEP_CTRL_REF_CNT + 1) 65535
  only : OnlyRaised 6 [Adr.TIM_STEP_CTRL] s t

theorem tim_forceUsed (s : State) : (forceUsed s).tim = s.tim := by
  rw [forceUsed, ok_tim, setF_tim]

theorem frm_forceUsed (s : State) : (forceUsed s).frm = s.frm := by
  rw [forceUsed, ok_frm, setF_frm]

theorem force_forceUsed {s : State} (w : s.regsWf) : (forceUsed s).f Fld.TIM_STEP_CTRL_FORCE = 0 :=
  (f_ok _ _).trans (f_setF_at w 0 (by decide))

theorem timeRefused_forceUsed {s : State} (w : s.regsWf) : TimeRefused s (forceUsed s.timeRefused) := by
  have hcounted : OnlyRegs [Adr.TIM_STEP_CTRL] s (refusalCounted s) :=
    onlyRegs_stick w (OnlyRegs.refl _ s) 1 (by decide) (by decide)
  have wc : (refusalCounted s).regsWf := stick_wf w _ _ 1
  have wr : s.timeRefused.regsWf := raise_wf wc _
  have hraised : OnlyRaised 6 [Adr.TIM_STEP_CTRL] s s.timeRefused := hcounted.raise (e := Ev.TIM_STEP_REFUSED) wc rfl
  refine ⟨raised_ok (raised_setF wr (raise_sets wc (by decide) (by decide)) 0 (by decide)), force_forceUsed wr, ?_,
    (hraised.setF wr 0 (by decide)).ok⟩
  calc (forceUsed s.timeRefused).f Fld.TIM_STEP_CTRL_REF_CNT
      _ = s.timeRefused.f Fld.TIM_STEP_CTRL_REF_CNT := (f_ok _ _).trans (f_setF_beside wr 0 (by decide) (by decide))
      _ = (refusalCounted s).f Fld.TIM_STEP_CTRL_REF_CNT := f_raise wc rfl (by decide)
      _ = min (s.f Fld.TIM_STEP_CTRL_REF_CNT + 1) 65535 := f_stick_flagBeside w (by decide) (by decide) (by decide)

/-! ### A write of the rate (R357) -/

/-- The rate that a write of `v` to `TIM_RATE_HI` asks for. -/
abbrev rateAsked (s : State) (v : Word) : Int := sgn 64 ((s.reg Adr.TIM_RATE_LO).toNat + v.toNat * 2 ^ 32)

/-- A rate is out of range, or asked for in holdover without force. -/
abbrev RateBad (s : State) (m : Nat) (v : Word) : Prop :=
  56294995342 < (rateAsked s v).natAbs ∨ (s.fb Fld.TIM_STAT_HOLDOVER = true ∧ s.forced m = false)

/-- The rate is in force from now on. -/
def rateTaken (s : State) (v : Word) : State :=
  State.setReg { s with tim := { s.tim with
    ofs := uns 64 (Int.ofNat s.tim.ofs + fdiv (s.tim.rate * (Int.ofNat s.tim.raw - Int.ofNat s.tim.epoch)) (2 ^ 48))
    epoch := s.tim.raw, rate := rateAsked s v } } Adr.TIM_RATE_HI v

theorem doRate_refused {s : State} {m : Nat} {v : Word} (h : RateBad s m v) : doRate s m v = forceUsed s.timeRefused :=
  congrArg forceUsed (if_pos h)

theorem doRate_taken {s : State} {m : Nat} {v : Word} (h : ¬RateBad s m v) : doRate s m v = forceUsed (rateTaken s v) :=
  congrArg forceUsed (if_neg h)

theorem tim_rateTaken (s : State) (v : Word) : (rateTaken s v).tim = { s.tim with
    ofs := uns 64 (Int.ofNat s.tim.ofs + fdiv (s.tim.rate * (Int.ofNat s.tim.raw - Int.ofNat s.tim.epoch)) (2 ^ 48))
    epoch := s.tim.raw, rate := rateAsked s v } := by
  rw [rateTaken, setReg_tim]

theorem now_rateTaken (s : State) (v : Word) : (forceUsed (rateTaken s v)).now = s.now := by
  unfold State.now
  rw [tim_forceUsed, tim_rateTaken]
  exact discTime_epochMoved _ _ _ _ _

theorem rateTaken_only {s : State} (w : s.regsWf) (v : Word) : OnlyTime [Adr.TIM_RATE_HI, Adr.TIM_STEP_CTRL] s (rateTaken s v) :=
  ((OnlyTime.refl w).setTim _).setReg v (by decide)

theorem rate_rateTaken {s : State} (w : s.regsWf) (v : Word) : (forceUsed (rateTaken s v)).reg Adr.TIM_RATE_HI = v :=
  ((reg_ok _ _).trans (reg_setF_ne (rateTaken_only w v).wf 0 (by decide))).trans (reg_setReg_same (mk_wf w) _ _)

/-! ### A write of a step (R358) -/

/-- The step that a write of `v` to `TIM_STEP_HI` asks for. -/
abbrev stepAsked (s : State) (v : Word) : Int := sgn 64 ((s.reg Adr.TIM_STEP_LO).toNat + v.toNat * 2 ^ 32)

/-- While beats run, a step is taken at once. -/
abbrev StepFree (s : State) (m : Nat) : Prop := s.fb Fld.TIM_BEAT_STAT_FREE_RUN = true ∨ s.forced m = true

/-- The request stands to be slewed. -/
def slewAsked (s : State) (x : Int) : State := { s with tim := { s.tim with slew := x } }

theorem timeStep_stopped {s : State} (h : s.running = false) (m : Nat) (x : Int) : s.timeStep m x = s.addOfs x := if_pos h

section Running

variable {s : State} (hrun : s.running = true) {m : Nat} {x : Int}
include hrun

theorem timeStep_running : s.timeStep m x =
    if StepFree s m then s.stepEdges x else if s.fb Fld.TIM_STAT_HOLDOVER then s.timeRefused
      else if x.natAbs ≤ max 1 (s.f Fld.TIM_STEP_LIMIT_NS) then slewAsked s x else s.timeRefused :=
  if_neg (by rw [hrun]; decide)

theorem timeStep_free (hf : StepFree s m) : s.timeStep m x = s.stepEdges x := (timeStep_running hrun).trans (if_pos hf)

variable (hf : ¬StepFree s m)
include hf

theorem timeStep_refused (h : s.fb Fld.TIM_STAT_HOLDOVER = true ∨ max 1 (s.f Fld.TIM_STEP_LIMIT_NS) < x.natAbs) :
    s.timeStep m x = s.timeRefused := by
  rw [timeStep_running hrun, if_neg hf]
  split
  · rfl
  · rename_i hheld
    exact if_neg (Nat.not_le.2 (h.resolve_left hheld))

theorem timeStep_slewed (hh : s.fb Fld.TIM_STAT_HOLDOVER = false) (hx : x.natAbs ≤ max 1 (s.f Fld.TIM_STEP_LIMIT_NS)) :
    s.timeStep m x = slewAsked s x := by
  rw [timeStep_running hrun, if_neg hf, if_neg (ne_true_of_eq_false hh), if_pos hx]

end Running

theorem addOfs_only {s : State} (w : s.regsWf) (x : Int) : OnlyTime [Adr.TIM_STEP_CTRL] s (s.addOfs x) := (OnlyTime.refl w).setTim _

theorem slewAsked_only {s : State} (w : s.regsWf) (x : Int) : OnlyTime [Adr.TIM_STEP_CTRL] s (slewAsked s x) := (OnlyTime.refl w).setTim _

/-- The end of a write that has changed the block's own state alone. -/
theorem forceUsed_only {l : List Nat} {s t : State} (h : OnlyTime l s t) (hl : canon Adr.TIM_STEP_CTRL ∈ l) :
    (forceUsed t).f Fld.TIM_STEP_CTRL_FORCE = 0 ∧ RegsKept l s (forceUsed t) ∧
      forceUsed t = { s with regs := (forceUsed t).regs, tim := (forceUsed t).tim, answer := ⟨.okay, []⟩ } :=
  have hset := h.setF (r := Fld.TIM_STEP_CTRL_FORCE) 0 hl
  ⟨force_forceUsed h.wf, hset.ok_kept, hset.ok_parts⟩

/-! ### The edges after a step (R38) -/

/-- The edges are to be realigned, which is not yet counted. -/
def edgesOff (s : State) (e : Int) : State :=
  State.setF { s with frm := { s.frm with realignErr := edgeError e, driftErr := 0 } } Fld.TIM_BEAT_STAT_REALIGN 1

/-- The realignment is counted. -/
abbrev slipCounted (s : State) : State := s.stick Fld.TIM_SLIP_CNT_COUNT Fld.TIM_SLIP_CNT_SAT 1

theorem compareEdges_off {s : State} {e : Int} (h : 125000 < (edgeError e).natAbs) :
    s.compareEdges e = (slipCounted (edgesOff s e)).raise Ev.TIM_REALIGN := if_pos h

theorem compareEdges_near {s : State} {e : Int} (h : (edgeError e).natAbs ≤ 125000) :
    s.compareEdges e = { s with frm := { s.frm with realignErr := 0, driftErr := 4 * edgeError e } } := if_neg (Nat.not_lt.2 h)

theorem tim_compareEdges (s : State) (e : Int) : (s.compareEdges e).tim = s.tim := by
  by_cases h : 125000 < (edgeError e).natAbs
  · rw [compareEdges_off h, tim_raise, slipCounted, stick_parts, edgesOff, setF_tim]
  · rw [compareEdges_near (Nat.not_lt.1 h)]

theorem frm_raise (s : State) (e : Ev) : (s.raise e).frm = s.frm := by
  rw [raise_parts]

theorem frm_compareEdges_off {s : State} {e : Int} (h : 125000 < (edgeError e).natAbs) :
    (s.compareEdges e).frm = { s.frm with realignErr := edgeError e, driftErr := 0 } := by
  rw [compareEdges_off h, frm_raise, slipCounted, stick_parts, edgesOff, setF_frm]

section Edges

variable {s : State} (w : s.regsWf) {e : Int} (h : 125000 < (edgeError e).natAbs)
include w

theorem edgesOff_wf : (edgesOff s e).regsWf := setF_wf (mk_wf w) _ _

include h

theorem realign_compareEdges : (s.compareEdges e).f Fld.TIM_BEAT_STAT_REALIGN = 1 := by
  have wo := edgesOff_wf (e := e) w
  have hcounted : OnlyRegs [Adr.TIM_SLIP_CNT] (edgesOff s e) (slipCounted (edgesOff s e)) :=
    onlyRegs_stick wo (OnlyRegs.refl _ _) 1 (by decide) (by decide)
  rw [compareEdges_off h, f_raise (stick_wf wo _ _ 1) rfl (by decide), hcounted.1.field _ (by decide)]
  exact f_setF_at (mk_wf w) 1 (by decide)

theorem raised_compareEdges : (s.compareEdges e).raised Ev.TIM_REALIGN := by
  rw [compareEdges_off h]
  exact raise_sets (stick_wf (edgesOff_wf w) _ _ 1) (by decide) (by decide)

end Edges

/-- What a step of `x` taken at once does to the edges, and the error they then have. -/
theorem stepEdges_eq (s : State) (x : Int) : s.stepEdges x = (s.addOfs x).compareEdges (s.edgeNow + x) := rfl

theorem tim_addOfs (s : State) (x : Int) : (s.addOfs x).tim = { s.tim with ofs := uns 64 (Int.ofNat s.tim.ofs + x) } := rfl

theorem frm_addOfs (s : State) (x : Int) : (s.addOfs x).frm = s.frm := rfl

theorem regs_addOfs (s : State) (x : Int) : (s.addOfs x).regs = s.regs := rfl

/-- What becomes of the edges of `s`, whose error is `e`, by the time the write has ended. -/
theorem edges_forceUsed {s : State} (w : s.regsWf) (e : Int) : let t := forceUsed (s.compareEdges e)
    (125000 < (edgeError e).natAbs → t.f Fld.TIM_BEAT_STAT_REALIGN = 1 ∧ t.raised Ev.TIM_REALIGN ∧
      t.frm = { s.frm with realignErr := edgeError e, driftErr := 0 }) ∧
    ((edgeError e).natAbs ≤ 125000 → t.frm = { s.frm with realignErr := 0, driftErr := 4 * edgeError e } ∧
      RegsKept [Adr.TIM_STEP_CTRL] s t) := by
  intro t
  have wc := (compareEdges_writes w e).wf
  refine ⟨fun hoff => ⟨?_, ?_, (frm_forceUsed _).trans (frm_compareEdges_off hoff)⟩, fun hnear => ⟨?_, fun a ha => ?_⟩⟩
  · rw [f_ok, f_setF_ne wc 0 (by decide)]
    exact realign_compareEdges w hoff
  · exact raised_ok (raised_setF wc (raised_compareEdges w hoff) 0 (by decide))
  · rw [frm_forceUsed, compareEdges_near hnear]
  · rw [reg_ok, reg_setF_ne wc 0 fun he => ha (he ▸ by decide), compareEdges_near hnear, reg_mk]

/-! ### The slew (R359) -/

/-- By how much one increment of the slew moves time. -/
abbrev slewStep (s : State) : Int := if 0 < s.tim.slew then 1 else if s.tim.slew < 0 then -1 else 0

theorem slewStep_eq (s : State) : (if s.tim.slew = 0 then (0 : Int) else if 0 < s.tim.slew then 1 else -1) = slewStep s := by
  unfold slewStep
  split_ifs <;> omega

theorem exec_slewIncrement (s : State) : exec .slewIncrement s = live s { s with tim := { s.tim with
    ofs := uns 64 (Int.ofNat s.tim.ofs + slewStep s), slew := s.tim.slew - slewStep s } } := by
  rw [← slewStep_eq]
  rfl

/-! ### A read of time (R360) -/

/-- The high word of time and the raw counter are held for the reader. -/
def timeHeld (s : State) : State :=
  (s.setReg Adr.TIM_NOW_HI (BitVec.ofNat 32 (s.now / 2 ^ 32))).setPair Adr.TIM_RAW_LO Adr.TIM_RAW_HI s.tim.raw

/-- So is the uncertainty. -/
def timeLatched (s : State) : State := (timeHeld s).setReg Adr.TIM_UNC (BitVec.ofNat 32 s.uncertainty)

/-- The words that a read of time sets. -/
abbrev latchWords : List Nat := [Adr.TIM_NOW_HI, Adr.TIM_RAW_LO, Adr.TIM_RAW_HI, Adr.TIM_UNC]

theorem doTimeNow_eq (s : State) : doTimeNow s = (timeLatched s).ansW (BitVec.ofNat 32 s.now) := rfl

section TimeRead

variable {s : State} (w : s.regsWf)
include w

theorem timeHeld_wf : (timeHeld s).regsWf := setPair_wf (setReg_wf w _ _) _ _ _

theorem timeHeld_only : OnlyRegs latchWords s (timeHeld s) :=
  ((OnlyRegs.refl _ s).setReg w _ (by decide)).setPair (setReg_wf w _ _) _ (by decide) (by decide)

theorem timeLatched_only : OnlyRegs latchWords s (timeLatched s) := (timeHeld_only w).setReg (timeHeld_wf w) _ (by decide)

theorem nowHi_timeLatched : (timeLatched s).reg Adr.TIM_NOW_HI = BitVec.ofNat 32 (s.now / 2 ^ 32) :=
  ((reg_setReg_ne (timeHeld_wf w) _ (by decide)).trans (reg_setPair_ne (setReg_wf w _ _) _ (by decide) (by decide))).trans
    (reg_setReg_same w _ _)

theorem raw_timeLatched : (timeLatched s).pair Adr.TIM_RAW_LO Adr.TIM_RAW_HI = s.tim.raw % 2 ^ 64 := by
  have honly : OnlyRegs [Adr.TIM_UNC] (timeHeld s) (timeLatched s) := (OnlyRegs.refl _ _).setReg (timeHeld_wf w) _ (by decide)
  rw [regsKept_pair honly.1 (by decide) (by decide)]
  exact pair_setPair (setReg_wf w _ _) _ (by decide)

theorem unc_timeLatched : (timeLatched s).reg Adr.TIM_UNC = BitVec.ofNat 32 s.uncertainty := reg_setReg_same (timeHeld_wf w) _ _

end TimeRead

end Sys2Proof.Laws

namespace Sys2Proof.Proofs

open Sys2Proof.Machine Sys2Proof.Laws

section Steering

variable {s : State} (hp : s.pwr.on = true) (w : s.regsWf) {m : Nat} {v : Word}
include hp w

/-- A write of a rate or a step that is refused. -/
theorem runs_timeRefused {q : Instr} (he : exec q s = live s (forceUsed s.timeRefused)) : Runs q s fun t =>
    t.raised Ev.TIM_STEP_REFUSED ∧ t.f Fld.TIM_STEP_CTRL_FORCE = 0 ∧
      t.f Fld.TIM_STEP_CTRL_REF_CNT = min (s.f Fld.TIM_STEP_CTRL_REF_CNT + 1) 65535 ∧ OnlyRaised 6 [Adr.TIM_STEP_CTRL] s t := by
  obtain ⟨hraised, hforce, hcount, honly⟩ := timeRefused_forceUsed w
  exact Runs.live he hp ⟨hraised, hforce, hcount, honly⟩

theorem runs_rateWrite_taken (h : ¬RateBad s m v) : Runs (.rateWrite m v) s fun t => t.now = s.now ∧
    t.tim = { s.tim with ofs := t.tim.ofs, epoch := s.tim.raw, rate := rateAsked s v } ∧ t.reg Adr.TIM_RATE_HI = v ∧
    t.f Fld.TIM_STEP_CTRL_FORCE = 0 ∧ RegsKept [Adr.TIM_RATE_HI, Adr.TIM_STEP_CTRL] s t ∧
    t = { s with regs := t.regs, tim := t.tim, answer := ⟨.okay, []⟩ } := by
  obtain ⟨hforce, hkept, hparts⟩ := forceUsed_only (rateTaken_only w v) (by decide)
  refine Runs.live (congrArg (live s) (doRate_taken h)) hp ⟨now_rateTaken s v, ?_, rate_rateTaken w v, hforce, hkept, hparts⟩
  rw [tim_forceUsed, tim_rateTaken]

omit w in
/-- A write of a step that changes the block's own state alone. -/
theorem runs_stepWrite_quiet {u : State} (hu : s.timeStep m (stepAsked s v) = u) (h : OnlyTime [Adr.TIM_STEP_CTRL] s u) :
    Runs (.stepWrite m v) s fun t => t.tim = u.tim ∧ t.f Fld.TIM_STEP_CTRL_FORCE = 0 ∧ RegsKept [Adr.TIM_STEP_CTRL] s t ∧
      t = { s with regs := t.regs, tim := t.tim, answer := ⟨.okay, []⟩ } :=
  Runs.live (congrArg (fun u => live s (forceUsed u)) hu) hp ⟨tim_forceUsed u, forceUsed_only h (by decide)⟩

theorem runs_stepWrite_free (hrun : s.running = true) (hf : StepFree s m) : Runs (.stepWrite m v) s fun t =>
    t.tim = { s.tim with ofs := uns 64 (Int.ofNat s.tim.ofs + stepAsked s v) } ∧ t.f Fld.TIM_STEP_CTRL_FORCE = 0 ∧
    (125000 < (edgeError (s.edgeNow + stepAsked s v)).natAbs → t.f Fld.TIM_BEAT_STAT_REALIGN = 1 ∧ t.raised Ev.TIM_REALIGN ∧
      t.frm = { s.frm with realignErr := edgeError (s.edgeNow + stepAsked s v), driftErr := 0 }) ∧
    ((edgeError (s.edgeNow + stepAsked s v)).natAbs ≤ 125000 →
      t.frm = { s.frm with realignErr := 0, driftErr := 4 * edgeError (s.edgeNow + stepAsked s v) } ∧
        RegsKept [Adr.TIM_STEP_CTRL] s t) := by
  have wmoved : (s.addOfs (stepAsked s v)).regsWf := (addOfs_only w _).wf
  obtain ⟨hoff, hnear⟩ := edges_forceUsed wmoved (s.edgeNow + stepAsked s v)
  rw [frm_addOfs] at hoff hnear
  refine Runs.live (congrArg (fun u => live s (forceUsed u)) ((timeStep_free hrun hf).trans (stepEdges_eq s _))) hp
    ⟨?_, force_forceUsed (compareEdges_writes wmoved _).wf, hoff, fun h => ⟨(hnear h).1, fun a ha => ?_⟩⟩
  · rw [tim_forceUsed, tim_compareEdges, tim_addOfs]
  · rw [(hnear h).2 a ha, reg_congr (regs_addOfs s _)]

theorem runs_stepForce : Runs .stepForce s fun t => t.f Fld.TIM_STEP_CTRL_FORCE = 1 ∧ OnlyRegs [Adr.TIM_STEP_CTRL] s t :=
  Runs.live rfl hp ⟨(f_ok _ _).trans (f_setF_at w 1 (by decide)), ((OnlyRegs.refl _ s).setF w 1 (by decide)).ok⟩

theorem runs_timeNowRead : Runs .timeNowRead s fun t => t.answer = ⟨.okay, leBytes 4 (BitVec.ofNat 32 s.now).toNat⟩ ∧
    t.reg Adr.TIM_NOW_HI = BitVec.ofNat 32 (s.now / 2 ^ 32) ∧ t.pair Adr.TIM_RAW_LO Adr.TIM_RAW_HI = s.tim.raw % 2 ^ 64 ∧
    t.reg Adr.TIM_UNC = BitVec.ofNat 32 s.uncertainty ∧
    OnlyRegs [Adr.TIM_NOW_HI, Adr.TIM_RAW_LO, Adr.TIM_RAW_HI, Adr.TIM_UNC] s t :=
  Runs.live rfl hp ⟨rfl, (reg_ansW _ _ _).trans (nowHi_timeLatched w), raw_timeLatched w, (reg_ansW _ _ _).trans (unc_timeLatched w),
    (timeLatched_only w).ansW _⟩

end Steering

/-- Settles O50: a rate moves its past contribution into the offset, so that time does not jump; a step is taken, slewed or refused by the
first of the rules that applies, and `FORCE` is used up in every case. -/
theorem timeIsSteered : Obligations.TimeIsSteered := by
  intro s m v hp w
  refine ⟨fun h => runs_timeRefused hp w (congrArg (live s) (doRate_refused h)), fun hr hh => runs_rateWrite_taken hp w ?_,
    fun hstop => runs_stepWrite_quiet hp (timeStep_stopped hstop m _) (addOfs_only w _),
    fun hrun => ⟨runs_stepWrite_free hp w hrun, fun hf h => runs_timeRefused hp w ?_,
      fun hf hh hx => runs_stepWrite_quiet hp (timeStep_slewed hrun hf hh hx) (slewAsked_only w _)⟩,
    runs_stepForce hp w, Runs.live (exec_slewIncrement s) hp rfl, runs_timeNowRead hp w⟩
  · rintro (hbad | ⟨hheld, hunforced⟩)
    · exact Nat.not_le.2 hbad hr
    · exact hh.elim (fun h => Bool.false_ne_true (h.symm.trans hheld)) fun h => Bool.false_ne_true (hunforced.symm.trans h)
  · exact congrArg (fun u => live s (forceUsed u)) (timeStep_refused hrun hf h)

end Sys2Proof.Proofs
end

section
/-! ## UARTs

Characters received, read, written and sent (R368–R370). The lemmas about the model's operations stand first, the statement's proof after
them. -/

namespace Sys2Proof.Laws

open Sys2Proof.Machine

/-! ### Words and events of the UARTs (R371) -/

/-- A word of UART `u`. -/
theorem uatWord {u o : Nat} (hu : u < 8) (ho : 6 < o ∧ o < 1024) : BlockWord ((20 + u) * 1024 + o) := blockWord_page (by omega) ho

theorem blockPage_uat {u : Nat} (hu : u < 8) : blockPage (20 + u) = 20 + u := blockPage_own (by omega)

/-- The UARTs have the events `RX` and `ERR`. -/
theorem evMask_uat {u : Nat} (hu : u < 8) : 2 ^ 0 &&& evMask (20 + u) = 2 ^ 0 ∧ 2 ^ 1 &&& evMask (20 + u) = 2 ^ 1 := by
  revert u
  decide

theorem raised_uatRx {s : State} (w : s.regsWf) {u : Nat} (hu : u < 8) : (s.raise (Ev.UAT_RX u)).raised (Ev.UAT_RX u) :=
  raise_sets w (show 0 < 32 by decide) (evMask_uat hu).1

theorem raised_uatErr {s : State} (w : s.regsWf) {u : Nat} (hu : u < 8) : (s.raise (Ev.UAT_ERR u)).raised (Ev.UAT_ERR u) :=
  raise_sets w (show 1 < 32 by decide) (evMask_uat hu).2

/-! ### The UARTs' own state -/

theorem uart_raise (s : State) (e : Ev) : (s.raise e).uart = s.uart := by
  rw [raise_parts]

theorem uart_stick (s : State) (c flag : RF) (n : Nat) : (s.stick c flag n).uart = s.uart := by
  rw [stick_parts]

/-- UART `u` replaced, its fill levels not yet shown. -/
def uartPlaced (s : State) (u : Nat) (x : UartSt) : State := { s with uart := setNth s.uart u x }

theorem setUart_eq (s : State) (u : Nat) (x : UartSt) : s.setUart u x =
    (((uartPlaced s u x).setF (Fld.UAT_STAT_RX_FILL u) x.rx.length).setF (Fld.UAT_STAT_ST_FILL u) x.stamps.length).setF
      (Fld.UAT_STAT_TX_FREE u) (255 - x.tx.length) := rfl

theorem uartPlaced_wf {s : State} (w : s.regsWf) (u : Nat) (x : UartSt) : (uartPlaced s u x).regsWf := mk_wf w

theorem uart_setUart (s : State) (u : Nat) (x : UartSt) : (s.setUart u x).uart = setNth s.uart u x := by
  rw [setUart_eq, setF_uart, setF_uart, setF_uart, uartPlaced]

theorem uart_send (s : State) (p : Port) (i : Nat) (b : List Byte) : (s.send p i b).uart = s.uart := by
  unfold State.send
  split <;> rfl

theorem uartOf_congr {s t : State} (h : t.uart = s.uart) (u : Nat) : t.uartOf u = s.uartOf u := by
  unfold State.uartOf
  rw [h]

theorem uartOf_setNth {s t : State} {u : Nat} {x : UartSt} (h : t.uart = setNth s.uart u x) (hlen : u < s.uart.length) :
    t.uartOf u = x := by
  unfold State.uartOf
  rw [h, getD_setNth, if_pos ⟨rfl, hlen⟩]

section SetUart

variable {s : State} (w : s.regsWf) {u : Nat} (x : UartSt)
include w

/-- The fill levels are in the status word alone. -/
theorem setUart_writes (hu : u < 8) : Writes [Adr.UAT_STAT u] s (s.setUart u x) := by
  have hbody : 6 < Adr.UAT_STAT u % 1024 := (uatWord hu (by decide)).body
  have hplaced : Writes [Adr.UAT_STAT u] s (uartPlaced s u x) := (Writes.refl w).same rfl rfl rfl
  exact ((hplaced.setF _ hbody (by simp)).setF _ hbody (by simp)).setF _ hbody (by simp)

theorem rxFill_setUart (hx : x.rx.length < 2048) : (s.setUart u x).f (Fld.UAT_STAT_RX_FILL u) = x.rx.length := by
  have w1 := setF_wf (uartPlaced_wf w u x) (Fld.UAT_STAT_RX_FILL u) x.rx.length
  refine (f_setF_beside (setF_wf w1 _ _) _ (by decide) (by decide)).trans ((f_setF_beside w1 _ (by decide) (by decide)).trans ?_)
  exact (f_setF_at (uartPlaced_wf w u x) _ (by decide)).trans (Nat.mod_eq_of_lt hx)

theorem txFree_setUart : (s.setUart u x).f (Fld.UAT_STAT_TX_FREE u) = 255 - x.tx.length :=
  (f_setF_at (setF_wf (setF_wf (uartPlaced_wf w u x) _ _) _ _) _ (by decide)).trans
    (Nat.mod_eq_of_lt (Nat.lt_succ_of_le (Nat.sub_le _ _)))

end SetUart

/-! ### A received character (R369, R370) -/

/-- The words that a counted error or loss of UART `u` changes. -/
abbrev uatErrWords (u : Nat) : List Nat := evWords (20 + u) ++ [Adr.UAT_CNT u, Adr.UAT_FLAGS u]

/-- The stamps held after a character of word `w`, whose start bit fell `back` ns ago. -/
def stampsAfter (s : State) (u w back : Nat) : List (Nat × Nat) :=
  if bitOf w 11 && decide ((s.uartOf u).stamps.length < 32) then
    (s.uartOf u).stamps ++ [(uns 64 (Int.ofNat s.now - Int.ofNat back), s.f (Fld.UAT_RXCHARS_COUNT u))]
  else (s.uartOf u).stamps

/-- UART `u` with the word `w` in its FIFO, and the stamp of it. -/
def uartHolding (s : State) (u w back : Nat) : UartSt :=
  { s.uartOf u with rx := (s.uartOf u).rx ++ [w], stamps := stampsAfter s u w back }

/-- The word `w` is in the FIFO and counted. -/
def charStored (s : State) (u w back : Nat) : State := (s.setUart u (uartHolding s u w back)).wrap (Fld.UAT_RXCHARS_COUNT u) 1

/-- A loss is counted where `lost`. -/
def lossCounted (u : Nat) (lost : Bool) (s : State) : State := if lost then s.uartLost u else s

/-- A bad character is counted where `bad`. -/
def errorCounted (u : Nat) (bad : Bool) (s : State) : State :=
  if bad then (s.stick (Fld.UAT_CNT_ERR u) (Fld.UAT_FLAGS_ERR_SAT u) 1).raise (Ev.UAT_ERR u) else s

/-- The character is told where `told`. -/
def charTold (u : Nat) (told : Bool) (s : State) : State := if told then s.raise (Ev.UAT_RX u) else s

/-- What follows the storing of a character of word `w`. -/
def charJudged (s : State) (u w : Nat) (bad : Bool) (t : State) : State :=
  charTold u (bitOf w 11 || decide ((s.uartOf u).rx.length + 1 = 512))
    (errorCounted u bad (lossCounted u (bitOf w 11 && !decide ((s.uartOf u).stamps.length < 32)) t))

theorem doUartRx_full {s : State} {u : Nat} (h : 1024 ≤ (s.uartOf u).rx.length) (c : Nat) (fr pa br : Bool) (back : Nat) :
    doUartRx s u c fr pa br back = s.uartLost u := if_pos h

theorem doUartRx_room {s : State} {u : Nat} (h : (s.uartOf u).rx.length < 1024) (c : Nat) (fr pa br : Bool) (back : Nat) :
    doUartRx s u c fr pa br back =
      charJudged s u (s.uartWord u c fr pa br) (fr || (pa || br)) (charStored s u (s.uartWord u c fr pa br) back) :=
  if_neg (Nat.not_le.2 h)

section Judged

variable {s : State} (w : s.regsWf) {u : Nat} (hu : u < 8)
include w hu

/-- A counter of UART `u` of the word `UAT_CNT` counts one more and the event of an error is raised. -/
theorem errCounter_writes (hi lo i : Nat) :
    Writes (uatErrWords u) s ((s.stick ⟨Adr.UAT_CNT u, hi, lo⟩ ⟨Adr.UAT_FLAGS u, i, i⟩ 1).raise (Ev.UAT_ERR u)) :=
  ((Writes.refl w).stick 1 ⟨(uatWord hu (by decide)).body, (uatWord hu (by decide)).body⟩ (by simp)).raise (e := Ev.UAT_ERR u)
    (blockPage_uat hu) fun _ ha => List.mem_append_left _ ha

theorem uartLost_writes : Writes (uatErrWords u) s (s.uartLost u) := errCounter_writes w hu 15 0 0

theorem lossCounted_writes (lost : Bool) : Writes (uatErrWords u) s (lossCounted u lost s) := by
  cases lost
  · exact Writes.refl w
  · exact uartLost_writes w hu

theorem errorCounted_writes (bad : Bool) : Writes (uatErrWords u) s (errorCounted u bad s) := by
  cases bad
  · exact Writes.refl w
  · exact errCounter_writes w hu 31 16 1

theorem charTold_writes (told : Bool) : Writes (uatErrWords u) s (charTold u told s) := by
  cases told
  · exact Writes.refl w
  · exact (Writes.refl w).raise (e := Ev.UAT_RX u) (blockPage_uat hu) fun _ ha => List.mem_append_left _ ha

theorem raised_errorCounted : (errorCounted u true s).raised (Ev.UAT_ERR u) := raised_uatErr (stick_wf w _ _ 1) hu

theorem lost_uartLost : (s.uartLost u).f (Fld.UAT_CNT_LOST u) = min (s.f (Fld.UAT_CNT_LOST u) + 1) 65535 ∧
    (s.uartLost u).raised (Ev.UAT_ERR u) := by
  have hcnt : BlockWord (Adr.UAT_CNT u) := uatWord hu (by decide)
  have wl := stick_wf w (Fld.UAT_CNT_LOST u) (Fld.UAT_FLAGS_LOST_SAT u) 1
  exact ⟨(f_raise_block (e := Ev.UAT_ERR u) wl hcnt (blockPage_uat hu)).trans
    (f_stick_apart w (by decide) hcnt (uatWord hu (by decide)) (by simp)), raised_uatErr wl hu⟩

end Judged

theorem uart_uartLost (s : State) (u : Nat) : (s.uartLost u).uart = s.uart := (uart_raise _ _).trans (uart_stick _ _ _ _)

theorem uart_lossCounted (u : Nat) (lost : Bool) (s : State) : (lossCounted u lost s).uart = s.uart := by
  cases lost
  · rfl
  · exact uart_uartLost s u

theorem uart_errorCounted (u : Nat) (bad : Bool) (s : State) : (errorCounted u bad s).uart = s.uart := by
  cases bad
  · rfl
  · exact (uart_raise _ _).trans (uart_stick _ _ _ _)

theorem uart_charTold (u : Nat) (told : Bool) (s : State) : (charTold u told s).uart = s.uart := by
  cases told
  · rfl
  · exact uart_raise _ _

theorem uart_charJudged (s : State) (u w : Nat) (bad : Bool) (t : State) : (charJudged s u w bad t).uart = t.uart := by
  rw [charJudged, uart_charTold, uart_errorCounted, uart_lossCounted]

theorem uart_charStored (s : State) (u w back : Nat) : (charStored s u w back).uart = setNth s.uart u (uartHolding s u w back) := by
  rw [charStored, State.wrap, setF_uart, uart_setUart]

section Stored

variable {s : State} (w : s.regsWf) {u : Nat} (hu : u < 8) (x back : Nat)
include w hu

theorem charStored_wf : (charStored s u x back).regsWf := setF_wf (setUart_writes w _ hu).wf _ _

theorem count_charStored : (charStored s u x back).f (Fld.UAT_RXCHARS_COUNT u) = (s.f (Fld.UAT_RXCHARS_COUNT u) + 1) % 2 ^ 32 := by
  have hset := setUart_writes w (uartHolding s u x back) hu
  refine (f_setF_at hset.wf _ (by decide)).trans ?_
  rw [hset.field _ ((uatWord hu (by decide)).not_mem (by simp))]

theorem rxFill_charStored (h : (s.uartOf u).rx.length < 1024) :
    (charStored s u x back).f (Fld.UAT_STAT_RX_FILL u) = (s.uartOf u).rx.length + 1 := by
  have hlen : (uartHolding s u x back).rx.length = (s.uartOf u).rx.length + 1 := List.length_append
  refine (f_setF_apart (setUart_writes w _ hu).wf _ (uatWord hu (by decide)) (uatWord hu (by decide)) (by simp)).trans ?_
  rw [rxFill_setUart w _ (by omega), hlen]

omit w

/-- A character that has been stored is judged: nothing of the FIFO and its counters changes. -/
theorem f_charJudged {t : State} (wt : t.regsWf) (bad : Bool) {a h l : Nat} (ha : BlockWord a) (hc : a ≠ Adr.UAT_CNT u)
    (hf : a ≠ Adr.UAT_FLAGS u) : (charJudged s u x bad t).f ⟨a, h, l⟩ = t.f ⟨a, h, l⟩ := by
  have hloss := lossCounted_writes wt hu (bitOf x 11 && !decide ((s.uartOf u).stamps.length < 32))
  have herr := errorCounted_writes hloss.wf hu bad
  have htold := charTold_writes herr.wf hu (bitOf x 11 || decide ((s.uartOf u).rx.length + 1 = 512))
  exact ((hloss.trans herr).trans htold).field ⟨a, h, l⟩ (ha.not_mem (by simp [ha.not_mem_evWords, hc, hf]))

theorem raised_rx_charJudged {t : State} (wt : t.regsWf) (bad : Bool) (h : bitOf x 11 = true) :
    (charJudged s u x bad t).raised (Ev.UAT_RX u) := by
  have hloss := lossCounted_writes wt hu (bitOf x 11 && !decide ((s.uartOf u).stamps.length < 32))
  unfold charJudged
  rw [show (bitOf x 11 || decide ((s.uartOf u).rx.length + 1 = 512)) = true by rw [h, Bool.true_or]]
  exact raised_uatRx (errorCounted_writes hloss.wf hu bad).wf hu

theorem raised_err_charJudged {t : State} (wt : t.regsWf) : (charJudged s u x true t).raised (Ev.UAT_ERR u) := by
  have hloss := lossCounted_writes wt hu (bitOf x 11 && !decide ((s.uartOf u).stamps.length < 32))
  exact (charTold_writes (errorCounted_writes hloss.wf hu true).wf hu _).stays _ (raised_errorCounted hloss.wf hu)

end Stored

/-! ### Reads (R369) -/

theorem noteSrc_quiet {s : State} {m ty i : Nat} (h : s.liveSrc ty i = false) : s.noteSrc m ty i = s :=
  if_neg (ne_true_of_eq_false h)

/-- The stamp `ts` of character `i` is held for the reader. -/
def stampShown (u ts i : Nat) (s : State) : State :=
  (s.setPair (Adr.UAT_STAMP_LO u) (Adr.UAT_STAMP_HI u) ts).setReg (Adr.UAT_STAMP_IDX u) (BitVec.ofNat 32 i)

theorem uart_stampShown (u ts i : Nat) (s : State) : (stampShown u ts i s).uart = s.uart := by
  rw [stampShown, setReg_uart, setPair_uart]

theorem stampShown_mem (u ts i : Nat) (s : State) : MemKept s (stampShown u ts i s) := fun _ => rfl

theorem pair_ansW (s : State) (v : Word) (a b : Nat) : (s.ansW v).pair a b = s.pair a b := by
  unfold State.pair
  rw [reg_ansW, reg_ansW]

theorem memKept_ansW {s t : State} (h : MemKept s t) (v : Word) : MemKept s (t.ansW v) := h

theorem stampShown_words {s : State} (w : s.regsWf) {u : Nat} (hu : u < 8) {ts : Nat} (hts : ts < 2 ^ 64) (i : Nat) :
    (stampShown u ts i s).pair (Adr.UAT_STAMP_LO u) (Adr.UAT_STAMP_HI u) = ts ∧
      (stampShown u ts i s).reg (Adr.UAT_STAMP_IDX u) = BitVec.ofNat 32 i := by
  have hlo : BlockWord (Adr.UAT_STAMP_LO u) := uatWord hu (by decide)
  have hhi : BlockWord (Adr.UAT_STAMP_HI u) := uatWord hu (by decide)
  have hidx : BlockWord (Adr.UAT_STAMP_IDX u) := uatWord hu (by decide)
  have wp := setPair_wf w (Adr.UAT_STAMP_LO u) (Adr.UAT_STAMP_HI u) ts
  have hlast : Writes [Adr.UAT_STAMP_IDX u] _ (stampShown u ts i s) := (Writes.refl wp).setReg (BitVec.ofNat 32 i) hidx.body (by simp)
  refine ⟨?_, reg_setReg_same wp _ _⟩
  rw [regsKept_pair hlast.kept (hlo.not_mem (by simp)) (hhi.not_mem (by simp)), pair_setPair w ts (hlo.canon_ne hhi (by simp)),
    Nat.mod_eq_of_lt hts]

section Pops

variable {s : State} {u : Nat} (hl : s.liveSrc 1 u = false) (m : Nat)
include hl

theorem doUartPop_oldest {w : Nat} {ws : List Nat} (h : (s.uartOf u).rx = w :: ws) :
    doUartPop s m u = (s.setUart u { s.uartOf u with rx := ws }).ansW (BitVec.ofNat 32 (2 ^ 31 + w)) := by
  unfold doUartPop State.uartPop
  rw [noteSrc_quiet hl]
  dsimp only
  rw [h]

theorem doUartPop_empty (h : (s.uartOf u).rx = []) : doUartPop s m u = s.draw.ansW (BitVec.ofNat 32 (s.free % 2 ^ 12)) := by
  unfold doUartPop State.uartPop
  rw [noteSrc_quiet hl]
  dsimp only
  rw [h]

theorem doUartStamp_oldest {ts i : Nat} {r : List (Nat × Nat)} (h : (s.uartOf u).stamps = (ts, i) :: r) :
    doUartStamp s m u = (stampShown u ts i (s.setUart u { s.uartOf u with stamps := r })).ansW (BitVec.ofNat 32 ts) := by
  unfold doUartStamp
  rw [noteSrc_quiet hl]
  dsimp only
  rw [h]
  rfl

theorem doUartStamp_empty (h : (s.uartOf u).stamps = []) : doUartStamp s m u = s.draw.ansW (BitVec.ofNat 32 s.free) := by
  unfold doUartStamp
  rw [noteSrc_quiet hl]
  dsimp only
  rw [h]

end Pops

/-! ### Transmission (R368) -/

/-- UART `u` with the character of the word `v` waiting. -/
def uartQueueing (s : State) (u : Nat) (v : Word) : UartSt := { s.uartOf u with tx := (s.uartOf u).tx ++ [BitVec.ofNat 8 v.toNat] }

theorem doUartTx_room {s : State} {u : Nat} (h : (s.uartOf u).tx.length < 255) (v : Word) :
    doUartTx s u v = (s.setUart u (uartQueueing s u v)).ok := congrArg State.ok (if_pos h)

theorem doUartTx_full {s : State} {u : Nat} (h : 255 ≤ (s.uartOf u).tx.length) (v : Word) : doUartTx s u v = s.ok :=
  congrArg State.ok (if_neg (Nat.not_lt.2 h))

/-- A divisor in its range. -/
abbrev DivisorOk (v : Word) : Prop := 868 ≤ v.toNat % 2 ^ 18 ∧ v.toNat % 2 ^ 18 ≤ 166667

section Divisor

variable {s : State} {u : Nat} {v : Word}

theorem doUartDiv_locked (h : s.locked (Adr.UAT_DIV u) = true) : doUartDiv s u v = s.ok := congrArg State.ok (if_pos h)

theorem doUartDiv_open (h : s.locked (Adr.UAT_DIV u) = false) : doUartDiv s u v =
    (if DivisorOk v then s.setF (Fld.UAT_DIV_DIV u) (v.toNat % 2 ^ 18) else s.setF (Fld.UAT_FLAGS_DIV_REF u) 1).ok :=
  congrArg State.ok (if_neg (ne_true_of_eq_false h))

end Divisor

theorem doUartSent_idle {s : State} {u : Nat} (h : (s.uartOf u).tx = []) : doUartSent s u = s := by
  unfold doUartSent
  dsimp only
  rw [h]

/-- The character that leaves, as its length lets it. -/
def charOut (s : State) (u : Nat) (c : Byte) : Byte := if s.fb (Fld.UAT_CFG_DATA7 u) then BitVec.ofNat 8 (c.toNat % 128) else c

theorem doUartSent_oldest {s : State} {u : Nat} {c : Byte} {cs : List Byte} (h : (s.uartOf u).tx = c :: cs) :
    doUartSent s u = (s.setUart u { s.uartOf u with tx := cs }).send .uart u [charOut s u c] := by
  unfold doUartSent
  dsimp only
  rw [h]
  rfl

theorem sent_setUart (s : State) (u : Nat) (x : UartSt) : (s.setUart u x).sent = s.sent := by
  rw [setUart_eq, setF_sent, setF_sent, setF_sent, uartPlaced]

theorem muted_setUart (s : State) (u : Nat) (x : UartSt) : (s.setUart u x).muted = s.muted := by
  unfold State.muted
  rw [setUart_eq, setF_tap, setF_tap, setF_tap, uartPlaced]

end Sys2Proof.Laws

namespace Sys2Proof.Proofs

open Sys2Proof.Machine Sys2Proof.Laws

section Received

variable {s : State} (w : s.regsWf) {u : Nat} (hu : u < 8) (c : Nat) (fr pa br : Bool) (back : Nat)
include w hu

theorem uartRx_lost (h : 1024 ≤ (s.uartOf u).rx.length) : let t := doUartRx s u c fr pa br back
    t.f (Fld.UAT_CNT_LOST u) = min (s.f (Fld.UAT_CNT_LOST u) + 1) 65535 ∧ t.raised (Ev.UAT_ERR u) ∧ t.uart = s.uart := by
  obtain ⟨hcount, hraised⟩ := lost_uartLost w hu
  rw [doUartRx_full h]
  exact ⟨hcount, hraised, uart_uartLost s u⟩

theorem uartRx_stored (hlen : u < s.uart.length) (h : (s.uartOf u).rx.length < 1024) : let t := doUartRx s u c fr pa br back
    let x := s.uartOf u
    let w := s.uartWord u c fr pa br
    (t.uartOf u).rx = x.rx ++ [w] ∧ t.f (Fld.UAT_RXCHARS_COUNT u) = (s.f (Fld.UAT_RXCHARS_COUNT u) + 1) % 2 ^ 32 ∧
      t.f (Fld.UAT_STAT_RX_FILL u) = x.rx.length + 1 ∧
      (bitOf w 11 = true → x.stamps.length < 32 → (t.uartOf u).stamps =
        x.stamps ++ [(uns 64 (Int.ofNat s.now - Int.ofNat back), s.f (Fld.UAT_RXCHARS_COUNT u))] ∧ t.raised (Ev.UAT_RX u)) ∧
      (bitOf w 11 = false → (t.uartOf u).stamps = x.stamps) ∧ (fr = true → t.raised (Ev.UAT_ERR u)) := by
  intro t x word
  have ht : t = charJudged s u word (fr || (pa || br)) (charStored s u word back) := doUartRx_room h c fr pa br back
  have wc := charStored_wf w hu word back
  have hheld : t.uartOf u = uartHolding s u word back := by
    rw [ht]
    exact uartOf_setNth ((uart_charJudged _ _ _ _ _).trans (uart_charStored s u word back)) hlen
  rw [hheld, ht]
  refine ⟨rfl, ?_, ?_, fun hsos hroom => ⟨?_, raised_rx_charJudged hu word wc _ hsos⟩, fun hsos => ?_, fun hfr => ?_⟩
  · exact (f_charJudged hu word wc _ (uatWord hu (by decide)) (by simp) (by simp)).trans (count_charStored w hu word back)
  · exact (f_charJudged hu word wc _ (uatWord hu (by decide)) (by simp) (by simp)).trans (rxFill_charStored w hu word back h)
  · exact if_pos (by rw [hsos, decide_eq_true hroom]; rfl)
  · exact if_neg (by rw [hsos]; exact Bool.false_ne_true)
  · rw [hfr]
    exact raised_err_charJudged hu word wc

end Received

section Commands

variable {s : State} (hp : s.pwr.on = true) (w : s.regsWf) {u : Nat} (hu : u < 8)
include hp hu

theorem runs_uartCharRx (hon : s.uartOn u = true) (c : Nat) (fr pa br : Bool) (back : Nat) :
    Runs (.uartCharRx u c fr pa br back) s fun t => t = (doUartRx s u c fr pa br back).paceAll :=
  Runs.liveIf rfl hp (by rw [decide_eq_true hu, hon]; rfl) rfl

theorem runs_uartRxPop_empty (m : Nat) (hl : s.liveSrc 1 u = false) (h : (s.uartOf u).rx = []) : Runs (.uartRxPop m u) s fun t =>
    ∃ v, v < 4096 ∧ t = { s with answer := ⟨.okay, leBytes 4 v⟩, draws := s.draws + 1 } := by
  have hfree : s.free % 2 ^ 12 < 4096 := Nat.mod_lt _ (by decide)
  refine Runs.liveIf rfl hp (decide_eq_true hu) ⟨(BitVec.ofNat 32 (s.free % 2 ^ 12)).toNat, ?_, doUartPop_empty hl m h⟩
  rw [BitVec.toNat_ofNat]
  omega

theorem runs_uartStampPop_empty (m : Nat) (hl : s.liveSrc 1 u = false) (h : (s.uartOf u).stamps = []) : Runs (.uartStampPop m u) s fun t =>
    ∃ v, t = { s with answer := ⟨.okay, leBytes 4 v⟩, draws := s.draws + 1 } :=
  Runs.liveIf rfl hp (decide_eq_true hu) ⟨_, doUartStamp_empty hl m h⟩

include w

theorem runs_uartRxPop_oldest (m : Nat) (hl : s.liveSrc 1 u = false) {x : Nat} {xs : List Nat} (h : (s.uartOf u).rx = x :: xs) :
    Runs (.uartRxPop m u) s fun t => t.answer = ⟨.okay, leBytes 4 (BitVec.ofNat 32 (2 ^ 31 + x)).toNat⟩ ∧
      t.uart = setNth s.uart u { s.uartOf u with rx := xs } ∧ RegsKept [Adr.UAT_STAT u] s t ∧ MemKept s t := by
  have hset : Writes [Adr.UAT_STAT u] s (doUartPop s m u) := by
    rw [doUartPop_oldest hl m h]
    exact (setUart_writes w _ hu).ansW _
  refine Runs.liveIf rfl hp (decide_eq_true hu) ⟨?_, ?_, hset.kept, hset.mem⟩
  · rw [doUartPop_oldest hl m h, ansW_answer]
  · rw [doUartPop_oldest hl m h, ansW_uart, uart_setUart]

theorem runs_uartStampPop_oldest (m : Nat) (hl : s.liveSrc 1 u = false) {ts i : Nat} {r : List (Nat × Nat)}
    (h : (s.uartOf u).stamps = (ts, i) :: r) (hts : ts < 2 ^ 64) : Runs (.uartStampPop m u) s fun t =>
      t.answer = ⟨.okay, leBytes 4 (BitVec.ofNat 32 ts).toNat⟩ ∧ t.pair (Adr.UAT_STAMP_LO u) (Adr.UAT_STAMP_HI u) = ts ∧
      t.reg (Adr.UAT_STAMP_IDX u) = BitVec.ofNat 32 i ∧ t.uart = setNth s.uart u { s.uartOf u with stamps := r } ∧ MemKept s t := by
  have hset := setUart_writes w { s.uartOf u with stamps := r } hu
  obtain ⟨hpair, hidx⟩ := stampShown_words hset.wf hu hts i
  refine Runs.liveIf rfl hp (decide_eq_true hu) ?_
  rw [doUartStamp_oldest hl m h]
  refine ⟨ansW_answer _ _, (pair_ansW _ _ _ _).trans hpair, (reg_ansW _ _ _).trans hidx, ?_,
    memKept_ansW (fun a => (stampShown_mem u ts i _ a).trans (hset.mem a)) _⟩
  rw [ansW_uart, uart_stampShown, uart_setUart]

theorem runs_uartTxWrite_room (v : Word) (h : (s.uartOf u).tx.length < 255) : Runs (.uartTxWrite u v) s fun t =>
    t.uart = setNth s.uart u { s.uartOf u with tx := (s.uartOf u).tx ++ [BitVec.ofNat 8 v.toNat] } ∧
      t.f (Fld.UAT_STAT_TX_FREE u) = 254 - (s.uartOf u).tx.length ∧ RegsKept [Adr.UAT_STAT u] s t ∧ MemKept s t := by
  have hset := (setUart_writes w (uartQueueing s u v) hu).ok
  have hfree : (uartQueueing s u v).tx.length = (s.uartOf u).tx.length + 1 := List.length_append
  refine Runs.liveIf rfl hp (decide_eq_true hu) ?_
  rw [doUartTx_room h]
  refine ⟨?_, ?_, hset.kept, hset.mem⟩
  · rw [ok_uart, uart_setUart]
    rfl
  · rw [f_ok, txFree_setUart w, hfree]
    omega

theorem runs_uartDivWrite_taken (v : Word) (hl : s.locked (Adr.UAT_DIV u) = false) (h : DivisorOk v) : Runs (.uartDivWrite u v) s fun t =>
    t.f (Fld.UAT_DIV_DIV u) = v.toNat % 2 ^ 18 ∧ OnlyRegs [Adr.UAT_DIV u] s t := by
  refine Runs.liveIf rfl hp (decide_eq_true hu) ?_
  rw [doUartDiv_open hl, if_pos h]
  refine ⟨((f_ok _ _).trans (f_setF_at w _ (by decide))).trans (Nat.mod_mod _ _), ((OnlyRegs.refl _ s).setF w _ ?_).ok⟩
  exact (uatWord hu (by decide)).mem (by simp)

theorem runs_uartDivWrite_refused (v : Word) (hl : s.locked (Adr.UAT_DIV u) = false) (h : ¬DivisorOk v) :
    Runs (.uartDivWrite u v) s fun t => t.f (Fld.UAT_FLAGS_DIV_REF u) = 1 ∧ OnlyRegs [Adr.UAT_FLAGS u] s t := by
  refine Runs.liveIf rfl hp (decide_eq_true hu) ?_
  rw [doUartDiv_open hl, if_neg h]
  refine ⟨(f_ok _ _).trans (f_setF_at w 1 (by decide)), ((OnlyRegs.refl _ s).setF w 1 ?_).ok⟩
  exact (uatWord hu (by decide)).mem (by simp)

theorem runs_uartCharSent_oldest (hon : s.uartOn u = true) {c : Byte} {cs : List Byte} (h : (s.uartOf u).tx = c :: cs) :
    Runs (.uartCharSent u) s fun t => t.uart = setNth s.uart u { s.uartOf u with tx := cs } ∧
      (s.muted = false → s.fb (Fld.UAT_CFG_DATA7 u) = false → t.sent = s.sent ++ [⟨.uart, u, [c]⟩]) ∧
      RegsKept [Adr.UAT_STAT u] s t ∧ MemKept s t := by
  have hsent := (setUart_writes w { s.uartOf u with tx := cs } hu).send .uart u [charOut s u c]
  refine Runs.liveIf rfl hp (by rw [decide_eq_true hu, hon]; rfl) ?_
  rw [doUartSent_oldest h]
  refine ⟨(uart_send _ _ _ _).trans (uart_setUart _ _ _), fun hm h8 => ?_, hsent.kept, hsent.mem⟩
  have hout : charOut s u c = c := if_neg (ne_true_of_eq_false h8)
  rw [sent_send ((muted_setUart _ _ _).trans hm), sent_setUart, hout]

end Commands

/-- Settles O52: a received character is stored and counted, and then judged, which leaves the FIFO alone; reads and writes move the ends
of the queues and keep the fill levels. -/
theorem uartMovesCharacters : Obligations.UartMovesCharacters := by
  intro s u hp w hu hlen
  refine ⟨fun c fr pa br back hon => runs_uartCharRx hp hu hon c fr pa br back,
    fun c fr pa br back => ⟨uartRx_lost w hu c fr pa br back, uartRx_stored w hu c fr pa br back hlen⟩,
    fun m hl => ⟨fun _ _ => runs_uartRxPop_oldest hp w hu m hl, runs_uartRxPop_empty hp hu m hl,
      fun _ _ _ => runs_uartStampPop_oldest hp w hu m hl, runs_uartStampPop_empty hp hu m hl⟩,
    fun v => ⟨runs_uartTxWrite_room hp w hu v, fun h => Runs.liveIf rfl hp (decide_eq_true hu) (doUartTx_full h v),
      fun hl => Runs.liveIf rfl hp (decide_eq_true hu) (doUartDiv_locked hl),
      fun hl hlo hhi => runs_uartDivWrite_taken hp w hu v hl ⟨hlo, hhi⟩,
      fun hl h => runs_uartDivWrite_refused hp w hu v hl (by omega)⟩,
    fun hon => ⟨fun h => Runs.liveIf rfl hp (by rw [decide_eq_true hu, hon]; rfl) (doUartSent_idle h),
      fun _ _ => runs_uartCharSent_oldest hp w hu hon⟩⟩

end Sys2Proof.Proofs
end

section
/-! ## Ethernet links, rings and delay calibration

Tails of the descriptor rings, the link's state and the calibration of a MAC's delays (R348, R349, R351). The lemmas about the model's
operations stand first, the statement's proof after them. -/

namespace Sys2Proof.Laws

open Sys2Proof.Machine

/-! ### Words and events of the MACs (R371) -/

/-- A word of MAC `k`. -/
theorem ethWord {k o : Nat} (hk : k < 4) (ho : 6 < o ∧ o < 1024) : BlockWord ((7 + k) * 1024 + o) := blockWord_page (by omega) ho

theorem blockPage_eth {k : Nat} (hk : k < 4) : blockPage (7 + k) = 7 + k := blockPage_own (by omega)

/-- The MACs have the event `ERR`. -/
theorem evMask_ethErr {k : Nat} (hk : k < 4) : 2 ^ 2 &&& evMask (7 + k) = 2 ^ 2 := by
  revert k
  decide

theorem raised_ethErr {s : State} (w : s.regsWf) {k : Nat} (hk : k < 4) : (s.raise (Ev.ETH_ERR k)).raised (Ev.ETH_ERR k) :=
  raise_sets w (show 2 < 32 by decide) (evMask_ethErr hk)

/-! ### The link (R349) -/

/-- The link is down, which is not yet told. -/
def linkLost (s : State) (k : Nat) : State := (s.setF (Fld.ETH_LINK_UP k) 0).setF (Fld.ETH_LINK_AN_DONE k) 0

/-- The link is up. -/
def linkFound (s : State) (k : Nat) : State := (s.setF (Fld.ETH_LINK_UP k) 1).setF (Fld.ETH_LINK_AN_DONE k) (s.f (Fld.ETH_CFG_AN_EN k))

section Link

variable {s : State} (w : s.regsWf) {k : Nat}
include w

/-- The two fields of a link's state written one after the other. -/
theorem link_set (up an : Nat) : let t := (s.setF (Fld.ETH_LINK_UP k) up).setF (Fld.ETH_LINK_AN_DONE k) an
    t.f (Fld.ETH_LINK_UP k) = up % 2 ∧ t.f (Fld.ETH_LINK_AN_DONE k) = an % 2 :=
  ⟨(f_setF_beside (setF_wf w _ _) an (by decide) (by decide)).trans (f_setF_at w up (by decide)), f_setF_at (setF_wf w _ _) an (by decide)⟩

theorem link_only (hk : k < 4) (up an : Nat) :
    OnlyRegs [Adr.ETH_LINK k] s ((s.setF (Fld.ETH_LINK_UP k) up).setF (Fld.ETH_LINK_AN_DONE k) an) := by
  have hmem : canon (Adr.ETH_LINK k) ∈ [Adr.ETH_LINK k] := (ethWord hk (by decide)).mem (by simp)
  exact ((OnlyRegs.refl _ s).setF w up hmem).setF (setF_wf w _ _) an hmem

end Link

/-! ### Calibration (R351) -/

/-- The words that a calibration sets. -/
abbrev calWords (k : Nat) : List Nat := [Adr.ETH_CAL k, Adr.ETH_TS_CORR k]

/-- The calibration has failed. -/
def calFailed (s : State) (k : Nat) : State := (s.setF (Fld.ETH_CAL_BUSY k) 0).setF (Fld.ETH_CAL_FAIL k) 1

/-- The round trip `r` is shown. -/
def calShown (s : State) (k r : Nat) : State := (s.setF (Fld.ETH_CAL_BUSY k) 0).setF (Fld.ETH_CAL_RTT k) r

/-- The corrections are set from it: half to the ingress, the rest to the egress. -/
def calSplit (s : State) (k r : Nat) : State := ((calShown s k r).setF (Fld.ETH_TS_CORR_IN k) (r / 2)).setF (Fld.ETH_TS_CORR_EG k) (r - r / 2)

/-- The calibration is done, which is not yet told. -/
def calMeasured (s : State) (k r : Nat) : State := (calSplit s k r).setF (Fld.ETH_CAL_DONE k) 1

theorem doEthCalDone_failed {n : Nat} (h : n < 60) (s : State) (k rtt : Nat) : doEthCalDone s k n rtt = calFailed s k := if_pos h

theorem doEthCalDone_measured {n : Nat} (h : 60 ≤ n) (s : State) (k rtt : Nat) :
    doEthCalDone s k n rtt = (calMeasured s k (rtt % 65536)).raise (Ev.ETH_ERR k) := if_neg (Nat.not_lt.2 h)

/-- A calibration is not begun while the MAC receives or transmits, or its block does not work. -/
abbrev CalHindered (s : State) (k : Nat) : Prop :=
  (s.fb (Fld.ETH_CFG_RX_EN k) || (s.fb (Fld.ETH_CFG_TX_EN k) || !s.works (7 + k))) = true

theorem doEthCalGo_hindered {s : State} {k : Nat} (h : CalHindered s k) : doEthCalGo s k = s.ok := congrArg State.ok (if_pos h)

theorem doEthCalGo_begun {s : State} {k : Nat} (h : ¬CalHindered s k) : doEthCalGo s k = (s.setF (Fld.ETH_CAL_BUSY k) 1).ok :=
  congrArg State.ok (if_neg h)

section Calibration

variable {s : State} (w : s.regsWf) {k : Nat} (r : Nat)
include w

theorem calShown_wf : (calShown s k r).regsWf := setF_wf (setF_wf w _ _) _ _

theorem calSplit_wf : (calSplit s k r).regsWf := setF_wf (setF_wf (calShown_wf w r) _ _) _ _

theorem calMeasured_wf : (calMeasured s k r).regsWf := setF_wf (calSplit_wf w r) _ _

variable (hk : k < 4)
include hk

theorem calMeasured_only : OnlyRegs (calWords k) s (calMeasured s k r) := by
  have hcal : canon (Adr.ETH_CAL k) ∈ calWords k := (ethWord hk (by decide)).mem (by simp)
  have hcorr : canon (Adr.ETH_TS_CORR k) ∈ calWords k := (ethWord hk (by decide)).mem (by simp)
  have hshown : OnlyRegs (calWords k) s (calShown s k r) := ((OnlyRegs.refl _ s).setF w 0 hcal).setF (setF_wf w _ _) r hcal
  have hsplit : OnlyRegs (calWords k) s (calSplit s k r) :=
    (hshown.setF (calShown_wf w r) _ hcorr).setF (setF_wf (calShown_wf w r) _ _) _ hcorr
  exact hsplit.setF (calSplit_wf w r) 1 hcal

/-- The corrections stand in a word of their own. -/
theorem f_calSplit_cal (h l : Nat) : (calSplit s k r).f ⟨Adr.ETH_CAL k, h, l⟩ = (calShown s k r).f ⟨Adr.ETH_CAL k, h, l⟩ := by
  have hcal : BlockWord (Adr.ETH_CAL k) := ethWord hk (by decide)
  have hcorr : BlockWord (Adr.ETH_TS_CORR k) := ethWord hk (by decide)
  have ws := calShown_wf (k := k) w r
  exact (f_setF_apart (setF_wf ws _ _) _ hcal hcorr (by simp)).trans (f_setF_apart ws _ hcal hcorr (by simp))

theorem busy_calMeasured : (calMeasured s k r).f (Fld.ETH_CAL_BUSY k) = 0 :=
  calc (calMeasured s k r).f (Fld.ETH_CAL_BUSY k)
      _ = (calSplit s k r).f (Fld.ETH_CAL_BUSY k) := f_setF_beside (calSplit_wf w r) 1 (by decide) (by decide)
      _ = (calShown s k r).f (Fld.ETH_CAL_BUSY k) := f_calSplit_cal w r hk 30 30
      _ = (s.setF (Fld.ETH_CAL_BUSY k) 0).f (Fld.ETH_CAL_BUSY k) := f_setF_beside (setF_wf w _ _) r (by decide) (by decide)
      _ = 0 := f_setF_at w 0 (by decide)

theorem rtt_calMeasured (hr : r < 65536) : (calMeasured s k r).f (Fld.ETH_CAL_RTT k) = r :=
  calc (calMeasured s k r).f (Fld.ETH_CAL_RTT k)
      _ = (calSplit s k r).f (Fld.ETH_CAL_RTT k) := f_setF_beside (calSplit_wf w r) 1 (by decide) (by decide)
      _ = (calShown s k r).f (Fld.ETH_CAL_RTT k) := f_calSplit_cal w r hk 15 0
      _ = r % 65536 := f_setF_at (setF_wf w _ _) r (by decide)
      _ = r := Nat.mod_eq_of_lt hr

/-- The directions share the round trip. -/
theorem corr_calMeasured (hr : r < 65536) :
    (calMeasured s k r).f (Fld.ETH_TS_CORR_IN k) = r / 2 ∧ (calMeasured s k r).f (Fld.ETH_TS_CORR_EG k) = r - r / 2 := by
  have wi := setF_wf (calShown_wf (k := k) w r) (Fld.ETH_TS_CORR_IN k) (r / 2)
  have hdone (h l : Nat) : (calMeasured s k r).f ⟨Adr.ETH_TS_CORR k, h, l⟩ = (calSplit s k r).f ⟨Adr.ETH_TS_CORR k, h, l⟩ :=
    f_setF_apart (calSplit_wf w r) 1 (ethWord hk (by decide)) (ethWord hk (by decide)) (by simp)
  constructor
  · calc (calMeasured s k r).f (Fld.ETH_TS_CORR_IN k)
      _ = (calSplit s k r).f (Fld.ETH_TS_CORR_IN k) := hdone 15 0
      _ = ((calShown s k r).setF (Fld.ETH_TS_CORR_IN k) (r / 2)).f (Fld.ETH_TS_CORR_IN k) := f_setF_beside wi _ (by decide) (by decide)
      _ = r / 2 % 65536 := f_setF_at (calShown_wf w r) _ (by decide)
      _ = r / 2 := Nat.mod_eq_of_lt (by omega)
  · calc (calMeasured s k r).f (Fld.ETH_TS_CORR_EG k)
      _ = (calSplit s k r).f (Fld.ETH_TS_CORR_EG k) := hdone 31 16
      _ = (r - r / 2) % 65536 := f_setF_at wi _ (by decide)
      _ = r - r / 2 := Nat.mod_eq_of_lt (by omega)

end Calibration

end Sys2Proof.Laws

namespace Sys2Proof.Proofs

open Sys2Proof.Machine Sys2Proof.Laws

section Mac

variable {s : State} (hp : s.pwr.on = true) (w : s.regsWf) {k : Nat} (hk : k < 4)
include hp w hk

theorem runs_ethRingTail (tx : Bool) (j : Nat) : Runs (.ethRingTail k tx j) s fun t =>
    t.f (if tx then Fld.ETH_TXR_TAIL_IDX k else Fld.ETH_RXR_TAIL_IDX k) = j % 1024 ∧
      OnlyRegs [if tx then Adr.ETH_TXR_TAIL k else Adr.ETH_RXR_TAIL k] s t := by
  refine Runs.liveIf rfl hp (decide_eq_true hk) ?_
  cases tx <;>
    exact ⟨(f_ok _ _).trans (f_setF_at w j (by decide)), ((OnlyRegs.refl _ s).setF w j ((ethWord hk (by decide)).mem (by simp))).ok⟩

theorem runs_ethLinkDown (h : s.fb (Fld.ETH_LINK_UP k) = true) : Runs (.ethLinkDown k) s fun t =>
    t.f (Fld.ETH_LINK_UP k) = 0 ∧ t.f (Fld.ETH_LINK_AN_DONE k) = 0 ∧ t.raised (Ev.ETH_ERR k) ∧
      OnlyRaised (7 + k) [Adr.ETH_LINK k] s t := by
  have hlink : BlockWord (Adr.ETH_LINK k) := ethWord hk (by decide)
  have wl : (linkLost s k).regsWf := setF_wf (setF_wf w _ _) _ _
  obtain ⟨hup, han⟩ := link_set (k := k) w 0 0
  refine Runs.liveIf (t := (linkLost s k).raise (Ev.ETH_ERR k)) rfl hp (by rw [decide_eq_true hk, h]; rfl)
    ⟨?_, ?_, raised_ethErr wl hk, (link_only w hk 0 0).raise wl (e := Ev.ETH_ERR k) (blockPage_eth hk)⟩
  · exact (f_raise_block (e := Ev.ETH_ERR k) wl hlink (blockPage_eth hk)).trans hup
  · exact (f_raise_block (e := Ev.ETH_ERR k) wl hlink (blockPage_eth hk)).trans han

theorem runs_ethLinkUp : Runs (.ethLinkUp k) s fun t => t.f (Fld.ETH_LINK_UP k) = 1 ∧
    t.f (Fld.ETH_LINK_AN_DONE k) = s.f (Fld.ETH_CFG_AN_EN k) ∧ OnlyRegs [Adr.ETH_LINK k] s t := by
  obtain ⟨hup, han⟩ := link_set (k := k) w 1 (s.f (Fld.ETH_CFG_AN_EN k))
  have hbit : s.f (Fld.ETH_CFG_AN_EN k) < 2 := bitsOf_lt _ 28 28
  exact Runs.liveIf (t := linkFound s k) rfl hp (decide_eq_true hk) ⟨hup, han.trans (Nat.mod_eq_of_lt hbit), link_only w hk 1 _⟩

theorem runs_ethCalGo_begun (h : ¬CalHindered s k) : Runs (.ethCalGo k) s fun t =>
    t.f (Fld.ETH_CAL_BUSY k) = 1 ∧ OnlyRegs [Adr.ETH_CAL k] s t := by
  refine Runs.liveIf rfl hp (decide_eq_true hk) ?_
  rw [doEthCalGo_begun h]
  exact ⟨(f_ok _ _).trans (f_setF_at w 1 (by decide)), ((OnlyRegs.refl _ s).setF w 1 ((ethWord hk (by decide)).mem (by simp))).ok⟩

section Done

variable (hb : s.fb (Fld.ETH_CAL_BUSY k) = true) {n : Nat} (rtt : Nat)
include hb

omit w in
theorem runs_ethCalDone {P : State → Prop} (h : P (doEthCalDone s k n rtt)) : Runs (.ethCalDone k n rtt) s P :=
  Runs.liveIf rfl hp (by rw [decide_eq_true hk, hb]; rfl) h

theorem runs_ethCalDone_failed (hn : n < 60) : Runs (.ethCalDone k n rtt) s fun t => t.f (Fld.ETH_CAL_BUSY k) = 0 ∧
    t.f (Fld.ETH_CAL_FAIL k) = 1 ∧ OnlyRegs [Adr.ETH_CAL k] s t := by
  have hcal : canon (Adr.ETH_CAL k) ∈ [Adr.ETH_CAL k] := (ethWord hk (by decide)).mem (by simp)
  have wb := setF_wf w (Fld.ETH_CAL_BUSY k) 0
  refine runs_ethCalDone hp hk hb rtt ?_
  rw [doEthCalDone_failed hn]
  exact ⟨(f_setF_beside wb 1 (by decide) (by decide)).trans (f_setF_at w 0 (by decide)), f_setF_at wb 1 (by decide),
    ((OnlyRegs.refl _ s).setF w 0 hcal).setF wb 1 hcal⟩

theorem runs_ethCalDone_measured (hn : 60 ≤ n) (hr : rtt < 65536) : Runs (.ethCalDone k n rtt) s fun t =>
    t.f (Fld.ETH_CAL_BUSY k) = 0 ∧ t.f (Fld.ETH_CAL_DONE k) = 1 ∧ t.f (Fld.ETH_CAL_RTT k) = rtt ∧
      t.f (Fld.ETH_TS_CORR_IN k) = rtt / 2 ∧ t.f (Fld.ETH_TS_CORR_EG k) = rtt - rtt / 2 ∧ t.raised (Ev.ETH_ERR k) ∧
      OnlyRaised (7 + k) [Adr.ETH_CAL k, Adr.ETH_TS_CORR k] s t := by
  have wm := calMeasured_wf (k := k) w rtt
  have hcal (h l : Nat) := f_raise_block (h := h) (l := l) (e := Ev.ETH_ERR k) wm (a := Adr.ETH_CAL k) (ethWord hk (by decide)) (blockPage_eth hk)
  have hcorr (h l : Nat) :=
    f_raise_block (h := h) (l := l) (e := Ev.ETH_ERR k) wm (a := Adr.ETH_TS_CORR k) (ethWord hk (by decide)) (blockPage_eth hk)
  obtain ⟨hin, heg⟩ := corr_calMeasured w rtt hk hr
  refine runs_ethCalDone hp hk hb rtt ?_
  rw [doEthCalDone_measured hn, Nat.mod_eq_of_lt hr]
  exact ⟨(hcal 30 30).trans (busy_calMeasured w rtt hk), (hcal 29 29).trans (f_setF_at (calSplit_wf w rtt) 1 (by decide)),
    (hcal 15 0).trans (rtt_calMeasured w rtt hk hr), (hcorr 15 0).trans hin, (hcorr 31 16).trans heg, raised_ethErr wm hk,
    (calMeasured_only w rtt hk).raise wm (e := Ev.ETH_ERR k) (blockPage_eth hk)⟩

end Done

end Mac

/-- Settles O48: the registers of a MAC are words of its own page, which an event of the page leaves alone; a calibration writes the fields
of two of them one after the other. -/
theorem ethLinkRingsAndCalibration : Obligations.EthLinkRingsAndCalibration := by
  intro s k hp w hk
  refine ⟨runs_ethRingTail hp w hk, runs_ethLinkDown hp w hk, fun h => ?_, runs_ethLinkUp hp w hk, fun h => ?_, fun h hw => ?_,
    fun n rtt hb => ⟨runs_ethCalDone_failed hp w hk hb rtt, runs_ethCalDone_measured hp w hk hb rtt⟩⟩
  · exact runs_of_liveIf_false rfl (by rw [h, Bool.and_false])
  · exact Runs.liveIf rfl hp (decide_eq_true hk) (doEthCalGo_hindered (by rw [CalHindered, ← Bool.or_assoc, h, Bool.true_or]))
  · exact runs_ethCalGo_begun hp w hk (by rw [CalHindered, ← Bool.or_assoc, h, hw]; decide)

end Sys2Proof.Proofs
end

section
/-! ## What memory requests leave of the blocks' registers

A memory request counts, records and raises in the words of the access tables, the memories and the ledger; the registers of the pages
between are left as they are (R19, R423, R449). -/

namespace Sys2Proof.Laws

open Sys2Proof.Machine

/-- From `s` the machine has come to `t` without a change of the registers of the pages 4 to 142 above their headers. -/
structure BlocksKept (s t : State) : Prop where
  wf : s.regsWf → t.regsWf
  kept : s.regsWf → ∀ a, BlockWord a → t.reg a = s.reg a

/-- `a` is a word of another page. -/
abbrev Outside (a : Nat) : Prop := a < 4096 ∨ 146432 ≤ a

/-- Such a word is not folded into those between. -/
theorem canon_outside {a : Nat} (h : Outside a) : Outside (canon a) := by
  unfold canon
  split
  · omega
  · split
    · rw [blockPage_own (by omega)]
      omega
    · exact h

theorem outside_ne {a b : Nat} (ha : Outside a) (hb : BlockWord b) : canon b ≠ canon a := by
  have hout := canon_outside ha
  obtain ⟨hbody, hlo, hhi⟩ := hb
  rw [canon_body hbody]
  omega

theorem outside_memEcc (b : Nat) : Outside (Adr.MEM_ECC b) := Or.inr (by unfold Adr.MEM_ECC; omega)

section BlocksKept

variable {s t u : State}

theorem BlocksKept.refl (s : State) : BlocksKept s s := ⟨id, fun _ _ _ => rfl⟩

theorem BlocksKept.trans (h : BlocksKept s t) (k : BlocksKept t u) : BlocksKept s u :=
  ⟨fun w => k.wf (h.wf w), fun w a ha => (k.kept (h.wf w) a ha).trans (h.kept w a ha)⟩

theorem BlocksKept.same (h : t.regs = s.regs) : BlocksKept s t := ⟨regsWf_congr h, fun _ a _ => reg_congr h a⟩

theorem BlocksKept.field (h : BlocksKept s t) (w : s.regsWf) {a hi lo : Nat} (ha : BlockWord a) : t.f ⟨a, hi, lo⟩ = s.f ⟨a, hi, lo⟩ := by
  unfold State.f
  rw [h.kept w a ha]

theorem BlocksKept.setF (s : State) {r : RF} (hr : Outside r.a) (v : Nat) : BlocksKept s (s.setF r v) :=
  ⟨fun w => setF_wf w r v, fun w _ ha => reg_setF_ne w v (outside_ne hr ha)⟩

theorem BlocksKept.andSetF (h : BlocksKept s t) {r : RF} (hr : Outside r.a) (v : Nat) : BlocksKept s (t.setF r v) :=
  h.trans (BlocksKept.setF t hr v)

theorem BlocksKept.stick (s : State) {c flag : RF} (hc : Outside c.a) (hf : Outside flag.a) (n : Nat) :
    BlocksKept s (s.stick c flag n) := by
  unfold State.stick
  dsimp only
  split
  · exact BlocksKept.refl s
  · split
    · exact BlocksKept.setF s hc _
    · exact (BlocksKept.setF s hc _).andSetF hf _

theorem BlocksKept.raise (s : State) {e : Ev} (hp : blockPage e.page = e.page) : BlocksKept s (s.raise e) :=
  ⟨fun w => raise_wf w e, fun w a ha => raise_kept w hp a (ha.not_event _)⟩

theorem BlocksKept.ite {c : Prop} [Decidable c] (ht : BlocksKept s t) (hu : BlocksKept s u) : BlocksKept s (if c then t else u) := by
  split
  · exact ht
  · exact hu

theorem BlocksKept.foldl {α : Type} {f : State → α → State} (hf : ∀ t x, BlocksKept t (f t x)) (l : List α) :
    BlocksKept s (l.foldl f s) := by
  induction l generalizing s with
  | nil => exact BlocksKept.refl s
  | cons x l ih => exact (hf s x).trans ih

/-- What assertions of the ledger bring about. -/
theorem BlocksKept.rings (h : Rings s t) : BlocksKept s t :=
  ⟨h.wf, fun w a ha => h.kept w a fun hl => ha.not_event 148 (List.mem_cons_of_mem _ hl)⟩

theorem BlocksKept.offerFabric (s : State) (m code : Nat) (wr : Bool) (a : Nat) : BlocksKept s (s.offerFabric m code wr a) := by
  unfold State.offerFabric
  split
  · exact BlocksKept.same rfl
  · refine BlocksKept.trans ?_ (BlocksKept.rings (Rings.offer _ _))
    exact BlocksKept.same rfl

theorem BlocksKept.withMm (s : State) (m : MemSt) : BlocksKept s { s with mm := m } := BlocksKept.same rfl

/-- A refused request is counted and described in words of the access tables. -/
theorem BlocksKept.violation (s : State) (m : Nat) (k : Acc) (i o : Nat) : BlocksKept s (s.violation m k i o) := by
  unfold State.violation
  dsimp only
  refine BlocksKept.trans ?_ (BlocksKept.raise _ rfl)
  refine (BlocksKept.stick s (by decide) (by decide) 1).trans (BlocksKept.ite (BlocksKept.refl _) ?_)
  exact (((((BlocksKept.refl _).andSetF (by decide) _).andSetF (by decide) _).andSetF (by decide) _).andSetF (by decide) _).andSetF
    (by decide) _

/-- A corrected error is counted in the words of its memory. -/
theorem BlocksKept.countCe (s : State) (a : Nat) : BlocksKept s (s.countCe a) := by
  have hecc := outside_memEcc (bankOf a)
  unfold State.countCe
  dsimp only
  refine BlocksKept.ite ?_ (BlocksKept.ite ?_ (BlocksKept.refl s))
  · exact (BlocksKept.stick s (by decide) (by decide) 1).trans
      (BlocksKept.ite (BlocksKept.refl _) ((BlocksKept.withMm _ _).trans (BlocksKept.raise _ rfl)))
  · exact (BlocksKept.stick s hecc hecc 1).trans
      (BlocksKept.ite (BlocksKept.refl _) ((BlocksKept.withMm _ _).trans (BlocksKept.raise _ rfl)))

/-- So is an uncorrectable one, with its place. -/
theorem BlocksKept.countUe (s : State) (a m : Nat) : BlocksKept s (s.countUe a m) := by
  have hecc := outside_memEcc (bankOf a)
  have hmark : BlocksKept s (if m = 5 ∨ m = 6 ∨ m = 23 ∨ m = 24 ∨ m = 25 then { s with frm := { s.frm with eccUe := true } } else s) :=
    BlocksKept.ite (BlocksKept.same rfl) (BlocksKept.refl s)
  unfold State.countUe
  dsimp only
  refine hmark.trans (BlocksKept.ite ?_ (BlocksKept.ite ?_ (BlocksKept.refl _)))
  · exact ((((BlocksKept.stick _ (by decide) (by decide) 1).andSetF (by decide) _).andSetF (by decide) _).andSetF (by decide) _).trans
      (BlocksKept.raise _ rfl)
  · exact (((((BlocksKept.stick _ hecc hecc 1).andSetF (by decide) _).andSetF (by decide) _).andSetF (by decide) _).andSetF
      (by decide) _).trans (BlocksKept.raise _ rfl)

theorem BlocksKept.gate {m a n : Nat} {k : Acc} {r : Reply} (h : s.gate m k a n = some r) : BlocksKept s r.st := by
  unfold State.gate at h
  split at h
  · exact Option.some.inj h ▸ BlocksKept.offerFabric s _ _ _ _
  · split at h
    · exact Option.some.inj h ▸ (BlocksKept.violation s _ _ _ _).trans (BlocksKept.offerFabric _ _ _ _ _)
    · split at h
      · exact Option.some.inj h ▸ BlocksKept.offerFabric s _ _ _ _
      · split at h
        · exact Option.some.inj h ▸ BlocksKept.offerFabric s _ _ _ _
        · split at h
          · exact Option.some.inj h ▸ (BlocksKept.raise s rfl).trans (BlocksKept.offerFabric _ _ _ _ _)
          · cases h

theorem BlocksKept.store (s : State) (a : Nat) (bs : List Byte) : BlocksKept s (s.store a bs) := by
  rw [(store_parts s a bs).1]
  exact BlocksKept.same rfl

/-- Whatever the fabric answers, a memory request leaves these registers alone. -/
theorem BlocksKept.memReq (s : State) (m : Nat) (k : Acc) (a n : Nat) (d : List Byte) (en : List Bool) :
    BlocksKept s (s.memReq m k a n d en).st := by
  unfold State.memReq
  split
  · exact BlocksKept.gate ‹_›
  · split
    · exact BlocksKept.same rfl
    · split
      · exact BlocksKept.offerFabric s _ _ _ _
      · dsimp only
        split
        · exact (BlocksKept.ite (BlocksKept.refl s) (BlocksKept.countUe s _ _)).trans (BlocksKept.offerFabric _ _ _ _ _)
        · have hcounted : BlocksKept s (((halvesRead k a n).filter fun h => s.eccAt h == 1).foldl (fun t h => t.countCe h) s) :=
            BlocksKept.foldl BlocksKept.countCe _
          split
          · exact hcounted.trans (BlocksKept.store _ _ _)
          · exact hcounted

theorem BlocksKept.mRead (s : State) (m a n : Nat) : BlocksKept s (s.mRead m a n).st := BlocksKept.memReq s _ _ _ _ _ _

theorem BlocksKept.mWrite (s : State) (m a : Nat) (d : List Byte) : BlocksKept s (s.mWrite m a d).st := BlocksKept.memReq s _ _ _ _ _ _

end BlocksKept

end Sys2Proof.Laws
end

section
/-! ## Ethernet frames received and sent

The receive filter, the descriptor rings, the transparent clock's transit queue and the order of transmission (R347–R350, R353, R355;
PAUSE, R346). The lemmas about the model's operations stand first, the statement's proof after them. -/

namespace Sys2Proof.Laws

open Sys2Proof.Machine

/-! ### The MACs' own state -/

theorem eth_raise (s : State) (e : Ev) : (s.raise e).eth = s.eth := by
  rw [raise_parts]

theorem eth_stick (s : State) (c flag : RF) (n : Nat) : (s.stick c flag n).eth = s.eth := by
  rw [stick_parts]

theorem eth_send (s : State) (p : Port) (i : Nat) (b : List Byte) : (s.send p i b).eth = s.eth := by
  unfold State.send
  split <;> rfl

theorem Served.eth {s t : State} (h : Served s t) : t.eth = s.eth := by
  rw [h.parts]

theorem eth_mRead (s : State) (m a n : Nat) : (s.mRead m a n).st.eth = s.eth := (Served.memReq s _ _ _ _ _ _).eth

theorem eth_mWrite (s : State) (m a : Nat) (d : List Byte) : (s.mWrite m a d).st.eth = s.eth := (Served.memReq s _ _ _ _ _ _).eth

theorem ethOf_congr {s t : State} (h : t.eth = s.eth) (j : Nat) : t.ethOf j = s.ethOf j := by
  unfold State.ethOf
  rw [h]

theorem ethOf_setEth {s : State} {k : Nat} (hk : k < s.eth.length) (x : EthSt) : (s.setEth k x).ethOf k = x :=
  (getD_setNth s.eth k k x {}).trans (if_pos ⟨rfl, hk⟩)

theorem ethOf_setEth_ne (s : State) {j k : Nat} (h : j ≠ k) (x : EthSt) : (s.setEth k x).ethOf j = s.ethOf j :=
  (getD_setNth s.eth k j x {}).trans (if_neg fun e => h e.1)

theorem length_setEth (s : State) (k : Nat) (x : EthSt) : (s.setEth k x).eth.length = s.eth.length := length_setNth _ _ _

theorem setEth_wf {s : State} (w : s.regsWf) (k : Nat) (x : EthSt) : (s.setEth k x).regsWf := mk_wf w

theorem f_setEth (s : State) (k : Nat) (x : EthSt) (q : RF) : (s.setEth k x).f q = s.f q := f_mk q

theorem Writes.setEth {l : List Nat} {s t : State} (h : Writes l s t) (k : Nat) (x : EthSt) : Writes l s (t.setEth k x) := h.same rfl rfl rfl

/-- The other MAC of a pair. -/
theorem sibling_mac {k : Nat} (hk : k < 4) : k ^^^ 1 < 4 ∧ k ^^^ 1 ≠ k := by
  revert k
  decide

/-! ### An error response to the port's DMA (R349) -/

/-- The port's DMA has stopped, which is not yet told. -/
def busStopped (s : State) (k : Nat) : State := (s.setEth k { s.ethOf k with stopped := true }).setF (Fld.ETH_LINK_BUS_ERR k) 1

theorem ethBusErr_eq (s : State) (k : Nat) : s.ethBusErr k = (busStopped s k).raise (Ev.ETH_ERR k) := rfl

theorem eth_ethBusErr (s : State) (k : Nat) : (s.ethBusErr k).eth = (s.setEth k { s.ethOf k with stopped := true }).eth := by
  rw [ethBusErr_eq, eth_raise, busStopped, setF_eth]

theorem ethOf_ethBusErr_ne (s : State) {j k : Nat} (h : j ≠ k) : (s.ethBusErr k).ethOf j = s.ethOf j :=
  (ethOf_congr (eth_ethBusErr s k) j).trans (ethOf_setEth_ne s h _)

theorem stopped_ethBusErr {s : State} {k : Nat} (hk : k < s.eth.length) : ((s.ethBusErr k).ethOf k).stopped = true := by
  rw [ethOf_congr (eth_ethBusErr s k), ethOf_setEth hk]

theorem busErr_ethBusErr {s : State} (w : s.regsWf) {k : Nat} (hk : k < 4) : (s.ethBusErr k).f (Fld.ETH_LINK_BUS_ERR k) = 1 := by
  have wb : (busStopped s k).regsWf := setF_wf (setEth_wf w _ _) _ _
  exact (f_raise_block (e := Ev.ETH_ERR k) wb (ethWord hk (by decide)) (blockPage_eth hk)).trans (f_setF_at (setEth_wf w _ _) 1 (by decide))

/-! ### The receive ring (R348, R349) -/

/-- The address of the receive ring's next descriptor. -/
abbrev rxSlot (s : State) (k : Nat) : Nat := s.f (Fld.ETH_RXR_BASE_ADDR k) * 256 + 32 * s.f (Fld.ETH_RXR_HEAD_IDX k)

/-- The descriptor as read. -/
abbrev rxDesc (s : State) (k : Nat) : Reply := s.mRead (16 + k) (rxSlot s k) 32

/-- Its `FLAGS`. -/
abbrev rxFlags (s : State) (k : Nat) : Nat := leAt (rxDesc s k).data 8 2

/-- The frame written to its buffer. -/
abbrev rxFrame (s : State) (k : Nat) (b : List Byte) : Reply := (rxDesc s k).st.mWrite (16 + k) (leAt (rxDesc s k).data 0 5) b

/-- The `FLAGS` of the descriptor completed for the port itself. -/
abbrev rxOwnFlags (s : State) (k : Nat) (b : List Byte) : Nat := bitsOf (rxFlags s k) 1 1 * 2 + 4 + 8 * b2n (ptpEvent b)

/-- The descriptor completed with the given `FLAGS`. -/
abbrev rxClosedWith (s : State) (k : Nat) (b : List Byte) (ts flags : Nat) : Reply :=
  (rxFrame s k b).st.mWrite (16 + k) (rxSlot s k) (descDone (rxDesc s k).data b.length flags ts)

/-- The descriptor completed. -/
abbrev rxClosed (s : State) (k : Nat) (b : List Byte) (ts : Nat) (transit : Bool) : Reply :=
  rxClosedWith s k b ts (rxOwnFlags s k b + 256 * b2n transit)

/-- The descriptor completed for the port itself. -/
abbrev rxClosedOwn (s : State) (k : Nat) (b : List Byte) (ts : Nat) : Reply := rxClosedWith s k b ts (rxOwnFlags s k b)

theorem rxClosed_own (s : State) (k : Nat) (b : List Byte) (ts : Nat) : rxClosed s k b ts false = rxClosedOwn s k b ts :=
  congrArg (rxClosedWith s k b ts) (Nat.add_zero _)

/-- A frame without a descriptor counted, its event not yet raised. -/
def noBufCounted (s : State) (k : Nat) : State := (rxDesc s k).st.stick (Fld.ETH_CNT_A_RX_NOBUF k) (Fld.ETH_FLAGS_NOBUF_SAT k) 1

/-- The head moved past the completed descriptor. -/
def headMoved (s : State) (k : Nat) (t : State) : State :=
  t.setF (Fld.ETH_RXR_HEAD_IDX k) ((s.f (Fld.ETH_RXR_HEAD_IDX k) + 1) % ringSize (s.f (Fld.ETH_RXR_SIZE_N k)))

/-- The frame in the ring and counted, its event not yet raised. -/
def frameRung (s : State) (k : Nat) (t : State) : State := (headMoved s k t).wrap (Fld.ETH_CNT_B_RX_OK k) 1

/-- The event of a received frame, where the descriptor asks for it. -/
def rxTold (s : State) (k : Nat) (t : State) : State := if bitOf (rxFlags s k) 1 then t.raise (Ev.ETH_RX k) else t

theorem ethDeliver_eq (s : State) (k : Nat) (b : List Byte) (ts : Nat) (transit : Bool) : s.ethDeliver k b ts transit =
    if (rxDesc s k).rsp ≠ .okay then (rxDesc s k).st.ethBusErr k
    else if rxFlags s k % 2 = 0 then (noBufCounted s k).raise (Ev.ETH_ERR k)
    else if (rxFrame s k b).rsp ≠ .okay then (rxFrame s k b).st.ethBusErr k
    else if (rxClosed s k b ts transit).rsp ≠ .okay then (rxClosed s k b ts transit).st.ethBusErr k
    else rxTold s k (frameRung s k (rxClosed s k b ts transit).st) := rfl

theorem eth_noBufCounted (s : State) (k : Nat) : (noBufCounted s k).eth = s.eth := by
  rw [noBufCounted, eth_stick, eth_mRead]

theorem eth_rxTold (s : State) (k : Nat) (t : State) : (rxTold s k t).eth = t.eth := by
  unfold rxTold
  split
  · exact eth_raise _ _
  · rfl

theorem mem_rxTold (s : State) (k : Nat) (t : State) : (rxTold s k t).mem = t.mem := by
  unfold rxTold
  split
  · rw [raise_parts]
  · rfl

theorem eth_frameRung (s : State) (k : Nat) (t : State) : (frameRung s k t).eth = t.eth := by
  rw [frameRung, State.wrap, setF_eth, headMoved, setF_eth]

theorem mem_frameRung (s : State) (k : Nat) (t : State) : (frameRung s k t).mem = t.mem := by
  rw [frameRung, State.wrap, setF_mem, headMoved, setF_mem]

/-- A delivery touches the own state of no other MAC. -/
theorem ethOf_ethDeliver_ne (s : State) {j k : Nat} (h : j ≠ k) (b : List Byte) (ts : Nat) (transit : Bool) :
    (s.ethDeliver k b ts transit).ethOf j = s.ethOf j := by
  have hdesc : (rxDesc s k).st.eth = s.eth := eth_mRead s _ _ _
  have hframe : (rxFrame s k b).st.eth = s.eth := by rw [eth_mWrite, hdesc]
  have hclosed : (rxClosed s k b ts transit).st.eth = s.eth := by rw [eth_mWrite, hframe]
  rw [ethDeliver_eq]
  split
  · exact (ethOf_ethBusErr_ne _ h).trans (ethOf_congr hdesc j)
  · split
    · exact ethOf_congr ((eth_raise _ _).trans (eth_noBufCounted s k)) j
    · split
      · exact (ethOf_ethBusErr_ne _ h).trans (ethOf_congr hframe j)
      · split
        · exact (ethOf_ethBusErr_ne _ h).trans (ethOf_congr hclosed j)
        · exact ethOf_congr ((eth_rxTold _ _ _).trans ((eth_frameRung _ _ _).trans hclosed)) j

section Deliver

variable {s : State} {k : Nat} (b : List Byte) (ts : Nat) (transit : Bool)

theorem ethDeliver_unread (h : (rxDesc s k).rsp ≠ .okay) : s.ethDeliver k b ts transit = (rxDesc s k).st.ethBusErr k := if_pos h

variable (hd : (rxDesc s k).rsp = .okay)
include hd

theorem ethDeliver_noBuf (hf : rxFlags s k % 2 = 0) : s.ethDeliver k b ts transit = (noBufCounted s k).raise (Ev.ETH_ERR k) := by
  rw [ethDeliver_eq, if_neg (not_not.2 hd), if_pos hf]

theorem ethDeliver_rung (hf : rxFlags s k % 2 = 1) (hw : (rxFrame s k b).rsp = .okay) (hq : (rxClosed s k b ts transit).rsp = .okay) :
    s.ethDeliver k b ts transit = rxTold s k (frameRung s k (rxClosed s k b ts transit).st) := by
  rw [ethDeliver_eq, if_neg (not_not.2 hd), if_neg (by omega), if_neg (not_not.2 hw), if_neg (not_not.2 hq)]

end Deliver

section DeliverWords

variable {s : State} (w : s.regsWf) {k : Nat} (hk : k < 4)
include w hk

theorem noBuf_ethDeliver : ((noBufCounted s k).raise (Ev.ETH_ERR k)).f (Fld.ETH_CNT_A_RX_NOBUF k) =
    min (s.f (Fld.ETH_CNT_A_RX_NOBUF k) + 1) 65535 := by
  have hread : BlocksKept s (rxDesc s k).st := BlocksKept.mRead s _ _ _
  have hcnt : BlockWord (Adr.ETH_CNT_A k) := ethWord hk (by decide)
  calc ((noBufCounted s k).raise (Ev.ETH_ERR k)).f (Fld.ETH_CNT_A_RX_NOBUF k)
      _ = (noBufCounted s k).f (Fld.ETH_CNT_A_RX_NOBUF k) :=
        f_raise_block (e := Ev.ETH_ERR k) (stick_wf (hread.wf w) _ _ 1) hcnt (blockPage_eth hk)
      _ = min ((rxDesc s k).st.f (Fld.ETH_CNT_A_RX_NOBUF k) + 1) 65535 :=
        f_stick_apart (hread.wf w) (by decide) hcnt (ethWord hk (by decide)) (by simp)
      _ = min (s.f (Fld.ETH_CNT_A_RX_NOBUF k) + 1) 65535 := by rw [hread.field w hcnt]

variable {t : State} (h : BlocksKept s t)
include h

omit hk in
theorem headMoved_wf : (headMoved s k t).regsWf := setF_wf (h.wf w) _ _

omit hk in
theorem frameRung_wf : (frameRung s k t).regsWf := setF_wf (setF_wf (h.wf w) _ _) _ _

theorem f_rxTold {a hi lo : Nat} (ha : BlockWord a) : (rxTold s k (frameRung s k t)).f ⟨a, hi, lo⟩ = (frameRung s k t).f ⟨a, hi, lo⟩ := by
  unfold rxTold
  split
  · exact f_raise_block (e := Ev.ETH_RX k) (frameRung_wf w h) ha (blockPage_eth hk)
  · rfl

theorem head_frameRung : (frameRung s k t).f (Fld.ETH_RXR_HEAD_IDX k) =
    (s.f (Fld.ETH_RXR_HEAD_IDX k) + 1) % ringSize (s.f (Fld.ETH_RXR_SIZE_N k)) % 1024 :=
  (f_setF_apart (headMoved_wf w h) _ (ethWord hk (by decide)) (ethWord hk (by decide)) (by simp)).trans (f_setF_at (h.wf w) _ (by decide))

theorem rxOk_frameRung : (frameRung s k t).f (Fld.ETH_CNT_B_RX_OK k) = (s.f (Fld.ETH_CNT_B_RX_OK k) + 1) % 65536 := by
  have hcnt : BlockWord (Adr.ETH_CNT_B k) := ethWord hk (by decide)
  have hbefore : (headMoved s k t).f (Fld.ETH_CNT_B_RX_OK k) = s.f (Fld.ETH_CNT_B_RX_OK k) :=
    (f_setF_apart (h.wf w) _ hcnt (ethWord hk (by decide)) (by simp)).trans (h.field w hcnt)
  exact (f_setF_at (headMoved_wf w h) _ (by decide)).trans (congrArg (fun n => (n + 1) % 65536) hbefore)

end DeliverWords

/-! ### Frames that arrive (R346, R347, R353, R355) -/

/-- A frame's length without its FCS is allowed. -/
abbrev FrameLength (b : List Byte) : Prop := 60 ≤ b.length ∧ b.length ≤ 1518

/-- What is not a sound frame for the replay port takes the way of the rings. -/
theorem exec_ethFrameRx {s : State} {k : Nat} (hk : k < 4) {b : List Byte} {fcs : Bool}
    (h : fcs = false ∨ ¬FrameLength b ∨ s.replayRx k = false ∨ s.ethRxOn k = false) (back : Nat) :
    exec (.ethFrameRx k b fcs back) s = live s (doEthRx s k b fcs back) := by
  have hmine : (fcs && (decide (60 ≤ b.length) && (decide (b.length ≤ 1518) && (s.replayRx k && (s.ethRxOn k && s.replayMine b))))) = false := by
    rcases h with h | h | h | h
    · rw [h, Bool.false_and]
    · rw [← Bool.and_assoc (decide _), ← Bool.decide_and, decide_eq_false h, Bool.false_and, Bool.and_false]
    · rw [h, Bool.false_and, Bool.and_false, Bool.and_false, Bool.and_false]
    · rw [h, Bool.false_and, Bool.and_false, Bool.and_false, Bool.and_false, Bool.and_false]
  show liveIf (decide (k < 4)) s _ = _
  rw [decide_eq_true hk, hmine]
  rfl

/-- A bad frame is counted. -/
def rxErrCounted (s : State) (k : Nat) : State := s.stick (Fld.ETH_CNT_A_RX_ERR k) (Fld.ETH_FLAGS_RXERR_SAT k) 1

theorem doEthRx_off {s : State} {k : Nat} (h : s.ethRxOn k = false) (b : List Byte) (fcs : Bool) (back : Nat) : doEthRx s k b fcs back = s :=
  if_pos h

section Arrival

variable {s : State} {k : Nat} (hon : s.ethRxOn k = true) {b : List Byte} {back : Nat}
include hon

theorem doEthRx_bad {fcs : Bool} (h : fcs = false ∨ ¬FrameLength b) : doEthRx s k b fcs back = rxErrCounted s k :=
  (if_neg (by rw [hon]; decide)).trans (if_pos (h.imp_right fun hlen => by omega))

variable (hlen : FrameLength b)
include hlen

omit hon in
theorem good_frame : ¬(true = false ∨ b.length < 60 ∨ 1518 < b.length) := by
  rintro (h | h | h)
  · cases h
  · omega
  · omega

theorem doEthRx_paused {u : State} (h : s.pauseRx k b = some u) : doEthRx s k b true back = u := by
  unfold doEthRx
  rw [if_neg (by rw [hon]; decide), if_neg (good_frame hlen), h]

variable (hpause : s.pauseRx k b = none)
include hpause

theorem doEthRx_dropped (h : s.ethKeeps k b = false) : doEthRx s k b true back = s := by
  unfold doEthRx
  rw [if_neg (by rw [hon]; decide), if_neg (good_frame hlen), hpause]
  exact if_neg (ne_true_of_eq_false h)

theorem doEthRx_kept (h : s.ethKeeps k b = true) : doEthRx s k b true back = s.ethTake k b back := by
  unfold doEthRx
  rw [if_neg (by rw [hon]; decide), if_neg (good_frame hlen), hpause]
  exact if_pos h

end Arrival

theorem pauseRx_some {s u : State} {k : Nat} {b : List Byte} (h : s.pauseRx k b = some u) :
    u = { s with eth := setNth s.eth k { s.ethOf k with pausedTo := s.tim.raw + 512 * beAt b 16 2 } } := by
  unfold State.pauseRx at h
  split at h
  · exact (Option.some.inj h).symm
  · cases h

theorem ethTake_own {s : State} {k : Nat} {b : List Byte} (h : s.ethForwards k b = false) (back : Nat) :
    s.ethTake k b back = (s.keepDelayReq k b (s.rxStamp k back)).ethDeliver k b (s.rxStamp k back) false :=
  if_neg (ne_true_of_eq_false h)

/-- Keeping the stamp of a Delay_Req is a change of the receiving MAC's own state at most. -/
theorem keepDelayReq_cases (s : State) (k : Nat) (b : List Byte) (ts : Nat) :
    s.keepDelayReq k b ts = s ∨ ∃ x, s.keepDelayReq k b ts = s.setEth k x := by
  unfold State.keepDelayReq
  split
  · exact Or.inl rfl
  · split
    · exact Or.inr ⟨_, rfl⟩
    · exact Or.inl rfl

theorem ethOf_keepDelayReq_ne (s : State) {j k : Nat} (h : j ≠ k) (b : List Byte) (ts : Nat) : (s.keepDelayReq k b ts).ethOf j = s.ethOf j := by
  rcases keepDelayReq_cases s k b ts with hs | ⟨x, hx⟩
  · rw [hs]
  · rw [hx, ethOf_setEth_ne s h]

theorem length_keepDelayReq (s : State) (k : Nat) (b : List Byte) (ts : Nat) : (s.keepDelayReq k b ts).eth.length = s.eth.length := by
  rcases keepDelayReq_cases s k b ts with hs | ⟨x, hx⟩
  · rw [hs]
  · rw [hx, length_setEth]

/-- The frame `b` stamped `ts` in the transit queue of MAC `j`. -/
def transitQueued (s : State) (j : Nat) (b : List Byte) (ts : Nat) : State :=
  s.setEth j { s.ethOf j with transit := (s.ethOf j).transit ++ [(b, ts)] }

theorem ethTake_forwards {s : State} {k : Nat} (hk : k < 4) {b : List Byte} {back : Nat} (h : s.ethForwards k b = true)
    (hroom : (s.ethOf (k ^^^ 1)).transit.length < 8) : s.ethTake k b back =
      (transitQueued (s.keepDelayReq k b (s.rxStamp k back)) (k ^^^ 1) b (s.rxStamp k back)).ethDeliver k b (s.rxStamp k back) true := by
  have hother := ethOf_keepDelayReq_ne s (sibling_mac hk).2 b (s.rxStamp k back)
  exact (if_pos h).trans (if_pos (by rw [hother]; exact hroom))

/-- What is forwarded stands at the end of the other port's transit queue. -/
theorem transit_ethTake {s : State} {k : Nat} (hk : k < 4) (hlen : s.eth.length = 4) {b : List Byte} {back : Nat} (h : s.ethForwards k b = true)
    (hroom : (s.ethOf (k ^^^ 1)).transit.length < 8) :
    ((s.ethTake k b back).ethOf (k ^^^ 1)).transit = (s.ethOf (k ^^^ 1)).transit ++ [(b, s.rxStamp k back)] := by
  obtain ⟨hsib, hne⟩ := sibling_mac hk
  have hin : k ^^^ 1 < (s.keepDelayReq k b (s.rxStamp k back)).eth.length := by
    rw [length_keepDelayReq, hlen]
    exact hsib
  rw [ethTake_forwards hk h hroom, ethOf_ethDeliver_ne _ hne, transitQueued, ethOf_setEth hin, ethOf_keepDelayReq_ne s hne]

/-! ### Frames that leave (R349, R350, R355) -/

/-- A transit frame as it leaves: a PTP event message with its residence time added. -/
def transitFrame (s : State) (k : Nat) (b : List Byte) (ts : Nat) : List Byte :=
  if ptpEvent b then
    match ptpOf b with
    | none => b
    | some p => ptpPatch b p 8 (beBytes 8 (uns 64 (Int.ofNat (beAt b (p.off + 8) 8) + (Int.ofNat (s.txStamp k) - Int.ofNat ts) * 65536)))
  else b

theorem transitFrame_plain {b : List Byte} (h : ptpEvent b = false) (s : State) (k ts : Nat) : transitFrame s k b ts = b :=
  if_neg (ne_true_of_eq_false h)

/-- The oldest transit frame is out of its queue. -/
def transitPopped (s : State) (k : Nat) : State := s.setEth k { s.ethOf k with transit := (s.ethOf k).transit.drop 1 }

/-- A transit frame sent is counted as one. -/
def transitSent (s : State) (k : Nat) (d : List Byte) : State := ((transitPopped s k).send .eth k d).wrap (Fld.ETH_CNT_C_TC_FWD k) 1

theorem ethTransitTx_eq (s : State) (k : Nat) (b : List Byte) (ts : Nat) :
    s.ethTransitTx k b ts = (transitSent s k (transitFrame s k b ts)).wrap (Fld.ETH_CNT_B_TX_OK k) 1 := rfl

theorem eth_transitSent (s : State) (k : Nat) (d : List Byte) : (transitSent s k d).eth = (transitPopped s k).eth := by
  rw [transitSent, State.wrap, setF_eth, eth_send]

theorem transit_ethTransitTx {s : State} {k : Nat} (hk : k < s.eth.length) (b : List Byte) (ts : Nat) :
    ((s.ethTransitTx k b ts).ethOf k).transit = (s.ethOf k).transit.drop 1 := by
  have heth : (s.ethTransitTx k b ts).eth = (transitPopped s k).eth := by
    rw [ethTransitTx_eq, State.wrap, setF_eth, eth_transitSent]
  rw [ethOf_congr heth, transitPopped, ethOf_setEth hk]

theorem sent_ethTransitTx {s : State} {k : Nat} {b : List Byte} (hm : s.muted = false) (h : ptpEvent b = false) (ts : Nat) :
    (s.ethTransitTx k b ts).sent = s.sent ++ [⟨.eth, k, b⟩] := by
  have hmute : (transitPopped s k).muted = false := hm
  rw [ethTransitTx_eq, State.wrap, setF_sent, transitSent, State.wrap, setF_sent, sent_send hmute, transitFrame_plain h, transitPopped,
    State.setEth]

section Transit

variable {s : State} (w : s.regsWf) {k : Nat} (hk : k < 4)
include w hk

omit hk in
theorem popped_writes (l : List Nat) (d : List Byte) : Writes l s ((transitPopped s k).send .eth k d) :=
  ((Writes.refl w).setEth k _).send .eth k d

theorem transitSent_writes (d : List Byte) : Writes [Adr.ETH_CNT_C k] s (transitSent s k d) :=
  (popped_writes w _ d).setF _ (ethWord hk (by decide)).body (by simp)

theorem ethTransitTx_writes (b : List Byte) (ts : Nat) : Writes [Adr.ETH_CNT_B k, Adr.ETH_CNT_C k] s (s.ethTransitTx k b ts) :=
  ((transitSent_writes w hk _).mono (by simp)).setF _ (ethWord hk (by decide)).body (by simp)

theorem counts_ethTransitTx (b : List Byte) (ts : Nat) :
    (s.ethTransitTx k b ts).f (Fld.ETH_CNT_C_TC_FWD k) = (s.f (Fld.ETH_CNT_C_TC_FWD k) + 1) % 65536 ∧
      (s.ethTransitTx k b ts).f (Fld.ETH_CNT_B_TX_OK k) = (s.f (Fld.ETH_CNT_B_TX_OK k) + 1) % 65536 := by
  have hb : BlockWord (Adr.ETH_CNT_B k) := ethWord hk (by decide)
  have hc : BlockWord (Adr.ETH_CNT_C k) := ethWord hk (by decide)
  have hpopped := popped_writes w (k := k) [] (transitFrame s k b ts)
  have hsent := transitSent_writes w hk (transitFrame s k b ts)
  constructor
  · exact (f_setF_apart hsent.wf _ hc hb (by simp)).trans ((f_setF_at hpopped.wf _ (by decide)).trans
      (congrArg (fun n => (n + 1) % 65536) (hpopped.field _ List.not_mem_nil)))
  · exact (f_setF_at hsent.wf _ (by decide)).trans (congrArg (fun n => (n + 1) % 65536) (hsent.field _ (hb.not_mem (by simp))))

end Transit

theorem doEthTx_transit {s : State} {k : Nat} {b : List Byte} {ts : Nat} {rest : List (List Byte × Nat)}
    (h : (s.ethOf k).transit = (b, ts) :: rest) : doEthTx s k = s.ethTransitTx k b ts := by
  unfold doEthTx
  rw [h]

section NoTransit

variable {s : State} {k : Nat} (h : (s.ethOf k).transit = [])
include h

theorem doEthTx_replay (hready : s.rplReady k = true) (hring : (s.ethOf k).lastRing = true) : doEthTx s k = s.ethReplayTx k := by
  unfold doEthTx
  rw [h]
  exact if_pos ⟨hready, hring⟩

variable (hturn : s.rplReady k = false ∨ (s.ethOf k).lastRing = false)
include hturn

omit h in
/-- The turn is the transmit ring's. -/
theorem ring_turn : ¬(s.rplReady k = true ∧ (s.ethOf k).lastRing = true) := by
  rintro ⟨hready, hring⟩
  rcases hturn with hr | hl
  · exact Bool.false_ne_true (hr.symm.trans hready)
  · exact Bool.false_ne_true (hl.symm.trans hring)

theorem doEthTx_owned {u : State} {da : Nat} {d : List Byte} (hd : s.txDesc k = (u, some (da, d))) : doEthTx s k = u.ethRingTx k da d := by
  unfold doEthTx
  rw [h]
  dsimp only
  rw [if_neg (ring_turn hturn), hd]

theorem doEthTx_unowned {u : State} (hd : s.txDesc k = (u, none)) (hready : u.rplReady k = false) : doEthTx s k = u := by
  unfold doEthTx
  rw [h]
  dsimp only
  rw [if_neg (ring_turn hturn), hd]
  exact if_neg (ne_true_of_eq_false hready)

end NoTransit

theorem txDesc_stopped {s : State} {k : Nat} (h : (s.ethOf k).stopped = true) : s.txDesc k = (s, none) := if_pos (Or.inl h)

/-- A queue that holds a datagram has an oldest one. -/
theorem popReplay_some {q : List (List (List Byte))} (h : (q.any fun l => !l.isEmpty) = true) : ∃ b r, popReplay q = some (b, r) := by
  induction q with
  | nil => cases h
  | cons l q ih =>
    cases l with
    | nil => exact ih h
    | cons b bs => exact ⟨b, _, rfl⟩

theorem rplReady_pop {s : State} {k : Nat} (h : s.rplReady k = true) : ∃ b r, popReplay s.rpl.tx = some (b, r) :=
  popReplay_some (Bool.and_eq_true_iff.1 (Bool.and_eq_true_iff.1 h).2).2

/-- The replay port has its turn, with the queue `q` left. -/
def replayTurn (s : State) (k : Nat) (q : List (List (List Byte))) : State :=
  State.setEth { s with rpl := { s.rpl with tx := q } } k { s.ethOf k with lastRing := false }

theorem ethReplayTx_pop {s : State} {k : Nat} {b : List Byte} {q : List (List (List Byte))} (h : popReplay s.rpl.tx = some (b, q)) :
    s.ethReplayTx k = sendCounted k (replayTurn s k q) b := by
  unfold State.ethReplayTx
  rw [h]
  rfl

theorem txOk_ethReplayTx {s : State} (w : s.regsWf) {k : Nat} (h : s.rplReady k = true) :
    (s.ethReplayTx k).f (Fld.ETH_CNT_B_TX_OK k) = (s.f (Fld.ETH_CNT_B_TX_OK k) + 1) % 65536 := by
  obtain ⟨b, q, hpop⟩ := rplReady_pop h
  have hregs : (replayTurn s k q).regs = s.regs := rfl
  rw [ethReplayTx_pop hpop, txOk_sendCounted (regsWf_congr hregs w), f_congr hregs]

end Sys2Proof.Laws

namespace Sys2Proof.Proofs

open Sys2Proof.Machine Sys2Proof.Laws

/-! ### Reception -/

section Reception

variable {s : State} (hp : s.pwr.on = true) {k : Nat} (hk : k < 4) {b : List Byte} (back : Nat)
include hp hk

theorem runs_ethFrameRx_bad (w : s.regsWf) (hon : s.ethRxOn k = true) {fcs : Bool} (h : fcs = false ∨ ¬FrameLength b) :
    Runs (.ethFrameRx k b fcs back) s fun t =>
      t.f (Fld.ETH_CNT_A_RX_ERR k) = min (s.f (Fld.ETH_CNT_A_RX_ERR k) + 1) 65535 ∧ OnlyRegs [Adr.ETH_CNT_A k, Adr.ETH_FLAGS k] s t := by
  have hcnt : BlockWord (Adr.ETH_CNT_A k) := ethWord hk (by decide)
  have hflags : BlockWord (Adr.ETH_FLAGS k) := ethWord hk (by decide)
  refine Runs.live (exec_ethFrameRx hk (h.imp_right Or.inl) back) hp ?_
  rw [doEthRx_bad hon h]
  exact ⟨f_stick_apart w (by decide) hcnt hflags (by simp),
    onlyRegs_stick w (OnlyRegs.refl _ s) 1 (hcnt.mem (by simp)) (hflags.mem (by simp))⟩

variable (hon : s.ethRxOn k = true) (hrpl : s.replayRx k = false) (hlen : FrameLength b)
include hon hrpl hlen

omit hon hlen in
/-- A sound frame that is not the replay port's. -/
theorem runs_ethFrameRx {P : State → Prop} (h : P (doEthRx s k b true back)) : Runs (.ethFrameRx k b true back) s P :=
  Runs.live (exec_ethFrameRx hk (Or.inr (Or.inr (Or.inl hrpl))) back) hp h

theorem runs_ethFrameRx_paused {u : State} (h : s.pauseRx k b = some u) : Runs (.ethFrameRx k b true back) s fun t =>
    t = { s with eth := setNth s.eth k { s.ethOf k with pausedTo := s.tim.raw + 512 * beAt b 16 2 } } :=
  runs_ethFrameRx hp hk back hrpl ((doEthRx_paused hon hlen h).trans (pauseRx_some h))

variable (hpause : s.pauseRx k b = none) (hkeep : s.ethKeeps k b = true)
include hpause hkeep

theorem runs_ethFrameRx_own (h : s.ethForwards k b = false) : Runs (.ethFrameRx k b true back) s fun t =>
    t = (s.keepDelayReq k b (s.rxStamp k back)).ethDeliver k b (s.rxStamp k back) false :=
  runs_ethFrameRx hp hk back hrpl ((doEthRx_kept hon hlen hpause hkeep).trans (ethTake_own h back))

theorem runs_ethFrameRx_forwarded (hmacs : s.eth.length = 4) (h : s.ethForwards k b = true)
    (hroom : (s.ethOf (k ^^^ 1)).transit.length < 8) : Runs (.ethFrameRx k b true back) s fun t =>
      (t.ethOf (k ^^^ 1)).transit = (s.ethOf (k ^^^ 1)).transit ++ [(b, s.rxStamp k back)] := by
  refine runs_ethFrameRx hp hk back hrpl ?_
  rw [doEthRx_kept hon hlen hpause hkeep]
  exact transit_ethTake hk hmacs h hroom

end Reception

/-! ### Delivery -/

section Delivery

variable {s : State} (w : s.regsWf) {k : Nat} (hk : k < 4) (b : List Byte) (ts : Nat)
include w hk

theorem ethDeliver_busErr (hmacs : s.eth.length = 4) (h : (rxDesc s k).rsp ≠ .okay) : let t := s.ethDeliver k b ts false
    t.f (Fld.ETH_LINK_BUS_ERR k) = 1 ∧ (t.ethOf k).stopped = true := by
  have hread : BlocksKept s (rxDesc s k).st := BlocksKept.mRead s _ _ _
  have hmac : k < (rxDesc s k).st.eth.length := by
    rw [eth_mRead, hmacs]
    exact hk
  rw [ethDeliver_unread b ts false h]
  exact ⟨busErr_ethBusErr (hread.wf w) hk, stopped_ethBusErr hmac⟩

theorem ethDeliver_taken (hd : (rxDesc s k).rsp = .okay) (hf : rxFlags s k % 2 = 1) (hw : (rxFrame s k b).rsp = .okay)
    {q : Reply} (hclose : rxClosedOwn s k b ts = q) (hq : q.rsp = .okay) : let t := s.ethDeliver k b ts false
    t.mem = q.st.mem ∧
      t.f (Fld.ETH_RXR_HEAD_IDX k) = (s.f (Fld.ETH_RXR_HEAD_IDX k) + 1) % ringSize (s.f (Fld.ETH_RXR_SIZE_N k)) % 1024 ∧
      t.f (Fld.ETH_CNT_B_RX_OK k) = (s.f (Fld.ETH_CNT_B_RX_OK k) + 1) % 65536 := by
  subst hclose
  have hframe : BlocksKept s (rxFrame s k b).st := (BlocksKept.mRead s _ _ _).trans (BlocksKept.mWrite _ _ _ _)
  have hclosed : BlocksKept s (rxClosedOwn s k b ts).st := hframe.trans (BlocksKept.mWrite _ _ _ _)
  rw [ethDeliver_rung b ts false hd hf hw (by rw [rxClosed_own, hq]), rxClosed_own]
  exact ⟨(mem_rxTold _ _ _).trans (mem_frameRung _ _ _),
    (f_rxTold w hk hclosed (ethWord hk (by decide))).trans (head_frameRung w hk hclosed),
    (f_rxTold w hk hclosed (ethWord hk (by decide))).trans (rxOk_frameRung w hk hclosed)⟩

end Delivery

/-! ### Transmission -/

section Transmission

variable {s : State} (hp : s.pwr.on = true) {k : Nat} (hk : k < 4) (hon : s.ethTxOn k = true)
include hp hk hon

theorem runs_ethTxDone {P : State → Prop} (h : P (doEthTx s k)) : Runs (.ethTxDone k) s P :=
  Runs.liveIf rfl hp (by rw [decide_eq_true hk, hon]; rfl) h

theorem runs_ethTxDone_transit (w : s.regsWf) (hmac : k < s.eth.length) {b : List Byte} {ts : Nat} {rest : List (List Byte × Nat)}
    (h : (s.ethOf k).transit = (b, ts) :: rest) : Runs (.ethTxDone k) s fun t =>
      t = s.ethTransitTx k b ts ∧ (t.ethOf k).transit = rest ∧
      t.f (Fld.ETH_CNT_C_TC_FWD k) = (s.f (Fld.ETH_CNT_C_TC_FWD k) + 1) % 65536 ∧
      t.f (Fld.ETH_CNT_B_TX_OK k) = (s.f (Fld.ETH_CNT_B_TX_OK k) + 1) % 65536 ∧
      (s.muted = false → ptpEvent b = false → t.sent = s.sent ++ [⟨.eth, k, b⟩]) ∧
      RegsKept [Adr.ETH_CNT_B k, Adr.ETH_CNT_C k] s t ∧ MemKept s t := by
  have hall := ethTransitTx_writes w hk b ts
  obtain ⟨hfwd, hok⟩ := counts_ethTransitTx w hk b ts
  refine runs_ethTxDone hp hk hon ?_
  rw [doEthTx_transit h]
  refine ⟨rfl, ?_, hfwd, hok, fun hm he => sent_ethTransitTx hm he ts, hall.kept, hall.mem⟩
  rw [transit_ethTransitTx hmac, h]
  rfl

theorem runs_ethTxDone_replay (w : s.regsWf) (h : (s.ethOf k).transit = []) (hready : s.rplReady k = true)
    (hring : (s.ethOf k).lastRing = true) : Runs (.ethTxDone k) s fun t => t = s.ethReplayTx k ∧
      t.f (Fld.ETH_CNT_B_TX_OK k) = (s.f (Fld.ETH_CNT_B_TX_OK k) + 1) % 65536 := by
  refine runs_ethTxDone hp hk hon ?_
  rw [doEthTx_replay h hready hring]
  exact ⟨rfl, txOk_ethReplayTx w hready⟩

end Transmission

/-- Settles O49: a memory request leaves the MACs' registers and their own state (`BlocksKept`, `Served`), so that what a delivery counts is
counted on the registers as they were; the transit queue of the other port is changed by the forwarding alone. -/
theorem ethFramesMove : Obligations.EthFramesMove := by
  refine ⟨fun s k hp w hk hmacs b back => ⟨fun hoff fcs => ?_, fun hon fcs h => runs_ethFrameRx_bad hp hk back w hon h,
      fun hon hrpl hlen => ⟨fun u => runs_ethFrameRx_paused hp hk back hon hrpl hlen,
        fun hpause hkeep => runs_ethFrameRx hp hk back hrpl (doEthRx_dropped hon hlen hpause hkeep),
        fun hpause hkeep => runs_ethFrameRx_own hp hk back hon hrpl hlen hpause hkeep,
        fun hpause hkeep => runs_ethFrameRx_forwarded hp hk back hon hrpl hlen hpause hkeep hmacs⟩,
      ethDeliver_busErr w hk b _ hmacs, fun hd hf => ?_, fun hd hf hw hq => ?_⟩,
    fun s k hp w hk hmac hon => ⟨fun b ts rest => runs_ethTxDone_transit hp hk hon w hmac,
      fun h => ⟨runs_ethTxDone_replay hp hk hon w h, fun hturn => ⟨fun u da d hd => runs_ethTxDone hp hk hon (doEthTx_owned h hturn hd),
        fun u hd hready => runs_ethTxDone hp hk hon (doEthTx_unowned h hturn hd hready)⟩,
        fun hready hstop => runs_ethTxDone hp hk hon (doEthTx_unowned h (Or.inl hready) (txDesc_stopped hstop) hready)⟩⟩⟩
  · exact Runs.live (exec_ethFrameRx hk (Or.inr (Or.inr (Or.inr hoff))) back) hp (doEthRx_off hoff b fcs back)
  · have hcount := noBuf_ethDeliver w hk
    rwa [← ethDeliver_noBuf b (s.rxStamp k back) false hd hf] at hcount
  · exact ethDeliver_taken w hk b (s.rxStamp k back) hd hf hw rfl hq

end Sys2Proof.Proofs
end

section
/-! ## The invariant at reset and over every step

Each command keeps the queue and the invariant (Laws/Keep…): here the commands are put together, and the statements about the machine as a
whole follow (R55, R254, R353, R355, R369, R370, R376). -/

namespace Sys2Proof.Laws

open Sys2Proof.Machine

/-- Every command keeps the queue behind it and the invariant: one case per arm of the dispatcher. -/
theorem keeps_exec {s0 s : State} (h : Keeps s0 s) : ∀ c : Instr, KeepsOut s0 (exec c s)
  | .fabricRequest _ => keeps_execFabricRequest h
  | .registerWrite _ _ _ => keeps_execRegisterWrite h
  | .blockReset _ _ => keeps_execBlockReset h
  | .blockResetEnd _ => keeps_execBlockResetEnd h
  | .blockQuiesce _ _ => keeps_execBlockQuiesce h
  | .blockEnable _ _ => keeps_execBlockEnable h
  | .pageLock _ _ => keeps_execPageLock h
  | .eventSet _ _ => keeps_execEventSet h
  | .evtClaim _ => keeps_execEvtClaim h
  | .evtDone _ _ => keeps_execEvtDone h
  | .evtRouteWrite _ _ _ => keeps_execEvtRouteWrite h
  | .clockFault => keeps_execClockFault h
  | .railFault => keeps_execRailFault h
  | .railRecovered => keeps_execRailRecovered h
  | .beatEdge _ => keeps_execBeatEdge h
  | .ovrPersist => keeps_execOvrPersist h
  | .fenceGraze => keeps_execFenceGraze h
  | .beatsStart _ => keeps_execBeatsStart h
  | .freeRunStart _ => keeps_execFreeRunStart h
  | .fusionStageDone => keeps_execFusionStageDone h
  | .assemblyDone => keeps_execAssemblyDone h
  | .laneLoadDone _ => keeps_execLaneLoadDone h
  | .laneJobDone _ => keeps_execLaneJobDone h
  | .laneArrayDone => keeps_execLaneArrayDone h
  | .laneEccUe _ => keeps_execLaneEccUe h
  | .cmdFormationDone => keeps_execCmdFormationDone h
  | .imageInstant => keeps_execImageInstant h
  | .frmNumRead => keeps_execFrmNumRead h
  | .replaySnapshotSend => keeps_execReplaySnapshotSend h
  | .replayFullRequest => keeps_execReplayFullRequest h
  | .replayDatagramRx _ => keeps_execReplayDatagramRx h
  | .portCfgWrite _ _ => keeps_execPortCfgWrite h
  | .depositWindowWrite _ _ _ _ => keeps_execDepositWindowWrite h
  | .depositCommit _ _ => keeps_execDepositCommit h
  | .scanCopyDone _ => keeps_execScanCopyDone h
  | .gridPassDone => keeps_execGridPassDone h
  | .gfeWeightLoad => keeps_execGfeWeightLoad h
  | .scanClr => keeps_execScanClr h
  | .ifDown _ => keeps_execIfDown h
  | .jamCal => keeps_execJamCal h
  | .channelStart _ _ => keeps_execChannelStart h
  | .channelStop _ _ => keeps_execChannelStop h
  | .channelDirectStart _ _ => keeps_execChannelDirectStart h
  | .acqDone _ _ _ => keeps_execAcqDone h
  | .pullInLock _ => keeps_execPullInLock h
  | .pullInTimeout _ => keeps_execPullInTimeout h
  | .trackLoss _ => keeps_execTrackLoss h
  | .l5PullInEnd _ _ => keeps_execL5PullInEnd h
  | .l5Retry _ => keeps_execL5Retry h
  | .snapGo _ => keeps_execSnapGo h
  | .snapDone _ _ => keeps_execSnapDone h
  | .gnssTimeObs _ => keeps_execGnssTimeObs h
  | .timeLost => keeps_execTimeLost h
  | .fltCfgWrite _ _ => keeps_execFltCfgWrite h
  | .fltRestart _ => keeps_execFltRestart h
  | .stepDetected _ => keeps_execStepDetected h
  | .settledReturn _ => keeps_execSettledReturn h
  | .stuck _ => keeps_execStuck h
  | .stuckClear _ => keeps_execStuckClear h
  | .tableCheck _ => keeps_execTableCheck h
  | .chkDone => keeps_execChkDone h
  | .tableRelease _ => keeps_execTableRelease h
  | .slotILoad _ => keeps_execSlotILoad h
  | .slotWlock _ _ => keeps_execSlotWlock h
  | .lockHeld _ => keeps_execLockHeld h
  | .slotIstRead _ => keeps_execSlotIstRead h
  | .bitTimingWrite _ _ _ => keeps_execBitTimingWrite h
  | .canModeChange _ _ => keeps_execCanModeChange h
  | .txPush _ => keeps_execTxPush h
  | .txAbort _ _ => keeps_execTxAbort h
  | .txAbortAll _ => keeps_execTxAbortAll h
  | .txAttemptEnd _ _ _ => keeps_execTxAttemptEnd h
  | .canFrameRx _ _ _ => keeps_execCanFrameRx h
  | .pbRelease _ _ => keeps_execPbRelease h
  | .rxfPop _ => keeps_execRxfPop h
  | .canError _ _ _ _ _ => keeps_execCanError h
  | .busOffRecovery _ => keeps_execBusOffRecovery h
  | .dupWindowEnd _ => keeps_execDupWindowEnd h
  | .tsWrap => keeps_execTsWrap h
  | .fbStale _ => keeps_execFbStale h
  | .driveHelmFrame _ _ => keeps_execDriveHelmFrame h
  | .driveHoldTimeout _ => keeps_execDriveHoldTimeout h
  | .driveReset _ => keeps_execDriveReset h
  | .fioFreeRefresh => keeps_execFioFreeRefresh h
  | .wdTrip => keeps_execWdTrip h
  | .fioWdClr _ => keeps_execFioWdClr h
  | .fioEnableWrite _ => keeps_execFioEnableWrite h
  | .diFilterChange _ _ => keeps_execDiFilterChange h
  | .pulseEdge _ => keeps_execPulseEdge h
  | .outputTrip _ => keeps_execOutputTrip h
  | .islandOvercurrent => keeps_execIslandOvercurrent h
  | .lplusUndervoltage _ => keeps_execLplusUndervoltage h
  | .linkLost => keeps_execLinkLost h
  | .subBeat _ _ _ _ => keeps_execSubBeat h
  | .beatLost => keeps_execBeatLost h
  | .subbeatOvr => keeps_execSubbeatOvr h
  | .safetyInputChange _ _ => keeps_execSafetyInputChange h
  | .discrep _ => keeps_execDiscrep h
  | .testPulse _ _ => keeps_execTestPulse h
  | .ss1Request => keeps_execSs1Request h
  | .ss1Tmax => keeps_execSs1Tmax h
  | .offTest _ _ => keeps_execOffTest h
  | .diagClear _ => keeps_execDiagClear h
  | .safRelease _ => keeps_execSafRelease h
  | .icvoLaneDown _ => keeps_execIcvoLaneDown h
  | .icvoLaneUp _ => keeps_execIcvoLaneUp h
  | .heartbeatFreeSend => keeps_execHeartbeatFreeSend h
  | .heartbeatRx _ _ => keeps_execHeartbeatRx h
  | .beatRecordRx _ => keeps_execBeatRecordRx h
  | .deltaRx _ => keeps_execDeltaRx h
  | .deltaCopyDone => keeps_execDeltaCopyDone h
  | .resyncBankRx _ => keeps_execResyncBankRx h
  | .resync => keeps_execResync h
  | .seekTimeout => keeps_execSeekTimeout h
  | .listenMinEnd => keeps_execListenMinEnd h
  | .missedBeat _ => keeps_execMissedBeat h
  | .fault => keeps_execFault h
  | .clrFaulty => keeps_execClrFaulty h
  | .handover => keeps_execHandover h
  | .coresUp => keeps_execCoresUp h
  | .flashPeriod => keeps_execFlashPeriod h
  | .flashNow => keeps_execFlashNow h
  | .flashCopy => keeps_execFlashCopy h
  | .epochArm => keeps_execEpochArm h
  | .epochComplete => keeps_execEpochComplete h
  | .ethFrameRx _ _ _ _ => keeps_execEthFrameRx h
  | .ethTxDone _ => keeps_execEthTxDone h
  | .ethRingTail _ _ _ => keeps_execEthRingTail h
  | .ethLinkDown _ => keeps_execEthLinkDown h
  | .ethLinkUp _ => keeps_execEthLinkUp h
  | .ethCalGo _ => keeps_execEthCalGo h
  | .ethCalDone _ _ _ => keeps_execEthCalDone h
  | .rateWrite _ _ => keeps_execRateWrite h
  | .stepWrite _ _ => keeps_execStepWrite h
  | .stepForce => keeps_execStepForce h
  | .slewIncrement => keeps_execSlewIncrement h
  | .timeNowRead => keeps_execTimeNowRead h
  | .ptpObsSubmit _ => keeps_execPtpObsSubmit h
  | .ptpSourceLost => keeps_execPtpSourceLost h
  | .ppsRise => keeps_execPpsRise h
  | .ppsFall => keeps_execPpsFall h
  | .ppsSourceLost => keeps_execPpsSourceLost h
  | .tpulse => keeps_execTpulse h
  | .extLost => keeps_execExtLost h
  | .uartCharRx _ _ _ _ _ _ => keeps_execUartCharRx h
  | .uartRxPop _ _ => keeps_execUartRxPop h
  | .uartStampPop _ _ => keeps_execUartStampPop h
  | .uartTxWrite _ _ => keeps_execUartTxWrite h
  | .uartDivWrite _ _ => keeps_execUartDivWrite h
  | .ledgerStage => keeps_execLedgerStage h
  | .lgrSwCommit _ _ => keeps_execLgrSwCommit h
  | .flush => keeps_execFlush h
  | .flushMsExpiry => keeps_execFlushMsExpiry h
  | .ledgerUnitWritten _ => keeps_execLedgerUnitWritten h
  | .ledgerStart => keeps_execLedgerStart h
  | .arm => keeps_execArm h
  | .close => keeps_execClose h
  | .trigger => keeps_execTrigger h
  | .lgrNonceDraw => keeps_execLgrNonceDraw h
  | .vaultRelease => keeps_execVaultRelease h
  | .xtrGo _ => keeps_execXtrGo h
  | .xtrDone _ => keeps_execXtrDone h
  | .mounted _ _ => keeps_execMounted h
  | .nfcWrite _ _ => keeps_execNfcWrite h
  | .nfcLoad _ _ => keeps_execNfcLoad h
  | .nfcErase _ _ => keeps_execNfcErase h
  | .nfcImage _ _ => keeps_execNfcImage h
  | .reqDone _ => keeps_execReqDone h
  | .nandOperationDone _ _ _ _ => keeps_execNandOperationDone h
  | .relocationDone _ => keeps_execRelocationDone h
  | .patrol _ _ => keeps_execPatrol h
  | .nfcBootSel _ => keeps_execNfcBootSel h
  | .nfcFormat _ _ => keeps_execNfcFormat h
  | .deedPass _ _ _ => keeps_execDeedPass h
  | .arbitrationPromote => keeps_execArbitrationPromote h
  | .eccWriteback _ => keeps_execEccWriteback h
  | .scrubStep _ _ => keeps_execScrubStep h
  | .memoryClearDone => keeps_execMemoryClearDone h
  | .marchGo _ => keeps_execMarchGo h
  | .marchPreserveGo _ => keeps_execMarchPreserveGo h
  | .marchDone _ _ _ => keeps_execMarchDone h
  | .dramTrained => keeps_execDramTrained h
  | .dmaStart _ => keeps_execDmaStart h
  | .dmaStop _ => keeps_execDmaStop h
  | .dmaStopped _ _ => keeps_execDmaStopped h
  | .dmaHalt => keeps_execDmaHalt h
  | .dmaTransferDone _ => keeps_execDmaTransferDone h
  | .fwlArm _ => keeps_execFwlArm h
  | .ruleSelect _ => keeps_execRuleSelect h
  | .ruleCommit => keeps_execRuleCommit h
  | .lcNonceDraw => keeps_execLcNonceDraw h
  | .lcTransition _ _ => keeps_execLcTransition h
  | .lcOpenDebug _ => keeps_execLcOpenDebug h
  | .lcCloseDebug _ => keeps_execLcCloseDebug h
  | .lcProgramKey _ _ => keeps_execLcProgramKey h
  | .lcProgramSecret _ _ => keeps_execLcProgramSecret h
  | .tmxSelect _ _ => keeps_execTmxSelect h
  | .tapBypass => keeps_execTapBypass h
  | .tapIdcode => keeps_execTapIdcode h
  | .tapSamplePreload _ _ => keeps_execTapSamplePreload h
  | .tapExtest _ _ => keeps_execTapExtest h
  | .tapClamp => keeps_execTapClamp h
  | .tapHighz => keeps_execTapHighz h
  | .dbgAccess _ _ => keeps_execDbgAccess h
  | .powerStateChange _ => keeps_execPowerStateChange h
  | .lanesOn => keeps_execLanesOn h
  | .dozeExit _ => keeps_execDozeExit h
  | .powerOff _ => keeps_execPowerOff h
  | .wake => keeps_execWake h
  | .powerOnReset => keeps_execPowerOnReset h
  | .resetN => keeps_execResetN h
  | .watchdogExpiry => keeps_execWatchdogExpiry h
  | .wdtWarn => keeps_execWdtWarn h
  | .watchdogKick _ => keeps_execWatchdogKick h
  | .sysSwreset _ => keeps_execSysSwreset h
  | .mainResetRelease => keeps_execMainResetRelease h
  | .bootRetry => keeps_execBootRetry h
  | .bootRequestSend => keeps_execBootRequestSend h
  | .bootRequestRx _ => keeps_execBootRequestRx h
  | .bootDataRx _ => keeps_execBootDataRx h
  | .bootEndRx _ => keeps_execBootEndRx h
  | .bootTimeout => keeps_execBootTimeout h
  | .shepherdSectionStart => keeps_execShepherdSectionStart h
  | .coreRel _ => keeps_execCoreRel h
  | .next => keeps_execNext h
  | .avsTransactionEnd _ _ => keeps_execAvsTransactionEnd h
  | .vaonLoss => keeps_execVaonLoss h
  | .pairBeatIToggle _ => keeps_execPairBeatIToggle h
  | .bitSynchronisation _ => keeps_execBitSynchronisation h
  | .dataBit _ _ => keeps_execDataBit h
  | .fineOutput _ _ => keeps_execFineOutput h
  | .fieldLinkUp => keeps_execFieldLinkUp h
  | .outputMismatch _ _ => keeps_execOutputMismatch h
  | .uartCharSent _ => keeps_execUartCharSent h
  | .dramPatrol _ _ => keeps_execDramPatrol h
  | .tempHigh _ _ => keeps_execTempHigh h

/-- The invariant does not speak of the commands that wait. -/
theorem inv_withPending {s : State} (i : s.Inv) (l : List Instr) : ({ s with pending := l } : State).Inv :=
  ⟨i.regs, i.shadow, i.mem, i.ecc, i.queue, i.can, i.uart, i.eth, i.replay⟩

theorem step_cons {s : State} {c : Instr} {rest : List Instr} (h : s.pending = c :: rest) :
    step s = exec c { s with pending := rest } := by
  unfold step
  rw [h]

end Sys2Proof.Laws

namespace Sys2Proof.Proofs

open Sys2Proof.Machine Sys2Proof.Laws

/-- Settles O4: after reset the sparse files are empty, and no queue holds anything. -/
theorem resetMeetsInvariant : Obligations.ResetMeetsInvariant :=
  { regs := rfl, shadow := rfl, mem := rfl, ecc := rfl, queue := Nat.zero_le 256
    can := reset_can, uart := reset_uart, eth := reset_eth, replay := Nat.zero_le 8 }

/-- Settles O5: a step is the command at the front of the queue, which keeps the invariant (`keeps_exec`), or one tick. -/
theorem stepKeepsInvariant : Obligations.StepKeepsInvariant := by
  intro s t i hstep
  cases hpending : s.pending with
  | nil =>
    rw [step_idle hpending] at hstep
    exact (KeepsOut.next (keeps_State_tick (Keeps.refl s)) t hstep).2 i
  | cons c rest =>
    rw [step_cons hpending] at hstep
    exact (keeps_exec (Keeps.refl _) c t hstep).2 (inv_withPending i rest)

end Sys2Proof.Proofs
end

section
/-! ## The ledger: records offered and staged

What offers and events leave of the ledger, one lemma per branch of the writer's step and of a software commit (R372–R382, R384). The
lemmas about the model's operations stand first, the statement's proof after them. -/

namespace Sys2Proof.Laws

open Sys2Proof.Machine

/-! ### What offers to the writer change (R376, R382, R387) -/

/-- Of the ledger only the queue, the losses not yet told and the captured trigger may differ. -/
abbrev OnlyQueue (x y : LgrSt) : Prop :=
  y = { x with queue := y.queue, lost := y.lost, lostTime := y.lostTime, lostSrc := y.lostSrc, vTrig := y.vTrig }

theorem OnlyQueue.trans {x y z : LgrSt} (h : OnlyQueue x y) (k : OnlyQueue y z) : OnlyQueue x z := by
  unfold OnlyQueue at h
  rw [h] at k
  exact k

theorem OnlyQueue.units {x y : LgrSt} (h : OnlyQueue x y) : y.units = x.units := (congrArg LgrSt.units h :)

theorem OnlyQueue.till {x y : LgrSt} (h : OnlyQueue x y) : y.till = x.till := (congrArg LgrSt.till h :)

theorem OnlyQueue.unflushed {x y : LgrSt} (h : OnlyQueue x y) : y.unflushed = x.unflushed := (congrArg LgrSt.unflushed h :)

theorem OnlyQueue.nextSeq {x y : LgrSt} (h : OnlyQueue x y) : y.nextSeq = x.nextSeq := (congrArg LgrSt.nextSeq h :)

theorem OnlyQueue.of_eq {x y : LgrSt} (h : y = x) : OnlyQueue x y := by
  subst h
  rfl

/-- From `s` the machine has come to `t` by offering records and raising events: the rest of the ledger and the count of failed flushes
stay. -/
structure Offers (s t : State) : Prop where
  lgr : OnlyQueue s.lgr t.lgr
  wf : s.regsWf → t.regsWf
  flushErr : s.regsWf → t.f Fld.LGR_CNT_B_FLUSH_ERR = s.f Fld.LGR_CNT_B_FLUSH_ERR

/-- A write of the field `r` leaves the count of failed flushes. -/
abbrev LeavesFlushErr (r : RF) : Prop :=
  ∀ (t : State) (v : Nat), t.regsWf → (t.setF r v).f Fld.LGR_CNT_B_FLUSH_ERR = t.f Fld.LGR_CNT_B_FLUSH_ERR

section Offers

variable {s t u : State}

theorem Offers.refl (s : State) : Offers s s := ⟨rfl, id, fun _ => rfl⟩

theorem Offers.trans (h : Offers s t) (k : Offers t u) : Offers s u :=
  ⟨h.lgr.trans k.lgr, fun w => k.wf (h.wf w), fun w => (k.flushErr (h.wf w)).trans (h.flushErr w)⟩

/-- A change of the ledger's queue, and of the event controller's own state. -/
theorem Offers.quiet {l : LgrSt} (h : OnlyQueue s.lgr l) (e : EvtSt) : Offers s { s with lgr := l, evt := e } :=
  ⟨h, mk_wf, fun _ => f_mk _⟩

theorem Offers.foldl {α : Type} {f : State → α → State} (hf : ∀ t x, Offers t (f t x)) (l : List α) : Offers s (l.foldl f s) := by
  induction l generalizing s with
  | nil => exact Offers.refl s
  | cons x l ih => exact (hf s x).trans ih

theorem Offers.setF {r : RF} (hr : LeavesFlushErr r) (v : Nat) : Offers s (s.setF r v) := ⟨rfl, fun w => setF_wf w r v, hr s v⟩

theorem Offers.stick {c flag : RF} (hc : LeavesFlushErr c) (hf : LeavesFlushErr flag) (n : Nat) : Offers s (s.stick c flag n) := by
  unfold State.stick
  dsimp only
  split
  · exact Offers.refl s
  · split
    · exact Offers.setF hc _
    · exact (Offers.setF hc _).trans (Offers.setF hf _)

/-- A loss is counted, and told by a flag of another word (R382). -/
theorem Offers.countLost : Offers s (s.stick Fld.LGR_CNT_A_LOST Fld.LGR_FLAGS_LOST_SAT 1) :=
  Offers.stick (c := Fld.LGR_CNT_A_LOST) (flag := Fld.LGR_FLAGS_LOST_SAT) (fun _ v w => f_setF_ne w v (by decide))
    (fun _ v w => f_setF_ne w v (by decide)) 1

/-- A missed trigger is counted in the same word as failed flushes, beside them (R387). -/
theorem Offers.countMissed : Offers s (s.stick Fld.LGR_CNT_B_TRIG_MISSED Fld.LGR_FLAGS_MISS_SAT 1) :=
  Offers.stick (c := Fld.LGR_CNT_B_TRIG_MISSED) (flag := Fld.LGR_FLAGS_MISS_SAT)
    (fun _ v w => f_setF_other w v rfl (by decide) (by decide) (by decide) (by decide)) (fun _ v w => f_setF_ne w v (by decide)) 1

theorem Offers.setEvent (p : Nat) (v : Word) : Offers s (s.setReg (hdr p 4) v) :=
  ⟨rfl, fun w => setReg_wf w _ v, fun w => f_setReg_ne w v (event_ne_body (a := Adr.LGR_CNT_B) (by decide)).symm⟩

end Offers

/-- What an offer to the ledger does, `rz` raising events. -/
theorem Offers.offerWith {rz : State → Ev → State} (hz : ∀ t e, Offers t (rz t e)) (s : State) (r : LRec) :
    Offers s (offerWith rz s r) := by
  unfold Sys2Proof.Machine.offerWith
  split
  · exact Offers.refl s
  · split
    · exact Offers.quiet rfl s.evt
    · refine Offers.trans (Offers.trans (Offers.quiet ?_ s.evt) Offers.countLost) (hz _ _)
      split <;> rfl

theorem Offers.recordSource {rz : State → Ev → State} (hz : ∀ t e, Offers t (rz t e)) (s : State) (n : Nat) :
    Offers s (recordSource rz s n) := by
  unfold Sys2Proof.Machine.recordSource
  split
  · exact Offers.refl s
  · split
    · exact Offers.quiet rfl _
    · exact (Offers.quiet rfl _).trans (Offers.offerWith hz _ _)

theorem Offers.triggerWith {rz : State → Ev → State} (hz : ∀ t e, Offers t (rz t e)) (s : State) (n m : Nat) :
    Offers s (triggerWith rz s n m) := by
  have hoffer (c : Bool) (r : LRec) :
      Offers s (Sys2Proof.Machine.offerWith rz { s with lgr := { s.lgr with vTrig := s.lgr.vTrig || c } } r) :=
    (Offers.quiet rfl s.evt).trans (Offers.offerWith hz _ _)
  unfold Sys2Proof.Machine.triggerWith
  dsimp only
  split
  · exact hoffer _ _
  · exact ((hoffer _ _).trans Offers.countMissed).trans (hz _ _)

theorem Offers.linesFrom (k : Nat) (s : State) (p old : Nat) : Offers s (linesFrom k s p old) := by
  induction k generalizing s p old with
  | zero => exact Offers.refl s
  | succ k ih =>
    have hz (t : State) (e : Ev) : Offers t (Sys2Proof.Machine.linesFrom k
        (t.setReg (hdr e.page 4) (t.reg (hdr e.page 4) ||| BitVec.ofNat 32 (2 ^ e.bit))) e.page (t.lines e.page)) :=
      (Offers.setEvent _ _).trans (ih _ _ _)
    have hrecord := Offers.foldl (s := s) (fun t n => Offers.recordSource hz t n) (newSources p old (s.lines p))
    unfold Sys2Proof.Machine.linesFrom
    dsimp only
    split
    · exact hrecord
    · exact hrecord.trans (Offers.triggerWith hz _ _ _)

theorem Offers.raise (s : State) (e : Ev) : Offers s (s.raise e) := (Offers.setEvent _ _).trans (Offers.linesFrom 4 _ _ _)

theorem offer_room {s : State} (h : s.f Fld.LGR_CFG_EN = 1) (hroom : s.lgr.queue.length < 256) (r : LRec) :
    s.offer r = { s with lgr := { s.lgr with queue := s.lgr.queue ++ [r] } } :=
  (if_neg (by omega)).trans (if_pos hroom)

/-- A record for which the queue has no room is counted as lost, and told (R382). -/
theorem raised_offer_full {s : State} (w : s.regsWf) (h : s.f Fld.LGR_CFG_EN = 1) (hfull : 256 ≤ s.lgr.queue.length) (r : LRec) :
    (s.offer r).raised Ev.LGR_LOST := by
  unfold State.offer Sys2Proof.Machine.offerWith
  rw [if_neg (by omega), if_neg (by omega)]
  exact raise_sets (stick_wf (mk_wf w) _ _ 1) (by decide) (by decide)

/-- What assertions bring about, after register writes. -/
theorem onlyRaised_of_rings {l : List Nat} {s t u : State} (w : t.regsWf) (h : OnlyRegs l s t) (k : Rings t u) : OnlyRaised 148 l s u := by
  obtain ⟨hkept, hparts⟩ := h
  refine ⟨(hkept.mono fun _ ha => List.mem_append_right _ ha).trans
    ((k.kept w).mono fun _ ha => List.mem_append_left _ (List.mem_cons_of_mem _ ha)), ?_⟩
  have e := k.parts
  rw [hparts] at e
  rw [e]

/-- The ledger's own state changed after register writes, and the command answered. -/
theorem ok_withLgr {l : List Nat} {s t : State} (h : OnlyRegs l s t) (x : LgrSt) : let u := State.ok { t with lgr := x }
    (∀ q, u.f q = t.f q) ∧ u.lgr = x ∧ RegsKept l s u ∧ u = { s with regs := u.regs, lgr := u.lgr, answer := ⟨.okay, []⟩ } := by
  obtain ⟨hkept, hparts⟩ := h
  refine ⟨fun q => f_congr rfl q, rfl, hkept, ?_⟩
  rw [hparts]
  rfl

/-! ### Units of the ring (R381) -/

/-- The units handed over, with `u` among them once. -/
def unitsWith (s : State) (u : Nat) : List Nat := if u ∈ s.lgr.units then s.lgr.units else s.lgr.units ++ [u]

theorem handUnit_eq (s : State) (u : Nat) : s.handUnit u = { s with lgr := { s.lgr with units := unitsWith s u } } := by
  unfold State.handUnit unitsWith
  by_cases hu : u ∈ s.lgr.units
  · rw [if_pos (List.contains_iff_mem.mpr hu), if_pos hu]
  · rw [if_neg (fun h => hu (List.contains_iff_mem.mp h)), if_neg hu]

theorem mem_unitsWith (s : State) (u : Nat) : u ∈ unitsWith s u := by
  unfold unitsWith
  split
  · assumption
  · exact List.mem_append_right _ (List.mem_singleton_self u)

/-! ### A record staged (R372–R374, R380) -/

theorem length_padTo {n : Nat} {b : List Byte} (h : b.length ≤ n) : (padTo n b).length = n := by
  unfold padTo zeros
  rw [List.length_append, List.length_replicate]
  omega

theorem length_recBody (q : Nat) (r : LRec) : (recBody q r).length = 60 := by
  have hpad : (padTo 36 (r.payload.take 36)).length = 36 := length_padTo (List.length_take_le _ _)
  unfold recBody
  simp only [List.length_append, length_leBytes, hpad]

/-- The record of the next number stands in its slot: the body, then the mark. -/
def slotWritten (s : State) (r : LRec) : State :=
  (s.store (slotAddr s.ringBank s.lgr.nextSeq) (recBody s.lgr.nextSeq r)).store (slotAddr s.ringBank s.lgr.nextSeq + 60)
    (leBytes 4 (recMark s.lgr.nextSeq))

/-- The ledger with the next number given to record `r`. -/
def numbered (s : State) (r : LRec) : LgrSt :=
  { s.lgr with
    nextSeq := s.lgr.nextSeq + 1, unflushed := s.lgr.unflushed ++ [(s.lgr.nextSeq, s.tim.raw)]
    startSeq := if r.source = 516 ∧ r.type = 1 then s.lgr.nextSeq else s.lgr.startSeq }

/-- The number `q` is shown as the last one staged, and the ledger has become `l` (R374). -/
def withNumber (s : State) (q : Nat) (l : LgrSt) : State := { s.setPair Adr.LGR_SEQ_LO Adr.LGR_SEQ_HI q with lgr := l }

/-- The record is staged: it stands in its slot and its number is shown. -/
def recordStaged (s : State) (r : LRec) : State := withNumber (slotWritten s r) s.lgr.nextSeq (numbered s r)

theorem lgr_store (s : State) (a : Nat) (bs : List Byte) : (s.store a bs).lgr = s.lgr := by
  rw [(store_parts s a bs).1]

theorem regs_store (s : State) (a : Nat) (bs : List Byte) : (s.store a bs).regs = s.regs := by
  rw [(store_parts s a bs).1]

theorem lgr_slotWritten (s : State) (r : LRec) : (slotWritten s r).lgr = s.lgr := (lgr_store _ _ _).trans (lgr_store _ _ _)

theorem regs_slotWritten (s : State) (r : LRec) : (slotWritten s r).regs = s.regs := (regs_store _ _ _).trans (regs_store _ _ _)

theorem rd8_withNumber (s : State) (q : Nat) (l : LgrSt) (b : Nat) : (withNumber s q l).rd8 b = s.rd8 b := rfl

theorem reg_withNumber (s : State) (q : Nat) (l : LgrSt) (a : Nat) :
    (withNumber s q l).reg a = (s.setPair Adr.LGR_SEQ_LO Adr.LGR_SEQ_HI q).reg a := rfl

theorem pair_withNumber {s : State} (w : s.regsWf) (q : Nat) (l : LgrSt) :
    (withNumber s q l).pair Adr.LGR_SEQ_LO Adr.LGR_SEQ_HI = q % 2 ^ 64 := pair_setPair w q (by decide)

theorem withNumber_kept {s : State} (w : s.regsWf) (q : Nat) (l : LgrSt) :
    RegsKept [Adr.LGR_SEQ_LO, Adr.LGR_SEQ_HI] s (withNumber s q l) := fun a ha => by
  rw [List.mem_cons, List.mem_singleton, not_or] at ha
  obtain ⟨hlo, hhi⟩ := ha
  rw [reg_withNumber, reg_setPair_ne w q hlo hhi]

theorem lgr_withNumber (s : State) (q : Nat) (l : LgrSt) : (withNumber s q l).lgr = l := rfl

theorem vState_recordStaged (s : State) (r : LRec) : (recordStaged s r).lgr.vState = s.lgr.vState :=
  (congrArg LgrSt.vState (lgr_withNumber (slotWritten s r) s.lgr.nextSeq (numbered s r)) :)

/-- An empty vault takes no record (R385). -/
theorem vaultStep_empty {s : State} (h : s.lgr.vState = 0) (q : Nat) (b : List Byte) (trig : Bool) : s.vaultStep q b trig = s := by
  unfold State.vaultStep
  rw [if_neg (by omega), if_neg (by omega), if_neg (by omega)]

/-- A record of no software window, staged while the vault is empty. -/
theorem stage_plain {s : State} {r : LRec} (hsw : r.sw = none) (hv : s.lgr.vState = 0) :
    s.stage r = if s.lgr.nextSeq % 64 = 63 then (recordStaged s r).handUnit (s.lgr.nextSeq / 64) else recordStaged s r := by
  unfold State.stage
  extract_lets q a s1 s2 l s3 s4 s5
  have h1 : s1 = slotWritten s r := rfl
  clear_value s1
  have h3 : s3 = recordStaged s r := by
    have hl : s2.lgr = s.lgr := by
      rw [setPair_lgr, h1, lgr_slotWritten]
    unfold s3 l
    rw [hl, recordStaged, ← h1]
    rfl
  have h4 : s4 = s3 := by
    unfold s4
    rw [hsw]
  have h5 : s5 = if s.lgr.nextSeq % 64 = 63 then (recordStaged s r).handUnit (s.lgr.nextSeq / 64) else recordStaged s r := by
    rw [← h3, ← h4]
  rw [h5, vaultStep_empty]
  split
  · rw [handUnit_eq]
    exact (vState_recordStaged s r).trans hv
  · exact (vState_recordStaged s r).trans hv

theorem store_inv {s : State} (i : s.Inv) (a : Nat) (bs : List Byte) : (s.store a bs).Inv := (keeps_State_store (Keeps.refl s)).2 i

theorem slotWritten_inv {s : State} (i : s.Inv) (r : LRec) : (slotWritten s r).Inv := store_inv (store_inv i _ _) _ _

theorem slotWritten_wf {s : State} (i : s.Inv) (r : LRec) : (slotWritten s r).regsWf := ⟨(slotWritten_inv i r).regs⟩

/-- Outside the slot memory is as before. -/
theorem rd8_slotWritten {s : State} (i : s.Inv) (r : LRec) {b : Nat}
    (hb : b < slotAddr s.ringBank s.lgr.nextSeq ∨ slotAddr s.ringBank s.lgr.nextSeq + 64 ≤ b) : (slotWritten s r).rd8 b = s.rd8 b := by
  refine (rd8_store_outside (store_inv i _ _).mem ?_).trans (rd8_store_outside i.mem ?_)
  · rw [length_leBytes]
    omega
  · rw [length_recBody]
    omega

theorem rdN_add (s : State) (a m n : Nat) : s.rdN a (m + n) = s.rdN a m ++ s.rdN (a + m) n := by
  unfold State.rdN
  rw [List.range_add, List.map_append, List.map_map]
  simp only [Function.comp_def, Nat.add_assoc]

theorem rdN_congr {s t : State} {a n : Nat} (h : ∀ b, a ≤ b → b < a + n → t.rd8 b = s.rd8 b) : t.rdN a n = s.rdN a n :=
  List.map_congr_left fun j hj => h _ (Nat.le_add_right a j) (Nat.add_lt_add_left (List.mem_range.mp hj) a)

/-- Two byte strings stored one behind the other are read back as one. -/
theorem rdN_store_behind {s : State} (i : s.Inv) (a : Nat) (b c : List Byte) :
    ((s.store a b).store (a + b.length) c).rdN a (b.length + c.length) = b ++ c := by
  have hfirst := (store_inv i a b).mem
  rw [rdN_add, rdN_store hfirst, rdN_congr (s := s.store a b) (fun x _ hx => rd8_store_outside hfirst (Or.inl hx)), rdN_store i.mem]

theorem rdN_slotWritten {s : State} (i : s.Inv) (r : LRec) :
    (slotWritten s r).rdN (slotAddr s.ringBank s.lgr.nextSeq) 64 = recBytes s.lgr.nextSeq r := by
  have h := rdN_store_behind i (slotAddr s.ringBank s.lgr.nextSeq) (recBody s.lgr.nextSeq r) (leBytes 4 (recMark s.lgr.nextSeq))
  rw [length_recBody, length_leBytes] at h
  exact h

/-- What staging a record of no software window does while the vault is empty. -/
structure Stages (s : State) (r : LRec) (t : State) : Prop where
  slot : t.rdN (slotAddr s.ringBank s.lgr.nextSeq) 64 = recBytes s.lgr.nextSeq r
  shown : t.pair Adr.LGR_SEQ_LO Adr.LGR_SEQ_HI = s.lgr.nextSeq % 2 ^ 64
  next : t.lgr.nextSeq = s.lgr.nextSeq + 1
  unflushed : t.lgr.unflushed = s.lgr.unflushed ++ [(s.lgr.nextSeq, s.tim.raw)]
  outside : ∀ b, (b < slotAddr s.ringBank s.lgr.nextSeq ∨ slotAddr s.ringBank s.lgr.nextSeq + 64 ≤ b) → t.rd8 b = s.rd8 b
  kept : RegsKept [Adr.LGR_SEQ_LO, Adr.LGR_SEQ_HI] s t

theorem recordStaged_stages {s : State} (i : s.Inv) (r : LRec) : Stages s r (recordStaged s r) where
  slot := (rdN_congr fun b _ _ => rd8_withNumber (slotWritten s r) _ _ b).trans (rdN_slotWritten i r)
  shown := pair_withNumber (slotWritten_wf i r) _ _
  next := congrArg LgrSt.nextSeq (lgr_withNumber (slotWritten s r) _ _)
  unflushed := congrArg LgrSt.unflushed (lgr_withNumber (slotWritten s r) _ _)
  outside := fun b hb => (rd8_withNumber (slotWritten s r) _ _ b).trans (rd8_slotWritten i r hb)
  kept := fun a ha => (withNumber_kept (slotWritten_wf i r) _ _ a ha).trans (reg_congr (regs_slotWritten s r) a)

theorem Stages.handUnit {s t : State} {r : LRec} (h : Stages s r t) (u : Nat) : Stages s r (t.handUnit u) := by
  rw [handUnit_eq]
  exact ⟨h.slot, h.shown, h.next, h.unflushed, h.outside, h.kept⟩

theorem stage_stages {s : State} (i : s.Inv) {r : LRec} (hsw : r.sw = none) (hv : s.lgr.vState = 0) : Stages s r (s.stage r) := by
  have h := recordStaged_stages i r
  rw [stage_plain hsw hv]
  split
  · exact h.handUnit _
  · exact h

/-- The record that fills a unit hands the unit over (R381). -/
theorem unit_of_stage {s : State} {r : LRec} (hsw : r.sw = none) (hv : s.lgr.vState = 0) (hq : s.lgr.nextSeq % 64 = 63) :
    s.lgr.nextSeq / 64 ∈ (s.stage r).lgr.units := by
  rw [stage_plain hsw hv, if_pos hq, handUnit_eq]
  exact mem_unitsWith _ _

/-! ### The writer's step (R376, R380, R382, R384) -/

/-- The writer may write: writing is enabled, and it holds the deed of the ring bank of the next record. -/
abbrev WriterGoes (s : State) : Prop := s.f Fld.LGR_CFG_EN = 1 ∧ s.ringHeld s.lgr.nextSeq = true

theorem writerGoes_iff (s : State) : WriterGoes s ↔ ¬(s.f Fld.LGR_CFG_EN = 0 ∨ s.ringHeld s.lgr.nextSeq = false) := by
  have hbit : s.f Fld.LGR_CFG_EN = 0 ∨ s.f Fld.LGR_CFG_EN = 1 := f_bit rfl
  rw [not_or, Bool.not_eq_false]
  exact and_congr_left' (by omega)

theorem stageNext_waits {s : State} (h : ¬WriterGoes s) : s.stageNext = s := if_pos (not_not.mp (mt (writerGoes_iff s).mpr h))

section Stage

variable {s : State} (hgo : WriterGoes s)
include hgo

theorem stageNext_start {r : LRec} (h : s.lgr.start = some r) :
    s.stageNext = ({ s with lgr := { s.lgr with start := none } } : State).stage r := by
  unfold State.stageNext
  rw [if_neg ((writerGoes_iff s).mp hgo), h]

variable (hstart : s.lgr.start = none)
include hstart

theorem stageNext_gap (hbusy : s.slotBusy s.lgr.nextSeq = false) (hlost : 0 < s.lgr.lost) :
    s.stageNext = ({ s with lgr := { s.lgr with lost := 0 } } : State).stage s.gapRec := by
  unfold State.stageNext
  rw [if_neg ((writerGoes_iff s).mp hgo), hstart]
  dsimp only
  rw [if_neg (ne_true_of_eq_false hbusy), if_pos hlost]

theorem stageNext_front {r : LRec} {rest : List LRec} (hq : s.lgr.queue = r :: rest) (hbusy : s.slotBusy s.lgr.nextSeq = false)
    (hlost : s.lgr.lost = 0) : s.stageNext = ({ s with lgr := { s.lgr with queue := rest } } : State).stage r := by
  unfold State.stageNext
  rw [if_neg ((writerGoes_iff s).mp hgo), hstart]
  dsimp only
  rw [if_neg (ne_true_of_eq_false hbusy), if_neg (by omega), hq]

theorem stageNext_noRoom {r : LRec} {rest : List LRec} (hq : s.lgr.queue = r :: rest) (hbusy : s.slotBusy s.lgr.nextSeq = true) :
    s.stageNext = s.loseFront r rest := by
  unfold State.stageNext
  rw [if_neg ((writerGoes_iff s).mp hgo), hstart]
  dsimp only
  rw [if_pos hbusy, hq]

end Stage

/-- The ledger with the front record `r` lost, the first loss noted with its time and source. -/
def frontDropped (s : State) (r : LRec) (rest : List LRec) : LgrSt :=
  let l := if s.lgr.lost = 0 then { s.lgr with queue := rest, lost := 1, lostTime := r.time, lostSrc := r.source }
    else { s.lgr with queue := rest, lost := s.lgr.lost + 1 }
  if r.trig then { l with vTrig := false } else l

/-- A window that offered the record learns that it is lost (R379). -/
def lossAnswered (r : LRec) (s : State) : State :=
  match r.sw with
  | none => s
  | some c => s.setF (Fld.LGR_SW_STAT_RESULT c) 3

theorem loseFront_eq (s : State) (r : LRec) (rest : List LRec) : s.loseFront r rest =
    lossAnswered r ((State.stick { s with lgr := frontDropped s r rest } Fld.LGR_CNT_A_LOST Fld.LGR_FLAGS_LOST_SAT 1).raise Ev.LGR_LOST) :=
  rfl

theorem frontDropped_onlyQueue (s : State) (r : LRec) (rest : List LRec) : OnlyQueue s.lgr (frontDropped s r rest) := by
  unfold frontDropped
  dsimp only
  split
  · split <;> rfl
  · split <;> rfl

/-- A word past the header of the ledger's page stands for itself, whatever its page. -/
theorem canon_past_ledger {a : Nat} (h : 148 * 1024 + 2 < a) : canon a = a := by
  by_cases hbody : 6 < a % 1024
  · exact canon_body hbody
  · by_cases hlow : a % 1024 < 2
    · exact canon_low hlow
    · rw [canon_head (by omega) (by omega) (by omega), blockPage_own (by omega)]
      omega

theorem canon_swStat (c : Nat) : canon (Adr.LGR_SW_STAT c) = Adr.LGR_SW_STAT c :=
  canon_past_ledger (Nat.lt_of_lt_of_le (by decide) (Nat.le_add_right _ _))

theorem canon_ne_swStat {a : Nat} (h : canon a < Adr.LGR_SW_STAT 0) (c : Nat) : canon a ≠ canon (Adr.LGR_SW_STAT c) := by
  rw [canon_swStat]
  exact Nat.ne_of_lt (Nat.lt_of_lt_of_le h (Nat.le_add_right _ _))

theorem swStat_not_ring (c : Nat) : canon (Adr.LGR_SW_STAT c) ∉ ringWords := by
  have hbefore : ∀ a ∈ ringWords, a < Adr.LGR_SW_STAT 0 := by decide
  rw [canon_swStat]
  exact fun h => absurd (hbefore _ h) (Nat.not_lt.mpr (Nat.le_add_right _ _))

theorem rd8_setF (s : State) (r : RF) (v b : Nat) : (s.setF r v).rd8 b = s.rd8 b := rfl

theorem lgr_lossAnswered (r : LRec) (s : State) : (lossAnswered r s).lgr = s.lgr := by
  unfold lossAnswered
  split
  · rfl
  · exact setF_lgr _ _ _

theorem rd8_lossAnswered (r : LRec) (s : State) (b : Nat) : (lossAnswered r s).rd8 b = s.rd8 b := by
  unfold lossAnswered
  split
  · rfl
  · exact rd8_setF _ _ _ b

theorem raised_lossAnswered {s : State} (w : s.regsWf) (r : LRec) (h : s.raised Ev.LGR_LOST) : (lossAnswered r s).raised Ev.LGR_LOST := by
  unfold lossAnswered
  split
  · exact h
  · exact raised_setF w h 3 (canon_ne_swStat (by decide) _)

/-- A front record that finds no room is told, and takes no number. -/
theorem loseFront_tells {s : State} (w : s.regsWf) (r : LRec) (rest : List LRec) : let t := s.loseFront r rest
    t.raised Ev.LGR_LOST ∧ t.lgr.nextSeq = s.lgr.nextSeq ∧ MemKept s t := by
  have wd : State.regsWf { s with lgr := frontDropped s r rest } := mk_wf w
  have wc := stick_wf wd Fld.LGR_CNT_A_LOST Fld.LGR_FLAGS_LOST_SAT 1
  have hlgr : OnlyQueue s.lgr (s.loseFront r rest).lgr := by
    rw [loseFront_eq, lgr_lossAnswered]
    exact ((Offers.quiet (frontDropped_onlyQueue s r rest) s.evt).trans (Offers.countLost.trans (Offers.raise _ _))).lgr
  refine ⟨?_, hlgr.nextSeq, fun b => ?_⟩
  · rw [loseFront_eq]
    exact raised_lossAnswered (raise_wf wc _) r (raise_sets wc (by decide) (by decide))
  · rw [loseFront_eq, rd8_lossAnswered, raise_parts, stick_parts]
    rfl

/-! ### Software records (R379) -/

/-- The first word of window `c`, which describes its record. -/
abbrev swWord (s : State) (c : Nat) : Nat := (s.reg (Adr.LGR_SW c 0)).toNat

/-- Its source or its length is out of range. -/
abbrev SwBad (s : State) (c : Nat) : Prop :=
  bitsOf (swWord s c) 15 0 < 768 ∨ 1023 < bitsOf (swWord s c) 15 0 ∨ 36 < bitsOf (swWord s c) 31 24

/-- The record that window `c` describes. -/
abbrev swRecord (s : State) (c : Nat) : LRec :=
  { source := bitsOf (swWord s c) 15 0, type := bitsOf (swWord s c) 23 16, time := s.now
    payload := ((List.range 9).flatMap fun i => leBytes 4 (s.reg (Adr.LGR_SW c (i + 1))).toNat).take (bitsOf (swWord s c) 31 24)
    sw := some c }

/-- The result of the commit of window `c` has become `n`. -/
abbrev swResult (s : State) (c n : Nat) : State := s.setF (Fld.LGR_SW_STAT_RESULT c) n

theorem doSwCommit_foreign {s : State} {m c : Nat} (h : m ≠ c ∨ 4 ≤ c) : doSwCommit s m c = s.ok := if_pos h

section SwCommit

variable {s : State} {c : Nat} (hc : c < 4)
include hc

theorem doSwCommit_bad (h : SwBad s c) : doSwCommit s c c = (swResult s c 2).ok :=
  (if_neg (by omega)).trans (if_pos h)

theorem doSwCommit_off (h : ¬SwBad s c) (he : s.f Fld.LGR_CFG_EN = 0) : doSwCommit s c c = (swResult s c 0).ok :=
  (if_neg (by omega)).trans ((if_neg h).trans (if_pos he))

theorem doSwCommit_on (h : ¬SwBad s c) (he : s.f Fld.LGR_CFG_EN = 1) :
    doSwCommit s c c = ((swResult s c (if 256 ≤ s.lgr.queue.length then 3 else 0)).offer (swRecord s c)).ok :=
  (if_neg (by omega)).trans ((if_neg h).trans (if_neg (by omega)))

end SwCommit

section SwResult

variable {s : State} (w : s.regsWf) (c n : Nat)
include w

theorem swResult_only : OnlyRegs [Adr.LGR_SW_STAT c] s (swResult s c n) :=
  (OnlyRegs.refl _ s).setF w n (by rw [canon_swStat]; exact List.mem_singleton_self _)

theorem result_swResult : (swResult s c n).f (Fld.LGR_SW_STAT_RESULT c) = n % 4 := f_setF_at w n (by decide)

theorem en_swResult : (swResult s c n).f Fld.LGR_CFG_EN = s.f Fld.LGR_CFG_EN :=
  f_setF_ne w n (canon_ne_swStat (by decide) c)

end SwResult

end Sys2Proof.Laws

namespace Sys2Proof.Proofs

open Sys2Proof.Machine Sys2Proof.Laws

section Staging

variable {s : State} (hp : s.pwr.on = true)
include hp

theorem runs_ledgerStage {P : State → Prop} (h : P s.stageNext) : Runs .ledgerStage s P := Runs.live rfl hp h

theorem runs_ledgerStage_noRoom (w : s.regsWf) (hgo : WriterGoes s) (hstart : s.lgr.start = none) {r : LRec} {rest : List LRec}
    (hq : s.lgr.queue = r :: rest) (hbusy : s.slotBusy s.lgr.nextSeq = true) :
    Runs .ledgerStage s fun t => t.raised Ev.LGR_LOST ∧ t.lgr.nextSeq = s.lgr.nextSeq ∧ MemKept s t := by
  refine runs_ledgerStage hp ?_
  rw [stageNext_noRoom hgo hstart hq hbusy]
  exact loseFront_tells w r rest

end Staging

section Software

variable {s : State} (hp : s.pwr.on = true) (w : s.regsWf) {c : Nat}
include hp w

/-- A commit that does no more than tell its result. -/
theorem runs_swCommit_told {n : Nat} (hn : n < 4) (h : doSwCommit s c c = (swResult s c n).ok) : Runs (.lgrSwCommit c c) s fun t =>
    t.f (Fld.LGR_SW_STAT_RESULT c) = n ∧ OnlyRegs [Adr.LGR_SW_STAT c] s t := by
  refine Runs.live rfl hp ?_
  rw [h]
  exact ⟨((f_ok _ _).trans (result_swResult w c n)).trans (Nat.mod_eq_of_lt hn), (swResult_only w c n).ok⟩

variable (hc : c < 4)
include hc

theorem runs_swCommit_taken (hok : ¬SwBad s c) (he : s.f Fld.LGR_CFG_EN = 1) (hroom : s.lgr.queue.length < 256) :
    Runs (.lgrSwCommit c c) s fun t => t.f (Fld.LGR_SW_STAT_RESULT c) = 0 ∧
      t.lgr = { s.lgr with queue := s.lgr.queue ++ [swRecord s c] } ∧
      RegsKept [Adr.LGR_SW_STAT c] s t ∧ t = { s with regs := t.regs, lgr := t.lgr, answer := ⟨.okay, []⟩ } := by
  have hoffer : (swResult s c 0).offer (swRecord s c) =
      { swResult s c 0 with lgr := { s.lgr with queue := s.lgr.queue ++ [swRecord s c] } } := by
    rw [offer_room ((en_swResult w c 0).trans he) (by rw [setF_lgr]; exact hroom), setF_lgr]
  obtain ⟨hf, hspec⟩ := ok_withLgr (swResult_only w c 0) { s.lgr with queue := s.lgr.queue ++ [swRecord s c] }
  refine Runs.live rfl hp ?_
  rw [doSwCommit_on hc hok he, if_neg (Nat.not_le.mpr hroom), hoffer]
  exact ⟨(hf _).trans (result_swResult w c 0), hspec⟩

theorem runs_swCommit_lost (hok : ¬SwBad s c) (he : s.f Fld.LGR_CFG_EN = 1) (hfull : 256 ≤ s.lgr.queue.length) :
    Runs (.lgrSwCommit c c) s fun t =>
      t.f (Fld.LGR_SW_STAT_RESULT c) = 3 ∧ t.raised Ev.LGR_LOST ∧ OnlyRaised 148 [Adr.LGR_SW_STAT c] s t := by
  have wr : (swResult s c 3).regsWf := setF_wf w _ _
  have hrings := Rings.offer (swResult s c 3) (swRecord s c)
  have hraised := raised_offer_full wr ((en_swResult w c 3).trans he) (by rw [setF_lgr]; exact hfull) (swRecord s c)
  refine Runs.live rfl hp ?_
  rw [doSwCommit_on hc hok he, if_pos hfull]
  exact ⟨(f_ok _ _).trans (((hrings.kept wr).field _ (swStat_not_ring c)).trans (result_swResult w c 3)), raised_ok hraised,
    (onlyRaised_of_rings wr (swResult_only w c 3) hrings).ok⟩

end Software

/-- Settles O53: the writer's step is one of its branches; a staged record is two stores and the number shown, and a record lost or offered
leaves memory. That records are dropped with writing off, and that the writer waits for the ring bank, is log entry 103; that `START`
stands apart from the queue, log entry 102. -/
theorem ledgerTakesAndStages : Obligations.LedgerTakesAndStages := by
  refine ⟨fun s hp i => ?_, fun s m c hp w => ?_⟩
  · have w : s.regsWf := ⟨i.regs⟩
    refine ⟨fun h => runs_ledgerStage hp (stageNext_waits h), fun r hgo h => runs_ledgerStage hp (stageNext_start hgo h),
      fun hgo hs hb hl => runs_ledgerStage hp (stageNext_gap hgo hs hb hl),
      fun r rest hgo hs hq => ⟨fun hb hl => runs_ledgerStage hp (stageNext_front hgo hs hq hb hl),
        runs_ledgerStage_noRoom hp w hgo hs hq⟩, fun r hsw hv => ?_⟩
    obtain ⟨hslot, hshown, hnext, hunflushed, houtside, hkept⟩ := stage_stages i hsw hv
    exact ⟨hslot, hshown, hnext, hunflushed, unit_of_stage hsw hv, houtside, hkept⟩
  · refine ⟨fun h => Runs.live rfl hp (doSwCommit_foreign h), fun hm hc => ?_⟩
    subst hm
    exact ⟨fun h => runs_swCommit_told hp w (by decide) (doSwCommit_bad hc h),
      fun h he => runs_swCommit_told hp w (by decide) (doSwCommit_off hc h he),
      runs_swCommit_taken hp w hc, runs_swCommit_lost hp w hc⟩

end Sys2Proof.Proofs
end

section
/-! ## The ledger: units flushed and writing resumed

Units handed to the flash manager, written or failed, and the numbers after a reset (R374, R381, R382, R384). The lemmas about the model's
operations stand first, the statement's proof after them. -/

namespace Sys2Proof.Laws

open Sys2Proof.Machine

/-! ### Units handed over (R381) -/

theorem doFlush_nil {s : State} (h : s.lgr.unflushed = []) : doFlush s = s.ok := by
  unfold doFlush State.flushCurrent
  rw [h]
  rfl

/-- The unit that is being filled is that of the newest unflushed record. -/
theorem doFlush_last {s : State} {l : List (Nat × Nat)} {q r : Nat} (h : s.lgr.unflushed = l ++ [(q, r)]) :
    doFlush s = (s.handUnit (q / 64)).ok := by
  unfold doFlush State.flushCurrent
  rw [h, List.getLast?_concat]

theorem exec_flushMsExpiry_nil {s : State} (h : s.lgr.unflushed = []) : exec .flushMsExpiry s = live s s := by
  show execFlushMsExpiry s = _
  unfold execFlushMsExpiry
  rw [h]

theorem exec_flushMsExpiry_oldest {s : State} {q r : Nat} {l : List (Nat × Nat)} (h : s.lgr.unflushed = (q, r) :: l) :
    exec .flushMsExpiry s = live s (s.handUnit (q / 64)) := by
  show execFlushMsExpiry s = _
  unfold execFlushMsExpiry
  rw [h]

/-! ### What the till's log changes (R409) -/

/-- Of the ledger only its queue, losses and captured trigger differ. -/
def LedgerKept (s t : State) : Prop := OnlyQueue s.lgr t.lgr

section LedgerKept

variable {s t u : State}

theorem LedgerKept.refl (s : State) : LedgerKept s s := rfl

theorem LedgerKept.trans (h : LedgerKept s t) (k : LedgerKept t u) : LedgerKept s u := OnlyQueue.trans h k

theorem LedgerKept.of_eq (h : t.lgr = s.lgr) : LedgerKept s t := OnlyQueue.of_eq h

theorem LedgerKept.setF (h : LedgerKept s t) (r : RF) (v : Nat) : LedgerKept s (t.setF r v) := h.trans (LedgerKept.of_eq (setF_lgr t r v))

theorem LedgerKept.raise (h : LedgerKept s t) (e : Ev) : LedgerKept s (t.raise e) := h.trans (Offers.raise t e).lgr

theorem LedgerKept.withNfc (h : LedgerKept s t) (x : NfcSt) : LedgerKept s { t with nfc := x } := h

theorem LedgerKept.ite {c : Prop} [Decidable c] (ht : LedgerKept s t) (hu : LedgerKept s u) : LedgerKept s (if c then t else u) := by
  split
  · exact ht
  · exact hu

theorem lgr_takeBlks (n : Nat) (s : State) : (State.takeBlks n s).1.lgr = s.lgr := by
  induction n generalizing s with
  | zero => rfl
  | succ n ih =>
    unfold State.takeBlks
    split
    · rfl
    · exact ih _

theorem lgr_dropBlks (s : State) (l : List Nat) : (s.dropBlks l).lgr = s.lgr := by
  unfold State.dropBlks
  induction l generalizing s with
  | nil => rfl
  | cons b l ih => exact ih _

theorem ledgerKept_nfcShow (s : State) : LedgerKept s s.nfcShow := by
  have hparts (n : Nat) (t : State) : LedgerKept t (forUp n (fun i t => (t.setF (Fld.NFC_PART_OBJECTS i)
      (min 255 (s.objsOf (i + 1)).length)).setF (Fld.NFC_PART_USED i) (s.partBlks (i + 1))) t) :=
    forUp_induct (P := fun _ u => LedgerKept t u) (LedgerKept.refl t) (fun _ _ h => (h.setF _ _).setF _ _) n
  unfold State.nfcShow
  extract_lets s1 s2 s3 low s4 worn s5
  have h2 : LedgerKept s s2 := ((((((LedgerKept.refl s).setF _ _).setF _ _).setF _ _).setF _ _).setF _ _).setF _ _
  have h3 : LedgerKept s s3 := h2.trans (hparts 6 s2)
  have h4 : LedgerKept s s4 := LedgerKept.ite ((h3.setF _ _).raise _) h3
  have h5 : LedgerKept s s5 := LedgerKept.ite ((h4.withNfc _).raise _) h4
  exact LedgerKept.ite ((h5.setF _ _).raise _) (LedgerKept.ite ((h5.setF _ _).raise _) h5)

theorem lgr_logUnit (s : State) (n : Nat) : (s.logUnit n).lgr = s.lgr := by
  unfold State.logUnit
  dsimp only
  split
  · split
    · rfl
    · exact lgr_takeBlks 1 _
  · exact lgr_takeBlks 1 _

theorem managed_logUnit (s : State) (n : Nat) : Managed s (s.logUnit n) := by
  have hseq : Managed s { s with nfc := { s.nfc with wseq := s.nfc.wseq + 1 } } := (Managed.refl s).withNfc _
  unfold State.logUnit
  dsimp only
  split
  · split
    · exact (Managed.refl s).withNfc _
    · exact (hseq.trans (managed_takeBlks 1 _)).withNfc _
  · exact (hseq.trans (managed_takeBlks 1 _)).withNfc _

theorem ledgerKept_logFree (s : State) (old : Nat) : LedgerKept s (s.logFree old) :=
  ((LedgerKept.of_eq (lgr_dropBlks s _)).withNfc _).trans (ledgerKept_nfcShow _)

theorem managed_logFree (s : State) (old : Nat) : Managed s (s.logFree old) :=
  ((managed_dropBlks s _).withNfc _).trans (managed_nfcShow _)

end LedgerKept

/-! ### Unit writes (R381, R382) -/

/-- The ledger with unit `u` in the till and its records flushed; `rest` are the units still to write. -/
def unitFlushed (s : State) (u : Nat) (rest : List Nat) : LgrSt :=
  { s.lgr with
    units := rest, till := tillPut s.lgr.till u (s.unitBytes u), unflushed := s.lgr.unflushed.filter fun e => e.1 / 64 != u }

theorem till_unitFlushed (s : State) (u : Nat) (rest : List Nat) :
    (unitFlushed s u rest).till = tillPut s.lgr.till u (s.unitBytes u) := by
  unfold unitFlushed
  dsimp only

/-- A failed write of a unit is counted, and not yet told. -/
def flushFailed (s : State) (rest : List Nat) : State :=
  State.stick { s with lgr := { s.lgr with units := rest } } Fld.LGR_CNT_B_FLUSH_ERR Fld.LGR_FLAGS_FERR_SAT 1

section UnitWritten

variable {s : State} {u : Nat} {rest : List Nat} (h : s.lgr.units = u :: rest)
include h

theorem unitWritten_good (hr : s.nfcReady = true) : ∃ old,
    s.unitWritten true = (State.logUnit { s with lgr := unitFlushed s u rest } u).logFree old := by
  unfold State.unitWritten
  rw [h]
  dsimp only
  rw [if_pos (by rw [hr]; rfl)]
  exact ⟨_, rfl⟩

theorem unitWritten_bad {good : Bool} (hg : (good && s.nfcReady) = false) :
    s.unitWritten good = (flushFailed s rest).raise Ev.LGR_FLUSH_ERR := by
  unfold State.unitWritten
  rw [h]
  dsimp only
  rw [if_neg (ne_true_of_eq_false hg)]
  rfl

/-- A unit written joins the till, and its records are no more unflushed. -/
theorem unitWritten_joins (hr : s.nfcReady = true) : let t := s.unitWritten true
    t.lgr.units = rest ∧ t.lgr.till = tillPut s.lgr.till u (s.unitBytes u) ∧
      t.lgr.unflushed = s.lgr.unflushed.filter (fun e => e.1 / 64 != u) ∧ MemKept s t := by
  obtain ⟨old, ht⟩ := unitWritten_good h hr
  have hlgr : OnlyQueue (unitFlushed s u rest) (s.unitWritten true).lgr := by
    rw [ht]
    exact OnlyQueue.trans (OnlyQueue.of_eq (lgr_logUnit _ u)) (ledgerKept_logFree _ old)
  refine ⟨hlgr.units, hlgr.till.trans (till_unitFlushed s u rest), hlgr.unflushed, fun a => ?_⟩
  rw [ht]
  exact ((managed_logUnit _ u).trans (managed_logFree _ old)).mem a

end UnitWritten

theorem flushFailed_wf {s : State} (w : s.regsWf) (rest : List Nat) : (flushFailed s rest).regsWf := stick_wf (mk_wf w) _ _ 1

theorem lgr_flushFailed (s : State) (rest : List Nat) : (flushFailed s rest).lgr = { s.lgr with units := rest } := by
  rw [flushFailed, stick_parts]

/-- A unit whose write has failed is counted and told; its records stay unflushed. -/
theorem flushFailed_told {s : State} (w : s.regsWf) (rest : List Nat) : let t := (flushFailed s rest).raise Ev.LGR_FLUSH_ERR
    t.lgr.units = rest ∧ t.lgr.unflushed = s.lgr.unflushed ∧ t.lgr.till = s.lgr.till ∧
      t.f Fld.LGR_CNT_B_FLUSH_ERR = min (s.f Fld.LGR_CNT_B_FLUSH_ERR + 1) 65535 ∧ t.raised Ev.LGR_FLUSH_ERR := by
  have hoffers := Offers.raise (flushFailed s rest) Ev.LGR_FLUSH_ERR
  have hlgr : OnlyQueue { s.lgr with units := rest } ((flushFailed s rest).raise Ev.LGR_FLUSH_ERR).lgr :=
    lgr_flushFailed s rest ▸ hoffers.lgr
  have hcount : (flushFailed s rest).f Fld.LGR_CNT_B_FLUSH_ERR = min (s.f Fld.LGR_CNT_B_FLUSH_ERR + 1) 65535 := by
    rw [flushFailed, f_stick (mk_wf w) 1 (by decide) (by decide) (by decide), f_mk]
    rfl
  exact ⟨hlgr.units, hlgr.unflushed, hlgr.till,
    (hoffers.flushErr (flushFailed_wf w rest)).trans hcount, raise_sets (flushFailed_wf w rest) (by decide) (by decide)⟩

/-! ### Writing resumed after a reset (R374, R384) -/

/-- The records of the ring that the till has not, by number. -/
def ringNewer (s : State) : List (Nat × List Byte) :=
  ((s.ringRecords (min (s.f Fld.SYS_RETAIN_RING_BANK) 60)).filter fun e => tillLast s.lgr.till < e.1).foldl insertSeq []

/-- The highest number of till, vault and ring. -/
def highestSeq (s : State) : Nat := (ringNewer s).foldl (fun m e => max m e.1) (max (tillLast s.lgr.till) s.lgr.vLast)

/-- The `START` record of the scan. -/
def startRec (s : State) : LRec :=
  mkRec 516 1 s.now (leBytes 8 (highestSeq s) ++ leBytes 4 (ringNewer s).length ++ leBytes 1 (s.f Fld.SYS_RST_CAUSE_CODE))

theorem ledgerStart_eq (s : State) : s.ledgerStart = { s with lgr := { s.lgr with
    scanned := true, till := (ringNewer s).foldl tillAdd s.lgr.till, nextSeq := (highestSeq s / 65536 + 1) * 65536
    unflushed := [], units := [], start := some (startRec s) } } := rfl

/-- A number is a key of the list. -/
def HasKey (l : List (Nat × List Byte)) (k : Nat) : Prop := ∃ e ∈ l, e.1 = k

theorem hasKey_cons {e : Nat × List Byte} {l : List (Nat × List Byte)} {k : Nat} : HasKey (e :: l) k ↔ e.1 = k ∨ HasKey l k := by
  simp [HasKey]

/-- Inserting by number keeps the numbers listed and adds one. -/
theorem hasKey_spInsert {l : List (Nat × List Byte)} {a k : Nat} (b : List Byte) (h : a = k ∨ HasKey l k) : HasKey (spInsert l a b) k := by
  induction l with
  | nil => exact hasKey_cons.mpr h
  | cons e l ih =>
    rw [hasKey_cons] at h
    unfold spInsert
    split
    · rename_i hae
      exact hasKey_cons.mpr (h.elim Or.inl (Or.imp_left hae.trans))
    · split
      · exact hasKey_cons.mpr (h.imp_right hasKey_cons.mpr)
      · exact hasKey_cons.mpr (h.elim (fun ha => Or.inr (ih (Or.inl ha))) (Or.imp_right fun hl => ih (Or.inr hl)))

theorem hasKey_foldl_insertSeq {l acc : List (Nat × List Byte)} {k : Nat} (h : HasKey acc k ∨ HasKey l k) :
    HasKey (l.foldl insertSeq acc) k := by
  induction l generalizing acc with
  | nil => exact h.resolve_right fun ⟨_, hmem, _⟩ => List.not_mem_nil hmem
  | cons e l ih =>
    rw [hasKey_cons] at h
    exact ih (h.elim (fun hacc => Or.inl (hasKey_spInsert e.2 (Or.inr hacc)))
      (fun hl => hl.imp (fun he => hasKey_spInsert e.2 (Or.inl he)) id))

theorem le_foldl_max {l : List (Nat × List Byte)} {m k : Nat} (h : k ≤ m ∨ HasKey l k) : k ≤ l.foldl (fun m e => max m e.1) m := by
  induction l generalizing m with
  | nil => exact h.resolve_right fun ⟨_, hmem, _⟩ => List.not_mem_nil hmem
  | cons e l ih =>
    rw [hasKey_cons] at h
    exact ih (h.elim (fun hm => Or.inl (le_max_of_le_left hm)) (Or.imp_left fun he => le_max_of_le_right he.ge))

/-- No record of the ring has a higher number: it is in the till or newer. -/
theorem le_highestSeq {s : State} {e : Nat × List Byte} (h : e ∈ s.ringRecords (min (s.f Fld.SYS_RETAIN_RING_BANK) 60)) :
    e.1 ≤ highestSeq s := by
  refine le_foldl_max ?_
  by_cases hnew : tillLast s.lgr.till < e.1
  · exact Or.inr (hasKey_foldl_insertSeq (Or.inr ⟨e, List.mem_filter.mpr ⟨h, decide_eq_true hnew⟩, rfl⟩))
  · exact Or.inl (le_max_of_le_left (Nat.not_lt.mp hnew))

end Sys2Proof.Laws

namespace Sys2Proof.Proofs

open Sys2Proof.Machine Sys2Proof.Laws

section Flush

variable {s : State} (hp : s.pwr.on = true)
include hp

theorem runs_flush {l : List (Nat × Nat)} {q r : Nat} (h : s.lgr.unflushed = l ++ [(q, r)]) : Runs .flush s fun t =>
    t.lgr = { s.lgr with units := t.lgr.units } ∧ t.lgr.units = unitsWith s (q / 64) ∧
      t = { s with lgr := t.lgr, answer := ⟨.okay, []⟩ } := by
  refine Runs.live rfl hp ?_
  rw [doFlush_last h, handUnit_eq]
  exact ⟨rfl, rfl, rfl⟩

theorem runs_flushMsExpiry {q r : Nat} {l : List (Nat × Nat)} (h : s.lgr.unflushed = (q, r) :: l) : Runs .flushMsExpiry s fun t =>
    t.lgr = { s.lgr with units := t.lgr.units } ∧ t.lgr.units = unitsWith s (q / 64) ∧ t = { s with lgr := t.lgr } := by
  refine Runs.live (exec_flushMsExpiry_oldest h) hp ?_
  rw [handUnit_eq]
  exact ⟨rfl, rfl, rfl⟩

theorem runs_ledgerUnitWritten {P : State → Prop} {good : Bool} (hm : s.f Fld.NFC_STAT_STATE ≠ 1) (h : P (s.unitWritten good)) :
    Runs (.ledgerUnitWritten good) s P := Runs.liveIf rfl hp (bne_iff_ne.mpr hm) h

theorem runs_ledgerUnitWritten_bad (w : s.regsWf) {u : Nat} {rest : List Nat} (h : s.lgr.units = u :: rest)
    (hm : s.f Fld.NFC_STAT_STATE ≠ 1) {good : Bool} (hg : (good && s.nfcReady) = false) : Runs (.ledgerUnitWritten good) s fun t =>
      t.lgr.units = rest ∧ t.lgr.unflushed = s.lgr.unflushed ∧ t.lgr.till = s.lgr.till ∧
      t.f Fld.LGR_CNT_B_FLUSH_ERR = min (s.f Fld.LGR_CNT_B_FLUSH_ERR + 1) 65535 ∧ t.raised Ev.LGR_FLUSH_ERR := by
  refine runs_ledgerUnitWritten hp hm ?_
  rw [unitWritten_bad h hg]
  exact flushFailed_told w rest

theorem runs_ledgerStart (hs : s.lgr.scanned = false) (hmain : s.pwr.mainHeld = false) (hm : s.f Fld.NFC_STAT_STATE ≠ 1)
    (hc : s.mm.cleared = true) : Runs .ledgerStart s fun t =>
      ∃ u : State, t = u.bootOn ∧ u = { s with lgr := u.lgr } ∧ u.lgr.scanned = true ∧ u.lgr.nextSeq % 65536 = 0 ∧
        (∀ e ∈ s.ringRecords (min (s.f Fld.SYS_RETAIN_RING_BANK) 60), e.1 < u.lgr.nextSeq) ∧
        (∃ r, u.lgr.start = some r ∧ r.source = 516 ∧ r.type = 1) ∧ u.lgr.unflushed = [] ∧ u.lgr.units = [] := by
  refine Runs.liveIf rfl hp (by rw [hs, hmain, bne_iff_ne.mpr hm, hc]; rfl) ⟨s.ledgerStart, rfl, ?_⟩
  rw [ledgerStart_eq]
  refine ⟨rfl, rfl, Nat.mul_mod_left _ _, fun e he => ?_, ⟨startRec s, rfl, rfl, rfl⟩, rfl, rfl⟩
  have hle := le_highestSeq he
  show e.1 < (highestSeq s / 65536 + 1) * 65536
  omega

end Flush

/-- Settles O54: a unit is handed over once; logging it changes the medium and raises events, which leave till, units and unflushed
records; the scan's highest number bounds every record of the ring. The multiple of 65,536 is R374, the count of failed units R382. -/
theorem ledgerFlushesAndResumes : Obligations.LedgerFlushesAndResumes := fun _ hp w =>
  ⟨fun h => ⟨Runs.live rfl hp (doFlush_nil h), runs_of_live_same (exec_flushMsExpiry_nil h)⟩,
    fun _ _ _ => runs_flush hp, fun _ _ _ => runs_flushMsExpiry hp,
    fun _ _ h hm => ⟨fun hr => runs_ledgerUnitWritten hp hm (unitWritten_joins h hr),
      fun _ hg => runs_ledgerUnitWritten_bad hp w h hm hg⟩,
    runs_ledgerStart hp⟩

end Sys2Proof.Proofs
end

section
/-! ## Flash: requests of software

Requests taken, refused and served (R405, R407–R409, R441, R443; a load in a state that does not read is log entry 107). What a report of
the manager's figures leaves alone stands first, then the operations of a request, then the statement's proof. -/

namespace Sys2Proof.Laws

open Sys2Proof.Machine

/-! ### Figures and events of the manager (R413, R415) -/

theorem raise_nfc (s : State) (e : Ev) : (s.raise e).nfc = s.nfc := by
  rw [raise_parts]

/-- From `s` the machine has come to `t` by reports of the manager: of its own state only the wear warning may differ, and the boot slot is
shown as before. -/
structure Reported (s t : State) : Prop where
  nfc : t.nfc = { s.nfc with worn := t.nfc.worn }
  wf : s.regsWf → t.regsWf
  bootSlot : s.regsWf → t.f Fld.NFC_STAT_BOOT_SLOT = s.f Fld.NFC_STAT_BOOT_SLOT

/-- A write of the field `r` leaves the boot slot shown. -/
abbrev LeavesBootSlot (r : RF) : Prop :=
  ∀ (t : State) (v : Nat), t.regsWf → (t.setF r v).f Fld.NFC_STAT_BOOT_SLOT = t.f Fld.NFC_STAT_BOOT_SLOT

/-- No word but `NFC_STAT` itself is kept where `NFC_STAT` is. -/
theorem canon_ne_nfcStat {a : Nat} (h : a ≠ Adr.NFC_STAT) : canon Adr.NFC_STAT ≠ canon a := by
  have hne : a ≠ 150540 := h
  rw [canon_body (by decide)]
  show 150540 ≠ canon a
  unfold canon
  split_ifs <;> omega

theorem leavesBootSlot_word {r : RF} (h : r.a ≠ Adr.NFC_STAT) : LeavesBootSlot r := fun _ v w =>
  f_setF_ne w v (canon_ne_nfcStat h)

theorem leavesBootSlot_state : LeavesBootSlot Fld.NFC_STAT_STATE := fun _ v w =>
  f_setF_beside w v (by decide) (by decide)

theorem leavesBootSlot_spareLow : LeavesBootSlot Fld.NFC_STAT_SPARE_LOW := fun _ v w =>
  f_setF_beside w v (by decide) (by decide)

section Reported

variable {s t u : State}

theorem Reported.refl (s : State) : Reported s s := ⟨rfl, id, fun _ => rfl⟩

theorem Reported.trans (h : Reported s t) (k : Reported t u) : Reported s u := by
  refine ⟨?_, fun w => k.wf (h.wf w), fun w => (k.bootSlot (h.wf w)).trans (h.bootSlot w)⟩
  have e := k.nfc
  rw [h.nfc] at e
  exact e

theorem Reported.setF (h : Reported s t) {r : RF} (hr : LeavesBootSlot r) (v : Nat) : Reported s (t.setF r v) :=
  h.trans ⟨rfl, fun w => setF_wf w r v, hr t v⟩

theorem Reported.raise (h : Reported s t) {e : Ev} (hp : e.page = 147) : Reported s (t.raise e) := by
  refine h.trans ⟨by rw [raise_nfc], fun w => raise_wf w e, fun w => f_raise w (by rw [hp]; rfl) ?_⟩
  rw [hp]
  decide

theorem Reported.warnWear (h : Reported s t) : Reported s { t with nfc := { t.nfc with worn := true } } :=
  h.trans ⟨rfl, mk_wf, fun _ => f_mk _⟩

theorem Reported.ite {c : Prop} [Decidable c] (ht : Reported s t) (hu : Reported s u) : Reported s (if c then t else u) := by
  split
  · exact ht
  · exact hu

theorem Reported.objs (h : Reported s t) : t.nfc.objs = s.nfc.objs := (congrArg NfcSt.objs h.nfc :)

theorem Reported.log (h : Reported s t) : t.nfc.log = s.nfc.log := (congrArg NfcSt.log h.nfc :)

theorem Reported.head (h : Reported s t) : t.nfc.head = s.nfc.head := (congrArg NfcSt.head h.nfc :)

end Reported

theorem reported_nfcShow (s : State) : Reported s s.nfcShow := by
  have hparts (n : Nat) (t : State) : Reported t (forUp n (fun i t => (t.setF (Fld.NFC_PART_OBJECTS i)
      (min 255 (s.objsOf (i + 1)).length)).setF (Fld.NFC_PART_USED i) (s.partBlks (i + 1))) t) := by
    have hword (i : Nat) : Adr.NFC_PART i ≠ Adr.NFC_STAT := by
      unfold Adr.NFC_PART Adr.NFC_STAT
      omega
    exact forUp_induct (P := fun _ u => Reported t u) (Reported.refl t)
      (fun i _ h => (h.setF (leavesBootSlot_word (hword i)) _).setF (leavesBootSlot_word (hword i)) _) n
  have hfigure {t u : State} (h : Reported t u) {r : RF} (hr : r.a ≠ Adr.NFC_STAT) (v : Nat) : Reported t (u.setF r v) :=
    h.setF (leavesBootSlot_word hr) v
  unfold State.nfcShow
  extract_lets s1 s2 s3 low s4 worn s5
  have h1 : Reported s s1 := hfigure (hfigure (hfigure (hfigure (hfigure (Reported.refl s) (by decide) _) (by decide) _) (by decide) _)
    (by decide) _) (by decide) _
  have h3 : Reported s s3 := (hfigure h1 (by decide) _).trans (hparts 6 s2)
  have h4 : Reported s s4 := Reported.ite ((h3.setF leavesBootSlot_spareLow _).raise rfl) h3
  have h5 : Reported s s5 := Reported.ite (h4.warnWear.raise rfl) h4
  exact Reported.ite ((h5.setF leavesBootSlot_state _).raise rfl)
    (Reported.ite ((h5.setF leavesBootSlot_state _).raise rfl) h5)

/-! ### The result of a request (R411, R415) -/

/-- The result `code` has been shown and told. -/
def resultTold (s : State) (code : Nat) : State :=
  ((s.setF Fld.NFC_REQ_RES_DONE 1).setF Fld.NFC_REQ_RES_CODE code).raise Ev.NFC_REQ_DONE

theorem nfc_resultTold (s : State) (code : Nat) : (resultTold s code).nfc = s.nfc := by
  unfold resultTold
  rw [raise_nfc, setF_nfc, setF_nfc]

theorem onlyRaised_resultTold {l : List Nat} {s t : State} (w : t.regsWf) (h : OnlyRegs l s t) (hl : Adr.NFC_REQ_RES ∈ l) (code : Nat) :
    OnlyRaised 147 l s (resultTold t code) := by
  have hres : canon Adr.NFC_REQ_RES ∈ l := by
    rw [canon_body (by decide)]
    exact hl
  have hshown := (h.setF (r := Fld.NFC_REQ_RES_DONE) w 1 hres).setF (r := Fld.NFC_REQ_RES_CODE) (setF_wf w _ _) code hres
  exact hshown.raise (e := Ev.NFC_REQ_DONE) (setF_wf (setF_wf w _ _) _ _) rfl

section ResultTold

variable {s : State} (w : s.regsWf)
include w

theorem raised_resultTold (code : Nat) : (resultTold s code).raised Ev.NFC_REQ_DONE :=
  raise_sets (setF_wf (setF_wf w _ _) _ _) (by decide) (by decide)

/-- The event leaves the result's word. -/
theorem f_resultTold (code : Nat) {q : RF} (hq : q.a = Adr.NFC_REQ_RES) :
    (resultTold s code).f q = ((s.setF Fld.NFC_REQ_RES_DONE 1).setF Fld.NFC_REQ_RES_CODE code).f q :=
  f_raise (setF_wf (setF_wf w _ _) _ _) rfl (by rw [hq]; decide)

theorem code_resultTold {code : Nat} (hc : code < 16) : (resultTold s code).f Fld.NFC_REQ_RES_CODE = code := by
  rw [f_resultTold w code rfl, f_setF_same (setF_wf w _ _) _ _ (by decide) (by decide)]
  exact Nat.mod_eq_of_lt hc

theorem done_resultTold (code : Nat) : (resultTold s code).f Fld.NFC_REQ_RES_DONE = 1 := by
  rw [f_resultTold w code rfl, f_setF_beside (setF_wf w _ _) code (by decide) (by decide),
    f_setF_at w 1 (by decide)]
  rfl

theorem busy_resultTold (code : Nat) : (resultTold s code).f Fld.NFC_REQ_RES_BUSY = s.f Fld.NFC_REQ_RES_BUSY := by
  rw [f_resultTold w code rfl, f_setF_beside (setF_wf w _ _) code (by decide) (by decide),
    f_setF_beside w 1 (by decide) (by decide)]

end ResultTold

/-- No request runs, and none is busy. -/
def reqIdle (s : State) : State := State.setF { s with nfc := { s.nfc with req := none } } Fld.NFC_REQ_RES_BUSY 0

theorem reqEnd_eq (s : State) (code : Nat) : s.reqEnd code = resultTold (reqIdle s) code := rfl

theorem nfc_reqEnd (s : State) (code : Nat) : (s.reqEnd code).nfc = { s.nfc with req := none } := nfc_resultTold _ _

/-- A request has ended with `code`. -/
abbrev RequestEnded (code : Nat) (t : State) : Prop :=
  t.f Fld.NFC_REQ_RES_CODE = code ∧ t.f Fld.NFC_REQ_RES_BUSY = 0 ∧ t.f Fld.NFC_REQ_RES_DONE = 1 ∧ t.raised Ev.NFC_REQ_DONE ∧
    t.nfc.req = none

theorem reqEnd_ended {s : State} (w : s.regsWf) {code : Nat} (hc : code < 16) : RequestEnded code (s.reqEnd code) := by
  have wi : (reqIdle s).regsWf := setF_wf (mk_wf w) _ _
  have hbusy : (reqIdle s).f Fld.NFC_REQ_RES_BUSY = 0 := f_setF_same (mk_wf w) _ 0 (by decide) (by decide)
  exact ⟨code_resultTold wi hc, (busy_resultTold wi code).trans hbusy, done_resultTold wi code, raised_resultTold wi code,
    congrArg NfcSt.req (nfc_reqEnd s code)⟩

theorem objs_reqEnd (s : State) (code : Nat) : (s.reqEnd code).nfc.objs = s.nfc.objs := (congrArg NfcSt.objs (nfc_reqEnd s code) :)

theorem objAt_congr {s t : State} (h : t.nfc.objs = s.nfc.objs) (p i : Nat) : t.objAt p i = s.objAt p i :=
  congrArg (List.find? fun o : NObj => o.part == p && o.index == i) h

/-! ### The word of a request (R407) -/

/-- The operations of a request: 1 write, 2 load, 3 erase, 4 image. -/
abbrev ReqOp (op : Nat) : Prop := op ∈ [1, 2, 3, 4]

section WithOp

variable {op : Nat} (h : ReqOp op) (v : Word)
include h

/-- The operation put into the word changes no field below bit 28. -/
theorem bitsOf_withOp_below {hi lo : Nat} (hm : (0x0FFFFFFF : Word).extractLsb' lo (hi + 1 - lo) = BitVec.allOnes _)
    (ho : ∀ op ∈ [1, 2, 3, 4], (BitVec.ofNat 32 (0x80000000 + op * 0x10000000)).extractLsb' lo (hi + 1 - lo) = 0#_) :
    bitsOf (withOp op v).toNat hi lo = bitsOf v.toNat hi lo := (bitsOf_or_left (ho op h)).trans (bitsOf_and_ones v hm)

theorem part_withOp : bitsOf (withOp op v).toNat 26 24 = bitsOf v.toNat 26 24 := bitsOf_withOp_below h v (by decide) (by decide)

theorem index_withOp : bitsOf (withOp op v).toNat 20 16 = bitsOf v.toNat 20 16 := bitsOf_withOp_below h v (by decide) (by decide)

theorem op_withOp : bitsOf (withOp op v).toNat 30 28 = op := by
  have hop : ∀ op ∈ [1, 2, 3, 4], bitsOf (BitVec.ofNat 32 (0x80000000 + op * 0x10000000)).toNat 30 28 = op := by decide
  exact (bitsOf_or_right (extract_and_zero v (by decide))).trans (hop op h)

theorem go_withOp : bitOf (withOp op v).toNat 31 = true := by
  have hgo : ∀ op ∈ [1, 2, 3, 4], bitsOf (BitVec.ofNat 32 (0x80000000 + op * 0x10000000)).toNat 31 31 = 1 := by decide
  rw [bitOf_eq_bitsOf, beq_iff_eq]
  exact (bitsOf_or_right (extract_and_zero v (by decide))).trans (hgo op h)

end WithOp

/-! ### A request is refused or taken (R405, R407, R443) -/

/-- The partition a request is for: that of the images, whatever an image request names. -/
abbrev reqPart (op p : Nat) : Nat := if op = 4 then 5 else p

/-- What the master's table is asked for. -/
abbrev reqAcc (op : Nat) : Acc := if op = 1 ∨ op = 3 then .write else .read

/-- The partition serves the operation, and the master's table lets it through. -/
abbrev ReqServed (s : State) (m op p : Nat) : Prop :=
  opServed op p = true ∧ (s.f Fld.FWL_STAT_ENFORCE = 0 ∨ s.listCovers m (reqAcc op) 203 (reqPart op p) = true)

/-- A write of the slot the firmware runs from. -/
abbrev ReqOwnSlot (s : State) (op p : Nat) : Prop := op = 1 ∧ p = 1 + s.f Fld.NFC_STAT_RUN_SLOT

/-- The fields of the request are shown. -/
def reqNoted (s : State) (op : Nat) (v : Word) : State :=
  ((s.setF Fld.NFC_REQ_CTRL_OP op).setF Fld.NFC_REQ_CTRL_PART (bitsOf v.toNat 26 24)).setF Fld.NFC_REQ_CTRL_INDEX (bitsOf v.toNat 20 16)

/-- The fields of the request and that it is busy are shown. -/
def reqShown (s : State) (op : Nat) (v : Word) : State := ((reqNoted s op v).setF Fld.NFC_REQ_RES_BUSY 1).setF Fld.NFC_REQ_RES_CODE 0

section ReqNoted

variable {s : State} (w : s.regsWf) (op : Nat) (v : Word)
include w

theorem reqNoted_wf : (reqNoted s op v).regsWf := setF_wf (setF_wf (setF_wf w _ _) _ _) _ _

theorem reqNoted_only : OnlyRegs [Adr.NFC_REQ_CTRL, Adr.NFC_REQ_RES] s (reqNoted s op v) :=
  (((OnlyRegs.refl _ s).setF w op (by decide)).setF (setF_wf w _ _) _ (by decide)).setF (setF_wf (setF_wf w _ _) _ _) _ (by decide)

theorem f_reqNoted {q : RF} (hq : canon q.a ≠ canon Adr.NFC_REQ_CTRL) : (reqNoted s op v).f q = s.f q :=
  (f_setF_ne (setF_wf (setF_wf w _ _) _ _) _ hq).trans ((f_setF_ne (setF_wf w _ _) _ hq).trans (f_setF_ne w op hq))

end ReqNoted

theorem nfc_reqNoted (s : State) (op : Nat) (v : Word) : (reqNoted s op v).nfc = s.nfc := by
  unfold reqNoted
  rw [setF_nfc, setF_nfc, setF_nfc]

/-- The checks of R405 and R443 refuse the request. -/
abbrev reqBarred (s : State) (m op p : Nat) : Bool :=
  !opServed op p || !(s.f Fld.FWL_STAT_ENFORCE == 0 || s.listCovers m (reqAcc op) 203 (reqPart op p))

theorem reqBarred_iff {s : State} {m op p : Nat} : reqBarred s m op p = true ↔ ¬ReqServed s m op p := by
  rw [reqBarred, ← Bool.not_and, Bool.not_eq_true', Bool.eq_false_iff, ne_eq, Bool.and_eq_true, Bool.or_eq_true, beq_iff_eq]

/-- The manager with the request taken. -/
abbrev nfcTaken (s : State) (op : Nat) (v : Word) : NfcSt :=
  { s.nfc with req := some ⟨op, reqPart op (bitsOf v.toNat 26 24), bitsOf v.toNat 20 16⟩ }

theorem setF_setF_withNfc (s : State) (x : NfcSt) (r q : RF) (v u : Nat) :
    (State.setF { s with nfc := x } r v).setF q u = { (s.setF r v).setF q u with nfc := x } := rfl

/-- The four commands of software are one write of the request's word. -/
theorem exec_request (s : State) {c : Instr} {m op : Nat} {v : Word}
    (h : (c, op) ∈ [(Instr.nfcWrite m v, 1), (Instr.nfcLoad m v, 2), (Instr.nfcErase m v, 3), (Instr.nfcImage m v, 4)]) :
    exec c s = live s (doNfcReq s m (withOp op v)) ∧ ReqOp op := by
  simp only [List.mem_cons, Prod.mk.injEq, List.not_mem_nil, or_false] at h
  rcases h with ⟨rfl, rfl⟩ | ⟨rfl, rfl⟩ | ⟨rfl, rfl⟩ | ⟨rfl, rfl⟩ <;> exact ⟨rfl, by decide⟩

section Requested

variable {s : State} {m op : Nat} {v : Word} (h : ReqOp op)
include h

/-- A command's checks, in their order. -/
theorem doNfcReq_checks : doNfcReq s m (withOp op v) =
    if s.nfc.req.isSome = true then ((reqNoted s op v).setF Fld.NFC_REQ_RES_CODE 2).ok
    else if reqBarred s m op (bitsOf v.toNat 26 24) = true then ((reqNoted s op v).reqEnd 3).ok
    else if ReqOwnSlot s op (bitsOf v.toNat 26 24) then ((reqNoted s op v).reqEnd 10).ok
    else State.ok { reqShown s op v with nfc := nfcTaken s op v } := by
  have htaken := setF_setF_withNfc (reqNoted s op v) (nfcTaken s op v) Fld.NFC_REQ_RES_BUSY Fld.NFC_REQ_RES_CODE 1 0
  unfold doNfcReq
  dsimp only
  rw [op_withOp h, part_withOp h, index_withOp h, go_withOp h, if_neg (by decide), ← reqNoted, nfc_reqNoted, htaken]
  rfl

theorem doNfcReq_busy (hr : s.nfc.req ≠ none) : doNfcReq s m (withOp op v) = ((reqNoted s op v).setF Fld.NFC_REQ_RES_CODE 2).ok :=
  (doNfcReq_checks h).trans (if_pos (Option.isSome_iff_ne_none.mpr hr))

variable (hr : s.nfc.req = none)
include hr

theorem doNfcReq_unserved (hs : ¬ReqServed s m op (bitsOf v.toNat 26 24)) :
    doNfcReq s m (withOp op v) = ((reqNoted s op v).reqEnd 3).ok := by
  rw [doNfcReq_checks h, if_neg (by rw [hr]; decide), if_pos (reqBarred_iff.mpr hs)]

variable (hs : ReqServed s m op (bitsOf v.toNat 26 24))
include hs

theorem doNfcReq_ownSlot (ho : ReqOwnSlot s op (bitsOf v.toNat 26 24)) :
    doNfcReq s m (withOp op v) = ((reqNoted s op v).reqEnd 10).ok := by
  rw [doNfcReq_checks h, if_neg (by rw [hr]; decide), if_neg (fun hb => reqBarred_iff.mp hb hs), if_pos ho]

theorem doNfcReq_taken (ho : ¬ReqOwnSlot s op (bitsOf v.toNat 26 24)) :
    doNfcReq s m (withOp op v) = State.ok { reqShown s op v with nfc := nfcTaken s op v } := by
  rw [doNfcReq_checks h, if_neg (by rw [hr]; decide), if_neg (fun hb => reqBarred_iff.mp hb hs), if_neg ho]

end Requested

theorem noReq_eq {s : State} (h : s.nfc.req = none) : ({ s with nfc := { s.nfc with req := none } } : State) = s := by
  have hnfc : ({ s.nfc with req := none } : NfcSt) = s.nfc := by
    rw [← h]
  rw [hnfc]

/-- The manager's own state changed after register writes, and the command answered. -/
theorem ok_withNfc {l : List Nat} {s t : State} (h : OnlyRegs l s t) (x : NfcSt) : let u := State.ok { t with nfc := x }
    (∀ q, u.f q = t.f q) ∧ u.nfc = x ∧ RegsKept l s u ∧ u = { s with regs := u.regs, nfc := u.nfc, answer := ⟨.okay, []⟩ } := by
  obtain ⟨hkept, hparts⟩ := h
  refine ⟨fun q => f_congr rfl q, rfl, hkept, ?_⟩
  rw [hparts]
  rfl

/-- With no request running, the end of one changes the request's words only. -/
theorem reqEnd_only {l : List Nat} {s t : State} (w : t.regsWf) (h : OnlyRegs l s t) (hr : t.nfc.req = none) (hl : Adr.NFC_REQ_RES ∈ l)
    (code : Nat) : OnlyRaised 147 l s (t.reqEnd code) := by
  rw [reqEnd_eq, reqIdle, noReq_eq hr]
  refine onlyRaised_resultTold (setF_wf w _ _) (h.setF w 0 ?_) hl code
  rw [canon_body (by decide)]
  exact hl

/-! ### Content of the medium (R403, R405) -/

theorem objAt_reqEnd (s : State) (code p i : Nat) : (s.reqEnd code).objAt p i = s.objAt p i := objAt_congr (objs_reqEnd s code) p i

theorem objAt_nfcShow (s : State) (p i : Nat) : s.nfcShow.objAt p i = s.objAt p i := objAt_congr (reported_nfcShow s).objs p i

/-- What `p` holds of is found no more once it is filtered out. -/
theorem find?_filter_not {α : Type} (p : α → Bool) (l : List α) : (l.filter fun x => !p x).find? p = none := by
  rw [List.find?_filter]
  simp

/-- Content written stands where it was written; images alone stand beside older ones. -/
theorem objAt_putContent (s : State) {p : Nat} (i : Nat) (d : List Byte) (hp : p ≠ 5) :
    ∃ o, (s.putContent p i d).objAt p i = some o ∧ o.data = d := by
  have hkeep : ∀ o : NObj, (o.part == p && (o.index == i && p != 5)) = (o.part == p && o.index == i) := fun o => by
    rw [bne_iff_ne.mpr hp, Bool.and_true]
  unfold State.putContent
  dsimp only
  rw [objAt_nfcShow]
  unfold State.objAt
  simp only [hkeep]
  rw [List.find?_append, find?_filter_not, Option.none_or, List.find?_cons_of_pos (by simp)]
  exact ⟨_, rfl, rfl⟩

theorem objAt_dropContent (s : State) (p i : Nat) : (s.dropContent fun o => o.part == p && o.index == i).objAt p i = none := by
  unfold State.dropContent
  dsimp only
  rw [objAt_nfcShow]
  exact find?_filter_not _ _

theorem putContent_wf {s : State} (w : s.regsWf) (p i : Nat) (d : List Byte) : (s.putContent p i d).regsWf :=
  (managed_putContent s p i d).wf w

theorem dropContent_wf {s : State} (w : s.regsWf) (p : NObj → Bool) : (s.dropContent p).regsWf := (managed_dropContent s p).wf w

/-! ### A request is served (R407, R408) -/

/-- A request has ended with `code`, and the medium holds what it held. -/
abbrev RequestFailed (code : Nat) (s t : State) : Prop := RequestEnded code t ∧ t.nfc.objs = s.nfc.objs

theorem reqEnd_failed {s t : State} (w : t.regsWf) (h : t.nfc = s.nfc) {code : Nat} (hc : code < 16) :
    RequestFailed code s (t.reqEnd code) := ⟨reqEnd_ended w hc, (objs_reqEnd t code).trans (congrArg NfcSt.objs h)⟩

theorem Served.nfc {s t : State} (h : Served s t) : t.nfc = s.nfc := by
  rw [h.parts]

/-- The object that a write request takes from memory. -/
abbrev reqRead (s : State) : Reply := s.mRead 21 s.reqAddr (s.f Fld.NFC_REQ_LEN_BYTES)

theorem nfc_reqRead (s : State) : (reqRead s).st.nfc = s.nfc := (Served.memReq s _ _ _ _ _ _).nfc

theorem reqRead_wf {s : State} (w : s.regsWf) : (reqRead s).st.regsWf := (BlocksKept.mRead s _ _ _).wf w

section Write

variable {s : State} {q : NReq}

theorem reqWrite_unready (h : s.nfcReady = false) : s.reqWrite q = s.reqEnd 9 := if_pos (by rw [h]; rfl)

variable (h : s.nfcReady = true)
include h

theorem reqWrite_badLength (hn : s.f Fld.NFC_REQ_LEN_BYTES < 224 ∨ partQuota q.part < s.f Fld.NFC_REQ_LEN_BYTES) :
    s.reqWrite q = s.reqEnd 4 := (if_neg (by rw [h]; decide)).trans (if_pos hn)

variable (hlo : 224 ≤ s.f Fld.NFC_REQ_LEN_BYTES) (hhi : s.f Fld.NFC_REQ_LEN_BYTES ≤ partQuota q.part)
include hlo hhi

/-- With the length right, what was read decides. -/
theorem reqWrite_read : s.reqWrite q =
    if (reqRead s).rsp ≠ .okay then (reqRead s).st.reqEnd 8
    else if objHeadOk q.part q.index (reqRead s).data = false then (reqRead s).st.reqEnd 4
    else if objHashOk (reqRead s).data = false then (reqRead s).st.reqEnd 6
    else ((reqRead s).st.putContent q.part q.index (reqRead s).data).reqEnd 1 :=
  (if_neg (by rw [h]; decide)).trans (if_neg (by omega))

theorem reqWrite_unread (hr : (reqRead s).rsp ≠ .okay) : s.reqWrite q = (reqRead s).st.reqEnd 8 :=
  (reqWrite_read h hlo hhi).trans (if_pos hr)

variable (hr : (reqRead s).rsp = .okay)
include hr

theorem reqWrite_badHead (hh : objHeadOk q.part q.index (reqRead s).data = false) : s.reqWrite q = (reqRead s).st.reqEnd 4 := by
  rw [reqWrite_read h hlo hhi, if_neg (not_not.mpr hr), if_pos hh]

variable (hh : objHeadOk q.part q.index (reqRead s).data = true)
include hh

theorem reqWrite_badHash (hs : objHashOk (reqRead s).data = false) : s.reqWrite q = (reqRead s).st.reqEnd 6 := by
  rw [reqWrite_read h hlo hhi, if_neg (not_not.mpr hr), if_neg (ne_false_of_eq_true hh), if_pos hs]

theorem reqWrite_stored (hs : objHashOk (reqRead s).data = true) :
    s.reqWrite q = ((reqRead s).st.putContent q.part q.index (reqRead s).data).reqEnd 1 := by
  rw [reqWrite_read h hlo hhi, if_neg (not_not.mpr hr), if_neg (ne_false_of_eq_true hh), if_neg (ne_false_of_eq_true hs)]

end Write

section Erase

variable {s : State} {q : NReq}

theorem reqErase_unready (h : s.nfcReady = false) : s.reqErase q = s.reqEnd 9 := if_pos (by rw [h]; rfl)

theorem reqErase_absent (h : s.nfcReady = true) (ho : s.objAt q.part q.index = none) : s.reqErase q = s.reqEnd 5 :=
  (if_neg (by rw [h]; decide)).trans (if_pos (by rw [ho]; rfl))

theorem reqErase_present (h : s.nfcReady = true) (ho : s.objAt q.part q.index ≠ none) :
    s.reqErase q = (s.dropContent fun o => o.part == q.part && o.index == q.index).reqEnd 1 :=
  (if_neg (by rw [h]; decide)).trans (if_neg (by rwa [Option.isNone_iff_eq_none]))

end Erase

/-- What a load that fails leaves: the place of the object in DRAM is undefined. -/
def loadSpoiled (s : State) (o : NObj) : State :=
  if ((inDram s.reqAddr && inDram (s.reqAddr + o.data.length - 1)) && decide (0 < o.data.length)) = true then
    s.scramble s.reqAddr o.data.length
  else s

theorem loadSpoiled_wf {s : State} (w : s.regsWf) (o : NObj) : (loadSpoiled s o).regsWf := by
  unfold loadSpoiled
  split
  · exact regsWf_congr (regs_scramble s _ _) w
  · exact w

/-- An object whose quarters all read, and that was read. -/
theorem not_unread {un : Bool} {o : NObj} (hu : un = false) (hl : o.lost = []) : (un || !o.whole) ≠ true := by
  rw [hu, NObj.whole, hl]
  decide

section Load

variable {s : State} {q : NReq} {un : Bool}

theorem reqLoad_blind (h : s.nfcReads = false) : s.reqLoad q un = s.reqEnd (if s.f Fld.NFC_STAT_STATE = 6 then 8 else 5) :=
  if_pos (by rw [h]; rfl)

variable (h : s.nfcReads = true)
include h

theorem reqLoad_absent (ho : s.objAt q.part q.index = none) : s.reqLoad q un = s.reqEnd 5 := by
  unfold State.reqLoad
  rw [if_neg (by rw [h]; decide), ho]

variable {o : NObj} (ho : s.objAt q.part q.index = some o)
include ho

/-- With the object found, its checks decide. -/
theorem reqLoad_found : s.reqLoad q un =
    if (un || !o.whole) = true then (loadSpoiled s o).reqEnd 8
    else if 2 ≤ leAt o.data 6 1 ∧ objHashOk o.data = false then (loadSpoiled s o).reqEnd 6
    else if 2 ≤ leAt o.data 6 1 ∧ s.objSigOk o.data = false then (loadSpoiled s o).reqEnd 7
    else if q.part = 3 then (s.reqCopy o.data).setConfig (objPayload o.data)
    else s.reqCopy o.data := by
  unfold State.reqLoad
  rw [if_neg (by rw [h]; decide), ho]
  rfl

theorem reqLoad_lost (hl : un = true ∨ o.lost ≠ []) : s.reqLoad q un = (loadSpoiled s o).reqEnd 8 := by
  have hlost : (un || !o.whole) = true := by
    rw [Bool.or_eq_true, NObj.whole, Bool.not_eq_true', Bool.eq_false_iff, ne_eq, List.isEmpty_iff]
    exact hl
  rw [reqLoad_found h ho, if_pos hlost]

variable (hu : un = false) (hl : o.lost = [])
include hu hl

theorem reqLoad_badHash (hk : 2 ≤ leAt o.data 6 1) (hs : objHashOk o.data = false) : s.reqLoad q un = (loadSpoiled s o).reqEnd 6 := by
  rw [reqLoad_found h ho, if_neg (not_unread hu hl), if_pos ⟨hk, hs⟩]

theorem reqLoad_badSig (hk : 2 ≤ leAt o.data 6 1) (hs : objHashOk o.data = true) (hg : s.objSigOk o.data = false) :
    s.reqLoad q un = (loadSpoiled s o).reqEnd 7 := by
  rw [reqLoad_found h ho, if_neg (not_unread hu hl), if_neg (fun hb => ne_false_of_eq_true hs hb.2), if_pos ⟨hk, hg⟩]

theorem reqLoad_copied (hs : leAt o.data 6 1 < 2 ∨ (objHashOk o.data = true ∧ s.objSigOk o.data = true)) (h3 : q.part ≠ 3) :
    s.reqLoad q un = s.reqCopy o.data := by
  have hsum : ¬(2 ≤ leAt o.data 6 1 ∧ objHashOk o.data = false) := fun hb =>
    hs.elim (fun hk => Nat.not_le.mpr hk hb.1) (fun hg => ne_false_of_eq_true hg.1 hb.2)
  have hsig : ¬(2 ≤ leAt o.data 6 1 ∧ s.objSigOk o.data = false) := fun hb =>
    hs.elim (fun hk => Nat.not_le.mpr hk hb.1) (fun hg => ne_false_of_eq_true hg.2 hb.2)
  rw [reqLoad_found h ho, if_neg (not_unread hu hl), if_neg hsum, if_neg hsig, if_neg h3]

end Load

theorem reqImage_none {s : State} (un : Bool) (h : s.bestImage = none) : s.reqImage un = s.reqEnd 5 := by
  unfold State.reqImage
  rw [h]

theorem reqImage_some {s : State} (un : Bool) {d : List Byte} (h : s.bestImage = some d) :
    s.reqImage un = if un then s.reqEnd 8 else s.reqCopy d := by
  unfold State.reqImage
  rw [h]

/-- Requests wait during the mount. -/
theorem exec_reqDone_waits {s : State} (un : Bool) (h : s.nfc.req = none ∨ s.f Fld.NFC_STAT_STATE ≤ 1) :
    exec (.reqDone un) s = live s s := by
  show execReqDone un s = _
  unfold execReqDone
  split
  · rfl
  · rename_i q hq
    rw [if_pos (h.resolve_left (by rw [hq]; exact Option.some_ne_none q))]

/-- What the operation of a request does. -/
def reqServe (s : State) (q : NReq) (un : Bool) : State :=
  if q.op = 1 then s.reqWrite q else if q.op = 2 then s.reqLoad q un else if q.op = 3 then s.reqErase q else s.reqImage un

theorem exec_reqDone {s : State} {q : NReq} (un : Bool) (hq : s.nfc.req = some q) (h : 2 ≤ s.f Fld.NFC_STAT_STATE) :
    exec (.reqDone un) s = live s (reqServe s q un) := by
  show execReqDone un s = _
  unfold execReqDone
  rw [hq]
  dsimp only
  rw [if_neg (by omega)]
  rfl

section ReqServe

variable {s : State} {q : NReq} {un : Bool}

theorem reqServe_write (h : q.op = 1) : reqServe s q un = s.reqWrite q := if_pos h

theorem reqServe_load (h : q.op = 2) : reqServe s q un = s.reqLoad q un := by
  rw [reqServe, if_neg (by omega), if_pos h]

theorem reqServe_erase (h : q.op = 3) : reqServe s q un = s.reqErase q := by
  rw [reqServe, if_neg (by omega), if_neg (by omega), if_pos h]

theorem reqServe_image (h : q.op = 4) : reqServe s q un = s.reqImage un := by
  rw [reqServe, if_neg (by omega), if_neg (by omega), if_neg (by omega)]

end ReqServe

end Sys2Proof.Laws

namespace Sys2Proof.Proofs

open Sys2Proof.Machine Sys2Proof.Laws

/-! ### Requests -/

section Requests

variable {s : State} (hp : s.pwr.on = true) (w : s.regsWf) {m op : Nat} {v : Word} {c : Instr}
  (hc : exec c s = live s (doNfcReq s m (withOp op v)))
include hp w hc

theorem runs_request_busy (h : ReqOp op) (hr : s.nfc.req ≠ none) : Runs c s fun t => t.f Fld.NFC_REQ_RES_CODE = 2 ∧
    t.f Fld.NFC_REQ_RES_BUSY = s.f Fld.NFC_REQ_RES_BUSY ∧ OnlyRegs [Adr.NFC_REQ_CTRL, Adr.NFC_REQ_RES] s t := by
  have wn := reqNoted_wf w op v
  refine Runs.live hc hp ?_
  rw [doNfcReq_busy h hr, f_ok, f_ok]
  exact ⟨f_setF_at wn 2 (by decide), (f_setF_beside wn 2 (by decide) (by decide)).trans (f_reqNoted w op v (by decide)),
    ((reqNoted_only w op v).setF wn 2 (by decide)).ok⟩

variable (hr : s.nfc.req = none)
include hr

/-- A request that is turned away ends at once. -/
theorem runs_request_refused {code : Nat} (hcode : code < 16) (he : doNfcReq s m (withOp op v) = ((reqNoted s op v).reqEnd code).ok) :
    Runs c s fun t => t.f Fld.NFC_REQ_RES_CODE = code ∧ t.f Fld.NFC_REQ_RES_BUSY = 0 ∧ t.f Fld.NFC_REQ_RES_DONE = 1 ∧
      t.raised Ev.NFC_REQ_DONE ∧ OnlyRaised 147 [Adr.NFC_REQ_CTRL, Adr.NFC_REQ_RES] s t := by
  have wn := reqNoted_wf w op v
  obtain ⟨hend, hbusy, hdone, htold, -⟩ := reqEnd_ended wn hcode
  refine Runs.live hc hp ?_
  rw [he, f_ok, f_ok, f_ok]
  exact ⟨hend, hbusy, hdone, raised_ok htold,
    (reqEnd_only wn (reqNoted_only w op v) (by rw [nfc_reqNoted, hr]) (by decide) code).ok⟩

theorem runs_request_taken (h : ReqOp op) (hs : ReqServed s m op (bitsOf v.toNat 26 24)) (ho : ¬ReqOwnSlot s op (bitsOf v.toNat 26 24)) :
    Runs c s fun t => t.f Fld.NFC_REQ_RES_CODE = 0 ∧ t.f Fld.NFC_REQ_RES_BUSY = 1 ∧
      t.nfc = nfcTaken s op v ∧
      RegsKept [Adr.NFC_REQ_CTRL, Adr.NFC_REQ_RES] s t ∧ t = { s with regs := t.regs, nfc := t.nfc, answer := ⟨.okay, []⟩ } := by
  have wn := reqNoted_wf w op v
  have wb := setF_wf wn Fld.NFC_REQ_RES_BUSY 1
  have honly : OnlyRegs [Adr.NFC_REQ_CTRL, Adr.NFC_REQ_RES] s (reqShown s op v) :=
    ((reqNoted_only w op v).setF wn 1 (by decide)).setF wb 0 (by decide)
  have hcode : (reqShown s op v).f Fld.NFC_REQ_RES_CODE = 0 := f_setF_at wb 0 (by decide)
  have hbusy : (reqShown s op v).f Fld.NFC_REQ_RES_BUSY = 1 :=
    (f_setF_beside wb 0 (by decide) (by decide)).trans (f_setF_at wn 1 (by decide))
  obtain ⟨hf, hspec⟩ := ok_withNfc honly (nfcTaken s op v)
  refine Runs.live hc hp ?_
  rw [doNfcReq_taken h hr hs ho]
  exact ⟨(hf _).trans hcode, (hf _).trans hbusy, hspec⟩

end Requests

/-! ### Requests served -/

section Served

variable {s : State} (hp : s.pwr.on = true) {q : NReq} (hq : s.nfc.req = some q) (hst : 2 ≤ s.f Fld.NFC_STAT_STATE) {un : Bool}
include hp hq hst

theorem runs_reqDone {t : State} {P : State → Prop} (he : reqServe s q un = t) (h : P t) : Runs (.reqDone un) s P :=
  Runs.live (exec_reqDone un hq hst) hp (he ▸ h)

variable (w : s.regsWf)
include w

theorem runs_reqDone_failed {code : Nat} (hc : code < 16) (he : reqServe s q un = s.reqEnd code) :
    Runs (.reqDone un) s (RequestFailed code s) := runs_reqDone hp hq hst he (reqEnd_failed w rfl hc)

/-- A write that fails on what it has read. -/
theorem runs_reqDone_rejected {code : Nat} (hc : code < 16) (he : reqServe s q un = (reqRead s).st.reqEnd code) :
    Runs (.reqDone un) s (RequestFailed code s) := runs_reqDone hp hq hst he (reqEnd_failed (reqRead_wf w) (nfc_reqRead s) hc)

theorem runs_reqDone_spoiled {code : Nat} (hc : code < 16) {o : NObj} (he : reqServe s q un = (loadSpoiled s o).reqEnd code) :
    Runs (.reqDone un) s (RequestEnded code) := runs_reqDone hp hq hst he (reqEnd_ended (loadSpoiled_wf w o) hc)

theorem runs_reqDone_stored (hpart : q.part ≠ 5)
    (he : reqServe s q un = ((reqRead s).st.putContent q.part q.index (reqRead s).data).reqEnd 1) :
    Runs (.reqDone un) s fun t => RequestEnded 1 t ∧ ∃ o, t.objAt q.part q.index = some o ∧ o.data = (reqRead s).data := by
  refine runs_reqDone hp hq hst he ⟨reqEnd_ended (putContent_wf (reqRead_wf w) _ _ _) (by decide), ?_⟩
  rw [objAt_reqEnd]
  exact objAt_putContent _ _ _ hpart

theorem runs_reqDone_erased (he : reqServe s q un = (s.dropContent fun o => o.part == q.part && o.index == q.index).reqEnd 1) :
    Runs (.reqDone un) s fun t => RequestEnded 1 t ∧ t.objAt q.part q.index = none :=
  runs_reqDone hp hq hst he ⟨reqEnd_ended (dropContent_wf w _) (by decide), (objAt_reqEnd _ _ _ _).trans (objAt_dropContent s _ _)⟩

end Served

/-- Settles O57: the word of a command names its operation and keeps the other fields; each operation's checks decide in their order, and
neither reading memory nor spoiling DRAM touches the medium. Code 3 for the master's table is R443; a load in a state that does not read,
ending with 8 in `FAILED` and 5 else, is log entry 107. -/
theorem flashTakesAndServes : Obligations.FlashTakesAndServes := by
  refine ⟨fun s m v hp w c op hmem => ?_,
    fun s hp w => ⟨fun h un => runs_of_live_same (exec_reqDone_waits un h), fun q hq hst un => ?_⟩⟩
  · obtain ⟨hexec, hop⟩ := exec_request s hmem
    refine ⟨runs_request_busy hp w hexec hop, fun hr hno => ?_, fun hr => runs_request_taken hp w hexec hr hop⟩
    by_cases hs : ReqServed s m op (bitsOf v.toNat 26 24)
    · rw [if_pos hs]
      exact runs_request_refused hp w hexec hr (by decide) (doNfcReq_ownSlot hop hr hs (hno.resolve_left (not_not.mpr hs)))
    · rw [if_neg hs]
      exact runs_request_refused hp w hexec hr (by decide) (doNfcReq_unserved hop hr hs)
  · have hfail {code : Nat} (hc : code < 16) := runs_reqDone_failed hp hq hst (un := un) w hc
    have hreject {code : Nat} (hc : code < 16) := runs_reqDone_rejected hp hq hst (un := un) w hc
    have hspoil {code : Nat} (hc : code < 16) {o : NObj} := runs_reqDone_spoiled hp hq hst (un := un) w hc (o := o)
    refine ⟨fun h1 hn => hfail (by decide) ((reqServe_write h1).trans (reqWrite_unready hn)),
      fun h1 hy hn => hfail (by decide) ((reqServe_write h1).trans (reqWrite_badLength hy hn)),
      fun h1 hy hlo hhi => ⟨fun hr => hreject (by decide) ((reqServe_write h1).trans (reqWrite_unread hy hlo hhi hr)),
        fun hr hh => hreject (by decide) ((reqServe_write h1).trans (reqWrite_badHead hy hlo hhi hr hh)),
        fun hr hh hs => hreject (by decide) ((reqServe_write h1).trans (reqWrite_badHash hy hlo hhi hr hh hs)),
        fun hr hh hs h5 => runs_reqDone_stored hp hq hst w h5 ((reqServe_write h1).trans (reqWrite_stored hy hlo hhi hr hh hs))⟩,
      fun h3 hn => hfail (by decide) ((reqServe_erase h3).trans (reqErase_unready hn)),
      fun h3 hy ho => hfail (by decide) ((reqServe_erase h3).trans (reqErase_absent hy ho)),
      fun h3 hy ho => runs_reqDone_erased hp hq hst w ((reqServe_erase h3).trans (reqErase_present hy ho)),
      fun h2 hn => hfail (by split <;> decide) ((reqServe_load h2).trans (reqLoad_blind hn)),
      fun h2 hy ho => hfail (by decide) ((reqServe_load h2).trans (reqLoad_absent hy ho)),
      fun h2 hy o ho => ⟨fun hl => hspoil (by decide) ((reqServe_load h2).trans (reqLoad_lost hy ho hl)),
        fun hu hl hk hs => hspoil (by decide) ((reqServe_load h2).trans (reqLoad_badHash hy ho hu hl hk hs)),
        fun hu hl hk hs hg => hspoil (by decide) ((reqServe_load h2).trans (reqLoad_badSig hy ho hu hl hk hs hg)),
        fun hu hl hs h3 => runs_reqDone hp hq hst ((reqServe_load h2).trans (reqLoad_copied hy ho hu hl hs h3)) rfl⟩,
      fun h4 hb => ?_, fun h4 d hb => runs_reqDone hp hq hst ((reqServe_image h4).trans (reqImage_some un hb)) rfl⟩
    exact runs_reqDone hp hq hst ((reqServe_image h4).trans (reqImage_none un hb)) (reqEnd_ended w (by decide))

end Sys2Proof.Proofs
end

section
/-! ## Flash: the care of the medium

Reads, programs and erases judged, blocks moved, the patrol, the boot slot and the format (R396, R398, R401, R402, R410, R414; log
entry 107). The lemmas about the model's operations stand first, the statement's proof after them. -/

namespace Sys2Proof.Laws

open Sys2Proof.Machine

/-! ### Operations on a block (R396, R398) -/

theorem regs_schedule (s : State) (b : Nat) (bits : Bool) : (s.schedule b bits).regs = s.regs := by
  unfold State.schedule
  dsimp only
  split
  · rfl
  · rfl

/-- A read that could not be corrected is counted and told, after the medium's part of it. -/
theorem readBlk_uncorr (s : State) (b : Nat) : ∃ u : State, u.regs = s.regs ∧
    s.readBlk b none = (u.stick Fld.NFC_CNT_UNCORR Fld.NFC_FLAGS_UNCORR_SAT 1).raise Ev.NFC_UNCORR := by
  refine ⟨_, ?_, rfl⟩
  rw [regs_schedule]
  split
  · exact regs_schedule _ _ _
  · rfl

theorem f_loseQuarter (s : State) (b q : Nat) (r : RF) : (s.loseQuarter b q).f r = s.f r := f_congr rfl r

theorem readBlk_uncorr_told {s : State} (w : s.regsWf) (b q : Nat) : let t := (s.readBlk b none).loseQuarter b q
    t.f Fld.NFC_CNT_UNCORR = min (s.f Fld.NFC_CNT_UNCORR + 1) 65535 ∧ t.raised Ev.NFC_UNCORR := by
  obtain ⟨u, hu, he⟩ := readBlk_uncorr s b
  have wu : u.regsWf := regsWf_congr hu w
  have ws := stick_wf wu Fld.NFC_CNT_UNCORR Fld.NFC_FLAGS_UNCORR_SAT 1
  have hcount : (s.readBlk b none).f Fld.NFC_CNT_UNCORR = min (s.f Fld.NFC_CNT_UNCORR + 1) 65535 := by
    rw [he, f_raise ws rfl (by decide), f_stick wu 1 (by decide) (by decide) (by decide), f_congr hu]
    rfl
  have htold : (s.readBlk b none).raised Ev.NFC_UNCORR := by
    rw [he]
    exact raise_sets ws (by decide) (by decide)
  exact ⟨(f_loseQuarter _ b q _).trans hcount, raised_congr (s := s.readBlk b none) (t := (s.readBlk b none).loseQuarter b q) rfl htold⟩

section EraseBlk

variable {s : State} {b : Nat} (hu : (s.nblk b).use = 2) (hb : (s.nblk b).bad = 0)
include hu hb

theorem eraseBlk_good : s.eraseBlk b true =
    (s.setBlk b { s.nblk b with ec := (s.nblk b).ec + 1, use := 0, reads := 0, erased := s.day, day := 0, move := 0 }).nfcShow :=
  (if_neg (by omega)).trans (if_pos rfl)

theorem eraseBlk_failed : s.eraseBlk b false = s.growBad b := (if_neg (by omega)).trans (if_neg Bool.false_ne_true)

end EraseBlk

theorem objs_growBad (s : State) (b : Nat) : (s.growBad b).nfc.objs = s.nfc.objs := by
  unfold State.growBad
  rw [(reported_nfcShow _).objs, raise_nfc]
  rfl

/-- What the end of an operation on block `b` does, its outcome `res`. -/
def nandJudged (s : State) (op b q : Nat) (res : Option Nat) : State :=
  if op = 0 then (if res.isNone then (s.readBlk b res).loseQuarter b (q % (4 * s.nfc.pages)) else s.readBlk b res)
  else if op = 1 then (if res.isNone then s.progFail b else s)
  else s.eraseBlk b res.isSome

theorem nandJudged_read (s : State) (b q n : Nat) : nandJudged s 0 b q (some n) = s.readBlk b (some n) := rfl

theorem nandJudged_lost (s : State) (b q : Nat) :
    nandJudged s 0 b q none = (s.readBlk b none).loseQuarter b (q % (4 * s.nfc.pages)) := rfl

theorem nandJudged_program (s : State) (b q : Nat) (res : Option Nat) :
    nandJudged s 1 b q res = if res = none then s.progFail b else s := by
  cases res with
  | none => rfl
  | some n => rfl

theorem nandJudged_erase (s : State) (b q : Nat) (res : Option Nat) : nandJudged s 2 b q res = s.eraseBlk b res.isSome := rfl

/-- The block is one that operations are judged on: good, and no header block. -/
structure Judged (s : State) (b : Nat) : Prop where
  lt : b < s.nfc.nBlocks
  good : (s.nblk b).bad = 0
  noHead : s.headBlk b = false

/-! ### The boot slot (R410) -/

section BootSel

variable {s : State} {v : Word}

theorem doBootSel_noKey (h : bitsOf v.toNat 31 16 ≠ 0xB007) : doBootSel s v = s.ok := congrArg State.ok (if_pos h)

variable (hk : bitsOf v.toNat 31 16 = 0xB007)
include hk

theorem doBootSel_refused (h : s.nfcReady = false ∨ s.objAt (1 + v.toNat % 2) 0 = none) :
    doBootSel s v = (resultTold s (if s.nfcReady = true then 5 else 9)).ok := by
  unfold doBootSel
  dsimp only
  rw [if_neg (not_not.mpr hk), resultTold]
  by_cases hr : s.nfcReady = true
  · rw [if_neg (by rw [hr]; decide), if_pos (Option.isNone_iff_eq_none.mpr (h.resolve_left (ne_false_of_eq_true hr))), if_pos hr]
  · rw [if_pos (by rw [eq_false_of_ne_true hr]; rfl), if_neg hr]

theorem doBootSel_selected (hr : s.nfcReady = true) (ho : s.objAt (1 + v.toNat % 2) 0 ≠ none) : doBootSel s v = State.ok
    { s.setF Fld.NFC_STAT_BOOT_SLOT (v.toNat % 2) with nfc := { s.nfc with head := some { day := s.day, slot := v.toNat % 2 } } } := by
  unfold doBootSel
  dsimp only
  rw [if_neg (not_not.mpr hk), hr, if_neg (by decide), if_neg (by rwa [Option.isNone_iff_eq_none])]
  rfl

end BootSel

/-! ### The format (R414) -/

/-- A format is taken: by its key, outside `FIELD`, with no vault filling or sealed, and on a medium that is ready or unformatted. -/
abbrev FormatAllowed (s : State) (v : Word) : Prop :=
  v.toNat % 65536 = 0xF0A7 ∧ s.lcs.state ≠ 3 ∧ s.lgr.vState ≠ 2 ∧ s.lgr.vState ≠ 3 ∧ s.fb Fld.NFC_CFG_EN = true ∧
    (s.f Fld.NFC_STAT_STATE = 2 ∨ s.f Fld.NFC_STAT_STATE = 4)

theorem not_formatAllowed_iff {s : State} {v : Word} : ¬FormatAllowed s v ↔
    v.toNat % 65536 ≠ 0xF0A7 ∨ s.lcs.state = 3 ∨ s.lgr.vState = 2 ∨ s.lgr.vState = 3 ∨ s.fb Fld.NFC_CFG_EN = false ∨
      (s.f Fld.NFC_STAT_STATE ≠ 2 ∧ s.f Fld.NFC_STAT_STATE ≠ 4) := by
  simp only [FormatAllowed, not_and_or, not_or, ne_eq, not_not, Bool.not_eq_true]

theorem doFormat_refused {s : State} {v : Word} (bad : List Nat) (h : ¬FormatAllowed s v) : doFormat s v bad = s.ok :=
  congrArg State.ok (if_pos (not_formatAllowed_iff.mp h))

theorem doFormat_allowed {s : State} {v : Word} (bad : List Nat) (h : FormatAllowed s v) : doFormat s v bad = (s.format bad).ok :=
  congrArg State.ok (if_neg fun hn => not_formatAllowed_iff.mpr hn h)

theorem OnlyQueue.vState {x y : LgrSt} (h : OnlyQueue x y) : y.vState = x.vState := (congrArg LgrSt.vState h :)

theorem OnlyQueue.vault {x y : LgrSt} (h : OnlyQueue x y) : y.vault = x.vault := (congrArg LgrSt.vault h :)

/-- The medium, the till and the vault as a format leaves them. -/
structure Blank (s t : State) : Prop where
  objs : t.nfc.objs = []
  log : t.nfc.log = []
  head : t.nfc.head = some { day := s.day, slot := 0 }
  till : t.lgr.till = []
  vState : t.lgr.vState = 0
  vault : t.lgr.vault = []
  mem : MemKept s t

section Blank

variable {s t u : State} (h : Blank s t)
include h

theorem Blank.setF (r : RF) (v : Nat) : Blank s (t.setF r v) :=
  ⟨by rw [setF_nfc, h.objs], by rw [setF_nfc, h.log], by rw [setF_nfc, h.head], by rw [setF_lgr, h.till], by rw [setF_lgr, h.vState],
    by rw [setF_lgr, h.vault], fun a => (rd8_setF t r v a).trans (h.mem a)⟩

/-- What the manager reports leaves them. -/
theorem Blank.nfcShow : Blank s t.nfcShow where
  objs := (reported_nfcShow t).objs.trans h.objs
  log := (reported_nfcShow t).log.trans h.log
  head := (reported_nfcShow t).head.trans h.head
  till := (OnlyQueue.till (ledgerKept_nfcShow t)).trans h.till
  vState := (OnlyQueue.vState (ledgerKept_nfcShow t)).trans h.vState
  vault := (OnlyQueue.vault (ledgerKept_nfcShow t)).trans h.vault
  mem := fun a => ((managed_nfcShow t).mem a).trans (h.mem a)

end Blank

theorem format_eq (s : State) (bad : List Nat) : ∃ u : State, u.regs = s.regs ∧ Blank s u ∧
    s.format bad = ((u.setF Fld.NFC_STAT_BOOT_SLOT 0).setF Fld.NFC_STAT_STATE 2).nfcShow := by
  unfold State.format
  dsimp only
  refine ⟨_, ?_, ?_, rfl⟩
  · rfl
  · exact ⟨rfl, rfl, rfl, rfl, rfl, rfl, fun _ => rfl⟩

theorem format_blank (s : State) (bad : List Nat) : Blank s (s.format bad) := by
  obtain ⟨u, -, hblank, he⟩ := format_eq s bad
  rw [he]
  exact ((hblank.setF _ _).setF _ _).nfcShow

theorem bootSlot_format {s : State} (w : s.regsWf) (bad : List Nat) : (s.format bad).f Fld.NFC_STAT_BOOT_SLOT = 0 := by
  obtain ⟨u, hu, -, he⟩ := format_eq s bad
  have wu : u.regsWf := regsWf_congr hu w
  have wb := setF_wf wu Fld.NFC_STAT_BOOT_SLOT 0
  rw [he, (reported_nfcShow _).bootSlot (setF_wf wb _ _), leavesBootSlot_state _ _ wb]
  exact f_setF_at wu 0 (by decide)

end Sys2Proof.Laws

namespace Sys2Proof.Proofs

open Sys2Proof.Machine Sys2Proof.Laws

section Medium

variable {s : State} (hp : s.pwr.on = true)
include hp

/-! ### Operations on a block -/

theorem runs_nandOperationDone {b : Nat} (h : Judged s b) {op q : Nat} {res : Option Nat} {P : State → Prop}
    (hready : (if op = 0 then s.nfcReads else s.nfcReady) = true) (ht : P (nandJudged s op b q res)) :
    Runs (.nandOperationDone op b q res) s P := by
  obtain ⟨hlt, hgood, hhead⟩ := h
  exact Runs.liveIf rfl hp (by rw [decide_eq_true hlt, hgood, hhead, hready]; rfl) ht

theorem runs_relocationDone {b : Nat} (hr : s.nfcReady = true) (hu : (s.nblk b).use = 1) (hb : (s.nblk b).bad = 0)
    (hm : (s.nblk b).move ≠ 0) : Runs (.relocationDone b) s fun t => t = s.relocate b :=
  Runs.liveIf rfl hp (by rw [hr, hu, hb, bne_iff_ne.mpr hm]; rfl) rfl

theorem runs_patrol {b : Nat} (res : Option Nat) (hr : s.nfcReads = true) (hu : (s.nblk b).use = 1) (hb : (s.nblk b).bad = 0) :
    Runs (.patrol b res) s fun t =>
      t = if max 1 (s.f Fld.NFC_SCRUB_AGE_DAYS) ≤ (s.day + 65536 - (s.nblk b).day) % 65536 then (s.readBlk b res).schedule b false
        else s.readBlk b res :=
  Runs.liveIf rfl hp (by rw [hr, hu, hb]; rfl) (by simp only [decide_eq_true_eq])

/-! ### The boot slot -/

variable (w : s.regsWf) {v : Word}
include w

theorem runs_nfcBootSel_refused (hk : bitsOf v.toNat 31 16 = 0xB007) (h : s.nfcReady = false ∨ s.objAt (1 + v.toNat % 2) 0 = none) :
    Runs (.nfcBootSel v) s fun t => t.f Fld.NFC_REQ_RES_CODE = (if s.nfcReady = true then 5 else 9) ∧
      t.f Fld.NFC_REQ_RES_DONE = 1 ∧ t.raised Ev.NFC_REQ_DONE ∧ OnlyRaised 147 [Adr.NFC_REQ_RES] s t := by
  refine Runs.live rfl hp ?_
  rw [doBootSel_refused hk h, f_ok, f_ok]
  exact ⟨code_resultTold w (by split <;> decide), done_resultTold w _, raised_ok (raised_resultTold w _),
    (onlyRaised_resultTold w (OnlyRegs.refl _ s) (List.mem_singleton_self _) _).ok⟩

theorem runs_nfcBootSel_selected (hk : bitsOf v.toNat 31 16 = 0xB007) (hr : s.nfcReady = true)
    (ho : s.objAt (1 + v.toNat % 2) 0 ≠ none) : Runs (.nfcBootSel v) s fun t =>
      t.f Fld.NFC_STAT_BOOT_SLOT = v.toNat % 2 ∧ t.nfc = { s.nfc with head := some { day := s.day, slot := v.toNat % 2 } } ∧
      RegsKept [Adr.NFC_STAT] s t ∧ t = { s with regs := t.regs, nfc := t.nfc, answer := ⟨.okay, []⟩ } := by
  have honly : OnlyRegs [Adr.NFC_STAT] s (s.setF Fld.NFC_STAT_BOOT_SLOT (v.toNat % 2)) := (OnlyRegs.refl _ s).setF w _ (by decide)
  have hslot : (s.setF Fld.NFC_STAT_BOOT_SLOT (v.toNat % 2)).f Fld.NFC_STAT_BOOT_SLOT = v.toNat % 2 :=
    (f_setF_at w _ (by decide)).trans (Nat.mod_mod _ 2)
  obtain ⟨hf, hspec⟩ := ok_withNfc honly { s.nfc with head := some { day := s.day, slot := v.toNat % 2 } }
  refine Runs.live rfl hp ?_
  rw [doBootSel_selected hk hr ho]
  exact ⟨(hf _).trans hslot, hspec⟩

/-! ### The format -/

theorem runs_nfcFormat_allowed (bad : List Nat) (h : FormatAllowed s v) : Runs (.nfcFormat v bad) s fun t =>
    t.nfc.objs = [] ∧ t.nfc.log = [] ∧ t.nfc.head = some { day := s.day, slot := 0 } ∧ t.lgr.till = [] ∧ t.lgr.vState = 0 ∧
      t.lgr.vault = [] ∧ t.f Fld.NFC_STAT_BOOT_SLOT = 0 ∧ MemKept s t := by
  obtain ⟨hobjs, hlog, hhead, htill, hvState, hvault, hmem⟩ := format_blank s bad
  refine Runs.live rfl hp ?_
  rw [doFormat_allowed bad h, f_ok, ok_nfc, ok_lgr]
  exact ⟨hobjs, hlog, hhead, htill, hvState, hvault, bootSlot_format w bad, hmem⟩

end Medium

/-- Settles O58: an operation's outcome decides what becomes of its block (R396, R398), and a read that could not be corrected is counted
and told; what a format sets stays through the report of the manager's figures. Code 9 for a selection that cannot be, no event on
success, and when a format is taken are log entry 107. -/
theorem flashMediumIsKept : Obligations.FlashMediumIsKept := by
  intro s hp w
  refine ⟨fun b q res hlt hgood hhead => ?_, fun b hr hu hb hm => runs_relocationDone hp hr hu hb hm,
    fun b res hr hu hb => runs_patrol hp res hr hu hb, fun v => ⟨fun hk => Runs.live rfl hp (doBootSel_noKey hk),
      runs_nfcBootSel_refused hp w, runs_nfcBootSel_selected hp w, fun bad => ⟨fun h => ?_, fun h => ?_⟩⟩⟩
  · have hjudged : Judged s b := ⟨hlt, hgood, hhead⟩
    refine ⟨fun hr n hn => runs_nandOperationDone hp hjudged hr ?_, fun hr hn => runs_nandOperationDone hp hjudged hr ?_,
      fun hr => runs_nandOperationDone hp hjudged hr ?_, fun hr hu n hn => runs_nandOperationDone hp hjudged hr ?_,
      fun hr hu hn => runs_nandOperationDone hp hjudged hr ?_⟩
    · subst hn
      exact nandJudged_read _ _ _ _
    · subst hn
      rw [nandJudged_lost]
      exact ⟨rfl, readBlk_uncorr_told w b _⟩
    · exact nandJudged_program _ _ _ _
    · subst hn
      exact (nandJudged_erase _ _ _ _).trans (eraseBlk_good hu hgood)
    · subst hn
      rw [nandJudged_erase, Option.isSome_none, eraseBlk_failed hu hgood]
      exact ⟨rfl, objs_growBad s b⟩
  · exact Runs.live rfl hp (doFormat_refused bad h)
  · exact runs_nfcFormat_allowed hp w bad h

end Sys2Proof.Proofs
end

section
/-! ## Deeds

The passing of a bank's deed (R15, R417, R418, R426). The lemmas about the model's operations stand first, the statement's proof after them. -/

namespace Sys2Proof.Laws

open Sys2Proof.Machine

theorem canon_deed {b : Nat} (hb : b < 64) : canon (Adr.MEM_DEED b) = Adr.MEM_DEED b := canon_body (by unfold Adr.MEM_DEED; omega)

theorem canon_deed_ne {b c : Nat} (hb : b < 64) (hc : c < 64) (h : c ≠ b) : canon (Adr.MEM_DEED c) ≠ canon (Adr.MEM_DEED b) := by
  rw [canon_deed hb, canon_deed hc]
  unfold Adr.MEM_DEED
  omega

/-! ### The end of a march test (R426, R439) -/

/-- What the end of a march test, or of its bank's holding, may write. -/
abbrev marchWords : List Nat := Adr.MAR_STAT :: evWords 145

theorem marchEnd_writes {s : State} (w : s.regsWf) (m : March) (err : Nat) : Writes marchWords s (s.marchEnd m err) := by
  have hended : Writes marchWords s { s with mm := { s.mm with march := s.mm.march.erase m } } :=
    ⟨mk_wf w, fun a _ => reg_mk a, fun _ => rfl, fun _ he => ⟨(congrArg (fun x : Word => bitOf x.toNat _) (reg_mk _)).trans he.bit⟩⟩
  unfold State.marchEnd
  exact (((hended.setF _ (by decide) (by decide)).setF _ (by decide) (by decide)).setF _ (by decide) (by decide)).raise rfl (by decide)

theorem deed_not_marchWord {b : Nat} (hb : b < 64) : canon (Adr.MEM_DEED b) ∉ marchWords := by
  rw [canon_deed hb]
  simp only [evWords, hdr, List.mem_cons, List.not_mem_nil, or_false]
  unfold Adr.MEM_DEED Adr.MAR_STAT Adr.LGR_CNT_A Adr.LGR_CNT_B Adr.LGR_FLAGS
  omega

/-! ### A pass (R417, R418) -/

/-- The assembler's holding of bank `b` ends unless it is the new holder `h` (R149). -/
def holdingEnded (s : State) (b h : Nat) : State :=
  if h = 24 then s else { s with asm := { s.asm with passed := s.asm.passed.filter (· ≠ b) } }

/-- Bank `b` has its new holder `h`, before a march test on it is looked at. -/
def deedMoved (s : State) (b h : Nat) : State :=
  ((holdingEnded s b h).setF (Fld.MEM_DEED_HOLDER b) h).wrap (Fld.MEM_DEED_PASSES b) 1

/-- A destructive march test runs on bank `b`. -/
def marched (s : State) (b : Nat) : Bool := s.mm.march.contains ⟨0, b, false⟩

theorem holdingEnded_parts (s : State) (b h : Nat) : holdingEnded s b h = { s with asm := (holdingEnded s b h).asm } := by
  unfold holdingEnded
  split <;> rfl

theorem regs_holdingEnded (s : State) (b h : Nat) : (holdingEnded s b h).regs = s.regs := by
  rw [holdingEnded_parts]

theorem deedMoved_parts (s : State) (b h : Nat) :
    deedMoved s b h = { s with regs := (deedMoved s b h).regs, asm := (deedMoved s b h).asm } := by
  have hended := holdingEnded_parts s b h
  have hheld := setF_parts (holdingEnded s b h) (Fld.MEM_DEED_HOLDER b) h
  have hcounted := setF_parts ((holdingEnded s b h).setF (Fld.MEM_DEED_HOLDER b) h) (Fld.MEM_DEED_PASSES b)
    (((holdingEnded s b h).setF (Fld.MEM_DEED_HOLDER b) h).f (Fld.MEM_DEED_PASSES b) + 1)
  rw [deedMoved, State.wrap]
  generalize State.setF _ (Fld.MEM_DEED_PASSES b) _ = v at hcounted ⊢
  generalize (holdingEnded s b h).setF _ _ = u at hcounted hheld
  generalize holdingEnded s b h = t at hended hheld
  rw [hcounted]
  generalize v.regs = r
  rw [hheld, hended]

theorem passDeed_eq (s : State) (b h : Nat) :
    s.passDeed b h = if marched (deedMoved s b h) b then ((deedMoved s b h).marchEnd ⟨0, b, false⟩ 3).scramble (bankAddr b 0) 0x4_0000
      else deedMoved s b h := rfl

theorem marched_deedMoved (s : State) (b h c : Nat) : marched (deedMoved s b h) c = marched s c := by
  unfold marched
  rw [deedMoved_parts]

theorem passDeed_quiet {s : State} {b : Nat} (hm : marched s b = false) (h : Nat) : s.passDeed b h = deedMoved s b h := by
  rw [passDeed_eq, marched_deedMoved, hm]
  rfl

section Moved

variable {s : State} (w : s.regsWf) (b h : Nat)
include w

theorem holdingEnded_wf : (holdingEnded s b h).regsWf := regsWf_congr (regs_holdingEnded s b h) w

theorem deedMoved_wf : (deedMoved s b h).regsWf := setF_wf (setF_wf (holdingEnded_wf w b h) _ _) _ _

theorem deedMoved_kept (hb : b < 64) : RegsKept [Adr.MEM_DEED b] s (deedMoved s b h) := fun a ha => by
  have hne : canon a ≠ canon (Adr.MEM_DEED b) := by
    rw [canon_deed hb]
    exact fun e => ha (e ▸ List.mem_cons_self)
  calc (deedMoved s b h).reg a
      = ((holdingEnded s b h).setF (Fld.MEM_DEED_HOLDER b) h).reg a :=
        reg_setF_ne (r := Fld.MEM_DEED_PASSES b) (setF_wf (holdingEnded_wf w b h) _ _) _ hne
    _ = (holdingEnded s b h).reg a := reg_setF_ne (r := Fld.MEM_DEED_HOLDER b) (holdingEnded_wf w b h) _ hne
    _ = s.reg a := reg_congr (regs_holdingEnded s b h) a

theorem holder_deedMoved {h : Nat} (hh : h < 32) : (deedMoved s b h).holder b = h :=
  calc (deedMoved s b h).holder b
      = ((holdingEnded s b h).setF (Fld.MEM_DEED_HOLDER b) h).f (Fld.MEM_DEED_HOLDER b) :=
        f_setF_beside (setF_wf (holdingEnded_wf w b h) _ _) _ (by decide) (by decide)
    _ = h % 2 ^ 5 := f_setF_at (holdingEnded_wf w b h) h (by decide)
    _ = h := Nat.mod_eq_of_lt hh

theorem passes_deedMoved :
    (deedMoved s b h).f (Fld.MEM_DEED_PASSES b) = (s.f (Fld.MEM_DEED_PASSES b) + 1) % 65536 := by
  have hbefore : ((holdingEnded s b h).setF (Fld.MEM_DEED_HOLDER b) h).f (Fld.MEM_DEED_PASSES b) = s.f (Fld.MEM_DEED_PASSES b) :=
    (f_setF_beside (holdingEnded_wf w b h) h (by decide) (by decide)).trans (f_congr (regs_holdingEnded s b h) _)
  rw [deedMoved, State.wrap, hbefore]
  exact f_setF_at (setF_wf (holdingEnded_wf w b h) _ _) _ (by decide)

/-- The end of the march test leaves the deed as it has been passed. -/
theorem passDeed_deed (hb : b < 64) (hi lo : Nat) :
    (s.passDeed b h).f ⟨Adr.MEM_DEED b, hi, lo⟩ = (deedMoved s b h).f ⟨Adr.MEM_DEED b, hi, lo⟩ := by
  rw [passDeed_eq]
  split
  · exact (f_congr (regs_scramble _ _ _) _).trans ((marchEnd_writes (deedMoved_wf w b h) _ 3).field _ (deed_not_marchWord hb))
  · rfl

theorem passDeed_wf : (s.passDeed b h).regsWf := by
  rw [passDeed_eq]
  split
  · exact regsWf_congr (regs_scramble _ _ _) (marchEnd_writes (deedMoved_wf w b h) _ 3).wf
  · exact deedMoved_wf w b h

/-- A pass writes the bank's deed, and what the end of a march test writes. -/
theorem passDeed_kept (hb : b < 64) : RegsKept (Adr.MEM_DEED b :: marchWords) s (s.passDeed b h) := by
  have hmoved : RegsKept (Adr.MEM_DEED b :: marchWords) s (deedMoved s b h) := (deedMoved_kept w b h hb).mono (by simp)
  rw [passDeed_eq]
  split
  · refine hmoved.trans fun a ha => (reg_congr (regs_scramble _ _ _) a).trans ?_
    exact (marchEnd_writes (deedMoved_wf w b h) _ 3).kept a fun hm => ha (List.mem_cons_of_mem _ hm)
  · exact hmoved

end Moved

/-- The command on a pass that takes effect. -/
theorem exec_deedPass_allowed {s : State} {m b h : Nat} (hb : b < 64) (ha : s.passAllowed m b h = true) :
    exec (.deedPass m b h) s = live s (s.passDeed b h).ok := by
  show liveIf (decide (b < 64)) s _ = _
  rw [decide_eq_true hb, doDeedPass, if_pos ha]
  rfl

theorem passAllowed_iff (s : State) (m b h : Nat) :
    s.passAllowed m b h = true ↔ (m = s.holder b ∨ m = 4) ∧ h < 28 ∧ ¬(h = 27 ∧ marched s b = true) := by
  unfold State.passAllowed marched
  simp only [Bool.and_eq_true, Bool.or_eq_true, beq_iff_eq, decide_eq_true_eq, Bool.not_eq_true', Bool.and_eq_false_iff, beq_eq_false_iff_ne,
    not_and_or, Bool.not_eq_true, ne_eq]

/-! ### A refused pass (R15, R417) -/

/-- The address of `MEM_DEED_PASS[b]` on the fabric. -/
abbrev deedPassAddr (b : Nat) : Nat := 0x4000_0000 + 4 * Adr.MEM_DEED_PASS b

/-- The refusal of a pass by `m` is raised and recorded. -/
def passDenied (s : State) (m b : Nat) : State := (s.raise Ev.MEM_DEED_DENIED).offerFabric m 2 true (deedPassAddr b)

theorem exec_deedPass_refused {s : State} {m b h : Nat} (hb : b < 64) (ha : s.passAllowed m b h = false) :
    exec (.deedPass m b h) s =
      live s ((((passDenied s m b).ans .denied []).masterErr m (deedPassAddr b) .denied).ans .denied []) := by
  have haddr : 0x4000_0000 + 144 * 4096 + 0x200 + 4 * b = deedPassAddr b := by
    unfold deedPassAddr Adr.MEM_DEED_PASS
    omega
  show liveIf (decide (b < 64)) s _ = _
  rw [decide_eq_true hb, doDeedPass, if_neg (by rw [ha]; decide), haddr]
  rfl

/-- The fabric's record of an error response writes the ledger's words alone. -/
theorem offerFabric_writes {s : State} (w : s.regsWf) (m code : Nat) (wr : Bool) (a : Nat) :
    Writes ringWords s (s.offerFabric m code wr a) := by
  unfold State.offerFabric
  split
  · exact (Writes.refl w).same rfl rfl rfl
  · refine Writes.trans (t := { s with fab := _ }) ?_ (Writes.ofRings (mk_wf w) (Rings.offer _ _) fun _ => id)
    exact (Writes.refl w).same rfl rfl rfl

theorem passDenied_writes {s : State} (w : s.regsWf) (m b : Nat) : Writes (evWords 144) s (passDenied s m b) :=
  ((Writes.refl w).raise (e := Ev.MEM_DEED_DENIED) rfl fun _ => id).trans
    ((offerFabric_writes (raise_wf w _) m 2 true _).mono fun _ => List.mem_cons_of_mem _)

theorem raised_passDenied {s : State} (w : s.regsWf) (m b : Nat) : (passDenied s m b).raised Ev.MEM_DEED_DENIED :=
  (offerFabric_writes (raise_wf w _) m 2 true _).stays _ (raise_sets w (by decide) (by decide))

theorem holder_passDenied {s : State} (w : s.regsWf) (m : Nat) {b : Nat} (hb : b < 64) : (passDenied s m b).holder b = s.holder b := by
  refine (passDenied_writes w m b).field (Fld.MEM_DEED_HOLDER b) ?_
  rw [canon_deed hb]
  simp only [evWords, hdr, List.mem_cons, List.not_mem_nil, or_false]
  unfold Adr.MEM_DEED Adr.LGR_CNT_A Adr.LGR_CNT_B Adr.LGR_FLAGS
  omega

end Sys2Proof.Laws

namespace Sys2Proof.Proofs

open Sys2Proof.Machine Sys2Proof.Laws

section Deeds

variable {s : State} {m b h : Nat} (hp : s.pwr.on = true) (w : s.regsWf) (hb : b < 64)
include hp w hb

/-- Every pass that takes effect changes the holder and counts, a march test on the bank or not. -/
theorem runs_deedPass_allowed (ha : s.passAllowed m b h = true) :
    Runs (.deedPass m b h) s fun t => t = (s.passDeed b h).ok ∧
      t.holder b = h ∧ t.f (Fld.MEM_DEED_PASSES b) = (s.f (Fld.MEM_DEED_PASSES b) + 1) % 65536 := by
  have hlt : h < 28 := ((passAllowed_iff s m b h).mp ha).2.1
  refine Runs.live (exec_deedPass_allowed hb ha) hp ⟨rfl, ?_, ?_⟩
  · exact (f_ok _ _).trans ((passDeed_deed w b h hb _ _).trans (holder_deedMoved w b (by omega)))
  · exact (f_ok _ _).trans ((passDeed_deed w b h hb _ _).trans (passes_deedMoved w b h))

theorem runs_deedPass_quiet (hm : m = s.holder b ∨ m = 4) (hh : h < 28) (hq : marched s b = false) :
    Runs (.deedPass m b h) s fun t =>
      t.holder b = h ∧ t.f (Fld.MEM_DEED_PASSES b) = (s.f (Fld.MEM_DEED_PASSES b) + 1) % 65536 ∧
      (∀ c, c < 64 → c ≠ b → t.holder c = s.holder c) ∧ t.answer = ⟨.okay, []⟩ ∧ RegsKept [Adr.MEM_DEED b] s t ∧
      t = { s with regs := t.regs, answer := t.answer, asm := t.asm } := by
  have ha : s.passAllowed m b h = true := (passAllowed_iff s m b h).mpr ⟨hm, hh, fun hx => by simp [hq] at hx⟩
  refine runs_imp (runs_deedPass_allowed hp w hb ha) fun t ⟨ht, hholder, hpasses⟩ => ?_
  rw [passDeed_quiet hq] at ht
  have hkept : RegsKept [Adr.MEM_DEED b] s t := fun a hout => by
    rw [ht, reg_ok, deedMoved_kept w b h hb a hout]
  refine ⟨hholder, hpasses, fun c hc hne => hkept.field (Fld.MEM_DEED_HOLDER c) ?_, ht ▸ rfl, hkept, ?_⟩
  · rw [List.mem_singleton, ← canon_deed hb]
    exact canon_deed_ne hb hc hne
  · have hparts := deedMoved_parts s b h
    rw [ht, hparts]
    rfl

theorem runs_deedPass_refused (ha : s.passAllowed m b h = false) :
    Runs (.deedPass m b h) s fun t =>
      t.answer = ⟨.denied, []⟩ ∧ ∃ u : State,
        t = (((u.ans .denied []).masterErr m (0x4000_0000 + 4 * Adr.MEM_DEED_PASS b) .denied).ans .denied []) ∧
        u.holder b = s.holder b ∧ u.raised Ev.MEM_DEED_DENIED ∧ MemKept s u ∧
        u = (s.raise Ev.MEM_DEED_DENIED).offerFabric m 2 true (0x4000_0000 + 4 * Adr.MEM_DEED_PASS b) :=
  Runs.live (exec_deedPass_refused hb ha) hp
    ⟨rfl, _, rfl, holder_passDenied w m hb, raised_passDenied w m b, (passDenied_writes w m b).mem, rfl⟩

end Deeds

/-- Settles O15: a pass is allowed or refused by one check; the end of a march test on the bank leaves the deed as it has been passed. -/
theorem deedPassesAndRefusals : Obligations.DeedPassesAndRefusals := fun s m b h hp w hb =>
  ⟨fun hm hh hq => runs_deedPass_quiet hp w hb hm hh hq,
   fun hm hh _ =>
    runs_imp (runs_deedPass_allowed hp w hb ((passAllowed_iff s m b h).mpr ⟨hm, by omega, fun ⟨h27, _⟩ => by omega⟩))
      fun _ ⟨ht, hholder, hpasses⟩ => ⟨hholder, hpasses, ht ▸ rfl⟩,
   fun hrefused => by
    refine runs_deedPass_refused hp w hb (Bool.eq_false_of_not_eq_true fun ha => ?_)
    obtain ⟨hm, hh, hmarch⟩ := (passAllowed_iff s m b h).mp ha
    rcases hrefused with ⟨hne, h4⟩ | h28 | h27
    · exact hm.elim hne h4
    · omega
    · exact hmarch h27⟩

end Sys2Proof.Proofs
end

section
/-! ## DMA channels started and stopped

The start, the stop and the end of a stopped transfer (R431, R434, R435). The lemmas about the model's operations stand first, the statement's
proof after them. -/

namespace Sys2Proof.Laws

open Sys2Proof.Machine

/-! ### Words of the channels (R431) -/

/-- `a` is a word of the table of channels on page DMA. -/
structure DmaWord (a : Nat) : Prop where
  lo : 146496 ≤ a
  hi : a < 147008

section DmaWord

variable {a : Nat} (h : DmaWord a)
include h

theorem DmaWord.body : 6 < a % 1024 := by
  obtain ⟨hlo, hhi⟩ := h
  omega

theorem DmaWord.canon_ne {b : Nat} (k : DmaWord b) (hne : a ≠ b) : canon a ≠ canon b := by
  rwa [canon_body h.body, canon_body k.body]

theorem DmaWord.not_event : canon a ∉ evWords 143 := by
  rw [canon_body h.body]
  obtain ⟨hlo, hhi⟩ := h
  simp only [evWords, hdr, List.mem_cons, List.not_mem_nil, or_false]
  unfold Adr.LGR_CNT_A Adr.LGR_CNT_B Adr.LGR_FLAGS
  omega

end DmaWord

section ChannelWords

variable {c : Nat} (hc : c < 32)
include hc

theorem dmaWord_stat : DmaWord (Adr.DMA_STAT c) := by unfold Adr.DMA_STAT; constructor <;> omega
theorem dmaWord_count : DmaWord (Adr.DMA_COUNT c) := by unfold Adr.DMA_COUNT; constructor <;> omega

theorem canon_dmaCount_ne_stat : canon (Adr.DMA_COUNT c) ≠ canon (Adr.DMA_STAT c) :=
  (dmaWord_count hc).canon_ne (dmaWord_stat hc) (by unfold Adr.DMA_COUNT Adr.DMA_STAT; omega)

end ChannelWords

/-- The address words that a transfer of channel `c` moves on. -/
abbrev dmaAddrWords (c : Nat) : List Nat := [Adr.DMA_SRC_LO c, Adr.DMA_SRC_HI c, Adr.DMA_DST_LO c, Adr.DMA_DST_HI c]

theorem dmaWord_addr {c a : Nat} (hc : c < 32) (ha : a ∈ dmaAddrWords c) : DmaWord a ∧ a ≠ Adr.DMA_COUNT c := by
  simp only [List.mem_cons, List.not_mem_nil, or_false] at ha
  unfold Adr.DMA_SRC_LO Adr.DMA_SRC_HI Adr.DMA_DST_LO Adr.DMA_DST_HI at ha
  unfold Adr.DMA_COUNT
  refine ⟨⟨?_, ?_⟩, ?_⟩ <;> omega

/-! ### The end of a transfer -/

section DmaEnd

variable {s : State} (w : s.regsWf) (c : Nat)
include w

theorem dmaEnd_writes (hc : c < 32) (e : Nat) : Writes [Adr.DMA_STAT c] s (s.dmaEnd c e) := by
  have hbody := (dmaWord_stat hc).body
  refine Writes.setF (r := Fld.DMA_STAT_ERR c) (Writes.setF (r := Fld.DMA_STAT_BUSY c) ?_ 0 hbody (by simp)) e hbody (by simp)
  exact (Writes.refl w).same rfl rfl rfl

theorem dmaEnd_idle (e : Nat) : (s.dmaEnd c e).dmaBusy c = false := by
  have hbusy : (s.dmaEnd c e).f (Fld.DMA_STAT_BUSY c) = 0 :=
    (f_setF_beside (setF_wf (mk_wf w) _ _) e (by decide) (by decide)).trans (f_setF_at (mk_wf w) 0 (by decide))
  rw [State.dmaBusy, fb_def, hbusy]
  rfl

theorem err_dmaEnd {e : Nat} (he : e < 8) : (s.dmaEnd c e).f (Fld.DMA_STAT_ERR c) = e :=
  (f_setF_at (setF_wf (mk_wf w) _ _) e (by decide)).trans (Nat.mod_eq_of_lt he)

end DmaEnd

/-! ### A start (R431, R434) -/

/-- Channel `c` is busy, without an error. -/
def dmaTaken (s : State) (c : Nat) : State := (s.setF (Fld.DMA_STAT_BUSY c) 1).setF (Fld.DMA_STAT_ERR c) 0

/-- The start of channel `c` is refused with code `e`. -/
def dmaRejected (s : State) (c e : Nat) : State := (s.dmaEnd c e).raise Ev.DMA_ERR

theorem dmaRefused_lt (s : State) (c : Nat) : s.dmaRefused c < 8 := by
  unfold State.dmaRefused
  dsimp only
  split
  · decide
  · split <;> decide

/-- What keeps a start from being looked at. -/
def DmaDeaf (s : State) (c : Nat) : Prop :=
  s.dmaBusy c = true ∨ s.fb Fld.DMA_GLOBAL_HALT = true ∨ s.fb Fld.DMA_GLOBAL_BUS_ERR = true ∨ s.works 143 = false

theorem dmaStart_ignored {s : State} {c : Nat} (h : DmaDeaf s c) : s.dmaStart c = s := if_pos h

theorem not_dmaDeaf {s : State} {c : Nat} (hb : s.dmaBusy c = false) (hh : s.fb Fld.DMA_GLOBAL_HALT = false)
    (he : s.fb Fld.DMA_GLOBAL_BUS_ERR = false) (hw : s.works 143 = true) : ¬DmaDeaf s c := by
  unfold DmaDeaf
  simp [hb, hh, he, hw]

theorem dmaStart_begins {s : State} {c : Nat} (h : ¬DmaDeaf s c) :
    s.dmaStart c = if (s.dmaBegin c).dmaBusy c = true ∧ (s.dmaBegin c).f (Fld.DMA_COUNT_BYTES c) = 0 then (s.dmaBegin c).dmaComplete c
      else s.dmaBegin c := if_neg h

theorem dmaBegin_taken {s : State} {c : Nat} (h : s.dmaRefused c = 0) : s.dmaBegin c = dmaTaken s c := by
  unfold State.dmaBegin
  rw [h]
  rfl

theorem dmaBegin_rejected {s : State} {c : Nat} (h : s.dmaRefused c ≠ 0) : s.dmaBegin c = dmaRejected s c (s.dmaRefused c) := if_pos h

section Start

variable {s : State} (w : s.regsWf) {c : Nat} (hc : c < 32)
include w hc

theorem dmaTaken_only : OnlyRegs [Adr.DMA_STAT c] s (dmaTaken s c) := by
  have hmem : canon (Adr.DMA_STAT c) ∈ [Adr.DMA_STAT c] := by
    rw [canon_body (dmaWord_stat hc).body]
    exact List.mem_cons_self
  exact ((OnlyRegs.refl _ s).setF (r := Fld.DMA_STAT_BUSY c) w 1 hmem).setF (r := Fld.DMA_STAT_ERR c) (setF_wf w _ _) 0 hmem

omit hc in
theorem dmaTaken_busy : (dmaTaken s c).dmaBusy c = true := by
  have hbusy : (dmaTaken s c).f (Fld.DMA_STAT_BUSY c) = 1 :=
    (f_setF_beside (setF_wf w _ _) 0 (by decide) (by decide)).trans (f_setF_at w 1 (by decide))
  rw [State.dmaBusy, fb_def, hbusy]
  rfl

omit hc in
theorem err_dmaTaken : (dmaTaken s c).f (Fld.DMA_STAT_ERR c) = 0 := f_setF_at (setF_wf w _ _) 0 (by decide)

theorem count_dmaTaken : (dmaTaken s c).f (Fld.DMA_COUNT_BYTES c) = s.f (Fld.DMA_COUNT_BYTES c) := by
  refine (dmaTaken_only w hc).1.field (Fld.DMA_COUNT_BYTES c) ?_
  rw [List.mem_singleton, ← canon_body (dmaWord_stat hc).body]
  exact canon_dmaCount_ne_stat hc

theorem dmaStart_taken (hd : ¬DmaDeaf s c) (hr : s.dmaRefused c = 0) (hn : s.f (Fld.DMA_COUNT_BYTES c) ≠ 0) :
    s.dmaStart c = dmaTaken s c := by
  rw [dmaStart_begins hd, dmaBegin_taken hr, count_dmaTaken w hc]
  exact if_neg fun h => hn h.2

theorem f_dmaRejected (e hi lo : Nat) : (dmaRejected s c e).f ⟨Adr.DMA_STAT c, hi, lo⟩ = (s.dmaEnd c e).f ⟨Adr.DMA_STAT c, hi, lo⟩ :=
  f_raise (q := ⟨Adr.DMA_STAT c, hi, lo⟩) (dmaEnd_writes w c hc e).wf rfl (dmaWord_stat hc).not_event

theorem dmaRejected_idle (e : Nat) : (dmaRejected s c e).dmaBusy c = false := by
  rw [State.dmaBusy, fb_def, f_dmaRejected w hc]
  exact dmaEnd_idle w c e

theorem raised_dmaRejected (e : Nat) : (dmaRejected s c e).raised Ev.DMA_ERR :=
  raise_sets (dmaEnd_writes w c hc e).wf (by decide) (by decide)

theorem dmaStart_rejected (hd : ¬DmaDeaf s c) (hr : s.dmaRefused c ≠ 0) : s.dmaStart c = dmaRejected s c (s.dmaRefused c) := by
  rw [dmaStart_begins hd, dmaBegin_rejected hr, dmaRejected_idle w hc]
  exact if_neg fun h => Bool.false_ne_true h.1

end Start

/-! ### A stop and its end (R435) -/

theorem dmaStop_taken {s : State} {c : Nat} (hb : s.dmaBusy c = true) (hs : s.dma.stopping.contains c = false) :
    s.dmaStop c = { s with dma := { s.dma with stopping := s.dma.stopping ++ [c] } } := if_pos (by rw [hb, hs]; rfl)

/-- One address of a channel is written when `b`. -/
def addrShown (b : Bool) (lo hi x : Nat) (s : State) : State := if b then s.setAddr lo hi x else s

/-- With no byte moved a stop writes at most the addresses, and the count that is left is the whole. -/
theorem dmaStopped_unmoved {s : State} {c : Nat} (hs : s.dma.stopping.contains c = true) (hpace : s.dmaPace c = none) :
    ∃ src dst : Bool, s.dmaStopped c 0 =
      ((addrShown dst (Adr.DMA_DST_LO c) (Adr.DMA_DST_HI c) (s.dmaDst c)
        (addrShown src (Adr.DMA_SRC_LO c) (Adr.DMA_SRC_HI c) (s.dmaSrc c) s)).setF (Fld.DMA_COUNT_BYTES c)
          (s.f (Fld.DMA_COUNT_BYTES c))).dmaEnd c 5 := by
  unfold State.dmaStopped addrShown
  rw [if_neg (by rw [hs]; decide), hpace]
  generalize s.f (Fld.DMA_COUNT_BYTES c) = n, s.dmaSrc c = x, s.dmaDst c = y
  have hnone : min (0 / 4 * 4) n = 0 := Nat.zero_min n
  simp only [hnone]
  rw [Nat.zero_div, Nat.sub_zero, Nat.add_zero, Nat.add_zero]
  simp only [Option.isSome_none, Bool.false_eq_true, if_false, dmaReadAll, dmaWriteAll]
  exact ⟨_, _, rfl⟩

theorem addrShown_only {c : Nat} (hc : c < 32) {s t : State} (w : t.regsWf) (h : OnlyRegs (dmaAddrWords c) s t) (b : Bool)
    {lo hi : Nat} (x : Nat)
    (hlo : lo ∈ dmaAddrWords c) (hhi : hi ∈ dmaAddrWords c) :
    (addrShown b lo hi x t).regsWf ∧ OnlyRegs (dmaAddrWords c) s (addrShown b lo hi x t) := by
  have hhome {a : Nat} (ha : a ∈ dmaAddrWords c) : canon a ∈ dmaAddrWords c := by
    rwa [canon_body (dmaWord_addr hc ha).1.body]
  unfold addrShown
  split
  · exact ⟨setPair_wf w _ _ _, h.setPair w _ (hhome hlo) (hhome hhi)⟩
  · exact ⟨w, h⟩

theorem dmaStopped_only {s : State} (w : s.regsWf) {c : Nat} (hc : c < 32) (hs : s.dma.stopping.contains c = true)
    (hpace : s.dmaPace c = none) :
    ∃ u : State, u.regsWf ∧ OnlyRegs (dmaAddrWords c) s u ∧
      s.dmaStopped c 0 = (u.setF (Fld.DMA_COUNT_BYTES c) (s.f (Fld.DMA_COUNT_BYTES c))).dmaEnd c 5 := by
  obtain ⟨src, dst, he⟩ := dmaStopped_unmoved hs hpace
  obtain ⟨wsrc, hsrc⟩ := addrShown_only hc w (OnlyRegs.refl _ s) src (s.dmaSrc c) (lo := Adr.DMA_SRC_LO c) (hi := Adr.DMA_SRC_HI c)
    (by simp) (by simp)
  obtain ⟨wdst, hdst⟩ := addrShown_only hc wsrc hsrc dst (s.dmaDst c) (lo := Adr.DMA_DST_LO c) (hi := Adr.DMA_DST_HI c) (by simp) (by simp)
  exact ⟨_, wdst, hdst, he⟩

theorem stopping_dmaEnd (s : State) (c e : Nat) : (s.dmaEnd c e).dma.stopping.contains c = false := by
  show (s.dma.stopping.filter (· ≠ c)).contains c = false
  simp

end Sys2Proof.Laws

namespace Sys2Proof.Proofs

open Sys2Proof.Machine Sys2Proof.Laws

section Dma

variable {s : State} {c : Nat} (hp : s.pwr.on = true) (w : s.regsWf) (hc : c < 32)
include hp hc

theorem runs_dmaStart {t : State} {P : State → Prop} (h : s.dmaStart c = t) (ht : P t.ok.paceAll) : Runs (.dmaStart c) s P :=
  Runs.liveIf rfl hp (decide_eq_true hc) (h ▸ ht)

include w

theorem runs_dmaStart_taken (hd : ¬DmaDeaf s c) (hr : s.dmaRefused c = 0) (hn : s.f (Fld.DMA_COUNT_BYTES c) ≠ 0) :
    Runs (.dmaStart c) s fun t => ∃ u : State, t = u.ok.paceAll ∧
      u.dmaBusy c = true ∧ u.f (Fld.DMA_STAT_ERR c) = 0 ∧ OnlyRegs [Adr.DMA_STAT c] s u :=
  runs_dmaStart hp hc (dmaStart_taken w hc hd hr hn) ⟨_, rfl, dmaTaken_busy w, err_dmaTaken w, dmaTaken_only w hc⟩

theorem runs_dmaStart_rejected (hd : ¬DmaDeaf s c) (hr : s.dmaRefused c ≠ 0) :
    Runs (.dmaStart c) s fun t => ∃ u : State, t = u.ok.paceAll ∧
      u.dmaBusy c = false ∧ u.f (Fld.DMA_STAT_ERR c) = s.dmaRefused c ∧ u.raised Ev.DMA_ERR :=
  runs_dmaStart hp hc (dmaStart_rejected w hc hd hr)
    ⟨_, rfl, dmaRejected_idle w hc _, (f_dmaRejected w hc _ _ _).trans (err_dmaEnd w c (dmaRefused_lt s c)), raised_dmaRejected w hc _⟩

theorem runs_dmaStopped (hs : s.dma.stopping.contains c = true) (hpace : s.dmaPace c = none) :
    Runs (.dmaStopped c 0) s fun t =>
      t.dmaBusy c = false ∧ t.f (Fld.DMA_STAT_ERR c) = 5 ∧ t.f (Fld.DMA_COUNT_BYTES c) = s.f (Fld.DMA_COUNT_BYTES c) ∧
      t.dma.stopping.contains c = false ∧ MemKept s t := by
  obtain ⟨u, wu, hu, he⟩ := dmaStopped_only w hc hs hpace
  have wcount := setF_wf wu (Fld.DMA_COUNT_BYTES c) (s.f (Fld.DMA_COUNT_BYTES c))
  have hend := dmaEnd_writes wcount c hc 5
  have hlt : s.f (Fld.DMA_COUNT_BYTES c) < 2 ^ 24 := bitsOf_lt _ _ _
  refine Runs.liveIf rfl hp (decide_eq_true hc) ?_
  rw [he]
  refine ⟨dmaEnd_idle wcount c 5, err_dmaEnd wcount c (by decide), ?_, stopping_dmaEnd _ c 5,
    fun a => (hend.mem a).trans ((rd8_setF u _ _ a).trans (hu.mem a))⟩
  rw [hend.field (Fld.DMA_COUNT_BYTES c), f_setF_at wu _ (by decide)]
  · exact Nat.mod_eq_of_lt hlt
  · rw [List.mem_singleton, ← canon_body (dmaWord_stat hc).body]
    exact canon_dmaCount_ne_stat hc

end Dma

/-- Settles O20: a start is deaf, refused or taken; a stop marks the channel, and its end with no byte moved shows the whole count. -/
theorem dmaStartsAndStops : Obligations.DmaStartsAndStops :=
  ⟨fun _ _ hp w hc =>
    ⟨fun hdeaf => runs_dmaStart hp hc (dmaStart_ignored hdeaf) rfl,
     fun hb hh he hw =>
      ⟨fun hr hn => runs_dmaStart_taken hp w hc (not_dmaDeaf hb hh he hw) hr hn,
       fun hr => runs_dmaStart_rejected hp w hc (not_dmaDeaf hb hh he hw) hr⟩⟩,
   fun s c hp w hc hb =>
    ⟨fun hs => Runs.liveIf (t := (s.dmaStop c).ok) rfl hp (decide_eq_true hc) (by rw [dmaStop_taken hb hs]; exact ⟨rfl, rfl⟩),
     fun hs hpace => runs_dmaStopped hp w hc hs hpace⟩⟩

end Sys2Proof.Proofs
end

section
/-! ## Access tables

Arming, the rule window and its commit (R442, R446, R447). The lemmas about the model's operations stand first, the statement's proof after
them. -/

namespace Sys2Proof.Laws

open Sys2Proof.Machine

/-! ### Arming (R446) -/

/-- The tables are enforced and the page is locked. -/
def tablesArmed (s : State) : State := (s.setReg (hdr 3 7) 7).setF Fld.FWL_STAT_ENFORCE 1

/-- The arming is refused. -/
def armRefused (s : State) : State := (s.setF Fld.FWL_STAT_ARM_ERR 1).raise Ev.FWL_ARM_REFUSED

theorem doFwlArm_armed {s : State} {key : Nat} (hk : key % 65536 = 0x10C4) (hl : s.listsOk = true) :
    doFwlArm s key = (tablesArmed s).ok := by
  rw [doFwlArm, if_neg (not_not_intro hk), if_pos hl]
  rfl

theorem doFwlArm_refused {s : State} {key : Nat} (hk : key % 65536 = 0x10C4) (hl : s.listsOk = false) :
    doFwlArm s key = (armRefused s).ok := by
  rw [doFwlArm, if_neg (not_not_intro hk), if_neg (ne_true_of_eq_false hl)]
  rfl

theorem doFwlArm_noKey {s : State} {key : Nat} (hk : key % 65536 ≠ 0x10C4) : doFwlArm s key = s.ok := if_pos hk

section Arming

variable {s : State} (w : s.regsWf)
include w

theorem enforce_tablesArmed : (tablesArmed s).f Fld.FWL_STAT_ENFORCE = 1 :=
  f_setF_same (setReg_wf w _ _) Fld.FWL_STAT_ENFORCE 1 (by decide) (by decide)

theorem lock_tablesArmed : (tablesArmed s).reg (hdr 3 7) = 7 :=
  (reg_setF_ne (setReg_wf w _ _) (r := Fld.FWL_STAT_ENFORCE) 1 (by decide)).trans (reg_setReg_same w _ _)

theorem tablesArmed_only : OnlyRegs [Adr.FWL_STAT, hdr 3 7] s (tablesArmed s) :=
  ((OnlyRegs.refl _ s).setReg w 7 (by decide)).setF (setReg_wf w _ _) 1 (by decide)

theorem f_armRefused {q : RF} (hq : canon q.a = canon Adr.FWL_STAT) : (armRefused s).f q = (s.setF Fld.FWL_STAT_ARM_ERR 1).f q :=
  f_raise (e := Ev.FWL_ARM_REFUSED) (setF_wf w _ _) rfl (by rw [hq]; decide)

theorem err_armRefused : (armRefused s).f Fld.FWL_STAT_ARM_ERR = 1 :=
  (f_armRefused w rfl).trans (f_setF_same w Fld.FWL_STAT_ARM_ERR 1 (by decide) (by decide))

theorem enforce_armRefused : (armRefused s).f Fld.FWL_STAT_ENFORCE = s.f Fld.FWL_STAT_ENFORCE :=
  (f_armRefused w rfl).trans (f_setF_beside w 1 (by decide) (by decide))

theorem raised_armRefused : (armRefused s).raised Ev.FWL_ARM_REFUSED := raise_sets (setF_wf w _ _) (by decide) (by decide)

theorem armRefused_only : OnlyRaised 3 [Adr.FWL_STAT] s (armRefused s) :=
  ((OnlyRegs.refl _ s).setF w 1 (by decide)).raise (e := Ev.FWL_ARM_REFUSED) (setF_wf w _ _) rfl

end Arming

/-! ### The rule window (R447) -/

/-- The words that the selection of a rule writes. -/
abbrev windowWords : List Nat := [Adr.FWL_RULE_SEL, Adr.FWL_RULE_W 0, Adr.FWL_RULE_W 1, Adr.FWL_RULE_W 2, Adr.FWL_RULE_W 3]

theorem canon_window {n : Nat} (h : n < 4) : canon (Adr.FWL_RULE_W n) = Adr.FWL_RULE_W n := canon_body (by unfold Adr.FWL_RULE_W; omega)

theorem window_mem {n : Nat} (h : n < 4) : canon (Adr.FWL_RULE_W n) ∈ windowWords := by
  rw [canon_window h]
  interval_cases n <;> simp

/-- Rule `j` of `s` is selected in `t`, and the window shows its words below `n`. -/
structure Shown (s : State) (j n : Nat) (t : State) : Prop where
  wf : t.regsWf
  index : t.f Fld.FWL_RULE_SEL_IDX = j
  words : ∀ k, k < n → t.reg (Adr.FWL_RULE_W k) = BitVec.ofNat 32 (s.rule j k)
  only : OnlyRegs windowWords s t

theorem shown_selected {s : State} (w : s.regsWf) {j : Nat} (hj : j < 4096) : Shown s j 0 (s.setF Fld.FWL_RULE_SEL_IDX j) where
  wf := setF_wf w _ _
  index := (f_setF_same w Fld.FWL_RULE_SEL_IDX j (by decide) (by decide)).trans (Nat.mod_eq_of_lt hj)
  words := fun _ hk => absurd hk (Nat.not_lt_zero _)
  only := (OnlyRegs.refl _ s).setF w j (by decide)

theorem Shown.load {s t : State} {j n : Nat} (h : Shown s j n t) (hn : n < 4) :
    Shown s j (n + 1) (t.setReg (Adr.FWL_RULE_W n) (BitVec.ofNat 32 (s.rule j n))) where
  wf := setReg_wf h.wf _ _
  index := by
    rw [f_setReg_ne h.wf (q := Fld.FWL_RULE_SEL_IDX), h.index]
    rw [canon_window hn]
    exact fun e => absurd e (show Adr.FWL_RULE_SEL ≠ 3084 + n by unfold Adr.FWL_RULE_SEL; omega)
  words := Nat.forall_lt_succ_right.2 ⟨fun k hk => by
    rw [reg_setReg_ne h.wf, h.words k hk]
    rw [canon_window (hk.trans hn), canon_window hn]
    unfold Adr.FWL_RULE_W
    omega, reg_setReg_same h.wf _ _⟩
  only := h.only.setReg h.wf _ (window_mem hn)

theorem doRuleSelect_shown {s : State} (w : s.regsWf) {j : Nat} (hj : j < 4096) : ∃ t, doRuleSelect s j = t.ok ∧ Shown s j 4 t := by
  refine ⟨_, rfl, ?_⟩
  rw [Nat.mod_eq_of_lt hj]
  exact forUp_induct (P := fun n t => n ≤ 4 → Shown s j n t) (fun _ => shown_selected w hj)
    (fun n _ ih hn => (ih (by omega)).load (by omega)) 4 (Nat.le_refl 4)

/-! ### The commit (R442, R447) -/

/-- A rule store. -/
abbrev Rules : Type := List (Nat × Word)

/-- Word `k` of rule `j` of a store. -/
def ruleWord (r : Rules) (j k : Nat) : Nat := (spGet (fun _ => (0 : Word)) r (4 * j + k)).toNat

/-- The rule store is in canonical form. -/
abbrev RulesWf (r : Rules) : Prop := spWf (fun _ => (0 : Word)) r = true

/-- Word `k` of rule `j` becomes `x`. -/
def putRuleWord (r : Rules) (j k x : Nat) : Rules := spSet (fun _ => (0 : Word)) r (4 * j + k) (BitVec.ofNat 32 x)

theorem rule_eq (s : State) (j k : Nat) : s.rule j k = ruleWord s.fwl.rules j k := rfl

theorem putRuleWord_wf {r : Rules} (h : RulesWf r) (j k x : Nat) : RulesWf (putRuleWord r j k x) := spSet_wf _ _ _ h

theorem ruleWord_put {r : Rules} (h : RulesWf r) {j k i n : Nat} (hk : k < 4) (hn : n < 4) (x : Nat) :
    ruleWord (putRuleWord r j k x) i n = if i = j ∧ n = k then x % 2 ^ 32 else ruleWord r i n := by
  unfold ruleWord putRuleWord
  split
  · rename_i he
    rw [he.1, he.2, spGet_set_same _ _ _ h, BitVec.toNat_ofNat]
  · rename_i he
    rw [spGet_set_ne _ (by omega) _ h]

/-- Word `k` of the window as a commit takes it: of word 3 the bits that a rule has. -/
def windowWord (s : State) (k : Nat) : Nat :=
  if k = 3 then (s.reg (Adr.FWL_RULE_W 3)).toNat &&& 0xE0000007 else (s.reg (Adr.FWL_RULE_W k)).toNat

theorem windowWord_lt (s : State) (k : Nat) : windowWord s k < 2 ^ 32 := by
  unfold windowWord
  split
  · exact Nat.lt_of_le_of_lt Nat.and_le_left (BitVec.isLt _)
  · exact BitVec.isLt _

/-- The store after the window has been written into rule `j`. -/
def rulesCommitted (s : State) (j : Nat) : Rules :=
  putRuleWord (putRuleWord (putRuleWord (putRuleWord s.fwl.rules j 0 (windowWord s 0)) j 1 (windowWord s 1)) j 2 (windowWord s 2)) j 3
    (windowWord s 3)

/-- The rule store becomes `r`. -/
def withRules (s : State) (r : Rules) : State := { s with fwl := { s.fwl with rules := r } }

theorem ruleWord_rulesCommitted {s : State} (h : RulesWf s.fwl.rules) (j i : Nat) {n : Nat} (hn : n < 4) :
    ruleWord (rulesCommitted s j) i n = if i = j then windowWord s n else s.rule i n := by
  have h0 := putRuleWord_wf h j 0 (windowWord s 0)
  have h1 := putRuleWord_wf h0 j 1 (windowWord s 1)
  have h2 := putRuleWord_wf h1 j 2 (windowWord s 2)
  unfold rulesCommitted
  rw [ruleWord_put h2 (by decide) hn, ruleWord_put h1 (by decide) hn, ruleWord_put h0 (by decide) hn, ruleWord_put h (by decide) hn,
    rule_eq]
  simp only [Nat.mod_eq_of_lt (windowWord_lt s _)]
  by_cases hi : i = j
  · interval_cases n <;> simp [hi]
  · simp [hi]

/-- Enforced tables refuse a commit to a locked rule, and one that would lock or fix a rule anew. -/
def CommitBarred (s : State) (old new : Nat) : Prop :=
  s.fb Fld.FWL_STAT_ENFORCE = true ∧ (bitOf old 30 = true ∨ (bitOf new 30 = true ∧ bitOf old 30 = false) ∨
    (bitOf new 29 = true ∧ bitOf old 29 = false))

theorem doRuleCommit_checks (s : State) (h : Decidable (CommitBarred s (s.rule (s.f Fld.FWL_RULE_SEL_IDX) 3) (windowWord s 3))) :
    doRuleCommit s =
      if CommitBarred s (s.rule (s.f Fld.FWL_RULE_SEL_IDX) 3) (windowWord s 3) then (s.setF Fld.FWL_STAT_REFUSED 1).ok
      else (withRules s (rulesCommitted s (s.f Fld.FWL_RULE_SEL_IDX))).ok := by
  unfold doRuleCommit rulesCommitted putRuleWord
  generalize s.f Fld.FWL_RULE_SEL_IDX = j at h ⊢
  have hwindow (k : Nat) (hk : k ≠ 3) : windowWord s k = (s.reg (Adr.FWL_RULE_W k)).toNat := if_neg hk
  have hlast : windowWord s 3 = (s.reg (Adr.FWL_RULE_W 3)).toNat &&& 0xE0000007 := if_pos rfl
  rw [hwindow 0 (by decide), hwindow 1 (by decide), hwindow 2 (by decide)]
  simp only [hlast, CommitBarred, Bool.not_eq_true', withRules]

end Sys2Proof.Laws

namespace Sys2Proof.Proofs

open Sys2Proof.Machine Sys2Proof.Laws

section Access

variable {s : State} (hp : s.pwr.on = true)
include hp

theorem runs_ruleSelect (w : s.regsWf) {j : Nat} (hj : j < 4096) :
    Runs (.ruleSelect j) s fun t =>
      t.f Fld.FWL_RULE_SEL_IDX = j ∧ (∀ k, k < 4 → t.reg (Adr.FWL_RULE_W k) = BitVec.ofNat 32 (s.rule j k)) ∧ OnlyRegs windowWords s t := by
  obtain ⟨t, ht, hshown⟩ := doRuleSelect_shown w hj
  exact Runs.live (t := doRuleSelect s j) rfl hp
    (ht ▸ ⟨(f_ok _ _).trans hshown.index, fun k hk => (reg_ok _ _).trans (hshown.words k hk), hshown.only.ok⟩)

theorem runs_ruleCommit_barred (w : s.regsWf) (h : CommitBarred s (s.rule (s.f Fld.FWL_RULE_SEL_IDX) 3) (windowWord s 3)) :
    Runs .ruleCommit s fun t => t.f Fld.FWL_STAT_REFUSED = 1 ∧ OnlyRegs [Adr.FWL_STAT] s t := by
  refine Runs.live (t := doRuleCommit s) rfl hp ?_
  rw [doRuleCommit_checks s (.isTrue h), if_pos h]
  exact ⟨(f_ok _ _).trans (f_setF_same w Fld.FWL_STAT_REFUSED 1 (by decide) (by decide)), ((OnlyRegs.refl _ s).setF w 1 (by decide)).ok⟩

theorem runs_ruleCommit_taken (r : RulesWf s.fwl.rules) (h : ¬CommitBarred s (s.rule (s.f Fld.FWL_RULE_SEL_IDX) 3) (windowWord s 3)) :
    Runs .ruleCommit s fun t =>
      (∀ k, k < 3 → t.rule (s.f Fld.FWL_RULE_SEL_IDX) k = (s.reg (Adr.FWL_RULE_W k)).toNat) ∧
      t.rule (s.f Fld.FWL_RULE_SEL_IDX) 3 = windowWord s 3 ∧
      (∀ i k, i ≠ s.f Fld.FWL_RULE_SEL_IDX → k < 4 → t.rule i k = s.rule i k) ∧
      t = { s with fwl := { s.fwl with rules := t.fwl.rules }, answer := ⟨.okay, []⟩ } := by
  refine Runs.live (t := doRuleCommit s) rfl hp ?_
  rw [doRuleCommit_checks s (.isFalse h), if_neg h]
  generalize s.f Fld.FWL_RULE_SEL_IDX = j
  have hrule (i : Nat) {k : Nat} (hk : k < 4) :
      (withRules s (rulesCommitted s j)).ok.rule i k = if i = j then windowWord s k else s.rule i k :=
    ruleWord_rulesCommitted r j i hk
  generalize rulesCommitted s j = l at hrule ⊢
  refine ⟨fun k hk => ?_, (hrule j (by decide)).trans (if_pos rfl), fun i k hi hk => (hrule i hk).trans (if_neg hi), rfl⟩
  rw [hrule j (by omega), if_pos rfl, windowWord, if_neg (by omega)]

end Access

/-- Settles O9: the key and the lists decide an arming; a selection loads the window word by word, and a commit that is not barred writes
its four words into the selected rule. -/
theorem accessTablesAreWritten : Obligations.AccessTablesAreWritten :=
  ⟨fun _ key hp w =>
    ⟨fun hk hl => Runs.live (t := doFwlArm _ key) rfl hp (doFwlArm_armed hk hl ▸
      ⟨(f_ok _ _).trans (enforce_tablesArmed w), (reg_ok _ _).trans (lock_tablesArmed w), (tablesArmed_only w).ok⟩),
     fun hk hl => Runs.live (t := doFwlArm _ key) rfl hp (doFwlArm_refused hk hl ▸
      ⟨(f_ok _ _).trans (err_armRefused w), (f_ok _ _).trans (enforce_armRefused w), raised_ok (raised_armRefused w), (armRefused_only w).ok⟩),
     fun hk => Runs.live rfl hp (doFwlArm_noKey hk)⟩,
   fun _ _ hp w hj => runs_ruleSelect hp w hj,
   fun _ hp w r => ⟨fun h => runs_ruleCommit_barred hp w h, fun h => runs_ruleCommit_taken hp r h⟩⟩

end Sys2Proof.Proofs
end

section
/-! ## Commands and the device's power (R466, R482)

What a command answers is gated by the power of the device: the new state with power, the old one without it. The drives stand outside
the device and the supply, reset and wake pins act on an unpowered one. -/

namespace Sys2Proof.Laws

open Sys2Proof.Machine

/-- The answer `o` of a command in `s` is a next state, which is `s` itself where the device has no power. -/
def Gated (s : State) (o : Out) : Prop := ∃ t, o = live s t

theorem Gated.of_off {s : State} {o : Out} (h : Gated s o) (hoff : s.pwr.on = false) : o = .next s := by
  obtain ⟨t, rfl⟩ := h
  unfold Machine.live
  rw [if_neg (by rw [hoff]; exact Bool.false_ne_true)]

theorem Gated.answers {s : State} {o : Out} (h : Gated s o) : ∃ t, o = .next t := by
  obtain ⟨t, rfl⟩ := h
  exact ⟨_, rfl⟩

/-- Without the thing a command is about (a check, a job, a pass) the command changes nothing; it is gated either way. -/
theorem Gated.chkDone (s : State) : Gated s (execChkDone s) := by
  unfold execChkDone
  split <;> exact ⟨_, rfl⟩

theorem Gated.laneLoadDone (l : Nat) (s : State) : Gated s (execLaneLoadDone l s) := by
  unfold execLaneLoadDone
  split <;> exact ⟨_, rfl⟩

theorem Gated.laneJobDone (l : Nat) (s : State) : Gated s (execLaneJobDone l s) := by
  unfold execLaneJobDone
  split <;> exact ⟨_, rfl⟩

theorem Gated.laneEccUe (l : Nat) (s : State) : Gated s (execLaneEccUe l s) := by
  unfold execLaneEccUe
  split <;> exact ⟨_, rfl⟩

theorem Gated.gridPassDone (s : State) : Gated s (execGridPassDone s) := by
  unfold execGridPassDone
  split <;> exact ⟨_, rfl⟩

/-- Every command but those of `actsUnpowered` is gated: its meaning is `live` or `liveIf`, or one of the five above. -/
theorem exec_gated {c : Instr} (h : actsUnpowered c = false) (s : State) : Gated s (exec c s) := by
  cases c with
  | driveHelmFrame | driveHoldTimeout | driveReset | vaonLoss | powerOnReset | resetN | wake => exact Bool.noConfusion h
  | chkDone => exact .chkDone s
  | laneLoadDone l => exact .laneLoadDone l s
  | laneJobDone l => exact .laneJobDone l s
  | laneEccUe l => exact .laneEccUe l s
  | gridPassDone => exact .gridPassDone s
  | _ => exact ⟨_, rfl⟩

/-- Every command answers a next state. -/
theorem exec_answers (c : Instr) (s : State) : ∃ t, exec c s = .next t := by
  cases c with
  | driveHelmFrame | driveHoldTimeout | driveReset | vaonLoss | powerOnReset | resetN | wake => exact ⟨_, rfl⟩
  | _ => exact (exec_gated rfl s).answers

end Sys2Proof.Laws

namespace Sys2Proof.Proofs

open Sys2Proof.Machine Sys2Proof.Laws

/-- Settles O6: every command outside `actsUnpowered` is gated by the device's power. -/
theorem unpoweredDeviceHoldsStill : Obligations.UnpoweredDeviceHoldsStill :=
  fun _ s hoff hc => (exec_gated hc s).of_off hoff

/-- Settles O3: no command's meaning answers anything but a next state, and each keeps the queue (`keeps_exec`). -/
theorem commandsAnswerAndLeaveQueue : Obligations.CommandsAnswerAndLeaveQueue :=
  ⟨exec_answers, fun c s t h => (keeps_exec (Keeps.refl s) c t h).1⟩

end Sys2Proof.Proofs

end

section
/-! ## The power state follows the wait states (R462–R465) -/

namespace Sys2Proof.Laws

open Sys2Proof.Machine

/-- The re-evaluation in `DOZE`: only its exit leaves it. -/
theorem powerStep_doze {s : State} (h : s.f Fld.PWR_STAT_STATE = 3) : s.powerStep = s := by
  unfold State.powerStep
  rw [if_pos h]

/-- The re-evaluation where it stops the lanes and beats run: the change waits for the next B0 edge. -/
theorem powerStep_waits {s : State} (h : s.f Fld.PWR_STAT_STATE < 2) (hw : 2 ≤ s.powerWant true) (hrun : s.running = true) :
    s.powerStep = { s with pwr := { s.pwr with pendingDown := some (s.powerWant true) } } := by
  unfold State.powerStep
  rw [if_neg (by omega), if_pos ⟨h, hw, hrun⟩]

/-- Any other re-evaluation takes effect at once. -/
theorem powerStep_atOnce {s : State} (h : s.f Fld.PWR_STAT_STATE ≠ 3)
    (hw : 2 ≤ s.f Fld.PWR_STAT_STATE ∨ s.powerWant true < 2 ∨ s.running = false) : s.powerStep = s.applyPower (s.powerWant true) := by
  have hnot : ¬(s.f Fld.PWR_STAT_STATE < 2 ∧ 2 ≤ s.powerWant true ∧ s.running = true) := by
    rintro ⟨h2, hwant, hrun⟩
    rcases hw with hw | hw | hw
    · omega
    · omega
    · exact Bool.false_ne_true (hw.symm.trans hrun)
  unfold State.powerStep
  rw [if_neg h, if_neg hnot]

theorem dozeExit_leaves {s : State} {w : Nat} (h : (s.setWaiting w).coreInterrupt = true ∨ (s.setWaiting w).powerWant true ≠ 3) :
    s.dozeExit w = ((((s.setWaiting w).applyPower ((s.setWaiting w).powerWant false)).setF Fld.DRC_STAT_SELF_REF 0).canKickAll).raise
      Ev.PWR_WAKE := by
  unfold State.dozeExit
  generalize s.setWaiting w = u at h ⊢
  exact if_pos h

theorem dozeExit_stays {s : State} {w : Nat} (hi : (s.setWaiting w).coreInterrupt = false) (hw : (s.setWaiting w).powerWant true = 3) :
    s.dozeExit w = s.setWaiting w := by
  unfold State.dozeExit
  generalize s.setWaiting w = u at hi hw ⊢
  exact if_neg fun h => h.elim (fun h => Bool.false_ne_true (hi.symm.trans h)) (fun h => h hw)

end Sys2Proof.Laws

namespace Sys2Proof.Proofs

open Sys2Proof.Machine Sys2Proof.Laws

/-- Settles O22: `powerStep` and `dozeExit`, branch by branch; noting the wait states changes no field and no beat. -/
theorem powerStatesFollowWaiting : Obligations.PowerStatesFollowWaiting := by
  refine ⟨fun s w hp => ⟨fun h => ?_, fun h hw hrun => ?_, fun h hw => ?_⟩, fun s w hp h => ⟨fun hout => ?_, fun hi hw => ?_⟩⟩
  · exact .live rfl hp (powerStep_doze (s := s.setWaiting w) h)
  · exact .live rfl hp (powerStep_waits (s := s.setWaiting w) h hw hrun)
  · exact .live rfl hp (powerStep_atOnce (s := s.setWaiting w) h hw)
  · exact .liveIf rfl hp (beq_iff_eq.mpr h) (dozeExit_leaves hout)
  · exact .liveIf rfl hp (beq_iff_eq.mpr h) (dozeExit_stays hi hw)

end Sys2Proof.Proofs

end

section
/-! ## Life cycle

Nonces, the checks of a request and what it performs (R450–R457). A request notes its operands, performs where its code is 1, and ends. -/

namespace Sys2Proof.Machine

/-! ### Changes of the life-cycle controller -/

section OnlyLcs

variable {l : List Nat} {s t u : State}

theorem OnlyLcs.refl (l : List Nat) (s : State) : OnlyLcs l s s := ⟨fun _ _ => rfl, rfl⟩

theorem OnlyLcs.trans (h : OnlyLcs l s t) (k : OnlyLcs l t u) : OnlyLcs l s u :=
  ⟨h.1.trans k.1, by
    have e := k.2
    rw [h.2] at e
    exact e⟩

theorem OnlyLcs.ofRaised (h : OnlyRaised 4 l s t) : OnlyLcs l s t :=
  ⟨h.1, by
    have e := h.2
    rw [e]⟩

theorem OnlyLcs.setF (h : OnlyLcs l s t) (w : t.regsWf) {r : RF} (v : Nat) (hr : canon r.a ∈ l) : OnlyLcs l s (t.setF r v) :=
  h.trans (.ofRaised (.of ((OnlyRegs.refl l t).setF w v hr)))

theorem OnlyLcs.raise (h : OnlyLcs l s t) (w : t.regsWf) {e : Ev} (he : e.page = 4) : OnlyLcs l s (t.raise e) := by
  have k : OnlyRaised e.page l t (t.raise e) := (OnlyRegs.refl l t).raise w (by rw [he]; rfl)
  rw [he] at k
  exact h.trans (.ofRaised k)

theorem OnlyLcs.ok (h : OnlyLcs l s t) : OnlyLcs l s t.ok := h.trans (.ofRaised (.of (OnlyRegs.refl l t).ok))

theorem OnlyLcs.withLcs (h : OnlyLcs l s t) (x : LcsSt) : OnlyLcs l s { t with lcs := x } := h.trans ⟨fun _ _ => rfl, rfl⟩

end OnlyLcs

end Sys2Proof.Machine

namespace Sys2Proof.Laws

open Sys2Proof.Machine

/-! ### Nonces (R453) -/

/-- The state that has drawn its next nonce. -/
def nonceDrawn (s : State) : State := { s with draws := s.draws + 1, lcs := { s.lcs with nonce := some (Config.nonce s.draws) } }

theorem doLcNonce_eq (s : State) : doLcNonce s =
    ((nonceDrawn s).setPair Adr.LCS_NONCE_LO Adr.LCS_NONCE_HI (Config.nonce s.draws).toNat).ansW
      (BitVec.ofNat 32 (Config.nonce s.draws).toNat) := rfl

theorem nonceDrawn_wf {s : State} (w : s.regsWf) : (nonceDrawn s).regsWf := regsWf_congr (s := s) rfl w

theorem doLcNonce_only {s : State} (w : s.regsWf) : OnlyRegs [Adr.LCS_NONCE_LO, Adr.LCS_NONCE_HI] (nonceDrawn s) (doLcNonce s) := by
  rw [doLcNonce_eq]
  exact ((OnlyRegs.refl _ _).setPair (nonceDrawn_wf w) _ (by decide) (by decide)).ansW _

theorem doLcNonce_shown {s : State} (w : s.regsWf) :
    (doLcNonce s).pair Adr.LCS_NONCE_LO Adr.LCS_NONCE_HI = (Config.nonce s.draws).toNat :=
  (pair_setPair (nonceDrawn_wf w) _ (by decide)).trans (Nat.mod_eq_of_lt (Config.nonce s.draws).isLt)

/-! ### The result code (R454, R460) -/

/-- The code of a request that is checked (all but the closing of the debug port): what the checks say, and 7 where the fuses do not take
the blow. -/
theorem lifeCycleCode_eq (s : State) {op : Nat} (arg : Nat) (blows good : Bool) (h3 : op ≠ 3) :
    lifeCycleCode s op arg blows good = if s.lcCode op arg = 1 ∧ blows = true ∧ good = false then 7 else s.lcCode op arg := by
  unfold State.lcCode lifeCycleCode
  rw [if_neg h3]
  cases s.lcAllowed op arg with
  | false => simp
  | true =>
    cases s.lcs.nonce with
    | none => simp
    | some n =>
      cases s.lcSlots op arg with
      | false => simp
      | true =>
        cases s.lcMaker op arg with
        | true =>
          cases hv : ecdsaVerify Config.makerKey (s.lcMsg op arg n) (s.words (Adr.LCS_TOKEN 0) 24) <;> simp [hv]
        | false =>
          by_cases hkey : s.lcs.custHash = some (sha384 s.pubKey)
          · cases hv : ecdsaVerify s.pubKey (s.lcMsg op arg n) (s.words (Adr.LCS_TOKEN 0) 24) <;> simp [hkey, hv]
          · simp [hkey]

theorem lcCode_lt (s : State) (op arg : Nat) : s.lcCode op arg < 8 := by
  unfold State.lcCode
  split
  · decide
  · split
    · decide
    · split
      · decide
      · split
        · decide
        · dsimp only
          generalize (if s.lcMaker op arg = true then Config.makerKey else s.pubKey) = key
          split
          · decide
          · split <;> decide

theorem lifeCycleCode_lt (s : State) {op : Nat} (arg : Nat) (blows good : Bool) (h3 : op ≠ 3) :
    lifeCycleCode s op arg blows good < 8 := by
  rw [lifeCycleCode_eq s arg blows good h3]
  split
  · decide
  · exact lcCode_lt s op arg

/-- Where no fuse is blown, none can fail. -/
theorem lifeCycleCode_unblown (s : State) (op arg : Nat) (g g' : Bool) :
    lifeCycleCode s op arg false g = lifeCycleCode s op arg false g' := by
  unfold lifeCycleCode
  simp only [Bool.false_eq_true, false_and]

/-! ### What every request does (R453, R454) -/

/-- The request's operands stand in `LCS_REQ`. -/
def lcAsked (s : State) (op arg : Nat) : State := (s.setF Fld.LCS_REQ_OP op).setF Fld.LCS_REQ_ARG arg

/-- The nonce is void. -/
def nonceVoid (t : State) : State := { t with lcs := { t.lcs with nonce := none } }

/-- The result of the request stands in `LCS_RESULT`. -/
def lcResulted (t : State) (c : Nat) : State := ((nonceVoid t).setF Fld.LCS_RESULT_CODE c).setF Fld.LCS_RESULT_DONE 1

/-- The request ends with code `c`. -/
def lcEnded (t : State) (c : Nat) : State := ((lcResulted t c).raise Ev.LCS_LC_DONE).ok

/-- The request of code `c` before its end: it performs where the code is 1. -/
def lcTaken (s : State) (op arg c : Nat) : State := if c = 1 then (lcAsked s op arg).lcPerform op arg else lcAsked s op arg

/-- The request of code `c`. -/
def lcRan (s : State) (op arg c : Nat) : State := lcEnded (lcTaken s op arg c) c

theorem doLcReq_eq (s : State) (op arg : Nat) (good : Bool) : doLcReq s op arg good =
    lcRan s op (arg % 256)
      (if s.lcCode op (arg % 256) = 1 ∧ op ≠ 2 ∧ op ≠ 3 ∧ good = false then 7 else s.lcCode op (arg % 256)) := rfl

theorem lcRan_performs (s : State) (op arg : Nat) : lcRan s op arg 1 = lcEnded ((lcAsked s op arg).lcPerform op arg) 1 :=
  congrArg (lcEnded · 1) (if_pos rfl)

theorem lcRan_refused (s : State) (op arg : Nat) {c : Nat} (hc : c ≠ 1) : lcRan s op arg c = lcEnded (lcAsked s op arg) c :=
  congrArg (lcEnded · c) (if_neg hc)

theorem doLcReq_checked {s : State} {op arg : Nat} {good : Bool} (h3 : op ≠ 3) (harg : arg < 256) :
    doLcReq s op arg good = lcRan s op arg (lifeCycleCode s op arg (decide (op ≠ 2)) good) := by
  rw [lifeCycleCode_eq s arg _ good h3, doLcReq_eq, Nat.mod_eq_of_lt harg]
  simp only [ne_eq, decide_eq_true_eq, h3, not_false_eq_true, true_and]

/-- Closing the debug port passes without a check. -/
theorem doLcReq_closes (s : State) (arg : Nat) : doLcReq s 3 arg true = lcRan s 3 (arg % 256) 1 := by
  rw [doLcReq_eq, if_neg (by simp)]
  exact congrArg (lcRan s 3 (arg % 256)) (if_pos rfl)

section Asked

variable {s : State} (w : s.regsWf)
include w

theorem lcAsked_wf (op arg : Nat) : (lcAsked s op arg).regsWf := setF_wf (setF_wf w _ _) _ _

theorem lcAsked_only {l : List Nat} (hl : canon Adr.LCS_REQ ∈ l) (op arg : Nat) : OnlyLcs l s (lcAsked s op arg) :=
  ((OnlyLcs.refl l s).setF w (r := Fld.LCS_REQ_OP) op hl).setF (setF_wf w _ _) (r := Fld.LCS_REQ_ARG) arg hl

end Asked

theorem lcs_lcAsked (s : State) (op arg : Nat) : (lcAsked s op arg).lcs = s.lcs := by
  unfold lcAsked
  rw [setF_lcs, setF_lcs]

theorem lcs_lcEnded (t : State) (c : Nat) : (lcEnded t c).lcs = { t.lcs with nonce := none } := by
  unfold lcEnded lcResulted
  rw [ok_lcs, raise_parts, setF_lcs, setF_lcs]
  rfl

section Ended

variable {t : State} (w : t.regsWf)
include w

theorem nonceVoid_wf : (nonceVoid t).regsWf := regsWf_congr (s := t) rfl w

theorem lcResulted_wf (c : Nat) : (lcResulted t c).regsWf := setF_wf (setF_wf (nonceVoid_wf w) _ _) _ _

theorem lcEnded_only {l : List Nat} {s : State} (c : Nat) (h : OnlyLcs l s t) (hl : canon Adr.LCS_RESULT ∈ l) :
    OnlyLcs l s (lcEnded t c) :=
  ((((h.withLcs _).setF (nonceVoid_wf w) (r := Fld.LCS_RESULT_CODE) c hl).setF (setF_wf (nonceVoid_wf w) _ _)
    (r := Fld.LCS_RESULT_DONE) 1 hl).raise (lcResulted_wf w c) rfl).ok

/-- A field of a word that neither the result nor the event has. -/
theorem f_lcEnded (c : Nat) {q : RF} (hq : canon q.a ∉ evWords 4 ++ [Adr.LCS_RESULT]) : (lcEnded t c).f q = t.f q :=
  (lcEnded_only w c (.refl [Adr.LCS_RESULT] t) (by decide)).1.field q hq

theorem raised_lcEnded (c : Nat) : (lcEnded t c).raised Ev.LCS_LC_DONE :=
  raised_ok (raise_sets (lcResulted_wf w c) (by decide) (by decide))

/-- The end leaves the result as it stands. -/
theorem f_lcEnded_result (c : Nat) {q : RF} (hq : canon q.a = canon Adr.LCS_RESULT) : (lcEnded t c).f q = (lcResulted t c).f q := by
  rw [lcEnded, f_ok]
  exact f_raise (lcResulted_wf w c) rfl (by rw [hq]; decide)

theorem done_lcEnded (c : Nat) : (lcEnded t c).f Fld.LCS_RESULT_DONE = 1 := by
  rw [f_lcEnded_result w c rfl]
  exact f_setF_same (setF_wf (nonceVoid_wf w) _ _) Fld.LCS_RESULT_DONE 1 (by decide) (by decide)

theorem code_lcEnded {c : Nat} (hc : c < 8) : (lcEnded t c).f Fld.LCS_RESULT_CODE = c := by
  rw [f_lcEnded_result w c rfl]
  refine (f_setF_beside (setF_wf (nonceVoid_wf w) _ _) 1 (by decide) (by decide)).trans ?_
  rw [f_setF_same (nonceVoid_wf w) Fld.LCS_RESULT_CODE c (by decide) (by decide)]
  exact Nat.mod_eq_of_lt hc

end Ended

/-! ### What a request performs (R451–R454, R457) -/

/-- The life-cycle controller's own state becomes `x`. -/
abbrev withLcs (s : State) (x : LcsSt) : State := { s with lcs := x }

theorem withLcs_wf {s : State} (w : s.regsWf) (x : LcsSt) : (withLcs s x).regsWf := regsWf_congr (s := s) rfl w

/-- The life-cycle controller after the blow of the fuses of state `arg`, where `d` stands in `LCS_DATA`. -/
def transited (l : LcsSt) (arg : Nat) (d : List Byte) : LcsSt :=
  { l with
    fuses := setNth l.fuses (arg - 1) 3
    custHash := if arg = 2 then some d else l.custHash
    secret := if 4 ≤ arg then some (List.replicate 32 0xFF) else l.secret }

/-- The transition to `arg` is pending. -/
def lcPending (s : State) (arg : Nat) : State := (s.setF Fld.LCS_STATE_PENDING 1).setF Fld.LCS_STATE_TARGET arg

theorem lcPerform_transition (t : State) (arg : Nat) :
    t.lcPerform 1 arg = lcPending (withLcs t (transited t.lcs arg (t.words (Adr.LCS_DATA 0) 12))) arg := by
  unfold State.lcPerform transited
  rw [if_pos rfl]
  by_cases h2 : arg = 2 <;> by_cases h4 : 4 ≤ arg <;> simp only [h2, h4, if_true, if_false] <;> rfl

theorem lcPerform_open (t : State) (arg : Nat) : t.lcPerform 2 arg = t.setDebug true (t.lcMaker 2 arg) := by
  unfold State.lcPerform
  rw [if_neg (by decide), if_pos rfl]

theorem lcMaker_open (s : State) (arg : Nat) : s.lcMaker 2 arg = decide (s.lcs.state ≠ 2) := by
  unfold State.lcMaker
  rw [if_neg (by decide), if_pos rfl]
  exact Bool.eq_iff_iff.2 (by rw [bne_iff_ne, decide_eq_true_iff])

theorem lcPerform_close (t : State) (arg : Nat) : t.lcPerform 3 arg = t.setDebug false false := by
  unfold State.lcPerform
  rw [if_neg (by decide), if_neg (by decide), if_pos rfl]

theorem lcPerform_key (t : State) (arg : Nat) : t.lcPerform 4 arg =
    withLcs t (if arg = 1 then { t.lcs with cfgHash := some (t.words (Adr.LCS_DATA 0) 12) }
      else { t.lcs with lgrHash := some (t.words (Adr.LCS_DATA 0) 12) }) := by
  unfold State.lcPerform
  rw [if_neg (by decide), if_neg (by decide), if_neg (by decide), if_pos rfl]

theorem lcPerform_secret (t : State) (arg : Nat) : t.lcPerform 5 arg =
    withLcs t { t.lcs with secret := some ((t.words (Adr.LCS_DATA 0) 12).take 32) } := by
  unfold State.lcPerform
  rw [if_neg (by decide), if_neg (by decide), if_neg (by decide), if_neg (by decide), if_pos rfl]

/-- The data window does not change while the request's operands are noted. -/
theorem lcData_lcAsked {s : State} (w : s.regsWf) (op arg : Nat) :
    (lcAsked s op arg).words (Adr.LCS_DATA 0) 12 = s.words (Adr.LCS_DATA 0) 12 := by
  have keep (i : Nat) (hi : i < 12) : (lcAsked s op arg).reg (Adr.LCS_DATA 0 + i) = s.reg (Adr.LCS_DATA 0 + i) := by
    refine (lcAsked_only w (l := [Adr.LCS_REQ]) (by decide) op arg).1 _ ?_
    interval_cases i <;> decide
  unfold State.words
  rw [List.flatMap_def, List.flatMap_def, List.map_congr_left fun i hi => congrArg (fun v : Word => leBytes 4 v.toNat)
    (keep i (List.mem_range.1 hi))]

theorem lcs_lcPending (t : State) (arg : Nat) : (lcPending t arg).lcs = t.lcs := by
  unfold lcPending
  rw [setF_lcs, setF_lcs]

section Pending

variable {t : State} (w : t.regsWf) (arg : Nat)
include w

theorem lcPending_wf : (lcPending t arg).regsWf := setF_wf (setF_wf w _ _) _ _

theorem pending_lcPending : (lcPending t arg).f Fld.LCS_STATE_PENDING = 1 :=
  (f_setF_beside (setF_wf w _ _) arg (by decide) (by decide)).trans (f_setF_same w Fld.LCS_STATE_PENDING 1 (by decide) (by decide))

theorem target_lcPending (h : arg < 8) : (lcPending t arg).f Fld.LCS_STATE_TARGET = arg :=
  (f_setF_same (setF_wf w _ _) Fld.LCS_STATE_TARGET arg (by decide) (by decide)).trans (Nat.mod_eq_of_lt h)

theorem lcPending_only {l : List Nat} {s : State} (h : OnlyLcs l s t) (hl : canon Adr.LCS_STATE ∈ l) : OnlyLcs l s (lcPending t arg) :=
  (h.setF w (r := Fld.LCS_STATE_PENDING) 1 hl).setF (setF_wf w _ _) (r := Fld.LCS_STATE_TARGET) arg hl

end Pending

/-! ### The debug port (R457) -/

/-- The debug port's word takes `open_` and `maker`. -/
def debugShown (s : State) (open_ maker : Bool) : State :=
  (s.setF Fld.LCS_DBG_OPEN (b2n open_)).setF Fld.LCS_DBG_MAKER (b2n (open_ && maker))

theorem setDebug_cases (s : State) (open_ maker : Bool) :
    s.setDebug open_ maker = debugShown s open_ maker ∨ s.setDebug open_ maker = (debugShown s open_ maker).raise Ev.LCS_DBG_OPENED := by
  unfold State.setDebug
  dsimp only
  split
  · exact .inr rfl
  · exact .inl rfl

section Debug

variable {t : State} (w : t.regsWf) (o m : Bool)
include w

theorem debugShown_wf : (debugShown t o m).regsWf := setF_wf (setF_wf w _ _) _ _

theorem setDebug_wf : (t.setDebug o m).regsWf := by
  rcases setDebug_cases t o m with h | h <;> rw [h]
  · exact debugShown_wf w o m
  · exact raise_wf (debugShown_wf w o m) _

theorem f_setDebug {q : RF} (hq : canon q.a = canon Adr.LCS_DBG) : (t.setDebug o m).f q = (debugShown t o m).f q := by
  rcases setDebug_cases t o m with h | h <;> rw [h]
  exact f_raise (debugShown_wf w o m) rfl (by rw [hq]; decide)

theorem open_setDebug : (t.setDebug o m).f Fld.LCS_DBG_OPEN = b2n o := by
  rw [f_setDebug w o m rfl]
  refine (f_setF_beside (setF_wf w _ _) _ (by decide) (by decide)).trans ?_
  rw [f_setF_same w Fld.LCS_DBG_OPEN _ (by decide) (by decide)]
  cases o <;> rfl

theorem maker_setDebug : (t.setDebug o m).f Fld.LCS_DBG_MAKER = b2n (o && m) := by
  rw [f_setDebug w o m rfl]
  refine (f_setF_same (setF_wf w _ _) Fld.LCS_DBG_MAKER _ (by decide) (by decide)).trans ?_
  cases (o && m) <;> rfl

theorem setDebug_only {l : List Nat} {s : State} (h : OnlyLcs l s t) (hl : canon Adr.LCS_DBG ∈ l) : OnlyLcs l s (t.setDebug o m) := by
  have k : OnlyLcs l s (debugShown t o m) :=
    (h.setF w (r := Fld.LCS_DBG_OPEN) _ hl).setF (setF_wf w _ _) (r := Fld.LCS_DBG_MAKER) _ hl
  rcases setDebug_cases t o m with e | e <;> rw [e]
  · exact k
  · exact k.raise (debugShown_wf w o m) rfl

end Debug

theorem lcs_setDebug (t : State) (o m : Bool) : (t.setDebug o m).lcs = t.lcs := by
  have shown : (debugShown t o m).lcs = t.lcs := by
    unfold debugShown
    rw [setF_lcs, setF_lcs]
  rcases setDebug_cases t o m with e | e <;> rw [e]
  · exact shown
  · rw [raise_parts]
    exact shown

theorem lcPerform_wf {t : State} (w : t.regsWf) (op arg : Nat) : (t.lcPerform op arg).regsWf := by
  have same (x : LcsSt) : ({ t with lcs := x } : State).regsWf := regsWf_congr (s := t) rfl w
  unfold State.lcPerform
  dsimp only
  split
  · exact setF_wf (setF_wf (same _) _ _) _ _
  · split
    · exact setDebug_wf w _ _
    · split
      · exact setDebug_wf w _ _
      · split
        · exact same _
        · split
          · exact same _
          · exact w

theorem lcTaken_wf {s : State} (w : s.regsWf) (op arg c : Nat) : (lcTaken s op arg c).regsWf := by
  unfold lcTaken
  split
  · exact lcPerform_wf (lcAsked_wf w op arg) op arg
  · exact lcAsked_wf w op arg

/-! ### The life cycle's transitions (R451) -/

theorem lcAllowed_transition {s : State} (arg : Nat) (h : s.lcs.state ≤ 5) :
    s.lcAllowed 1 arg = true ↔ s.f Fld.LCS_STATE_PENDING = 0 ∧
      ((s.lcs.state, arg) ∈ [(0, 1), (1, 2), (2, 3), (2, 4), (3, 4)] ∨ (s.lcs.state < 5 ∧ arg = 5)) := by
  unfold State.lcAllowed
  rw [if_pos rfl]
  generalize s.lcs.state = n at h ⊢
  rw [Bool.and_eq_true]
  refine and_congr ?_ ?_
  · rw [fb_def, Bool.not_eq_true', bne_eq_false_iff_eq]
  · simp only [Bool.or_eq_true, Bool.and_eq_true, beq_iff_eq, bne_iff_ne, List.mem_cons, Prod.mk.injEq, List.not_mem_nil, or_false]
    omega

/-- A transition that is allowed goes to one of the states 1–5. -/
theorem lcAllowed_target {s : State} {arg : Nat} (h : s.lcAllowed 1 arg = true) : 1 ≤ arg ∧ arg ≤ 5 := by
  unfold State.lcAllowed at h
  rw [if_pos rfl] at h
  simp only [Bool.or_eq_true, Bool.and_eq_true, beq_iff_eq, bne_iff_ne] at h
  omega

/-- A request of code 1 was allowed. -/
theorem lcAllowed_of_code {s : State} {op arg : Nat} {blows good : Bool} (h : lifeCycleCode s op arg blows good = 1) :
    s.lcAllowed op arg = true := by
  by_contra hn
  rw [Bool.not_eq_true] at hn
  unfold lifeCycleCode at h
  rw [if_pos hn] at h
  exact absurd h (by decide)

end Sys2Proof.Laws

namespace Sys2Proof.Proofs

open Sys2Proof.Machine Sys2Proof.Laws

/-! ### Nonces and refusals -/

section Requests

variable {s : State} {arg : Nat} {good : Bool} (hp : s.pwr.on = true) (w : s.regsWf)
include hp w

theorem runs_lcNonceDraw : Runs .lcNonceDraw s fun t =>
    t.lcs.nonce = some (Config.nonce s.draws) ∧ t.pair Adr.LCS_NONCE_LO Adr.LCS_NONCE_HI = (Config.nonce s.draws).toNat ∧
    RegsKept [Adr.LCS_NONCE_LO, Adr.LCS_NONCE_HI] s t ∧
    t = { s with regs := t.regs, answer := t.answer, draws := s.draws + 1, lcs := { s.lcs with nonce := t.lcs.nonce } } :=
  .live rfl hp ⟨rfl, doLcNonce_shown w, (doLcNonce_only w).1, (doLcNonce_only w).2⟩

/-- What holds of every request that is checked: its end, and what stays where its code is not 1. -/
theorem runs_request {q : Instr} {op : Nat} {good : Bool} (h3 : op ≠ 3) (harg : arg < 256)
    (he : exec q s = live s (doLcReq s op arg good)) : Runs q s fun t =>
    t.f Fld.LCS_RESULT_CODE = lifeCycleCode s op arg (decide (op ≠ 2)) good ∧ t.f Fld.LCS_RESULT_DONE = 1 ∧
    t.raised Ev.LCS_LC_DONE ∧ t.lcs.nonce = none ∧
    (lifeCycleCode s op arg (decide (op ≠ 2)) good ≠ 1 →
      RegsKept (evWords 4 ++ [Adr.LCS_REQ, Adr.LCS_RESULT]) s t ∧
      t = { s with regs := t.regs, answer := t.answer, lgr := t.lgr, evt := t.evt, lcs := { s.lcs with nonce := none } }) := by
  refine .live he hp ?_
  have hlt := lifeCycleCode_lt s arg (decide (op ≠ 2)) good h3
  rw [doLcReq_checked h3 harg]
  generalize lifeCycleCode s op arg (decide (op ≠ 2)) good = c at hlt ⊢
  have hwf := lcTaken_wf w op arg c
  refine ⟨code_lcEnded hwf hlt, done_lcEnded hwf c, raised_lcEnded hwf c, congrArg LcsSt.nonce (lcs_lcEnded _ c), fun hc => ?_⟩
  · rw [lcRan_refused s op arg hc]
    have only := lcEnded_only (lcAsked_wf w op arg) c (lcAsked_only w (l := [Adr.LCS_REQ, Adr.LCS_RESULT]) (by decide) op arg) (by decide)
    refine ⟨only.1, ?_⟩
    have e := only.2
    rw [lcs_lcEnded, lcs_lcAsked] at e
    exact e

omit w in
/-- A request that ends with code 1 performs. -/
theorem runs_performed {q : Instr} {op : Nat} {good : Bool} {P : State → Prop} (h3 : op ≠ 3) (harg : arg < 256)
    (he : exec q s = live s (doLcReq s op arg good)) (hc : lifeCycleCode s op arg (decide (op ≠ 2)) good = 1)
    (h : P (lcEnded ((lcAsked s op arg).lcPerform op arg) 1)) : Runs q s P := by
  refine .live he hp ?_
  rw [doLcReq_checked h3 harg, hc, lcRan_performs]
  exact h

theorem runs_transition (harg : arg < 256) (hc : lifeCycleCode s 1 arg true true = 1) : Runs (.lcTransition arg true) s fun t =>
    t.f Fld.LCS_STATE_PENDING = 1 ∧ t.f Fld.LCS_STATE_TARGET = arg ∧ t.lcs.fuses = setNth s.lcs.fuses (arg - 1) 3 ∧
    t.lcs.state = s.lcs.state ∧ (arg = 2 → t.lcs.custHash = some (s.words (Adr.LCS_DATA 0) 12)) ∧
    (4 ≤ arg → t.lcs.secret = some (List.replicate 32 0xFF)) ∧ OnlyLcs [Adr.LCS_REQ, Adr.LCS_RESULT, Adr.LCS_STATE] s t := by
  have hlt := lcAllowed_target (lcAllowed_of_code hc)
  refine runs_performed hp (op := 1) (by decide) harg rfl hc ?_
  rw [lcPerform_transition, lcData_lcAsked w, lcs_lcAsked]
  have hwf := withLcs_wf (lcAsked_wf w 1 arg) (transited s.lcs arg (s.words (Adr.LCS_DATA 0) 12))
  have hl : (lcEnded (lcPending (withLcs (lcAsked s 1 arg) (transited s.lcs arg (s.words (Adr.LCS_DATA 0) 12))) arg) 1).lcs =
      { transited s.lcs arg (s.words (Adr.LCS_DATA 0) 12) with nonce := none } := by
    rw [lcs_lcEnded, lcs_lcPending]
  refine ⟨?_, ?_, ?_, ?_, fun h2 => ?_, fun h4 => ?_, ?_⟩
  · exact (f_lcEnded (lcPending_wf hwf arg) 1 (by decide)).trans (pending_lcPending hwf arg)
  · exact (f_lcEnded (lcPending_wf hwf arg) 1 (by decide)).trans (target_lcPending hwf arg (by omega))
  · rw [hl]
    rfl
  · rw [hl]
    rfl
  · rw [hl]
    exact if_pos h2
  · rw [hl]
    exact if_pos h4
  · exact lcEnded_only (lcPending_wf hwf arg) 1 (lcPending_only hwf arg ((lcAsked_only w (by decide) 1 arg).withLcs _) (by decide))
      (by decide)

theorem runs_openDebug (harg : arg < 256) (hc : lifeCycleCode s 2 arg false true = 1) : Runs (.lcOpenDebug arg) s fun t =>
    t.f Fld.LCS_DBG_OPEN = 1 ∧ t.f Fld.LCS_DBG_MAKER = b2n (decide (s.lcs.state ≠ 2)) ∧
    OnlyLcs [Adr.LCS_REQ, Adr.LCS_RESULT, Adr.LCS_DBG] s t := by
  refine runs_performed hp (op := 2) (by decide) harg rfl hc ?_
  have wa := lcAsked_wf w 2 arg
  rw [lcPerform_open]
  refine ⟨(f_lcEnded (setDebug_wf wa _ _) 1 (by decide)).trans (open_setDebug wa _ _), ?_, ?_⟩
  · rw [f_lcEnded (setDebug_wf wa _ _) 1 (by decide), maker_setDebug wa, Bool.true_and, lcMaker_open, lcs_lcAsked]
  · exact lcEnded_only (setDebug_wf wa _ _) 1 (setDebug_only wa _ _ (lcAsked_only w (by decide) 2 arg) (by decide)) (by decide)

theorem runs_closeDebug : Runs (.lcCloseDebug arg) s fun t =>
    t.f Fld.LCS_DBG_OPEN = 0 ∧ t.f Fld.LCS_DBG_MAKER = 0 ∧ t.f Fld.LCS_RESULT_CODE = 1 ∧ t.f Fld.LCS_RESULT_DONE = 1 ∧
    t.raised Ev.LCS_LC_DONE ∧ t.lcs = { s.lcs with nonce := none } ∧ OnlyLcs [Adr.LCS_REQ, Adr.LCS_RESULT, Adr.LCS_DBG] s t := by
  refine .live rfl hp ?_
  have wa := lcAsked_wf w 3 (arg % 256)
  have wd := setDebug_wf wa false false
  rw [doLcReq_closes, lcRan_performs, lcPerform_close]
  refine ⟨?_, ?_, code_lcEnded wd (by decide), done_lcEnded wd 1, raised_lcEnded wd 1, ?_, ?_⟩
  · exact (f_lcEnded wd 1 (by decide)).trans (open_setDebug wa _ _)
  · exact (f_lcEnded wd 1 (by decide)).trans (maker_setDebug wa _ _)
  · rw [lcs_lcEnded, lcs_setDebug, lcs_lcAsked]
  · exact lcEnded_only wd 1 (setDebug_only wa _ _ (lcAsked_only w (by decide) 3 (arg % 256)) (by decide)) (by decide)

theorem runs_programKey (harg : arg < 256) (hc : lifeCycleCode s 4 arg true true = 1) : Runs (.lcProgramKey arg true) s fun t =>
    (arg = 1 → t.lcs.cfgHash = some (s.words (Adr.LCS_DATA 0) 12) ∧ t.lcs.lgrHash = s.lcs.lgrHash) ∧
    (arg = 2 → t.lcs.lgrHash = some (s.words (Adr.LCS_DATA 0) 12) ∧ t.lcs.cfgHash = s.lcs.cfgHash) ∧
    OnlyLcs [Adr.LCS_REQ, Adr.LCS_RESULT] s t := by
  refine runs_performed hp (op := 4) (by decide) harg rfl hc ?_
  rw [lcPerform_key, lcData_lcAsked w, lcs_lcAsked]
  refine ⟨fun h1 => ?_, fun h2 => ?_, ?_⟩
  · rw [lcs_lcEnded, h1]
    exact ⟨rfl, rfl⟩
  · rw [lcs_lcEnded, h2]
    exact ⟨rfl, rfl⟩
  · exact lcEnded_only (withLcs_wf (lcAsked_wf w 4 arg) _) 1 ((lcAsked_only w (by decide) 4 arg).withLcs _) (by decide)

theorem runs_programSecret (harg : arg < 256) (hc : lifeCycleCode s 5 arg true true = 1) : Runs (.lcProgramSecret arg true) s fun t =>
    t.lcs.secret = some ((s.words (Adr.LCS_DATA 0) 12).take 32) ∧ OnlyLcs [Adr.LCS_REQ, Adr.LCS_RESULT] s t := by
  refine runs_performed hp (op := 5) (by decide) harg rfl hc ?_
  rw [lcPerform_secret, lcData_lcAsked w, lcs_lcAsked]
  refine ⟨?_, ?_⟩
  · rw [lcs_lcEnded]
  · exact lcEnded_only (withLcs_wf (lcAsked_wf w 5 arg) _) 1 ((lcAsked_only w (by decide) 5 arg).withLcs _) (by decide)

end Requests

/-- Settles O10: `runs_request`, whose code is the order of the checks. -/
theorem lifeCycleNoncesAndGuards : Obligations.LifeCycleNoncesAndGuards := by
  refine ⟨fun s hp w => runs_lcNonceDraw hp w, fun s arg good hp w harg q hq => ?_⟩
  simp only [List.mem_cons, List.not_mem_nil, or_false] at hq
  rcases hq with rfl | rfl | rfl | rfl
  · exact runs_request hp w (op := 1) (by decide) harg rfl
  · have h := runs_request hp w (q := .lcOpenDebug arg) (op := 2) (good := true) (by decide) harg rfl
    rw [show lifeCycleCode s 2 arg (decide (2 ≠ 2)) true = lifeCycleCode s 2 arg false good from
      lifeCycleCode_unblown s 2 arg true good] at h
    exact h
  · exact runs_request hp w (op := 4) (by decide) harg rfl
  · exact runs_request hp w (op := 5) (by decide) harg rfl

/-- Settles O11: what a request performs, operation by operation, and the table of the transitions. -/
theorem lifeCyclePerforms : Obligations.LifeCyclePerforms :=
  ⟨fun _ _ hp w harg =>
      ⟨runs_transition hp w harg, runs_openDebug hp w harg, runs_programKey hp w harg, runs_programSecret hp w harg⟩,
    fun _ _ hp w => runs_closeDebug hp w, fun _ arg h => lcAllowed_transition arg h⟩

end Sys2Proof.Proofs

end

section
/-! ## Test multiplexer, boundary scan and debug access (R457–R459)

The lemmas about the model's operations stand first, the statement's proof after them. -/

namespace Sys2Proof.Laws

open Sys2Proof.Machine

/-! ### The test multiplexer (R450, R458) -/

/-- Signal `v` names is chosen for pin `k`. -/
def tmxChosen (s : State) (k : Nat) (v : Word) : State :=
  (s.setF (Fld.TMX_SEL_EN k) (bitsOf v.toNat 31 31)).setF (Fld.TMX_SEL_SIG k) (bitsOf v.toNat 8 0)

/-- The choice, with its bit of `REFUSED`. -/
def tmxSelected (s : State) (k : Nat) (v : Word) : State :=
  (tmxChosen s k v).setF ⟨Adr.TMX_STAT, k, k⟩ (b2n !(s.tmxAllows (bitsOf v.toNat 8 0)))

theorem doTmxSel_closed {s : State} (k : Nat) (v : Word) (h : s.lcs.state = 3 ∨ s.lcs.state = 5) : doTmxSel s k v = s.ok := if_pos h

theorem doTmxSel_selected {s : State} (k : Nat) (v : Word) (h : ¬(s.lcs.state = 3 ∨ s.lcs.state = 5)) :
    doTmxSel s k v = (tmxSelected s k v).ok := if_neg h

theorem tmxAllows_closed {s : State} (h : s.lcs.state = 3 ∨ s.lcs.state = 5) (sig : Nat) : s.tmxAllows sig = false := by
  unfold State.tmxAllows
  rcases h with h | h <;> rw [h] <;> rfl

/-- Outside `FIELD` and `SPENT` the state closes the signals from 64 on in `INTEGRATE`, and no other. -/
theorem not_tmxAllows {s : State} (h3 : s.lcs.state ≠ 3) (h5 : s.lcs.state ≠ 5) (sig : Nat) :
    (!s.tmxAllows sig) = (s.lcs.state = 2 && decide (64 ≤ sig)) := by
  unfold State.tmxAllows
  by_cases h2 : s.lcs.state = 2
  · rw [if_pos h2, decide_eq_true h2, Bool.true_and, ← decide_not]
    exact decide_eq_decide.2 Nat.not_lt
  · rw [if_neg h2, decide_eq_false h2, Bool.false_and, bne_iff_ne.2 h3, bne_iff_ne.2 h5]
    rfl

theorem tmxAllows_congr {s t : State} (h : t.lcs = s.lcs) (sig : Nat) : t.tmxAllows sig = s.tmxAllows sig := by
  unfold State.tmxAllows
  rw [h]

/-- In `FIELD` and `SPENT` every observation pin is driven low. -/
theorem obs_closed {s : State} (h : s.lcs.state = 3 ∨ s.lcs.state = 5) (k : Nat) : s.obs k = none := by
  unfold State.obs
  rw [tmxAllows_closed h, Bool.and_false]
  rfl

theorem obs_ok (s : State) (k : Nat) : s.ok.obs k = s.obs k := by
  unfold State.obs
  rw [tmxAllows_congr (ok_lcs s), fb_def, fb_def, f_ok, f_ok]

section Selected

variable {s : State} (w : s.regsWf) {k : Nat} (hk : k < 8) (v : Word)

theorem lcs_tmxSelected : (tmxSelected s k v).lcs = s.lcs := by
  unfold tmxSelected tmxChosen
  rw [setF_lcs, setF_lcs, setF_lcs]

include hk

theorem canon_tmxSel : canon (Adr.TMX_SEL k) = Adr.TMX_SEL k := canon_body (by unfold Adr.TMX_SEL; omega)

theorem tmxSel_ne_stat : canon (Adr.TMX_SEL k) ≠ canon Adr.TMX_STAT := by
  rw [canon_tmxSel hk]
  exact show 5184 + k ≠ 5128 by omega

include w

omit hk in
theorem tmxChosen_wf : (tmxChosen s k v).regsWf := setF_wf (setF_wf w _ _) _ _

theorem en_tmxSelected : (tmxSelected s k v).f (Fld.TMX_SEL_EN k) = bitsOf v.toNat 31 31 := by
  refine (f_setF_ne (tmxChosen_wf w v) _ (tmxSel_ne_stat hk)).trans ?_
  refine (f_setF_beside (setF_wf w _ _) _ (by decide) (by decide)).trans ?_
  exact (f_setF_at w _ ⟨by decide, by decide⟩).trans (Nat.mod_eq_of_lt (bitsOf_lt _ _ _))

theorem sig_tmxSelected : (tmxSelected s k v).f (Fld.TMX_SEL_SIG k) = bitsOf v.toNat 8 0 := by
  refine (f_setF_ne (tmxChosen_wf w v) _ (tmxSel_ne_stat hk)).trans ?_
  exact (f_setF_at (setF_wf w _ _) _ ⟨by decide, by decide⟩).trans (Nat.mod_eq_of_lt (bitsOf_lt _ _ _))

theorem refused_tmxSelected : (tmxSelected s k v).f ⟨Adr.TMX_STAT, k, k⟩ = b2n !(s.tmxAllows (bitsOf v.toNat 8 0)) := by
  refine (f_setF_same (tmxChosen_wf w v) ⟨Adr.TMX_STAT, k, k⟩ _ (Nat.le_refl k) (show k < 32 by omega)).trans ?_
  rw [show k + 1 - k = 1 by omega, pow_one, b2n_mod]

theorem tmxSelected_only : OnlyRegs [Adr.TMX_SEL k, Adr.TMX_STAT] s (tmxSelected s k v) := by
  have hstat : canon Adr.TMX_STAT ∈ [Adr.TMX_SEL k, Adr.TMX_STAT] := List.mem_cons_of_mem _ (by decide)
  have hsel : canon (Adr.TMX_SEL k) ∈ [Adr.TMX_SEL k, Adr.TMX_STAT] := by
    rw [canon_tmxSel hk]
    exact List.mem_cons_self
  exact (((OnlyRegs.refl _ s).setF w (r := Fld.TMX_SEL_EN k) _ hsel).setF (setF_wf w _ _) (r := Fld.TMX_SEL_SIG k) _ hsel).setF
    (tmxChosen_wf w v) (r := ⟨Adr.TMX_STAT, k, k⟩) _ hstat

/-- The pin shows the chosen signal where it is enabled and the state opens it. -/
theorem obs_tmxSelected : (tmxSelected s k v).obs k =
    if bitOf v.toNat 31 && s.tmxAllows (bitsOf v.toNat 8 0) then some (bitsOf v.toNat 8 0) else none := by
  have hen : (tmxSelected s k v).fb (Fld.TMX_SEL_EN k) = bitOf v.toNat 31 := by
    rw [fb_def, en_tmxSelected w hk v, bitOf_eq_bitsOf, bitsOf_one]
    rcases Nat.mod_two_eq_zero_or_one (v.toNat / 2 ^ 31) with h | h <;> rw [h] <;> rfl
  unfold State.obs
  rw [sig_tmxSelected w hk v, hen, tmxAllows_congr (lcs_tmxSelected v)]

end Selected

/-! ### Boundary scan (R459) -/

theorem muted_iff (s : State) : s.muted = true ↔ s.tap.ir = .extest ∨ s.tap.ir = .clamp ∨ s.tap.ir = .highz := by
  unfold State.muted
  simp only [Bool.or_eq_true, beq_iff_eq]

theorem live_on {s : State} (hp : s.pwr.on = true) (t : State) : live s t = .next t := congrArg Host.Outcome.next (if_pos hp)

/-! ### Debug access (R457) -/

/-- The cores that a write of `h` holds halted: with the maker key every core as named, else the shepherd core as before. -/
def haltedAfter (s : State) (h : Nat) : Nat := if s.fb Fld.LCS_DBG_MAKER then h % 32 else h % 16 + (if bitOf s.lcs.halted 4 then 16 else 0)

theorem dbgHalt_eq (s : State) (h : Nat) : s.dbgHalt h =
    if bitOf (haltedAfter s h) 4 && !bitOf s.lcs.halted 4 then
      ({ s with lcs := { s.lcs with halted := haltedAfter s h } } : State).diagFail 4
    else { s with lcs := { s.lcs with halted := haltedAfter s h } } := rfl

theorem bitOf_haltedAfter (s : State) (h : Nat) :
    bitOf (haltedAfter s h) 4 = if s.fb Fld.LCS_DBG_MAKER then bitOf h 4 else bitOf s.lcs.halted 4 := by
  unfold haltedAfter
  split
  · exact congrArg (· == 1) (show h % 32 / 2 ^ 4 % 2 = h / 2 ^ 4 % 2 by omega)
  · cases bitOf s.lcs.halted 4
    · exact beq_eq_false_iff_ne.2 (show (h % 16 + 0) / 2 ^ 4 % 2 ≠ 1 by omega)
    · exact beq_iff_eq.2 (show (h % 16 + 16) / 2 ^ 4 % 2 = 1 by omega)

/-- Only the maker key halts the shepherd core anew. -/
theorem dbgHalt_quiet {s : State} {h : Nat} (hq : s.fb Fld.LCS_DBG_MAKER = false ∨ bitOf h 4 = false ∨ bitOf s.lcs.halted 4 = true) :
    s.dbgHalt h = { s with lcs := { s.lcs with halted := haltedAfter s h } } := by
  rw [dbgHalt_eq, bitOf_haltedAfter]
  refine if_neg ?_
  rcases hq with e | e | e
  · rw [e, if_neg Bool.false_ne_true, Bool.and_not_self]
    exact Bool.false_ne_true
  · rw [e]
    split
    · exact Bool.false_ne_true
    · rw [Bool.and_not_self]
      exact Bool.false_ne_true
  · rw [e, Bool.not_true, Bool.and_false]
    exact Bool.false_ne_true

theorem dbgHalt_fails {s : State} {h : Nat} (hm : s.fb Fld.LCS_DBG_MAKER = true) (h4 : bitOf h 4 = true)
    (hold : bitOf s.lcs.halted 4 = false) :
    s.dbgHalt h = ({ s with lcs := { s.lcs with halted := h % 32 } } : State).diagFail 4 := by
  have e : haltedAfter s h = h % 32 := if_pos hm
  rw [dbgHalt_eq, bitOf_haltedAfter, e, hm, if_pos rfl, h4, hold]
  exact if_pos rfl

theorem raised_dbgHalt {s : State} (w : s.regsWf) {h : Nat} (hm : s.fb Fld.LCS_DBG_MAKER = true) (h4 : bitOf h 4 = true)
    (hold : bitOf s.lcs.halted 4 = false) : (s.dbgHalt h).raised Ev.SAF_DIAG_FAIL := by
  have wl : ({ s with lcs := { s.lcs with halted := h % 32 } } : State).regsWf := regsWf_congr (s := s) rfl w
  rw [dbgHalt_fails hm h4 hold]
  exact raised_diagFail wl 4

/-- The TAP holds `DBG_ACCESS`. -/
abbrev dbgTapped (s : State) : State := { s with tap := { s.tap with ir := .dbgAccess } }

end Sys2Proof.Laws

namespace Sys2Proof.Proofs

open Sys2Proof.Machine Sys2Proof.Laws

section Ports

variable {s : State} (hp : s.pwr.on = true)
include hp

theorem runs_tmxSelect (w : s.regsWf) {k : Nat} (hk : k < 8) (v : Word) : Runs (.tmxSelect k v) s fun t =>
    ((s.lcs.state = 3 ∨ s.lcs.state = 5) → t = s.ok ∧ t.obs k = none) ∧
    (s.lcs.state ≠ 3 → s.lcs.state ≠ 5 →
      t.f (Fld.TMX_SEL_EN k) = bitsOf v.toNat 31 31 ∧ t.f (Fld.TMX_SEL_SIG k) = bitsOf v.toNat 8 0 ∧
      t.f ⟨Adr.TMX_STAT, k, k⟩ = b2n (s.lcs.state = 2 && decide (64 ≤ bitsOf v.toNat 8 0)) ∧
      (t.obs k = if bitOf v.toNat 31 && !(s.lcs.state = 2 && decide (64 ≤ bitsOf v.toNat 8 0)) then some (bitsOf v.toNat 8 0) else none) ∧
      OnlyRegs [Adr.TMX_SEL k, Adr.TMX_STAT] s t) := by
  refine .liveIf rfl hp (decide_eq_true hk) ⟨fun h => ?_, fun h3 h5 => ?_⟩
  · rw [doTmxSel_closed k v h]
    exact ⟨rfl, (obs_ok s k).trans (obs_closed h k)⟩
  · rw [doTmxSel_selected k v (not_or.2 ⟨h3, h5⟩), ← not_tmxAllows h3 h5, Bool.not_not, f_ok, f_ok, f_ok, obs_ok]
    exact ⟨en_tmxSelected w hk v, sig_tmxSelected w hk v, refused_tmxSelected w hk v, obs_tmxSelected w hk v,
      (tmxSelected_only w hk v).ok⟩

theorem runs_dbgAccess_closed (ho : s.fb Fld.LCS_DBG_OPEN = false) (q : Option Req) (h : Option Nat) : Runs (.dbgAccess q h) s fun t =>
    t = { s with tap := { s.tap with ir := .bypass, out := 0 } } :=
  .live rfl hp (if_neg (ne_true_of_eq_false ho))

variable (ho : s.fb Fld.LCS_DBG_OPEN = true)
include ho

theorem runs_dbgAccess_idle : Runs (.dbgAccess none none) s fun t => t = { s with tap := { s.tap with ir := .dbgAccess } } :=
  .live rfl hp (if_pos ho)

theorem runs_dbgAccess_request (r : Req) : Runs (.dbgAccess (some r) none) s fun t =>
    t = (({ s with tap := { s.tap with ir := .dbgAccess } } : State).fabric 22 r.kind r.addr r.size r.data r.en).paceAll :=
  .live rfl hp (if_pos ho)

/-- A halt is the halt of the state whose TAP holds `DBG_ACCESS`. -/
theorem runs_dbgAccess_halt {P : State → Prop} {h : Nat} (hP : P ((dbgTapped s).dbgHalt h)) :
    Runs (.dbgAccess none (some h)) s P := by
  refine .live rfl hp ?_
  rw [if_pos ho]
  exact hP

end Ports

/-- Settles O12: the multiplexer's selection, the boundary-scan instructions, and debug access with the port closed and open. -/
theorem debugAndScanPorts : Obligations.DebugAndScanPorts := by
  refine ⟨fun s k v hp w hk => runs_tmxSelect hp w hk v, fun s pins chain hp => ?_,
    fun s hp w => ⟨runs_dbgAccess_closed hp, fun ho => ?_⟩⟩
  · exact ⟨live_on hp _, live_on hp _, live_on hp _, live_on hp _, live_on hp _, live_on hp _, fun i => muted_iff _⟩
  · refine ⟨runs_dbgAccess_idle hp ho, runs_dbgAccess_request hp ho, fun h hq => ?_, fun h hm h4 hold => ?_⟩
    · refine runs_dbgAccess_halt hp ho ?_
      rw [dbgHalt_quiet (s := dbgTapped s) hq]
      exact ⟨rfl, rfl⟩
    · have wt : (dbgTapped s).regsWf := regsWf_congr (s := s) rfl w
      exact runs_dbgAccess_halt hp ho ⟨dbgHalt_fails (s := dbgTapped s) hm h4 hold, raised_dbgHalt wt hm h4 hold⟩

end Sys2Proof.Proofs

end

section
/-! ## Header words and event routes

`EVENT_SET`, `LOCK`, `QUIESCE`, `ENABLE` and `EVT_ROUTE` (R24, R27, R32, R497–R499). A page that shares its block's header folds onto the
block's own (`canon`, `blockPage`). -/

namespace Sys2Proof.Laws

open Sys2Proof.Machine

/-! ### Words that fold onto one home -/

/-- Addresses of one home read the same word. -/
theorem reg_of_canon (s : State) {a b : Nat} (h : canon a = canon b) : s.reg a = s.reg b := by
  unfold State.reg
  rw [h]

/-- The block's own page folds no further. -/
theorem blockPage_idem (p : Nat) : blockPage (blockPage p) = blockPage p := by
  unfold blockPage
  split_ifs <;> omega

theorem blockPage_ne_ledger {p : Nat} (h : p ≠ 148) : blockPage p ≠ 148 := by
  unfold blockPage
  split_ifs <;> omega

theorem blockPage_ledger : blockPage 148 = 148 := blockPage_own (by decide)

/-- A page's control word has the home of its block's. -/
theorem canon_ctrl (p : Nat) : canon (hdr (blockPage p) 2) = canon (hdr p 2) := by
  by_cases h : p = 148
  · rw [h, blockPage_ledger]
  · have hq := blockPage_ne_ledger h
    have e (q : Nat) (hne : q ≠ 148) : canon (hdr q 2) = blockPage q * 1024 + 2 := by
      unfold hdr
      rw [canon_head (by omega) (by omega) (by omega), show (q * 1024 + 2) / 1024 = q by omega, show (q * 1024 + 2) % 1024 = 2 by omega]
    rw [e _ hq, e _ h, blockPage_idem]

theorem canon_lock (p : Nat) : canon (hdr p 7) = hdr p 7 := canon_body (by unfold hdr; omega)

/-- A bit of the block's control word, as a field of the page's. -/
theorem ctrlBit_eq (s : State) (p i : Nat) : bitOf (s.reg (blockPage p * 1024 + 2)).toNat i = (s.f ⟨hdr p 2, i, i⟩ == 1) := by
  rw [show blockPage p * 1024 + 2 = hdr (blockPage p) 2 from rfl, reg_of_canon s (canon_ctrl p), bitOf_eq_bitsOf]
  rfl

theorem quiesced_eq (s : State) (p : Nat) : s.quiesced (blockPage p) = (s.f ⟨hdr p 2, 1, 1⟩ == 1) := ctrlBit_eq s p 1

theorem enabled_eq (s : State) (p : Nat) : s.enabled (blockPage p) = (s.f ⟨hdr p 2, 2, 2⟩ == 1) := ctrlBit_eq s p 2

/-! ### Setting events (R499) -/

/-- The event word of page `p` with the events of `v` asserted. -/
def eventsSet (s : State) (p v : Nat) : State := s.setReg (hdr p 4) (s.reg (hdr p 4) ||| BitVec.ofNat 32 (v &&& evMask p))

theorem raiseBits_rings (s : State) (p v : Nat) : Rings (eventsSet s p v) (s.raiseBits p v) := Rings.linesFrom 4 _ p _

theorem bitOf_testBit (x i : Nat) : bitOf x i = x.testBit i := (Nat.testBit_eq_decide_div_mod_eq ..).symm

/-- A bit of the events of `v` among those of `m`. -/
theorem bitOf_masked {v m b : Nat} (hb : b < 32) (hv : bitOf v b = true) (hm : bitOf m b = true) :
    bitOf (BitVec.ofNat 32 (v &&& m)).toNat b = true := by
  rw [bitOf_testBit] at hv hm ⊢
  rw [BitVec.toNat_ofNat, Nat.testBit_mod_two_pow, Nat.testBit_and, hv, hm, decide_eq_true hb]
  rfl

section Events

variable {s : State} (w : s.regsWf)
include w

/-- Off the ledger's page, raising sets exactly the events named. -/
theorem event_raiseBits {p : Nat} (hp : p ≠ 148) (hb : blockPage p = p) (v : Nat) :
    (s.raiseBits p v).reg (hdr p 4) = (s.reg (hdr p 4) ||| BitVec.ofNat 32 (v &&& evMask p)) := by
  have hring : canon (hdr p 4) ∉ ringWords := by
    rw [canon_event, hb]
    unfold hdr ringWords Adr.LGR_CNT_A Adr.LGR_CNT_B Adr.LGR_FLAGS hdr
    simp only [List.mem_cons, List.not_mem_nil, or_false, not_or]
    omega
  rw [(raiseBits_rings s p v).kept (setReg_wf w _ _) _ hring]
  exact reg_setReg_same w _ _

/-- On every page an event that is named is set. -/
theorem bit_raiseBits (p v : Nat) {b : Nat} (hb : b < 32) (hv : bitOf v b = true) (hm : bitOf (evMask p) b = true) :
    bitOf ((s.raiseBits p v).reg (hdr p 4)).toNat b = true := by
  refine (raiseBits_rings s p v).stays (setReg_wf w _ _) p b ?_
  have hset : (eventsSet s p v).reg (hdr p 4) = (s.reg (hdr p 4) ||| BitVec.ofNat 32 (v &&& evMask p)) := reg_setReg_same w _ _
  rw [hset, BitVec.toNat_or, bitOf_or, bitOf_masked hb hv hm, Bool.or_true]

end Events

/-! ### Control words (R32, R497) -/

theorem doEnable_fixed {s : State} {p : Nat} (h : fixedPage p = true) (on : Bool) : doEnable s p on = s.ok :=
  congrArg State.ok (if_pos h)

theorem doEnable_free {s : State} {p : Nat} (h : fixedPage p = false) (on : Bool) :
    doEnable s p on = (s.setF ⟨hdr p 2, 2, 2⟩ (b2n on)).ok := congrArg State.ok (if_neg (ne_true_of_eq_false h))

section Control

variable {s : State} (w : s.regsWf) (p : Nat) (on : Bool)
include w

/-- A bit of the control word that is written. -/
theorem ctrlBit_written {i : Nat} (hi : i < 32) : (s.setF ⟨hdr p 2, i, i⟩ (b2n on)).f ⟨hdr p 2, i, i⟩ = b2n on := by
  refine (f_setF_at w _ ⟨Nat.le_refl i, hi⟩).trans ?_
  rw [show i + 1 - i = 1 by omega, pow_one, b2n_mod]

theorem quiesced_doQuiesce : (doQuiesce s p on).quiesced (blockPage p) = on := by
  rw [quiesced_eq, doQuiesce, f_ok, ctrlBit_written w p on (by decide)]
  cases on <;> rfl

theorem enabled_doQuiesce : (doQuiesce s p on).enabled (blockPage p) = s.enabled (blockPage p) := by
  rw [enabled_eq, enabled_eq, doQuiesce, f_ok, f_setF_beside w _ (by decide) (by decide)]

theorem doQuiesce_only : OnlyRegs [canon (hdr p 2)] s (doQuiesce s p on) :=
  ((OnlyRegs.refl _ s).setF w (r := ⟨hdr p 2, 1, 1⟩) _ List.mem_cons_self).ok

variable {p} (hfix : fixedPage p = false)
include hfix

theorem enabled_doEnable : (doEnable s p on).enabled (blockPage p) = on := by
  rw [enabled_eq, doEnable_free hfix, f_ok, ctrlBit_written w p on (by decide)]
  cases on <;> rfl

theorem quiesced_doEnable : (doEnable s p on).quiesced (blockPage p) = s.quiesced (blockPage p) := by
  rw [quiesced_eq, quiesced_eq, doEnable_free hfix, f_ok, f_setF_beside w _ (by decide) (by decide)]

theorem doEnable_only : OnlyRegs [canon (hdr p 2)] s (doEnable s p on) := by
  rw [doEnable_free hfix]
  exact ((OnlyRegs.refl _ s).setF w (r := ⟨hdr p 2, 2, 2⟩) _ List.mem_cons_self).ok

end Control

/-! ### Event routes (R24, R27) -/

/-- The route of source `n` but its `SHP` field. -/
def routed3 (s : State) (n x : Nat) : State :=
  ((s.setF (Fld.EVT_ROUTE_LGR n) (bitsOf x 24 24)).setF (Fld.EVT_ROUTE_PRIO n) (bitsOf x 18 16)).setF (Fld.EVT_ROUTE_CORE n) (bitsOf x 3 0)

/-- The route of source `n` as master `m` writes it. -/
def routeWritten (s : State) (m n x : Nat) : State :=
  if m = 4 then (routed3 s n x).setF (Fld.EVT_ROUTE_SHP n) (bitsOf x 8 8) else routed3 s n x

theorem doEvtRoute_locked {s : State} {m n : Nat} {v : Word} (h : s.locked (Adr.EVT_ROUTE n) = true) : doEvtRoute s m n v = s.ok :=
  if_pos h

theorem doEvtRoute_written {s : State} {m n : Nat} {v : Word} (h : s.locked (Adr.EVT_ROUTE n) = false) :
    doEvtRoute s m n v = (routeWritten s m n v.toNat).ok := if_neg (ne_true_of_eq_false h)

section Route

variable {s : State} (w : s.regsWf) (m n x : Nat)
include w

theorem routed3_wf : (routed3 s n x).regsWf := setF_wf (setF_wf (setF_wf w _ _) _ _) _ _

theorem lgr_routed3 : (routed3 s n x).f (Fld.EVT_ROUTE_LGR n) = bitsOf x 24 24 := by
  refine (f_setF_beside (setF_wf (setF_wf w _ _) _ _) _ (by decide) (by decide)).trans ?_
  refine (f_setF_beside (setF_wf w _ _) _ (by decide) (by decide)).trans ?_
  exact (f_setF_at w _ ⟨by decide, by decide⟩).trans (Nat.mod_eq_of_lt (bitsOf_lt _ _ _))

theorem prio_routed3 : (routed3 s n x).f (Fld.EVT_ROUTE_PRIO n) = bitsOf x 18 16 := by
  refine (f_setF_beside (setF_wf (setF_wf w _ _) _ _) _ (by decide) (by decide)).trans ?_
  exact (f_setF_at (setF_wf w _ _) _ ⟨by decide, by decide⟩).trans (Nat.mod_eq_of_lt (bitsOf_lt _ _ _))

theorem core_routed3 : (routed3 s n x).f (Fld.EVT_ROUTE_CORE n) = bitsOf x 3 0 :=
  (f_setF_at (setF_wf (setF_wf w _ _) _ _) _ ⟨by decide, by decide⟩).trans (Nat.mod_eq_of_lt (bitsOf_lt _ _ _))

theorem shp_routed3 : (routed3 s n x).f (Fld.EVT_ROUTE_SHP n) = s.f (Fld.EVT_ROUTE_SHP n) := by
  refine (f_setF_beside (setF_wf (setF_wf w _ _) _ _) _ (by decide) (by decide)).trans ?_
  refine (f_setF_beside (setF_wf w _ _) _ (by decide) (by decide)).trans ?_
  exact f_setF_beside w _ (by decide) (by decide)

/-- A field of the route other than `SHP` is written alike for every master. -/
theorem f_routeWritten {hi lo : Nat} (hf : lo ≤ hi ∧ (hi < 8 ∨ 8 < lo)) :
    (routeWritten s m n x).f ⟨Adr.EVT_ROUTE n, hi, lo⟩ = (routed3 s n x).f ⟨Adr.EVT_ROUTE n, hi, lo⟩ := by
  unfold routeWritten
  split
  · exact f_setF_beside (routed3_wf w n x) _ (by decide) hf
  · rfl

theorem shp_routeWritten : (routeWritten s m n x).f (Fld.EVT_ROUTE_SHP n) = if m = 4 then bitsOf x 8 8 else s.f (Fld.EVT_ROUTE_SHP n) := by
  unfold routeWritten
  split
  · exact (f_setF_at (routed3_wf w n x) _ ⟨by decide, by decide⟩).trans (Nat.mod_eq_of_lt (bitsOf_lt _ _ _))
  · exact shp_routed3 w n x

theorem routeWritten_only (hn : n < 512) : OnlyRegs [Adr.EVT_ROUTE n] s (routeWritten s m n x) := by
  have hmem : canon (Adr.EVT_ROUTE n) ∈ [Adr.EVT_ROUTE n] := by
    rw [canon_body (by unfold Adr.EVT_ROUTE; omega)]
    exact List.mem_cons_self
  have h3 : OnlyRegs [Adr.EVT_ROUTE n] s (routed3 s n x) :=
    (((OnlyRegs.refl _ s).setF w (r := Fld.EVT_ROUTE_LGR n) _ hmem).setF (setF_wf w _ _) (r := Fld.EVT_ROUTE_PRIO n) _ hmem).setF
      (setF_wf (setF_wf w _ _) _ _) (r := Fld.EVT_ROUTE_CORE n) _ hmem
  unfold routeWritten
  split
  · exact h3.setF (routed3_wf w n x) (r := Fld.EVT_ROUTE_SHP n) _ hmem
  · exact h3

end Route

end Sys2Proof.Laws

namespace Sys2Proof.Proofs

open Sys2Proof.Machine Sys2Proof.Laws

section Headers

variable {s : State} {p : Nat} (hp : s.pwr.on = true) (w : s.regsWf)
include hp w

theorem runs_eventSet (hpage : s.pageOk p = true) (v : Word) : Runs (.eventSet p v) s fun t =>
    (p ≠ 148 → t.reg (hdr p 4) = (s.reg (hdr p 4) ||| BitVec.ofNat 32 (v.toNat &&& evMask (blockPage p)))) ∧
    (∀ b, b < 32 → bitOf v.toNat b = true → bitOf (evMask (blockPage p)) b = true → bitOf (t.reg (hdr p 4)).toNat b = true) ∧
    OnlyRaised (blockPage p) [] s t := by
  have fold (t : State) : t.reg (hdr p 4) = t.reg (hdr (blockPage p) 4) :=
    reg_of_canon t (by rw [canon_event, canon_event, blockPage_idem])
  refine .liveIf rfl hp hpage ⟨fun hne => ?_, fun b hb hv hm => ?_, ?_⟩
  · rw [doEventSet, fold, fold s, ← event_raiseBits w (blockPage_ne_ledger hne) (blockPage_idem p)]
    exact reg_congr (ok_regs _) _
  · rw [doEventSet, fold, reg_congr (ok_regs _)]
    exact bit_raiseBits w (blockPage p) v.toNat hb hv hm
  · exact ((OnlyRegs.refl [] s).raiseBits w (blockPage_idem p) _).ok

theorem runs_pageLock (hpage : s.pageOk p = true) (v : Word) : Runs (.pageLock p v) s fun t =>
    t.reg (hdr p 7) = (s.reg (hdr p 7) ||| (v &&& 7)) ∧ OnlyRegs [hdr p 7] s t := by
  refine .liveIf rfl hp hpage ⟨?_, ?_⟩
  · exact (reg_congr (ok_regs _) _).trans (reg_setReg_same w _ _)
  · exact ((OnlyRegs.refl _ s).setReg w _ (by rw [canon_lock]; exact List.mem_cons_self)).ok

theorem runs_blockQuiesce (hpage : s.pageOk p = true) (on : Bool) : Runs (.blockQuiesce p on) s fun t =>
    t.quiesced (blockPage p) = on ∧ t.enabled (blockPage p) = s.enabled (blockPage p) ∧ OnlyRegs [canon (hdr p 2)] s t :=
  .liveIf rfl hp hpage ⟨quiesced_doQuiesce w p on, enabled_doQuiesce w p on, doQuiesce_only w p on⟩

theorem runs_blockEnable (hpage : s.pageOk p = true) (on : Bool) (h41 : p ≠ 41) : Runs (.blockEnable p on) s fun t =>
    if fixedPage p then t = s.ok
    else t.enabled (blockPage p) = on ∧ t.quiesced (blockPage p) = s.quiesced (blockPage p) ∧ OnlyRegs [canon (hdr p 2)] s t := by
  refine .liveIf rfl hp hpage ?_
  rw [if_neg h41]
  split
  · exact doEnable_fixed ‹_› on
  · have hfix := Bool.eq_false_iff.2 ‹_›
    exact ⟨enabled_doEnable w on hfix, quiesced_doEnable w on hfix, doEnable_only w on hfix⟩

theorem runs_evtRouteWrite (m : Nat) {n : Nat} (hn : n < 512) (v : Word) : Runs (.evtRouteWrite m n v) s fun t =>
    if s.locked (Adr.EVT_ROUTE n) then t = s.ok
    else t.f (Fld.EVT_ROUTE_LGR n) = bitsOf v.toNat 24 24 ∧ t.f (Fld.EVT_ROUTE_PRIO n) = bitsOf v.toNat 18 16 ∧
      t.f (Fld.EVT_ROUTE_CORE n) = bitsOf v.toNat 3 0 ∧
      t.f (Fld.EVT_ROUTE_SHP n) = (if m = 4 then bitsOf v.toNat 8 8 else s.f (Fld.EVT_ROUTE_SHP n)) ∧
      OnlyRegs [Adr.EVT_ROUTE n] s t := by
  refine .liveIf rfl hp (decide_eq_true hn) ?_
  split
  · exact doEvtRoute_locked ‹_›
  · rw [doEvtRoute_written (Bool.eq_false_iff.2 ‹_›), f_ok, f_ok, f_ok, f_ok]
    refine ⟨?_, ?_, ?_, shp_routeWritten w m n v.toNat, (routeWritten_only w m n v.toNat hn).ok⟩
    · exact (f_routeWritten w m n v.toNat (by decide)).trans (lgr_routed3 w n v.toNat)
    · exact (f_routeWritten w m n v.toNat (by decide)).trans (prio_routed3 w n v.toNat)
    · exact (f_routeWritten w m n v.toNat (by decide)).trans (core_routed3 w n v.toNat)

end Headers

/-- Settles O7: the event word by what raising does, the control and route words field by field. -/
theorem headerWordsAndRoutes : Obligations.HeaderWordsAndRoutes :=
  ⟨fun _ _ v hp w hpage => runs_eventSet hp w hpage v,
    fun _ _ hp w hpage => ⟨runs_pageLock hp w hpage, runs_blockQuiesce hp w hpage, runs_blockEnable hp w hpage⟩,
    fun _ m _ v hp w hn => runs_evtRouteWrite hp w m hn v⟩

end Sys2Proof.Proofs

end

section
/-! ## Changes of the power state; lanes on (R463, R464, R469) -/

namespace Sys2Proof.Laws

open Sys2Proof.Machine

/-! ### Clearing memory (R425) -/

section Sparse

variable {β : Type} [DecidableEq β]

/-- Of a list with rising keys the entries of some keys read as before, the others as unlisted. -/
theorem spGet_filter {d e : Nat → β} (p : Nat → Bool) (k : Nat) {m : List (Nat × β)} (h : spWf e m = true) :
    spGet d (m.filter fun e => p e.1) k = if p k then spGet d m k else d k := by
  induction m with
  | nil => simp [spGet]
  | cons x m ih =>
    obtain ⟨a, v⟩ := x
    obtain ⟨habove, -, hm⟩ := (spWf_cons e a v m).1 h
    rw [List.filter_cons]
    rcases Nat.lt_trichotomy k a with hk | hk | hk
    · have hne : k ≠ a := by omega
      split
      · simp [spGet, hne, hk]
      · rw [ih hm, spGet_of_above d habove (by omega)]
        simp [spGet, hne, hk]
    · subst hk
      split
      · next hp => rw [spGet, if_pos rfl, spGet, if_pos rfl]
      · next hp => rw [ih hm, if_neg hp]
    · have hne : k ≠ a := by omega
      have hlt : ¬k < a := by omega
      split
      · simp only [spGet, if_neg hne, if_neg hlt]
        exact ih hm
      · rw [ih hm]
        simp only [spGet, if_neg hne, if_neg hlt]

omit [DecidableEq β] in
/-- The value of a key depends on what the key alone reads as unlisted. -/
theorem spGet_dflt {d e : Nat → β} {k : Nat} (h : d k = e k) (m : List (Nat × β)) : spGet d m k = spGet e m k := by
  induction m with
  | nil => exact h
  | cons x m ih =>
    obtain ⟨a, v⟩ := x
    simp only [spGet, h, ih]

end Sparse

/-- Where a zero fill lies, unlisted bytes read 0. -/
theorem memDflt_zeroFill {lo hi a : Nat} (l : List Fill) (ha : lo ≤ a ∧ a < hi) : memDflt (addFill ⟨lo, hi, none⟩ l) a = 0 := by
  unfold addFill
  dsimp only
  split
  · next h =>
    unfold memDflt
    rw [List.find?_eq_none.2]
    intro g hg hin
    have hall := List.all_eq_true.1 (Bool.and_eq_true_iff.1 h).2 g hg
    simp only [Bool.and_eq_true, Bool.or_eq_true, decide_eq_true_eq] at hin hall
    omega
  · unfold memDflt
    rw [List.find?_cons_of_pos]
    simpa using ha

section ClearMem

variable {s : State} (hm : s.memWf = true) {lo hi : Nat}
include hm

theorem memWf_clearMem : (s.clearMem lo hi).memWf = true := by
  refine wf_congr (d := memDflt s.mm.fill) (fun e he => ?_) (filter_wf _ _ hm)
  have h := (List.mem_filter.1 he).2
  simp only [Bool.or_eq_true, decide_eq_true_eq] at h
  exact memDflt_addFill h

/-- A byte of a cleared range reads 0. -/
theorem rd8_clearMem_in {a : Nat} (ha : lo ≤ a ∧ a < hi) : (s.clearMem lo hi).rd8 a = 0 := by
  refine (spGet_filter (fun k => decide (k < lo) || decide (hi ≤ k)) a hm).trans ?_
  rw [if_neg (by simp only [Bool.or_eq_true, decide_eq_true_eq]; omega)]
  exact memDflt_zeroFill s.mm.fill ha

/-- A byte outside it reads as before. -/
theorem rd8_clearMem_out {a : Nat} (ha : a < lo ∨ hi ≤ a) : (s.clearMem lo hi).rd8 a = s.rd8 a := by
  refine (spGet_filter (fun k => decide (k < lo) || decide (hi ≤ k)) a hm).trans ?_
  rw [if_pos (by simpa only [Bool.or_eq_true, decide_eq_true_eq] using ha)]
  exact spGet_dflt (memDflt_addFill (f := ⟨lo, hi, none⟩) ha) s.mem

end ClearMem

/-! ### Lanes on (R464, R335) -/

/-- The memories of the lanes and of the feature engine are cleared. -/
def lanesCleared (s : State) : State := (s.clearMem 0x2000_0000 0x2180_0000).clearMem 0x3000_0000 0x3040_0000

/-- The lanes have power. -/
def lanesPowered (s : State) : State := (lanesCleared s).setF Fld.PWR_STAT_LANES_ON 1

theorem lanesUp_powers {s : State} (h : s.fb Fld.PWR_STAT_LANES_ON = false) : s.lanesUp =
    if 2 ≤ (lanesPowered s).role then (lanesPowered s).setF Fld.PAR_STAT_LANES_UP 1 else lanesPowered s := by
  unfold State.lanesUp
  rw [h]
  rfl

section LanesCleared

variable {s : State} (hm : s.memWf = true)
include hm

theorem rd8_lanesCleared_in {a : Nat} (ha : (0x2000_0000 ≤ a ∧ a < 0x2180_0000) ∨ (0x3000_0000 ≤ a ∧ a < 0x3040_0000)) :
    (lanesCleared s).rd8 a = 0 := by
  unfold lanesCleared
  rcases ha with ha | ha
  · rw [rd8_clearMem_out (memWf_clearMem hm) (Or.inl (by omega)), rd8_clearMem_in hm ha]
  · rw [rd8_clearMem_in (memWf_clearMem hm) ha]

theorem rd8_lanesCleared_below {a : Nat} (ha : a < 0x2000_0000) : (lanesCleared s).rd8 a = s.rd8 a := by
  unfold lanesCleared
  rw [rd8_clearMem_out (memWf_clearMem hm) (Or.inl (by omega)), rd8_clearMem_out hm (Or.inl ha)]

end LanesCleared

section LanesPowered

variable {s : State} (w : s.regsWf)
include w

theorem lanesCleared_wf : (lanesCleared s).regsWf := regsWf_congr (s := s) rfl w

theorem lanesPowered_writes : Writes [Adr.PWR_STAT, Adr.PAR_STAT] (lanesCleared s) (lanesPowered s) :=
  (Writes.refl (lanesCleared_wf w)).setF (r := Fld.PWR_STAT_LANES_ON) 1 (by decide) (by decide)

theorem lanesUp_writes (h : s.fb Fld.PWR_STAT_LANES_ON = false) : Writes [Adr.PWR_STAT, Adr.PAR_STAT] (lanesCleared s) s.lanesUp := by
  rw [lanesUp_powers h]
  split
  · exact (lanesPowered_writes w).setF (r := Fld.PAR_STAT_LANES_UP) 1 (by decide) (by decide)
  · exact lanesPowered_writes w

theorem lanesUp_kept (h : s.fb Fld.PWR_STAT_LANES_ON = false) : RegsKept [Adr.PWR_STAT, Adr.PAR_STAT] s s.lanesUp := fun a ha =>
  ((lanesUp_writes w h).kept a ha).trans (reg_congr rfl a)

theorem role_lanesPowered : (lanesPowered s).role = s.role :=
  (f_setF_ne (lanesCleared_wf w) (r := Fld.PWR_STAT_LANES_ON) (q := Fld.PAR_STAT_ROLE) 1 (by decide)).trans (f_congr rfl _)

theorem on_lanesPowered : (lanesPowered s).f Fld.PWR_STAT_LANES_ON = 1 :=
  f_setF_same (lanesCleared_wf w) Fld.PWR_STAT_LANES_ON 1 (by decide) (by decide)

theorem on_lanesUp (h : s.fb Fld.PWR_STAT_LANES_ON = false) : s.lanesUp.fb Fld.PWR_STAT_LANES_ON = true := by
  have hon : s.lanesUp.f Fld.PWR_STAT_LANES_ON = 1 := by
    rw [lanesUp_powers h]
    split
    · exact (f_setF_ne (lanesPowered_writes w).wf (r := Fld.PAR_STAT_LANES_UP) 1 (by decide)).trans (on_lanesPowered w)
    · exact on_lanesPowered w
  rw [fb_def, hon]
  rfl

/-- A commanding unit tells its lanes up. -/
theorem told_lanesUp (h : s.fb Fld.PWR_STAT_LANES_ON = false) (hr : 2 ≤ s.role) : s.lanesUp.f Fld.PAR_STAT_LANES_UP = 1 := by
  rw [lanesUp_powers h, if_pos (by rw [role_lanesPowered w]; exact hr)]
  exact f_setF_same (lanesPowered_writes w).wf Fld.PAR_STAT_LANES_UP 1 (by decide) (by decide)

end LanesPowered

/-! ### The state in force changes (R464) -/

/-- Nothing is waited for any more. -/
def nothingWaits (s : State) : State := { s with pwr := { s.pwr with pendingDown := none } }

/-- `PWR_STAT` tells state `n`. -/
def powerShown (s : State) (n : Nat) : State :=
  ((nothingWaits s).setF Fld.PWR_STAT_STATE n).setF Fld.PWR_STAT_CORES_FULL (b2n (decide (n ≤ 1)))

/-- The change is told. -/
def powerTold (s : State) (n : Nat) : State := (powerShown s n).raise Ev.PWR_STATE_CHANGED

theorem applyPower_up {s : State} {n : Nat} (h : s.f Fld.PWR_STAT_STATE ≠ n) (hn : n < 2) : s.applyPower n = powerTold s n := by
  unfold State.applyPower
  dsimp only
  rw [if_neg h, if_neg (by omega), if_neg (by omega)]
  rfl

theorem applyPower_lanesOff {s : State} (h : s.f Fld.PWR_STAT_STATE ≠ 2) : s.applyPower 2 = (powerTold s 2).lanesDown := by
  unfold State.applyPower
  dsimp only
  rw [if_neg h, if_neg (by decide), if_pos (by decide)]
  rfl

/-- Every job and grid pass is lost. -/
def workLost (s : State) : State :=
  { s with gfe := { s.gfe with pass := none, map := none }, lsc := { s.lsc with lane := List.replicate 96 {} } }

theorem lanesDown_on {s : State} (h : s.fb Fld.PWR_STAT_LANES_ON = true) :
    s.lanesDown = (workLost s).setF Fld.PWR_STAT_LANES_ON 0 := if_pos h

theorem lanesDown_off {s : State} (h : s.fb Fld.PWR_STAT_LANES_ON = false) : s.lanesDown = s := if_neg (ne_true_of_eq_false h)

section LanesDown

variable {s : State} (w : s.regsWf)
include w

theorem workLost_writes : Writes [Adr.PWR_STAT] s (workLost s) := (Writes.refl w).same rfl rfl rfl

theorem lanesDown_writes : Writes [Adr.PWR_STAT] s s.lanesDown := by
  cases h : s.fb Fld.PWR_STAT_LANES_ON with
  | true =>
    rw [lanesDown_on h]
    exact (workLost_writes w).setF (r := Fld.PWR_STAT_LANES_ON) 0 (by decide) (by decide)
  | false =>
    rw [lanesDown_off h]
    exact Writes.refl w

/-- A field of `PWR_STAT` beside `LANES_ON`. -/
theorem f_lanesDown {hi lo : Nat} (hf : lo ≤ hi ∧ (hi < 28 ∨ 28 < lo)) :
    s.lanesDown.f ⟨Adr.PWR_STAT, hi, lo⟩ = s.f ⟨Adr.PWR_STAT, hi, lo⟩ := by
  cases h : s.fb Fld.PWR_STAT_LANES_ON with
  | true =>
    rw [lanesDown_on h]
    exact (f_setF_beside (workLost_writes w).wf 0 (by decide) hf).trans (f_congr rfl _)
  | false => rw [lanesDown_off h]

theorem lanes_lanesDown (h : s.fb Fld.PWR_STAT_LANES_ON = true) :
    s.lanesDown.f Fld.PWR_STAT_LANES_ON = 0 ∧ s.lanesDown.gfe.pass = none ∧ s.lanesDown.lsc.lane = List.replicate 96 {} := by
  rw [lanesDown_on h]
  exact ⟨f_setF_same (workLost_writes w).wf Fld.PWR_STAT_LANES_ON 0 (by decide) (by decide), rfl, rfl⟩

end LanesDown

theorem pwr_lanesDown (s : State) : s.lanesDown.pwr = s.pwr := by
  cases h : s.fb Fld.PWR_STAT_LANES_ON with
  | true =>
    rw [lanesDown_on h, setF_pwr]
    rfl
  | false => rw [lanesDown_off h]

section PowerTold

variable {s : State} (w : s.regsWf) (n : Nat)
include w

theorem nothingWaits_wf : (nothingWaits s).regsWf := regsWf_congr (s := s) rfl w

theorem powerShown_writes : Writes (evWords 1 ++ [Adr.PWR_STAT]) s (powerShown s n) :=
  (((Writes.refl w).same (u := nothingWaits s) rfl rfl rfl).setF (r := Fld.PWR_STAT_STATE) n (by decide) (by decide)).setF
    (r := Fld.PWR_STAT_CORES_FULL) _ (by decide) (by decide)

theorem powerTold_writes : Writes (evWords 1 ++ [Adr.PWR_STAT]) s (powerTold s n) :=
  (powerShown_writes w n).raise (e := Ev.PWR_STATE_CHANGED) rfl (fun _ h => List.mem_append_left _ h)

theorem f_powerTold {q : RF} (hq : canon q.a = canon Adr.PWR_STAT) : (powerTold s n).f q = (powerShown s n).f q :=
  f_raise (powerShown_writes w n).wf rfl (by rw [hq]; decide)

theorem state_powerTold (hn : n < 8) : (powerTold s n).f Fld.PWR_STAT_STATE = n := by
  rw [f_powerTold w n rfl]
  refine (f_setF_beside (setF_wf (nothingWaits_wf w) _ _) _ (by decide) (by decide)).trans ?_
  exact (f_setF_same (nothingWaits_wf w) Fld.PWR_STAT_STATE n (by decide) (by decide)).trans (Nat.mod_eq_of_lt hn)

theorem coresFull_powerTold : (powerTold s n).f Fld.PWR_STAT_CORES_FULL = b2n (decide (n ≤ 1)) := by
  rw [f_powerTold w n rfl]
  refine (f_setF_same (setF_wf (nothingWaits_wf w) _ _) Fld.PWR_STAT_CORES_FULL _ (by decide) (by decide)).trans ?_
  exact b2n_mod _

theorem lanesOn_powerTold : (powerTold s n).fb Fld.PWR_STAT_LANES_ON = s.fb Fld.PWR_STAT_LANES_ON := by
  rw [fb_def, fb_def, f_powerTold w n rfl]
  refine congrArg (· != 0) ?_
  refine (f_setF_beside (setF_wf (nothingWaits_wf w) _ _) _ (by decide) (by decide)).trans ?_
  exact (f_setF_beside (nothingWaits_wf w) n (by decide) (by decide)).trans (f_congr rfl _)

theorem raised_powerTold : (powerTold s n).raised Ev.PWR_STATE_CHANGED := raise_sets (powerShown_writes w n).wf (by decide) (by decide)

end PowerTold

theorem pwr_powerTold (s : State) (n : Nat) : (powerTold s n).pwr = { s.pwr with pendingDown := none } := by
  rw [powerTold, raise_parts]
  rfl

/-- What every change to a state above `DOZE` comes to. -/
structure PowerChanged (s : State) (n : Nat) (t : State) : Prop where
  state : t.f Fld.PWR_STAT_STATE = n
  cores : t.f Fld.PWR_STAT_CORES_FULL = b2n (decide (n ≤ 1))
  told : t.raised Ev.PWR_STATE_CHANGED
  pwr : t.pwr = { s.pwr with pendingDown := none }
  writes : Writes (evWords 1 ++ [Adr.PWR_STAT]) s t

theorem powerTold_changed {s : State} (w : s.regsWf) {n : Nat} (hn : n < 8) : PowerChanged s n (powerTold s n) where
  state := state_powerTold w n hn
  cores := coresFull_powerTold w n
  told := raised_powerTold w n
  pwr := pwr_powerTold s n
  writes := powerTold_writes w n

theorem PowerChanged.lanesDown {s t : State} {n : Nat} (h : PowerChanged s n t) : PowerChanged s n t.lanesDown where
  state := (f_lanesDown h.writes.wf (by decide)).trans h.state
  cores := (f_lanesDown h.writes.wf (by decide)).trans h.cores
  told := (lanesDown_writes h.writes.wf).stays _ h.told
  pwr := (pwr_lanesDown t).trans h.pwr
  writes := h.writes.trans ((lanesDown_writes h.writes.wf).mono (fun _ ha => List.mem_append_right _ ha))

theorem applyPower_changed {s : State} (w : s.regsWf) {n : Nat} (hn : n ≤ 2) (h : s.f Fld.PWR_STAT_STATE ≠ n) :
    PowerChanged s n (s.applyPower n) := by
  rcases Nat.lt_or_eq_of_le hn with h2 | rfl
  · rw [applyPower_up h h2]
    exact powerTold_changed w (by omega)
  · rw [applyPower_lanesOff h]
    exact (powerTold_changed w (by decide)).lanesDown

end Sys2Proof.Laws

namespace Sys2Proof.Proofs

open Sys2Proof.Machine Sys2Proof.Laws

/-- Settles O23: `applyPower_changed` with the loss of the lanes' work, and `lanesUp` over cleared memories. -/
theorem powerChangesTakeEffect : Obligations.PowerChangesTakeEffect := by
  refine ⟨fun s n w hn h => ?_, fun s hp w hm hst hoff => ?_⟩
  · have hc := applyPower_changed w hn h
    refine ⟨hc.state, hc.cores, hc.told, hc.pwr, hc.writes.kept, hc.writes.mem, fun h2 hlanes => ?_⟩
    subst h2
    rw [applyPower_lanesOff h]
    exact lanes_lanesDown (powerTold_writes w 2).wf ((lanesOn_powerTold w 2).trans hlanes)
  · have hmem := (lanesUp_writes w hoff).mem
    exact .liveIf rfl hp (decide_eq_true hst) ⟨on_lanesUp w hoff, told_lanesUp w hoff,
      fun a ha => (hmem a).trans (rd8_lanesCleared_in hm ha), fun a ha => (hmem a).trans (rd8_lanesCleared_below hm ha),
      lanesUp_kept w hoff⟩

end Sys2Proof.Proofs

end

section
/-! ## Start-up

The end of step 0 with the march tests of every memory, the release of cores, the end of step 2 and the shepherd core's section (R468,
R471, R475, R476). -/

namespace Sys2Proof.Laws

open Sys2Proof.Machine

/-! ### Step 0 ends (R476, R428) -/

/-- What step 0 of start-up waits for. -/
def StepZeroReady (s : State) : Prop :=
  s.f Fld.SYS_START_STEP = 0 ∧ s.pwr.mainHeld = false ∧ s.f Fld.NFC_STAT_STATE ≠ 1 ∧ s.lgr.scanned = true ∧
    (s.warmStart || (s.mm.cleared && s.fb Fld.DRC_STAT_TRAINED)) = true

theorem bootOn_ready {s : State} (h : StepZeroReady s) : s.bootOn = (s.setF Fld.SYS_START_STEP 1).marchAll := if_pos h

theorem bootOn_waits {s : State} (h : ¬StepZeroReady s) : s.bootOn = s := if_neg h

/-- The march tests of every memory: the feature engine, the lanes, the banks. -/
def allMarches (preserve : Bool) : List March :=
  ({ target := 2, index := 0, preserve := false } : March) ::
    ((List.range 96).map fun l => { target := 1, index := l, preserve := false }) ++
    (List.range 64).map fun b => { target := 0, index := b, preserve := preserve }

theorem length_allMarches (preserve : Bool) : (allMarches preserve).length = 161 := by
  simp only [allMarches, List.length_append, List.length_cons, List.length_map, List.length_range]

/-- Every bank's deed passes to the march engine where the tests are destructive. -/
def deedsToMarch (s : State) : State := if s.warmStart then s else forUp 64 (fun b t => t.passDeed b 27) s

/-- The tests stand in the march engine's list. -/
def marchesListed (s : State) (t : State) : State := { t with mm := { t.mm with march := allMarches s.warmStart } }

theorem marchAll_eq (s : State) : s.marchAll = (marchesListed s (deedsToMarch s)).setF Fld.MAR_STAT_BUSY 1 := rfl

/-- Passing a bank's deed leaves the step of start-up. -/
theorem step_passDeed {t : State} (w : t.regsWf) {b : Nat} (hb : b < 64) (h : Nat) :
    (t.passDeed b h).f Fld.SYS_START_STEP = t.f Fld.SYS_START_STEP := by
  have hne : canon Adr.SYS_START ≠ Adr.MEM_DEED b := show 14 ≠ 147520 + b by omega
  exact (passDeed_kept w b h hb).field _ fun hm => (List.mem_cons.1 hm).elim hne (by decide)

section Marches

variable {s : State} (w : s.regsWf)
include w

theorem deedsToMarch_step : (deedsToMarch s).regsWf ∧ (deedsToMarch s).f Fld.SYS_START_STEP = s.f Fld.SYS_START_STEP := by
  unfold deedsToMarch
  split
  · exact ⟨w, rfl⟩
  · exact forUp_induct (P := fun n (t : State) => n ≤ 64 → t.regsWf ∧ t.f Fld.SYS_START_STEP = s.f Fld.SYS_START_STEP)
      (fun _ => ⟨w, rfl⟩)
      (fun b t ih hb => by
        obtain ⟨wt, ht⟩ := ih (by omega)
        exact ⟨passDeed_wf wt b 27, (step_passDeed wt (by omega) 27).trans ht⟩) 64 (Nat.le_refl 64)

theorem marchesListed_wf : (marchesListed s (deedsToMarch s)).regsWf := regsWf_congr (s := deedsToMarch s) rfl (deedsToMarch_step w).1

theorem busy_marchAll : s.marchAll.fb Fld.MAR_STAT_BUSY = true := by
  rw [marchAll_eq]
  exact fb_setF_b2n (marchesListed_wf w) true rfl (by decide)

theorem step_marchAll : s.marchAll.f Fld.SYS_START_STEP = s.f Fld.SYS_START_STEP := by
  rw [marchAll_eq]
  refine (f_setF_ne (marchesListed_wf w) (r := Fld.MAR_STAT_BUSY) 1 (by decide)).trans ?_
  exact (f_congr (s := deedsToMarch s) rfl _).trans (deedsToMarch_step w).2

end Marches

theorem marches_marchAll (s : State) : s.marchAll.mm.march.length = 161 := by
  rw [marchAll_eq, setF_mm]
  exact length_allMarches _

/-! ### Step 2 ends (R476) -/

/-- The end of step 2 is refused. -/
def nextRefused (s : State) : State := (s.setF Fld.SYS_START_NEXT_REF 1).raise Ev.SYS_NEXT_REFUSED

theorem next_begins {s : State} (h2 : s.f Fld.SYS_START_STEP = 2) (he : s.fb Fld.FWL_STAT_ENFORCE = true) :
    s.next = (s.setF Fld.SYS_START_STEP 3).safStep := if_pos ⟨h2, he⟩

theorem next_refused {s : State} (h : s.f Fld.SYS_START_STEP ≠ 2 ∨ s.fb Fld.FWL_STAT_ENFORCE = false) : s.next = nextRefused s :=
  if_neg fun k => h.elim (fun h2 => h2 k.1) (fun he => Bool.false_ne_true (he.symm.trans k.2))

/-- Step 3 waits for the shepherd core. -/
theorem safStep_waits {s : State} (h : s.shpRuns = false) : s.safStep = s := if_pos (Or.inr h)

theorem shpRuns_setF (s : State) (r : RF) (v : Nat) : (s.setF r v).shpRuns = s.shpRuns := by
  unfold State.shpRuns
  rw [setF_pwr]

section Refused

variable {s : State} (w : s.regsWf)
include w

theorem f_nextRefused {q : RF} (hq : canon q.a = canon Adr.SYS_START) : (nextRefused s).f q = (s.setF Fld.SYS_START_NEXT_REF 1).f q :=
  f_raise (setF_wf w _ _) rfl (by rw [hq]; decide)

theorem refused_nextRefused : (nextRefused s).f Fld.SYS_START_NEXT_REF = 1 :=
  (f_nextRefused w rfl).trans (f_setF_same w Fld.SYS_START_NEXT_REF 1 (by decide) (by decide))

theorem step_nextRefused : (nextRefused s).f Fld.SYS_START_STEP = s.f Fld.SYS_START_STEP :=
  (f_nextRefused w rfl).trans (f_setF_beside w 1 (by decide) (by decide))

theorem raised_nextRefused : (nextRefused s).raised Ev.SYS_NEXT_REFUSED := raise_sets (setF_wf w _ _) (by decide) (by decide)

theorem nextRefused_only : OnlyRaised 0 [Adr.SYS_START] s (nextRefused s) :=
  ((OnlyRegs.refl _ s).setF w (r := Fld.SYS_START_NEXT_REF) 1 (by decide)).raise (e := Ev.SYS_NEXT_REFUSED) (setF_wf w _ _) rfl

end Refused

/-! ### The shepherd core's section (R475) -/

/-- The section `r` read is out of hand. -/
def sectionRead (r : Reply) : State := { r.st with pwr := { r.st.pwr with shpSection := none } }

/-- The section `d` of bank `b` stands in the shepherd core's memory, and the bank's deed is passed back. -/
def sectionStored (t : State) (b : Nat) (d : List Byte) : State := (t.store 0x0100_0000 d).passDeed b 0

/-- The shepherd core starts on a section of hash `h`. -/
def sectionStarts (u : State) (h : List Byte) : State := State.safStep { u with pwr := { u.pwr with shpWaiting := false, shpHash := h } }

/-- What the section `r` read from bank `b` comes to. -/
def sectionTaken (s : State) (b : Nat) (r : Reply) : State :=
  if r.rsp = .okay ∧ sha384 r.data = s.pwr.shpNew ∧ sectionSigned r.data = true then
    sectionStarts (sectionStored (sectionRead r) b r.data) s.pwr.shpNew
  else sectionRead r

theorem shpStart_none {s : State} (h : s.pwr.shpSection = none) : s.shpStart = s := by
  unfold State.shpStart
  rw [h]

theorem shpStart_some {s : State} {b n : Nat} (h : s.pwr.shpSection = some (b, n)) :
    s.shpStart = sectionTaken s b (s.mRead 4 (bankAddr b 0) n) := by
  unfold State.shpStart
  rw [h]
  rfl

theorem sectionTaken_unread {s : State} {b : Nat} {r : Reply} (h : r.rsp ≠ .okay) : sectionTaken s b r = sectionRead r :=
  if_neg fun k => h k.1

theorem sectionTaken_starts {s : State} {b : Nat} {r : Reply} (hr : r.rsp = .okay)
    (h : sha384 r.data = s.pwr.shpNew ∧ sectionSigned r.data = true) :
    sectionTaken s b r = sectionStarts (sectionStored (sectionRead r) b r.data) s.pwr.shpNew := if_pos ⟨hr, h⟩

theorem sectionTaken_dropped {s : State} {b : Nat} {r : Reply} (h : ¬(sha384 r.data = s.pwr.shpNew ∧ sectionSigned r.data = true)) :
    sectionTaken s b r = sectionRead r := if_neg fun k => h k.2

end Sys2Proof.Laws

namespace Sys2Proof.Proofs

open Sys2Proof.Machine Sys2Proof.Laws

/-- The end of step 0, or none. -/
theorem bootOn_step {s : State} (w : s.regsWf) :
    (StepZeroReady s → s.bootOn.mm.march.length = 161 ∧ s.bootOn.fb Fld.MAR_STAT_BUSY = true ∧ s.bootOn.f Fld.SYS_START_STEP = 1) ∧
    (¬StepZeroReady s → s.bootOn = s) := by
  refine ⟨fun h => ?_, bootOn_waits⟩
  have w1 : (s.setF Fld.SYS_START_STEP 1).regsWf := setF_wf w _ _
  rw [bootOn_ready h]
  exact ⟨marches_marchAll _, busy_marchAll w1, (step_marchAll w1).trans (f_setF_same w Fld.SYS_START_STEP 1 (by decide) (by decide))⟩

section Start

variable {s : State} (hp : s.pwr.on = true)
include hp

theorem runs_coreRel (v : Word) : Runs (.coreRel v) s fun t => t.pwr.cores = (s.pwr.cores ||| (v.toNat &&& 14)) ∧
    t = { s with pwr := { s.pwr with cores := t.pwr.cores }, answer := ⟨.okay, []⟩ } := .live rfl hp ⟨rfl, rfl⟩

theorem runs_next_begins (w : s.regsWf) (h2 : s.f Fld.SYS_START_STEP = 2) (he : s.fb Fld.FWL_STAT_ENFORCE = true) :
    Runs .next s fun t => t = (s.setF Fld.SYS_START_STEP 3).safStep.ok ∧ (s.shpRuns = false → t.f Fld.SYS_START_STEP = 3) := by
  refine .live rfl hp ?_
  rw [next_begins h2 he]
  refine ⟨rfl, fun hs => ?_⟩
  rw [safStep_waits ((shpRuns_setF s _ _).trans hs), f_ok]
  exact f_setF_same w Fld.SYS_START_STEP 3 (by decide) (by decide)

theorem runs_next_refused (w : s.regsWf) (h : s.f Fld.SYS_START_STEP ≠ 2 ∨ s.fb Fld.FWL_STAT_ENFORCE = false) : Runs .next s fun t =>
    t.f Fld.SYS_START_NEXT_REF = 1 ∧ t.raised Ev.SYS_NEXT_REFUSED ∧ t.f Fld.SYS_START_STEP = s.f Fld.SYS_START_STEP ∧
    OnlyRaised 0 [Adr.SYS_START] s t := by
  refine .live rfl hp ?_
  rw [next_refused h, f_ok, f_ok]
  exact ⟨refused_nextRefused w, raised_ok (raised_nextRefused w), step_nextRefused w, (nextRefused_only w).ok⟩

theorem runs_section_none (h : s.pwr.shpSection = none) : Runs .shepherdSectionStart s fun t => t = s := .live rfl hp (shpStart_none h)

variable {b n : Nat} (h : s.pwr.shpSection = some (b, n))
include h

theorem runs_section {P : State → Prop} (hP : P (sectionTaken s b (s.mRead 4 (bankAddr b 0) n))) : Runs .shepherdSectionStart s P := by
  refine .live rfl hp ?_
  rw [shpStart_some h]
  exact hP

theorem runs_section_unread (hr : (s.mRead 4 (bankAddr b 0) n).rsp ≠ .okay) : Runs .shepherdSectionStart s fun t =>
    t = sectionRead (s.mRead 4 (bankAddr b 0) n) := runs_section hp h (sectionTaken_unread hr)

theorem runs_section_read {r : Reply} (he : r = s.mRead 4 (bankAddr b 0) n) (hr : r.rsp = .okay) : Runs .shepherdSectionStart s fun t =>
    if sha384 r.data = s.pwr.shpNew ∧ sectionSigned r.data = true then
      ∃ u : State, t = sectionStarts u s.pwr.shpNew ∧ u = sectionStored (sectionRead r) b r.data
    else t = sectionRead r := by
  refine runs_section hp h ?_
  rw [← he]
  split
  · exact ⟨_, sectionTaken_starts hr ‹_›, rfl⟩
  · exact sectionTaken_dropped ‹_›

end Start

/-- Settles O27: the end of step 0 with every march listed, the cores' release, the end of step 2, and the section read. -/
theorem startUpStepsInOrder : Obligations.StartUpStepsInOrder :=
  ⟨fun _ w => bootOn_step w, fun _ v hp => runs_coreRel hp v, fun _ hp w => ⟨runs_next_begins hp w, runs_next_refused hp w⟩,
    fun _ hp => ⟨runs_section_none hp, fun _ _ h => ⟨runs_section_unread hp h, runs_section_read hp h rfl⟩⟩⟩

end Sys2Proof.Proofs

end
